-- ==== Sys2Proof/Word.lean ====
section
/-! DEFINITION. The word types of the HX720 and their plainest arithmetic (00 R23, 03 R120). -/

namespace Sys2Proof

/-- Eight bits, the smallest addressable unit (R120). -/
abbrev Byte := BitVec 8

/-- A 64-bit register, scalar register or bank word (R23, R178, R123). -/
abbrev Word := BitVec 64

/-- The bits of an FP32 value (R65). -/
abbrev F32 := BitVec 32

/-- A vector register's bits (R178). -/
abbrev VWord := BitVec 2048

/-- A c register's bits (R178). -/
abbrev CWord := BitVec 1024

/-- The little-endian value of a list of bytes. -/
def leNat : List Byte → Nat
  | [] => 0
  | b :: r => b.toNat + 256 * leNat r

/-- The `n` little-endian bytes of a number. -/
def leBytes : Nat → Nat → List Byte
  | 0, _ => []
  | n + 1, x => BitVec.ofNat 8 x :: leBytes n (x / 256)

/-- Bits `hi` down to `lo` of a number. -/
def bitsOf (x hi lo : Nat) : Nat := (x >>> lo) % 2 ^ (hi + 1 - lo)

/-- One bit of a number. -/
def bitOf (x i : Nat) : Bool := x.testBit i

/-- The two's complement reading of the low `w` bits of a number. -/
def signed (w x : Nat) : Int :=
  let y := x % 2 ^ w
  if y < 2 ^ (w - 1) then (y : Int) else (y : Int) - (2 ^ w : Nat)

/-- The low `w` bits of an integer, as a number. -/
def wrap (w : Nat) (i : Int) : Nat := (i % ((2 ^ w : Nat) : Int)).toNat

/-- Ceiling division. -/
def cdiv (a b : Nat) : Nat := (a + b - 1) / b

/-- The smallest `k` with `2 ^ k ≥ n`, searched upward with fuel 64. -/
def clog2 (n : Nat) : Nat := (List.range 64).foldr (fun k r => if n ≤ 2 ^ k then k else r) 64

/-- 1 for true, 0 for false. -/
def b2n (b : Bool) : Nat := if b then 1 else 0

end Sys2Proof
end

