-- ==== Sys2Proof/Syntax.lean ====
section
/-! DEFINITION. The commands of the HX720: one constructor of Instr for each row of
spec/opcode_table.json, with the operands the row needs. -/

namespace Sys2Proof

/-- Where an instruction slot issues: tile (physical index), strand, slot of the bundle, predicate
(R191) and whether it is the last slot given of its bundle, which then issues as a unit (R194). -/
structure Site where
  tile : Nat
  strand : Nat
  slot : Nat
  pn : Bool
  pr : Nat
  last : Bool
  deriving DecidableEq, Repr

/-- Operand format R3 (R192). -/
structure FmtR3 where
  rd : Nat
  ra : Nat
  rb : Nat
  fn : Nat
  deriving DecidableEq, Repr

/-- Operand format RI: imm11 as its 11 bits (R192). -/
structure FmtRI where
  rd : Nat
  ra : Nat
  imm : Nat
  deriving DecidableEq, Repr

/-- Operand format RW: imm16 as its 16 bits (R192). -/
structure FmtRW where
  rd : Nat
  imm : Nat
  deriving DecidableEq, Repr

/-- Operand format W (R192). -/
structure FmtW where
  n : Nat
  ra : Nat
  pd : Nat
  fn : Nat
  deriving DecidableEq, Repr

/-- Operand format D (R192). -/
structure FmtD where
  sa : Nat
  sb : Nat
  fn : Nat
  deriving DecidableEq, Repr

/-- Operand format E (R192). -/
structure FmtE where
  da : Nat
  db : Nat
  kc : Nat
  mode : Nat
  deriving DecidableEq, Repr

/-- What a read of a transfer's next element met, beside what the stores' own checks say (R379). -/
inductive ReadOutcome where
  | good
  | edgePortFailed
  | hostError
  | fabricError (code : Nat)
  deriving DecidableEq, Repr

/-- The body of a received frame, as the port's parser gives it (R467 to R475, R495 to R497). -/
inductive FrameBody where
  /-- eCPRI type 0, O-RAN U-plane or time-domain samples: one section. -/
  | uplane (eaxc seqId : Nat) (eBit concat timeDomain : Bool) (airStrike symbol start width : Nat)
      (blocks : List (Nat × List Nat))
  /-- eCPRI of another message type; over IP or UDP with `ip`. -/
  | ecpri (msgType eaxc seqId : Nat) (ip : Bool)
  /-- PTP: message type, domain, and for Sync the measured offset in ns. -/
  | ptp (msgType domain : Nat) (fromMaster : Bool) (offset : Int)
  /-- ESMC: the quality level is acceptable or not. -/
  | esmc (goodLevel : Bool)
  | other
  deriving DecidableEq, Repr

/-- A received Ethernet frame (R467). -/
structure Frame where
  dst : Nat
  ethertype : Nat
  subtype : Nat
  tags : Nat
  len : Nat
  fcsOk : Bool
  body : FrameBody
  deriving DecidableEq, Repr

/-- How a fabric frame came out of FEC and CRC (R559). -/
inductive FrameCheck where
  | clean
  | corrected
  | crcBad
  /-- a retry request of the partner: frames of the replay buffer that are sent again -/
  | retryRequest (frames : Nat)
  deriving DecidableEq, Repr

/-- A request packet at its target (R567, R568, R574); bit k of `poison` marks byte k of its data, or bit 0 its operand
(R577). -/
structure FabReq where
  src : Nat
  job : Nat
  key : Nat
  seqNo : Nat
  kind : Nat
  addr : Nat
  operand : Nat
  expect : Nat
  data : List (BitVec 8)
  poison : Nat
  cnt : Option Nat
  deriving DecidableEq, Repr

/-- How a fabric request came back to its source (R574, R568, R580); bit k of `poison` marks byte k of the value. -/
structure FabAck where
  dest : Nat
  seqNo : Nat
  value : Nat
  poison : Nat
  code : Nat
  deriving DecidableEq, Repr

/-- A reduction at a reducer (R586, R587): job slot, group, operation number, logical tile, and phase: 0 whole records,
1 the slices that this contributor combines, 2 combined slices. -/
structure RedKey where
  part : Nat
  group : Nat
  seqNo : Nat
  tile : Nat
  phase : Nat
  deriving DecidableEq, Repr

/-- What a contribution carries beside its record (R586): the contributor's place in the group, the receiving group,
and where the result goes. -/
structure RedHead where
  contributor : Nat
  dgroup : Nat
  cnt : Nat
  dtag : Nat
  ddata : Nat
  deriving DecidableEq, Repr

/-- One command of the HX720 for each row of spec/opcode_table.json, in the table's order. Where a row stands for
several opcodes, `op` is the OP field of R244. -/
inductive Instr where
  -- BAR0 and mesh
  | registerWrite (fn addr size : Nat) (data : Word)
  | registerReadSideEffect (fn addr size : Nat)
  | meshFlitResend (link : Nat) (again : Bool)
  -- tile
  | governorFrame (tile readyF readyM readyB unitsM unitsB : Nat)
  | eccWriteBack (tile bank : Nat)
  | scrubLine (tile bank : Nat)
  | portPromotion (tile bank order : Nat)
  | tileZero (tile : Nat)
  | tileZeroComplete (tile : Nat)
  | tileFence (tile : Nat)
  | tileLogicFault (tile : Nat)
  | strandReset (tile : Nat)
  | tileHalt (tile : Nat) (halt : Bool)
  | strandEnable (tile mask : Nat)
  | tileSramDataRead (tile : Nat)
  | tileSramDataWrite (tile : Nat) (data : Word)
  | tileGovWrite (tile : Nat) (data : Word)
  | fetchLineArrival (tile line : Nat)
  | paneArrival (tile stream : Nat)
  | bufferSwap (tile strand : Nat)
  -- Tongs: control, waits, special registers
  | nop (site : Site)
  | br (site : Site) (off : Nat)
  | call (site : Site) (off : Nat)
  | jr (site : Site) (f : FmtR3)
  | loop (site : Site) (ra len : Nat)
  | loopc (site : Site) (ra len : Nat)
  | halt (site : Site)
  | rfe (site : Site)
  | sync (site : Site)
  | wait (site : Site) (f : FmtW)
  | waitSatisfied (tile strand : Nat)
  | waitT (site : Site) (f : FmtW)
  | waitTimeout (tile strand : Nat)
  | acadd (site : Site) (f : FmtW)
  | acset (site : Site) (f : FmtW)
  | wward (site : Site) (f : FmtW)
  | wfence (site : Site) (f : FmtW)
  | mfsr (site : Site) (f : FmtRI)
  | mtsr (site : Site) (f : FmtRI)
  -- Tongs: scalar
  | scalarAlu (site : Site) (f : FmtR3)
  | scalarShift (site : Site) (f : FmtR3)
  | scalarMul (site : Site) (f : FmtR3)
  | scalarMulh (site : Site) (f : FmtR3)
  | scalarMinmax (site : Site) (f : FmtR3)
  | scalarAluImm (site : Site) (op : Nat) (f : FmtRI)
  | scalarShiftImm (site : Site) (op : Nat) (f : FmtRI)
  | li (site : Site) (f : FmtRW)
  | ins16 (site : Site) (f : FmtRW)
  | predicateLogic (site : Site) (f : FmtR3)
  | cmp (site : Site) (f : FmtR3)
  | cmpImm (site : Site) (op : Nat) (f : FmtRI)
  | scalarLoad (site : Site) (op : Nat) (f : FmtRI)
  | scalarStore (site : Site) (op : Nat) (f : FmtRI)
  | amo (site : Site) (f : FmtR3)
  | cas (site : Site) (f : FmtR3)
  | rng (site : Site) (f : FmtR3)
  -- Tongs: vector
  | vrng (site : Site) (f : FmtR3)
  | vfadd (site : Site) (op : Nat) (f : FmtR3)
  | vfma (site : Site) (f : FmtR3)
  | vfminmax (site : Site) (op : Nat) (f : FmtR3)
  | vfun (site : Site) (f : FmtR3)
  | vfcmp (site : Site) (f : FmtR3)
  | vsel (site : Site) (f : FmtR3)
  | vint (site : Site) (f : FmtR3)
  | vcvt (site : Site) (f : FmtR3)
  | vcvtf (site : Site) (f : FmtR3)
  | vmxq (site : Site) (f : FmtR3)
  | vfsum (site : Site) (f : FmtR3)
  | vld (site : Site) (f : FmtRI)
  | vst (site : Site) (f : FmtRI)
  | vlds (site : Site) (f : FmtR3)
  | vsts (site : Site) (f : FmtR3)
  | mvsv (site : Site) (f : FmtR3)
  | mvvs (site : Site) (f : FmtR3)
  | vbc (site : Site) (f : FmtR3)
  | vcopy (site : Site) (f : FmtR3)
  | mvcv (site : Site) (f : FmtR3)
  | mvvc (site : Site) (f : FmtR3)
  | cld (site : Site) (f : FmtRI)
  | cst (site : Site) (f : FmtRI)
  -- engines
  | xld (site : Site) (f : FmtD)
  | xldComplete (tile : Nat)
  | mvt (site : Site) (f : FmtD)
  | mvtComplete (tile : Nat)
  | pcomb (site : Site) (f : FmtE)
  | pcombComplete (tile : Nat)
  | amerge (site : Site) (f : FmtE)
  | amergeComplete (tile : Nat)
  | afinal (site : Site) (f : FmtE)
  | afinalComplete (tile : Nat)
  | mm (site : Site) (f : FmtE)
  | mmPassComplete (tile : Nat)
  | mew (site : Site) (f : FmtE)
  | mewComplete (tile : Nat)
  | bmv (site : Site) (f : FmtE)
  | bmvComplete (tile : Nat)
  | kst (site : Site) (f : FmtE)
  | kstComplete (tile : Nat)
  | kld (site : Site) (f : FmtE)
  | kldComplete (tile : Nat)
  | fcmul (site : Site) (f : FmtE)
  | fcmac (site : Site) (f : FmtE)
  | fwb (site : Site) (f : FmtE)
  | ffir (site : Site) (f : FmtE)
  | fmag2 (site : Site) (f : FmtE)
  | fbexp (site : Site) (f : FmtE)
  | fr4 (site : Site) (f : FmtE)
  | fr2 (site : Site) (f : FmtE)
  | fullerOpComplete (tile : Nat)
  | dtap (site : Site) (f : FmtD)
  | dtapComplete (tile : Nat)
  | stap (site : Site) (f : FmtE)
  | stapComplete (tile : Nat)
  -- mesh messages and asynchronous faults
  | send (site : Site) (f : FmtD)
  | sendArrival (id : Nat)
  | sendAckArrival (id : Nat)
  | sendRefused (id : Nat)
  | asyncFaultTaken (tile strand : Nat)
  -- fabric instructions
  | fld (site : Site) (f : FmtRI)
  | fst (site : Site) (f : FmtRI)
  | famo (site : Site) (f : FmtR3)
  | fcas (site : Site) (f : FmtR3)
  | fcopy (site : Site) (f : FmtD)
  | fmcast (site : Site) (f : FmtD)
  | fred (site : Site) (f : FmtD)
  -- memory
  | memTrain
  | channelTrainingComplete (hpprSkipped : Nat)
  | channelFence (chan : Nat)
  | caParityError (chan : Nat) (again : Bool)
  | memMapWrite (data : Word)
  | hdmDecoderCommit
  | hostHdmAccess (isWrite : Bool) (addr len : Nat) (data : List (BitVec 8))
  | memRead (part fn addr len : Nat)
  | memWrite (part fn addr : Nat) (data : List (BitVec 8)) (poison : Bool)
  | memCorrectionWriteBack (chan : Nat)
  | patrolScrub (chan : Nat)
  | softPpr (chan row : Nat)
  | refresh (chan : Nat)
  -- Swage
  | swageQuery (unit part sender : Nat) (record : List (BitVec 8))
  | swageAppend (unit part sender : Nat) (record : List (BitVec 8))
  | swagePageInit (unit part sender : Nat) (record : List (BitVec 8))
  | swageContextStart (unit : Nat)
  | swageDescriptorsArrive (unit ctx : Nat)
  | swagePageComplete (unit ctx : Nat)
  | swageRecordWrite (unit ctx : Nat)
  | swageAppendCommit (unit ctx : Nat)
  | swagePageInitCommit (unit ctx : Nat)
  | swageFence (unit : Nat)
  | swageEnable (unit : Nat) (on : Bool)
  -- queues and DMA
  | append (fn queue : Nat)
  | writeContext (fn queue : Nat)
  | readContext (fn queue : Nat)
  | rewrite (fn queue : Nat)
  | resume (fn queue : Nat)
  | skip (fn queue : Nat)
  | abort (fn queue : Nat)
  | pin (fn queue : Nat)
  | unpin (fn queue : Nat)
  | qmDoorbell (fn queue index : Nat)
  | qmEnable
  | qmTableReady
  | qmStopAll (stop : Bool)
  | engineAbort (engine : Nat)
  | engineEnable (engine : Nat) (on : Bool)
  | descriptorStart (queue : Nat)
  | dmaReadReturn (queue slot : Nat) (outcome : ReadOutcome)
  | readBackReturn (queue slot : Nat) (ok : Bool)
  | completionRecordWrite (queue slot : Nat)
  | cqModerationTimeout (queue : Nat)
  | engineFailure (engine : Nat)
  | contextLost (queue : Nat)
  | hostReadTimeout (queue slot : Nat)
  -- Strike, plan and coding
  | strikeBoundary
  | phaseStart (phase : Nat)
  | phaseDeadline (phase : Nat)
  | planLoad (data : Word)
  | planProofComplete
  | planReproofComplete
  | tierReq (data : Word)
  | strikeEnable (on : Bool)
  | unmute (ports : Nat)
  | codingBlockComplete (half ring : Nat)
  | codingHalfFailure (half : Nat)
  | codeRingWrite (half ring : Nat) (isB : Bool) (data : Word)
  -- fronthaul
  | frameReceived (port : Nat) (frame : Frame)
  | ingressSectionWritten (port : Nat)
  | egressFrameStart (port : Nat)
  | egressLateDiscard (port queue : Nat)
  | shaperTick
  | shaperWrite (fabric : Bool) (port queue : Nat) (isB : Bool) (data : Word)
  | policerWrite (port : Nat) (isB : Bool) (data : Word)
  | queueSample (port : Nat)
  | portEnable (port : Nat) (on : Bool)
  | portLinkDown (port : Nat)
  | portLinkUp (port : Nat)
  | egressRingWrite (port ring : Nat) (data : Word)
  -- time
  | timeBaseStep (base : Nat) (data : Word)
  | timeBaseFreqWrite (base : Nat) (data : Word)
  | tbSecRead (fn base : Nat)
  | timeSnapshot
  | syncTimeout
  | holdoverExpiry
  | synceReferenceLost
  | timeTriggerArm (trigger : Nat) (data : Word)
  | timeTriggerFire (trigger : Nat)
  | timeOutPulseEnd (pin : Nat)
  | timeInEdge (pin : Nat) (rising : Bool)
  | captureRead (unit : Nat)
  -- partitions
  | partCreate (part : Nat)
  | partDestroy (part : Nat)
  | partAdd (part groups : Nat)
  | partMove (part groups target effective : Nat)
  | partMap (part : Nat) (arg1 : Word)
  | partLoad (part : Nat) (arg1 : Word)
  | partStart (part : Nat)
  | partStop (part : Nat)
  | partFreeze (part : Nat)
  | freezeComplete (part : Nat)
  | freezeTimeout (part : Nat)
  | partSave (part engine : Nat) (arg1 : Word)
  | saveComplete (part : Nat)
  | partRestore (part : Nat) (arg1 : Word)
  | partThaw (part : Nat)
  | partFlip (part : Nat)
  | partCancel (part groups : Nat)
  | grantWrite (grant : Nat) (data : Word)
  | grantClearComplete (grant : Nat)
  | bellowsHoldRelease (part regulator tile charge : Nat) (arbiterIdle : Bool)
  | bwSlotWrite (part slot : Nat) (isB : Bool) (data : Word)
  | bwDepthWrite (part : Nat) (data : Word)
  | bcycleWrite (data : Word)
  | vfFlr (fn : Nat)
  -- Hasp
  | hello (inst major minor : Nat)
  | helloAck (inst major minor status : Nat)
  | vacated (inst nseq : Nat)
  | resizeReq (inst groups gib : Nat)
  | resizeReply (inst groups gib strike : Nat)
  | budget (inst : Nat) (payload : List (BitVec 8))
  | freezeNotice (inst strike : Nat)
  | teardown (inst : Nat) (fromHearth : Bool) (reason : Nat)
  | ack (inst side seqNo : Nat)
  | nak (inst side seqNo status : Nat)
  | vendorMessage (inst side type : Nat) (payload : List (BitVec 8))
  | haspPop (inst side : Nat)
  -- fabric
  | linkEnable (link : Nat) (on : Bool)
  | linkRetrain (link : Nat)
  | linkUp (link failedWl major minor : Nat)
  | linkTrainTimeout (link : Nat)
  | fabricFrameReceived (link : Nat) (check : FrameCheck)
  | wavelengthFail (link wl : Nat)
  | fibreFail (link : Nat) (switchHasPort : Bool)
  | fabricLinkDown (link : Nat)
  | linkmapWrite (index : Nat) (data : Word)
  | epochBump
  | drainMarkerReturn (dest link : Nat)
  | fabricRequestArrival (req : FabReq)
  | fabricAckArrival (ackn : FabAck)
  | fabricReplayTimeout (dest seqNo : Nat)
  | fabricOpTimeout (dest seqNo : Nat)
  | wardRefusalReceived (part : Nat)
  | jobImageLoad (part : Nat)
  | jobFence (part : Nat)
  | jobHoldClear (part : Nat)
  | wardWrite (entry : Nat) (isB : Bool) (data : Word)
  | wardActivation (entry : Nat)
  | versionRecordArrival (part peer isaMajor isaMinor features : Nat)
  | hotLineUpdate (line : Nat)
  | multicastDetach (op rank : Nat)
  | reducerRecordArrival (key : RedKey) (head : RedHead) (record : List (BitVec 8)) (poison : Nat)
  | reductionTimeout (key : RedKey)
  | gatewayFlushTimeout (part rank : Nat)
  | fabricTimeExchange (link : Nat) (offset : Int)
  -- resets and boot
  | pwrgoodAssert
  | pwrgoodDeassert
  | perstAssert
  | perstDeassert
  | cxlHotReset
  | cxlLinkDownTimeout
  | pfFlr
  | romSelftestComplete (pass : Bool)
  | watchdogExpiry
  | imageLoadGo
  | imageVerify (hostReadOk : Bool)
  | svnCommit
  | revoke (slot : Nat)
  -- attestation and host
  | getVersion (mctp : Bool)
  | getIdentity (mctp : Bool)
  | getMeasurements (mctp : Bool) (nonce : List (BitVec 8)) (mask : Nat)
  | extend (mctp : Bool) (register : Nat) (digest : List (BitVec 8))
  | sessionStart (mctp : Bool)
  | sessionFinish (mctp : Bool) (ciphertext : List (BitVec 8))
  | keyProg (mctp : Bool) (payload : List (BitVec 8))
  | keyGo (mctp : Bool) (stream dir set : Nat)
  | keyStop (mctp : Bool) (stream dir set : Nat)
  | biasFlip (data : Word)
  | biasFlipComplete
  | ideIntegrityFailure (stream : Nat)
  | entdaa (addr : Nat)
  | setEndpointId (eid : Nat)
  | mctpControl (wellFormed : Bool) (code : Nat)
  | pldmRequest (wellFormed : Bool) (sensor : Nat)
  -- Temper and RAS
  | temperSchedule (group : Nat)
  | temperTestComplete (group failMask : Nat)
  | parityError (tile : Nat) (refetch : Bool) (strand file index lane : Nat)
  | fatalError (source tile : Nat)
  | healthRecompute
  -- power and pins
  | pwrDomainWrite (data : Word)
  | domainPowerUpComplete (domain : Nat)
  | regulatorFault (domain : Nat)
  | powerSample (watts : Nat)
  | throttleRelease
  | throttleExhausted
  | pwrLimitWrite (data : Word)
  | thermalSample (die0 die1 io opt : Int)
  | undervoltage
  | overvoltage
  | pwrbrakeAssert
  | pwrbrakeDeassert
  | tapInstruction (takesLands : Bool)
  -- observability
  | counterClose (sets : Nat)
  | closeTimeRead (set : Nat)
  | watchWrite (watch : Nat)
  | watchFlush (watch : Nat)
  | tapPieceArrival (id : Nat)
  | twHeadWrite (data : Word)
  | traceEntry (cls source code part data : Nat)
  | arm
  | trigger
  | drain
  | traceDrainComplete
  | trMark (data : Word)
  | snapshotRequest
  | snapshotComplete
  | cxlLinkTrained (lanes rate : Nat)
  | ptpMessageTransmit (port msgType : Nat)
  | opticalCalibrationComplete (link : Nat)
  | traceSramWrite
  deriving DecidableEq, Repr

end Sys2Proof
end

