-- ==== Sys2Proof/Config.lean ====
section
/-! DEFINITION. What the spec leaves open: free values (constants without a body, so that no proof sees what
they are) and the functions of standards and tools that lie outside the spec. -/

namespace Sys2Proof

/-- A fresh free number, applied to Chip.freeCtr (DESIGN CHOICE, log 1). -/
opaque Config.freeNat : Nat → Nat

/-- FP32 bits of rcp (op 0), rsqrt (1), log2 (3) of an operand for which no exact result exists:
the spec states no value there (R75, R250; DESIGN CHOICE, log 10). -/
opaque Config.freeFun : Nat → Nat → Nat

/-- FP32 bits of a quotient with divisor 0 other than the root of R103 (DESIGN CHOICE, log 10). -/
opaque Config.freeDiv : Nat → Nat → Nat

/-- The bytes of ML-DSA, ML-KEM, AES-GCM and key handling, which the spec takes from standards
(R605, R616, R620): an operation number and the bytes it takes give the bytes it makes (DESIGN CHOICE, log 11). -/
opaque Config.crypto : Nat → List Byte → List Byte

/-- The hashes of public keys that the fuse slots hold (R607; DESIGN CHOICE, log 2). -/
opaque Config.keyHash : Nat → List Byte

/-- Whether a signature over the bytes verifies under a key slot (R605; DESIGN CHOICE, log 11). -/
opaque Config.sigOk : Nat → List Byte → Bool

/-- The LDPC, polar, CRC and rate-matching kernels of TS 38.212 (R448, R451; DESIGN CHOICE, log 12): the operation,
the job's parameters and its input bytes give its output bytes. -/
opaque Config.codeKernel : Nat → List Nat → List Byte → List Byte

/-- Whether the CRC of a decoded block passes (R451; DESIGN CHOICE, log 12). -/
opaque Config.codeOk : Nat → List Nat → List Byte → Bool

/-- Whether TS 38.212 admits the parameters of a coding descriptor (R451; DESIGN CHOICE, log 12). -/
opaque Config.codeLegal : List Byte → Bool

/-- The iterations a decoder ran (R453; DESIGN CHOICE, log 12). -/
opaque Config.codeIters : Nat → List Nat → List Byte → Nat

/-- A free value out of several that one draw of Chip.freeCtr gives: the draw and an index (DESIGN CHOICE, log 1). -/
opaque Config.freeAt : Nat → Nat → Nat

/-- Numbers that a program binary's header states (R107, R234, R395; DESIGN CHOICE, log 16): 0 major, 1 minor, 2 features, 3 logical
tiles, 4 marked as balanced; 5, of the header alone, the bytes in the binary; 6, the code with which a lock that is too large
is refused, which the spec does not state (R158). -/
opaque Config.progField : Nat → List Byte → Nat

/-- The bytes that a program binary puts into the banks of a logical tile, with their addresses (R107; DESIGN CHOICE, log 16). -/
opaque Config.progImage : Nat → List Byte → List (Nat × Byte)

/-- The lines of a logical tile's banks that hold code marked as cycle-exact in a program binary (R158; DESIGN CHOICE,
log 16). -/
opaque Config.progLock : Nat → List Byte → List Nat

end Sys2Proof
end

