-- ==== Sys2Proof/Machine/Flags.lean ====
section
/-! DEFINITION. The sticky arithmetic flags (R76, R182, R183). Each operation of Machine/Num.lean and
Machine/Reduce.lean answers its result together with a set of these. -/

namespace Sys2Proof.Machine

/-- Arithmetic flags (R76), at the bits of the flags special register (R182). -/
def flNV : Nat := 1
def flOF : Nat := 2
def flUF : Nat := 4
def flGX : Nat := 8
def flSA : Nat := 16
def flPZ : Nat := 32

/-- The union of two flag sets. -/
def flOr (a b : Nat) : Nat := Nat.lor a b

/-- A flag when a condition holds. -/
def flIf (c : Bool) (f : Nat) : Nat := if c then f else 0

end Sys2Proof.Machine
end

