-- ==== Sys2Proof/Machine/Num.lean ====
section
/-! DEFINITION. Number formats, rounding and the FP32 operations (chapter 02, R65 to R88). Values are
exact (a sign, a natural number and a power of two); every rounding is round-to-nearest, ties-to-even (R71). -/

namespace Sys2Proof.Machine

/-- A floating-point value: NaN, an infinity, or ± m × 2^e with signed zeros. -/
inductive FV where
  | nan
  | inf (neg : Bool)
  | fin (neg : Bool) (m : Nat) (e : Int)
  deriving DecidableEq, Repr

/-- Special encodings of a format: IEEE (infinities, NaNs), one NaN only (E4M3), or none. -/
inductive FCls where
  | ieee | nanOnly | finite
  deriving DecidableEq, Repr

/-- A binary format: exponent bits, mantissa bits, bias, special encodings (R65). -/
structure FFmt where
  eb : Nat
  mb : Nat
  bias : Nat
  cls : FCls
  deriving DecidableEq, Repr

def fFP32 : FFmt := ⟨8, 23, 127, .ieee⟩
def fBF16 : FFmt := ⟨8, 7, 127, .ieee⟩
def fE4M3 : FFmt := ⟨4, 3, 7, .nanOnly⟩
def fE5M2 : FFmt := ⟨5, 2, 15, .ieee⟩
def fE2M1 : FFmt := ⟨2, 1, 1, .finite⟩
def fE2M3 : FFmt := ⟨2, 3, 1, .finite⟩
def fE3M2 : FFmt := ⟨3, 2, 3, .finite⟩

/-- The element layout behind a floating-point format code of R65. -/
def elemFmt : Nat → Option FFmt
  | 0x1 => some fE4M3
  | 0x2 => some fE5M2
  | 0x3 => some fE2M1
  | 0x4 => some fE2M3
  | 0x5 => some fE3M2
  | 0x6 => some fE4M3
  | 0x7 => some fE5M2
  | 0x8 => some fBF16
  | 0x9 => some fFP32
  | _ => none

/-- A microscaling format (R65). -/
def isMX (c : Nat) : Bool := 3 ≤ c && c ≤ 7

/-- Element width in bits (R65). -/
def elemBits : Nat → Nat
  | 0x0 => 8 | 0x1 => 8 | 0x2 => 8 | 0x3 => 4 | 0x4 => 6 | 0x5 => 6 | 0x6 => 8 | 0x7 => 8
  | 0x8 => 16 | 0x9 => 32 | 0xA => 32 | 0xE => 32
  | _ => 0

/-- The value of an encoding (R65, R69: subnormals read exactly). -/
def decodeF (f : FFmt) (x : Nat) : FV :=
  let man := x % 2 ^ f.mb
  let ex := (x / 2 ^ f.mb) % 2 ^ f.eb
  let neg := (x / 2 ^ (f.mb + f.eb)) % 2 == 1
  let top := ex == 2 ^ f.eb - 1
  if f.cls == .ieee && top then (if man == 0 then .inf neg else .nan)
  else if f.cls == .nanOnly && top && man == 2 ^ f.mb - 1 then .nan
  else if ex == 0 then .fin neg man (1 - (f.bias : Int) - (f.mb : Int))
  else .fin neg (2 ^ f.mb + man) ((ex : Int) - (f.bias : Int) - (f.mb : Int))

/-- The canonical NaN of a format (R70). -/
def canonNaN (f : FFmt) : Nat :=
  match f.cls with
  | .ieee => if f.mb == 2 then 0x7F else (2 ^ f.eb - 1) * 2 ^ f.mb + 2 ^ (f.mb - 1)
  | .nanOnly => 0x7F
  | .finite => 0

/-- `m / 2^n` rounded to nearest, ties to even (R71). -/
def rneShift (m n : Nat) : Nat :=
  let q := m >>> n
  let r := m % 2 ^ n
  if n == 0 then m
  else if r * 2 < 2 ^ n then q
  else if r * 2 == 2 ^ n then q + q % 2
  else q + 1

/-- An integer divided by 2^n, rounded to nearest, ties to even. -/
def rneInt (x : Int) (n : Nat) : Int :=
  if x < 0 then - (rneShift x.natAbs n : Int) else (rneShift x.natAbs n : Int)

/-- A magnitude m × 2^e rounded to a precision of `p` bits with least exponent `emin`:
the new magnitude, its exponent, and whether bits were lost. -/
def roundMag (p : Nat) (emin : Int) (m : Nat) (e : Int) : Nat × Int × Bool :=
  let bits : Int := (Nat.log2 m : Int) + 1
  let q : Int := max (e + bits - p) emin
  if q ≤ e then (m <<< (e - q).toNat, q, false)
  else
    let n := (q - e).toNat
    (rneShift m n, q, m % 2 ^ n != 0)

/-- The largest finite value's exponent field and mantissa. -/
def maxFinite (f : FFmt) : Nat × Nat :=
  match f.cls with
  | .ieee => (2 ^ f.eb - 2, 2 ^ f.mb - 1)
  | .nanOnly => (2 ^ f.eb - 1, 2 ^ f.mb - 2)
  | .finite => (2 ^ f.eb - 1, 2 ^ f.mb - 1)

/-- An exact value encoded in a format under R71 and R72, with its flags. Results past the largest finite
value become an infinity, a NaN, or, with `sat`, the largest finite value. -/
def encodeF (f : FFmt) (sat : Bool) (v : FV) : Nat × Nat :=
  let sgn (neg : Bool) : Nat := b2n neg * 2 ^ (f.mb + f.eb)
  let mx := (maxFinite f).1 * 2 ^ f.mb + (maxFinite f).2
  match v with
  | .nan => (canonNaN f, 0)
  | .inf neg =>
    if f.cls == .ieee then (sgn neg + (2 ^ f.eb - 1) * 2 ^ f.mb, 0)
    else if sat then (sgn neg + mx, flSA)
    else (canonNaN f, flNV)
  | .fin neg m e =>
    if m == 0 then (sgn neg, 0)
    else
      let emin : Int := 1 - (f.bias : Int) - (f.mb : Int)
      let (m', q, lost) := roundMag (f.mb + 1) emin m e
      -- a magnitude of at least 2^mb carries its hidden bit into the exponent field
      let code : Int := if m' < 2 ^ f.mb then (m' : Int)
        else (q - emin) * (2 ^ f.mb : Nat) + (m' : Int)
      if code > (mx : Int) then
        if sat then (sgn neg + mx, flSA)
        else if f.cls == .ieee then (sgn neg + (2 ^ f.eb - 1) * 2 ^ f.mb, flOF)
        else (canonNaN f, flOF)
      else (sgn neg + code.toNat, flIf (lost && m' < 2 ^ f.mb) flUF)

/-- FP32 bits of a value, with flags. -/
def toF32 (v : FV) : Nat × Nat := encodeF fFP32 false v

/-- The value of FP32 bits. -/
def ofF32 (x : Nat) : FV := decodeF fFP32 x

/-- The poison values of R104. -/
def poisonF32 : Nat := 0xFFC00000
def poisonBF16 : Nat := 0xFFC0

def nanF32 : Nat := 0x7FC00000
def negInfF32 : Nat := 0xFF800000
def oneF32 : Nat := 0x3F800000

/-- The signed integer m × 2^k for a value over a common exponent. -/
def fvInt (neg : Bool) (m : Nat) (k : Nat) : Int := if neg then - ((m <<< k : Nat) : Int) else ((m <<< k : Nat) : Int)

/-- An exact sum; `true` when a NaN arises from operands that hold none (R76). -/
def fvAdd : FV → FV → FV × Bool
  | .nan, _ => (.nan, false)
  | _, .nan => (.nan, false)
  | .inf a, .inf b => if a == b then (.inf a, false) else (.nan, true)
  | .inf a, _ => (.inf a, false)
  | _, .inf b => (.inf b, false)
  | .fin na ma ea, .fin nb mb eb =>
    let e := min ea eb
    let s := fvInt na ma (ea - e).toNat + fvInt nb mb (eb - e).toNat
    if s == 0 then (.fin (na && nb) 0 0, false)
    else (.fin (decide (s < 0)) s.natAbs e, false)

/-- An exact product. -/
def fvMul : FV → FV → FV × Bool
  | .nan, _ => (.nan, false)
  | _, .nan => (.nan, false)
  | .inf a, .inf b => (.inf (a != b), false)
  | .inf a, .fin nb mb _ => if mb == 0 then (.nan, true) else (.inf (a != nb), false)
  | .fin na ma _, .inf b => if ma == 0 then (.nan, true) else (.inf (na != b), false)
  | .fin na ma ea, .fin nb mb eb => (.fin (na != nb) (ma * mb) (ea + eb), false)

/-- A value with its sign changed. -/
def fvNeg : FV → FV
  | .nan => .nan
  | .inf n => .inf (!n)
  | .fin n m e => .fin (!n) m e

/-- FP32 bits of an exact value and the invalid flag beside it. -/
def fRound (r : FV × Bool) : Nat × Nat :=
  let (x, fl) := toF32 r.1
  (x, flOr fl (flIf r.2 flNV))

def fAdd (a b : Nat) : Nat × Nat := fRound (fvAdd (ofF32 a) (ofF32 b))
def fSub (a b : Nat) : Nat × Nat := fRound (fvAdd (ofF32 a) (fvNeg (ofF32 b)))
def fMul (a b : Nat) : Nat × Nat := fRound (fvMul (ofF32 a) (ofF32 b))

/-- a × b + c rounded once (R75). -/
def fFma (a b c : Nat) : Nat × Nat :=
  let p := fvMul (ofF32 a) (ofF32 b)
  let s := fvAdd p.1 (ofF32 c)
  fRound (s.1, p.2 || s.2)

/-- A total key of a value's order; NaN has none. -/
def fvLt : FV → FV → Bool
  | .nan, _ => false
  | _, .nan => false
  | .inf a, .inf b => a && !b
  | .inf a, _ => a
  | _, .inf b => !b
  | .fin na ma ea, .fin nb mb eb =>
    let e := min ea eb
    decide (fvInt na ma (ea - e).toNat < fvInt nb mb (eb - e).toNat)

/-- Equality of values: the zeros are equal, NaN equals nothing. -/
def fvEq : FV → FV → Bool
  | .nan, _ => false
  | _, .nan => false
  | a, b => !fvLt a b && !fvLt b a

/-- The floor of the square root by fixing bits from the top down. -/
def isqrtGo (n : Nat) : Nat → Nat → Nat
  | 0, r => r
  | k + 1, r =>
    let t := r + 2 ^ k
    isqrtGo n k (if t * t ≤ n then t else r)

def isqrt (n : Nat) : Nat := isqrtGo n (Nat.log2 n / 2 + 1) 0

/-- A quotient a / b of magnitudes with a sticky low bit, 64 bits below the unit of a's scale. -/
def divMag (a b : Nat) : Nat := ((a <<< 96) / b) * 2 + b2n ((a <<< 96) % b != 0)

/-- a / b for FP32 bits (R103), b other than 0. -/
def fDiv (a b : Nat) : Nat × Nat :=
  match ofF32 a, ofF32 b with
  | .nan, _ => (nanF32, 0)
  | _, .nan => (nanF32, 0)
  | .inf _, .inf _ => (nanF32, flNV)
  | .inf x, .fin n m _ => if m == 0 then (Config.freeDiv a b % 2 ^ 32, 0) else toF32 (.inf (x != n))
  | .fin x _ _, .inf y => toF32 (.fin (x != y) 0 0)
  | .fin x ma ea, .fin y mb eb =>
    if mb == 0 then (Config.freeDiv a b % 2 ^ 32, 0)
    else toF32 (.fin (x != y) (divMag ma mb) (ea - eb - 97))

/-- Flags of a free FP32 result, computed from its bits. -/
def freeFlags (x : Nat) : Nat :=
  match ofF32 x with
  | .nan => flNV
  | .inf _ => flOF
  | .fin _ m _ => flIf (m < 2 ^ 23) flUF

/-- A free FP32 result of a unary operation that has no exact result. -/
def freeUn (op a : Nat) : Nat × Nat :=
  let x := Config.freeFun op a % 2 ^ 32
  (x, freeFlags x)

/-- Reciprocal (R75, R250). -/
def fRcp (a : Nat) : Nat × Nat :=
  match ofF32 a with
  | .nan => (nanF32, 0)
  | .inf n => toF32 (.fin n 0 0)
  | .fin n m e => if m == 0 then freeUn 0 a else toF32 (.fin n (divMag 1 m) (- e - 97))

/-- Reciprocal square root (R75, R250). -/
def fRsqrt (a : Nat) : Nat × Nat :=
  match ofF32 a with
  | .nan => (nanF32, 0)
  | .inf n => if n then freeUn 1 a else (0, 0)
  | .fin n m e =>
    if m == 0 || n then freeUn 1 a
    else
      let m' := if e % 2 == 0 then m else 2 * m
      let e' := if e % 2 == 0 then e else e - 1
      let r := isqrt ((2 ^ 160) / m')
      toF32 (.fin false (2 * r + b2n (r * r * m' != 2 ^ 160)) (- (e' / 2) - 81))

/-- floor(ln 2 × 2^160). -/
def ln2fix : Nat := 1013035739299659071135698605846798551586536899366

/-- e^(y / 2^160) × 2^160 by its series, 48 terms, for y below 2^160. -/
def expSeries (y : Nat) : Nat → Nat → Nat → Nat → Nat
  | 0, _, _, acc => acc
  | n + 1, k, t, acc =>
    let t' := (t * y / 2 ^ 160) / k
    expSeries y n (k + 1) t' (acc + t')

/-- 2^x (R75): exact for an integer x, otherwise rounded from 160 fraction bits with a sticky bit. -/
def fExp2 (a : Nat) : Nat × Nat :=
  match ofF32 a with
  | .nan => (nanF32, 0)
  | .inf n => if n then (0, 0) else toF32 (.inf false)
  | .fin neg m e =>
    if 0 ≤ e && e ≥ 16 && m != 0 then
      (if neg then toF32 (.fin false 1 (-4000)) else toF32 (.fin false 1 4000))
    else
      -- x in units of 2^-160, toward minus infinity, and whether anything was lost
      let sh := e + 160
      let i : Int := fvInt neg m 0
      let fx : Int := if 0 ≤ sh then i * (2 ^ sh.toNat : Nat) else i / ((2 ^ (-sh).toNat : Nat) : Int)
      let lost := decide (sh < 0) && i % ((2 ^ (-sh).toNat : Nat) : Int) != 0
      let n : Int := fx / ((2 ^ 160 : Nat) : Int)
      let f : Nat := (fx % ((2 ^ 160 : Nat) : Int)).toNat
      let n' : Int := if n > 4000 then 4000 else if n < -4000 then -4000 else n
      if f == 0 && !lost then toF32 (.fin false 1 n')
      else
        let y := f * ln2fix / 2 ^ 160
        let r := expSeries y 48 1 (2 ^ 160) (2 ^ 160)
        toF32 (.fin false (2 * r + 1) (n' - 161))

/-- 2 × atanh(t / 2^160) × 2^160 by its series, 60 terms. -/
def atanhSeries (t2 : Nat) : Nat → Nat → Nat → Nat → Nat
  | 0, _, _, acc => acc
  | n + 1, k, t, acc => atanhSeries t2 n (k + 2) (t * t2 / 2 ^ 160) (acc + 2 * (t / k))

/-- log2 x (R75): exact for a power of two, otherwise from 160 fraction bits. -/
def fLog2 (a : Nat) : Nat × Nat :=
  match ofF32 a with
  | .nan => (nanF32, 0)
  | .inf n => if n then freeUn 3 a else toF32 (.inf false)
  | .fin neg m e =>
    if m == 0 || neg then freeUn 3 a
    else
      let k := Nat.log2 m
      let ex : Int := e + k
      if m == 2 ^ k then toF32 (.fin (decide (ex < 0)) ex.natAbs 0)
      else
        let t := ((m - 2 ^ k) <<< 160) / (m + 2 ^ k)
        let l := atanhSeries (t * t / 2 ^ 160) 60 1 t 0
        let fx : Int := ex * ((2 ^ 160 : Nat) : Int) + ((l <<< 160) / ln2fix : Nat)
        toF32 (.fin (decide (fx < 0)) (2 * fx.natAbs + 1) (-161))

/-- The larger or smaller of two FP32 values under R251: NaN with a NaN operand, −0 below +0. -/
def fMinMax (isMax : Bool) (a b : Nat) : Nat × Nat :=
  match ofF32 a, ofF32 b with
  | .nan, _ => (nanF32, 0)
  | _, .nan => (nanF32, 0)
  | va, vb =>
    let aLess := fvLt va vb || (fvEq va vb && a / 2 ^ 31 == 1)
    (if isMax then (if aLess then b else a) else (if aLess then a else b), 0)

/-- An FP32 value rounded to an integer and clamped (R74): the integer and its flags. -/
def f32ToInt (lo hi : Int) (a : Nat) : Int × Nat :=
  match ofF32 a with
  | .nan => (0, flNV)
  | .inf n => (if n then lo else hi, flSA)
  | .fin n m e =>
    let v : Int :=
      if 0 ≤ e then fvInt n m (min e.toNat 200)
      else rneInt (fvInt n m 0) (-e).toNat
    if v < lo then (lo, flSA) else if hi < v then (hi, flSA) else (v, 0)

/-- An integer rounded to FP32. -/
def intToF32 (i : Int) : Nat × Nat := toF32 (.fin (decide (i < 0)) i.natAbs 0)

/-- The largest exponent of a nonzero finite magnitude, floor(log2 |v|). -/
def fvExp : FV → Option Int
  | .fin _ m e => if m == 0 then none else some (e + (Nat.log2 m : Int))
  | _ => none

/-- The largest of a list of exponents. -/
def maxExp : List FV → Option Int
  | [] => none
  | v :: r =>
    match fvExp v, maxExp r with
    | some a, some b => some (max a b)
    | some a, none => some a
    | none, b => b

/-- A value times a power of two. -/
def fvScale (k : Int) : FV → FV
  | .fin n m e => .fin n m (e + k)
  | v => v

/-- A block of values to an MX format (R73): the scale byte, the element codes and the flags of each. -/
def mxQuant (c : Nat) (vs : List FV) : Nat × List Nat × List Nat :=
  let f := (elemFmt c).getD fE4M3
  let emax : Int := if c == 3 || c == 4 then 2 else if c == 5 then 4 else if c == 6 then 8 else 15
  if vs.any (fun v => match v with | .fin _ _ _ => false | _ => true) then (0xFF, vs.map (fun _ => 0), [])
  else
    match maxExp vs with
    | none => (0x7F, vs.map (fun _ => 0), [])
    | some k =>
      let sc := max (-127) (min 127 (k - emax))
      let es := vs.map (fun v => encodeF f true (fvScale (-sc) v))
      -- for an E5M2 element the clamp is to the largest finite magnitude, never an infinity
      ((sc + 127).toNat, es.map (·.1), es.map (·.2))

/-- An MX element with its scale byte (R66, R67). -/
def mxElem (c : Nat) (scale x : Nat) : FV :=
  if scale == 0xFF then .nan
  else fvScale ((scale : Int) - 127) (decodeF ((elemFmt c).getD fE4M3) x)

end Sys2Proof.Machine
end

