-- ==== Sys2Proof/Machine/Reduce.lean ====
section
/-! DEFINITION. Exact group accumulation, the canonical tree, partial tags and the attention merge
(chapter 02, R84 to R105). -/

namespace Sys2Proof.Machine

/-- A result element and its poison mark (R104). -/
structure Elem where
  v : Nat
  pz : Bool
  deriving DecidableEq, Repr

/-- The fields of a partial tag (R94). -/
structure Tag where
  rid : Nat
  level : Nat
  index : Nat
  gm1 : Nat
  kind : Nat
  deriving DecidableEq, Repr

/-- A partial tag from its 64 bits (R94). -/
def tagOf (x : Nat) : Tag :=
  ⟨bitsOf x 63 48, bitsOf x 47 43, bitsOf x 42 23, bitsOf x 22 3, bitsOf x 2 0⟩

/-- The 64 bits of a partial tag (R94). -/
def tagBits (t : Tag) : Nat :=
  (t.rid % 2 ^ 16) * 2 ^ 48 + (t.level % 2 ^ 5) * 2 ^ 43 + (t.index % 2 ^ 20) * 2 ^ 23 +
    (t.gm1 % 2 ^ 20) * 2 ^ 3 + t.kind % 2 ^ 3

/-- h = ceil(log2 G) (R91). -/
def tagHeight (t : Tag) : Nat := clog2 (t.gm1 + 1)

/-- R96, with fuel: promote a left child whose right sibling covers no leaf. -/
def tagPromote (groups h : Nat) : Nat → Nat → Nat → Nat × Nat
  | 0, l, i => (l, i)
  | n + 1, l, i =>
    if i % 2 == 0 && decide (groups ≤ (i + 1) <<< l) && decide (l < h) then tagPromote groups h n (l + 1) (i / 2)
    else (l, i)

/-- The normalised tag (R96). -/
def tagNorm (t : Tag) : Tag :=
  let p := tagPromote (t.gm1 + 1) (tagHeight t) 32 t.level t.index
  { t with level := p.1, index := p.2 }

/-- The tag is the normalised root (R98). -/
def tagIsRoot (t : Tag) : Bool :=
  let n := tagNorm t
  n.level == tagHeight t && n.index == 0

/-- The least of a list of codes, 0 for none (R27). -/
def leastCode : List Nat → Nat
  | [] => 0
  | c :: r =>
    let m := leastCode r
    if c == 0 then m else if m == 0 then c else min c m

/-- The checks of R97 on two partials, without the duplicate check of a point that holds several nodes:
0 when they combine. -/
def tagCheck (a b : Tag) : Nat :=
  let na := tagNorm a
  let nb := tagNorm b
  let lo := if na.index % 2 == 0 then na else nb
  let hi := if na.index % 2 == 0 then nb else na
  leastCode [
    if a.rid != b.rid then 0x7002 else 0,
    if a.gm1 != b.gm1 then 0x7003 else 0,
    if a.kind != b.kind then 0x7004 else 0,
    if decide (2 < a.kind) || decide (2 < b.kind) then 0x7006 else 0,
    if na.level != nb.level || lo.index % 2 != 0 || hi.index != lo.index + 1 then 0x7001 else 0]

/-- The partial `a` is the left operand of the combination (R97). -/
def tagALeft (a : Tag) : Bool := (tagNorm a).index % 2 == 0

/-- The tag of a combination (R97). -/
def tagParent (a : Tag) : Tag :=
  let n := tagNorm a
  tagNorm { n with level := n.level + 1, index := n.index / 2 }

/-- The leaf groups g0 to g1 − 1 that the normalised node covers (R266). -/
def tagSpan (t : Tag) : Nat × Nat :=
  let n := tagNorm t
  (n.index <<< n.level, min (t.gm1 + 1) ((n.index + 1) <<< n.level))

/-- One addition of the canonical tree: FP32, or INT64 for kind 1 (R91, R93); poison spreads (R104). -/
def pAdd (kind : Nat) (a b : Elem) : Elem × Nat :=
  if a.pz || b.pz then (⟨if kind == 1 then 0 else poisonF32, true⟩, flPZ)
  else if kind == 1 then (⟨(a.v + b.v) % 2 ^ 64, false⟩, 0)
  else let r := fAdd a.v b.v; (⟨r.1, false⟩, r.2)

/-- One level of the canonical tree: neighbours are added, a last one without a sibling passes up (R92). -/
def treeLevel (kind : Nat) : List Elem → List Elem × Nat
  | a :: b :: r =>
    let s := pAdd kind a b
    let t := treeLevel kind r
    (s.1 :: t.1, flOr s.2 t.2)
  | l => (l, 0)

/-- The canonical tree over a list of leaves, by levels from below (R91). -/
def treeGo (kind : Nat) : Nat → List Elem → Nat → Elem × Nat
  | 0, l, fl => (l.headD ⟨0, false⟩, fl)
  | n + 1, l, fl =>
    match l with
    | [] => (⟨0, false⟩, fl)
    | [a] => (a, fl)
    | _ => let t := treeLevel kind l; treeGo kind n t.1 (flOr fl t.2)

def tree (kind : Nat) (l : List Elem) : Elem × Nat := treeGo kind 21 l 0

/-- The exponent of a format's smallest step (R85). -/
def stepExp (c : Nat) : Int :=
  match elemFmt c with
  | none => 0
  | some f => 1 - (f.bias : Int) - (f.mb : Int)

/-- The largest magnitude of a format in units of its smallest step. -/
def maxUnits (c : Nat) : Nat :=
  match elemFmt c with
  | none => 128
  | some f =>
    let (ex, man) := maxFinite f
    (2 ^ f.mb + man) <<< (ex - 1)

/-- W of R85: the bits that hold 32 products of the largest magnitude. -/
def blockBits (ca cb : Nat) : Nat := Nat.log2 (32 * maxUnits ca * maxUnits cb) + 1

/-- An element as an integer in units of its format's smallest step; `none` for a NaN or an infinity. -/
def elemUnits (c x : Nat) : Option Int :=
  match elemFmt c with
  | none => some (signed 8 x)
  | some f =>
    match decodeF f x with
    | .fin n m e => some (fvInt n m (e - stepExp c).toNat)
    | _ => none

/-- What a group tracks beside its sum (R86). -/
structure Special where
  nan : Bool
  invalid : Bool
  posInf : Bool
  negInf : Bool
  deriving DecidableEq, Repr

/-- One product's part in the tracking of R86. -/
def specProd (ca cb x y : Nat) (s : Special) : Special :=
  match elemFmt ca, elemFmt cb with
  | some fa, some fb =>
    match decodeF fa x, decodeF fb y with
    | .nan, _ => { s with nan := true }
    | _, .nan => { s with nan := true }
    | va, vb =>
      match fvMul va vb with
      | (.nan, _) => { s with invalid := true }
      | (.inf n, _) => if n then { s with negInf := true } else { s with posInf := true }
      | _ => s
  | _, _ => s

/-- The exact sum of one block's products (R84 step 1) and the tracking of R86. -/
def blockSum (ca cb : Nat) : List Nat → List Nat → Int → Special → Int × Special
  | x :: xs, y :: ys, acc, s =>
    let p : Int := match elemUnits ca x, elemUnits cb y with
      | some a, some b => a * b
      | _, _ => 0
    blockSum ca cb xs ys (acc + p) (specProd ca cb x y s)
  | _, _, acc, s => (acc, s)

/-- A block of one group: its elements and its two scale bytes (0x7F where the format has none). -/
structure Block where
  a : List Nat
  b : List Nat
  sa : Nat
  sb : Nat
  deriving DecidableEq, Repr

/-- Step 2 and 3 of R84: the anchor over the blocks with a nonzero sum. -/
def anchorOf : List (Int × Int) → Option Int
  | [] => none
  | (sum, ex) :: r =>
    match anchorOf r with
    | none => if sum == 0 then none else some ex
    | some a => if sum == 0 then some a else some (max a ex)

/-- Step 3 and 4 of R84: the accumulator over the blocks, and whether a 1 was dropped. -/
def accumulate (span : Nat) (anchor : Int) : List (Int × Int) → Int → Bool → Int × Bool
  | [], acc, gx => (acc, gx)
  | (sum, ex) :: r, acc, gx =>
    if sum == 0 then accumulate span anchor r acc gx
    else
      let d := (anchor - ex).toNat
      let full := sum * ((2 ^ span : Nat) : Int)
      let q : Int := full / ((2 ^ d : Nat) : Int)
      accumulate span anchor r (acc + q) (gx || full % ((2 ^ d : Nat) : Int) != 0)

/-- The group result of R84 and R86 (R87 for INT8, whose result is the 64-bit integer), with flags. -/
def groupResult (ca cb : Nat) (bs : List Block) : Nat × Nat :=
  let parts := bs.map (fun k => (blockSum ca cb k.a k.b 0 ⟨false, false, false, false⟩,
    ((k.sa : Int) - 127) + ((k.sb : Int) - 127), k.sa == 0xFF || k.sb == 0xFF))
  let nanOp := parts.any (fun p => p.1.2.nan || p.2.2)
  let inval := parts.any (fun p => p.1.2.invalid)
  let pinf := parts.any (fun p => p.1.2.posInf)
  let ninf := parts.any (fun p => p.1.2.negInf)
  let sums := parts.map (fun p => (p.1.1, p.2.1))
  if ca == 0 && cb == 0 then (wrap 64 (sums.foldl (fun a p => a + p.1) 0), 0)
  else if nanOp then (nanF32, 0)
  else if inval || (pinf && ninf) then (nanF32, flNV)
  else if pinf then (0x7F800000, 0)
  else if ninf then (negInfF32, 0)
  else
    match anchorOf sums with
    | none => (0, 0)
    | some an =>
      let span := 92 - blockBits ca cb
      let r := accumulate span an sums 0 false
      let e := stepExp ca + stepExp cb + an - (span : Int)
      let f := if r.1 == 0 then (0, 0) else toF32 (.fin (decide (r.1 < 0)) r.1.natAbs e)
      (f.1, flOr f.2 (flIf r.2 flGX))

/-- A BF16 group (R89): products rounded to FP32, summed by the canonical tree over the position. -/
def groupBF16 : List Nat → List Nat → List Elem × Nat
  | x :: xs, y :: ys =>
    let p := fRound (fvMul (decodeF fBF16 x) (decodeF fBF16 y))
    let r := groupBF16 xs ys
    (⟨p.1, false⟩ :: r.1, flOr p.2 r.2)
  | _, _ => ([], 0)

/-- Elements in blocks of 32, each with its scale bytes. -/
def blocksOf : Nat → List Nat → List Nat → List Nat → List Nat → List Block
  | 0, _, _, _, _ => []
  | n + 1, a, b, sa, sb =>
    if a.isEmpty then []
    else ⟨a.take 32, b.take 32, sa.headD 0x7F, sb.headD 0x7F⟩ ::
      blocksOf n (a.drop 32) (b.drop 32) (sa.drop 1) (sb.drop 1)

/-- The result of one group of up to 256 elements of formats `ca` and `cb` (R84, R87, R89). -/
def groupOf (ca cb : Nat) (a b sa sb : List Nat) : Nat × Nat :=
  if ca == 8 && cb == 8 then
    let p := groupBF16 a b
    let t := tree 0 p.1
    (t.1.v, flOr p.2 t.2)
  else groupResult ca cb (blocksOf 8 a b sa sb)

/-- Groups of 256 elements in ascending order (R84), each with its flags; `pz` marks poisoned elements. -/
def groupsOf (ca cb : Nat) : Nat → List Nat → List Nat → List Nat → List Nat → List Bool → List (Elem × Nat)
  | 0, _, _, _, _, _ => []
  | n + 1, a, b, sa, sb, pz =>
    if a.isEmpty then []
    else
      let g : Elem × Nat :=
        if (pz.take 256).any id then (⟨if ca == 0 then 0 else poisonF32, true⟩, flPZ)
        else let r := groupOf ca cb (a.take 256) (b.take 256) (sa.take 8) (sb.take 8); (⟨r.1, false⟩, r.2)
      g :: groupsOf ca cb n (a.drop 256) (b.drop 256) (sa.drop 8) (sb.drop 8) (pz.drop 256)

/-- The flags of a list of results together. -/
def allFlags (l : List Nat) : Nat := l.foldl flOr 0

/-- The results of a list that raise a flag. -/
def countFlag (fl : Nat) (l : List Nat) : Nat := (l.filter (fun x => x / fl % 2 == 1)).length

/-- The kind of partial that a pair of formats makes: INT64 for INT8 (R87). -/
def kindOf (ca : Nat) : Nat := if ca == 0 then 1 else 0

/-- An attention partial (R101): largest base-2 score, sum, weighted rows. -/
structure Att where
  m : Elem
  l : Elem
  o : List Elem
  deriving DecidableEq, Repr

/-- A binary FP32 operation on marked elements (R104). -/
def eBin (f : Nat → Nat → Nat × Nat) (a b : Elem) : Elem × Nat :=
  if a.pz || b.pz then (⟨poisonF32, true⟩, flPZ) else let r := f a.v b.v; (⟨r.1, false⟩, r.2)

/-- The factor exp2(x.m − m), 0 for x.m = −∞ (R103). -/
def attFactor (xm m : Elem) : Elem × Nat :=
  if xm.pz || m.pz then (⟨poisonF32, true⟩, flPZ)
  else if xm.v == negInfF32 then (⟨0, false⟩, 0)
  else
    let d := fSub xm.v m.v
    let r := fExp2 d.1
    (⟨r.1, false⟩, flOr d.2 r.2)

/-- One weighted sum add(mul(fa, a), mul(fb, b)) (R103). -/
def attSum (fa fb a b : Elem) : Elem × Nat :=
  let x := eBin fMul fa a
  let y := eBin fMul fb b
  let s := eBin fAdd x.1 y.1
  (s.1, flOr (flOr x.2 y.2) s.2)

/-- Weighted sums over two rows of equal length. -/
def attRow (fa fb : Elem) : List Elem → List Elem → List Elem × Nat
  | a :: as, b :: bs =>
    let s := attSum fa fb a b
    let r := attRow fa fb as bs
    (s.1 :: r.1, flOr s.2 r.2)
  | _, _ => ([], 0)

/-- The merge of R103, left operand first. -/
def attMerge (a b : Att) : Att × Nat :=
  if !a.m.pz && !b.m.pz && a.m.v == negInfF32 && b.m.v == negInfF32 then
    (⟨⟨negInfF32, false⟩, ⟨0, false⟩, a.o.map (fun _ => ⟨0, false⟩)⟩, 0)
  else
    let m := eBin (fMinMax true) a.m b.m
    let fa := attFactor a.m m.1
    let fb := attFactor b.m m.1
    let l := attSum fa.1 fb.1 a.l b.l
    let o := attRow fa.1 fb.1 a.o b.o
    (⟨m.1, l.1, o.1⟩, flOr (flOr m.2 (flOr fa.2 fb.2)) (flOr l.2 o.2))

/-- The root's output o[j] / l, +0 for l = 0 (R103). -/
def attFinal (a : Att) : List Elem × Nat × Bool :=
  if !a.l.pz && a.l.v % 2 ^ 31 == 0 then (a.o.map (fun _ => ⟨0, false⟩), 0, true)
  else
    let r := a.o.map (fun x => eBin fDiv x a.l)
    (r.map (·.1), r.foldl (fun f p => flOr f p.2) 0, false)

end Sys2Proof.Machine
end

