-- ==== Sys2Proof/Machine/Store.lean ====
section
/-! DEFINITION. Sparse tables in canonical form: the one shape in which the model holds memory, registers
and every other numbered piece of state. A table lists (key, value) pairs with keys strictly rising and no
value equal to what an unlisted key reads as; that reading is given by the reader, as a default. -/

namespace Sys2Proof.Machine

/-- A sparse table. A memory is a `Tab Byte`, a list of Host.Cell. -/
abbrev Tab (α : Type) := List (Nat × α)

/-- The value at key `k`; an unlisted key reads as `d k`. -/
def tget {α : Type} (d : Nat → α) : Tab α → Nat → α
  | [], k => d k
  | (j, v) :: r, k => if k = j then v else tget d r k

/-- The table without key `k`. -/
def tdel {α : Type} (k : Nat) : Tab α → Tab α
  | [] => []
  | (j, v) :: r => if j = k then tdel k r else (j, v) :: tdel k r

/-- The table with `(k, v)` put before the first larger key. -/
def tput {α : Type} (k : Nat) (v : α) : Tab α → Tab α
  | [] => [(k, v)]
  | (j, w) :: r => if k < j then (k, v) :: (j, w) :: r else (j, w) :: tput k v r

/-- A write: the value an unlisted key reads as removes the entry. -/
def tset {α : Type} [DecidableEq α] (d : Nat → α) (k : Nat) (v : α) (t : Tab α) : Tab α :=
  if v = d k then tdel k t else tput k v (tdel k t)

/-- A read and a write of one entry. -/
def tmod {α : Type} [DecidableEq α] (d : Nat → α) (k : Nat) (f : α → α) (t : Tab α) : Tab α :=
  tset d k (f (tget d t k)) t

/-- Every key below `lo` or at least `hi` is kept, the others read as unlisted. -/
def tclear {α : Type} (lo hi : Nat) (t : Tab α) : Tab α :=
  t.filter (fun p => p.1 < lo || hi ≤ p.1)

/-- Keys strictly rising from `lo` on, and no entry equal to what an unlisted key reads as. -/
def twfFrom {α : Type} [DecidableEq α] (d : Nat → α) : Nat → Tab α → Bool
  | _, [] => true
  | lo, (k, v) :: r => decide (lo ≤ k) && decide (v ≠ d k) && twfFrom d (k + 1) r

/-- The canonical form. -/
def twf {α : Type} [DecidableEq α] (d : Nat → α) (t : Tab α) : Bool := twfFrom d 0 t

/-- The canonical form of a byte memory whose unlisted addresses read as 0. -/
def Memory.wf (m : Tab Byte) : Bool := twf (fun _ => (0#8 : Byte)) m

/-- One byte of a memory; an address nothing has written reads as 0 (DESIGN CHOICE, log 4). -/
def mget (m : Tab Byte) (a : Nat) : Byte := tget (fun _ => 0#8) m a

/-- One byte written. -/
def mset (m : Tab Byte) (a : Nat) (b : Byte) : Tab Byte := tset (fun _ => 0#8) a b m

/-- `n` bytes from address `a` up. -/
def mread (m : Tab Byte) (a : Nat) : Nat → List Byte
  | 0 => []
  | n + 1 => mget m a :: mread m (a + 1) n

/-- A list of bytes written from address `a` up. -/
def mwrite (m : Tab Byte) (a : Nat) : List Byte → Tab Byte
  | [] => m
  | b :: r => mwrite (mset m a b) (a + 1) r

/-- A set of numbers, kept as a table of marks. -/
def tmem (t : Tab Bool) (k : Nat) : Bool := tget (fun _ => false) t k

/-- A mark set or cleared. -/
def tmark (t : Tab Bool) (k : Nat) (b : Bool) : Tab Bool := tset (fun _ => false) k b t

/-- Every number from `lo` on, `n` of them, marked `b`. -/
def tmarks (t : Tab Bool) (lo : Nat) (b : Bool) : Nat → Tab Bool
  | 0 => t
  | n + 1 => tmarks (tmark t lo b) (lo + 1) b n

/-- Some number of `lo .. lo + n - 1` is marked. -/
def tany (t : Tab Bool) (lo : Nat) : Nat → Bool
  | 0 => false
  | n + 1 => tmem t lo || tany t (lo + 1) n

end Sys2Proof.Machine
end

