-- ==== Sys2Proof/Machine/TimeTypes.lean ====
section
/-! DEFINITION. The state of the time bases, the servo, the fronthaul ports and the TIME pins (chapter 10). -/

namespace Sys2Proof.Machine

/-- Time beside its registers. -/
structure TimeS where
  /-- each base in units of 2^-34 ns (R489, R491) -/
  tb : Tab Nat := []
  /-- Sync messages in a row within 100 ns, and in a row beyond 1 µs (R498) -/
  good : Nat := 0
  bad : Nat := 0
  /-- the radio base was stepped in this acquisition; 0x8005 was reported in it (R499) -/
  stepped : Bool := false
  told : Bool := false
  /-- the tile cycle in which holdover was entered (R501, R509) -/
  holdAt : Nat := 0
  /-- TIME_OUT pins that are high -/
  outs : Tab Bool := []
  /-- the timing-class code recorded last by the servo, the triggers and the capture units (R506) -/
  lastCode : Nat := 0
  deriving DecidableEq, Repr

/-- A frame in a port's egress buffer (R477, R478): its queue, launch time and last start (ns of the radio base),
counted length under R467, eAxC identifier, air Strike, and payload blocks (exponent, samples) or octets. -/
structure EgFrame where
  queue : Nat
  launch : Int
  limit : Int
  len : Nat
  carrier : Nat
  kind : Nat
  eaxc : Nat
  air : Nat
  symbol : Nat
  start : Nat
  blocks : List (Nat × List Nat)
  payload : List Byte
  deriving DecidableEq, Repr

/-- A section that waits to be written (R473): steering entry, destination address and CI16 words. -/
structure Section where
  entry : Nat
  tile : Nat
  addr : Nat
  words : List Nat
  deriving DecidableEq, Repr

/-- A two-bucket shaper's tokens in 1/4,096 byte (R481). -/
structure Bucket where
  c : Nat := 0x4000 * 4096
  p : Nat := 0x4000 * 4096
  deriving DecidableEq, Repr

/-- A fronthaul port beside its registers. -/
structure FhPort where
  frames : List EgFrame := []
  sections : List Section := []
  shapers : Tab Bucket := []
  policer : Bucket := {}
  /-- heads and stops of the egress rings (R476) -/
  heads : Tab Nat := []
  stops : Tab Bool := []
  /-- last sequence identifier of each eAxC (R475) -/
  seqs : Tab (Option Nat) := []
  /-- next sequence identifier sent on each eAxC; the frame sent last -/
  txSeq : Tab Nat := []
  sent : Option EgFrame := none
  /-- descriptors of each ring that wait for room in the buffer (R478) -/
  owed : Tab Nat := []
  /-- when each queue's head became head, and when its peak bucket came to hold it (R487): ns of the radio base -/
  headAt : Tab Nat := []
  fullAt : Tab Nat := []
  deriving DecidableEq, Repr

end Sys2Proof.Machine
end

