-- ==== Sys2Proof/Machine/FabTypes.lean ====
section
/-! DEFINITION. The state of the fabric controller (chapter 12). -/

namespace Sys2Proof.Machine

/-- Request kinds of a packet: 0 read, 1 write, 0x10 + fn the atomics of R248, 0x20 compare-and-swap,
0x30 multicast write, 0x40 reducer record, 0x50 version record. -/
abbrev FKind := Nat

/-- Who owns a request: a strand (tile, strand) or a queue's transfer (0xFFF, queue). -/
structure FOwner where
  part : Nat
  tile : Nat
  strand : Nat
  deriving DecidableEq, Repr

/-- A request kept in the replay store, or one that still waits to be accepted (R574, R575). -/
structure FReq where
  dest : Nat
  seqNo : Nat
  rank : Nat
  owner : FOwner
  kind : FKind
  addr : Nat
  operand : Nat
  expect : Nat
  data : List Byte
  /-- bit k marks byte k of the data, or bit 0 the operand (R220, R577) -/
  poison : Nat
  cnt : Option Nat
  link : Nat
  epoch : Nat
  /-- the copy, multicast or reduction it is part of; 0 for none -/
  op : Nat
  /-- the register that a load or an atomic writes -/
  rd : Option Nat
  /-- a fence covers it (R578) -/
  covered : Bool
  /-- bytes of the copied range that this request carries, from the range's start -/
  off : Nat
  deriving DecidableEq, Repr

/-- A copy, multicast put or reduction contribution in progress at its source (R577, R585, R586). -/
structure FOp where
  id : Nat
  owner : FOwner
  /-- 0 put, 1 get, 2 multicast, 3 reduction contribution -/
  kind : Nat
  left : Nat
  code : Nat
  lcnt : Option Nat
  laddr : Nat
  /-- multicast: group, and for each rank the acknowledged offset and attachment -/
  group : Nat
  receivers : List (Nat × Nat × Bool)
  deriving DecidableEq, Repr

/-- A job image as loaded (R564): chips by rank, and groups. -/
structure Job where
  nchips : Nat := 0
  rank : Nat := 0
  job : Nat := 0
  devs : List (Nat × Bool) := []
  groups : List (List Nat × Nat) := []
  deriving DecidableEq, Repr

/-- A partial record (R260). -/
structure PRec where
  tag : Tag
  cols : Nat
  rows : Nat
  empty : Bool
  m : Elem
  l : Elem
  vals : List Elem
  deriving DecidableEq, Repr

/-- One reduction in progress at this device's reducer (R586, R587, R97): its key and the head of its first record, the
contributors that have come, the nodes held, the tags met so far, the combined slices, and whether it has ended before
every record came. -/
structure Reduction where
  key : RedKey
  head : RedHead
  shape : PRec
  came : List Nat
  held : List PRec
  seen : List Tag
  slices : List (Nat × PRec)
  ended : Bool
  deriving DecidableEq, Repr

/-- What this device's strand expects of a reduction: where the result goes (R586). -/
structure RWait where
  owner : FOwner
  group : Nat
  seqNo : Nat
  tile : Nat
  head : RedHead
  deriving DecidableEq, Repr

/-- An update waiting at a hot line's home (R583): the line, the partition that its Ward entry opens, and the request. -/
structure HotUp where
  line : Nat
  part : Nat
  req : FabReq
  deriving DecidableEq, Repr

/-- A request that arrived out of order or must wait its turn (R574), with the code of its Ward check and the partition
that its entry opens (R568). -/
structure FHeld where
  req : FabReq
  code : Nat
  part : Nat
  deriving DecidableEq, Repr

/-- A drain marker out (R584): destination, link, and the owners of the covered requests that used the path. -/
structure Marker where
  dest : Nat
  link : Nat
  owners : List FOwner
  deriving DecidableEq, Repr

/-- A store gathered by the Gateway (R589). -/
structure Gather where
  part : Nat
  rank : Nat
  owner : FOwner
  addr : Nat
  data : List Byte
  poison : Bool
  deriving DecidableEq, Repr

/-- A granule that the Gateway fetched for a strand (R589). -/
structure Granule where
  owner : FOwner
  rank : Nat
  addr : Nat
  data : List Byte
  poison : Nat
  deriving DecidableEq, Repr

/-- The fabric controller beside its registers. -/
structure Fab where
  reqs : List FReq := []
  waiting : List FReq := []
  ops : List FOp := []
  nextOp : Nat := 1
  /-- next sequence number to each destination device, next expected from each source (R574) -/
  nextSeq : Tab Nat := []
  expect : Tab Nat := []
  /-- requests that arrived out of order, by source (R574) -/
  reorder : List FHeld := []
  jobs : Tab Job := []
  reductions : List Reduction := []
  rwaits : List RWait := []
  hot : List HotUp := []
  /-- the source served last for each line, and the tile cycle from which the line takes an update again (R583) -/
  hotLast : Tab Nat := []
  hotAt : Tab Nat := []
  gathers : List Gather := []
  granules : List Granule := []
  markers : List Marker := []
  /-- retries in a row of each link (R559) -/
  retries : Tab Nat := []
  /-- spare fibre pairs taken, 2 × group + pair − 1; links that retrain on a pair taken (R561) -/
  fibres : Tab Bool := []
  moved : Tab Bool := []
  /-- Ward entries' peers that have reported, by partition: (peer, isa, features) (R566) -/
  vrecs : Tab (List (Nat × Nat × Nat)) := []
  /-- responses sent: the source they go to, as they come back there (R568, R574) -/
  sent : List FabAck := []
  /-- the last refusal to each source and job: the tile cycle (R568) -/
  refused : List (Nat × Nat × Nat) := []
  /-- version records sent: the peer and the record (R566) -/
  vsent : List (Nat × Nat) := []
  /-- shapers of the link queues, 16 × link + queue (R486) -/
  buckets : Tab Bucket := []
  /-- the first time exchange after EN has been made (R594) -/
  timeDone : Bool := false
  deriving DecidableEq, Repr

end Sys2Proof.Machine
end

