-- ==== Sys2Proof/Machine/MemTypes.lean ====
section
/-! DEFINITION. The state of the memory channels, the Swage units and host memory (chapter 06). -/

namespace Sys2Proof.Machine

/-- A byte with its poison mark. -/
abbrev MByte := Byte × Bool

/-- One MRDIMM channel beside its registers (R283 to R298). -/
structure Chan where
  populated : Bool := true
  /-- module capacity in GB, ranks, and the best speed it trains at (0, 1, 2; 3 none): DESIGN CHOICE, log 2 -/
  cap : Nat := 128
  ranks : Nat := 2
  best : Nat := 2
  /-- tile cycles of the latest uncorrectable bursts, newest first -/
  uncorr : List Nat := []
  /-- next burst of the patrol scrubber, and the pass it is in -/
  scrubPos : Nat := 0
  scrubPass : Nat := 0
  /-- for each row, the scrub passes in which it was corrected (R296) -/
  rowHits : Tab (List Nat) := []
  /-- corrected bursts waiting to be written back -/
  fix : List Nat := []
  spared : List Nat := []
  deriving DecidableEq, Repr

/-- The stage of a command in a Swage context (R330 to R332): its descriptors are being read, its pages are being
read, or it has read all that it reads. -/
inductive SwStage where
  | fetch | pages | records
  deriving DecidableEq, Repr

/-- A result record owed by a context (R323): its tag, its elements, and whether a check failed. -/
structure SwRec where
  tag : Tag
  att : Att
  deriving DecidableEq, Repr

/-- A Swage command: its arrival number, partition, sender and record, and, once in a context, how far it has come:
descriptors as they were read (R327) and the code of each group's checks, pages computed, the page partials of the
group under way as (head, partial), the records formed so far, and the number of them written. -/
structure SwCmd where
  no : Nat
  part : Nat
  sender : Nat
  record : List MByte
  stage : SwStage := .fetch
  groups : List (List (List MByte) × Nat) := []
  pagesDone : Nat := 0
  parts : List (Nat × Att) := []
  records : List SwRec := []
  written : Nat := 0
  deriving DecidableEq, Repr

/-- A Swage unit beside its registers (R330): commands waiting, the first 32 accepted and any others held by
crossbar credits; its contexts; and the commands that have arrived. -/
structure SwUnit where
  queue : List SwCmd := []
  ctxs : Tab (Option SwCmd) := []
  count : Nat := 0
  deriving DecidableEq, Repr

/-- Memory outside the tiles. -/
structure MemS where
  chans : Tab Chan := []
  /-- module bytes, by channel × 2^43 + module byte -/
  dram : Tab Byte := []
  /-- poison mark and held error of each burst, by key / 64 -/
  dpz : Tab Bool := []
  dflaw : Tab Nat := []
  /-- training has been started since reset (R305) -/
  trained : Bool := false
  /-- CAP in bytes, fixed when MEM_MAP.ENABLE was written (R285) -/
  cap : Nat := 0
  /-- members of the set that were not in service then (R285) -/
  lost : List Nat := []
  /-- host memory as the device has written it and the host has placed it -/
  host : Tab Byte := []
  /-- what the last MEM_READ, MEM_WRITE or HOST_HDM_ACCESS delivered, and its status -/
  out : List MByte := []
  outCode : Nat := 0
  /-- pages of host-managed memory in device bias, by 2 MiB page; a flip in progress (R618) -/
  bias : Tab Bool := []
  flip : Option (Nat × Bool) := none
  /-- ranges that left a grant and are being zero-filled: grant, device address, bytes (R533) -/
  clearing : List (Nat × Nat × Nat) := []
  units : Tab SwUnit := []
  /-- 1 + the unit that last wrote a record to each tile (R335, DEDUCED, log 20) -/
  served : Tab Nat := []
  /-- pages that each function's dirty-log filter holds (R545), newest first -/
  dlogSeen : Tab (List Nat) := []
  /-- host writes held by a full dirty log: function, address, bytes -/
  dlogHeld : List (Nat × Nat × List Byte) := []
  deriving DecidableEq, Repr

end Sys2Proof.Machine
end

