-- ==== Sys2Proof/Machine/PartTypes.lean ====
section
/-! DEFINITION. Partitions, the Quench, Bellows and Hasp (chapter 11). -/

namespace Sys2Proof.Machine

/-- What a loaded program binary states (R107, R234, R395): version, features, logical tiles, and whether it is
marked as balanced (R551). -/
structure Prog where
  addr : Nat
  major : Nat
  minor : Nat
  features : Nat
  tiles : Nat
  balanced : Bool
  deriving DecidableEq, Repr

/-- What a group leaves its partition for (R521). -/
inductive Origin where
  | radio | manager | temper
  deriving DecidableEq, Repr

/-- One pending Quench: groups (bitmap), pass Strike, target (0 to 15, 0x10 the free pool), the notice's
number, and whether VACATED has come (R521 to R525). -/
structure Move where
  origin : Origin
  groups : Nat
  pass : Nat
  target : Nat
  nseq : Nat
  vacated : Bool
  deriving DecidableEq, Repr

/-- One partition beside its registers (R512 to R527). -/
structure Part where
  /-- physical tile of each logical tile, 0xFF absent (R517) -/
  map : List Nat := []
  /-- a map that takes effect at the next Strike boundary (R518) -/
  nextMap : Option (List Nat) := none
  prog : Option Prog := none
  /-- groups that join at the next Strike boundary (R515 ADD) -/
  joining : Nat := 0
  /-- groups that pass at the next Strike boundary with no notice (R522): target and bitmap -/
  passing : List (Nat × Nat) := []
  starting : Bool := false
  /-- its queues start no new descriptor (R515 STOP, R542) -/
  quiet : Bool := false
  /-- an image is being written: its address (R544) -/
  saving : Option Nat := none
  thawing : Bool := false
  freezing : Bool := false
  moves : List Move := []
  /-- notices sent so far (R523) -/
  nseq : Nat := 0
  /-- logical indices of groups away for a Temper test: (logical, physical) (R527) -/
  away : List (Nat × Nat) := []
  /-- tokens of the MEM and FAB buckets in bytes spent below full depth (R536) -/
  usedMem : Nat := 0
  usedFab : Nat := 0
  /-- tokens of the MESH bucket of each tile, spent below full depth -/
  usedMesh : Tab Nat := []
  /-- the budgets of the slot in use, in 256-byte units (R535, R536), and bytes borrowed below a whole unit (R539) -/
  budMem : Nat := 0
  budFab : Nat := 0
  budMesh : Nat := 0
  borrow : Nat := 0
  /-- requests held: regulator 0 MEM, 1 FAB, 2 MESH; tile; charge (R537) -/
  heldReq : List (Nat × Nat × Nat) := []
  deriving DecidableEq, Repr

/-- A Hasp message (R549). -/
structure Msg where
  type : Nat
  seqNo : Nat
  src : Nat
  len : Nat
  status : Nat
  payload : List Byte
  deriving DecidableEq, Repr

/-- A Hasp instance beside its registers: the two rings, the messages the Hearth holds for each side, the
next sequence number of each sender, and agreement (R547 to R549). -/
structure Hasp where
  toTenant : List Msg := []
  toManager : List Msg := []
  heldTenant : List Msg := []
  heldManager : List Msg := []
  /-- next sequence numbers: Hearth, manager, tenant -/
  seqs : Tab Nat := []
  agreed : Bool := false
  version : Nat := 0
  deriving DecidableEq, Repr

end Sys2Proof.Machine
end

