-- ==== Sys2Proof/Machine/TileTypes.lean ====
section
/-! DEFINITION. The state of a tile and of its strands (chapters 03, 04 and 05). -/

namespace Sys2Proof.Machine

/-- Why a strand waits (R188). -/
inductive WaitKind where
  | bank | counter | pane | swap | queue | loopCache | ward | fence | fetch | sync | interlock | branch
  deriving DecidableEq, Repr

/-- The code of a wait in STRAND_STATUS.WAIT_KIND (R188). -/
def waitCode : WaitKind → Nat
  | .bank => 1 | .counter => 2 | .pane => 3 | .swap => 4 | .queue => 5 | .loopCache => 6
  | .ward => 7 | .fence => 8 | .fetch => 9 | .sync => 10 | .interlock => 11 | .branch => 12

/-- A waiting bundle's cause and its WAIT_INDEX (R188). -/
structure Wait where
  kind : WaitKind
  index : Nat
  deriving DecidableEq, Repr

/-- An entry of the loop stack: first bundle, body length, runs left, and whether it runs from the loop
cache (R200, R201). -/
structure LoopRec where
  start : Nat
  len : Nat
  left : Nat
  cached : Bool
  /-- the body has not yet run once -/
  first : Bool
  deriving DecidableEq, Repr

/-- An asynchronous fault held pending: code, unit and address of finfo (R228, R229). -/
structure AFault where
  code : Nat
  unit : Nat
  addr : Nat
  deriving DecidableEq, Repr

/-- One strand (R178, R182, R184 to R188). The default value is the entry state of R186. -/
structure Strand where
  /-- s0 to s31 -/
  s : Tab Word := []
  /-- poison marks of s -/
  sm : Tab Bool := []
  /-- v0 to v31 -/
  v : Tab VWord := []
  /-- poison marks of v, one bit for each 64-bit lane -/
  vm : Tab (BitVec 32) := []
  /-- p0 to p7 -/
  p : Tab Bool := []
  /-- poison marks of p -/
  pm : Tab Bool := []
  flags : BitVec 6 := 0#6
  fmode : Bool := false
  fvec : BitVec 18 := 0#18
  fpc : BitVec 18 := 0#18
  fcode : BitVec 16 := 0#16
  finfo : Word := 0#64
  pc : Nat := 0
  handler : Bool := false
  /-- the code of the fault that left the strand faulted -/
  faulted : Option Nat := none
  /-- stopped by `halt` -/
  halted : Bool := false
  /-- held by the Hearth: STOP, freezing, VACATED -/
  held : Bool := false
  /-- TILE_CTL.STRAND_RESET came after the last start at the entry point -/
  fresh : Bool := false
  loops : List LoopRec := []
  /-- the bundle being issued, in slot order of arrival -/
  slots : List Instr := []
  wait : Option Wait := none
  /-- a timed wait has run out: the bundle issues with pd written 0 -/
  timedOut : Bool := false
  pend : List AFault := []
  /-- registers with a pending write: s i at i, v i at 32 + i (R196) -/
  busy : Tab Bool := []
  /-- ranks to which a request that a fence covers was not applied without refusal or poison (R578) -/
  fenceFail : List Nat := []
  deriving DecidableEq, Repr

/-- The kinds of queued operations (R239). -/
inductive EngKind where
  | mm | mew | bmv | kst | kld | xld
  | fcmul | fcmac | fwb | ffir | fmag2 | fbexp | fr4 | fr2 | cld | cst | mvcv | mvvc
  | pcomb | amerge | afinal | send | mvt | dtap | stap
  deriving DecidableEq, Repr

/-- A queued operation: its kind, the strand that issued it, the descriptor words captured at issue, the
kc and mode fields, and for `mvvc` the 1,024 bits and 16 marks of its source. -/
structure EngOp where
  kind : EngKind
  strand : Nat
  w : List Nat
  kc : Nat := 0
  mode : Nat := 0
  vdat : Nat := 0
  vpz : Nat := 0
  deriving DecidableEq, Repr

/-- An entry of a matrix partial stack (R267): tag, shape, elements row by row, and the final mark of R269. -/
structure StackEnt where
  tag : Tag
  m : Nat
  n : Nat
  vals : List Elem
  final : Bool
  deriving DecidableEq, Repr

/-- One node that a bankside accumulator set holds: tag and the 512 row slots of the tile (R140). -/
structure KNode where
  tag : Tag
  vals : List Elem
  deriving DecidableEq, Repr

/-- An accumulator set: rows per bank − 1 of the operation that formed it, and its stack, top first (R272). -/
structure KSet where
  rowsM1 : Nat := 0
  nodes : List KNode := []
  deriving DecidableEq, Repr

/-- A lane accumulator of the Fuller: 48-bit I and Q, and a poison mark (R80, R223). -/
structure Lane where
  i : Int := 0
  q : Int := 0
  pz : Bool := false
  deriving DecidableEq, Repr

/-- A pane stream (R161, R368, R369): running, the queue that feeds it, first slot address, pane bytes, panes in
all, release word, panes released (all below this number), panes whole (all below this number), and stopped. -/
structure Stream where
  on : Bool := false
  queue : Nat := 0
  base : Nat := 0
  pane : Nat := 0
  panes : Nat := 0
  relw : Nat := 0
  released : Nat := 0
  whole : Nat := 0
  stopped : Bool := false
  deriving DecidableEq, Repr

/-- The buffer halves of a cycle-exact kernel: the half in use, and late swaps that wait (R163). -/
structure Halves where
  half : Bool := false
  waiting : Bool := false
  deriving DecidableEq, Repr

/-- One tile beside its registers. The default value is the tile at reset (R172). -/
structure Tile where
  /-- the 3 MiB of banks by tile-local address -/
  mem : Tab Byte := []
  /-- poison mark of each 64-bit word, by word index -/
  pz : Tab Bool := []
  /-- error held by the cells of each word: 0 none, 1 correctable, 2 uncorrectable -/
  flaw : Tab Nat := []
  /-- words waiting in the banks' write-back queues -/
  wbq : List Nat := []
  /-- lines each bank's scrubber has done in this pass -/
  scrub : Tab Nat := []
  zeroing : Bool := false
  /-- lines in the fetch buffer, oldest first -/
  fetch : List Nat := []
  /-- lines locked in the fetch buffer -/
  locked : List Nat := []
  lcOwner : Option Nat := none
  streams : Tab Stream := []
  halves : Tab Halves := []
  c : Tab CWord := []
  cm : Tab (BitVec 32) := []
  lanes : Tab Lane := []
  ac : Tab Int := []
  /-- matrix partial stacks, top first: 0 to 3 the quarters, 4 the ganged array -/
  partials : Tab (List StackEnt) := []
  sets : Tab KSet := []
  /-- activation stage: slot × 8,192 + byte, scale area from byte 4,096 -/
  act : Tab Byte := []
  actpz : Tab Bool := []
  qMat : List EngOp := []
  qBank : List EngOp := []
  qFul : List EngOp := []
  qComb : List EngOp := []
  qMov : List EngOp := []
  deriving DecidableEq, Repr

/-- A `send` on its way (R216 to R222): the words were read when the mover took it up; `cut` tells that its
source was reset before all of them had left. -/
structure Flight where
  id : Nat
  src : Nat
  strand : Nat
  dst : Nat
  absent : Bool
  rcnt : Nat
  raddr : Nat
  laddr : Nat
  lcnt : Nat
  fn : Nat
  words : List Elem
  cut : Bool
  acked : Bool
  arrived : Bool
  deriving DecidableEq, Repr

/-- What a tap sends (R280, R281): element bytes of a piece, or its statistics (FP32 bits, −∞ or +∞ where there is
no finite value). -/
inductive TapData where
  | digest (piece : Nat) (last : Bool) (bytes : List Byte) (pz : Bool)
  | stats (tag : Tag) (min max nfin nnan ninf sum : Nat) (pz : Bool)
  deriving DecidableEq, Repr

/-- A piece on its way to the collector: the partition of the tapping tile (16 for none) and the watch. -/
structure TapPiece where
  id : Nat
  part : Nat
  watch : Nat
  data : TapData
  deriving DecidableEq, Repr

end Sys2Proof.Machine
end

