-- ==== Sys2Proof/Machine/ImageTypes.lean ====
section
/-! DEFINITION. What a save image holds (R544). -/

namespace Sys2Proof.Machine

/-- A save image beside its bytes in memory (R544): the manual gives the places of the header and of the banks, and
no layout of the rest, which the model keeps here under the image's number (DESIGN CHOICE, log 15). -/
structure Image where
  isa : Nat
  ltiles : Nat
  prog : Prog
  /-- region (LOCAL, CHAN), BASE and SIZE of each grant -/
  grants : List Nat
  tiles : List (Option (Tile × List Strand))
  queues : List (Nat × List Byte)
  rings : List (Nat × Hasp)
  deriving DecidableEq, Repr

end Sys2Proof.Machine
end

