-- ==== Sys2Proof/Machine/ObsTypes.lean ====
section
/-! DEFINITION. The state of the watch collector, the trace unit and the snapshot (chapter 15). -/

namespace Sys2Proof.Machine

/-- A node of statistics (R672): tag, minimum, maximum, counts and sum. -/
structure StatNode where
  tag : Tag
  min : Nat
  max : Nat
  nfin : Nat
  nnan : Nat
  ninf : Nat
  sum : Nat
  deriving DecidableEq, Repr

/-- A watch entry (R669 to R673). -/
structure Watch where
  cfg : List Byte := []
  seq : Nat := 0
  /-- bytes hashed so far, next piece, pieces held, indices received, the last piece's index -/
  hashed : List Byte := []
  next : Nat := 0
  held : List (Nat × List Byte) := []
  came : List Nat := []
  last : Option Nat := none
  total : Nat := 0
  nodes : List StatNode := []
  gap : Bool := false
  dup : Bool := false
  pz : Bool := false
  /-- a check failed: pieces are dropped until the watch is written again (R672) -/
  ended : Bool := false
  deriving DecidableEq, Repr

/-- The debug units beside their registers. -/
structure Obs where
  watches : Tab Watch := []
  /-- completed records that wait for the result ring, and whether each raises the vector (R674) -/
  results : List (Bool × List Byte) := []
  /-- trace entries in the FIFO and in the SRAM before and after the trigger, oldest first (R676 to R678) -/
  fifo : List (List Byte) := []
  pre : List (List Byte) := []
  post : List (List Byte) := []
  /-- entries dropped since the FIFO was full, and the time bytes of the first (R676) -/
  dropping : Option (Nat × List Byte) := none
  /-- the next entry written is the trigger entry (R679) -/
  trigNext : Bool := false
  /-- bytes streamed so far (R677) -/
  streamed : Nat := 0
  /-- the image cut and not yet written (R681) -/
  shadow : Option (List Byte) := none
  deriving DecidableEq, Repr

end Sys2Proof.Machine
end

