-- ==== Sys2Proof/Machine/QTypes.lean ====
section
/-! DEFINITION. The state of the queue manager and the DMA engines (chapter 07). -/

namespace Sys2Proof.Machine

/-- How far a transfer has come (R365, R371 to R374, R381). -/
inductive XStage where
  | running | readBack | record | done
  deriving DecidableEq, Repr

/-- A descriptor that has started (R355), or that an abort has met (R383). -/
structure Xfer where
  /-- HEAD value of the descriptor (R371 SLOT) -/
  slot : Nat
  d : List Byte
  stage : XStage := .running
  /-- the first element not yet handled, in logical order; elements before it that were not delivered, and the
  first of them -/
  next : Nat := 0
  missed : Nat := 0
  miss : Option Nat := none
  /-- elements delivered poisoned, elements dropped, bytes delivered in this part -/
  poisoned : Nat := 0
  dropped : Nat := 0
  bytes : Nat := 0
  /-- codes met -/
  codes : List Nat := []
  /-- it ended before its last element, or was malformed; it stopped; it was aborted; it was resumed -/
  ended : Bool := false
  stopped : Bool := false
  aborted : Bool := false
  /-- an abort met it after it had stopped: it leaves with its stop record (R384) -/
  leave : Bool := false
  resumed : Bool := false
  /-- a read-back failed (R372) -/
  badBack : Bool := false
  /-- destination addresses of the elements delivered, for overlaps (R361) -/
  spots : List Nat := []
  /-- the engine that served it -/
  engine : Nat := 0
  deriving DecidableEq, Repr

/-- The queue manager beside its registers. -/
structure QM where
  /-- contexts in the hot-head cache, 64 bytes each, and their order of use, latest first (R358) -/
  cached : Tab (List Byte) := []
  lru : List Nat := []
  /-- queues pinned by PIN and by plan load (R358) -/
  pins : List Nat := []
  radioPins : List Nat := []
  xfers : Tab (List Xfer) := []
  /-- firings of each trigger line, and the count when a queue's waiting descriptor came to its head (R357) -/
  fires : Tab Nat := []
  headAt : Tab Nat := []
  /-- contexts are being cleared (R388) -/
  clearing : Bool := false
  /-- queues of a destroyed partition, set off once their records are written (R532) -/
  retire : List Nat := []
  /-- doorbells that wait for a cache entry: function, queue, index (R358) -/
  doorbells : List (Nat × Nat × Nat) := []
  /-- records of each completion queue that no interrupt has signalled (R376) -/
  unsig : Tab Nat := []
  deriving DecidableEq, Repr

end Sys2Proof.Machine
end

