-- ==== Sys2Proof/Machine/RadioTypes.lean ====
section
/-! DEFINITION. The state of the Strike machinery and of the coding halves (chapter 09). -/

namespace Sys2Proof.Machine

/-- A carrier-table entry (R418, R470). -/
structure Carrier where
  scs : Nat
  ant : Nat
  nprb : Nat
  mode : Nat
  port : Nat
  bfpw : Nat
  lag : Nat
  eaxcUl : Nat
  eaxcDl : Nat
  eaxcRa : Nat
  peer : Nat
  /-- mask bands of its parameter entry (R419, R446) -/
  nband : Nat
  deriving DecidableEq, Repr

/-- A phase entry (R421) with its transfer entries (destination, flits). -/
structure Phase where
  strike : Nat
  tile : Nat
  tier : Nat
  prof : Nat
  strand : Nat
  startCnt : Nat
  start : Nat
  deadline : Nat
  wcet : Nat
  trig : Nat
  xfers : List (Nat × Nat)
  codeNs : Nat
  codeEng : Nat
  chan : Nat
  port : Nat
  memBytes : Nat
  fhBytes : Nat
  deriving DecidableEq, Repr

/-- A plan as loaded (R416, R420). -/
structure Plan where
  period : Nat
  tiers : Nat
  cycle : Nat
  ntile : Nat
  nspare : Nat
  carriers : List Carrier
  /-- WORK and CARRIERS of each tier, the reduced profile last -/
  tierTab : List (Nat × Nat)
  phases : List Phase
  sjlBase : Nat
  sjlSize : Nat
  hash : List Byte
  deriving DecidableEq, Repr

/-- A tier request that is pending (R432, R433): target, EFFECTIVE, the groups that join at EFFECTIVE − 1 and those
that leave at EFFECTIVE, and whether the joining ones have been taken. -/
structure TierReq where
  target : Nat
  effective : Nat
  join : Nat
  leave : Nat
  taken : Bool
  deriving DecidableEq, Repr

/-- The Strike machinery beside its registers. -/
structure Radio where
  plan : Option Plan := none
  /-- an accepted replacement and the Strike of its acceptance (R439) -/
  nextPlan : Option (Plan × Nat) := none
  /-- a plan whose proof is under way: its image's address (R425) -/
  proving : Option Nat := none
  /-- a re-proof is under way (R426) -/
  reproving : Bool := false
  /-- the current Strike number -/
  number : Nat := 0
  /-- Strikes run the plan (R457) -/
  running : Bool := false
  /-- the reduced profile is the one that runs or would run; it runs until the hard reserve is ready (R464) -/
  reduced : Bool := false
  startup : Bool := false
  /-- a boundary enters the reduced profile (R426, R431) -/
  toReduced : Bool := false
  /-- tiles that joined the Anvil partition and wait for zeroing and their kernel images (R432) -/
  toLoad : List Nat := []
  /-- air Strikes that carry no downlink for want of a job list (R437) -/
  noDown : List Nat := []
  /-- coding halves whose rings wait to be rebound (R455) -/
  rebind : List Nat := []
  /-- logical tiles whose phases run elsewhere: working tile, spare (R430) -/
  subst : List (Nat × Nat) := []
  /-- logical tiles lost -/
  lost : List Nat := []
  /-- losses that the next boundary answers (R430) -/
  lostNow : List Nat := []
  /-- Strikes of the reports 0x5030 and 0x5031 of each physical tile (R429) -/
  reports : Tab (List Nat) := []
  request : Option TierReq := none
  /-- the Strike in which the last tier change took effect, and the carriers served before it (R434) -/
  since : Nat × Nat := (0, 0)
  /-- groups claimed, and claimed groups that the next boundary joins (R465) -/
  claims : Nat := 0
  joining : Nat := 0
  /-- downlink egress has flowed since ENABLE was set (R499) -/
  flowed : Bool := false
  /-- Strikes in a row with a mask violation, by carrier, and muted carriers (R446) -/
  maskRun : Tab Nat := []
  muted : List Nat := []
  /-- a step of the radio base that waits for a boundary (R500) -/
  pendingStep : Option Int := none
  /-- BCYCLE_M1 that waits for a boundary (R535) -/
  nextBcycle : Option Nat := none
  /-- the physical tile of each logical Anvil tile, as the plan was proved (R423) -/
  place : List Nat := []
  deriving DecidableEq, Repr

/-- A coding job in service (R450, R451): its index in the ring and its descriptor with marks. -/
structure CodeJob where
  index : Nat
  tile : Nat
  results : Nat
  log2n : Nat
  d : List Byte
  deriving DecidableEq, Repr

/-- A coding ring beside its registers: head, jobs in service, and the half that serves it (R450, R455). -/
structure CodeRing where
  head : Nat := 0
  jobs : List CodeJob := []
  moved : Bool := false
  deriving DecidableEq, Repr

end Sys2Proof.Machine
end

