-- ==== Sys2Proof/Machine/Regs.lean ====
section
/-! DEFINITION. The register file of BAR0: every register of the manual with its address, its fields' access
types and its reset value (R19, R20, R22, R23, R28 and the register chapters), and the addresses by name. -/

namespace Sys2Proof.Machine

/-- Access types (R20). -/
inductive Acc where
  | ro | rw | w1c | w1s | rc | wo
  deriving DecidableEq, Repr

/-- A field: bits hi down to lo and its access type. Reserved bits are in no field (R22). -/
structure Fld where
  hi : Nat
  lo : Nat
  acc : Acc
  deriving DecidableEq, Repr

/-- A register or an array of registers: base address, (stride, count) of each index, outermost first,
reset value and fields. -/
structure RegRow where
  base : Nat
  dims : List (Nat × Nat)
  reset : Nat
  fields : List Fld
  deriving DecidableEq, Repr

/-- The offset within a register array names one of its registers. -/
def dimsHit : List (Nat × Nat) → Nat → Bool
  | [], off => off == 0
  | (st, n) :: r, off => decide (off / st < n) && dimsHit r (off % st)

/-- The row holds the register at an address. -/
def rowHit (a : Nat) (r : RegRow) : Bool := decide (r.base ≤ a) && dimsHit r.dims (a - r.base)

/-- Identity and version (R12, R13, R232, R624, R613): fuse values are the model's (DESIGN CHOICE, log 2). -/
def rowsIdentity : List RegRow := [
  ⟨0x0, [], 0x072001B190030000, [⟨63, 16, .ro⟩]⟩,
  ⟨0x8, [(8, 2)], 0xFFFFFFFFFFFFFFFF, [⟨63, 0, .ro⟩]⟩,
  ⟨0x18, [], 0xFFFF, [⟨15, 0, .ro⟩]⟩,
  ⟨0x20, [], 0x000001000000003F, [⟨47, 0, .ro⟩]⟩,
  ⟨0x28, [], 0x1010101010101000, [⟨63, 8, .ro⟩]⟩,
  ⟨0x30, [], 1, [⟨63, 0, .ro⟩]⟩]

/-- Hearth and partitions (R48, R553, R555). -/
def rowsHearth : List RegRow := [
  ⟨0x00100040, [], 0xF00000, [⟨47, 20, .ro⟩, ⟨15, 0, .rc⟩]⟩,
  ⟨0x00100100, [], 0, [⟨63, 51, .wo⟩, ⟨31, 0, .wo⟩]⟩,
  ⟨0x00100108, [], 0, [⟨35, 0, .rw⟩]⟩,
  ⟨0x00100110, [], 0, [⟨63, 0, .rw⟩]⟩,
  ⟨0x00100118, [], 0, [⟨63, 48, .ro⟩, ⟨0, 0, .ro⟩]⟩,
  ⟨0x00100120, [], 0, [⟨35, 0, .ro⟩]⟩,
  ⟨0x00100200, [(8, 64)], 0, [⟨7, 7, .rw⟩, ⟨3, 0, .rw⟩]⟩,
  ⟨0x00101000, [(0x40, 16)], 0, [⟨47, 42, .rw⟩, ⟨37, 32, .rw⟩, ⟨31, 16, .rw⟩, ⟨1, 1, .rw⟩, ⟨0, 0, .rw⟩]⟩,
  ⟨0x00101008, [], 1, [⟨63, 48, .ro⟩, ⟨47, 40, .ro⟩, ⟨39, 32, .rc⟩, ⟨31, 24, .rc⟩, ⟨3, 0, .ro⟩]⟩,
  ⟨0x00101048, [(0x40, 15)], 0, [⟨63, 48, .ro⟩, ⟨47, 40, .ro⟩, ⟨39, 32, .rc⟩, ⟨31, 24, .rc⟩, ⟨3, 0, .ro⟩]⟩,
  ⟨0x00101010, [(0x40, 16)], 0, [⟨35, 0, .ro⟩]⟩,
  ⟨0x00101018, [(0x40, 16)], 0, [⟨35, 0, .ro⟩]⟩,
  ⟨0x00101020, [(0x40, 16)], 0, [⟨47, 12, .rw⟩, ⟨1, 1, .ro⟩, ⟨0, 0, .rw⟩]⟩,
  ⟨0x00102000, [(8, 256)], 0, [⟨63, 63, .rw⟩, ⟨62, 62, .ro⟩, ⟨61, 30, .rw⟩, ⟨21, 0, .rw⟩]⟩,
  ⟨0x00108000, [(0x100, 64), (8, 8)], 0, [⟨63, 0, .rw⟩]⟩,
  ⟨0x00108040, [(0x100, 64)], 0, [⟨0, 0, .wo⟩]⟩,
  ⟨0x00108080, [(0x100, 64), (8, 8)], 0, [⟨63, 0, .ro⟩]⟩,
  ⟨0x001080C0, [(0x100, 64)], 0, [⟨0, 0, .wo⟩]⟩,
  ⟨0x001080C8, [(0x100, 64)], 0xC00, [⟨63, 48, .ro⟩, ⟨23, 16, .ro⟩, ⟨12, 8, .ro⟩, ⟨4, 0, .ro⟩]⟩,
  ⟨0x001080D0, [(0x100, 64)], 0, [⟨15, 4, .rw⟩, ⟨0, 0, .rw⟩]⟩,
  ⟨0x0010C000, [(0x20, 64)], 0, [⟨56, 12, .rw⟩]⟩,
  ⟨0x0010C008, [(0x20, 64)], 0xA00, [⟨36, 20, .rw⟩, ⟨12, 8, .rw⟩, ⟨0, 0, .rw⟩]⟩,
  ⟨0x0010C010, [(0x20, 64)], 0, [⟨63, 48, .rc⟩, ⟨16, 0, .ro⟩]⟩]

/-- Strike registers and time bases (R457 to R461, R508). -/
def rowsStrike : List RegRow := [
  ⟨0x00200000, [], 0x80404, [⟨23, 16, .rw⟩, ⟨15, 8, .rw⟩, ⟨3, 2, .rw⟩, ⟨1, 1, .rw⟩, ⟨0, 0, .rw⟩]⟩,
  ⟨0x00200008, [], 0, [⟨63, 32, .ro⟩, ⟨31, 16, .ro⟩, ⟨11, 8, .ro⟩, ⟨2, 0, .ro⟩]⟩,
  ⟨0x00200010, [], 0, [⟨31, 0, .rw⟩]⟩,
  ⟨0x00200018, [], 0, [⟨47, 12, .rw⟩, ⟨0, 0, .wo⟩]⟩,
  ⟨0x00200020, [], 0, [⟨63, 12, .ro⟩, ⟨0, 0, .ro⟩]⟩,
  ⟨0x00200028, [], 0, [⟨63, 56, .rw⟩, ⟨31, 0, .rw⟩]⟩,
  ⟨0x00200030, [], 0, [⟨63, 48, .ro⟩, ⟨47, 32, .rc⟩, ⟨31, 16, .rc⟩, ⟨15, 8, .w1c⟩, ⟨7, 0, .rc⟩]⟩,
  ⟨0x00201000, [(0x40, 4)], 0, [⟨63, 0, .ro⟩]⟩,
  ⟨0x00201008, [(0x40, 4)], 0, [⟨47, 0, .ro⟩]⟩,
  ⟨0x00201010, [(0x40, 4)], 0, [⟨63, 0, .wo⟩]⟩,
  ⟨0x00201018, [(0x40, 4)], 0, [⟨31, 0, .rw⟩]⟩,
  ⟨0x00201020, [(0x40, 4)], 0, [⟨63, 0, .ro⟩]⟩,
  ⟨0x00201028, [(0x40, 4)], 0, [⟨47, 0, .ro⟩]⟩,
  ⟨0x00201100, [], 0, [⟨63, 0, .wo⟩]⟩,
  ⟨0x00202000, [(0x20, 16)], 0, [⟨63, 41, .rw⟩, ⟨31, 16, .rc⟩, ⟨15, 0, .rc⟩]⟩,
  ⟨0x00202008, [(0x20, 16)], 0, [⟨63, 0, .rw⟩]⟩,
  ⟨0x00202010, [(0x20, 16)], 0, [⟨47, 0, .rw⟩]⟩,
  ⟨0x00202018, [(0x20, 16)], 0, [⟨47, 0, .rw⟩]⟩,
  ⟨0x00203000, [(0x20, 16)], 0, [⟨63, 45, .rw⟩, ⟨44, 44, .ro⟩, ⟨15, 0, .rc⟩]⟩,
  ⟨0x00203008, [(0x20, 16)], 0, [⟨63, 0, .ro⟩]⟩,
  ⟨0x00203010, [(0x20, 16)], 0, [⟨47, 0, .ro⟩]⟩]

/-- Bellows (R554). -/
def rowsBellows : List RegRow := [
  ⟨0x00300000, [(0x1000, 16)], 0x400000, [⟨39, 16, .rw⟩, ⟨3, 1, .rw⟩]⟩,
  ⟨0x00300008, [(0x1000, 16)], 0, [⟨63, 32, .rc⟩, ⟨31, 0, .rc⟩]⟩,
  ⟨0x00300100, [(0x1000, 16), (0x10, 64)], 0, [⟨63, 0, .rw⟩]⟩,
  ⟨0x00300108, [(0x1000, 16), (0x10, 64)], 0, [⟨31, 0, .rw⟩]⟩,
  ⟨0x00310000, [], 0, [⟨63, 14, .ro⟩, ⟨5, 0, .rw⟩]⟩]

/-- DMA and queues (R387 to R392). -/
def rowsQueues : List RegRow := [
  ⟨0x00400000, [], 0, [⟨2, 2, .ro⟩, ⟨1, 0, .rw⟩]⟩,
  ⟨0x00400008, [], 0, [⟨47, 26, .rw⟩]⟩,
  ⟨0x00400010, [], 0, [⟨51, 32, .wo⟩, ⟨16, 0, .wo⟩]⟩,
  ⟨0x00400018, [], 0, [⟨63, 60, .wo⟩, ⟨51, 32, .wo⟩]⟩,
  ⟨0x00400020, [], 0, [⟨63, 44, .ro⟩, ⟨40, 24, .ro⟩, ⟨16, 0, .ro⟩]⟩,
  ⟨0x00400028, [], 0, [⟨63, 32, .ro⟩, ⟨31, 0, .rc⟩]⟩,
  ⟨0x00400100, [(8, 8)], 0, [⟨63, 0, .rw⟩]⟩,
  ⟨0x00401000, [(0x100, 16)], 0, [⟨1, 1, .wo⟩, ⟨0, 0, .rw⟩]⟩,
  ⟨0x00401008, [(0x100, 16)], 0, [⟨63, 49, .ro⟩, ⟨3, 0, .ro⟩]⟩,
  ⟨0x00401010, [(0x100, 16)], 0, [⟨63, 28, .ro⟩, ⟨27, 0, .rc⟩]⟩]

/-- Memory controllers and Swage units (R304 to R310, R333 to R337). -/
def rowsMemory : List RegRow := [
  ⟨0x00800000, [(0x10000, 32)], 0xB000, [⟨15, 12, .rw⟩, ⟨8, 8, .w1s⟩, ⟨0, 0, .wo⟩]⟩,
  ⟨0x00800008, [(0x10000, 32)], 0xC00000000, [⟨47, 34, .ro⟩, ⟨31, 24, .ro⟩, ⟨7, 2, .ro⟩]⟩,
  ⟨0x00800010, [(0x10000, 32)], 0, [⟨63, 48, .rc⟩, ⟨47, 32, .rc⟩, ⟨31, 16, .rc⟩, ⟨15, 0, .rc⟩]⟩,
  ⟨0x00800018, [(0x10000, 32)], 0, [⟨63, 48, .ro⟩, ⟨42, 0, .ro⟩]⟩,
  ⟨0x00808000, [], 0x200000000, [⟨47, 40, .rw⟩, ⟨33, 32, .rw⟩, ⟨25, 24, .rw⟩, ⟨0, 0, .rw⟩]⟩,
  ⟨0x00808008, [], 0, [⟨47, 32, .rw⟩, ⟨0, 0, .w1s⟩]⟩,
  ⟨0x00A00000, [(0x1000, 32)], 0, [⟨1, 1, .w1s⟩, ⟨0, 0, .rw⟩]⟩,
  ⟨0x00A00008, [(0x1000, 32)], 0, [⟨63, 48, .rc⟩, ⟨31, 21, .ro⟩, ⟨7, 6, .w1c⟩, ⟨3, 0, .ro⟩]⟩,
  ⟨0x00A00010, [(0x1000, 32)], 0, [⟨63, 48, .ro⟩, ⟨47, 32, .rc⟩, ⟨31, 0, .rc⟩]⟩,
  ⟨0x00A00018, [(0x1000, 32)], 0, [⟨63, 32, .rc⟩, ⟨31, 0, .rc⟩]⟩,
  ⟨0x00A20000, [(8, 16)], 0, [⟨4, 0, .rw⟩]⟩]

/-- Fabric (R596, R597). -/
def rowsFabric : List RegRow := [
  ⟨0x00C00000, [], 0xFFFF01F403E80002, [⟨63, 16, .rw⟩, ⟨15, 4, .rw⟩, ⟨2, 2, .wo⟩, ⟨1, 0, .rw⟩]⟩,
  ⟨0x00C00008, [], 0x800, [⟨63, 8, .ro⟩]⟩,
  ⟨0x00C00010, [], 0x0706050403020100, [⟨60, 56, .rw⟩, ⟨52, 48, .rw⟩, ⟨44, 40, .rw⟩, ⟨36, 32, .rw⟩, ⟨28, 24, .rw⟩, ⟨20, 16, .rw⟩, ⟨12, 8, .rw⟩, ⟨4, 0, .rw⟩]⟩,
  ⟨0x00C00018, [], 0x0F0E0D0C0B0A0908, [⟨60, 56, .rw⟩, ⟨52, 48, .rw⟩, ⟨44, 40, .rw⟩, ⟨36, 32, .rw⟩, ⟨28, 24, .rw⟩, ⟨20, 16, .rw⟩, ⟨12, 8, .rw⟩, ⟨4, 0, .rw⟩]⟩,
  ⟨0x00C00020, [], 0x1716151413121110, [⟨60, 56, .rw⟩, ⟨52, 48, .rw⟩, ⟨44, 40, .rw⟩, ⟨36, 32, .rw⟩, ⟨28, 24, .rw⟩, ⟨20, 16, .rw⟩, ⟨12, 8, .rw⟩, ⟨4, 0, .rw⟩]⟩,
  ⟨0x00C00028, [], 0x1F1E1D1C1B1A1918, [⟨60, 56, .rw⟩, ⟨52, 48, .rw⟩, ⟨44, 40, .rw⟩, ⟨36, 32, .rw⟩, ⟨28, 24, .rw⟩, ⟨20, 16, .rw⟩, ⟨12, 8, .rw⟩, ⟨4, 0, .rw⟩]⟩,
  ⟨0x00C00030, [], 0, [⟨47, 32, .rw⟩, ⟨11, 8, .rw⟩, ⟨0, 0, .rw⟩]⟩,
  ⟨0x00C00038, [], 0, [⟨63, 32, .rc⟩, ⟨31, 16, .rc⟩, ⟨15, 0, .rc⟩]⟩,
  ⟨0x00C01000, [(0x40, 16)], 0, [⟨63, 16, .rw⟩, ⟨4, 4, .w1c⟩, ⟨3, 3, .w1s⟩, ⟨2, 2, .wo⟩]⟩,
  ⟨0x00C01008, [(0x40, 16)], 0, [⟨47, 0, .rw⟩]⟩,
  ⟨0x00C01010, [(0x40, 16)], 0, [⟨63, 36, .ro⟩, ⟨3, 0, .ro⟩]⟩,
  ⟨0x00C01018, [(0x40, 16)], 0, [⟨63, 16, .ro⟩, ⟨11, 0, .ro⟩]⟩,
  ⟨0x00C10000, [(0x800, 32)], 2, [⟨2, 2, .wo⟩, ⟨1, 0, .rw⟩]⟩,
  ⟨0x00C10008, [(0x800, 32)], 0x80000000, [⟨63, 44, .ro⟩, ⟨40, 16, .ro⟩]⟩,
  ⟨0x00C10010, [(0x800, 32)], 0, [⟨63, 48, .rc⟩, ⟨47, 32, .rc⟩, ⟨15, 0, .rc⟩]⟩,
  ⟨0x00C10100, [(0x800, 32), (0x10, 16)], 0x8000000000000000, [⟨63, 63, .rw⟩, ⟨39, 0, .rw⟩]⟩,
  ⟨0x00C10108, [(0x800, 32), (0x10, 16)], 0x8014004000004000, [⟨63, 63, .rw⟩, ⟨53, 0, .rw⟩]⟩,
  ⟨0x00C10200, [(0x800, 32), (8, 16)], 0, [⟨63, 48, .rc⟩, ⟨47, 32, .rc⟩, ⟨31, 0, .ro⟩]⟩,
  ⟨0x00C20000, [(0x10, 4096)], 0, [⟨63, 55, .rw⟩, ⟨47, 0, .rw⟩]⟩,
  ⟨0x00C20008, [(0x10, 4096)], 0, [⟨63, 0, .rw⟩]⟩]

/-- Fronthaul and PTP (R507, R509). -/
def rowsFronthaul : List RegRow := [
  ⟨0x00E00000, [(0x10000, 8)], 0x0002580044000000, [⟨49, 10, .rw⟩, ⟨0, 0, .rw⟩]⟩,
  ⟨0x00E00008, [(0x10000, 8)], 0, [⟨63, 48, .ro⟩, ⟨3, 0, .ro⟩]⟩,
  ⟨0x00E00010, [(0x10000, 8)], 0, [⟨63, 48, .rc⟩, ⟨47, 32, .rc⟩, ⟨31, 0, .rc⟩]⟩,
  ⟨0x00E00018, [(0x10000, 8)], 0, [⟨63, 0, .rw⟩]⟩,
  ⟨0x00E00020, [(0x10000, 8)], 0x0030006100000000, [⟨63, 32, .ro⟩, ⟨31, 0, .rw⟩]⟩,
  ⟨0x00E00028, [(0x10000, 8)], 0, [⟨47, 0, .rw⟩]⟩,
  ⟨0x00E00100, [(0x10000, 8), (0x10, 16)], 0x8000000000000000, [⟨63, 63, .rw⟩, ⟨39, 0, .rw⟩]⟩,
  ⟨0x00E00108, [(0x10000, 8), (0x10, 16)], 0x8014004000004000, [⟨63, 63, .rw⟩, ⟨53, 0, .rw⟩]⟩,
  ⟨0x00E00200, [(0x10000, 8), (8, 16)], 0, [⟨63, 48, .rc⟩, ⟨47, 32, .rc⟩, ⟨31, 0, .ro⟩]⟩,
  ⟨0x00E00300, [(0x10000, 8)], 0x8000000000000000, [⟨63, 63, .rw⟩, ⟨39, 0, .rw⟩]⟩,
  ⟨0x00E00308, [(0x10000, 8)], 0x8014004000004000, [⟨63, 63, .rw⟩, ⟨53, 0, .rw⟩]⟩,
  ⟨0x00E00400, [(0x10000, 8), (8, 32)], 0, [⟨63, 0, .rw⟩]⟩,
  ⟨0x00E00500, [(0x10000, 8), (0x10, 16)], 0x0400000000000000, [⟨63, 48, .rw⟩, ⟨43, 0, .rw⟩]⟩,
  ⟨0x00E01000, [(0x10000, 8), (0x10, 256)], 0, [⟨63, 49, .rw⟩, ⟨47, 32, .rw⟩, ⟨21, 0, .rw⟩]⟩,
  ⟨0x00E01008, [(0x10000, 8), (0x10, 256)], 0, [⟨51, 0, .rw⟩]⟩,
  ⟨0x00E80000, [], 0x3840003C18800000, [⟨63, 8, .rw⟩, ⟨0, 0, .rw⟩]⟩,
  ⟨0x00E80008, [], 0xF000, [⟨63, 8, .ro⟩, ⟨3, 0, .ro⟩]⟩,
  ⟨0x00E80010, [], 0, [⟨4, 2, .rw⟩, ⟨0, 0, .rw⟩]⟩]

/-- Coding halves (R462). -/
def rowsCoding : List RegRow := [
  ⟨0x01000000, [(0x1000, 2)], 0, [⟨0, 0, .rw⟩]⟩,
  ⟨0x01000008, [(0x1000, 2)], 0, [⟨63, 32, .rc⟩, ⟨31, 8, .ro⟩, ⟨3, 0, .ro⟩]⟩,
  ⟨0x01000100, [(0x1000, 2), (0x10, 8)], 0x0100000000000000, [⟨57, 54, .rw⟩, ⟨47, 40, .rw⟩, ⟨21, 0, .rw⟩]⟩,
  ⟨0x01000108, [(0x1000, 2), (0x10, 8)], 0, [⟨47, 0, .rw⟩]⟩]

/-- RAS, health and power (R117, R118, R645, R657, R714). -/
def rowsRas : List RegRow := [
  ⟨0x01100000, [], 0x00FF000000000000, [⟨63, 63, .ro⟩, ⟨59, 48, .ro⟩, ⟨31, 0, .rc⟩]⟩,
  ⟨0x01100008, [], 0, [⟨15, 4, .rw⟩, ⟨0, 0, .rw⟩]⟩,
  ⟨0x01100010, [], 0xFA08000000000000, [⟨63, 47, .ro⟩, ⟨39, 8, .ro⟩, ⟨1, 0, .ro⟩]⟩,
  ⟨0x01100018, [], 0, [⟨63, 0, .ro⟩]⟩,
  ⟨0x01100020, [], 0x64, [⟨15, 0, .rw⟩]⟩,
  ⟨0x01100028, [], 0, [⟨63, 32, .rc⟩, ⟨31, 0, .rc⟩]⟩,
  ⟨0x01100030, [], 0, [⟨63, 32, .rc⟩, ⟨31, 0, .rc⟩]⟩,
  ⟨0x01100038, [], 0, [⟨63, 32, .rc⟩, ⟨31, 0, .rc⟩]⟩,
  ⟨0x01100040, [], 0x1801, [⟨15, 8, .rw⟩, ⟨3, 0, .rw⟩]⟩,
  ⟨0x01100100, [], 0x0000FF0000000000, [⟨63, 32, .ro⟩, ⟨31, 0, .rc⟩]⟩,
  ⟨0x01100108, [], 0, [⟨63, 32, .rc⟩, ⟨31, 0, .rc⟩]⟩,
  ⟨0x01200000, [], 0x1FFFFFFFFFFFF, [⟨49, 0, .rw⟩]⟩,
  ⟨0x01200008, [], 0x4B0, [⟨42, 32, .ro⟩, ⟨10, 0, .rw⟩]⟩,
  ⟨0x01200010, [], 0, [⟨63, 46, .ro⟩, ⟨31, 16, .rc⟩, ⟨15, 0, .rc⟩]⟩,
  ⟨0x01200018, [], 0, [⟨63, 0, .ro⟩]⟩,
  ⟨0x01200020, [], 0x06400550, [⟨31, 0, .ro⟩]⟩,
  ⟨0x01200040, [(8, 16)], 0, [⟨2, 0, .rw⟩]⟩,
  ⟨0x01200100, [], 0, [⟨63, 48, .ro⟩, ⟨47, 32, .rc⟩, ⟨7, 4, .ro⟩, ⟨1, 0, .ro⟩]⟩]

/-- Trace and counters (R685); the counters themselves stand in Chip.ctrLive and Chip.ctrClosed. -/
def rowsTrace : List RegRow := [
  ⟨0x01300000, [(0x2000, 17), (8, 256)], 0, [⟨63, 0, .ro⟩]⟩,
  ⟨0x01300800, [(0x2000, 17), (8, 256)], 0, [⟨63, 0, .ro⟩]⟩,
  ⟨0x01301000, [(0x2000, 17)], 0, [⟨63, 32, .ro⟩, ⟨31, 16, .rc⟩, ⟨11, 8, .ro⟩, ⟨2, 1, .ro⟩, ⟨0, 0, .rc⟩]⟩,
  ⟨0x01301008, [(0x2000, 17)], 0, [⟨63, 0, .ro⟩]⟩,
  ⟨0x01301010, [(0x2000, 17)], 0x10000, [⟨31, 16, .rw⟩, ⟨0, 0, .rw⟩]⟩,
  ⟨0x01330000, [], 0, [⟨63, 60, .wo⟩, ⟨16, 0, .wo⟩]⟩,
  ⟨0x01340000, [], 0x40000, [⟨20, 4, .rw⟩, ⟨0, 0, .rw⟩]⟩,
  ⟨0x01340008, [], 0, [⟨63, 60, .wo⟩, ⟨9, 0, .wo⟩]⟩,
  ⟨0x01340010, [], 0, [⟨63, 32, .rc⟩, ⟨31, 16, .rc⟩, ⟨10, 0, .ro⟩]⟩,
  ⟨0x01340018, [], 0, [⟨63, 0, .rw⟩]⟩,
  ⟨0x01340020, [], 0, [⟨36, 20, .rw⟩, ⟨16, 0, .ro⟩]⟩,
  ⟨0x01340100, [(8, 8)], 0, [⟨63, 0, .rw⟩]⟩,
  ⟨0x01350000, [], 0x0000C00030000000, [⟨63, 24, .rw⟩, ⟨2, 0, .rw⟩]⟩,
  ⟨0x01350008, [], 0, [⟨63, 48, .rw⟩, ⟨31, 0, .rw⟩]⟩,
  ⟨0x01350010, [], 0, [⟨63, 60, .wo⟩]⟩,
  ⟨0x01350018, [], 0, [⟨63, 32, .rc⟩, ⟨31, 15, .ro⟩, ⟨3, 0, .ro⟩]⟩,
  ⟨0x01350020, [], 0, [⟨63, 0, .rw⟩]⟩,
  ⟨0x01350028, [], 0, [⟨63, 0, .wo⟩]⟩,
  ⟨0x01360000, [], 0, [⟨0, 0, .wo⟩]⟩,
  ⟨0x01360008, [], 0, [⟨63, 0, .rw⟩]⟩,
  ⟨0x01360010, [], 0, [⟨63, 32, .ro⟩, ⟨31, 16, .rc⟩, ⟨0, 0, .ro⟩]⟩]

/-- Security and DOE (R611, R630): fuse fields are the model's (DESIGN CHOICE, log 2). -/
def rowsSecurity : List RegRow := [
  ⟨0x01400000, [], 0, [⟨11, 10, .rw⟩, ⟨9, 8, .wo⟩, ⟨0, 0, .wo⟩]⟩,
  ⟨0x01400008, [], 0, [⟨63, 0, .rw⟩]⟩,
  ⟨0x01400010, [], 0, [⟨31, 0, .rw⟩]⟩,
  ⟨0x01400018, [], 0, [⟨63, 36, .ro⟩, ⟨31, 24, .ro⟩, ⟨21, 16, .ro⟩, ⟨3, 0, .ro⟩]⟩,
  ⟨0x01400100, [(0x20, 8), (8, 4)], 0, [⟨63, 0, .ro⟩]⟩,
  ⟨0x01400200, [], 0, [⟨63, 63, .ro⟩, ⟨47, 21, .rw⟩, ⟨1, 1, .rw⟩, ⟨0, 0, .wo⟩]⟩]

/-- Tile windows (R167 to R171, R188). -/
def rowsTile : List RegRow := [
  ⟨0x02000000, [(0x10000, 144)], 0xA, [⟨47, 44, .ro⟩, ⟨39, 32, .rw⟩, ⟨4, 4, .w1s⟩, ⟨3, 3, .rw⟩, ⟨2, 2, .wo⟩, ⟨1, 1, .rw⟩, ⟨0, 0, .wo⟩]⟩,
  ⟨0x02000008, [(0x10000, 144)], 0, [⟨63, 32, .ro⟩, ⟨23, 16, .rc⟩, ⟨15, 8, .rc⟩, ⟨3, 3, .rc⟩, ⟨2, 0, .ro⟩]⟩,
  ⟨0x02000010, [(0x10000, 144)], 0x7D00, [⟨63, 32, .rc⟩, ⟨15, 8, .rw⟩, ⟨0, 0, .rw⟩]⟩,
  ⟨0x02000018, [(0x10000, 144)], 0, [⟨63, 48, .rc⟩, ⟨47, 32, .rc⟩, ⟨31, 16, .ro⟩, ⟨15, 0, .rc⟩]⟩,
  ⟨0x02000020, [(0x10000, 144)], 0, [⟨21, 3, .rw⟩]⟩,
  ⟨0x02000028, [(0x10000, 144)], 0, [⟨63, 0, .rw⟩]⟩,
  ⟨0x02000100, [(0x10000, 144), (8, 8)], 0, [⟨63, 40, .ro⟩, ⟨37, 24, .ro⟩, ⟨17, 0, .ro⟩]⟩]

/-- The rows of the block that an address lies in (R28). -/
def rowsAt (a : Nat) : List RegRow :=
  if a < 0x00100000 then rowsIdentity
  else if a < 0x00200000 then rowsHearth
  else if a < 0x00300000 then rowsStrike
  else if a < 0x00400000 then rowsBellows
  else if a < 0x00800000 then rowsQueues
  else if a < 0x00C00000 then rowsMemory
  else if a < 0x00E00000 then rowsFabric
  else if a < 0x01000000 then rowsFronthaul
  else if a < 0x01100000 then rowsCoding
  else if a < 0x01300000 then rowsRas
  else if a < 0x01400000 then rowsTrace
  else if a < 0x02000000 then rowsSecurity
  else rowsTile

/-- The register at an address, if any. -/
def regRow (a : Nat) : Option RegRow := (rowsAt a).find? (rowHit a)

/-- The address space that one function's BAR0 spans (R28, R540). -/
def barSpan : Nat := 0x4000000

/-- The key of a register in the register file: function number and offset. -/
def barKey (fn a : Nat) : Nat := fn * barSpan + a

/-- The reset value of the register at a key. -/
def regReset (k : Nat) : Word :=
  match regRow (k % barSpan) with
  | some r => BitVec.ofNat 64 r.reset
  | none => 0#64

/-- The bits of a register's fields of one access type. -/
def accMask (r : RegRow) (a : Acc) : Nat :=
  r.fields.foldl (fun m f => if f.acc = a then m + (2 ^ (f.hi + 1 - f.lo) - 1) * 2 ^ f.lo else m) 0

/-- A number with bits hi to lo replaced by a value, cut to the field. -/
def setBits (x hi lo v : Nat) : Nat :=
  x - bitsOf x hi lo * 2 ^ lo + (v % 2 ^ (hi + 1 - lo)) * 2 ^ lo

-- Addresses by name.
def aMESH_STATUS : Nat := 0x00100040
def aPART_CMD : Nat := 0x00100100
def aPART_ARG0 : Nat := 0x00100108
def aPART_ARG1 : Nat := 0x00100110
def aPART_CMD_STATUS : Nat := 0x00100118
def aANVIL_ELASTIC : Nat := 0x00100120
def aFUNC_PART (f : Nat) : Nat := 0x00100200 + 8 * f
def aPART_CTL (p : Nat) : Nat := 0x00101000 + 0x40 * p
def aPART_STATUS (p : Nat) : Nat := 0x00101008 + 0x40 * p
def aPART_GROUPS (p : Nat) : Nat := 0x00101010 + 0x40 * p
def aPART_MOVING (p : Nat) : Nat := 0x00101018 + 0x40 * p
def aPART_DMAP (p : Nat) : Nat := 0x00101020 + 0x40 * p
def aGRANT (g : Nat) : Nat := 0x00102000 + 8 * g
def aDLOG_BASE (f : Nat) : Nat := 0x0010C000 + 0x20 * f
def aDLOG_CTL (f : Nat) : Nat := 0x0010C008 + 0x20 * f
def aDLOG_STATUS (f : Nat) : Nat := 0x0010C010 + 0x20 * f
def aSTRIKE_CTL : Nat := 0x00200000
def aSTRIKE_STATUS : Nat := 0x00200008
def aSTRIKE_ALIGN : Nat := 0x00200010
def aPLAN_BASE : Nat := 0x00200018
def aPLAN_STATUS : Nat := 0x00200020
def aTIER_REQ : Nat := 0x00200028
def aRADIO_ERR : Nat := 0x00200030
def aTB (b off : Nat) : Nat := 0x00201000 + 0x40 * b + off
def aTB_SNAPCMD : Nat := 0x00201100
def aTT_CTL (i : Nat) : Nat := 0x00202000 + 0x20 * i
def aTC_CTL (j : Nat) : Nat := 0x00203000 + 0x20 * j
def aBW_CTL (p : Nat) : Nat := 0x00300000 + 0x1000 * p
def aBW_STATUS (p : Nat) : Nat := 0x00300008 + 0x1000 * p
def aBW_SLOT_A (p i : Nat) : Nat := 0x00300100 + 0x1000 * p + 0x10 * i
def aBW_SLOT_B (p i : Nat) : Nat := 0x00300108 + 0x1000 * p + 0x10 * i
def aBW_GLOBAL : Nat := 0x00310000
def aQM_CTL : Nat := 0x00400000
def aQM_TABLE : Nat := 0x00400008
def aQM_DOORBELL : Nat := 0x00400010
def aQM_CMD : Nat := 0x00400018
def aQM_QSTATUS : Nat := 0x00400020
def aQM_CACHE : Nat := 0x00400028
def aQM_STAGE (i : Nat) : Nat := 0x00400100 + 8 * i
def aDMA_ENG_CTL (e : Nat) : Nat := 0x00401000 + 0x100 * e
def aDMA_ENG_STATUS (e : Nat) : Nat := 0x00401008 + 0x100 * e
def aDMA_ENG_ERR (e : Nat) : Nat := 0x00401010 + 0x100 * e
def aMEM_CTL (c : Nat) : Nat := 0x00800000 + 0x10000 * c
def aMEM_STATUS (c : Nat) : Nat := 0x00800008 + 0x10000 * c
def aMEM_ECC (c : Nat) : Nat := 0x00800010 + 0x10000 * c
def aMEM_ERRLOG (c : Nat) : Nat := 0x00800018 + 0x10000 * c
def aMEM_MAP : Nat := 0x00808000
def aMEM_HDM : Nat := 0x00808008
def aSWAGE_CTL (u : Nat) : Nat := 0x00A00000 + 0x1000 * u
def aSWAGE_STATUS (u : Nat) : Nat := 0x00A00008 + 0x1000 * u
def aSWAGE_ERR (u : Nat) : Nat := 0x00A00010 + 0x1000 * u
def aSWAGE_WORK (u : Nat) : Nat := 0x00A00018 + 0x1000 * u
def aSWAGE_PART (p : Nat) : Nat := 0x00A20000 + 8 * p
def aFAB_CTL : Nat := 0x00C00000
def aFAB_STATUS : Nat := 0x00C00008
def aFAB_LINKMAP (i : Nat) : Nat := 0x00C00010 + 8 * i
def aFAB_TIME : Nat := 0x00C00030
def aFAB_ERR : Nat := 0x00C00038
def aFJ_CTL (p : Nat) : Nat := 0x00C01000 + 0x40 * p
def aFJ_IMAGE (p : Nat) : Nat := 0x00C01008 + 0x40 * p
def aFJ_STATUS (p : Nat) : Nat := 0x00C01010 + 0x40 * p
def aFJ_VREC (p : Nat) : Nat := 0x00C01018 + 0x40 * p
def aFL_CTL (l : Nat) : Nat := 0x00C10000 + 0x800 * l
def aFL_STATUS (l : Nat) : Nat := 0x00C10008 + 0x800 * l
def aFL_ERR (l : Nat) : Nat := 0x00C10010 + 0x800 * l
def aFL_SHAPE_A (l q : Nat) : Nat := 0x00C10100 + 0x800 * l + 0x10 * q
def aFL_SHAPE_B (l q : Nat) : Nat := 0x00C10108 + 0x800 * l + 0x10 * q
def aFL_QSAMP (l q : Nat) : Nat := 0x00C10200 + 0x800 * l + 8 * q
def aFW_A (w : Nat) : Nat := 0x00C20000 + 0x10 * w
def aFW_B (w : Nat) : Nat := 0x00C20008 + 0x10 * w
def aFH (p off : Nat) : Nat := 0x00E00000 + 0x10000 * p + off
def aPTP_CTL : Nat := 0x00E80000
def aPTP_STATUS : Nat := 0x00E80008
def aSYNCE_CTL : Nat := 0x00E80010
def aCODE_CTL (h : Nat) : Nat := 0x01000000 + 0x1000 * h
def aCODE_STATUS (h : Nat) : Nat := 0x01000008 + 0x1000 * h
def aCODE_RING_A (h i : Nat) : Nat := 0x01000100 + 0x1000 * h + 0x10 * i
def aCODE_RING_B (h i : Nat) : Nat := 0x01000108 + 0x1000 * h + 0x10 * i
def aRAS_STATUS : Nat := 0x01100000
def aRAS_CTL : Nat := 0x01100008
def aHEALTH : Nat := 0x01100010
def aHEALTH_CE : Nat := 0x01100018
def aHEALTH_CFG : Nat := 0x01100020
def aRAS_PARITY : Nat := 0x01100028
def aRAS_POISON : Nat := 0x01100030
def aRAS_LINKMARK : Nat := 0x01100038
def aTEMPER_CTL : Nat := 0x01100040
def aARITH_FAULT_LOG : Nat := 0x01100100
def aARITH_EVENTS : Nat := 0x01100108
def aPWR_DOMAIN : Nat := 0x01200000
def aPWR_LIMIT : Nat := 0x01200008
def aPWR_STATUS : Nat := 0x01200010
def aTHERM_TEMP : Nat := 0x01200018
def aTHERM_CFG : Nat := 0x01200020
def aPWR_PRIO (p : Nat) : Nat := 0x01200040 + 8 * p
def aPKG_PINS : Nat := 0x01200100
def aCTR_STATUS (p : Nat) : Nat := 0x01301000 + 0x2000 * p
def aCTR_CLOSE_TIME (p : Nat) : Nat := 0x01301008 + 0x2000 * p
def aCTR_AUTO (p : Nat) : Nat := 0x01301010 + 0x2000 * p
def aCTR_CMD : Nat := 0x01330000
def aTW_CTL : Nat := 0x01340000
def aTW_CMD : Nat := 0x01340008
def aTW_STATUS : Nat := 0x01340010
def aTW_RING : Nat := 0x01340018
def aTW_HEAD : Nat := 0x01340020
def aTW_STAGE (i : Nat) : Nat := 0x01340100 + 8 * i
def aTR_CTL : Nat := 0x01350000
def aTR_TRIG : Nat := 0x01350008
def aTR_CMD : Nat := 0x01350010
def aTR_STATUS : Nat := 0x01350018
def aTR_DRAIN : Nat := 0x01350020
def aTR_MARK : Nat := 0x01350028
def aSNAP_CTL : Nat := 0x01360000
def aSNAP_ADDR : Nat := 0x01360008
def aSNAP_STATUS : Nat := 0x01360010
def aSEC_BOOT_CTL : Nat := 0x01400000
def aSEC_FW_ADDR : Nat := 0x01400008
def aSEC_FW_LEN : Nat := 0x01400010
def aSEC_STATUS : Nat := 0x01400018
def aMEASURE (i j : Nat) : Nat := 0x01400100 + 0x20 * i + 8 * j
def aHOST_BIAS : Nat := 0x01400200
def aTILE_CTL (t : Nat) : Nat := 0x02000000 + 0x10000 * t
def aTILE_STATUS (t : Nat) : Nat := 0x02000008 + 0x10000 * t
def aTILE_GOV (t : Nat) : Nat := 0x02000010 + 0x10000 * t
def aTILE_ECC (t : Nat) : Nat := 0x02000018 + 0x10000 * t
def aTILE_SRAM_ADDR (t : Nat) : Nat := 0x02000020 + 0x10000 * t
def aTILE_SRAM_DATA (t : Nat) : Nat := 0x02000028 + 0x10000 * t
def aSTRAND_STATUS (t i : Nat) : Nat := 0x02000100 + 0x10000 * t + 8 * i
/-- The base of a Hasp window: the manager's side of instance f, or the tenant's side in f's own BAR0 (R547). -/
def aHASP (tenant : Bool) (f : Nat) : Nat :=
  if tenant then barKey f 0x00108000 else 0x00108000 + 0x100 * f

end Sys2Proof.Machine
end

