-- ==== Sys2Proof/Machine/RunTypes.lean ====
section
/-! DEFINITION. The state of the mesh links, of boot, trust and host attachment, and of RAS, Temper, power and
pins (chapters 01, 13, 14 and 16). -/

namespace Sys2Proof.Machine

/-- Mesh links (R42 to R51), numbered as R460 numbers them: 4 × tile + output, edge port x 0x400 + x. -/
structure MeshS where
  /-- consecutive failed sends of the flit at the head of each link -/
  fails : Tab Nat := []
  /-- links marked failing -/
  marked : Tab Bool := []
  /-- marked Knuckle rows and edge ports that the next Strike boundary answers (R45, R51) -/
  due : List Nat := []
  /-- the edge port that each column uses (R51) -/
  port : Tab Nat := []
  /-- rows whose Knuckle link failed at test, as fused (R43) -/
  rowsFailed : Nat := 0
  deriving DecidableEq, Repr

/-- An image load (R608): under way, or read and to be verified. -/
structure Load where
  addr : Nat
  len : Nat
  deriving DecidableEq, Repr

/-- Boot, trust, attestation, IDE, management endpoint and pins beside their registers. -/
structure Boot where
  /-- PWRGOOD and PERST# as they stand; the model's reset is a package with power good and PERST# released (DESIGN CHOICE, log 7) -/
  pwrgood : Bool := true
  perst : Bool := false
  load : Option Load := none
  /-- SVN and key slot of the running Hearth image; `none` before one passes (R609, R612) -/
  hearth : Option (Nat × Nat) := none
  /-- entries of the boot parameter block, for hard repairs in training (R610) -/
  hppr : List Nat := []
  /-- requests that arrived in stage 0x0, with whether they came over MCTP (R616) -/
  early : List (Bool × List Byte) := []
  /-- messages of the open session, and its key once it is finished (R614) -/
  session : Option (List Byte) := none
  sessionKey : Option (List Byte) := none
  /-- IDE keys programmed, in use, and streams in the insecure state: 4 × stream + 2 × direction + set (R614, R620) -/
  ideKeys : Tab (List Byte) := []
  ideGo : Tab Bool := []
  insecure : Tab Bool := []
  /-- the last answer of the attestation mailbox and of the management endpoint -/
  doeAnswer : List Byte := []
  mctpAnswer : List Byte := []
  dynAddr : Option Nat := none
  eid : Option Nat := none
  /-- the CXL link as it trained: lanes and GT/s (R621) -/
  lanes : Nat := 0
  rate : Nat := 0
  /-- errors signalled through PCIe AER (R601, R637) -/
  aer : Nat := 0
  /-- fabric and host writes have stopped (R658) -/
  undervolt : Bool := false
  /-- the regulators are off (R697) -/
  off : Bool := false
  /-- TAP land control is in force (R703) -/
  lands : Bool := false
  deriving DecidableEq, Repr

/-- A throttle step (R654): the tiles lowered with the caps they had, or a halving of tenant budgets; the average when
it was taken, and the power it saved once the average after it is known (R655). -/
structure Step where
  caps : List (Nat × Nat)
  halve : Bool
  before : Nat
  saved : Option Nat
  deriving DecidableEq, Repr

/-- A tile group under test (R646): who lost it (partition, 16 none), the logical indices it had, and whether the
spare move took it. -/
structure Test where
  group : Nat
  part : Nat
  away : List (Nat × Nat)
  /-- its test has passed: it returns at the next boundary (R527) -/
  back : Bool := false
  deriving DecidableEq, Repr

/-- RAS, Temper, power and pins beside their registers. -/
structure Ras where
  /-- corrected events since the last recompute; counts of the seconds before, newest first (R639) -/
  ceNow : Nat := 0
  ce : List Nat := []
  /-- seconds since stage 0x6 was reached (R641) -/
  served : Nat := 0
  /-- package power of the last samples, newest first (R653) -/
  samples : List Nat := []
  /-- throttle steps taken, last first (R654, R655) -/
  steps : List Step := []
  /-- samples since the last power step and since the last thermal step, up to 100; samples in a row with the average
  under the last step's release threshold, and over the limit with no step left (R654 to R656) -/
  calm : Nat := 100
  heat : Nat := 100
  below : Nat := 0
  above : Nat := 0
  tripped : Bool := false
  /-- PWR_DOMAIN as written last (R651); domains that power up; domains whose regulator failed (R650, R652) -/
  wrote : Nat := 0x1FFFFFFFFFFFF
  rising : Nat := 0
  dead : Nat := 0
  tests : List Test := []
  /-- groups whose request for a test waits (R646) -/
  wanted : List Nat := []
  /-- tiles that failed a test since reset (R648) -/
  failed : Tab Bool := []
  /-- PWRBRAKE# as it stands (R701) -/
  brake : Bool := false
  deriving DecidableEq, Repr

end Sys2Proof.Machine
end

