-- ==== Sys2Proof/Machine/State.lean ====
section
/-! DEFINITION. The state of the block, the reasons a step can stop, and the state after reset. -/

namespace Sys2Proof.Machine

/-- Reasons a step stops. -/
inductive Fault where
  /-- The command names a unit that the part does not have (a tile of 144 or more, a strand of 8 or more, and
  so on). Raised by every meaning through `onTile`, `onStrand` and their like. Safe: the model stops. -/
  | noSuchUnit (unit : String)
  deriving DecidableEq, Repr

/-- Reasons a command has no meaning. -/
inductive Refusal where
  /-- The command's meaning is not written yet. Raised by Dispatch alone. Safe: the model stops. -/
  | notModelled (mnemonic : String)
  deriving DecidableEq, Repr

/-- The HX720, all but the queue of commands that wait. -/
structure Chip where
  /-- the counter that free values are drawn by (the model's own) -/
  freeCtr : Nat := 0
  /-- the register file of BAR0, by barKey -/
  bar : Tab Word := []
  /-- read latch and write hold of each function and register (R23) -/
  latch : Tab (Option Nat) := []
  hold : Tab (Option Nat) := []
  /-- what the last read of BAR0 returned -/
  resp : Word := 0#64
  /-- live and closing counters, by set × 256 + index (R664) -/
  ctrLive : Tab Nat := []
  ctrClosed : Tab Nat := []
  /-- tile cycles since reset (R182) -/
  cycle : Nat := 0
  tiles : Tab Tile := []
  strands : Tab Strand := []
  flights : List Flight := []
  /-- tap pieces on their way to the collector -/
  taps : List TapPiece := []
  nextId : Nat := 0
  parts : Tab Part := []
  hasp : Tab Hasp := []
  /-- save images written so far (R544) -/
  images : List Image := []
  mem : MemS := {}
  fab : Fab := {}
  qm : QM := {}
  radio : Radio := {}
  /-- coding rings: 8 × half + ring -/
  code : Tab CodeRing := []
  time : TimeS := {}
  ports : Tab FhPort := []
  mesh : MeshS := {}
  boot : Boot := {}
  ras : Ras := {}
  obs : Obs := {}
  /-- interrupts raised: function and vector, in order (R376) -/
  irqs : List (Nat × Nat) := []
  /-- in-band interrupts raised to the board controller (R628) -/
  ibis : List Nat := []
  deriving DecidableEq, Repr

/-- The block: the commands that wait, first in first out (the model's own, DESIGN CHOICE, log 1), and the HX720. -/
structure State where
  pending : List Instr := []
  chip : Chip := {}
  deriving DecidableEq, Repr

/-- The block right after reset: no command waits, and every register holds its reset value. -/
def State.reset : State := {}

end Sys2Proof.Machine
end

