-- ==== Sys2Proof/Machine/Ops.lean ====
section
/-! DEFINITION. The named operations over registers, counters, banks, strands and messages. -/

namespace Sys2Proof.Machine

-- Registers ------------------------------------------------------------------------------------------------

/-- The register at a key (barKey), as a number. -/
def barGet (s : Chip) (k : Nat) : Nat := (tget regReset s.bar k).toNat

/-- A register replaced. -/
def barSet (s : Chip) (k v : Nat) : Chip :=
  { s with bar := tset regReset k (BitVec.ofNat 64 v) s.bar }

/-- A field, bits hi to lo, of a register. -/
def fget (s : Chip) (k hi lo : Nat) : Nat := bitsOf (barGet s k) hi lo

/-- A field replaced. -/
def fset (s : Chip) (k hi lo v : Nat) : Chip := barSet s k (setBits (barGet s k) hi lo v)

/-- A field that counts and stops at all ones (R117 and its like). -/
def fsat (s : Chip) (k hi lo n : Nat) : Chip :=
  fset s k hi lo (min (fget s k hi lo + n) (2 ^ (hi + 1 - lo) - 1))

/-- A one-bit field. -/
def fbit (s : Chip) (k i : Nat) : Bool := fget s k i i == 1

/-- A one-bit field replaced. -/
def fsetb (s : Chip) (k i : Nat) (b : Bool) : Chip := fset s k i i (b2n b)

-- Units ----------------------------------------------------------------------------------------------------

/-- The outcome of a command on the HX720. -/
abbrev Out := Host.Outcome Chip Fault Refusal

/-- A command's effect is on everything but the queue: the outcome on the HX720, with the queue as it stands. -/
def onChip (s : State) (f : Chip → Out) : Host.Outcome State Fault Refusal :=
  match f s.chip with
  | .next c => .next { s with chip := c }
  | .fault r => .fault r
  | .refused r => .refused r

/-- An effect on one unit of `n`; a number beyond them names no unit. -/
def onUnit (name : String) (n i : Nat) (s : Chip) (f : Chip → Chip) : Out :=
  if i < n then .next (f s) else .fault (.noSuchUnit name)

def onTile (t : Nat) (s : Chip) (f : Chip → Chip) : Out := onUnit "tile" 144 t s f

/-- An effect on strand `i` of tile `t`. -/
def onStrand (t i : Nat) (s : Chip) (f : Chip → Chip) : Out :=
  if t < 144 ∧ i < 8 then .next (f s) else .fault (.noSuchUnit "strand")

/-- An effect on bank `b` of tile `t`. -/
def onBank (t b : Nat) (s : Chip) (f : Chip → Chip) : Out :=
  if t < 144 ∧ b < 32 then .next (f s) else .fault (.noSuchUnit "bank")

def onPart (p : Nat) (s : Chip) (f : Chip → Chip) : Out := onUnit "partition" 16 p s f
def onChan (c : Nat) (s : Chip) (f : Chip → Chip) : Out := onUnit "channel" 32 c s f
def onFn (n : Nat) (s : Chip) (f : Chip → Chip) : Out := onUnit "function" 64 n s f

/-- A condition that the command's own row needs; where it does not hold, the event does not occur (DESIGN CHOICE, log 8). -/
def when (c : Bool) (s : Chip) (f : Chip → Chip) : Chip := if c then f s else s

/-- A fold of state changes over a list. -/
def forEach {α : Type} (l : List α) (f : Chip → α → Chip) (s : Chip) : Chip := l.foldl f s

-- Free values ----------------------------------------------------------------------------------------------

/-- A fresh free number below `n` (0 where n is 0). -/
def freeBelow (s : Chip) (n : Nat) : Nat × Chip :=
  (Config.freeNat s.freeCtr % n, { s with freeCtr := s.freeCtr + 1 })

-- Counters (R664) ------------------------------------------------------------------------------------------

/-- `n` added to live counter `i` of set `p`, stopping at 2^64 − 1. -/
def ctrAdd (s : Chip) (p i n : Nat) : Chip :=
  { s with ctrLive := tmod (fun _ => 0) (256 * p + i) (fun x => min (x + n) (2 ^ 64 - 1)) s.ctrLive }

-- Interrupts (R376, R628) ----------------------------------------------------------------------------------

/-- An interrupt of a function. -/
def raiseIrq (s : Chip) (fn vec : Nat) : Chip := { s with irqs := s.irqs ++ [(fn, vec)] }

/-- An in-band interrupt to the board controller: 1 thermal trip, 2 health state. -/
def raiseIbi (s : Chip) (why : Nat) : Chip := { s with ibis := s.ibis ++ [why] }

/-- The physical-function vector for health and thermal events (R645). -/
def rasIrq (s : Chip) : Chip :=
  if fbit s aRAS_CTL 0 then raiseIrq s 0 (fget s aRAS_CTL 15 4) else s

/-- A corrected event (R639). -/
def noteCE (s : Chip) : Chip := { s with ras := { s.ras with ceNow := s.ras.ceNow + 1 } }

-- Tiles and groups -----------------------------------------------------------------------------------------

def getTile (s : Chip) (t : Nat) : Tile := tget (fun _ => {}) s.tiles t
def setTile (s : Chip) (t : Nat) (x : Tile) : Chip := { s with tiles := tset (fun _ => {}) t x s.tiles }

/-- The key of a strand. -/
def skey (t i : Nat) : Nat := 8 * t + i

def getStrand (s : Chip) (t i : Nat) : Strand := tget (fun _ => {}) s.strands (skey t i)
def setStrand (s : Chip) (t i : Nat) (x : Strand) : Chip :=
  { s with strands := tset (fun _ => {}) (skey t i) x s.strands }
def modStrand (s : Chip) (t i : Nat) (f : Strand → Strand) : Chip := setStrand s t i (f (getStrand s t i))
def modTile (s : Chip) (t : Nat) (f : Tile → Tile) : Chip := setTile s t (f (getTile s t))

def getPart (s : Chip) (p : Nat) : Part := tget (fun _ => {}) s.parts p
def setPart (s : Chip) (p : Nat) (x : Part) : Chip := { s with parts := tset (fun _ => {}) p x s.parts }
def modPart (s : Chip) (p : Nat) (f : Part → Part) : Chip := setPart s p (f (getPart s p))

def getHasp (s : Chip) (f : Nat) : Hasp := tget (fun _ => {}) s.hasp f
def setHasp (s : Chip) (f : Nat) (x : Hasp) : Chip := { s with hasp := tset (fun _ => {}) f x s.hasp }

/-- The coordinates of a tile (R15). -/
def tileX (t : Nat) : Nat := t % 12
def tileY (t : Nat) : Nat := t / 12

/-- The tile group of a tile (R32). -/
def tileGroup (t : Nat) : Nat := (tileY t / 2) * 6 + tileX t / 2

/-- The four tiles of a group (R32), in ascending order. -/
def groupTiles (g : Nat) : List Nat :=
  let i := g % 6
  let j := g / 6
  [24 * j + 2 * i, 24 * j + 2 * i + 1, 24 * j + 12 + 2 * i, 24 * j + 13 + 2 * i]

/-- The set bits of a bitmap below `n`, ascending. -/
def bitsBelow (n x : Nat) : List Nat := (List.range n).filter (fun i => x.testBit i)

/-- The tiles of a bitmap of groups. -/
def tilesOfGroups (gs : Nat) : List Nat := (bitsBelow 36 gs).flatMap groupTiles

/-- The partition field of a tile (R168); 0 also for a tile of the free pool. -/
def tilePart (s : Chip) (t : Nat) : Nat := fget s (aTILE_CTL t) 47 44

/-- Some partition holds the tile's group. -/
def tileHeld (s : Chip) (t : Nat) : Bool := (fget s (aPART_GROUPS (tilePart s t)) 35 0).testBit (tileGroup t)

/-- The counter set that a tile's traffic is charged to (R662, R663). -/
def tileSet (s : Chip) (t : Nat) : Nat := if tileHeld s t then tilePart s t else 16

/-- The tile is fused on (R13). -/
def tileEnabled (s : Chip) (t : Nat) : Bool := (barGet s (8 + 8 * (t / 64))).testBit (t % 64)

/-- A power domain is on and has finished powering up (R650). -/
def domainOn (s : Chip) (d : Nat) : Bool := fbit s aPWR_DOMAIN d && !s.ras.rising.testBit d

/-- The tile's group is switched on (R650). -/
def tilePowered (s : Chip) (t : Nat) : Bool := domainOn s (tileGroup t)

def tileFenced (s : Chip) (t : Nat) : Bool := fbit s (aTILE_STATUS t) 1

/-- Programs and the mover reach the tile: enabled, powered, not fenced, tested and zeroed (R5, R172, R173). -/
def tileOpen (s : Chip) (t : Nat) : Bool :=
  decide (t < 144) && tileEnabled s t && tilePowered s t && !tileFenced s t &&
    fbit s (aTILE_STATUS t) 0 && fbit s (aTILE_STATUS t) 2

/-- The most recent nonzero status raised in the tile (R169). -/
def tileStatus (s : Chip) (t code : Nat) : Chip := fset s (aTILE_STATUS t) 63 48 code

/-- The physical tile of a logical index of a partition; `none` when absent, beyond the map, or in a group that the
partition does not hold (R175, R512, R517, R518). -/
def physOf (s : Chip) (p l : Nat) : Option Nat :=
  match (getPart s p).map[l]? with
  | some t => if decide (t < 144) && tileHeld s t && tilePart s t == p then some t else none
  | none => none

/-- The logical index of a physical tile in its partition's map. -/
def logOf (s : Chip) (t : Nat) : Option Nat := (getPart s (tilePart s t)).map.findIdx? (· == t)

/-- The tile belongs to the Anvil partition (R40). -/
def tileAnvil (s : Chip) (t : Nat) : Bool := tileHeld s t && tilePart s t == 0

-- Hasp (R547 to R550) --------------------------------------------------------------------------------------

/-- The arrival of a message on a side raises that side's vector (R548). -/
def haspIrq (s : Chip) (f : Nat) (tenant : Bool) : Chip :=
  let k := aHASP tenant f + 0xD0
  if fbit s k 0 then raiseIrq s (if tenant then f else 0) (fget s k 15 4) else s

/-- Messages of a ring that the Hearth sent. -/
def hearthCount (l : List Msg) : Nat := (l.filter (fun m => m.src == 0)).length

/-- A message put into a ring. -/
def haspPush (s : Chip) (f : Nat) (tenant : Bool) (m : Msg) : Chip :=
  let h := getHasp s f
  let h' := if tenant then { h with toTenant := h.toTenant ++ [m] } else { h with toManager := h.toManager ++ [m] }
  haspIrq (setHasp s f h') f tenant

/-- The Hearth's held messages of a side move into its ring while the instance is agreed and one of the four
kept entries is free (R548, R549). -/
def haspFlush (f : Nat) (tenant : Bool) : Nat → Chip → Chip
  | 0, s => s
  | n + 1, s =>
    let h := getHasp s f
    let held := if tenant then h.heldTenant else h.heldManager
    let ring := if tenant then h.toTenant else h.toManager
    match held with
    | [] => s
    | m :: r =>
      if h.agreed && decide (hearthCount ring < 4) && decide (ring.length < 16) then
        let h' := if tenant then { h with heldTenant := r } else { h with heldManager := r }
        haspFlush f tenant n (haspPush (setHasp s f h') f tenant m)
      else s

/-- The Hearth sends a message to one side of an instance; it is held until an entry frees (R548, R549). -/
def hearthSend (s : Chip) (f : Nat) (tenant : Bool) (type status : Nat) (payload : List Byte) : Chip :=
  let h := getHasp s f
  let q := tget (fun _ => 0) h.seqs 0
  let m : Msg := ⟨type, q, 0, payload.length, status, payload⟩
  let h1 := { h with seqs := tset (fun _ => 0) 0 ((q + 1) % 2 ^ 16) h.seqs }
  let h2 := if tenant then { h1 with heldTenant := h1.heldTenant ++ [m] } else { h1 with heldManager := h1.heldManager ++ [m] }
  haspFlush f tenant 16 (setHasp s f h2)

/-- The controlling function of a partition (R512). -/
def controller (s : Chip) (p : Nat) : Nat := fget s (aPART_CTL p) 47 42

/-- A message to the partition's controlling function (R523, R550): instance 0 has the manager's side only. -/
def toController (s : Chip) (p type status : Nat) (payload : List Byte) : Chip :=
  let f := controller s p
  hearthSend s f (f != 0) type status payload

/-- A message to the manager about a partition (R550). -/
def toManager (s : Chip) (p type status : Nat) (payload : List Byte) : Chip :=
  hearthSend s (controller s p) false type status payload

/-- The most recent partition-class code of a partition (R553). -/
def partCode (s : Chip) (p code : Nat) : Chip := fset s (aPART_STATUS p) 63 48 code

/-- A FAULT message (R524, R526): code, logical tile (0xFF none), strand and finfo (layout: DESIGN CHOICE, log 13). -/
def faultSend (s : Chip) (p code lt strand finfo : Nat) : Chip :=
  toController (partCode s p code) p 0x0020 code
    (leBytes 2 code ++ leBytes 1 lt ++ leBytes 1 strand ++ leBytes 4 0 ++ leBytes 8 finfo)

/-- A report of 0x4020 or 0x4021 (R524, R553). -/
def faultMsg (s : Chip) (p code lt strand finfo : Nat) : Chip :=
  faultSend (fsat s (aPART_STATUS p) 31 24 1) p code lt strand finfo

-- Banks (R120 to R125) -------------------------------------------------------------------------------------

/-- The first address beyond the banks (R121). -/
def bankEnd : Nat := 0x300000

/-- The bank of a word index (eight bytes a word, 0x3000 words a bank). -/
def wordBank (wi : Nat) : Nat := wi / 0x3000

/-- The 64-bit value of a word as the cells hold it. -/
def cellWord (x : Tile) (wi : Nat) : Nat := leNat (mread x.mem (8 * wi) 8)

/-- A word of the cells replaced: data and poison mark; a poisoned word holds data 0 (R124). -/
def putWord (x : Tile) (wi v : Nat) (pz : Bool) : Tile :=
  { x with
    mem := mwrite x.mem (8 * wi) (leBytes 8 (if pz then 0 else v))
    pz := tmark x.pz wi pz
    flaw := tset (fun _ => 0) wi 0 x.flaw
    wbq := x.wbq.filter (· != wi)
    fetch := if x.locked.contains (wi / 8) then x.fetch else x.fetch.filter (· != wi / 8) }

/-- A read of one word with its check (R123): correction, poisoning, counting. -/
def readWord (s : Chip) (t wi : Nat) : Chip × Elem :=
  let x := getTile s t
  let fl := tget (fun _ => 0) x.flaw wi
  let pz := tmem x.pz wi
  if fl == 0 then (s, ⟨if pz then 0 else cellWord x wi, pz⟩)
  else if fl == 1 && !pz then
    if x.wbq.contains wi then (s, ⟨cellWord x wi, false⟩)
    else
      let s1 := noteCE (fsat s (aTILE_ECC t) 63 48 1)
      let room := (x.wbq.filter (fun w => wordBank w == wordBank wi)).length < 4
      (if room then setTile s1 t { x with wbq := x.wbq ++ [wi] } else s1, ⟨cellWord x wi, false⟩)
  else
    let s1 := fsat s (aTILE_ECC t) 47 32 1
    let s2 := fset (fset s1 (aTILE_ECC t) 31 27 (wordBank wi)) (aTILE_ECC t) 26 16 (wi / 8 % 1536)
    (setTile s2 t (putWord x wi 0 true), ⟨0, true⟩)

/-- `n` words from word index `wi` up. -/
def readWords (s : Chip) (t : Nat) : Nat → Nat → Chip × List Elem
  | _, 0 => (s, [])
  | wi, n + 1 =>
    let a := readWord s t wi
    let b := readWords a.1 t (wi + 1) n
    (b.1, a.2 :: b.2)

/-- A write of one whole word (R124). -/
def writeWord (s : Chip) (t wi : Nat) (e : Elem) : Chip := setTile s t (putWord (getTile s t) wi e.v e.pz)

/-- Whole words written from word index `wi` up. -/
def writeWords (s : Chip) (t : Nat) : Nat → List Elem → Chip
  | _, [] => s
  | wi, e :: r => writeWords (writeWord s t wi e) t (wi + 1) r

/-- Bytes `lo` up to `lo + n` of a 64-bit value replaced. -/
def patch (old lo n v : Nat) : Nat := setBits old (8 * (lo + n) - 1) (8 * lo) v

/-- Lines of the banks that a range touches. -/
def lineCount (addr n : Nat) : Nat := if n == 0 then 0 else (addr + n - 1) / 64 - addr / 64 + 1

/-- Bank lines granted to a reader or a writer, scrubber excluded (R664). -/
def ctrBank (s : Chip) (t : Nat) (write : Bool) (lines : Nat) : Chip :=
  ctrAdd s (tileSet s t) (if write then 153 else 152) (64 * lines)

/-- A write of `n` bytes within one word: a read-modify-write that leaves a poisoned word poisoned, and
takes the port for a read beside the write (R124, R125). -/
def writePart (s : Chip) (t addr n : Nat) (e : Elem) : Chip :=
  let r := readWord (ctrBank s t false 1) t (addr / 8)
  writeWord r.1 t (addr / 8) ⟨patch r.2.v (addr % 8) n e.v, r.2.pz || e.pz⟩

/-- A write of `n` bytes within one word, whole or part. -/
def writeSome (s : Chip) (t addr n : Nat) (e : Elem) : Chip :=
  if n == 8 then writeWord s t (addr / 8) e else writePart s t addr n e

/-- A read of `n` bytes within one word. -/
def readSome (s : Chip) (t addr n : Nat) : Chip × Elem :=
  let r := readWord s t (addr / 8)
  (r.1, ⟨r.2.v / 2 ^ (8 * (addr % 8)) % 2 ^ (8 * n), r.2.pz⟩)

/-- The bytes of words, eight each. -/
def wordsBytes (l : List Elem) : List Byte := l.flatMap (fun e => leBytes 8 e.v)

/-- Marks of bytes as a bit map, bit k for byte k (R220, R577). -/
def marksOf (l : List (Byte × Bool)) : Nat := l.foldr (fun b m => 2 * m + b2n b.2) 0

/-- Bytes with the marks of a bit map. -/
def withMarks : List Byte → Nat → List (Byte × Bool)
  | [], _ => []
  | b :: r, m => (b, m % 2 == 1) :: withMarks r (m / 2)

/-- The marks of a word's eight bytes, and of words. -/
def wordMark (pz : Bool) : Nat := if pz then 255 else 0
def wordMarks (l : List Elem) : Nat := l.foldr (fun e m => 256 * m + wordMark e.pz) 0

/-- Some byte of the eight at an offset is marked. -/
def markAt (m o : Nat) : Bool := m / 2 ^ o % 256 != 0

/-- `len` bytes of the banks from any address, and whether a word of them is marked: the mover's read. -/
def bankRead (s : Chip) (t addr len : Nat) : Chip × List Byte × Bool :=
  let w0 := addr / 8
  let n := if len == 0 then 0 else (addr + len - 1) / 8 - w0 + 1
  let r := readWords s t w0 n
  (ctrBank r.1 t false (lineCount addr len), ((wordsBytes r.2).drop (addr % 8)).take len, r.2.any (·.pz))

/-- The same, each byte with the mark of its word. -/
def readMarked (s : Chip) (t addr len : Nat) : Chip × List (Byte × Bool) :=
  let w0 := addr / 8
  let n := if len == 0 then 0 else (addr + len - 1) / 8 - w0 + 1
  let r := readWords s t w0 n
  (ctrBank r.1 t false (lineCount addr len),
    ((r.2.flatMap (fun e => (leBytes 8 e.v).map (fun b => (b, e.pz)))).drop (addr % 8)).take len)

/-- Bytes written from any address, word by word, `fuel` pieces at most: the mover's write. -/
def bankPut (t : Nat) (pz : Bool) : Nat → Chip → Nat → List Byte → Chip
  | 0, s, _, _ => s
  | n + 1, s, a, bs =>
    if bs.isEmpty then s
    else
      let k := min (8 - a % 8) bs.length
      bankPut t pz n (writeSome s t a k ⟨leNat (bs.take k), pz⟩) (a + k) (bs.drop k)

-- Arrival counters (R208 to R211) --------------------------------------------------------------------------

/-- A value stopped at the limits of a signed 32-bit counter (R211). -/
def clampAc (i : Int) : Int := max (-2147483648) (min 2147483647 i)

def acGet (s : Chip) (t n : Nat) : Int := tget (fun _ => (0 : Int)) (getTile s t).ac n

def acSet (s : Chip) (t n : Nat) (v : Int) : Chip :=
  modTile s t (fun x => { x with ac := tset (fun _ => (0 : Int)) n v x.ac })

/-- `d` added to a counter, stopping at its limits (R210, R211). -/
def acAdd (s : Chip) (t n : Nat) (d : Int) : Chip := acSet s t n (clampAc (acGet s t n + d))

/-- One arrival (R209). -/
def acArrive (s : Chip) (t n : Nat) : Chip := acAdd s t n (-1)

-- Faults (R226 to R231) ------------------------------------------------------------------------------------

/-- An arithmetic fault recorded (R117); `t` 0xFF for a unit of the I/O die. -/
def arithFault (s : Chip) (code t unit : Nat) : Chip :=
  let k := aARITH_FAULT_LOG
  fsat (fset (fset (fset s k 63 48 code) k 47 40 t) k 39 32 unit) k 31 0 1

/-- finfo of a fault (R229). -/
def finfoOf (unit slot addr : Nat) : Nat := unit * 2 ^ 40 + slot * 2 ^ 32 + addr % 2 ^ 22

/-- The loop cache is given up by its owner (R154). -/
def freeLoopCache (s : Chip) (t i : Nat) : Chip :=
  modTile s t (fun x => if x.lcOwner = some i then { x with lcOwner := none } else x)

/-- Taking a fault: in handler state, or with fmode 0, the strand becomes faulted and the Hearth learns of it;
with fmode 1 it sets fcode, finfo and fpc and continues at fvec (R227, R230, R231, R524). -/
def takeFault (s : Chip) (t i code unit slot addr : Nat) : Chip :=
  let x := getStrand s t i
  let y := { x with slots := [], wait := none, timedOut := false }
  let fi := finfoOf unit slot addr
  let s1 := tileStatus (freeLoopCache s t i) t (if x.handler then 0x209B else code)
  if x.fmode && !x.handler then
    setStrand s1 t i { y with
      fcode := BitVec.ofNat 16 code, finfo := BitVec.ofNat 64 fi, fpc := BitVec.ofNat 18 x.pc,
      pc := x.fvec.toNat, handler := true }
  else
    let c := if x.handler then 0x209B else code
    let z := if x.handler then { y with faulted := some c } else { y with faulted := some c, fpc := BitVec.ofNat 18 x.pc }
    let s2 := setStrand s1 t i z
    if tileHeld s t then faultMsg s2 (tilePart s t) 0x4021 ((logOf s t).getD 0xFF) i fi else s2

/-- An asynchronous fault is held pending against its strand (R228). -/
def postFault (s : Chip) (t i : Nat) (f : AFault) : Chip :=
  modStrand s t i (fun x => { x with pend := x.pend ++ [f] })

/-- Flag events counted (R118): groups that set GX, results that set SA. -/
def noteEvents (s : Chip) (gx sa : Nat) : Chip :=
  if gx == 0 && sa == 0 then s else fsat (fsat s aARITH_EVENTS 63 32 gx) aARITH_EVENTS 31 0 sa

/-- Sticky flags raised in a strand (R183). -/
def raiseFlags (s : Chip) (t i fl : Nat) : Chip :=
  modStrand s t i (fun x => { x with flags := x.flags ||| BitVec.ofNat 6 fl })

/-- The strand is enabled, released, neither halted nor faulted (R184). -/
def strandRuns (s : Chip) (t i : Nat) : Bool :=
  let x := getStrand s t i
  (fget s (aTILE_CTL t) 39 32).testBit i && !fbit s (aTILE_CTL t) 1 && !x.halted && !x.held &&
    x.faulted == none && !tileFenced s t && tilePowered s t && tileEnabled s t

end Sys2Proof.Machine
end

