-- ==== Sys2Proof/Machine/Mem.lean ====
section
/-! DEFINITION. The device address space, the memory controllers and host memory (chapter 06, R282 to R310;
R347, R519, R545). -/

namespace Sys2Proof.Machine

def getChan (s : Chip) (c : Nat) : Chan := tget (fun _ => {}) s.mem.chans c
def setChan (s : Chip) (c : Nat) (x : Chan) : Chip :=
  { s with mem := { s.mem with chans := tset (fun _ => {}) c x s.mem.chans } }
def modChan (s : Chip) (c : Nat) (f : Chan → Chan) : Chip := setChan s c (f (getChan s c))

/-- MEM_STATUS.STATE of a channel (R306). -/
def chanState (s : Chip) (c : Nat) : Nat := fget s (aMEM_STATUS c) 7 4

/-- The channel is failed, or was a member of the set that was not in service (R285, R298). -/
def chanFailed (s : Chip) (c : Nat) : Bool := chanState s c == 4 || s.mem.lost.contains c

-- The map (R286 to R289) -----------------------------------------------------------------------------------

/-- log2 of WAYS (R309). -/
def mapW (s : Chip) : Nat := 3 + fget s aMEM_MAP 33 32

def mapWays (s : Chip) : Nat := 2 ^ mapW s

/-- The first channel of the interleave set (R287). -/
def mapFirst (s : Chip) : Nat := mapWays s * fget s aMEM_MAP 25 24

def inSet (s : Chip) (c : Nat) : Bool := decide (mapFirst s ≤ c) && decide (c < mapFirst s + mapWays s)

/-- LOCAL_SIZE in bytes; a value above CAP is taken as CAP (R309). -/
def localSize (s : Chip) : Nat := min (fget s aMEM_MAP 47 40 * 2 ^ 30) s.mem.cap

/-- I, the size of the interleaved region (R287). -/
def interSize (s : Chip) : Nat := mapWays s * (s.mem.cap - localSize s)

/-- The bytes of host-managed memory, at most I (R301, R310). -/
def hdmSize (s : Chip) : Nat := min (fget s aMEM_HDM 47 32 * 2 ^ 28) (interSize s)

/-- The exclusive-or of the w-bit pieces of a granule number (R289), with fuel. -/
def foldBits (w : Nat) : Nat → Nat → Nat → Nat
  | 0, _, acc => acc
  | n + 1, t, acc => foldBits w n (t >>> w) (Nat.xor acc (t % 2 ^ w))

/-- The published channel hash (R289): channel and module byte of an interleaved address. -/
def channelHash (first w a : Nat) : Nat × Nat :=
  let x := a >>> 8
  (first + foldBits w 64 x 0, ((x >>> w) <<< 8) + a % 256)

/-- Where a device address lies. -/
inductive Loc where
  | burst (chan mb : Nat)
  | swage (unit off : Nat)
  | bad (code : Nat)
  deriving DecidableEq, Repr

/-- The module byte behind a local offset (R288). -/
def localByte (s : Chip) (c o : Nat) : Loc :=
  let ls := localSize s
  if ls ≤ o then .bad 0x2002
  else if inSet s c then .burst c (s.mem.cap - ls + o)
  else
    let cb := (getChan s c).cap * 2 ^ 30
    if chanState s c != 2 && !chanFailed s c then .bad 0x2004
    else if ls ≤ cb then .burst c (cb - ls + o)
    else if o < cb then .burst c o
    else .bad 0x2002

/-- A device address resolved (R286). -/
def locate (s : Chip) (a : Nat) : Loc :=
  if !fbit s aMEM_MAP 0 then .bad 0x2004
  else if a < 0x080000000000 then
    (if a < interSize s then
      let h := channelHash (mapFirst s) (mapW s) a
      .burst h.1 h.2
    else .bad 0x2002)
  else if a < 0x100000000000 then
    localByte s ((a - 0x080000000000) / 2 ^ 38) ((a - 0x080000000000) % 2 ^ 38)
  else if a < 0x100000000000 + 32 * 0x10000 then
    .swage ((a - 0x100000000000) / 0x10000) ((a - 0x100000000000) % 0x10000)
  else .bad 0x2002

-- Controllers (R291 to R298) -------------------------------------------------------------------------------

/-- The key of a module byte. -/
def mbKey (c mb : Nat) : Nat := c * 2 ^ 43 + mb

/-- A code recorded by a channel (R308). -/
def memLog (s : Chip) (c mb code : Nat) : Chip :=
  fset (fset s (aMEM_ERRLOG c) 63 48 code) (aMEM_ERRLOG c) 42 0 mb

/-- A channel is marked failed (R298): its Swage unit shows it. -/
def failChannel (s : Chip) (c : Nat) : Chip :=
  fset (fset s (aMEM_STATUS c) 7 4 4) (aSWAGE_STATUS c) 3 0 3

/-- The store of a burst replaced: its bytes, mark and no held error. -/
def putBurst (s : Chip) (c mb : Nat) (bs : List Byte) (pz : Bool) : Chip :=
  let k := mbKey c mb
  { s with mem := { s.mem with
      dram := mwrite s.mem.dram k (if pz then bs.map (fun _ => 0#8) else bs)
      dpz := tmark s.mem.dpz (k / 64) pz
      dflaw := tset (fun _ => 0) (k / 64) 0 s.mem.dflaw } }

/-- The bytes of a burst as the module holds them, all marked when the burst is poisoned. -/
def burstBytes (s : Chip) (c mb : Nat) : List MByte :=
  let k := mbKey c mb
  let pz := tmem s.mem.dpz (k / 64)
  (mread s.mem.dram k 64).map (fun b => (if pz then 0#8 else b, pz))

/-- A correction noted for its row (R296) and queued for write-back (R293). -/
def noteFix (mb : Nat) (x : Chan) : Chan :=
  let hits := tget (fun _ => []) x.rowHits (mb / 8192)
  { x with
    fix := if x.fix.contains mb then x.fix else x.fix ++ [mb]
    rowHits := if hits.contains x.scrubPass then x.rowHits
      else tset (fun _ => []) (mb / 8192) (x.scrubPass :: hits) x.rowHits }

/-- An uncorrectable burst: poisoned, counted, logged; 16 within one second fail the channel (R293, R298). -/
def uncorrectable (s : Chip) (c mb : Nat) : Chip :=
  let s1 := fsat (memLog (putBurst s c mb (List.replicate 64 0#8) true) c mb 0x2001) (aMEM_ECC c) 47 32 1
  let times := (s.cycle :: (getChan s c).uncorr).filter (fun t => decide (s.cycle < t + 700000000))
  let s2 := modChan s1 c (fun x => { x with uncorr := times.take 16 })
  if 16 ≤ times.length then failChannel s2 c else s2

/-- A read of one burst for counter set `p` (R291, R293, R298): bytes with marks, and a code. -/
def readBurst (s : Chip) (p c mb : Nat) : Chip × List MByte × Nat :=
  if chanFailed s c then (memLog s c mb 0x2003, List.replicate 64 (0#8, true), 0x2003)
  else
    let s0 := ctrAdd s p c 64
    let fl := tget (fun _ => 0) s.mem.dflaw (mbKey c mb / 64)
    let pz := tmem s.mem.dpz (mbKey c mb / 64)
    if fl == 0 then (s0, burstBytes s c mb, 0)
    else if fl == 1 && !pz then
      (modChan (noteCE (fsat s0 (aMEM_ECC c) 63 48 1)) c (noteFix mb), burstBytes s c mb, 0)
    else (uncorrectable s0 c mb, List.replicate 64 (0#8, true), 0x2001)

/-- Bytes of a burst replaced from offset `o`. -/
def overlay (old : List MByte) (o : Nat) (new : List MByte) : List MByte :=
  old.take o ++ new ++ old.drop (o + new.length)

/-- A write of `bs` at offset `o` of one burst, whole or a read-modify-write (R291, R292, R294). -/
def writeBurst (s : Chip) (p c mb o : Nat) (bs : List MByte) : Chip × Nat :=
  if chanFailed s c then (memLog s c mb 0x2003, 0x2003)
  else if bs.length == 64 then
    (ctrAdd (putBurst s c mb (bs.map (·.1)) (bs.any (·.2))) p (32 + c) 64, 0)
  else
    let r := readBurst s p c mb
    let all := overlay r.2.1 o bs
    (ctrAdd (putBurst r.1 c mb (all.map (·.1)) (all.any (·.2))) p (32 + c) 64, r.2.2)

/-- A read of `len` device bytes, burst by burst, for counter set `p`; `fuel` pieces. -/
def devReadGo (p : Nat) : Nat → Chip → Nat → Nat → Chip × List MByte × Nat
  | 0, s, _, _ => (s, [], 0)
  | n + 1, s, a, len =>
    if len == 0 then (s, [], 0)
    else
      let k := min (64 - a % 64) len
      match locate s a with
      | .burst c mb =>
        let r := readBurst s p c (mb - mb % 64)
        let t := devReadGo p n r.1 (a + k) (len - k)
        (t.1, (r.2.1.drop (a % 64)).take k ++ t.2.1, leastCode [r.2.2, t.2.2])
      | .swage _ _ => (s, List.replicate len (0#8, false), 0x2002)
      | .bad code => (s, List.replicate len (0#8, false), code)

def devRead (s : Chip) (p a len : Nat) : Chip × List MByte × Nat := devReadGo p (len / 64 + 2) s a len

/-- A write of device bytes, burst by burst. -/
def devWriteGo (p : Nat) : Nat → Chip → Nat → List MByte → Chip × Nat
  | 0, s, _, _ => (s, 0)
  | n + 1, s, a, bs =>
    if bs.isEmpty then (s, 0)
    else
      let k := min (64 - a % 64) bs.length
      match locate s a with
      | .burst c mb =>
        let r := writeBurst s p c (mb - mb % 64) (mb % 64) (bs.take k)
        let t := devWriteGo p n r.1 (a + k) (bs.drop k)
        (t.1, leastCode [r.2, t.2])
      | .swage _ _ => (s, 0x2046)
      | .bad code => (s, code)

def devWriteRaw (s : Chip) (p a : Nat) (bs : List MByte) : Chip × Nat := devWriteGo p (bs.length / 64 + 2) s a bs

-- Grants (R519, R520) and host-managed memory (R302) -------------------------------------------------------

/-- The device address at which a grant's range starts. -/
def grantBase (g : Nat) : Nat :=
  if bitOf g 57 then 0x080000000000 + bitsOf g 56 52 * 2 ^ 38 + bitsOf g 51 30 * 2 ^ 21
  else bitsOf g 51 30 * 2 ^ 21

/-- The bytes of a grant's range. -/
def grantSize (g : Nat) : Nat := bitsOf g 21 0 * 2 ^ 21

/-- The entry is valid and its range holds the bytes `a` to `a + n − 1`. -/
def grantHolds (g p a n : Nat) : Bool :=
  bitOf g 63 && bitsOf g 61 58 == p && decide (grantBase g ≤ a) && decide (a + n ≤ grantBase g + grantSize g)

/-- Some valid grant of the partition holds the bytes. -/
def granted (s : Chip) (p a n : Nat) : Bool :=
  (List.range 256).any (fun i => grantHolds (barGet s (aGRANT i)) p a n)

/-- The partition holds a local grant in the channel (R519). -/
def swageGranted (s : Chip) (p c : Nat) : Bool :=
  (List.range 256).any (fun i =>
    let g := barGet s (aGRANT i)
    bitOf g 63 && bitOf g 57 && bitsOf g 61 58 == p && bitsOf g 56 52 == c)

/-- The bytes touch host-managed memory (R301). -/
def inHdm (s : Chip) (a n : Nat) : Bool :=
  decide (a < interSize s) && decide (interSize s - hdmSize s < a + n) && decide (0 < hdmSize s)

/-- Every 2 MiB page that the bytes touch is in device bias (R302). -/
def allBias (s : Chip) (a n : Nat) : Bool :=
  (List.range ((a % 2 ^ 21 + n - 1) / 2 ^ 21 + 1)).all (fun i => tmem s.mem.bias (a / 2 ^ 21 + i))

/-- The check of a device access by partition `p` under function `fn` (R302, R348): 0 when allowed. The Hearth
and the controllers themselves act as set 16, and accesses that no DMA queue makes as function 64. -/
def devCheck (s : Chip) (p fn a n : Nat) : Nat :=
  if !fbit s aMEM_MAP 0 then 0x2004
  else if inHdm s a n then (if fn == 0 && allBias s a n then 0 else 0x2006)
  else if p == 16 || granted s p a n then 0
  else 0x2005

/-- The n-th granule of the partition's grants in table order that holds an address (R545). -/
def granuleIndex (s : Chip) (p a : Nat) : Nat → Nat → Option Nat
  | 0, _ => none
  | n + 1, acc =>
    let g := barGet s (aGRANT (256 - (n + 1)))
    if grantHolds g p a 1 then some (acc + (a - grantBase g) / 2 ^ 21)
    else granuleIndex s p a n (if bitOf g 63 && bitsOf g 61 58 == p then acc + bitsOf g 21 0 else acc)

/-- Granules of the partition's grants. -/
def granuleCount (s : Chip) (p : Nat) : Nat :=
  (List.range 256).foldl (fun acc i =>
    let g := barGet s (aGRANT i)
    if bitOf g 63 && bitsOf g 61 58 == p then acc + bitsOf g 21 0 else acc) 0

/-- The dirty bit of an address's granule is set in the bitmap being written (R545). -/
def markDirty (s : Chip) (p a : Nat) : Chip :=
  let d := barGet s (aPART_DMAP p)
  if p < 16 && bitOf d 0 then
    match granuleIndex s p a 256 0 with
    | none => s
    | some i =>
      let base := bitsOf d 47 12 * 4096 + (if bitOf d 1 then cdiv (granuleCount s p) 8 else 0) + i / 8
      let r := devRead s 16 base 1
      let b := match r.2.1 with
        | (x, _) :: _ => x
        | [] => 0#8
      (devWriteRaw r.1 16 base [(b ||| (1#8 <<< (i % 8)), false)]).1
  else s

/-- A checked write by partition `p` (R348, R520, R545). -/
def devWrite (s : Chip) (p fn a : Nat) (bs : List MByte) : Chip × Nat :=
  let c := devCheck s p fn a bs.length
  if c != 0 then
    (if c == 0x2005 && p < 16 then partCode s p 0x4006 else s, c)
  else
    let r := devWriteRaw (markDirty s p a) p a bs
    r

/-- A checked read by partition `p`. -/
def devReadChecked (s : Chip) (p fn a len : Nat) : Chip × List MByte × Nat :=
  let c := devCheck s p fn a len
  if c != 0 then
    (if c == 0x2005 && p < 16 then partCode s p 0x4006 else s, List.replicate len (0#8, false), c)
  else devRead s p a len

-- Host memory (R347, R545) ---------------------------------------------------------------------------------

def hostRead (s : Chip) (p a len : Nat) : Chip × List Byte := (ctrAdd s p 156 len, mread s.mem.host a len)

/-- Host bytes stored, with no log; none after an undervoltage (R658). -/
def hostPut (s : Chip) (a : Nat) (bs : List Byte) : Chip :=
  if s.boot.undervolt then s
  else { s with mem := { s.mem with host := mwrite s.mem.host a bs } }

/-- The dirty log of function f takes an entry for a page unless its filter holds it (R545): the new state, and
whether the write may be issued. -/
def dlogPage (s : Chip) (f page : Nat) : Chip × Bool :=
  let seen := tget (fun _ => []) s.mem.dlogSeen f
  if !fbit s (aDLOG_CTL f) 0 || seen.contains page then (s, true)
  else
    let k := aDLOG_STATUS f
    let tail := fget s k 16 0
    let head := fget s (aDLOG_CTL f) 36 20
    let n := 2 ^ (max 10 (min 16 (fget s (aDLOG_CTL f) 12 8)))
    if n ≤ (tail + 2 ^ 17 - head) % 2 ^ 17 then (s, false)
    else
      let base := fget s (aDLOG_BASE f) 56 12 * 4096
      let s1 := hostPut s (base + 8 * (tail % n)) (leBytes 8 (page * 4096 + f))
      let s2 := fset s1 k 16 0 ((tail + 1) % 2 ^ 17)
      ({ s2 with mem := { s2.mem with dlogSeen := tset (fun _ => []) f ((page :: seen).take 4096) s2.mem.dlogSeen } }, true)

/-- The pages of a host range logged in turn; false when the ring is full. -/
def dlogPages (f : Nat) : Nat → Nat → Chip → Chip × Bool
  | 0, _, s => (s, true)
  | n + 1, page, s =>
    let r := dlogPage s f page
    if r.2 then dlogPages f n (page + 1) r.1 else r

/-- Poisoned 64-byte lines of a host write (R645 RAS_POISON.HOST). -/
def poisonLines : Nat → Nat → List MByte → Nat
  | 0, _, _ => 0
  | n + 1, a, bs =>
    if bs.isEmpty then 0
    else
      let k := min (64 - a % 64) bs.length
      b2n ((bs.take k).any (·.2)) + poisonLines n (a + k) (bs.drop k)

/-- A write to host space under function f's requester ID, for set `p`: logged before it is issued, held and not
dropped when the log is full (R545). -/
def hostWrite (s : Chip) (p f a : Nat) (bs : List MByte) : Chip :=
  let raw := bs.map (fun b => if b.2 then 0#8 else b.1)
  let bad := poisonLines (bs.length / 64 + 2) a bs
  let s0 := if bad == 0 then s else fsat s aRAS_POISON 63 32 bad
  let first := a / 4096
  let n := if bs.isEmpty then 0 else (a + bs.length - 1) / 4096 - first + 1
  let r := dlogPages f n first s0
  if r.2 && !(s.mem.dlogHeld.any (fun h => h.1 == f)) then hostPut (ctrAdd r.1 p 157 bs.length) a raw
  else
    let held := s.mem.dlogHeld.any (fun h => h.1 == f)
    let s1 := if held then r.1 else fsat r.1 (aDLOG_STATUS f) 63 48 1
    let s2 := if held then s1 else partCode s1 (fget s (aFUNC_PART f) 3 0) 0x4042
    { s2 with mem := { s2.mem with dlogHeld := s2.mem.dlogHeld ++ [(f, a, raw)] } }

-- Addresses with a space (R347) ----------------------------------------------------------------------------

/-- A byte list without marks. -/
def unmark (l : List MByte) : List Byte := l.map (·.1)

/-- A byte list with no poison. -/
def clean (l : List Byte) : List MByte := l.map (fun b => (b, false))

/-- A read from an address of R347 for the Hearth and the collectors (set 16), device or host space: the bytes,
and a code. Other spaces read as zeros with 0x1002. -/
def spaceRead (s : Chip) (p fn a len : Nat) : Chip × List MByte × Nat :=
  if a / 2 ^ 60 == 0 then devReadChecked s p fn (a % 2 ^ 48) len
  else if a / 2 ^ 60 == 2 then
    let r := hostRead s p (a % 2 ^ 57) len
    (r.1, clean r.2, 0)
  else (s, List.replicate len (0#8, false), 0x1002)

/-- A write to an address of R347, device or host space: `dev` is the function whose queue makes it, 64 for none (R302),
`fn` the requester ID of a host access. -/
def spaceWrite (s : Chip) (p dev fn a : Nat) (bs : List MByte) : Chip × Nat :=
  if a / 2 ^ 60 == 0 then devWrite s p dev (a % 2 ^ 48) bs
  else if a / 2 ^ 60 == 2 then (hostWrite s p fn (a % 2 ^ 57) bs, 0)
  else (s, 0x1002)

end Sys2Proof.Machine
end

