-- ==== Sys2Proof/Machine/Mesh.lean ====
section
/-! DEFINITION. The mesh: what a message costs its counters and its regulator, and which dies it joins
(R34 to R51, R534, R664). -/

namespace Sys2Proof.Machine

/-- The die of a tile (R15). -/
def tileDie (t : Nat) : Nat := if tileX t < 6 then 0 else 1

/-- Some row crosses the Knuckle by its own link (R44, R47). -/
def knuckleOpen (s : Chip) : Bool := fget s aMESH_STATUS 35 24 != 0xFFF

/-- The flits of a run of lines: two lines a flit (R36, R222). -/
def flitsOf (lines : Nat) : Nat := cdiv lines 2

/-- `n` flits injected by a tile toward another: counted in the sender's set (R663, R664). -/
def inject (s : Chip) (src dst n : Nat) (radio : Bool) : Chip :=
  if src == dst then s
  else
    let set := if radio then 0 else tileSet s src
    let s1 := ctrAdd s set 154 (128 * n)
    if tileDie src == tileDie dst then s1 else ctrAdd s1 set 155 (128 * n)

end Sys2Proof.Machine
end

