-- ==== Sys2Proof/Machine/Operands.lean ====
section
/-! DEFINITION. Reading and writing the register files, operand forms and descriptor fields
(R178, R181, R182, R192, R223, R238). -/

namespace Sys2Proof.Machine

/-- s register `i`: s0 reads 0 (R178). -/
def rdS (x : Strand) (i : Nat) : Nat := if i = 0 then 0 else (tget (fun _ => 0#64) x.s i).toNat

/-- The poison mark of s register `i`. -/
def rdSm (x : Strand) (i : Nat) : Bool := if i = 0 then false else tmem x.sm i

/-- Writes to s0 are discarded (R178). -/
def wrS (x : Strand) (i v : Nat) (pz : Bool) : Strand :=
  if i = 0 then x
  else { x with s := tset (fun _ => 0#64) i (BitVec.ofNat 64 v) x.s, sm := tmark x.sm i pz }

/-- v register `i` as a number of 2,048 bits. -/
def rdV (x : Strand) (i : Nat) : Nat := (tget (fun _ => 0#2048) x.v i).toNat

/-- The lane marks of v register `i`. -/
def rdVm (x : Strand) (i : Nat) : Nat := (tget (fun _ => 0#32) x.vm i).toNat

def wrV (x : Strand) (i v m : Nat) : Strand :=
  { x with v := tset (fun _ => 0#2048) i (BitVec.ofNat 2048 v) x.v, vm := tset (fun _ => 0#32) i (BitVec.ofNat 32 m) x.vm }

/-- p register `i`: p0 reads 1 (R178). -/
def rdP (x : Strand) (i : Nat) : Bool := if i = 0 then true else tmem x.p i
def rdPm (x : Strand) (i : Nat) : Bool := if i = 0 then false else tmem x.pm i

/-- Writes to p0 are discarded (R178). -/
def wrP (x : Strand) (i : Nat) (b pz : Bool) : Strand :=
  if i = 0 then x else { x with p := tmark x.p i b, pm := tmark x.pm i pz }

/-- An element of `w` bits of a wide register. -/
def lane (w v j : Nat) : Nat := v / 2 ^ (w * j) % 2 ^ w

/-- Elements of `w` bits packed from element 0 up. -/
def packLanes (w : Nat) : List Nat → Nat
  | [] => 0
  | e :: r => e % 2 ^ w + 2 ^ w * packLanes w r

/-- The `n` elements of a wide register. -/
def lanes (w v n : Nat) : List Nat := (List.range n).map (lane w v)

/-- The mark of the 64-bit lane that holds element `j` of width `w`. -/
def laneMark (w m j : Nat) : Bool := m.testBit (w * j / 64)

/-- A 64-bit value from a signed reading. -/
def u64 (i : Int) : Nat := wrap 64 i

/-- The signed 11-bit immediate of format RI, as an integer (R192). -/
def imm11 (f : FmtRI) : Int := signed 11 f.imm

/-- An address ra + imm11 × size, modulo 2^64 (R247, R255, R257). -/
def addrRI (x : Strand) (f : FmtRI) (size : Nat) : Nat := u64 ((rdS x f.ra : Int) + imm11 f * size)

/-- The code of a special register's content (R182); `none` when unassigned. The state of the tile is needed for
ltile, the counters and cycle. -/
def specialReg (s : Chip) (t i n : Nat) : Option Nat :=
  let x := getStrand s t i
  let p := tilePart s t
  match n with
  | 0x001 => some i
  | 0x002 => some ((logOf s t).getD 0)
  | 0x003 => some (getPart s p).map.length
  | 0x004 => some (tget (fun _ => ({} : Job)) s.fab.jobs p).rank
  | 0x005 => some (tget (fun _ => ({} : Job)) s.fab.jobs p).nchips
  | 0x008 => some x.flags.toNat
  | 0x010 => some (b2n x.fmode)
  | 0x011 => some x.fvec.toNat
  | 0x012 => some x.fpc.toNat
  | 0x013 => some x.fcode.toNat
  | 0x014 => some x.finfo.toNat
  | 0x018 => some (s.cycle % 2 ^ 64)
  | 0x019 => some (barGet s 0x20)
  | _ => if 0x040 ≤ n ∧ n ≤ 0x07F then some (u64 (acGet s t (n - 0x040))) else none

/-- The special registers that `mtsr` may write (R182). -/
def specialRW (n : Nat) : Bool := n == 0x008 || n == 0x010 || n == 0x011 || n == 0x012

/-- A special register written (R182, R183). -/
def writeSpecial (x : Strand) (n v : Nat) : Strand :=
  if n = 0x008 then { x with flags := BitVec.ofNat 6 v }
  else if n = 0x010 then { x with fmode := v.testBit 0 }
  else if n = 0x011 then { x with fvec := BitVec.ofNat 18 v }
  else if n = 0x012 then { x with fpc := BitVec.ofNat 18 v }
  else x

/-- The register code of s, v and p registers, for the conflict check and the interlock (R195, R196). -/
def codeS (i : Nat) : Nat := i
def codeV (i : Nat) : Nat := 32 + i
def codeP (i : Nat) : Nat := 64 + i
/-- The code of a special register. -/
def codeX (n : Nat) : Nat := 128 + n

/-- The register pair of a field: an even s register no higher than s30 (R238). -/
def pairOk (r : Nat) : Bool := r % 2 == 0 && decide (r ≤ 30)

/-- The fields of a word outside a list of (hi, lo) fields are 0. -/
def onlyFields (w : Nat) (fs : List (Nat × Nat)) : Bool :=
  fs.foldl (fun x f => setBits x f.1 f.2 0) w == 0

/-- A tile-local range lies in the banks (R240). -/
def inBanks (a n : Nat) : Bool := decide (a + n ≤ bankEnd)

end Sys2Proof.Machine
end

