-- ==== Sys2Proof/Machine/FabSend.lean ====
section
/-! DEFINITION. Bandwidth regulators (R534 to R537) and the source side of the fabric (R565, R567, R572 to
R577, R585, R586, R589). -/

namespace Sys2Proof.Machine

-- Bellows --------------------------------------------------------------------------------------------------

/-- Low 32 bits of the Strike number (R458). -/
def strikeNow (s : Chip) : Nat := fget s aSTRIKE_STATUS 63 32

/-- The Bellows slot in use (R535). -/
def bwSlot (s : Chip) : Nat := strikeNow s % (fget s aBW_GLOBAL 5 0 + 1)

/-- The budget of a regulator (0 MEM, 1 FAB, 2 MESH) of a partition in a slot, in 256-byte units (R554). -/
def bwBudget (s : Chip) (p reg slot : Nat) : Nat :=
  if reg == 0 then fget s (aBW_SLOT_A p slot) 63 32
  else if reg == 1 then fget s (aBW_SLOT_A p slot) 31 0
  else fget s (aBW_SLOT_B p slot) 31 0

/-- The budget in use, taken over at the Strike boundary that began the slot (R536). -/
def bwNow (s : Chip) (p reg : Nat) : Nat :=
  let x := getPart s p
  if reg == 0 then x.budMem else if reg == 1 then x.budFab else x.budMesh

/-- The depth of a partition's buckets in bytes (R536). -/
def bwDepth (s : Chip) (p : Nat) : Nat := fget s (aBW_CTL p) 39 16 * 256

/-- Tokens spent below a full bucket. -/
def bwUsed (s : Chip) (p reg tile : Nat) : Nat :=
  let x := getPart s p
  if reg == 0 then x.usedMem else if reg == 1 then x.usedFab else tget (fun _ => 0) x.usedMesh tile

def bwSetUsed (s : Chip) (p reg tile v : Nat) : Chip :=
  modPart s p (fun x =>
    if reg == 0 then { x with usedMem := v }
    else if reg == 1 then { x with usedFab := v }
    else { x with usedMesh := tset (fun _ => 0) tile v x.usedMesh })

/-- Tokens in a bucket (R536). -/
def bwTokens (s : Chip) (p reg tile : Nat) : Nat := bwDepth s p - bwUsed s p reg tile

/-- A charge (R534): taken from the bucket, or the request is held and counted (R537). An unregulated slot
charges nothing (R535); set 16 is no partition. -/
def charge (s : Chip) (p reg tile n : Nat) : Chip :=
  if 16 ≤ p || bwNow s p reg == 0xFFFFFFFF then s
  else if n ≤ bwTokens s p reg tile then bwSetUsed s p reg tile (bwUsed s p reg tile + n)
  else
    let s1 := ctrAdd (fsat s (aBW_STATUS p) 63 32 1) p 163 n
    modPart s1 p (fun x => { x with heldReq := x.heldReq ++ [(reg, tile, n)] })

-- Jobs (R564, R567) ----------------------------------------------------------------------------------------

def getJob (s : Chip) (p : Nat) : Job := tget (fun _ => ({} : Job)) s.fab.jobs p

/-- This device's identifier (R596). -/
def devId (s : Chip) : Nat := fget s aFAB_CTL 63 48

/-- The code that a job slot outside the active state gives a fabric operation (R567): 0 when active. -/
def jobCode (s : Chip) (p : Nat) : Nat :=
  let st := fget s (aFJ_STATUS p) 3 0
  if st == 4 || fbit s (aFJ_CTL p) 3 then 0x3011
  else if st == 3 then 0
  else if st == 5 then 0x3020
  else 0x3012

/-- The rank field and the target part of a fabric address (R565). -/
def faRank (a : Nat) : Nat := bitsOf a 59 48
def faTile (a : Nat) : Bool := bitOf a 47
def faTarget (a : Nat) : Nat := bitsOf a 47 0

/-- A tile-space target has no bits but its tile index and address (R565). -/
def faShape (a : Nat) : Bool := !faTile a || (bitsOf a 46 40 == 0 && bitsOf a 31 22 == 0)

/-- The device identifier and FAR mark of a rank. -/
def rankDev (s : Chip) (p rank : Nat) : Nat × Bool := (getJob s p).devs.getD rank (0xFFFF, false)

/-- Checks of a single-target fabric address at issue (R565, R567, R589): 0 when it may go. -/
def fabCheck (s : Chip) (p a : Nat) : Nat :=
  leastCode [
    jobCode s p,
    if bitsOf a 63 60 != 3 || !faShape a then 0x3023 else 0,
    if (getJob s p).nchips ≤ faRank a then 0x3024 else 0,
    if (rankDev s p (faRank a)).2 && !fbit s aFAB_CTL 1 then 0x3025 else 0]

/-- The link that carries a packet (R572). -/
def fabLink (s : Chip) (src d a : Nat) : Nat :=
  let x := Nat.xor (Nat.xor (src * 65536 + d) (a / 256 % 2 ^ 32)) (a / 2 ^ 40 % 2 ^ 32) % 2 ^ 32
  let k := foldBits 5 7 x 0
  fget s (aFAB_LINKMAP (k / 8)) (8 * (k % 8) + 4) (8 * (k % 8))

-- Requests (R574) ------------------------------------------------------------------------------------------

/-- The bytes of a packet: 32 of header and its data (R582). -/
def packetBytes (r : FReq) : Nat := 32 * max 1 (cdiv r.data.length 256) + r.data.length

/-- The request leaves this device as a packet of its own: a multicast's stream is sent once for all its members
(R585). -/
def ownPacket (s : Chip) (r : FReq) : Bool :=
  r.kind != 0x30 || ((s.fab.ops.find? (fun o => o.id == r.op)).map (fun o => (o.receivers.map (·.1)).head? == some r.rank)).getD true

/-- A packet leaves on its link: counted, and charged at egress (R572, R582, R664). A request to this device uses no
link (R565). -/
def sendPacket (s : Chip) (r : FReq) (l : Nat) : Chip :=
  let n := if ownPacket s r then packetBytes r else 0
  charge (if r.dest == devId s then s else ctrAdd s r.owner.part (64 + l) n) r.owner.part 1 0 n

/-- A request takes its sequence number, its link and its place in the replay store (R574, R575). -/
def fabNumber (s : Chip) (r : FReq) : Chip :=
  let q := tget (fun _ => 0) s.fab.nextSeq r.dest
  let l := fabLink s (devId s) r.dest r.addr
  let r' := { r with seqNo := q, link := l, epoch := fget s aFAB_STATUS 47 40 }
  let s1 := sendPacket s r l
  { s1 with fab := { s1.fab with
      reqs := s1.fab.reqs ++ [r']
      nextSeq := tset (fun _ => 0) r.dest ((q + 1) % 2 ^ 32) s1.fab.nextSeq } }

/-- Room for one more request to a destination (R574); none after an undervoltage (R658). -/
def fabRoom (s : Chip) (dest : Nat) : Bool :=
  !s.boot.undervolt && decide ((s.fab.reqs.filter (fun r => r.dest == dest)).length < 256) && decide (s.fab.reqs.length < 32768)

/-- A request is accepted, or waits at the source behind the limits of R574. -/
def fabAccept (s : Chip) (r : FReq) : Chip :=
  if fabRoom s r.dest && !(s.fab.waiting.any (fun w => w.dest == r.dest)) then fabNumber s r
  else { s with fab := { s.fab with waiting := s.fab.waiting ++ [r] } }

/-- Requests that waited are accepted while there is room (R574). -/
def fabDrain : Nat → Chip → Chip
  | 0, s => s
  | n + 1, s =>
    match s.fab.waiting.find? (fun r => fabRoom s r.dest) with
    | none => s
    | some r => fabDrain n (fabNumber { s with fab := { s.fab with waiting := s.fab.waiting.erase r } } r)

/-- Bulk writes of the Gateway to a rank leave (R589). -/
def gwFlush (s : Chip) (p rank : Nat) : Chip :=
  let mine := s.fab.gathers.filter (fun g => g.part == p && g.rank == rank)
  let s1 := { s with fab := { s.fab with gathers := s.fab.gathers.filter (fun g => !(g.part == p && g.rank == rank)) } }
  forEach mine (fun st g => fabAccept st
    ⟨(rankDev st p rank).1, 0, rank, g.owner, 1, g.addr, 0, 0, g.data, wordMark g.poison, none, 0, 0, 0, none, true, 0⟩) s1

/-- A request to a rank: a FAR destination's gathered stores leave before it (R589). -/
def fabSend (s : Chip) (p rank : Nat) (r : FReq) : Chip :=
  let far := (rankDev s p rank).2
  fabAccept (if far then gwFlush s p rank else s) { r with dest := (rankDev s p rank).1, rank := rank }

/-- A request with the fields that every kind shares. -/
def mkReq (o : FOwner) (kind addr : Nat) (data : List Byte) (marks : Nat) (covered : Bool) : FReq :=
  ⟨0, 0, 0, o, kind, addr, 0, 0, data, marks, none, 0, 0, 0, none, covered, 0⟩

/-- A register waits for a fabric result (R196, R576). -/
def setBusy (s : Chip) (t i code : Nat) (b : Bool) : Chip :=
  modStrand s t i (fun x => { x with busy := tmark x.busy code b })

/-- `fld` (R576, R589): a FAR granule held for the strand serves it, otherwise a request leaves. -/
def fabLoad (s : Chip) (o : FOwner) (rd a : Nat) : Chip :=
  let rank := faRank a
  let tgt := faTarget a
  let far := (rankDev s o.part rank).2
  let gran := tgt - tgt % 256
  match s.fab.granules.find? (fun g => g.owner == o && g.rank == rank && g.addr == gran) with
  | some g => modStrand s o.tile o.strand (fun x => wrS x rd (leNat ((g.data.drop (tgt % 256)).take 8)) (markAt g.poison (tgt % 256)))
  | none =>
    let r := if far then { mkReq o 0 gran [] 0 false with operand := 256, rd := some rd, off := tgt % 256 }
      else { mkReq o 0 tgt [] 0 false with operand := 8, rd := some rd }
    setBusy (fabSend s o.part rank r) o.tile o.strand (codeS rd) (decide (rd ≠ 0))

/-- `fst` (R576, R589): gathered for a FAR rank, at most 4 KiB for each destination. -/
def fabStore (s : Chip) (o : FOwner) (a : Nat) (e : Elem) : Chip :=
  let rank := faRank a
  if (rankDev s o.part rank).2 then
    let s1 := { s with fab := { s.fab with gathers := s.fab.gathers ++ [⟨o.part, rank, o, faTarget a, leBytes 8 e.v, e.pz⟩] } }
    let n : Nat := (s1.fab.gathers.filter (fun g => g.part == o.part && g.rank == rank)).length
    if 512 ≤ n then gwFlush s1 o.part rank else s1
  else fabSend s o.part rank (mkReq o 1 (faTarget a) (leBytes 8 e.v) (wordMark e.pz) true)

/-- `famo` and `fcas` (R576). -/
def fabAtomic (s : Chip) (o : FOwner) (kind rd a operand expect : Nat) (pz : Bool) : Chip :=
  let r := { mkReq o kind (faTarget a) [] (b2n pz) true with operand := operand, expect := expect, rd := some rd }
  setBusy (fabSend s o.part (faRank a) r) o.tile o.strand (codeS rd) (decide (rd ≠ 0))

/-- The Swage windows of the device space (R286). -/
def isWindow (tgt : Nat) : Bool := decide (0x100000000000 ≤ tgt) && decide (tgt < 0x100000200000)

/-- The pieces of a range as (offset, length), cut at 256-byte granules of the target (R572, R582). -/
def pieces (tgt : Nat) : Nat → Nat → Nat → List (Nat × Nat)
  | 0, _, _ => []
  | n + 1, off, len =>
    if len == 0 then []
    else
      let k := min (256 - (tgt + off) % 256) len
      (off, k) :: pieces tgt n (off + k) (len - k)

/-- The pieces of a copy: a command record for a Swage window goes whole (R577). -/
def copyPieces (tgt len : Nat) : List (Nat × Nat) :=
  if isWindow tgt then [(0, len)] else pieces tgt (len / 256 + 2) 0 len

/-- A part of marked words as bytes, and their marks. -/
def wordsPart (ws : List Elem) (off len : Nat) : List Byte × Nat :=
  let w := (ws.drop (off / 8)).take (len / 8)
  (wordsBytes w, wordMarks w)

/-- A new copy, multicast or reduction operation. -/
def newOp (s : Chip) (o : FOp) : Chip × Nat :=
  let id := s.fab.nextOp
  ({ s with fab := { s.fab with nextOp := id + 1, ops := s.fab.ops ++ [{ o with id := id }] } }, id)

/-- `fcopy` put (R577): packets in ascending order; the last one names the remote counter. -/
def fabPut (s : Chip) (o : FOwner) (a laddr len : Nat) (rcnt lcnt : Option Nat) : Chip :=
  let tgt := faTarget a
  let rd := readWords s o.tile (laddr / 8) (len / 8)
  let s0 := ctrBank rd.1 o.tile false (lineCount laddr len)
  let ps := copyPieces tgt len
  let n := newOp s0 ⟨0, o, 0, ps.length, 0, lcnt, laddr, 0, []⟩
  forEach ps (fun st q =>
    let d := wordsPart rd.2 q.1 q.2
    fabSend st o.part (faRank a) { mkReq o 1 (tgt + q.1) d.1 d.2 true with
      op := n.2, off := q.1, cnt := if q.1 + q.2 == len then rcnt else none }) n.1

/-- `fcopy` get (R577). -/
def fabGet (s : Chip) (o : FOwner) (a laddr len : Nat) (lcnt : Option Nat) : Chip :=
  let tgt := faTarget a
  let ps := copyPieces tgt len
  let n := newOp s ⟨0, o, 1, ps.length, 0, lcnt, laddr, 0, []⟩
  forEach ps (fun st q =>
    fabSend st o.part (faRank a) { mkReq o 0 (tgt + q.1) [] 0 false with op := n.2, off := q.1, operand := q.2 }) n.1

/-- `fmcast` (R585): one stream to every member of the group, kept here as one request a member and piece. -/
def fabMcast (s : Chip) (o : FOwner) (a laddr len : Nat) (rcnt lcnt : Option Nat) : Chip :=
  let tgt := faTarget a
  let members := ((getJob s o.part).groups.getD (faRank a) ([], 0)).1
  let rd := readWords s o.tile (laddr / 8) (len / 8)
  let s0 := ctrBank rd.1 o.tile false (lineCount laddr len)
  let ps := copyPieces tgt len
  let n := newOp s0 ⟨0, o, 2, ps.length * members.length, 0, lcnt, laddr, faRank a, members.map (fun m => (m, 0, true))⟩
  forEach ps (fun st q =>
    forEach members (fun st' m =>
      let d := wordsPart rd.2 q.1 q.2
      fabSend st' o.part m { mkReq o 0x30 (tgt + q.1) d.1 d.2 true with
        op := n.2, off := q.1, cnt := if q.1 + q.2 == len then rcnt else none }) st) n.1

/-- Requests of the strand that a fence covers and that are not acknowledged (R578, R584, R589); rank 0xFFFF for
every destination. -/
def fenceOpen (s : Chip) (o : FOwner) (rank : Nat) : Bool :=
  let mine (r : FReq) : Bool := r.owner == o && r.covered && (rank == 0xFFFF || r.rank == rank)
  s.fab.reqs.any mine || s.fab.waiting.any mine ||
    s.fab.gathers.any (fun g => g.owner == o && (rank == 0xFFFF || g.rank == rank)) ||
    s.fab.markers.any (fun m => m.owners.contains o && (rank == 0xFFFF || m.dest == (rankDev s o.part rank).1))

/-- A fence makes the gathered stores that it covers leave, and ends the strand's granules (R589). -/
def fenceStart (s : Chip) (o : FOwner) (rank : Nat) : Chip :=
  let mine := s.fab.gathers.filter (fun g => g.owner == o && (rank == 0xFFFF || g.rank == rank))
  let s1 := forEach mine (fun st g => gwFlush st g.part g.rank) s
  { s1 with fab := { s1.fab with granules := s1.fab.granules.filter (fun g => !(g.owner == o)) } }

end Sys2Proof.Machine
end

