-- ==== Sys2Proof/Machine/Records.lean ====
section
/-! DEFINITION. Partial records in the banks: tag lines and striped arrays (R260, R261). -/

namespace Sys2Proof.Machine

/-- Bytes of an element of a record of a kind (R260). -/
def kindWidth (kind : Nat) : Nat := if kind == 1 then 8 else 4

/-- The address of element j of row i of a striped array (R261). -/
def stripeAddr (d w i j : Nat) : Nat :=
  let e := 64 / w
  let b := (d / 0x18000 + j / e) % 32
  b * 0x18000 + ((d % 0x18000) / 64 + i) * 64 + (j % e) * w

/-- The rows fit: the last row does not pass line 1,535 (R261). -/
def stripeFits (d rows : Nat) : Bool := decide ((d % 0x18000) / 64 + rows ≤ 1536) && decide (d < bankEnd)

/-- A row of `c` elements read from a striped array. -/
def readRow (t d w i : Nat) : Nat → Nat → Chip → Chip × List Elem
  | 0, _, s => (s, [])
  | n + 1, j, s =>
    let a := readSome s t (stripeAddr d w i j) w
    let r := readRow t d w i n (j + 1) a.1
    (r.1, a.2 :: r.2)

/-- `n` rows of `c` elements from row `i` up. -/
def readRows (t d w c : Nat) : Nat → Nat → Chip → Chip × List Elem
  | 0, _, s => (s, [])
  | n + 1, i, s =>
    let a := readRow t d w i c 0 s
    let r := readRows t d w c n (i + 1) (ctrBank a.1 t false (cdiv (c * w) 64))
    (r.1, a.2 ++ r.2)

/-- The elements of one row written word by word: with `fill` the last line is filled with +0 (R261). -/
def writeRow (t d w i : Nat) (fill : Bool) : Nat → Nat → List Elem → Chip → Chip
  | 0, _, _, s => s
  | n + 1, j, l, s =>
    match l with
    | [] =>
      if fill && j % (64 / w) != 0 then
        (if w == 8 then writeRow t d w i fill n (j + 1) [] (writeWord s t (stripeAddr d w i j / 8) ⟨0, false⟩)
        else writeRow t d w i fill n (j + 2) [] (writeWord s t (stripeAddr d w i j / 8) ⟨0, false⟩))
      else s
    | a :: r =>
      if w == 8 then writeRow t d w i fill n (j + 1) r (writeWord s t (stripeAddr d w i j / 8) a)
      else
        match r with
        | b :: r' =>
          writeRow t d w i fill n (j + 2) r'
            (writeWord s t (stripeAddr d w i j / 8) ⟨a.v % 2 ^ 32 + b.v % 2 ^ 32 * 2 ^ 32, a.pz || b.pz⟩)
        | [] =>
          if fill then
            writeRow t d w i fill n (j + 2) [] (writeWord s t (stripeAddr d w i j / 8) ⟨a.v % 2 ^ 32, a.pz⟩)
          else writePart s t (stripeAddr d w i j) 4 a

/-- Rows of `c` elements written from row `i` up. -/
def writeRows (t d w c : Nat) (fill : Bool) : Nat → Nat → List Elem → Chip → Chip
  | 0, _, _, s => s
  | n + 1, i, l, s =>
    let s1 := writeRow t d w i fill (c + 32) 0 (l.take c) s
    writeRows t d w c fill n (i + 1) (l.drop c) (ctrBank s1 t true (cdiv (c * w) 64))

/-- The layout rules of a tag line (R260); `ws` its eight words. -/
def tagLineOk (ws : List Elem) : Bool :=
  let w (k : Nat) : Nat := (ws.getD k ⟨0, false⟩).v
  let kind := (tagOf (w 0)).kind
  let cols := bitsOf (w 1) 31 0
  let lines := bitsOf (w 1) 39 32
  let rows := bitsOf (w 1) 63 48
  let width := kindWidth kind
  !(ws.take 2).any (·.pz) && !(ws.drop 3).any (·.pz) &&
    bitsOf (w 1) 47 41 == 0 && decide (1 ≤ cols) && decide (cols * width ≤ 2048) &&
    lines == cdiv (cols * width) 64 && decide (1 ≤ rows) && decide (rows ≤ 1536) &&
    (kind != 2 || rows == 1) && (kind == 2 || w 2 == 0) && (ws.drop 3).all (·.v == 0)

/-- A record read from the banks: `none` for a malformed tag line or an array that does not fit (0x20A1). -/
def readRec (s : Chip) (t ta da : Nat) : Chip × Option PRec :=
  let h := readWords s t (ta / 8) 8
  let s1 := ctrBank h.1 t false 1
  let w (k : Nat) : Elem := h.2.getD k ⟨0, false⟩
  let tag := tagOf (w 0).v
  let cols := bitsOf (w 1).v 31 0
  let rows := bitsOf (w 1).v 63 48
  let empty := bitOf (w 1).v 40
  if !tagLineOk h.2 then (s1, none)
  else if empty then (s1, some ⟨tag, cols, rows, true, ⟨0, false⟩, ⟨0, false⟩, []⟩)
  else if !stripeFits da rows then (s1, none)
  else
    let r := readRows t da (kindWidth tag.kind) cols rows 0 s1
    (r.1, some ⟨tag, cols, rows, false, ⟨(w 2).v % 2 ^ 32, (w 2).pz⟩, ⟨(w 2).v / 2 ^ 32, (w 2).pz⟩, r.2⟩)

/-- A tag line written (R260). -/
def writeTagLine (s : Chip) (t ta : Nat) (tag : Tag) (cols rows : Nat) (empty : Bool) (m l : Elem) : Chip :=
  let lines := cdiv (cols * kindWidth tag.kind) 64
  ctrBank (writeWords s t (ta / 8) [⟨if empty then 0 else tagBits tag, false⟩,
    ⟨cols + lines * 2 ^ 32 + b2n empty * 2 ^ 40 + rows * 2 ^ 48, false⟩,
    ⟨m.v + l.v * 2 ^ 32, m.pz || l.pz⟩,
    ⟨0, false⟩, ⟨0, false⟩, ⟨0, false⟩, ⟨0, false⟩, ⟨0, false⟩]) t true 1

/-- A whole record written (R260, R261). -/
def writeRec (s : Chip) (t ta da : Nat) (r : PRec) (fill : Bool) : Chip :=
  let s1 := if r.empty then s else writeRows t da (kindWidth r.tag.kind) r.cols fill r.rows 0 r.vals s
  writeTagLine s1 t ta r.tag r.cols r.rows r.empty r.m r.l

/-- A value of `w` bytes, each with its mark. -/
def markedBytes (w : Nat) (e : Elem) : List (Byte × Bool) := (leBytes w e.v).map (fun b => (b, e.pz))

/-- The bytes of a record as a packet carries it, with their marks: the tag line, then the elements row by row (R586). -/
def recBytes (r : PRec) : List (Byte × Bool) :=
  let lines := cdiv (r.cols * kindWidth r.tag.kind) 64
  markedBytes 8 ⟨if r.empty then 0 else tagBits r.tag, false⟩ ++
    markedBytes 8 ⟨r.cols + lines * 2 ^ 32 + b2n r.empty * 2 ^ 40 + r.rows * 2 ^ 48, false⟩ ++
    markedBytes 4 r.m ++ markedBytes 4 r.l ++ markedBytes 40 ⟨0, false⟩ ++ r.vals.flatMap (markedBytes (kindWidth r.tag.kind))

/-- The values of `w` bytes of a packet's data; a value is marked where one of its bytes is. -/
def bytesElems (w : Nat) : Nat → List (Byte × Bool) → List Elem
  | 0, _ => []
  | n + 1, l =>
    if l.isEmpty then [] else ⟨leNat ((l.take w).map (·.1)), (l.take w).any (·.2)⟩ :: bytesElems w n (l.drop w)

/-- A record from the bytes of a packet and the bit map of their marks; `none` when its tag line is malformed. -/
def recOfBytes (bs : List Byte) (marks : Nat) : Option PRec :=
  let l := withMarks bs marks
  let ws := bytesElems 8 8 l
  if !tagLineOk ws then none
  else
    let w (k : Nat) : Nat := (ws.getD k ⟨0, false⟩).v
    let tag := tagOf (w 0)
    let n := bitsOf (w 1) 31 0 * bitsOf (w 1) 63 48
    let ml := bytesElems 4 2 (l.drop 16)
    some ⟨tag, bitsOf (w 1) 31 0, bitsOf (w 1) 63 48, bitOf (w 1) 40, ml.getD 0 ⟨0, false⟩, ml.getD 1 ⟨0, false⟩,
      bytesElems (kindWidth tag.kind) n (l.drop 64)⟩

/-- Elements in each of `n` equal ranges of a record, in whole lines (R587). -/
def sliceLen (r : PRec) (n : Nat) : Nat :=
  let w := kindWidth r.tag.kind
  cdiv (cdiv (r.cols * r.rows * w) 64) (max 1 n) * (64 / w)

/-- Element range `i` of `n` (R587). -/
def sliceOf (r : PRec) (n i : Nat) : PRec := { r with vals := (r.vals.drop (i * sliceLen r n)).take (sliceLen r n) }

/-- The members of a group. -/
def groupRanks (s : Chip) (p g : Nat) : List Nat := ((getJob s p).groups.getD g ([], 0)).1

/-- A record leaves for the reducer of a rank (R586, R587): 0x40 whole, 0x41 a slice to combine, 0x42 a combined
slice. -/
def sendRecord (s : Chip) (o : FOwner) (op phase rank : Nat) (k : RedKey) (h : RedHead) (x : PRec) (covered : Bool) : Chip :=
  fabSend s o.part rank { mkReq o (0x40 + phase) (k.group * 2 ^ 32 + k.seqNo) ((recBytes x).map (·.1)) (marksOf (recBytes x)) covered with
    op := op, operand := k.tile, expect := h.contributor }

/-- `fred` at issue (R586, R587): the record, or its slices, go to the reducers; a receiver waits for its result.
Answers a code that reaches the strand as an asynchronous fault, 0 for none. -/
def fabReduce (s : Chip) (o : FOwner) (sliced : Bool) (cnt stag sdata group dtag ddata dgroup seqNo : Nat) : Chip × Nat :=
  let r := readRec s o.tile stag sdata
  match r.2 with
  | none => (r.1, 0x20A1)
  | some x =>
    let own := (getJob s o.part).rank
    let from' := groupRanks s o.part group
    let dg := if dgroup == 0xFFF then group else dgroup
    let dest := groupRanks s o.part dg
    let tile := (logOf s o.tile).getD 0
    let h : RedHead := ⟨(from'.findIdx? (· == own)).getD 0, dg, cnt, dtag, ddata⟩
    let key : RedKey := ⟨o.part, group, seqNo, tile, if sliced then 1 else 0⟩
    let w : List RWait := if sliced || dest.contains own then [⟨o, group, seqNo, tile, h⟩] else []
    let s1 := { r.1 with fab := { r.1.fab with rwaits := r.1.fab.rwaits ++ w } }
    let ranks := if sliced then from' else dest
    let n := newOp s1 ⟨0, o, 3, ranks.length, 0, none, 0, group, []⟩
    (forEach (List.range ranks.length) (fun st i =>
      sendRecord st o n.2 key.phase (ranks.getD i 0) key h (if sliced then sliceOf x ranks.length i else x) true) n.1, 0)

end Sys2Proof.Machine
end

