-- ==== Sys2Proof/Machine/Bundle.lean ====
section
/-! DEFINITION. The bundle: what one slot of it does, its precise faults, its waits and its issue
(R189 to R201, R224, R227). -/

namespace Sys2Proof.Machine

/-- Where control goes after a bundle (R198 to R201, R187, R231). -/
inductive Ctl where
  | fall
  | jump (target : Nat)
  | enter (r : LoopRec)
  | skip (len : Nat)
  | halt
  | rfe
  deriving DecidableEq, Repr

/-- What one slot of a bundle does. Operands are read when the record is formed, before any slot writes (R195). -/
structure SlotRec where
  slot : Nat
  /-- the predicate lets the slot execute, and its poison mark (R191, R224) -/
  on : Bool
  pz : Bool
  /-- the encoding is legal (R193) -/
  legal : Bool
  /-- registers that the slot names as destinations (R195) -/
  dests : List Nat := []
  /-- registers that its fault checks read (R227) -/
  checks : List Nat := []
  /-- registers that it reads or writes (R196) -/
  uses : List Nat := []
  /-- precise faults beside those of the encoding: code and address -/
  faults : List (Nat × Nat) := []
  wait : Option Wait := none
  /-- it reads or writes the strand's banks (R172) -/
  bank : Bool := false
  /-- the queue in which it takes an entry (R239) -/
  queue : Option Nat := none
  ctl : Ctl := .fall
  /-- what the slot sets off before it waits: a fence sends the gathered stores that it covers (R589) -/
  start : Chip → Chip := id
  eff : Chip → Chip := id

/-- A slot with no operand: its predicate and the slots that accept it (R190, R191). -/
def slotOf (x : Strand) (site : Site) (slots : List Nat) (legal : Bool) : SlotRec :=
  { slot := site.slot, on := rdP x site.pr != site.pn, pz := rdPm x site.pr,
    legal := slots.contains site.slot && legal }

/-- A fault when a condition holds. -/
def faultIf (c : Bool) (code addr : Nat) : List (Nat × Nat) := if c then [(code, addr)] else []

-- Precise faults (R227) ------------------------------------------------------------------------------------

/-- The highest slot that names a register another slot also names; s0 and p0 are never written (R195). -/
def clash (rs : List SlotRec) : Option Nat :=
  (rs.filter (fun r => r.dests.any (fun d => d != codeS 0 && d != codeP 0 &&
    rs.any (fun q => decide (q.slot < r.slot) && q.dests.contains d)))).foldl
      (fun m r => match m with
        | none => some r.slot
        | some k => some (max k r.slot)) none

/-- Every precise fault of a bundle: code, slot, address. -/
def bundleFaults (rs : List SlotRec) : List (Nat × Nat × Nat) :=
  (rs.filter (fun r => !r.legal)).map (fun r => (0x2090, r.slot, 0)) ++
  (match clash rs with
    | some k => [(0x2092, k, 0)]
    | none => []) ++
  (rs.filter (·.pz)).map (fun r => (0x2093, r.slot, 0)) ++
  (rs.filter (fun r => r.on && !r.pz)).flatMap (fun r => r.faults.map (fun f => (f.1, r.slot, f.2)))

/-- The fault with the lowest code (R27), the first of equals. -/
def lowestFault : List (Nat × Nat × Nat) → Option (Nat × Nat × Nat)
  | [] => none
  | f :: r =>
    match lowestFault r with
    | none => some f
    | some g => if g.1 < f.1 then some g else some f

-- Control (R198 to R201) -----------------------------------------------------------------------------------

/-- The body of a loop holds a bundle index. -/
def loopHolds (l : LoopRec) (pc : Nat) : Bool := decide (l.start ≤ pc) && decide (pc < l.start + l.len)

/-- The step beyond bundle `pc`: the end of a body goes back to its first bundle or leaves the loop (R200). -/
def fallFrom (pc : Nat) : List LoopRec → Nat × List LoopRec
  | [] => (pc + 1, [])
  | l :: r =>
    if pc + 1 == l.start + l.len then
      (if 1 < l.left then (l.start, { l with left := l.left - 1, first := false } :: r) else fallFrom pc r)
    else (pc + 1, l :: r)

/-- A jump leaves every loop whose body does not hold its target, innermost first (R200). -/
def jumpTo (target : Nat) : List LoopRec → List LoopRec
  | [] => []
  | l :: r => if loopHolds l target then l :: r else jumpTo target r

/-- The strand after its bundle has issued: program counter, loop stack, handler state. -/
def advance (c : Ctl) (x : Strand) : Strand :=
  let y := { x with slots := [], wait := none, timedOut := false }
  match c with
  | .fall => let n := fallFrom x.pc x.loops; { y with pc := n.1, loops := n.2 }
  | .jump a => { y with pc := a, loops := jumpTo a x.loops }
  | .enter l => { y with pc := x.pc + 1, loops := l :: x.loops }
  | .skip len => let n := fallFrom (x.pc + len) x.loops; { y with pc := n.1, loops := n.2 }
  | .halt => { y with halted := true }
  | .rfe => { y with pc := x.fpc.toNat, loops := jumpTo x.fpc.toNat x.loops, handler := false }

/-- The strand goes on; a cached loop that it leaves gives up the loop cache (R154). -/
def retire (s : Chip) (t i : Nat) (c : Ctl) : Chip :=
  let x := getStrand s t i
  let y := advance c x
  let s1 := setStrand s t i y
  if x.loops.any (·.cached) && !y.loops.any (·.cached) then freeLoopCache s1 t i else s1

-- Issue (R194) ---------------------------------------------------------------------------------------------

/-- The slots in ascending order. -/
def inOrder (rs : List SlotRec) : List SlotRec :=
  [0, 1, 2, 3].filterMap (fun k => rs.find? (fun r => r.slot == k))

/-- The control of slot 0. -/
def ctlOf : List SlotRec → Ctl
  | [] => .fall
  | r :: l => if r.ctl == .fall then ctlOf l else r.ctl

/-- The entries of each engine queue (R239). -/
def queueCap (q : Nat) : Nat := if q == 4 then 16 else 8

/-- The operations in an engine queue. -/
def queueLen (x : Tile) (q : Nat) : Nat :=
  if q == 0 then x.qMat.length
  else if q == 1 then x.qBank.length
  else if q == 2 then x.qFul.length
  else if q == 3 then x.qComb.length
  else x.qMov.length

/-- A queue that the bundle's slots would overfill. -/
def fullQueue (x : Tile) (rs : List SlotRec) : Option Nat :=
  [0, 1, 2, 3, 4].find? (fun q =>
    let n := (rs.filter (fun r => r.queue == some q)).length
    decide (0 < n) && decide (queueCap q < queueLen x q + n))

/-- The wait that holds a bundle: bank, then the waits of its slots, then a full queue. -/
def bundleWait (s : Chip) (t : Nat) (rs : List SlotRec) : Option Wait :=
  if rs.any (·.bank) && !(fbit s (aTILE_STATUS t) 0 && fbit s (aTILE_STATUS t) 2) then some ⟨.bank, 0⟩
  else
    match rs.findSome? (·.wait) with
    | some w => some w
    | none => (fullQueue (getTile s t) rs).map (fun q => ⟨.queue, q⟩)

/-- The strand waits; none of its slots has an effect (R194). -/
def waitOn (s : Chip) (t i : Nat) (w : Wait) : Chip := modStrand s t i (fun x => { x with wait := some w })

/-- Some register of a list has a pending write (R196). -/
def anyBusy (x : Strand) (l : List Nat) : Bool := l.any (fun r => tmem x.busy r)

/-- The effects of a bundle's executing slots, in slot order (R202). -/
def runSlots (s : Chip) (rs : List SlotRec) : Chip := rs.foldl (fun st r => r.eff st) s

/-- What the slots set off before any wait. -/
def startSlots (s : Chip) (rs : List SlotRec) : Chip := rs.foldl (fun st r => r.start st) s

/-- A bundle whose slots are `all`: it faults, waits, or issues (R194 to R197, R227). -/
def issue (s : Chip) (t i : Nat) (all : List SlotRec) : Chip :=
  let x := getStrand s t i
  let rs := all.filter (fun r => r.on && !r.pz)
  if anyBusy x (rs.flatMap (·.checks)) then waitOn s t i ⟨.interlock, 0⟩
  else
    match lowestFault (bundleFaults all) with
    | some f => takeFault s t i f.1 0x04 f.2.1 f.2.2
    | none =>
      if anyBusy x (rs.flatMap (·.uses)) then waitOn s t i ⟨.interlock, 0⟩
      else
        match bundleWait s t rs with
        | some w => waitOn (startSlots s rs) t i w
        | none => retire (runSlots (startSlots s rs) rs) t i (ctlOf rs)

/-- The pending asynchronous fault with the lowest code (R228). -/
def lowestPend : List AFault → Option AFault
  | [] => none
  | f :: r =>
    match lowestPend r with
    | none => some f
    | some g => if g.code < f.code then some g else some f

/-- A strand takes its lowest pending fault; the others are dropped (R228). -/
def takePending (s : Chip) (t i : Nat) (f : AFault) : Chip :=
  takeFault (modStrand s t i (fun x => { x with pend := [] })) t i f.code f.unit 0xFF f.addr

/-- The bundle comes from the loop cache: a cached body after its first run, while the strand owns the cache, which a
fault of it invalidates (R154). -/
def fromCache (x : Strand) (own : Bool) : Bool :=
  match x.loops with
  | l :: _ => own && l.cached && !l.first && loopHolds l x.pc
  | [] => false

/-- The bundle's line is in the fetch buffer or the loop cache (R158). -/
def fetched (x : Strand) (y : Tile) (own : Bool) : Bool := fromCache x own || y.fetch.contains (x.pc / 4)

/-- A word of the bundle is stored poisoned (R224). -/
def bundlePoison (x : Strand) (y : Tile) (own : Bool) : Bool :=
  !fromCache x own && (tmem y.pz (2 * x.pc) || tmem y.pz (2 * x.pc + 1))

end Sys2Proof.Machine
end

