-- ==== Sys2Proof/Machine/TongsControl.lean ====
section
/-! DEFINITION. Slot 0: control flow, waits, arrival counters, special registers (R198 to R215, R245; rows
20 to 38 of the table, but for the two events of waits). -/

namespace Sys2Proof.Machine

/-- A slot that reads s register `ra` for a check, with the poison fault of R224. -/
def checkS (x : Strand) (ra : Nat) (r : SlotRec) : SlotRec :=
  { r with checks := codeS ra :: r.checks, uses := codeS ra :: r.uses,
           faults := r.faults ++ faultIf (rdSm x ra) 0x2093 0 }

/-- The first bundle index beyond the banks (R199). -/
def bundleEnd : Nat := 196608

/-- A slot that jumps: an index out of range faults (R199). -/
def jumpSlot (a : Int) (r : SlotRec) : SlotRec :=
  { r with faults := r.faults ++ faultIf (decide (a < 0) || decide ((bundleEnd : Int) ≤ a)) 0x2098 0,
           ctl := .jump a.toNat }

def recNop (x : Strand) (site : Site) : SlotRec := slotOf x site [0, 1, 2, 3] true

/-- The target of `br` and `call` (R199). -/
def target (x : Strand) (off : Nat) : Int := (x.pc : Int) + signed 21 off

def recBr (x : Strand) (site : Site) (off : Nat) : SlotRec := jumpSlot (target x off) (slotOf x site [0] true)

def recCall (t i : Nat) (x : Strand) (site : Site) (off : Nat) : SlotRec :=
  jumpSlot (target x off) { slotOf x site [0] true with
    dests := [codeS 31], uses := [codeS 31]
    eff := fun s => modStrand s t i (fun y => wrS y 31 (x.pc + 1) false) }

def recJr (x : Strand) (site : Site) (f : FmtR3) : SlotRec :=
  let r := checkS x f.ra (slotOf x site [0] (f.rd == 0 && f.rb == 0 && f.fn == 0))
  if rdSm x f.ra then r else jumpSlot (rdS x f.ra) r

/-- The strand runs inside a cached body (R201). -/
def inCached (x : Strand) : Bool :=
  match x.loops with
  | l :: _ => l.cached && loopHolds l x.pc
  | [] => false

/-- What `loop` and `loopc` share (R200, R201). -/
def loopSlot (x : Strand) (site : Site) (ra len : Nat) (cached : Bool) : SlotRec :=
  let n := rdS x ra % 2 ^ 16
  let r := checkS x ra (slotOf x site [0] true)
  { r with
    faults := r.faults ++ faultIf (len == 0) 0x2091 0 ++
      faultIf (decide (2 ≤ x.loops.length) || inCached x || (cached && decide (64 < len))) 0x2099 0
    ctl := if n == 0 then .skip len else .enter ⟨x.pc + 1, len, n, cached, true⟩ }

def recLoop (x : Strand) (site : Site) (ra len : Nat) : SlotRec := loopSlot x site ra len false

def recLoopc (s : Chip) (t i : Nat) (x : Strand) (site : Site) (ra len : Nat) : SlotRec :=
  let r := loopSlot x site ra len true
  let enters := rdS x ra % 2 ^ 16 != 0
  let owner := (getTile s t).lcOwner
  { r with
    wait := if enters && owner != none && owner != some i then some ⟨.loopCache, 0⟩ else none
    eff := fun st => if enters then modTile st t (fun y => { y with lcOwner := some i }) else st }

def recHalt (x : Strand) (site : Site) : SlotRec := { slotOf x site [0] true with ctl := .halt }

def recRfe (x : Strand) (site : Site) : SlotRec :=
  { slotOf x site [0] true with
    faults := faultIf (decide (bundleEnd ≤ x.fpc.toNat)) 0x2098 0, ctl := .rfe }

/-- Accesses of a strand are performed as its bundles issue, so `sync` finds nothing to wait for (R205). -/
def recSync (x : Strand) (site : Site) : SlotRec := slotOf x site [0] true

/-- A counter is at or below the low 32 bits of a register (R212). -/
def acReached (s : Chip) (t n thr : Nat) : Bool := decide (acGet s t n ≤ signed 32 thr)

def recWait (s : Chip) (t : Nat) (x : Strand) (site : Site) (f : FmtW) : SlotRec :=
  { checkS x f.ra (slotOf x site [0] (f.pd == 0 && f.fn == 0)) with
    wait := if acReached s t f.n (rdS x f.ra) then none else some ⟨.counter, f.n⟩ }

def recWaitT (s : Chip) (t i : Nat) (x : Strand) (site : Site) (f : FmtW) : SlotRec :=
  let r0 := slotOf x site [0] (f.fn == 0)
  let hit := acReached s t f.n (rdS x f.ra)
  let late := x.timedOut || rdS x (f.ra + 1) == 0
  if pairOk f.ra then
    { checkS x (f.ra + 1) (checkS x f.ra r0) with
      dests := [codeP f.pd]
      wait := if hit || late then none else some ⟨.counter, f.n⟩
      eff := fun st => modStrand st t i (fun y => wrP y f.pd hit false) }
  else { r0 with dests := [codeP f.pd], faults := [(0x2091, 0)] }

def recAcadd (t : Nat) (x : Strand) (site : Site) (f : FmtW) : SlotRec :=
  { checkS x f.ra (slotOf x site [0] (f.pd == 0 && f.fn == 0)) with
    eff := fun st => acAdd st t f.n (signed 32 (rdS x f.ra)) }

def recAcset (t : Nat) (x : Strand) (site : Site) (f : FmtW) : SlotRec :=
  { checkS x f.ra (slotOf x site [0] (f.pd == 0 && f.fn == 0)) with
    eff := fun st => acSet st t f.n (signed 32 (rdS x f.ra)) }

/-- A feature bit of ID_ISA that is 0 (R236, R243). -/
def noFeature (s : Chip) (b : Nat) : Bool := !(barGet s 0x20).testBit b

def recWward (s : Chip) (t i : Nat) (x : Strand) (site : Site) (f : FmtW) : SlotRec :=
  let st := fget s (aFJ_STATUS (tilePart s t)) 3 0
  { slotOf x site [0] (f.n == 0 && f.ra == 0 && f.fn == 0) with
    dests := [codeP f.pd]
    faults := faultIf (noFeature s 5) 0x209A 0
    wait := if st == 2 then some ⟨.ward, 0⟩ else none
    eff := fun s' => modStrand s' t i (fun y => wrP y f.pd (st == 3) false) }

/-- The owner of a strand's fabric requests. -/
def strandOwner (s : Chip) (t i : Nat) : FOwner := ⟨tilePart s t, t, i⟩

def recWfence (s : Chip) (t i : Nat) (x : Strand) (site : Site) (f : FmtW) : SlotRec :=
  let o := strandOwner s t i
  let rank := if f.fn == 1 then min (rdS x f.ra) 0xFFFE else 0xFFFF
  let r0 := slotOf x site [0] (f.n == 0 && decide (f.fn ≤ 1))
  let r := if f.fn == 1 then checkS x f.ra r0 else r0
  { r with
    dests := [codeP f.pd]
    faults := r.faults ++ faultIf (noFeature s 5) 0x209A 0
    wait := if fenceOpen s o rank then some ⟨.fence, 0⟩ else none
    start := fun s' => fenceStart s' o rank
    eff := fun s' => modStrand s' t i (fun y =>
      wrP y f.pd (y.fenceFail.all (fun k => rank != 0xFFFF && k != rank)) false) }

def recMfsr (s : Chip) (t i : Nat) (x : Strand) (site : Site) (f : FmtRI) : SlotRec :=
  let v := (specialReg s t i f.imm).getD 0
  { slotOf x site [0] (f.ra == 0) with
    dests := [codeS f.rd], uses := [codeS f.rd]
    eff := fun st => modStrand st t i (fun y => wrS y f.rd v false) }

def recMtsr (t i : Nat) (x : Strand) (site : Site) (f : FmtRI) : SlotRec :=
  let r := checkS x f.ra (slotOf x site [0] (f.rd == 0))
  { r with
    dests := [codeX f.imm]
    faults := r.faults ++ faultIf (!specialRW f.imm) 0x209D 0
    eff := fun st => modStrand st t i (fun y => writeSpecial y f.imm (rdS x f.ra)) }

end Sys2Proof.Machine
end

