-- ==== Sys2Proof/Machine/TongsScalar.lean ====
section
/-! DEFINITION. Slots 0 and 1: scalar arithmetic, compares, scalar memory, tile atomics and the random-number
generator (R246 to R249; rows 39 to 55 of the table). -/

namespace Sys2Proof.Machine

/-- A result register of a strand written, with PZ for a marked result (R104, R246). -/
def putS (t i rd v : Nat) (pz : Bool) (s : Chip) : Chip :=
  raiseFlags (modStrand s t i (fun y => wrS y rd (if pz then 0 else v) pz)) t i (flIf pz flPZ)

/-- A slot that reads s registers and writes one, with its value (R246). -/
def scalarSlot (t i : Nat) (x : Strand) (site : Site) (legal : Bool) (rd : Nat) (srcs : List Nat) (v : Nat) : SlotRec :=
  { slotOf x site [0, 1] legal with
    dests := [codeS rd], uses := codeS rd :: srcs.map codeS
    eff := putS t i rd v (srcs.any (rdSm x)) }

/-- The scalar operations of opcode 0x20 (R246). -/
def scalarOp (fn a b : Nat) : Nat :=
  match fn with
  | 0x00 => (a + b) % 2 ^ 64
  | 0x01 => (a + 2 ^ 64 - b) % 2 ^ 64
  | 0x02 => Nat.land a b
  | 0x03 => Nat.lor a b
  | 0x04 => Nat.xor a b
  | 0x05 => (a <<< (b % 64)) % 2 ^ 64
  | 0x06 => a >>> (b % 64)
  | 0x07 => u64 (signed 64 a / ((2 ^ (b % 64) : Nat) : Int))
  | 0x08 => (a * b) % 2 ^ 64
  | 0x09 => u64 (signed 64 a * signed 64 b / ((2 ^ 64 : Nat) : Int))
  | 0x0A => a * b / 2 ^ 64
  | 0x0B => if signed 64 a ≤ signed 64 b then a else b
  | 0x0C => if signed 64 a ≤ signed 64 b then b else a
  | 0x0D => min a b
  | _ => max a b

/-- R3 scalar arithmetic: fn within the row's range. -/
def aluSlot (t i : Nat) (x : Strand) (site : Site) (lo hi : Nat) (f : FmtR3) : SlotRec :=
  scalarSlot t i x site (decide (lo ≤ f.fn) && decide (f.fn ≤ hi)) f.rd [f.ra, f.rb] (scalarOp f.fn (rdS x f.ra) (rdS x f.rb))

def recScalarAlu (t i : Nat) (x : Strand) (site : Site) (f : FmtR3) : SlotRec := aluSlot t i x site 0 4 f
def recScalarShift (t i : Nat) (x : Strand) (site : Site) (f : FmtR3) : SlotRec := aluSlot t i x site 5 7 f
def recScalarMul (t i : Nat) (x : Strand) (site : Site) (f : FmtR3) : SlotRec := aluSlot t i x site 8 8 f
def recScalarMulh (t i : Nat) (x : Strand) (site : Site) (f : FmtR3) : SlotRec := aluSlot t i x site 9 10 f
def recScalarMinmax (t i : Nat) (x : Strand) (site : Site) (f : FmtR3) : SlotRec := aluSlot t i x site 11 14 f

/-- The operation of opcodes 0x21 to 0x27 as an fn of opcode 0x20 (R246). -/
def immFn (op : Nat) : Nat :=
  match op with
  | 0x21 => 0x00
  | 0x22 => 0x02
  | 0x23 => 0x03
  | 0x24 => 0x04
  | 0x25 => 0x05
  | 0x26 => 0x06
  | _ => 0x07

def recScalarAluImm (t i : Nat) (x : Strand) (site : Site) (op : Nat) (f : FmtRI) : SlotRec :=
  scalarSlot t i x site (decide (0x21 ≤ op) && decide (op ≤ 0x24)) f.rd [f.ra]
    (scalarOp (immFn op) (rdS x f.ra) (u64 (imm11 f)))

def recScalarShiftImm (t i : Nat) (x : Strand) (site : Site) (op : Nat) (f : FmtRI) : SlotRec :=
  { scalarSlot t i x site (decide (0x25 ≤ op) && decide (op ≤ 0x27)) f.rd [f.ra]
      (scalarOp (immFn op) (rdS x f.ra) f.imm) with
    faults := faultIf (decide (63 < f.imm)) 0x2091 0 }

def recLi (t i : Nat) (x : Strand) (site : Site) (f : FmtRW) : SlotRec :=
  scalarSlot t i x site true f.rd [] (u64 (signed 16 f.imm))

def recIns16 (t i : Nat) (x : Strand) (site : Site) (f : FmtRW) : SlotRec :=
  scalarSlot t i x site true f.rd [f.rd] ((rdS x f.rd * 2 ^ 16 + f.imm % 2 ^ 16) % 2 ^ 64)

-- Predicates -----------------------------------------------------------------------------------------------

/-- A 5-bit field that names a predicate has its upper two bits 0 (R181). -/
def predBad (l : List Nat) : List (Nat × Nat) := faultIf (l.any (fun p => decide (8 ≤ p))) 0x2091 0

/-- A predicate written, with PZ for a marked one. -/
def putP (t i pd : Nat) (b pz : Bool) (s : Chip) : Chip :=
  raiseFlags (modStrand s t i (fun y => wrP y pd (b && !pz) pz)) t i (flIf pz flPZ)

/-- pand, por, pxor, pandn (R246). -/
def predOp (fn : Nat) (a b : Bool) : Bool :=
  match fn with
  | 0 => a && b
  | 1 => a || b
  | 2 => a != b
  | _ => a && !b

def recPredicateLogic (t i : Nat) (x : Strand) (site : Site) (f : FmtR3) : SlotRec :=
  { slotOf x site [0, 1] (decide (f.fn ≤ 3)) with
    dests := [codeP f.rd]
    faults := predBad [f.rd, f.ra, f.rb]
    eff := putP t i f.rd (predOp f.fn (rdP x f.ra) (rdP x f.rb)) (rdPm x f.ra || rdPm x f.rb) }

/-- The relations of `cmp` (R246). -/
def cmpRel (fn a b : Nat) : Bool :=
  match fn with
  | 0 => a == b
  | 1 => a != b
  | 2 => decide (signed 64 a < signed 64 b)
  | 3 => decide (signed 64 b ≤ signed 64 a)
  | 4 => decide (a < b)
  | _ => decide (b ≤ a)

def recCmp (t i : Nat) (x : Strand) (site : Site) (f : FmtR3) : SlotRec :=
  { slotOf x site [0, 1] (decide (f.fn ≤ 5)) with
    dests := [codeP f.rd], uses := [codeS f.ra, codeS f.rb]
    faults := predBad [f.rd]
    eff := putP t i f.rd (cmpRel f.fn (rdS x f.ra) (rdS x f.rb)) (rdSm x f.ra || rdSm x f.rb) }

/-- ceqi, clti and cltui as relations of `cmp`. -/
def immRel (op : Nat) : Nat := if op == 0x2D then 0 else if op == 0x2E then 2 else 4

def recCmpImm (t i : Nat) (x : Strand) (site : Site) (op : Nat) (f : FmtRI) : SlotRec :=
  { slotOf x site [0, 1] (decide (0x2D ≤ op) && decide (op ≤ 0x2F)) with
    dests := [codeP f.rd], uses := [codeS f.ra]
    faults := predBad [f.rd]
    eff := putP t i f.rd (cmpRel (immRel op) (rdS x f.ra) (u64 (imm11 f))) (rdSm x f.ra) }

-- Scalar memory and atomics --------------------------------------------------------------------------------

/-- The faults of an access of `n` bytes, aligned to `al`: a poisoned address is not judged further
(R207, R224). -/
def accessFaults (pz : Bool) (a n al : Nat) : List (Nat × Nat) :=
  if pz then [(0x2093, 0)]
  else faultIf (a % al != 0) 0x2082 (a % 2 ^ 22) ++ faultIf (!inBanks a n) 0x2080 (a % 2 ^ 22)

/-- The pane slots that streams give to addresses (R161, R369): some pane that is not whole is touched. -/
def paneTouched (st : Stream) (a n : Nat) : Bool :=
  st.on && (List.range 5).any (fun j =>
    let p := st.released + (j + 5 - st.released % 5) % 5
    let b := st.base + j * st.pane
    decide (p < st.panes) && decide (st.whole ≤ p) && decide (a < b + st.pane) && decide (b < a + n))

/-- The stream whose pane an access must wait for (R369). -/
def paneWait (y : Tile) (l : List (Nat × Nat)) : Option Wait :=
  ((List.range 8).find? (fun k => let st := tget (fun _ => ({} : Stream)) y.streams k
    l.any (fun a => paneTouched st a.1 a.2))).map (fun k => ⟨.pane, k⟩)

/-- A store to a stream's release word releases every pane up to the stored number (R369): the store covered
`n` bytes at `a`. -/
def releasePanes (s : Chip) (t a n : Nat) : Chip :=
  forEach (List.range 8) (fun st k =>
    let y := getTile st t
    let q := tget (fun _ => ({} : Stream)) y.streams k
    let v := cellWord y (q.relw / 8)
    if q.on && decide (a < q.relw + 8) && decide (q.relw < a + n) && decide (q.released < v + 1) then
      setTile st t { y with
        streams := tset (fun _ => ({} : Stream)) k { q with released := min (v + 1) q.panes } y.streams }
    else st) s

/-- The bytes of a scalar load or store (R247). -/
def accessSize (op : Nat) : Nat :=
  match op with
  | 0x40 => 1 | 0x44 => 1 | 0x48 => 1
  | 0x41 => 2 | 0x45 => 2 | 0x49 => 2
  | 0x42 => 4 | 0x46 => 4 | 0x4A => 4
  | _ => 8

/-- The value of a load in its register: ldbs, ldhs and ldws extend the sign (R247). -/
def extended (op v : Nat) : Nat := if 0x44 ≤ op then u64 (signed (8 * accessSize op) v) else v

def recScalarLoad (s : Chip) (t i : Nat) (x : Strand) (site : Site) (op : Nat) (f : FmtRI) : SlotRec :=
  let n := accessSize op
  let a := addrRI x f n
  { slotOf x site [1] (decide (0x40 ≤ op) && decide (op ≤ 0x46)) with
    dests := [codeS f.rd], checks := [codeS f.ra], uses := [codeS f.ra, codeS f.rd], bank := true
    faults := accessFaults (rdSm x f.ra) a n n
    wait := paneWait (getTile s t) [(a, n)]
    eff := fun st =>
      let r := readSome st t a n
      modStrand (ctrBank r.1 t false 1) t i (fun y => wrS y f.rd (extended op r.2.v) r.2.pz) }

def recScalarStore (s : Chip) (t : Nat) (x : Strand) (site : Site) (op : Nat) (f : FmtRI) : SlotRec :=
  let n := accessSize op
  let a := addrRI x f n
  { slotOf x site [1] (decide (0x48 ≤ op) && decide (op ≤ 0x4B)) with
    checks := [codeS f.ra], uses := [codeS f.ra, codeS f.rd], bank := true
    faults := accessFaults (rdSm x f.ra) a n n
    wait := paneWait (getTile s t) [(a, n)]
    eff := fun st => releasePanes (ctrBank (writeSome st t a n ⟨rdS x f.rd % 2 ^ (8 * n), rdSm x f.rd⟩) t true 1) t a n }

/-- The operations of `amo` and `famo` (R248). -/
def amoOp (fn old b : Nat) : Nat :=
  match fn with
  | 0x00 => b
  | 0x01 => (old + b) % 2 ^ 64
  | 0x02 => Nat.land old b
  | 0x03 => Nat.lor old b
  | 0x04 => Nat.xor old b
  | 0x05 => if signed 64 old ≤ signed 64 b then old else b
  | 0x06 => if signed 64 old ≤ signed 64 b then b else old
  | 0x07 => min old b
  | _ => max old b

/-- What `amo` writes: poison of either operand spreads, but a swap writes rb as it is (R248). -/
def amoElem (fn : Nat) (old b : Elem) : Elem :=
  if fn == 0 then b
  else let pz := old.pz || b.pz; ⟨if pz then 0 else amoOp fn old.v b.v, pz⟩

def recAmo (s : Chip) (t i : Nat) (x : Strand) (site : Site) (f : FmtR3) : SlotRec :=
  let a := rdS x f.ra
  { slotOf x site [1] (decide (f.fn ≤ 8)) with
    dests := [codeS f.rd], checks := [codeS f.ra], uses := [codeS f.ra, codeS f.rb, codeS f.rd], bank := true
    faults := accessFaults (rdSm x f.ra) a 8 8
    wait := paneWait (getTile s t) [(a, 8)]
    eff := fun st =>
      let r := readWord st t (a / 8)
      let st1 := writeWord r.1 t (a / 8) (amoElem f.fn r.2 ⟨rdS x f.rb, rdSm x f.rb⟩)
      putS t i f.rd r.2.v r.2.pz (releasePanes (ctrBank (ctrBank st1 t false 1) t true 1) t a 8) }

def recCas (s : Chip) (t i : Nat) (x : Strand) (site : Site) (f : FmtR3) : SlotRec :=
  let a := rdS x f.ra
  { slotOf x site [1] (f.fn == 0) with
    dests := [codeS f.rd], checks := [codeS f.ra, codeS f.rd], uses := [codeS f.ra, codeS f.rb, codeS f.rd], bank := true
    faults := accessFaults (rdSm x f.ra) a 8 8 ++ faultIf (rdSm x f.rd) 0x2093 0
    wait := paneWait (getTile s t) [(a, 8)]
    eff := fun st =>
      let r := readWord st t (a / 8)
      let st1 := if !r.2.pz && r.2.v == rdS x f.rd then
          ctrBank (writeWord r.1 t (a / 8) ⟨rdS x f.rb, rdSm x f.rb⟩) t true 1
        else r.1
      putS t i f.rd r.2.v r.2.pz (releasePanes (ctrBank st1 t false 1) t a 8) }

-- Random numbers -------------------------------------------------------------------------------------------

/-- One round of the generator of R249 on 64-bit values. -/
def rngRound (x y : Word) : Word :=
  let a := y + x
  let b := (a ^^^ (a >>> 30)) * 0x9F4C2D83E1A56B17#64
  let c := (b ^^^ (b >>> 27)) * 0xC5A308D61F29E74B#64
  c ^^^ (c >>> 31)

/-- The counter-based generator of R249. -/
def rngValue (seed stream ctr : Word) : Word :=
  let x := seed ^^^ (stream * 0xB7E151628AED2A6B#64)
  rngRound x (rngRound x (rngRound x (rngRound x ctr)))

/-- The generator on numbers. -/
def rngNat (seed stream ctr : Nat) : Nat :=
  (rngValue (BitVec.ofNat 64 seed) (BitVec.ofNat 64 stream) (BitVec.ofNat 64 ctr)).toNat

def recRng (t i : Nat) (x : Strand) (site : Site) (f : FmtR3) : SlotRec :=
  { slotOf x site [1] (f.fn == 0) with
    dests := [codeS f.rd], uses := [codeS f.ra, codeS (f.ra + 1), codeS f.rb, codeS f.rd]
    faults := faultIf (!pairOk f.ra) 0x2091 0
    eff := putS t i f.rd (rngNat (rdS x f.ra) (rdS x (f.ra + 1)) (rdS x f.rb))
      (rdSm x f.ra || rdSm x (f.ra + 1) || rdSm x f.rb) }

end Sys2Proof.Machine
end

