-- ==== Sys2Proof/Machine/TongsVector.lean ====
section
/-! DEFINITION. Slots 2 and 3: vector arithmetic, conversions, vector memory and moves (R249 to R257; rows 56
to 79 of the table). -/

namespace Sys2Proof.Machine

/-- A vector result: bits, lane marks, and the flags of each element. -/
structure VRes where
  v : Nat
  m : Nat
  fl : List Nat

/-- A v register written with the flags that its elements raised (R183, R250). -/
def putV (t i rd : Nat) (r : VRes) (s : Chip) : Chip :=
  noteEvents (raiseFlags (modStrand s t i (fun y => wrV y rd r.v r.m)) t i (allFlags r.fl)) 0 (countFlag flSA r.fl)

/-- Elements of width `w`, each with its mark, as bits and marks of the 64-bit lanes. -/
def packMarked (w : Nat) (l : List Elem) (fl : List Nat) : VRes :=
  let m := (List.range l.length).foldl (fun a j => if (l.getD j ⟨0, false⟩).pz then Nat.lor a (2 ^ (w * j / 64)) else a) 0
  ⟨packLanes w (l.map (·.v)), m, fl⟩

/-- An elementwise operation at width `w`: elements of a marked lane get `pv`, a mark and PZ (R104, R250). -/
def vecMap (w m pv : Nat) (g : Nat → Nat × Nat) : VRes :=
  let l := (List.range (2048 / w)).map (fun j => if laneMark w m j then (pv, flPZ) else g j)
  ⟨packLanes w (l.map (·.1)), m, l.map (·.2)⟩

/-- A vector slot in R3 format of slots 2 and 3: destination and sources are v registers. -/
def vecSlot (t i : Nat) (x : Strand) (site : Site) (slots : List Nat) (legal : Bool) (rd : Nat) (srcs : List Nat)
    (r : VRes) : SlotRec :=
  { slotOf x site slots legal with
    dests := [codeV rd], uses := codeV rd :: srcs.map codeV, eff := putV t i rd r }

/-- An FP32 operation on two v registers (R250). -/
def vecBin (t i : Nat) (x : Strand) (site : Site) (legal : Bool) (f : FmtR3) (g : Nat → Nat → Nat × Nat) : SlotRec :=
  vecSlot t i x site [2, 3] legal f.rd [f.ra, f.rb]
    (vecMap 32 (Nat.lor (rdVm x f.ra) (rdVm x f.rb)) poisonF32 (fun j => g (lane 32 (rdV x f.ra) j) (lane 32 (rdV x f.rb) j)))

def recVfadd (t i : Nat) (x : Strand) (site : Site) (op : Nat) (f : FmtR3) : SlotRec :=
  vecBin t i x site (decide (0x20 ≤ op) && decide (op ≤ 0x22) && f.fn == 0) f
    (if op == 0x20 then fAdd else if op == 0x21 then fSub else fMul)

def recVfma (t i : Nat) (x : Strand) (site : Site) (f : FmtR3) : SlotRec :=
  vecSlot t i x site [2, 3] (f.fn == 0) f.rd [f.ra, f.rb, f.rd]
    (vecMap 32 (Nat.lor (Nat.lor (rdVm x f.ra) (rdVm x f.rb)) (rdVm x f.rd)) poisonF32
      (fun j => fFma (lane 32 (rdV x f.ra) j) (lane 32 (rdV x f.rb) j) (lane 32 (rdV x f.rd) j)))

def recVfminmax (t i : Nat) (x : Strand) (site : Site) (op : Nat) (f : FmtR3) : SlotRec :=
  vecBin t i x site ((op == 0x24 || op == 0x25) && f.fn == 0) f (fMinMax (op == 0x25))

/-- The unary functions of `vfun` (R250). A NaN leaves them canonical (R70). -/
def vfunOp (fn a : Nat) : Nat × Nat :=
  match fn with
  | 0 => fRcp a
  | 1 => fRsqrt a
  | 2 => fExp2 a
  | 3 => fLog2 a
  | 4 => if ofF32 a == .nan then (nanF32, 0) else (a % 2 ^ 31, 0)
  | _ => if ofF32 a == .nan then (nanF32, 0) else (Nat.xor a (2 ^ 31), 0)

def recVfun (t i : Nat) (x : Strand) (site : Site) (f : FmtR3) : SlotRec :=
  vecSlot t i x site [2, 3] (f.rb == 0 && decide (f.fn ≤ 5)) f.rd [f.ra]
    (vecMap 32 (rdVm x f.ra) poisonF32 (fun j => vfunOp f.fn (lane 32 (rdV x f.ra) j)))

/-- The relations of `vfcmp` (R250). -/
def vfcmpOp (fn a b : Nat) : Nat :=
  let va := ofF32 a
  let vb := ofF32 b
  let un := va == .nan || vb == .nan
  let c : Bool := match fn with
    | 0 => !un && fvEq va vb
    | 1 => !un && fvLt va vb
    | 2 => !un && (fvLt va vb || fvEq va vb)
    | _ => un
  if c then 0xFFFFFFFF else 0

/-- `vfcmp` sets no flag (R250). -/
def recVfcmp (t i : Nat) (x : Strand) (site : Site) (f : FmtR3) : SlotRec :=
  let r := vecMap 32 (Nat.lor (rdVm x f.ra) (rdVm x f.rb)) poisonF32
    (fun j => (vfcmpOp f.fn (lane 32 (rdV x f.ra) j) (lane 32 (rdV x f.rb) j), 0))
  vecSlot t i x site [2, 3] (decide (f.fn ≤ 3)) f.rd [f.ra, f.rb] { r with fl := [] }

/-- `vsel` is bitwise, so a marked lane reads 0 (R104). -/
def recVsel (t i : Nat) (x : Strand) (site : Site) (f : FmtR3) : SlotRec :=
  vecSlot t i x site [2, 3] (f.fn == 0) f.rd [f.ra, f.rb, f.rd]
    (vecMap 64 (Nat.lor (Nat.lor (rdVm x f.ra) (rdVm x f.rb)) (rdVm x f.rd)) 0
      (fun j =>
        let d := lane 64 (rdV x f.rd) j
        (Nat.lor (Nat.land d (lane 64 (rdV x f.ra) j)) (Nat.land (2 ^ 64 - 1 - d) (lane 64 (rdV x f.rb) j)), 0)))

/-- A signed sum or difference at width `w`: clamped with `sat`, else wrapped; either sets SA (R88, R254). -/
def intLimit (w : Nat) (sat : Bool) (v : Int) : Nat × Nat :=
  let lo : Int := - ((2 ^ (w - 1) : Nat) : Int)
  let hi : Int := ((2 ^ (w - 1) : Nat) : Int) - 1
  if lo ≤ v ∧ v ≤ hi then (wrap w v, 0)
  else (if sat then wrap w (max lo (min hi v)) else wrap w v, flSA)

/-- The operations of `vint` on elements of width `w` (R254). -/
def vintOp (w op a b : Nat) : Nat × Nat :=
  let sa := signed w a
  let sb := signed w b
  match op with
  | 0x0 => intLimit w false (sa + sb)
  | 0x1 => intLimit w true (sa + sb)
  | 0x2 => intLimit w false (sa - sb)
  | 0x3 => intLimit w true (sa - sb)
  | 0x4 => (Nat.land a b, 0)
  | 0x5 => (Nat.lor a b, 0)
  | 0x6 => (Nat.xor a b, 0)
  | 0x7 => ((a <<< (b % w)) % 2 ^ w, 0)
  | 0x8 => (a >>> (b % w), 0)
  | 0x9 => (wrap w (sa / ((2 ^ (b % w) : Nat) : Int)), 0)
  | 0xA => (if sa ≤ sb then a else b, 0)
  | 0xB => (if sa ≤ sb then b else a, 0)
  | 0xC => (min a b, 0)
  | 0xD => (max a b, 0)
  | 0xE => (if a == b then 2 ^ w - 1 else 0, 0)
  | _ => (if sa < sb then 2 ^ w - 1 else 0, 0)

def recVint (t i : Nat) (x : Strand) (site : Site) (f : FmtR3) : SlotRec :=
  let w := 8 * 2 ^ (f.fn / 16)
  vecSlot t i x site [2, 3] (decide (f.fn < 64)) f.rd [f.ra, f.rb]
    (vecMap w (Nat.lor (rdVm x f.ra) (rdVm x f.rb)) 0
      (fun j => vintOp w (f.fn % 16) (lane w (rdV x f.ra) j) (lane w (rdV x f.rb) j)))

-- Conversions (R252) ---------------------------------------------------------------------------------------

/-- One FP32 value to a format that `vcvt` names (R72, R74). -/
def cvtTo (c : Nat) (sat : Bool) (a : Nat) : Nat × Nat :=
  if c == 0 then let r := f32ToInt (-128) 127 a; (wrap 8 r.1, r.2)
  else if c == 0xE then let r := f32ToInt (-2147483648) 2147483647 a; (wrap 32 r.1, r.2)
  else encodeF ((elemFmt c).getD fFP32) sat (ofF32 a)

/-- The poison value of an element of a format (R104). -/
def poisonOf (c : Nat) : Nat := if c == 9 then poisonF32 else if c == 8 then poisonBF16 else 0

def recVcvt (t i : Nat) (x : Strand) (site : Site) (f : FmtR3) : SlotRec :=
  let c := f.fn % 16
  let sat := f.fn / 16 == 1
  let l := (List.range 64).map (fun j =>
    if laneMark 32 (rdVm x f.ra) j then ((⟨poisonOf c, true⟩ : Elem), flPZ)
    else let r := cvtTo c sat (lane 32 (rdV x f.ra) j); (⟨r.1, false⟩, r.2))
  vecSlot t i x site [2, 3]
    (f.rb == 0 && [0, 1, 2, 8, 9, 0xE].contains c && (f.fn < 16 || (sat && (c == 1 || c == 2)))) f.rd [f.ra]
    (packMarked (elemBits c) (l.map (·.1)) (l.map (·.2)))

/-- Some 64-bit lane that bits `lo` to `lo + n − 1` touch is marked. -/
def bitsMarked (m lo n : Nat) : Bool := m.testBit (lo / 64) || m.testBit ((lo + n - 1) / 64)

/-- One source element of `vcvtf`: the lowest bit of its place, and its value. -/
def cvtFrom (c v m j : Nat) : Elem × Nat :=
  let w := elemBits c
  if isMX c then
    let blk := 8 + 32 * w
    let base := (j / 32) * blk
    let lo := base + 8 + (j % 32) * w
    if m.testBit (base / 64) || bitsMarked m base 8 || bitsMarked m lo w then (⟨poisonF32, true⟩, flPZ)
    else let r := toF32 (mxElem c (v >>> base % 256) ((v >>> lo) % 2 ^ w)); (⟨r.1, false⟩, r.2)
  else if laneMark w m j then (⟨poisonF32, true⟩, flPZ)
  else
    let e := lane w v j
    let r := if c == 0 then intToF32 (signed 8 e)
      else if c == 0xE then intToF32 (signed 32 e)
      else toF32 (decodeF ((elemFmt c).getD fFP32) e)
    (⟨r.1, false⟩, r.2)

def recVcvtf (t i : Nat) (x : Strand) (site : Site) (f : FmtR3) : SlotRec :=
  let l := (List.range 64).map (cvtFrom f.fn (rdV x f.ra) (rdVm x f.ra))
  vecSlot t i x site [2, 3] (f.rb == 0 && (decide (f.fn ≤ 9) || f.fn == 0xE)) f.rd [f.ra]
    (packMarked 32 (l.map (·.1)) (l.map (·.2)))

/-- One block of `vmxq`: its bytes as a number, and the flags; a marked lane marks the whole block (R104). -/
def mxBlock (c v m k : Nat) : Nat × Bool × List Nat :=
  let js := (List.range 32).map (fun j => 32 * k + j)
  if js.any (laneMark 32 m) then (0, true, [flPZ])
  else
    let q := mxQuant c (js.map (fun j => ofF32 (lane 32 v j)))
    (q.1 + 256 * packLanes (elemBits c) q.2.1, false, q.2.2)

/-- The marks of the 64-bit lanes that `n` bits from bit `lo` touch. -/
def markBits (lo n : Nat) : Nat :=
  (List.range 32).foldl (fun a l => if lo < 64 * (l + 1) ∧ 64 * l < lo + n then a + 2 ^ l else a) 0

def recVmxq (t i : Nat) (x : Strand) (site : Site) (f : FmtR3) : SlotRec :=
  let c := f.fn
  let n := 8 + 32 * elemBits c
  let a := mxBlock c (rdV x f.ra) (rdVm x f.ra) 0
  let b := mxBlock c (rdV x f.ra) (rdVm x f.ra) 1
  let m := Nat.lor (if a.2.1 then markBits 0 n else 0) (if b.2.1 then markBits n n else 0)
  vecSlot t i x site [2, 3] (f.rb == 0 && decide (3 ≤ c) && decide (c ≤ 7)) f.rd [f.ra]
    ⟨a.1 + 2 ^ n * b.1, m, a.2.2 ++ b.2.2⟩

/-- One level of a canonical tree over any operation. -/
def foldLevel (g : Elem → Elem → Elem × Nat) : List Elem → List Elem × Nat
  | a :: b :: r =>
    let s := g a b
    let t := foldLevel g r
    (s.1 :: t.1, flOr s.2 t.2)
  | l => (l, 0)

/-- The canonical tree of 64 lanes over any operation (R91, R253). -/
def foldTree (g : Elem → Elem → Elem × Nat) : Nat → List Elem → Nat → Elem × Nat
  | 0, l, fl => (l.headD ⟨0, false⟩, fl)
  | n + 1, l, fl => let t := foldLevel g l; foldTree g n t.1 (flOr fl t.2)

def recVfsum (t i : Nat) (x : Strand) (site : Site) (f : FmtR3) : SlotRec :=
  let l := (List.range 64).map (fun j => (⟨lane 32 (rdV x f.ra) j, laneMark 32 (rdVm x f.ra) j⟩ : Elem))
  let g := if f.fn == 0 then eBin fAdd else eBin (fMinMax (f.fn == 1))
  let r := foldTree g 6 l 0
  vecSlot t i x site [2, 3] (f.rb == 0 && decide (f.fn ≤ 2)) f.rd [f.ra] ⟨r.1.v, b2n r.1.pz, [r.2]⟩

def recVrng (t i : Nat) (x : Strand) (site : Site) (f : FmtR3) : SlotRec :=
  let pz := rdSm x f.ra || rdSm x (f.ra + 1) || rdSm x f.rb
  let g (j : Nat) : Nat := rngNat (rdS x f.ra) (rdS x (f.ra + 1)) ((rdS x f.rb + j) % 2 ^ 64)
  let m := if pz then 2 ^ 32 - 1 else 0
  { slotOf x site [2] (decide (f.fn ≤ 1)) with
    dests := [codeV f.rd], uses := [codeS f.ra, codeS (f.ra + 1), codeS f.rb, codeV f.rd]
    faults := faultIf (!pairOk f.ra) 0x2091 0
    eff := putV t i f.rd (if f.fn == 0 then vecMap 64 m 0 (fun j => (g j, 0))
      else vecMap 32 m poisonF32 (fun j =>
        let y := g (j / 2)
        toF32 (.fin false (if j % 2 == 0 then bitsOf y 63 40 else bitsOf y 31 8) (-24)))) }

-- Vector memory (R255) -------------------------------------------------------------------------------------

def recVld (s : Chip) (t i : Nat) (x : Strand) (site : Site) (f : FmtRI) : SlotRec :=
  let a := addrRI x f 64
  { slotOf x site [2] true with
    dests := [codeV f.rd], checks := [codeS f.ra], uses := [codeS f.ra, codeV f.rd], bank := true
    faults := accessFaults (rdSm x f.ra) a 256 64
    wait := paneWait (getTile s t) [(a, 256)]
    eff := fun st =>
      let r := readWords st t (a / 8) 32
      let v := packMarked 64 r.2 []
      modStrand (ctrBank r.1 t false 4) t i (fun y => wrV y f.rd v.v v.m) }

/-- The words of a v register with their marks (R225). -/
def vecWords (v m : Nat) : List Elem :=
  (List.range 32).map (fun j => (⟨if m.testBit j then 0 else lane 64 v j, m.testBit j⟩ : Elem))

def recVst (s : Chip) (t : Nat) (x : Strand) (site : Site) (f : FmtRI) : SlotRec :=
  let a := addrRI x f 64
  { slotOf x site [2] true with
    checks := [codeS f.ra], uses := [codeS f.ra, codeV f.rd], bank := true
    faults := accessFaults (rdSm x f.ra) a 256 64
    wait := paneWait (getTile s t) [(a, 256)]
    eff := fun st =>
      releasePanes (ctrBank (writeWords st t (a / 8) (vecWords (rdV x f.rd) (rdVm x f.rd))) t true 4) t a 256 }

/-- The addresses of a strided access (R255). -/
def strideAddrs (x : Strand) (f : FmtR3) : List Nat :=
  (List.range (2048 / (8 * 2 ^ f.fn))).map (fun j => (rdS x f.ra + j * rdS x f.rb) % 2 ^ 64)

/-- The first faults of a strided access. -/
def strideFaults (x : Strand) (f : FmtR3) : List (Nat × Nat) :=
  if rdSm x f.ra || rdSm x f.rb then [(0x2093, 0)]
  else (strideAddrs x f).flatMap (fun a => accessFaults false a (2 ^ f.fn) (2 ^ f.fn))

/-- Distinct lines among addresses. -/
def linesOf (l : List Nat) : Nat := (l.map (· / 64)).eraseDups.length

/-- Elements of `n` bytes read one after another. -/
def readEach (t n : Nat) : List Nat → Chip → Chip × List Elem
  | [], s => (s, [])
  | a :: r, s =>
    let e := readSome s t a n
    let q := readEach t n r e.1
    (q.1, e.2 :: q.2)

/-- Elements of `n` bytes written one after another. -/
def writeEach (t n : Nat) : List (Nat × Elem) → Chip → Chip
  | [], s => s
  | (a, e) :: r, s => writeEach t n r (writeSome s t a n e)

def recVlds (s : Chip) (t i : Nat) (x : Strand) (site : Site) (f : FmtR3) : SlotRec :=
  let n := 2 ^ f.fn
  let l := strideAddrs x f
  { slotOf x site [2] (decide (f.fn ≤ 3)) with
    dests := [codeV f.rd], checks := [codeS f.ra, codeS f.rb], uses := [codeS f.ra, codeS f.rb, codeV f.rd], bank := true
    faults := strideFaults x f
    wait := paneWait (getTile s t) (l.map (fun a => (a, n)))
    eff := fun st =>
      let r := readEach t n l st
      let v := packMarked (8 * n) r.2 []
      modStrand (ctrBank r.1 t false (linesOf l)) t i (fun y => wrV y f.rd v.v v.m) }

def recVsts (s : Chip) (t : Nat) (x : Strand) (site : Site) (f : FmtR3) : SlotRec :=
  let n := 2 ^ f.fn
  let l := strideAddrs x f
  let es := (List.range l.length).map (fun j =>
    (⟨if laneMark (8 * n) (rdVm x f.rd) j then 0 else lane (8 * n) (rdV x f.rd) j, laneMark (8 * n) (rdVm x f.rd) j⟩ : Elem))
  { slotOf x site [2] (decide (f.fn ≤ 3)) with
    checks := [codeS f.ra, codeS f.rb], uses := [codeS f.ra, codeS f.rb, codeV f.rd], bank := true
    faults := strideFaults x f
    wait := paneWait (getTile s t) (l.map (fun a => (a, n)))
    eff := fun st => forEach l (fun q a => releasePanes q t a n)
      (ctrBank (writeEach t n (l.zip es) st) t true (linesOf l)) }

-- Moves (R256, R257) ---------------------------------------------------------------------------------------

/-- PZ when a moved operand is marked. -/
def pzIf (c : Bool) : List Nat := if c then [flPZ] else []

def recMvsv (t i : Nat) (x : Strand) (site : Site) (f : FmtR3) : SlotRec :=
  let j := rdS x f.rb % 32
  let all := rdSm x f.rb
  let v := setBits (rdV x f.rd) (64 * j + 63) (64 * j) (rdS x f.ra)
  let m := if all then 2 ^ 32 - 1 else setBits (rdVm x f.rd) j j (b2n (rdSm x f.ra))
  { slotOf x site [2] (f.fn == 0x00) with
    dests := [codeV f.rd], uses := [codeS f.ra, codeS f.rb, codeV f.rd]
    eff := putV t i f.rd ⟨if all then 0 else v, m, pzIf (all || rdSm x f.ra)⟩ }

def recMvvs (t i : Nat) (x : Strand) (site : Site) (f : FmtR3) : SlotRec :=
  let j := rdS x f.rb % 32
  { slotOf x site [2] (f.fn == 0x01) with
    dests := [codeS f.rd], uses := [codeV f.ra, codeS f.rb, codeS f.rd]
    eff := putS t i f.rd (lane 64 (rdV x f.ra) j) ((rdVm x f.ra).testBit j || rdSm x f.rb) }

def recVbc (t i : Nat) (x : Strand) (site : Site) (f : FmtR3) : SlotRec :=
  let w := 2 ^ (8 - f.fn)
  let pz := rdSm x f.ra
  { slotOf x site [2] (decide (2 ≤ f.fn) && decide (f.fn ≤ 5) && f.rb == 0) with
    dests := [codeV f.rd], uses := [codeS f.ra, codeV f.rd]
    eff := putV t i f.rd (vecMap w (if pz then 2 ^ 32 - 1 else 0) 0 (fun _ => (rdS x f.ra % 2 ^ w, 0))) }

def recVcopy (t i : Nat) (x : Strand) (site : Site) (f : FmtR3) : SlotRec :=
  vecSlot t i x site [2] (f.fn == 0x06 && f.rb == 0) f.rd [f.ra]
    ⟨rdV x f.ra, rdVm x f.ra, pzIf (rdVm x f.ra != 0)⟩

/-- An operation that enters a queue (R239). -/
def enqueue (t q : Nat) (o : EngOp) (s : Chip) : Chip :=
  modTile s t (fun y =>
    if q == 0 then { y with qMat := y.qMat ++ [o] }
    else if q == 1 then { y with qBank := y.qBank ++ [o] }
    else if q == 2 then { y with qFul := y.qFul ++ [o] }
    else if q == 3 then { y with qComb := y.qComb ++ [o] }
    else { y with qMov := y.qMov ++ [o] })

/-- A c register field names c0 to c15 (R181). -/
def cBad (c : Nat) : List (Nat × Nat) := faultIf (decide (16 ≤ c)) 0x2091 0

/-- `mvcv`: its result reaches vd when the Fuller queue has come to it (R256), so vd has a pending write. -/
def recMvcv (s : Chip) (t i : Nat) (x : Strand) (site : Site) (f : FmtR3) : SlotRec :=
  { slotOf x site [2] (f.fn == 0x08 && f.rb == 0) with
    dests := [codeV f.rd], uses := [codeV f.rd]
    faults := cBad f.ra ++ faultIf (noFeature s 3) 0x209A 0
    queue := some 2
    eff := fun st => setBusy (enqueue t 2 { kind := .mvcv, strand := i, w := [f.rd, f.ra] } st) t i (codeV f.rd) true }

def recMvvc (s : Chip) (t i : Nat) (x : Strand) (site : Site) (f : FmtR3) : SlotRec :=
  { slotOf x site [2] (f.fn == 0x09 && f.rb == 0) with
    uses := [codeV f.ra]
    faults := cBad f.rd ++ faultIf (noFeature s 3) 0x209A 0
    queue := some 2
    eff := enqueue t 2 { kind := .mvvc, strand := i, w := [f.rd], vdat := rdV x f.ra % 2 ^ 1024, vpz := rdVm x f.ra % 2 ^ 16 } }

/-- `cld` and `cst` (R257). -/
def cMove (s : Chip) (t i : Nat) (x : Strand) (site : Site) (f : FmtRI) (k : EngKind) : SlotRec :=
  let a := addrRI x f 128
  { slotOf x site [2] true with
    checks := [codeS f.ra], uses := [codeS f.ra]
    faults := cBad f.rd ++ faultIf (noFeature s 3) 0x209A 0 ++ accessFaults (rdSm x f.ra) a 128 128
    queue := some 2
    eff := enqueue t 2 { kind := k, strand := i, w := [f.rd, a] } }

def recCld (s : Chip) (t i : Nat) (x : Strand) (site : Site) (f : FmtRI) : SlotRec := cMove s t i x site f .cld
def recCst (s : Chip) (t i : Nat) (x : Strand) (site : Site) (f : FmtRI) : SlotRec := cMove s t i x site f .cst

end Sys2Proof.Machine
end

