-- ==== Sys2Proof/Machine/TongsEngine.lean ====
section
/-! DEFINITION. Slots 1 to 3: issue of engine, combine, mover and tap operations and of `send`
(R216, R217, R240, R258 to R281). -/

namespace Sys2Proof.Machine

/-- Descriptor registers read at issue: the pair rule, poison, then the descriptor's own checks (R224, R238, R240). -/
def descFaults (x : Strand) (pairs : List Nat) (regs : List Nat) (own : List (Nat × Nat)) : List (Nat × Nat) :=
  if pairs.all pairOk then (if regs.any (rdSm x) then [(0x2093, 0)] else own) else [(0x2091, 0)]

/-- A slot that enters a queue with its descriptor words (R239, R240). -/
def engSlot (t i : Nat) (x : Strand) (site : Site) (slots : List Nat) (legal : Bool) (pairs regs : List Nat)
    (pre own : List (Nat × Nat)) (q : Nat) (k : EngKind) (kc mode : Nat) : SlotRec :=
  let codes := regs.map codeS
  { slotOf x site slots legal with
    checks := codes, uses := codes
    faults := pre ++ descFaults x pairs regs own
    queue := some q
    eff := enqueue t q { kind := k, strand := i, w := regs.map (rdS x), kc := kc, mode := mode } }

/-- A malformed descriptor (R240). -/
def malformed (ok : Bool) : List (Nat × Nat) := faultIf (!ok) 0x20A0 0

/-- A line-aligned tile-local address with `n` bytes in the banks. -/
def lineRange (a n : Nat) : Bool := a % 64 == 0 && inBanks a n

-- Bankside queue -------------------------------------------------------------------------------------------

/-- The descriptor of `xld` (R258). -/
def xldOk (a b : Nat) : Bool :=
  let len := bitsOf a 44 32
  let area := if bitOf a 52 then 128 else 4096
  onlyFields a [(63, 58), (57, 53), (52, 52), (44, 32), (21, 0)] && onlyFields b [(11, 0)] &&
    decide (bitsOf a 57 53 ≤ 23) && len % 8 == 0 && decide (8 ≤ len) && decide (len ≤ area) &&
    bitsOf a 21 0 % 8 == 0 && inBanks (bitsOf a 21 0) len && b % 8 == 0 && decide (bitsOf b 11 0 + len ≤ area)

def recXld (s : Chip) (t i : Nat) (x : Strand) (site : Site) (f : FmtD) : SlotRec :=
  engSlot t i x site [2] (f.fn == 0) [] [f.sa, f.sb] (faultIf (noFeature s 2) 0x209A 0)
    (malformed (xldOk (rdS x f.sa) (rdS x f.sb))) 1 .xld 0 0

/-- Lines of one stripe, scale line included (R132). -/
def stripeLines (c : Nat) : Nat := (if elemBits c == 4 then 16 else if elemBits c == 6 then 24 else 32) + b2n (isMX c)

/-- The descriptor of `bmv` (R270). -/
def bmvOk (a b : Nat) : Bool :=
  let mask := bitsOf b 23 0
  let rows := bitsOf a 49 46 + 1
  let stripes := rows * (1 + bitsOf a 45 45)
  onlyFields a [(63, 58), (57, 54), (53, 50), (49, 46), (45, 45), (16, 0)] && onlyFields b [(55, 32), (23, 0)] &&
    mask != 0 && Nat.land (bitsOf b 55 32) mask == bitsOf b 55 32 && bitsOf a 16 0 % 64 == 0 &&
    decide (bitsOf a 16 0 / 64 + stripes * stripeLines (bitsOf a 57 54) ≤ 1536)

def recBmv (s : Chip) (t i : Nat) (x : Strand) (site : Site) (f : FmtE) : SlotRec :=
  engSlot t i x site [3] (f.kc == 0 && f.mode == 0) [f.da] [f.da, f.da + 1, f.db] (faultIf (noFeature s 2) 0x209A 0)
    (malformed (bmvOk (rdS x f.da) (rdS x (f.da + 1)))) 1 .bmv 0 0

/-- The descriptor of `kst` and `kld` (R273, R274). -/
def kstOk (a : Nat) : Bool :=
  let ta := bitsOf a 43 22
  let d := bitsOf a 16 0
  onlyFields a [(63, 58), (43, 22), (16, 0)] && lineRange ta 64 && d % 64 == 0 && decide (d < 0x18000) &&
    (ta % 0x18000) / 64 != d / 64

/-- `kst` and `kld` (R273, R274): a field that names k24 to k31 is an illegal operand (R181). -/
def kMove (s : Chip) (t i : Nat) (x : Strand) (site : Site) (f : FmtE) (legal : Bool) (k : EngKind) : SlotRec :=
  engSlot t i x site [2] (f.db == 0 && legal) [] [f.da]
    (faultIf (decide (24 ≤ f.kc)) 0x2091 0 ++ faultIf (noFeature s 2) 0x209A 0)
    (malformed (kstOk (rdS x f.da))) 1 k f.kc f.mode

def recKst (s : Chip) (t i : Nat) (x : Strand) (site : Site) (f : FmtE) : SlotRec :=
  kMove s t i x site f (decide (f.mode ≤ 1)) .kst

def recKld (s : Chip) (t i : Nat) (x : Strand) (site : Site) (f : FmtE) : SlotRec :=
  kMove s t i x site f (f.mode == 0) .kld

-- Combine queue --------------------------------------------------------------------------------------------

/-- A tag line and a data address of a partial record. -/
def recAddrOk (ta da : Nat) : Bool := lineRange ta 64 && lineRange da 64

/-- The descriptor of `pcomb` and `amerge` (R262, R263). -/
def pcombOk (a b d : Nat) : Bool :=
  onlyFields a [(63, 58), (43, 22), (21, 0)] && onlyFields b [(43, 22), (21, 0)] && onlyFields d [(43, 22), (21, 0)] &&
    recAddrOk (bitsOf a 43 22) (bitsOf a 21 0) && recAddrOk (bitsOf b 43 22) (bitsOf b 21 0) &&
    recAddrOk (bitsOf d 43 22) (bitsOf d 21 0)

def combSlot (t i : Nat) (x : Strand) (site : Site) (f : FmtE) (k : EngKind) : SlotRec :=
  engSlot t i x site [2] (f.kc == 0 && f.mode == 0) [f.da] [f.da, f.da + 1, f.db] []
    (malformed (pcombOk (rdS x f.da) (rdS x (f.da + 1)) (rdS x f.db))) 3 k 0 0

def recPcomb (t i : Nat) (x : Strand) (site : Site) (f : FmtE) : SlotRec := combSlot t i x site f .pcomb
def recAmerge (t i : Nat) (x : Strand) (site : Site) (f : FmtE) : SlotRec := combSlot t i x site f .amerge

def recAfinal (t i : Nat) (x : Strand) (site : Site) (f : FmtE) : SlotRec :=
  let a := rdS x f.da
  let b := rdS x f.db
  engSlot t i x site [2] (f.kc == 0 && f.mode == 0) [] [f.da, f.db] []
    (malformed (onlyFields a [(63, 58), (43, 22), (21, 0)] && onlyFields b [(21, 0)] &&
      recAddrOk (bitsOf a 43 22) (bitsOf a 21 0) && lineRange (bitsOf b 21 0) 4)) 3 .afinal 0 0

-- Matrix queue ---------------------------------------------------------------------------------------------

/-- Lines of one row of K elements of an operand (R265). -/
def operandLines (c k : Nat) : Nat := cdiv (k * elemBits c) 512 + (if isMX c then cdiv k 2048 else 0)

/-- The descriptor of `mm` (R264). -/
def mmOk (a b d mode : Nat) : Bool :=
  let m := bitsOf a 49 43 + 1
  let n := bitsOf a 42 36 + 1
  let k := bitsOf a 35 24 + 1
  let top := if mode.testBit 5 then 128 else 64
  onlyFields a [(63, 58), (57, 54), (53, 50), (49, 43), (42, 36), (35, 24), (21, 0)] &&
    onlyFields b [(43, 22), (21, 0)] && onlyFields d [(21, 0)] && decide (m ≤ top) && decide (n ≤ top) &&
    lineRange (bitsOf a 21 0) (64 * m * operandLines (bitsOf a 57 54) k) &&
    lineRange (bitsOf b 43 22) (64 * n * operandLines (bitsOf a 53 50) k) &&
    (!mode.testBit 1 || (lineRange (bitsOf b 21 0) 64 && stripeFits (bitsOf b 21 0) m && lineRange (bitsOf d 21 0) 64))

def recMm (s : Chip) (t i : Nat) (x : Strand) (site : Site) (f : FmtE) : SlotRec :=
  engSlot t i x site [3] (f.kc == 0 && f.mode % 2 == 0 && (!f.mode.testBit 5 || bitsOf f.mode 4 3 == 0))
    [f.da, f.db] [f.da, f.da + 1, f.db, f.db + 1] (faultIf (noFeature s 1) 0x209A 0)
    (malformed (mmOk (rdS x f.da) (rdS x (f.da + 1)) (rdS x (f.db + 1)) f.mode)) 0 .mm 0 f.mode

/-- The descriptor of `mew` (R269). -/
def mewOk (a b mode : Nat) : Bool :=
  onlyFields a [(63, 58), (47, 46), (43, 22), (21, 0)] && onlyFields b [(22, 22), (21, 0)] &&
    decide (bitsOf a 47 46 ≤ 2) && bitsOf a 43 22 % 4 == 0 && bitsOf a 21 0 % 4 == 0 &&
    (decide (8 ≤ mode) || inBanks (bitsOf a 21 0) 4) && (mode != 2 || inBanks (bitsOf a 43 22) 4) &&
    (!bitOf b 22 || lineRange (bitsOf b 21 0) 64)

def recMew (s : Chip) (t i : Nat) (x : Strand) (site : Site) (f : FmtE) : SlotRec :=
  engSlot t i x site [3] (bitsOf f.kc 3 2 == 0 && (decide (f.mode ≤ 4) || (decide (8 ≤ f.mode) && decide (f.mode ≤ 0xB))))
    [] [f.da, f.db] (faultIf (noFeature s 1) 0x209A 0) (malformed (mewOk (rdS x f.da) (rdS x f.db) f.mode)) 0 .mew f.kc f.mode

-- Fuller queue ---------------------------------------------------------------------------------------------

/-- A sample stream of `n` samples lies in its banks (R275). -/
def streamOk (a n : Nat) : Bool := lineRange a 64 && decide ((a % 0x18000) / 64 + cdiv n 32 ≤ 1536)

/-- Which parts of the Fuller descriptor an operation uses (R276, R277). -/
structure FulUse where
  shift : Bool
  count : Bool
  taps : Bool
  l : Bool
  a : Bool
  b : Bool
  d : Bool
  c : Bool
  e : Bool
  stage : Bool

/-- Fields that an operation does not use are 0; the others are in range (R276, R278). -/
def fulOk (u : FulUse) (fr4 : Bool) (mode a b d : Nat) : Bool :=
  let n := bitsOf a 52 40 + 1
  let sp := 2 ^ bitsOf a 34 31
  let taps := bitsOf a 39 35 + 1
  onlyFields a [(63, 58), (57, 53), (52, 40), (39, 35), (34, 31), (21, 0)] && onlyFields b [(43, 22), (21, 0)] &&
    onlyFields d [(43, 22), (21, 0)] &&
    (u.shift || bitsOf a 57 53 == 0) && (u.count || bitsOf a 52 40 == 0) && (u.taps || bitsOf a 39 35 == 0) &&
    (u.l || bitsOf a 34 31 == 0) &&
    (if u.a then streamOk (bitsOf a 21 0) (n + (if u.taps then taps - 1 else 0)) else bitsOf a 21 0 == 0) &&
    (if u.b then streamOk (bitsOf b 43 22) (if u.stage then (if fr4 then 3 * sp else sp) else n) else bitsOf b 43 22 == 0) &&
    (if u.d then streamOk (bitsOf b 21 0) (if u.count then n else 32) else bitsOf b 21 0 == 0) &&
    (if u.c then streamOk (bitsOf d 21 0) n else bitsOf d 21 0 == 0) &&
    (if u.e then bitsOf d 43 22 % 8 == 0 && inBanks (bitsOf d 43 22) 8 else bitsOf d 43 22 == 0) &&
    (!mode.testBit 4 || decide (n ≤ 4096)) &&
    (!u.stage || (decide (bitsOf a 57 53 ≤ 2) && decide (64 ≤ n) && decide (n ≤ 4096) && n == 2 ^ Nat.log2 n &&
      decide ((if fr4 then 4 else 2) * sp ≤ n)))

/-- A Fuller operation: the mode bits and the c register that it uses (R276). -/
def fulSlot (s : Chip) (t i : Nat) (x : Strand) (site : Site) (f : FmtE) (modeMask : Nat) (usesC : Bool) (u : FulUse)
    (fr4 : Bool) (k : EngKind) : SlotRec :=
  engSlot t i x site [3] (Nat.land f.mode modeMask == f.mode && (usesC || f.kc == 0)) [f.da] [f.da, f.da + 1, f.db]
    (faultIf (usesC && decide (16 ≤ f.kc)) 0x2091 0 ++ faultIf (noFeature s 3) 0x209A 0)
    (malformed (fulOk u fr4 f.mode (rdS x f.da) (rdS x (f.da + 1)) (rdS x f.db))) 2 k f.kc f.mode

def bexpOf (f : FmtE) : Bool := f.mode.testBit 4

def recFcmul (s : Chip) (t i : Nat) (x : Strand) (site : Site) (f : FmtE) : SlotRec :=
  fulSlot s t i x site f 0x33 false ⟨true, true, false, false, true, true, true, f.mode.testBit 0, bexpOf f, false⟩ false .fcmul

def recFcmac (s : Chip) (t i : Nat) (x : Strand) (site : Site) (f : FmtE) : SlotRec :=
  fulSlot s t i x site f 0x22 false ⟨false, true, false, false, true, true, false, false, false, false⟩ false .fcmac

def recFwb (s : Chip) (t i : Nat) (x : Strand) (site : Site) (f : FmtE) : SlotRec :=
  fulSlot s t i x site f 0x31 (f.mode.testBit 0)
    ⟨true, false, false, false, false, false, !f.mode.testBit 0, false, bexpOf f, false⟩ false .fwb

def recFfir (s : Chip) (t i : Nat) (x : Strand) (site : Site) (f : FmtE) : SlotRec :=
  fulSlot s t i x site f 0x32 true ⟨true, true, true, false, true, false, true, false, bexpOf f, false⟩ false .ffir

def recFmag2 (s : Chip) (t i : Nat) (x : Strand) (site : Site) (f : FmtE) : SlotRec :=
  fulSlot s t i x site f 0x30 false ⟨true, true, false, false, true, false, true, false, bexpOf f, false⟩ false .fmag2

/-- `fbexp` is a block of at most 4,096 samples (R82). -/
def recFbexp (s : Chip) (t i : Nat) (x : Strand) (site : Site) (f : FmtE) : SlotRec :=
  let r := fulSlot s t i x site f 0 false ⟨false, true, false, false, true, false, false, false, true, false⟩ false .fbexp
  { r with faults := r.faults ++ faultIf (decide (4096 < bitsOf (rdS x f.da) 52 40 + 1)) 0x20A0 0 }

def stageUse (f : FmtE) : FulUse := ⟨true, true, false, true, true, true, true, false, bexpOf f || f.mode.testBit 3, true⟩

def recFr4 (s : Chip) (t i : Nat) (x : Strand) (site : Site) (f : FmtE) : SlotRec :=
  fulSlot s t i x site f 0x3C false (stageUse f) true .fr4

def recFr2 (s : Chip) (t i : Nat) (x : Strand) (site : Site) (f : FmtE) : SlotRec :=
  fulSlot s t i x site f 0x3C false (stageUse f) false .fr2

-- Mover queue ----------------------------------------------------------------------------------------------

/-- Element bits of `mvt` (R259). -/
def mvtBits (a : Nat) : Nat := 4 * 2 ^ bitsOf a 57 56

/-- A row of `n` bytes at `a` meets one of `rows` rows of `len` bytes, `pitch` apart from `d`. -/
def rowMeets (a n d pitch len rows : Nat) : Bool :=
  let c := if a < d + len then 0 else (if pitch == 0 then rows else (a - (d + len)) / pitch + 1)
  decide (c < rows) && decide (d + c * pitch < a + n)

/-- The descriptor of `mvt` (R259). -/
def mvtOk (a b : Nat) : Bool :=
  let w := mvtBits a
  let rows := bitsOf a 55 44 + 1
  let cols := bitsOf b 55 44 + 1
  let src := bitsOf a 43 22
  let dst := bitsOf a 21 0
  let sp := bitsOf b 43 22
  let dp := bitsOf b 21 0
  let sl := cols * w / 8
  let dl := rows * w / 8
  onlyFields b [(55, 44), (43, 22), (21, 0)] && src % 8 == 0 && dst % 8 == 0 && sp % 8 == 0 && dp % 8 == 0 &&
    (w != 4 || (rows % 2 == 0 && cols % 2 == 0)) && inBanks src ((rows - 1) * sp + sl) && inBanks dst ((cols - 1) * dp + dl) &&
    !(List.range rows).any (fun r => rowMeets (src + r * sp) sl dst dp dl cols)

def recMvt (t i : Nat) (x : Strand) (site : Site) (f : FmtD) : SlotRec :=
  engSlot t i x site [2] (f.fn == 0) [] [f.sa, f.sb] [] (malformed (mvtOk (rdS x f.sa) (rdS x f.sb))) 4 .mvt 0 0

/-- The descriptor of `dtap` (R280). -/
def dtapOk (a b : Nat) : Bool :=
  let len := bitsOf b 21 0
  onlyFields a [(63, 58), (21, 0)] && onlyFields b [(63, 48), (47, 24), (23, 23), (21, 0)] && decide (1 ≤ len) &&
    decide (len ≤ 0x300000) && inBanks (bitsOf a 21 0) len

def recDtap (s : Chip) (t i : Nat) (x : Strand) (site : Site) (f : FmtD) : SlotRec :=
  engSlot t i x site [2] (f.fn == 0) [] [f.sa, f.sb] (faultIf (noFeature s 4) 0x209A 0)
    (malformed (dtapOk (rdS x f.sa) (rdS x f.sb))) 4 .dtap 0 0

/-- Bytes of `n` elements in the canonical layout (R113). -/
def canonBytes (c n : Nat) : Nat :=
  if isMX c then n / 32 * (1 + 4 * elemBits c) + (if n % 32 == 0 then 0 else 1 + cdiv (n % 32 * elemBits c) 8)
  else cdiv (n * elemBits c) 8

/-- The descriptor of `stap` (R281). -/
def stapOk (a b : Nat) : Bool :=
  onlyFields a [(63, 58), (57, 54), (53, 38), (21, 0)] && onlyFields b [(31, 0)] &&
    inBanks (bitsOf a 21 0) (canonBytes (bitsOf a 57 54) b)

def recStap (s : Chip) (t i : Nat) (x : Strand) (site : Site) (f : FmtE) : SlotRec :=
  engSlot t i x site [2] (f.kc == 0 && f.mode == 0) [f.da] [f.da, f.da + 1, f.db] (faultIf (noFeature s 4) 0x209A 0)
    (malformed (stapOk (rdS x f.da) (rdS x (f.da + 1)))) 4 .stap 0 0

-- send (R216 to R220) --------------------------------------------------------------------------------------

/-- The descriptor of `send` (R216, R217). -/
def sendOk (a b : Nat) : Bool :=
  let len := bitsOf b 44 32
  onlyFields a [(47, 40), (37, 32), (21, 0)] && onlyFields b [(44, 32), (29, 24), (21, 0)] &&
    decide (8 ≤ len) && decide (len ≤ 4096) && len % 8 == 0 && bitsOf a 21 0 % 8 == 0 && bitsOf b 21 0 % 8 == 0 &&
    inBanks (bitsOf a 21 0) len && inBanks (bitsOf b 21 0) len

/-- A `send` leaves: its source words are read, its flits are injected and it is on its way. -/
def sendGo (t i a b fn : Nat) (s : Chip) : Chip :=
  let len := bitsOf b 44 32
  let la := bitsOf b 21 0
  let lines := lineCount la len
  let r := readWords s t (la / 8) (len / 8)
  let d := physOf s (tilePart s t) (bitsOf a 47 40)
  let s1 := ctrBank r.1 t false lines
  let dst := d.getD 0xFF
  let radio := fn.testBit 0
  let s2 := inject s1 t dst (flitsOf lines) radio
  let s3 := if radio || dst == t || !tileHeld s t then s2 else charge s2 (tilePart s t) 2 t (128 * flitsOf lines)
  let s4 := enqueue t 4 { kind := .send, strand := i, w := [s.nextId] } s3
  { s4 with
    nextId := s.nextId + 1
    flights := s4.flights ++ [⟨s.nextId, t, i, dst, d == none, bitsOf a 37 32, bitsOf a 21 0, la, bitsOf b 29 24,
      fn, r.2, false, false, false⟩] }

def recSend (s : Chip) (t i : Nat) (x : Strand) (site : Site) (f : FmtD) : SlotRec :=
  let a := rdS x f.sa
  let b := rdS x f.sb
  { slotOf x site [1] (decide (f.fn < 8)) with
    checks := [codeS f.sa, codeS f.sb], uses := [codeS f.sa, codeS f.sb], bank := true
    faults := descFaults x [] [f.sa, f.sb]
      (faultIf (!sendOk a b) 0x2097 0 ++
        faultIf (decide ((getPart s (tilePart s t)).map.length ≤ bitsOf a 47 40)) 0x2095 0 ++
        faultIf (f.fn.testBit 0 && !tileAnvil s t) 0x2096 0)
    queue := some 4
    eff := sendGo t i a b f.fn }

end Sys2Proof.Machine
end

