-- ==== Sys2Proof/Machine/TongsFabric.lean ====
section
/-! DEFINITION. Slot 1: fabric operations at issue (R565, R567, R576 to R587; rows 118 to 124). -/

namespace Sys2Proof.Machine

/-- The faults of a single-word fabric address: a poisoned one is not judged further (R224, R576). -/
def wordFaults (s : Chip) (t : Nat) (pz : Bool) (a : Nat) : List (Nat × Nat) :=
  if pz then [(0x2093, 0)]
  else faultIf (a % 8 != 0) 0x2082 0 ++ faultIf (faTile a) 0x3022 0 ++
    (let c := fabCheck s (tilePart s t) a; faultIf (c != 0) c 0)

/-- A fabric slot: feature bit 5 (R243). -/
def fabSlot (s : Chip) (x : Strand) (site : Site) (legal : Bool) (dests checks uses : List Nat)
    (fs : List (Nat × Nat)) (eff : Chip → Chip) : SlotRec :=
  { slotOf x site [1] legal with
    dests := dests, checks := checks, uses := uses, faults := faultIf (noFeature s 5) 0x209A 0 ++ fs, eff := eff }

def recFld (s : Chip) (t i : Nat) (x : Strand) (site : Site) (f : FmtRI) : SlotRec :=
  let a := addrRI x f 8
  fabSlot s x site true [codeS f.rd] [codeS f.ra] [codeS f.ra, codeS f.rd] (wordFaults s t (rdSm x f.ra) a)
    (fun st => fabLoad st (strandOwner st t i) f.rd a)

def recFst (s : Chip) (t i : Nat) (x : Strand) (site : Site) (f : FmtRI) : SlotRec :=
  let a := addrRI x f 8
  fabSlot s x site true [] [codeS f.ra] [codeS f.ra, codeS f.rd] (wordFaults s t (rdSm x f.ra) a)
    (fun st => fabStore st (strandOwner st t i) a ⟨rdS x f.rd, rdSm x f.rd⟩)

def recFamo (s : Chip) (t i : Nat) (x : Strand) (site : Site) (f : FmtR3) : SlotRec :=
  let a := rdS x f.ra
  fabSlot s x site (decide (f.fn ≤ 8)) [codeS f.rd] [codeS f.ra] [codeS f.ra, codeS f.rb, codeS f.rd]
    (wordFaults s t (rdSm x f.ra) a)
    (fun st => fabAtomic st (strandOwner st t i) (0x10 + f.fn) f.rd a (rdS x f.rb) 0 (rdSm x f.rb))

def recFcas (s : Chip) (t i : Nat) (x : Strand) (site : Site) (f : FmtR3) : SlotRec :=
  let a := rdS x f.ra
  fabSlot s x site (f.fn == 0) [codeS f.rd] [codeS f.ra, codeS f.rd] [codeS f.ra, codeS f.rb, codeS f.rd]
    (wordFaults s t (rdSm x f.ra) a ++ faultIf (rdSm x f.rd) 0x2093 0)
    (fun st => fabAtomic st (strandOwner st t i) 0x20 f.rd a (rdS x f.rb) (rdS x f.rd) (rdSm x f.rb))

/-- The descriptor that `fcopy` and `fmcast` share (R577, R585). -/
def copyOk (a r b : Nat) : Bool :=
  let len := bitsOf b 21 0
  onlyFields a [(63, 58), (21, 0)] && onlyFields b [(63, 58), (21, 0)] && bitsOf a 21 0 % 8 == 0 && r % 8 == 0 &&
    decide (8 ≤ len) && decide (len ≤ 0x300000) && len % 8 == 0 && inBanks (bitsOf a 21 0) len

/-- The counters of a copy: remote (tile space only, and not with NRC), local (not with NLC). -/
def copyCnts (a r b fn : Nat) : Option Nat × Option Nat :=
  (if faTile r && !fn.testBit 1 then some (bitsOf b 63 58) else none, if fn.testBit 2 then none else some (bitsOf a 63 58))

def recFcopy (s : Chip) (t i : Nat) (x : Strand) (site : Site) (f : FmtD) : SlotRec :=
  let a := rdS x f.sa
  let r := rdS x (f.sa + 1)
  let b := rdS x f.sb
  let c := fabCheck s (tilePart s t) r
  let k := copyCnts a r b f.fn
  let regs := [f.sa, f.sa + 1, f.sb]
  { fabSlot s x site (decide (f.fn < 8)) [] (regs.map codeS) (regs.map codeS)
      (descFaults x [f.sa] regs (faultIf (!copyOk a r b) 0x3023 0 ++ faultIf (c != 0) c 0))
      (fun st =>
        let o := strandOwner st t i
        if f.fn.testBit 0 then fabGet st o r (bitsOf a 21 0) (bitsOf b 21 0) k.2
        else fabPut st o r (bitsOf a 21 0) (bitsOf b 21 0) k.1 k.2) with
    bank := true }

/-- Checks of a group that a strand names (R565, R567, R589). -/
def groupCheck (s : Chip) (p g : Nat) : Nat :=
  let j := getJob s p
  leastCode [
    jobCode s p,
    if j.groups.length ≤ g then 0x3024 else 0,
    if !fbit s aFAB_CTL 1 && ((j.groups.getD g ([], 0)).1).any (fun m => (rankDev s p m).2) then 0x3025 else 0]

def recFmcast (s : Chip) (t i : Nat) (x : Strand) (site : Site) (f : FmtD) : SlotRec :=
  let a := rdS x f.sa
  let r := rdS x (f.sa + 1)
  let b := rdS x f.sb
  let c := groupCheck s (tilePart s t) (faRank r)
  let k := copyCnts a r b f.fn
  let regs := [f.sa, f.sa + 1, f.sb]
  { fabSlot s x site (decide (f.fn < 8) && !f.fn.testBit 0) [] (regs.map codeS) (regs.map codeS)
      (descFaults x [f.sa] regs
        (faultIf (!copyOk a r b || bitsOf r 63 60 != 3 || !faTile r || !faShape r) 0x3023 0 ++ faultIf (c != 0) c 0))
      (fun st => fabMcast st (strandOwner st t i) r (bitsOf a 21 0) (bitsOf b 21 0) k.1 k.2) with
    bank := true }

/-- The descriptor of `fred` (R586): its fields, and the limits of R586 and R587 on the record and the group. -/
def fredOk (s : Chip) (t a b d : Nat) (sliced : Bool) : Bool :=
  let w := cellWord (getTile s t) (bitsOf a 43 22 / 8 + 1)
  onlyFields a [(63, 58), (43, 22), (21, 0)] && onlyFields b [(59, 48), (43, 22), (21, 0)] &&
    onlyFields d [(59, 48), (31, 0)] && recAddrOk (bitsOf a 43 22) (bitsOf a 21 0) &&
    recAddrOk (bitsOf b 43 22) (bitsOf b 21 0) && decide (bitsOf w 31 0 * bitsOf w 63 48 ≤ 4096) &&
    (sliced || decide ((((getJob s (tilePart s t)).groups.getD (bitsOf b 59 48) ([], 0)).1).length ≤ 16))

def recFred (s : Chip) (t i : Nat) (x : Strand) (site : Site) (f : FmtD) : SlotRec :=
  let a := rdS x f.sa
  let b := rdS x (f.sa + 1)
  let d := rdS x f.sb
  let p := tilePart s t
  let c := leastCode [groupCheck s p (bitsOf b 59 48), if bitsOf d 59 48 == 0xFFF then 0 else groupCheck s p (bitsOf d 59 48)]
  let regs := [f.sa, f.sa + 1, f.sb]
  { fabSlot s x site (decide (f.fn < 2)) [] (regs.map codeS) (regs.map codeS)
      (descFaults x [f.sa] regs (faultIf (!fredOk s t a b d (f.fn.testBit 0)) 0x3023 0 ++ faultIf (c != 0) c 0))
      (fun st =>
        let r := fabReduce st (strandOwner st t i) (f.fn.testBit 0) (bitsOf a 63 58) (bitsOf a 43 22) (bitsOf a 21 0) (bitsOf b 59 48)
          (bitsOf b 43 22) (bitsOf b 21 0) (bitsOf d 59 48) (bitsOf d 31 0)
        if r.2 == 0 then r.1 else postFault r.1 t i ⟨r.2, 0x04, 0⟩) with
    bank := true }

end Sys2Proof.Machine
end

