-- ==== Sys2Proof/Machine/Issue.lean ====
section
/-! DEFINITION. The slot of each Tongs command, the issue of a bundle whose last slot has come, and the second
try of one that waited (R188, R194, R227, R228). -/

namespace Sys2Proof.Machine

/-- What the slot of a Tongs command does; other commands have no slot. -/
def slotRec (s : Chip) (t i : Nat) (x : Strand) (c : Instr) : SlotRec :=
  match c with
  | .nop site => recNop x site
  | .br site off => recBr x site off
  | .call site off => recCall t i x site off
  | .jr site f => recJr x site f
  | .loop site ra len => recLoop x site ra len
  | .loopc site ra len => recLoopc s t i x site ra len
  | .halt site => recHalt x site
  | .rfe site => recRfe x site
  | .sync site => recSync x site
  | .wait site f => recWait s t x site f
  | .waitT site f => recWaitT s t i x site f
  | .acadd site f => recAcadd t x site f
  | .acset site f => recAcset t x site f
  | .wward site f => recWward s t i x site f
  | .wfence site f => recWfence s t i x site f
  | .mfsr site f => recMfsr s t i x site f
  | .mtsr site f => recMtsr t i x site f
  | .scalarAlu site f => recScalarAlu t i x site f
  | .scalarShift site f => recScalarShift t i x site f
  | .scalarMul site f => recScalarMul t i x site f
  | .scalarMulh site f => recScalarMulh t i x site f
  | .scalarMinmax site f => recScalarMinmax t i x site f
  | .scalarAluImm site op f => recScalarAluImm t i x site op f
  | .scalarShiftImm site op f => recScalarShiftImm t i x site op f
  | .li site f => recLi t i x site f
  | .ins16 site f => recIns16 t i x site f
  | .predicateLogic site f => recPredicateLogic t i x site f
  | .cmp site f => recCmp t i x site f
  | .cmpImm site op f => recCmpImm t i x site op f
  | .scalarLoad site op f => recScalarLoad s t i x site op f
  | .scalarStore site op f => recScalarStore s t x site op f
  | .amo site f => recAmo s t i x site f
  | .cas site f => recCas s t i x site f
  | .rng site f => recRng t i x site f
  | .vrng site f => recVrng t i x site f
  | .vfadd site op f => recVfadd t i x site op f
  | .vfma site f => recVfma t i x site f
  | .vfminmax site op f => recVfminmax t i x site op f
  | .vfun site f => recVfun t i x site f
  | .vfcmp site f => recVfcmp t i x site f
  | .vsel site f => recVsel t i x site f
  | .vint site f => recVint t i x site f
  | .vcvt site f => recVcvt t i x site f
  | .vcvtf site f => recVcvtf t i x site f
  | .vmxq site f => recVmxq t i x site f
  | .vfsum site f => recVfsum t i x site f
  | .vld site f => recVld s t i x site f
  | .vst site f => recVst s t x site f
  | .vlds site f => recVlds s t i x site f
  | .vsts site f => recVsts s t x site f
  | .mvsv site f => recMvsv t i x site f
  | .mvvs site f => recMvvs t i x site f
  | .vbc site f => recVbc t i x site f
  | .vcopy site f => recVcopy t i x site f
  | .mvcv site f => recMvcv s t i x site f
  | .mvvc site f => recMvvc s t i x site f
  | .cld site f => recCld s t i x site f
  | .cst site f => recCst s t i x site f
  | .xld site f => recXld s t i x site f
  | .mvt site f => recMvt t i x site f
  | .pcomb site f => recPcomb t i x site f
  | .amerge site f => recAmerge t i x site f
  | .afinal site f => recAfinal t i x site f
  | .mm site f => recMm s t i x site f
  | .mew site f => recMew s t i x site f
  | .bmv site f => recBmv s t i x site f
  | .kst site f => recKst s t i x site f
  | .kld site f => recKld s t i x site f
  | .fcmul site f => recFcmul s t i x site f
  | .fcmac site f => recFcmac s t i x site f
  | .fwb site f => recFwb s t i x site f
  | .ffir site f => recFfir s t i x site f
  | .fmag2 site f => recFmag2 s t i x site f
  | .fbexp site f => recFbexp s t i x site f
  | .fr4 site f => recFr4 s t i x site f
  | .fr2 site f => recFr2 s t i x site f
  | .dtap site f => recDtap s t i x site f
  | .stap site f => recStap s t i x site f
  | .send site f => recSend s t i x site f
  | .fld site f => recFld s t i x site f
  | .fst site f => recFst s t i x site f
  | .famo site f => recFamo s t i x site f
  | .fcas site f => recFcas s t i x site f
  | .fcopy site f => recFcopy s t i x site f
  | .fmcast site f => recFmcast s t i x site f
  | .fred site f => recFred s t i x site f
  | _ => { slot := 0, on := false, pz := false, legal := true }

/-- The slots of the bundle that a strand is to issue. -/
def slotRecs (s : Chip) (t i : Nat) : List SlotRec :=
  let x := getStrand s t i
  inOrder (x.slots.map (slotRec s t i x))

/-- A strand tries to issue its bundle: a pending fault first, then the fetch, then the bundle itself. An index
beyond the banks has no bundle (R121). -/
def tryIssue (s : Chip) (t i : Nat) : Chip :=
  let x := getStrand s t i
  let y := getTile s t
  let own := y.lcOwner == some i
  if !strandRuns s t i then s
  else
    match lowestPend x.pend with
    | some f => takePending s t i f
    | none =>
      if (tget (fun _ => ({} : Halves)) y.halves i).waiting then waitOn s t i ⟨.swap, 0⟩
      else if bundleEnd ≤ x.pc then takeFault s t i 0x2080 0x04 0xFF (16 * x.pc)
      else if !fetched x y own then waitOn s t i ⟨.fetch, 0⟩
      else if bundlePoison x y own then takeFault s t i 0x2093 0x04 0xFF (16 * x.pc)
      else issue s t i (slotRecs s t i)

/-- A waiting strand tries again; one that waits on an arrival counter is left to its own events (R212, R213). -/
def retry (s : Chip) (t i : Nat) : Chip :=
  match (getStrand s t i).wait with
  | none => s
  | some w => if w.kind == .counter then s else tryIssue s t i

/-- Strands that wait for the loop cache try again when it is free (R154). -/
def retryCache (s : Chip) (t : Nat) : Chip :=
  forEach (List.range 8) (fun st i =>
    if (getStrand st t i).wait == some ⟨.loopCache, 0⟩ && (getTile st t).lcOwner == none then tryIssue st t i else st) s

/-- Every waiting strand of a tile tries again. -/
def retryTile (s : Chip) (t : Nat) : Chip := retryCache (forEach (List.range 8) (fun st i => retry st t i) s) t

/-- The bundle's slots with one more: a slot given twice is replaced. -/
def stage (site : Site) (c : Instr) (x : Strand) (slotNo : Instr → Option Nat) : Strand :=
  { x with slots := x.slots.filter (fun d => slotNo d != some site.slot) ++ [c] }

/-- The site of a Tongs command. -/
def siteOf : Instr → Option Site
  | .nop site => some site
  | .br site _ => some site
  | .call site _ => some site
  | .jr site _ => some site
  | .loop site _ _ => some site
  | .loopc site _ _ => some site
  | .halt site => some site
  | .rfe site => some site
  | .sync site => some site
  | .wait site _ => some site
  | .waitT site _ => some site
  | .acadd site _ => some site
  | .acset site _ => some site
  | .wward site _ => some site
  | .wfence site _ => some site
  | .mfsr site _ => some site
  | .mtsr site _ => some site
  | .scalarAlu site _ => some site
  | .scalarShift site _ => some site
  | .scalarMul site _ => some site
  | .scalarMulh site _ => some site
  | .scalarMinmax site _ => some site
  | .scalarAluImm site _ _ => some site
  | .scalarShiftImm site _ _ => some site
  | .li site _ => some site
  | .ins16 site _ => some site
  | .predicateLogic site _ => some site
  | .cmp site _ => some site
  | .cmpImm site _ _ => some site
  | .scalarLoad site _ _ => some site
  | .scalarStore site _ _ => some site
  | .amo site _ => some site
  | .cas site _ => some site
  | .rng site _ => some site
  | .vrng site _ => some site
  | .vfadd site _ _ => some site
  | .vfma site _ => some site
  | .vfminmax site _ _ => some site
  | .vfun site _ => some site
  | .vfcmp site _ => some site
  | .vsel site _ => some site
  | .vint site _ => some site
  | .vcvt site _ => some site
  | .vcvtf site _ => some site
  | .vmxq site _ => some site
  | .vfsum site _ => some site
  | .vld site _ => some site
  | .vst site _ => some site
  | .vlds site _ => some site
  | .vsts site _ => some site
  | .mvsv site _ => some site
  | .mvvs site _ => some site
  | .vbc site _ => some site
  | .vcopy site _ => some site
  | .mvcv site _ => some site
  | .mvvc site _ => some site
  | .cld site _ => some site
  | .cst site _ => some site
  | .xld site _ => some site
  | .mvt site _ => some site
  | .pcomb site _ => some site
  | .amerge site _ => some site
  | .afinal site _ => some site
  | .mm site _ => some site
  | .mew site _ => some site
  | .bmv site _ => some site
  | .kst site _ => some site
  | .kld site _ => some site
  | .fcmul site _ => some site
  | .fcmac site _ => some site
  | .fwb site _ => some site
  | .ffir site _ => some site
  | .fmag2 site _ => some site
  | .fbexp site _ => some site
  | .fr4 site _ => some site
  | .fr2 site _ => some site
  | .dtap site _ => some site
  | .stap site _ => some site
  | .send site _ => some site
  | .fld site _ => some site
  | .fst site _ => some site
  | .famo site _ => some site
  | .fcas site _ => some site
  | .fcopy site _ => some site
  | .fmcast site _ => some site
  | .fred site _ => some site
  | _ => none

/-- A slot of a bundle comes. The last one closes the bundle, which then issues as a unit (R194). A strand that
waits, does not run, or has no such unit takes no new bundle (DESIGN CHOICE, log 8). -/
def slotCommand (site : Site) (c : Instr) (s : Chip) : Out :=
  let t := site.tile
  let i := site.strand
  if t < 144 ∧ i < 8 ∧ site.slot < 4 then
    .next (if strandRuns s t i && (getStrand s t i).wait == none then
      (let s1 := modStrand s t i (fun x => stage site c x (fun d => (siteOf d).map (·.slot)))
       if site.last then retryCache (tryIssue s1 t i) t else s1)
    else s)
  else .fault (.noSuchUnit "strand")

end Sys2Proof.Machine
end

