-- ==== Sys2Proof/Machine/EngineRun.lean ====
section
/-! DEFINITION. What every queued operation shares when it runs: its place in its queue, completion, refusal, and
reading packed operands (R115, R227 to R242, R265). -/

namespace Sys2Proof.Machine

/-- Engine operations reach the banks: the tile is open and not being zeroed (R172, R173). -/
def engineOpen (s : Chip) (t : Nat) : Bool := tileOpen s t

/-- The queue of a tile by its number (R239). -/
def queueOf (y : Tile) (q : Nat) : List EngOp :=
  if q == 0 then y.qMat else if q == 1 then y.qBank else if q == 2 then y.qFul else if q == 3 then y.qComb else y.qMov

def setQueue (y : Tile) (q : Nat) (l : List EngOp) : Tile :=
  if q == 0 then { y with qMat := l }
  else if q == 1 then { y with qBank := l }
  else if q == 2 then { y with qFul := l }
  else if q == 3 then { y with qComb := l }
  else { y with qMov := l }

/-- The operation that a queue runs next: its head, and in the mover's queue the first that is no `send`, whose
source has already been read. -/
def nextOp (y : Tile) (q : Nat) : Option EngOp :=
  if q == 4 then y.qMov.find? (fun o => o.kind != .send) else (queueOf y q).head?

/-- The operation leaves its queue. -/
def popOp (s : Chip) (t q : Nat) (o : EngOp) : Chip :=
  modTile s t (fun y => setQueue y q ((queueOf y q).erase o))

/-- Word k of an operation's descriptor. -/
def opW (o : EngOp) (k : Nat) : Nat := o.w.getD k 0

/-- The operation's arrival counter (R241). -/
def opCnt (o : EngOp) : Nat := bitsOf (opW o 0) 63 58

/-- Flags and flag events of an operation, raised in the strand that issued it (R183, R118). -/
def opFlags (s : Chip) (t : Nat) (o : EngOp) (fl gx sa : Nat) : Chip :=
  noteEvents (raiseFlags s t o.strand fl) gx sa

/-- An operation refused when it runs (R115, R240): it leaves the queue, writes nothing and decrements nothing; an
arithmetic code is logged. -/
def refuseOp (s : Chip) (t q : Nat) (o : EngOp) (unit code : Nat) : Chip :=
  let s1 := popOp s t q o
  let s2 := if 0x7000 ≤ code then arithFault s1 code t unit else s1
  retryTile (postFault (tileStatus s2 t code) t o.strand ⟨code, unit, 0⟩) t

/-- An operation that completed: it leaves the queue and decrements its counter (R241). -/
def finishOp (s : Chip) (t q : Nat) (o : EngOp) : Chip := retryTile (acArrive (popOp s t q o) t (opCnt o)) t

/-- The completion of the next operation of queue `q`, when it is of the kind that the command names. -/
def completeOp (s : Chip) (t q : Nat) (ks : List EngKind) (f : Chip → EngOp → Chip) : Out :=
  onTile t s (fun s =>
    match nextOp (getTile s t) q with
    | none => s
    | some o => if engineOpen s t && ks.contains o.kind then f s o else s)

/-- Packed elements of width `w` from words, low bits first; an element of a marked word is marked (R113, R265). -/
def unpack (w n : Nat) (ws : List Elem) : List Elem :=
  let v := packLanes 64 (ws.map (·.v))
  (List.range n).map (fun k => (⟨v >>> (w * k) % 2 ^ w,
    (ws.getD (w * k / 64) ⟨0, false⟩).pz || (ws.getD ((w * k + w - 1) / 64) ⟨0, false⟩).pz⟩ : Elem))

/-- A row of `k` elements of format `c` from its lines: elements and scale bytes, each block marked with its scale
(R265). -/
def rowOperand (c k : Nat) (ws : List Elem) : List Elem × List Nat :=
  let lines := cdiv (k * elemBits c) 512
  let es := unpack (elemBits c) k ws
  if isMX c then
    let sc := unpack 8 (cdiv k 32) (ws.drop (8 * lines))
    ((List.range k).map (fun j =>
      let e := es.getD j ⟨0, false⟩
      (⟨e.v, e.pz || (sc.getD (j / 32) ⟨0, false⟩).pz⟩ : Elem)), sc.map (·.v))
  else (es, [])

/-- `m` rows of an operand read line by line from the banks. -/
def readOperand (t c k lines : Nat) : Nat → Nat → Chip → Chip × List (List Elem × List Nat)
  | 0, _, s => (s, [])
  | m + 1, a, s =>
    let r := readWords s t (a / 8) (8 * lines)
    let q := readOperand t c k lines m (a + 64 * lines) (ctrBank r.1 t false lines)
    (q.1, rowOperand c k r.2 :: q.2)

/-- The partial of two rows of elements: groups, then the canonical tree (R84 to R92). -/
def dotPartial (ca cb : Nat) (x y : List Elem × List Nat) : Elem × List Nat :=
  let gs := groupsOf ca cb (x.1.length / 256 + 1) (x.1.map (·.v)) (y.1.map (·.v)) x.2 y.2
    ((x.1.zip y.1).map (fun p => p.1.pz || p.2.pz))
  let r := tree (kindOf ca) (gs.map (·.1))
  (r.1, r.2 :: gs.map (·.2))

/-- The KIND that a pair of formats calls for (R266). -/
def kindWanted (ca cb : Nat) : Nat := if ca == 0 && cb == 0 then 1 else 0

/-- The tag check of a pass over `n` groups of elements, `k` elements in all (R266). LEVEL is the tag's own. -/
def passTag (tg : Tag) (k : Nat) : Nat :=
  let g := tagSpan tg
  if decide (tg.level ≤ 4) && decide (g.1 < g.2) && cdiv k 256 == g.2 - g.1 &&
      (decide (tg.gm1 + 1 ≤ g.2) || k == 256 * (g.2 - g.1)) then 0 else 0x7008

/-- Two lists of elements added (R91, R93). -/
def addLists (kind : Nat) (a b : List Elem) : List Elem × Nat :=
  let l := (a.zip b).map (fun p => pAdd kind p.1 p.2)
  (l.map (·.1), allFlags (l.map (·.2)))

end Sys2Proof.Machine
end

