-- ==== Sys2Proof/Machine/Matrix.lean ====
section
/-! DEFINITION. The matrix engine: passes, partial stacks, drains and element-wise operations (R142 to R148,
R264 to R269; rows 91 and 93). -/

namespace Sys2Proof.Machine

/-- The format pairs of R145. -/
def mmPair (a b : Nat) : Bool :=
  let p (x y : Nat) : Bool := (a == x && b == y) || (a == y && b == x)
  let both (x y : Nat) : Bool := (a == x || a == y) && (b == x || b == y)
  p 3 3 || p 3 1 || p 3 6 || both 1 2 || both 4 5 || both 6 7 || p 0 0 || p 8 8

/-- The stack that an operation uses: a quarter, or 4 for the ganged array (R267). -/
def stackNo (gang : Bool) (q : Nat) : Nat := if gang then 4 else q

def getStack (y : Tile) (k : Nat) : List StackEnt := tget (fun _ => []) y.partials k
def setStack (y : Tile) (k : Nat) (l : List StackEnt) : Tile := { y with partials := tset (fun _ => []) k l y.partials }

/-- While the top two entries are siblings they are combined, the lower one as the left operand (R267). -/
def settle : Nat → List StackEnt → List StackEnt × Nat
  | n + 1, a :: b :: r =>
    if tagCheck b.tag a.tag == 0 then
      let v := addLists b.tag.kind b.vals a.vals
      let t := settle n (⟨tagParent b.tag, b.m, b.n, v.1, false⟩ :: r)
      (t.1, flOr v.2 t.2)
    else (a :: b :: r, 0)
  | _, l => (l, 0)

/-- The checks of R97 that hold whether or not two nodes are siblings. -/
def sameReduction (a b : Tag) : Nat :=
  leastCode [if a.rid != b.rid then 0x7002 else 0, if a.gm1 != b.gm1 then 0x7003 else 0, if a.kind != b.kind then 0x7004 else 0]

/-- A node pushed on a partial stack (R267): a code, the stack after it, and the flags of its combinations. -/
def pushEnt (acc : Bool) (stack : List StackEnt) (e : StackEnt) : Nat × List StackEnt × Nat :=
  match acc, stack with
  | false, _ => (0, [e], 0)
  | true, [] => (0, [e], 0)
  | true, top :: r =>
    let q := settle 5 (e :: top :: r)
    let c := leastCode [
      if top.m != e.m || top.n != e.n then 0x20A1 else 0,
      if top.final || (tagSpan top.tag).2 != (tagSpan e.tag).1 || decide (4 < q.1.length) then 0x7001 else 0,
      sameReduction top.tag e.tag]
    (c, q.1, q.2)

/-- The elements of a pass, row by row (R143). -/
def passValues (ca cb : Nat) (xs ys : List (List Elem × List Nat)) : List (Elem × List Nat) :=
  xs.flatMap (fun x => ys.map (dotPartial ca cb x))

/-- One pass of `mm` (R264 to R268). -/
def runMm (t : Nat) (s : Chip) (o : EngOp) : Chip :=
  let a := opW o 0
  let b := opW o 1
  let tg := tagOf (opW o 2)
  let ca := bitsOf a 57 54
  let cb := bitsOf a 53 50
  let m := bitsOf a 49 43 + 1
  let n := bitsOf a 42 36 + 1
  let k := bitsOf a 35 24 + 1
  let drain := o.mode.testBit 1
  let no := stackNo (o.mode.testBit 5) (bitsOf o.mode 4 3)
  let st := getStack (getTile s t) no
  let acc := o.mode.testBit 2
  -- the checks before the pass, on a node without its values
  let probe := pushEnt acc (st.map (fun e => { e with vals := [] })) ⟨tg, m, n, [], false⟩
  let code := leastCode [
    if mmPair ca cb && tg.kind == kindWanted ca cb then 0 else 0x7006,
    passTag tg k, probe.1, if drain && decide (1 < probe.2.1.length) then 0x7001 else 0]
  if code != 0 then refuseOp s t 0 o 0x01 code
  else
    let xa := readOperand t ca k (operandLines ca k) m (bitsOf a 21 0) s
    let xb := readOperand t cb k (operandLines cb k) n (bitsOf b 43 22) xa.1
    let vs := passValues ca cb xa.2 xb.2
    let p := pushEnt acc st ⟨tg, m, n, vs.map (·.1), false⟩
    let fls := vs.flatMap (·.2)
    let s1 := opFlags xb.1 t o (flOr (allFlags fls) p.2.2) (countFlag flGX fls) 0
    let s2 := if drain then
        (match p.2.1 with
          | e :: r =>
            modTile (writeRec s1 t (bitsOf (opW o 3) 21 0) (bitsOf b 21 0)
              ⟨e.tag, e.n, e.m, false, ⟨0, false⟩, ⟨0, false⟩, e.vals⟩ false) t (fun y => setStack y no r)
          | [] => s1)
      else modTile s1 t (fun y => setStack y no p.2.1)
    finishOp s2 t 0 o

/-- The element-wise operations of `mew` (R269). -/
def mewOp (mode : Nat) (x a b : Elem) : Elem × Nat :=
  let un (f : Nat → Nat × Nat) : Elem × Nat := if x.pz then (⟨poisonF32, true⟩, flPZ) else let r := f x.v; (⟨r.1, false⟩, r.2)
  match mode with
  | 0x00 => eBin fAdd x a
  | 0x01 => eBin fMul x a
  | 0x02 => if x.pz || a.pz || b.pz then (⟨poisonF32, true⟩, flPZ) else let r := fFma x.v a.v b.v; (⟨r.1, false⟩, r.2)
  | 0x03 => eBin (fMinMax true) x a
  | 0x04 => eBin (fMinMax false) x a
  | 0x08 => un fRcp
  | 0x09 => un fRsqrt
  | 0x0A => un fExp2
  | _ => un fLog2

/-- `n` FP32 values from a 4-byte-aligned address. -/
def readF32s (t : Nat) : Nat → Nat → Chip → Chip × List Elem
  | 0, _, s => (s, [])
  | n + 1, a, s =>
    let e := readSome s t a 4
    let r := readF32s t n (a + 4) e.1
    (r.1, e.2 :: r.2)

/-- An operand vector of `mew`. -/
def mewVec (t n a : Nat) (s : Chip) : Chip × List Elem :=
  let r := readF32s t n a s
  (ctrBank r.1 t false (lineCount a (4 * n)), r.2)

/-- One element-wise operation on the held result (R269). -/
def runMew (t : Nat) (s : Chip) (o : EngOp) : Chip :=
  let a := opW o 0
  let b := opW o 1
  let axis := bitsOf a 47 46
  let drain := bitOf b 22
  let no := stackNo (o.kc.testBit 4) (o.kc % 4)
  match getStack (getTile s t) no with
  | [e] =>
    let len := if axis == 0 then e.n else if axis == 1 then e.m else 1
    let useA := decide (o.mode ≤ 4)
    let useB := o.mode == 2
    let code := leastCode [
      if tagIsRoot e.tag then 0 else 0x7009,
      if e.tag.kind == 0 then 0 else 0x7006,
      if (useA && !inBanks (bitsOf a 21 0) (4 * len)) || (useB && !inBanks (bitsOf a 43 22) (4 * len)) ||
        (drain && !stripeFits (bitsOf b 21 0) e.m) then 0x20A1 else 0]
    if code != 0 then refuseOp s t 0 o 0x01 code
    else
      let va := if useA then mewVec t len (bitsOf a 21 0) s else (s, [])
      let vb := if useB then mewVec t len (bitsOf a 43 22) va.1 else (va.1, [])
      let pick (l : List Elem) (k : Nat) : Elem :=
        l.getD (if axis == 0 then k % e.n else if axis == 1 then k / e.n else 0) ⟨0, false⟩
      let rs := (List.range e.vals.length).map (fun k => mewOp o.mode (e.vals.getD k ⟨0, false⟩) (pick va.2 k) (pick vb.2 k))
      let vals := rs.map (·.1)
      let s1 := opFlags vb.1 t o (allFlags (rs.map (·.2))) 0 0
      let s2 := if drain then
          modTile (writeRows t (bitsOf b 21 0) 4 e.n false e.m 0 vals s1) t (fun y => setStack y no [])
        else modTile s1 t (fun y => setStack y no [{ e with vals := vals, final := true }])
      finishOp s2 t 0 o
  | _ => refuseOp s t 0 o 0x01 0x7009

/-- MM_PASS_COMPLETE (R268). -/
def cmdMmPassComplete (tile : Nat) (s : Chip) : Out := completeOp s tile 0 [.mm] (runMm tile)

/-- MEW_COMPLETE (R269). -/
def cmdMewComplete (tile : Nat) (s : Chip) : Out := completeOp s tile 0 [.mew] (runMew tile)

end Sys2Proof.Machine
end

