-- ==== Sys2Proof/Machine/Bankside.lean ====
section
/-! DEFINITION. The bankside units, the activation stage and the accumulator sets (R130 to R140, R258, R270 to
R274; rows 81, 95, 97 and 99). -/

namespace Sys2Proof.Machine

/-- A word of the activation stage (slot 0 to 23, byte offset, scale area at 4,096). -/
def actKey (slot off : Nat) : Nat := slot * 8192 + off

/-- Words stored in the activation stage from word index `k` up. -/
def actPut : Nat → List Elem → Tile → Tile
  | _, [], y => y
  | k, e :: r, y =>
    actPut (k + 1) r { y with act := mwrite y.act (8 * k) (leBytes 8 e.v), actpz := tmark y.actpz k e.pz }

/-- `n` words of the activation stage from word index `k` up. -/
def actRead (y : Tile) (k n : Nat) : List Elem :=
  (List.range n).map (fun j => (⟨leNat (mread y.act (8 * (k + j)) 8), tmem y.actpz (k + j)⟩ : Elem))

/-- `xld` (R258). -/
def runXld (t : Nat) (s : Chip) (o : EngOp) : Chip :=
  let a := opW o 0
  let len := bitsOf a 44 32
  let src := bitsOf a 21 0
  let r := readWords s t (src / 8) (len / 8)
  let k := actKey (bitsOf a 57 53) ((if bitOf a 52 then 4096 else 0) + bitsOf (opW o 1) 11 0)
  finishOp (modTile (ctrBank r.1 t false (lineCount src len)) t (actPut (k / 8) r.2)) t 1 o

/-- The format pairs of R131. -/
def bmvPair (w x : Nat) : Bool :=
  ([3, 4, 5, 6, 7, 1, 2].contains w && [1, 2, 6, 7].contains x) || (w == 0 && x == 0)

/-- Lines of the weights of one stripe, without its scale line (R132). -/
def weightLines (c : Nat) : Nat := stripeLines c - b2n (isMX c)

/-- The weights of one row of one unit: its stripes' elements and scales (R132, R270). -/
def readStripes (t c : Nat) : Nat → Nat → Chip → Chip × List Elem × List Nat
  | 0, _, s => (s, [], [])
  | n + 1, a, s =>
    let r := readWords s t (a / 8) (8 * stripeLines c)
    let es := unpack (elemBits c) 2048 r.2
    let sc := if isMX c then unpack 8 64 (r.2.drop (8 * weightLines c)) else []
    let ms := if isMX c then (List.range 2048).map (fun j =>
        let e := es.getD j ⟨0, false⟩
        (⟨e.v, e.pz || (sc.getD (j / 32) ⟨0, false⟩).pz⟩ : Elem)) else es
    let q := readStripes t c n (a + 64 * stripeLines c) (ctrBank r.1 t false (stripeLines c))
    (q.1, ms ++ q.2.1, sc.map (·.v) ++ q.2.2)

/-- Every row of every unit, unit by unit: unit, row, elements and scales. -/
def readWeights (t c stripes woff rows : Nat) : List (Nat × Nat) → Chip → Chip × List (Nat × Nat × List Elem × List Nat)
  | [], s => (s, [])
  | (u, r) :: l, s =>
    let a := u * 0x18000 + woff + r * stripes * stripeLines c * 64
    let w := readStripes t c stripes a s
    let q := readWeights t c stripes woff rows l w.1
    (q.1, (u, r, w.2.1, w.2.2) :: q.2)

/-- The activations of one sequence: `k` elements and their scales (R134, R271). -/
def activations (y : Tile) (c slot k : Nat) : List Elem × List Nat :=
  let es := unpack 8 k (actRead y (actKey slot 0 / 8) (cdiv k 8))
  if isMX c then
    let sc := unpack 8 (cdiv k 32) (actRead y (actKey slot 4096 / 8) 16)
    ((List.range k).map (fun j =>
      let e := es.getD j ⟨0, false⟩
      (⟨e.v, e.pz || (sc.getD (j / 32) ⟨0, false⟩).pz⟩ : Elem)), sc.map (·.v))
  else (es, [])

def getSet (y : Tile) (n : Nat) : KSet := tget (fun _ => ({} : KSet)) y.sets n
def setSet (y : Tile) (n : Nat) (k : KSet) : Tile := { y with sets := tset (fun _ => ({} : KSet)) n k y.sets }

/-- A set's stack as a matrix stack, so that R267 is one rule for both (R272). -/
def setStackOf (k : KSet) : List StackEnt := k.nodes.map (fun n => ⟨n.tag, 0, 0, n.vals, false⟩)

/-- Checks of one set before the operation (R140, R272); a set that `kld` restored has no row count of its own
(rowsM1 16). -/
def setCheck (y : Tile) (cont : Bool) (rowsM1 n : Nat) (tg : Tag) : Nat :=
  let k := getSet y n
  if cont then
    leastCode [
      if !k.nodes.isEmpty && k.rowsM1 != rowsM1 && k.rowsM1 != 16 then 0x20A1 else 0,
      (pushEnt true ((setStackOf k).map (fun e => { e with vals := [] })) ⟨tg, 0, 0, [], false⟩).1]
  else 0

/-- The 512 row slots of one sequence: what the operation formed, and free values in slots that it left out. -/
def slotValues (rows kind draw n : Nat) (vs : List (Nat × Nat × Elem)) : List Elem :=
  (List.range 512).map (fun j =>
    if j % 16 < rows then
      (match vs.find? (fun v => v.1 == j / 16 && v.2.1 == j % 16) with
        | some v => v.2.2
        | none => ⟨0, false⟩)
    else ⟨Config.freeAt draw (512 * n + j) % (if kind == 1 then 2 ^ 64 else 2 ^ 32), false⟩)

/-- One sequence: its partials pushed on its set (R139, R140, R272). -/
def bmvSeq (cw cx kEl rows kind draw : Nat) (cont : Nat) (tg : Tag) (ws : List (Nat × Nat × List Elem × List Nat))
    (y : Tile) (n : Nat) : Tile × List Nat :=
  let x := activations y cx n kEl
  let vs := ws.map (fun w => (w.1, w.2.1, dotPartial cw cx (w.2.2.1.take kEl, w.2.2.2) x))
  let vals := slotValues rows kind draw n (vs.map (fun v => (v.1, v.2.1, v.2.2.1)))
  let k := getSet y n
  let p := pushEnt (cont.testBit n) (setStackOf k) ⟨tg, 0, 0, vals, false⟩
  (setSet y n ⟨rows - 1, p.2.1.map (fun e => ⟨e.tag, e.vals⟩)⟩, p.2.2 :: vs.flatMap (fun v => v.2.2.2))

/-- Every sequence of the mask in ascending order. -/
def bmvAll (f : Tile → Nat → Tile × List Nat) : List Nat → Tile → Tile × List Nat
  | [], y => (y, [])
  | n :: r, y =>
    let a := f y n
    let b := bmvAll f r a.1
    (b.1, a.2 ++ b.2)

/-- `bmv` (R135 to R140, R270 to R272). -/
def runBmv (t : Nat) (s : Chip) (o : EngOp) : Chip :=
  let a := opW o 0
  let b := opW o 1
  let tg := tagOf (opW o 2)
  let cw := bitsOf a 57 54
  let cx := bitsOf a 53 50
  let rows := bitsOf a 49 46 + 1
  let two := bitsOf a 45 45
  let cont := bitsOf b 55 32
  let seqs := bitsBelow 24 (bitsOf b 23 0)
  let g := tagSpan tg
  let kEl := 256 * (g.2 - g.1)
  let code := leastCode ([
    if bmvPair cw cx && tg.kind == kindWanted cw cx then 0 else 0x7006,
    passTag tg kEl,
    if g.1 % 16 == 0 && cdiv (g.2 - g.1) 8 == 1 + two then 0 else 0x7008] ++
    seqs.map (fun n => setCheck (getTile s t) (cont.testBit n) (rows - 1) n tg))
  if code != 0 then refuseOp s t 1 o 0x02 code
  else
    let places := (List.range 32).flatMap (fun u => (List.range rows).map (fun r => (u, r)))
    let w := readWeights t cw (1 + two) (bitsOf a 16 0) rows places s
    let draw := Config.freeNat w.1.freeCtr
    let r := bmvAll (bmvSeq cw cx kEl rows tg.kind draw cont tg w.2) seqs (getTile w.1 t)
    let s1 := setTile { w.1 with freeCtr := w.1.freeCtr + 1 } t r.1
    finishOp (opFlags s1 t o (allFlags r.2) (countFlag flGX r.2) 0) t 1 o

/-- The elements of a set's record, row by row (R273). -/
def setRows (kind : Nat) (vals : List Elem) : List Elem :=
  if kind == 1 then
    (List.range 512).map (fun e => vals.getD (e % 256 / 8 * 16 + 8 * (e / 256) + e % 8) ⟨0, false⟩)
  else vals

/-- The row slots of a set from its record (R274). -/
def rowsSet (kind : Nat) (l : List Elem) : List Elem :=
  if kind == 1 then
    (List.range 512).map (fun j => l.getD (j % 16 / 8 * 256 + j / 16 * 8 + j % 8) ⟨0, false⟩)
  else l

/-- The tag line lies in the second data line of an INT64 record, or that line lies beyond the bank (R273). -/
def secondLineBad (kind ta d : Nat) : Bool :=
  kind == 1 && ((ta % 0x18000) / 64 == d / 64 + 1 || !stripeFits d 2)

/-- `kst` (R273). -/
def runKst (t : Nat) (s : Chip) (o : EngOp) : Chip :=
  let ta := bitsOf (opW o 0) 43 22
  let d := bitsOf (opW o 0) 16 0
  let z : Elem := ⟨0, false⟩
  let clear (st : Chip) : Chip := if o.mode.testBit 0 then modTile st t (fun y => setSet y o.kc {}) else st
  match (getSet (getTile s t) o.kc).nodes with
  | [] => finishOp (clear (writeTagLine s t ta ⟨0, 0, 0, 0, 0⟩ 512 1 true z z)) t 1 o
  | [n] =>
    if secondLineBad n.tag.kind ta d then refuseOp s t 1 o 0x02 0x20A1
    else
      let r : PRec := ⟨n.tag, if n.tag.kind == 1 then 256 else 512, if n.tag.kind == 1 then 2 else 1, false, z, z,
        setRows n.tag.kind n.vals⟩
      finishOp (clear (writeRec s t ta d r true)) t 1 o
  | _ => refuseOp s t 1 o 0x02 0x7001

/-- `kld` (R274). -/
def runKld (t : Nat) (s : Chip) (o : EngOp) : Chip :=
  let r := readRec s t (bitsOf (opW o 0) 43 22) (bitsOf (opW o 0) 16 0)
  match r.2 with
  | none => refuseOp r.1 t 1 o 0x02 0x20A1
  | some x =>
    let shape := (x.tag.kind == 0 && x.cols == 512 && x.rows == 1) || (x.tag.kind == 1 && x.cols == 256 && x.rows == 2)
    if !shape then refuseOp r.1 t 1 o 0x02 0x20A1
    else if x.empty then finishOp (modTile r.1 t (fun y => setSet y o.kc {})) t 1 o
    else finishOp (modTile r.1 t (fun y => setSet y o.kc ⟨16, [⟨x.tag, rowsSet x.tag.kind x.vals⟩]⟩)) t 1 o

/-- XLD_COMPLETE (R258). -/
def cmdXldComplete (tile : Nat) (s : Chip) : Out := completeOp s tile 1 [.xld] (runXld tile)

/-- BMV_COMPLETE (R272). -/
def cmdBmvComplete (tile : Nat) (s : Chip) : Out := completeOp s tile 1 [.bmv] (runBmv tile)

/-- KST_COMPLETE (R273). -/
def cmdKstComplete (tile : Nat) (s : Chip) : Out := completeOp s tile 1 [.kst] (runKst tile)

/-- KLD_COMPLETE (R274). -/
def cmdKldComplete (tile : Nat) (s : Chip) : Out := completeOp s tile 1 [.kld] (runKld tile)

end Sys2Proof.Machine
end

