-- ==== Sys2Proof/Machine/Combine.lean ====
section
/-! DEFINITION. The Tongs combine: partial records combined, attention partials merged and finished (R260 to
R263, R91 to R103; rows 85, 87 and 89). -/

namespace Sys2Proof.Machine

/-- The line addresses of a record: its tag line, and its data lines row by row (R260, R261). -/
def dataLines (d w cols rows : Nat) : List Nat :=
  (List.range rows).flatMap (fun i => (List.range (cdiv (cols * w) 64)).map (fun k => stripeAddr d w i (k * (64 / w))))

/-- Lines of a destination that partly overlap a source (R262): shared lines, unless the two are equal. -/
def overlapLines (dt dd st sd w cols rows : Nat) : List Nat :=
  if dt == st && dd == sd then []
  else
    let src := st :: dataLines sd w cols rows
    (dt :: dataLines dd w cols rows).filter (fun a => src.contains a)

/-- The bytes of lines become free values (R262: undefined). -/
def freeLines (t : Nat) : List Nat → Chip → Chip
  | [], s => s
  | a :: r, s =>
    let d := Config.freeNat s.freeCtr
    let ws := (List.range 8).map (fun k => (⟨Config.freeAt d k % 2 ^ 64, false⟩ : Elem))
    freeLines t r (writeWords { s with freeCtr := s.freeCtr + 1 } t (a / 8) ws)

/-- Two records read for a combination. -/
def readTwo (s : Chip) (t : Nat) (o : EngOp) : Chip × Option PRec × Option PRec :=
  let a := readRec s t (bitsOf (opW o 0) 43 22) (bitsOf (opW o 0) 21 0)
  let b := readRec a.1 t (bitsOf (opW o 1) 43 22) (bitsOf (opW o 1) 21 0)
  (b.1, a.2, b.2)

/-- The checks of a combination (R262, R263). -/
def combCheck (kinds : List Nat) (dd : Nat) (a b : PRec) : Nat :=
  leastCode [
    if a.cols == b.cols && a.rows == b.rows && a.tag.kind == b.tag.kind && !a.empty && !b.empty &&
      kinds.contains a.tag.kind && stripeFits dd a.rows then 0 else 0x20A1,
    tagCheck a.tag b.tag]

/-- The result written, with the bytes that a partly overlapping destination shares left free (R262). -/
def writeComb (s : Chip) (t : Nat) (o : EngOp) (r : PRec) : Chip :=
  let dt := bitsOf (opW o 2) 43 22
  let dd := bitsOf (opW o 2) 21 0
  let w := kindWidth r.tag.kind
  let shared (k : Nat) : List Nat :=
    overlapLines dt dd (bitsOf (opW o k) 43 22) (bitsOf (opW o k) 21 0) w r.cols r.rows
  freeLines t (shared 0 ++ shared 1) (writeRec s t dt dd r true)

/-- `pcomb` (R262). -/
def runPcomb (t : Nat) (s : Chip) (o : EngOp) : Chip :=
  let r := readTwo s t o
  match r.2 with
  | (some a, some b) =>
    let code := combCheck [0, 1] (bitsOf (opW o 2) 21 0) a b
    if code != 0 then refuseOp r.1 t 3 o 0x04 code
    else
      let left := if tagALeft a.tag then a else b
      let right := if tagALeft a.tag then b else a
      let v := addLists a.tag.kind left.vals right.vals
      let s1 := writeComb r.1 t o ⟨tagParent a.tag, a.cols, a.rows, false, ⟨0, false⟩, ⟨0, false⟩, v.1⟩
      finishOp (opFlags s1 t o v.2 0 0) t 3 o
  | _ => refuseOp r.1 t 3 o 0x04 0x20A1

/-- `amerge` (R263, R103). -/
def runAmerge (t : Nat) (s : Chip) (o : EngOp) : Chip :=
  let r := readTwo s t o
  match r.2 with
  | (some a, some b) =>
    let code := combCheck [2] (bitsOf (opW o 2) 21 0) a b
    if code != 0 then refuseOp r.1 t 3 o 0x04 code
    else
      let left := if tagALeft a.tag then a else b
      let right := if tagALeft a.tag then b else a
      let v := attMerge ⟨left.m, left.l, left.vals⟩ ⟨right.m, right.l, right.vals⟩
      let s1 := writeComb r.1 t o ⟨tagParent a.tag, a.cols, 1, false, v.1.m, v.1.l, v.1.o⟩
      finishOp (opFlags s1 t o v.2 0 0) t 3 o
  | _ => refuseOp r.1 t 3 o 0x04 0x20A1

/-- FP32 values stored one after another in bank-major order. -/
def putF32s (t : Nat) : Nat → List Elem → Chip → Chip
  | _, [], s => s
  | a, e :: r, s => putF32s t (a + 4) r (writePart s t a 4 e)

/-- A root with l = 0 counted in the unit that last wrote a record to the tile (R335; DESIGN CHOICE, log 20). -/
def noteEmpty (s : Chip) (t : Nat) (empty : Bool) : Chip :=
  let u := tget (fun _ => 0) s.mem.served t
  if empty && u != 0 then fsat s (aSWAGE_STATUS (u - 1)) 63 48 1 else s

/-- `afinal` (R263, R103). -/
def runAfinal (t : Nat) (s : Chip) (o : EngOp) : Chip :=
  let r := readRec s t (bitsOf (opW o 0) 43 22) (bitsOf (opW o 0) 21 0)
  let d := bitsOf (opW o 1) 21 0
  match r.2 with
  | none => refuseOp r.1 t 3 o 0x04 0x20A1
  | some a =>
    let code := leastCode [
      if a.tag.kind == 2 && !a.empty && inBanks d (4 * a.cols) then 0 else 0x20A1, if tagIsRoot a.tag then 0 else 0x7009]
    if code != 0 then refuseOp r.1 t 3 o 0x04 code
    else
      let v := attFinal ⟨a.m, a.l, a.vals⟩
      let s1 := ctrBank (putF32s t d v.1 r.1) t true (lineCount d (4 * a.cols))
      finishOp (opFlags (noteEmpty s1 t v.2.2) t o v.2.1 0 0) t 3 o

/-- PCOMB_COMPLETE (R262). -/
def cmdPcombComplete (tile : Nat) (s : Chip) : Out := completeOp s tile 3 [.pcomb] (runPcomb tile)

/-- AMERGE_COMPLETE (R263). -/
def cmdAmergeComplete (tile : Nat) (s : Chip) : Out := completeOp s tile 3 [.amerge] (runAmerge tile)

/-- AFINAL_COMPLETE (R263). -/
def cmdAfinalComplete (tile : Nat) (s : Chip) : Out := completeOp s tile 3 [.afinal] (runAfinal tile)

end Sys2Proof.Machine
end

