-- ==== Sys2Proof/Machine/Fuller.lean ====
section
/-! DEFINITION. The Fuller queue: CI16 streams, transform stages, c registers (R80 to R83, R88, R150 to R153,
R256, R257, R275 to R279; row 108). -/

namespace Sys2Proof.Machine

/-- A complex value with its poison mark. -/
structure CVal where
  i : Int
  q : Int
  pz : Bool

/-- The CI16 value of 32 bits (R65). -/
def ciOf (e : Elem) : CVal := if e.pz then ⟨0, 0, true⟩ else ⟨signed 16 e.v, signed 16 (e.v / 2 ^ 16), false⟩

/-- The 32 bits of a CI16 value; poison reads 0 (R104). -/
def ciBits (c : CVal) : Elem := if c.pz then ⟨0, true⟩ else ⟨wrap 16 c.i + 2 ^ 16 * wrap 16 c.q, false⟩

def cMul (a b : CVal) : CVal := ⟨a.i * b.i - a.q * b.q, a.i * b.q + a.q * b.i, a.pz || b.pz⟩
def cAdd (a b : CVal) : CVal := ⟨a.i + b.i, a.q + b.q, a.pz || b.pz⟩
def cSub (a b : CVal) : CVal := ⟨a.i - b.i, a.q - b.q, a.pz || b.pz⟩
def cConj (a : CVal) : CVal := ⟨a.i, -a.q, a.pz⟩
def cShl (a : CVal) (n : Nat) : CVal := ⟨a.i * ((2 ^ n : Nat) : Int), a.q * ((2 ^ n : Nat) : Int), a.pz⟩
/-- j times a value, or −j times it. -/
def cRot (pos : Bool) (a : CVal) : CVal := if pos then ⟨-a.q, a.i, a.pz⟩ else ⟨a.q, -a.i, a.pz⟩

/-- An integer brought to `w` bits: clamped with `sat`, else wrapped; either sets SA (R88). -/
def toWidth (w : Nat) (sat : Bool) (v : Int) : Int × Nat :=
  let hi : Int := ((2 ^ (w - 1) : Nat) : Int) - 1
  let lo : Int := -((2 ^ (w - 1) : Nat) : Int)
  if lo ≤ v ∧ v ≤ hi then (v, 0) else (if sat then max lo (min hi v) else signed w (wrap w v), flSA)

/-- A write-back: shifted right by n, rounded, brought to int16 (R81). -/
def writeBack (sat : Bool) (n : Nat) (c : CVal) : CVal × List Nat :=
  if c.pz then (⟨0, 0, true⟩, [flPZ])
  else
    let a := toWidth 16 sat (rneInt c.i n)
    let b := toWidth 16 sat (rneInt c.q n)
    (⟨a.1, b.1, false⟩, [a.2, b.2])

/-- The address of sample s of a stream (R275). -/
def sampleAddr (a s : Nat) : Nat :=
  (a / 0x18000 + s / 16 % 2) % 32 * 0x18000 + ((a % 0x18000) / 64 + s / 32) * 64 + s % 16 * 4

/-- `n` samples from sample `k` up. -/
def readStream (t a : Nat) : Nat → Nat → Chip → Chip × List CVal
  | 0, _, s => (s, [])
  | n + 1, k, s =>
    let e := readSome s t (sampleAddr a k) 4
    let r := readStream t a n (k + 1) e.1
    (r.1, ciOf e.2 :: r.2)

/-- A whole stream of `n` samples read. -/
def stream (t a n : Nat) (s : Chip) : Chip × List CVal :=
  let r := readStream t a n 0 s
  (ctrBank r.1 t false (cdiv n 16), r.2)

/-- Samples written from sample `k` up, two to a word. -/
def putStream (t a : Nat) : Nat → Nat → List CVal → Chip → Chip
  | n + 1, k, x :: y :: r, s =>
    let u := ciBits x
    let v := ciBits y
    putStream t a n (k + 2) r (writeWord s t (sampleAddr a k / 8) ⟨u.v + 2 ^ 32 * v.v, u.pz || v.pz⟩)
  | _, k, [x], s => writePart s t (sampleAddr a k) 4 (ciBits x)
  | _, _, _, s => s

def writeStream (t a : Nat) (l : List CVal) (s : Chip) : Chip :=
  ctrBank (putStream t a l.length 0 l s) t true (cdiv l.length 16)

/-- Leading bits equal to the sign bit, less one, of an int16 (R82). -/
def redundant (v : Int) : Nat :=
  let m := if v < 0 then (-v - 1).toNat else v.toNat
  if m == 0 then 15 else 14 - Nat.log2 m

/-- The redundant sign count of one part: 15 for 0, which never lowers a block's exponent (R82). -/
def partExp (v : Int) : Nat := if v == 0 then 15 else min 14 (redundant v)

/-- The block exponent (R82). -/
def blockExp (l : List CVal) : Elem :=
  ⟨l.foldl (fun m c => min m (min (partExp c.i) (partExp c.q))) 15, l.any (·.pz)⟩

/-- The exponent word's BEXP and RUN (R279). -/
def readExp (s : Chip) (t a : Nat) : Chip × Elem :=
  let r := readWord s t (a / 8)
  (ctrBank r.1 t false 1, r.2)

/-- BEXP alone written (R279). -/
def putBexp (t a : Nat) (b : Elem) (s : Chip) : Chip := ctrBank (writePart s t a 1 b) t true 1

/-- The common fields of a Fuller descriptor (R276). -/
structure FulOp where
  shift : Nat
  n : Nat
  taps : Nat
  span : Nat
  a : Nat
  b : Nat
  d : Nat
  e : Nat
  c : Nat
  sat : Bool
  bexp : Bool
  apply : Bool
  inv : Bool
  conj : Bool
  low : Bool

def fulOf (o : EngOp) : FulOp :=
  let x := opW o 0
  let y := opW o 1
  let z := opW o 2
  ⟨bitsOf x 57 53, bitsOf x 52 40 + 1, bitsOf x 39 35 + 1, 2 ^ bitsOf x 34 31, bitsOf x 21 0, bitsOf y 43 22,
    bitsOf y 21 0, bitsOf z 43 22, bitsOf z 21 0, o.mode.testBit 5, o.mode.testBit 4, o.mode.testBit 3,
    o.mode.testBit 2, o.mode.testBit 1, o.mode.testBit 0⟩

/-- Samples written back to a stream, with the block exponent where asked, and the flags raised (R153). -/
def fulOut (t : Nat) (o : EngOp) (f : FulOp) (l : List CVal) (s : Chip) : Chip :=
  let w := l.map (writeBack f.sat f.shift)
  let fl := w.flatMap (·.2)
  let out := w.map (·.1)
  let s1 := writeStream t f.d out s
  let s2 := if f.bexp then putBexp t f.e (blockExp out) s1 else s1
  opFlags s2 t o (allFlags fl) 0 (countFlag flSA fl)

/-- `fcmul` (R277). -/
def runFcmul (t : Nat) (o : EngOp) (s : Chip) : Chip :=
  let f := fulOf o
  let x := stream t f.a f.n s
  let y := stream t f.b f.n x.1
  let z := if f.low then stream t f.c f.n y.1 else (y.1, [])
  let l := (List.range f.n).map (fun k =>
    let b := y.2.getD k ⟨0, 0, false⟩
    let p := cMul (x.2.getD k ⟨0, 0, false⟩) (if f.conj then cConj b else b)
    if f.low then cAdd p (cShl (z.2.getD k ⟨0, 0, false⟩) f.shift) else p)
  fulOut t o f l z.1

/-- A lane accumulator with a product added (R80, R88). -/
def laneAdd (sat : Bool) (a : Lane) (p : CVal) : Lane × List Nat :=
  if a.pz || p.pz then ({ i := 0, q := 0, pz := true }, [flPZ])
  else
    let lim (v : Int) : Int × Nat :=
      let hi : Int := ((2 ^ 47 : Nat) : Int) - 1
      if sat then (if v < -hi then (-hi, flSA) else if hi < v then (hi, flSA) else (v, 0)) else toWidth 48 false v
    let x := lim (a.i + p.i)
    let y := lim (a.q + p.q)
    ({ i := x.1, q := y.1, pz := false }, [x.2, y.2])

def getLane (y : Tile) (k : Nat) : Lane := tget (fun _ => ({} : Lane)) y.lanes k
def setLane (y : Tile) (k : Nat) (a : Lane) : Tile := { y with lanes := tset (fun _ => ({} : Lane)) k a y.lanes }

/-- Products added to the lane accumulators, sample after sample. -/
def accumLanes (sat : Bool) : Nat → List CVal → Tile → Tile × List Nat
  | _, [], y => (y, [])
  | k, p :: r, y =>
    let a := laneAdd sat (getLane y (k % 32)) p
    let q := accumLanes sat (k + 1) r (setLane y (k % 32) a.1)
    (q.1, a.2 ++ q.2)

/-- `fcmac` (R277). -/
def runFcmac (t : Nat) (o : EngOp) (s : Chip) : Chip :=
  let f := fulOf o
  let x := stream t f.a f.n s
  let y := stream t f.b f.n x.1
  let l := (x.2.zip y.2).map (fun p => cMul p.1 (if f.conj then cConj p.2 else p.2))
  let r := accumLanes f.sat 0 l (getTile y.1 t)
  opFlags (setTile y.1 t r.1) t o (allFlags r.2) 0 (countFlag flSA r.2)

/-- The 32 values of a c register. -/
def readC (y : Tile) (c : Nat) : List CVal :=
  let v := (tget (fun _ => (0#1024 : CWord)) y.c c).toNat
  let m := (tget (fun _ => (0#32 : BitVec 32)) y.cm c).toNat
  (List.range 32).map (fun j => ciOf ⟨lane 32 v j, m.testBit j⟩)

/-- A c register written: 32 elements of 32 bits with their marks. -/
def writeC (y : Tile) (c : Nat) (l : List Elem) : Tile :=
  { y with
    c := tset (fun _ => (0#1024 : CWord)) c (BitVec.ofNat 1024 (packLanes 32 (l.map (·.v)))) y.c
    cm := tset (fun _ => (0#32 : BitVec 32)) c (BitVec.ofNat 32 (packLanes 1 (l.map (fun e => b2n e.pz)))) y.cm }

/-- `fwb` (R277). -/
def runFwb (t : Nat) (o : EngOp) (s : Chip) : Chip :=
  let f := fulOf o
  let y := getTile s t
  let acc := (List.range 32).map (fun k => let a := getLane y k; (⟨a.i, a.q, a.pz⟩ : CVal))
  let s1 := setTile s t { y with lanes := [] }
  if f.low then
    let w := acc.map (writeBack f.sat f.shift)
    let fl := w.flatMap (·.2)
    let s2 := modTile s1 t (fun z => writeC z o.kc (w.map (fun x => ciBits x.1)))
    let s3 := if f.bexp then putBexp t f.e (blockExp (w.map (·.1))) s2 else s2
    opFlags s3 t o (allFlags fl) 0 (countFlag flSA fl)
  else fulOut t o f acc s1

/-- `ffir` (R277). -/
def runFfir (t : Nat) (o : EngOp) (s : Chip) : Chip :=
  let f := fulOf o
  let h := readC (getTile s t) o.kc
  let x := stream t f.a (f.n + f.taps - 1) s
  let tap (k : Nat) : CVal := let c := h.getD k ⟨0, 0, false⟩; if f.conj then cConj c else c
  let l := (List.range f.n).map (fun k =>
    (List.range f.taps).foldl (fun a j => cAdd a (cMul (tap j) (x.2.getD (k + f.taps - 1 - j) ⟨0, 0, false⟩))) ⟨0, 0, false⟩)
  fulOut t o f l x.1

/-- `fmag2` (R277). -/
def runFmag2 (t : Nat) (o : EngOp) (s : Chip) : Chip :=
  let f := fulOf o
  let x := stream t f.a f.n s
  fulOut t o f (x.2.map (fun a => ⟨a.i * a.i + a.q * a.q, 0, a.pz⟩)) x.1

/-- `fbexp` (R277). -/
def runFbexp (t : Nat) (o : EngOp) (s : Chip) : Chip :=
  let f := fulOf o
  let x := stream t f.a f.n s
  let b := blockExp x.2
  opFlags (putBexp t f.e b x.1) t o (flIf b.pz flPZ) 0 0

/-- The outputs of a radix-2 stage before write-back, in place order (R278). -/
def radix2 (n span : Nat) (x w : Nat → CVal) : List CVal :=
  (List.range n).map (fun k =>
    let i := k % span
    let base := k / (2 * span) * (2 * span)
    let u := x (base + i)
    let v := x (base + i + span)
    if k % (2 * span) < span then cShl (cAdd u v) 14 else cMul (cSub u v) (w i))

/-- The outputs of a radix-4 stage before write-back, in place order (R278). -/
def radix4 (inv : Bool) (n span : Nat) (x w : Nat → CVal) : List CVal :=
  (List.range n).map (fun k =>
    let i := k % span
    let m := k / span % 4
    let base := k / (4 * span) * (4 * span) + i
    let x0 := x base
    let x1 := x (base + span)
    let x2 := x (base + 2 * span)
    let x3 := x (base + 3 * span)
    let y := match m with
      | 0 => cAdd (cAdd x0 x1) (cAdd x2 x3)
      | 1 => cSub (cSub (cAdd x0 (cRot inv x1)) x2) (cRot inv x3)
      | 2 => cSub (cAdd (cSub x0 x1) x2) x3
      | _ => cAdd (cSub (cSub x0 (cRot inv x1)) x2) (cRot inv x3)
    if m == 0 then cShl y 14 else cMul y (w (3 * i + m - 1)))

/-- A transform stage (R278, R279). -/
def runStage (four : Bool) (t : Nat) (o : EngOp) (s : Chip) : Chip :=
  let f := fulOf o
  let useE := f.apply || f.bexp
  let e0 := if useE then readExp s t f.e else (s, ⟨0, false⟩)
  let b := if f.apply then e0.2.v % 256 else 0
  let x := stream t f.a f.n e0.1
  let w := stream t f.b (if four then 3 * f.span else f.span) x.1
  let mark := f.apply && e0.2.pz
  let xs := (x.2.map (fun c => (⟨(cShl c b).i, (cShl c b).q, c.pz || mark⟩ : CVal))).toArray
  let ws := w.2.toArray
  let gx (k : Nat) : CVal := xs.getD k ⟨0, 0, false⟩
  let gw (k : Nat) : CVal := ws.getD k ⟨0, 0, false⟩
  let l := if four then radix4 f.inv f.n f.span gx gw else radix2 f.n f.span gx gw
  let r := l.map (writeBack f.sat (14 + f.shift))
  let fl := r.flatMap (·.2)
  let out := r.map (·.1)
  let s1 := opFlags (writeStream t f.d out w.1) t o (allFlags fl) 0 (countFlag flSA fl)
  if useE then
    let be := blockExp out
    let run := wrap 16 (signed 16 (e0.2.v / 2 ^ 16) + (b : Int) - (f.shift : Int))
    let nb := if f.bexp then be.v else e0.2.v % 256
    ctrBank (writeWord s1 t (f.e / 8) ⟨nb + 2 ^ 16 * run, e0.2.pz || (f.bexp && be.pz)⟩) t true 1
  else s1

/-- `cld` (R257). -/
def runCld (t : Nat) (o : EngOp) (s : Chip) : Chip :=
  let r := readWords s t (opW o 1 / 8) 16
  let l := r.2.flatMap (fun e => [(⟨e.v % 2 ^ 32, e.pz⟩ : Elem), ⟨e.v / 2 ^ 32, e.pz⟩])
  modTile (ctrBank r.1 t false 2) t (fun y => writeC y (opW o 0) l)

/-- The 16 words of a c register, each with the marks of its two lanes (R225). -/
def cWords (y : Tile) (c : Nat) : List Elem :=
  let v := (tget (fun _ => (0#1024 : CWord)) y.c c).toNat
  let m := (tget (fun _ => (0#32 : BitVec 32)) y.cm c).toNat
  (List.range 16).map (fun j => (⟨lane 64 v j, m.testBit (2 * j) || m.testBit (2 * j + 1)⟩ : Elem))

/-- `cst` (R257). -/
def runCst (t : Nat) (o : EngOp) (s : Chip) : Chip :=
  ctrBank (writeWords s t (opW o 1 / 8) (cWords (getTile s t) (opW o 0))) t true 2

/-- PZ in the issuing strand for a move of a marked value (R76). -/
def movePZ (t : Nat) (o : EngOp) (c : Bool) (s : Chip) : Chip := if c then raiseFlags s t o.strand flPZ else s

/-- `mvcv`: the pending write of vd is made (R256). -/
def runMvcv (t : Nat) (o : EngOp) (s0 : Chip) : Chip :=
  let l := cWords (getTile s0 t) (opW o 1)
  let s := movePZ t o (l.any (·.pz)) s0
  let s1 := modStrand s t o.strand (fun x =>
    wrV x (opW o 0) (packLanes 64 (l.map (·.v))) (packLanes 1 (l.map (fun e => b2n e.pz))))
  setBusy s1 t o.strand (codeV (opW o 0)) false

/-- `mvvc` (R256). -/
def runMvvc (t : Nat) (o : EngOp) (s : Chip) : Chip :=
  modTile (movePZ t o (o.vpz != 0) s) t (fun y => writeC y (opW o 0)
    ((List.range 32).map (fun j => (⟨lane 32 o.vdat j, o.vpz.testBit (j / 2)⟩ : Elem))))

/-- The operation at the head of the Fuller queue runs; those with a CNT field decrement it (R241, R277). -/
def runFuller (t : Nat) (s : Chip) (o : EngOp) : Chip :=
  let quiet (st : Chip) : Chip := retryTile (popOp st t 2 o) t
  match o.kind with
  | .fcmul => finishOp (runFcmul t o s) t 2 o
  | .fcmac => finishOp (runFcmac t o s) t 2 o
  | .fwb => finishOp (runFwb t o s) t 2 o
  | .ffir => finishOp (runFfir t o s) t 2 o
  | .fmag2 => finishOp (runFmag2 t o s) t 2 o
  | .fbexp => finishOp (runFbexp t o s) t 2 o
  | .fr4 => finishOp (runStage true t o s) t 2 o
  | .fr2 => finishOp (runStage false t o s) t 2 o
  | .cld => quiet (runCld t o s)
  | .cst => quiet (runCst t o s)
  | .mvcv => quiet (runMvcv t o s)
  | .mvvc => quiet (runMvvc t o s)
  | _ => s

/-- FULLER_OP_COMPLETE (R277, R256, R257). -/
def cmdFullerOpComplete (tile : Nat) (s : Chip) : Out :=
  completeOp s tile 2 [.fcmul, .fcmac, .fwb, .ffir, .fmag2, .fbexp, .fr4, .fr2, .cld, .cst, .mvcv, .mvvc] (runFuller tile)

end Sys2Proof.Machine
end

