-- ==== Sys2Proof/Machine/Mover.lean ====
section
/-! DEFINITION. The tile mover: transposing copies, taps, and the events of a `send` (R186, R216 to R222, R228,
R259, R280, R281; rows 83, 110, 112 and 114 to 117). -/

namespace Sys2Proof.Machine

/-- Element c of row r of a packed array of rows (R259). -/
def cell (rows : List Nat) (w r c : Nat) : Nat := lane w (rows.getD r 0) c

/-- The rows of the source of `mvt`: bits and whether any word of the row is marked, element by element. -/
def readPitch (t w cols pitch : Nat) : Nat → Nat → Chip → Chip × List (List Elem)
  | 0, _, s => (s, [])
  | n + 1, a, s =>
    let b := readWords s t (a / 8) (cdiv (cols * w) 64)
    let es := (List.range cols).map (fun c =>
      let e := b.2.getD (w * c / 64) ⟨0, false⟩
      (⟨lane w e.v (c % (64 / w)), e.pz⟩ : Elem))
    let q := readPitch t w cols pitch n (a + pitch) (ctrBank b.1 t false (lineCount a (cdiv (cols * w) 8)))
    (q.1, es :: q.2)

/-- A row of elements as bytes with a mark for each byte. -/
def rowBytes (w : Nat) (l : List Elem) : List (Byte × Bool) :=
  let bs := leBytes (cdiv (l.length * w) 8) (packLanes w (l.map (·.v)))
  (List.range bs.length).map (fun k =>
    (bs.getD k 0#8, (List.range (cdiv 8 w)).any (fun j => (l.getD ((8 * k + j * w) / w) ⟨0, false⟩).pz)))

/-- Bytes written word by word, a word marked when any of its new bytes is. -/
def putBytes (t : Nat) : Nat → Chip → Nat → List (Byte × Bool) → Chip
  | 0, s, _, _ => s
  | n + 1, s, a, bs =>
    if bs.isEmpty then s
    else
      let k := min (8 - a % 8) bs.length
      let p := bs.take k
      putBytes t n (writeSome s t a k ⟨leNat (p.map (·.1)), p.any (·.2)⟩) (a + k) (bs.drop k)

/-- Bytes with marks that another writes into the banks, counted. -/
def storeMarked (s : Chip) (t a : Nat) (bs : List (Byte × Bool)) : Chip :=
  ctrBank (putBytes t (bs.length + 1) s a bs) t true (lineCount a bs.length)

/-- The destination rows of `mvt` written. -/
def writePitch (t w pitch : Nat) : Nat → List (List Elem) → Chip → Chip
  | _, [], s => s
  | a, l :: r, s =>
    let bs := rowBytes w l
    writePitch t w pitch (a + pitch) r (ctrBank (putBytes t (bs.length + 1) s a bs) t true (lineCount a bs.length))

/-- `mvt` (R259). -/
def runMvt (t : Nat) (s : Chip) (o : EngOp) : Chip :=
  let a := opW o 0
  let b := opW o 1
  let w := mvtBits a
  let rows := bitsOf a 55 44 + 1
  let cols := bitsOf b 55 44 + 1
  let r := readPitch t w cols (bitsOf b 43 22) rows (bitsOf a 43 22) s
  let out := (List.range cols).map (fun c => r.2.map (fun l => l.getD c ⟨0, false⟩))
  finishOp (writePitch t w (bitsOf b 21 0) (bitsOf a 21 0) out r.1) t 4 o

/-- A piece sent to the collector. -/
def sendPiece (s : Chip) (t watch : Nat) (d : TapData) : Chip :=
  { s with nextId := s.nextId + 1, taps := s.taps ++ [⟨s.nextId, tileSet s t, watch, d⟩] }

/-- `dtap` (R280). -/
def runDtap (t : Nat) (s : Chip) (o : EngOp) : Chip :=
  let b := opW o 1
  let r := bankRead s t (bitsOf (opW o 0) 21 0) (bitsOf b 21 0)
  finishOp (sendPiece r.1 t (bitsOf b 63 48) (.digest (bitsOf b 47 24) (bitOf b 23) r.2.1 r.2.2)) t 4 o

/-- Element j of a piece in the canonical layout (R113): its bits, its scale byte, and whether its words are marked. -/
def pieceElem (c : Nat) (bits : Nat) (pz : Nat → Bool) (j : Nat) : Nat × Nat × Bool :=
  let w := elemBits c
  if isMX c then
    let blk := 8 + 32 * w
    let lo := j / 32 * blk
    let e := lo + 8 + j % 32 * w
    (bits >>> e % 2 ^ w, bits >>> lo % 256, pz (lo / 8) || pz (e / 8) || pz ((e + w - 1) / 8))
  else (bits >>> (w * j) % 2 ^ w, 0x7F, pz (w * j / 8) || pz ((w * j + w - 1) / 8))

/-- The FP32 value of an element that `stap` reads, exact for every format 0 to 9. -/
def pieceValue (c x sc : Nat) : FV :=
  if c == 0 then (let i := signed 8 x; .fin (decide (i < 0)) i.natAbs 0)
  else if isMX c then mxElem c sc x
  else decodeF ((elemFmt c).getD fFP32) x

/-- What `stap` keeps of the elements it has read (R281). -/
structure StatAcc where
  min : Nat
  max : Nat
  nfin : Nat
  nnan : Nat
  ninf : Nat
  pz : Bool
  leaves : List Elem

/-- One element; a marked one counts as NaN (R672). Its leaf in the sum is +0 unless it is finite. -/
def statElem (c : Nat) (a : StatAcc) (e : Nat × Nat × Bool) : StatAcc :=
  let z : Elem := ⟨0, false⟩
  if e.2.2 then { a with nnan := a.nnan + 1, pz := true, leaves := z :: a.leaves }
  else
    match pieceValue c e.1 e.2.1 with
    | .nan => { a with nnan := a.nnan + 1, leaves := z :: a.leaves }
    | .inf _ => { a with ninf := a.ninf + 1, leaves := z :: a.leaves }
    | v =>
      let x := (toF32 v).1
      { a with min := (fMinMax false a.min x).1, max := (fMinMax true a.max x).1, nfin := a.nfin + 1,
               leaves := ⟨x, false⟩ :: a.leaves }

/-- Lists of 256. -/
def chunks256 : Nat → List Elem → List (List Elem)
  | 0, _ => []
  | n + 1, l => if l.isEmpty then [] else l.take 256 :: chunks256 n (l.drop 256)

/-- `stap` (R281). -/
def runStap (t : Nat) (s : Chip) (o : EngOp) : Chip :=
  let a := opW o 0
  let n := bitsOf (opW o 1) 31 0
  let c := bitsOf a 57 54
  let tg := tagOf (opW o 2)
  let code := leastCode [
    if c ≤ 9 then 0 else 0x7006, if tg.kind == 0 then 0 else 0x7006, passTag tg n]
  if code != 0 then refuseOp s t 4 o 0x05 code
  else
    let ad := bitsOf a 21 0
    let w0 := ad / 8
    let bytes := canonBytes c n
    let r := readWords s t w0 ((ad + bytes + 7) / 8 - w0)
    let marks := r.2.toArray
    let bits := packLanes 64 (r.2.map (·.v)) >>> (8 * (ad % 8))
    let acc := (List.range n).foldl (fun st j =>
      statElem c st (pieceElem c bits (fun k => (marks.getD ((ad % 8 + k) / 8) ⟨0, false⟩).pz) j))
      ⟨0x7F800000, negInfF32, 0, 0, 0, false, []⟩
    let gs := (chunks256 (n / 256 + 1) acc.leaves.reverse).map (tree 0)
    let sum := tree 0 (gs.map (·.1))
    let s1 := ctrBank r.1 t false (lineCount ad bytes)
    let s2 := sendPiece s1 t (bitsOf a 53 38) (.stats tg acc.min acc.max acc.nfin acc.nnan acc.ninf sum.1.v acc.pz)
    finishOp (opFlags s2 t o (flOr (flIf acc.pz flPZ) (flOr sum.2 (allFlags (gs.map (·.2))))) 0 0) t 4 o

-- send events ----------------------------------------------------------------------------------------------

/-- A message on its way. -/
def findFlight (s : Chip) (id : Nat) : Option Flight := s.flights.find? (fun f => f.id == id)

def setFlight (s : Chip) (id : Nat) (g : Flight → Flight) : Chip :=
  { s with flights := s.flights.map (fun f => if f.id == id then g f else f) }

def dropFlight (s : Chip) (id : Nat) : Chip := { s with flights := s.flights.filter (fun f => f.id != id) }

/-- The mover's entry of a message is done with. -/
def popSend (s : Chip) (t id : Nat) : Chip :=
  modTile s t (fun y => { y with qMov := y.qMov.filter (fun o => !(o.kind == .send && o.w == [id])) })

/-- An earlier message of the same strand to the same tile has not been written (R219). -/
def earlierSend (s : Chip) (f : Flight) : Bool :=
  s.flights.any (fun g => decide (g.id < f.id) && g.src == f.src && g.strand == f.strand && g.dst == f.dst && !g.arrived)

/-- The code with which a destination refuses a message (R221, R47): 0 when it takes it. -/
def sendCode (s : Chip) (f : Flight) : Nat :=
  leastCode [
    if f.absent || !tileOpen s f.dst then 0x2081 else 0,
    if !f.absent && tileDie f.src != tileDie f.dst && !knuckleOpen s then 0x2094 else 0]

/-- SEND_ARRIVAL (R218, R220, R222): every line is written, the destination counter is decremented, and the
acknowledgement leaves. A message cut short by a reset of its source writes the words that had left and decrements
nothing (R186); it has no acknowledgement. -/
def cmdSendArrival (id : Nat) (s : Chip) : Out :=
  .next (match findFlight s id with
    | none => s
    | some f =>
      if f.arrived || earlierSend s f || sendCode s f != 0 then s
      else
        let n := f.words.length
        let s1 := popSend (ctrBank (writeWords s f.dst (f.raddr / 8) f.words) f.dst true (lineCount f.raddr (8 * n))) f.src id
        let s3 := if f.cut || f.fn.testBit 1 then s1 else acArrive s1 f.dst f.rcnt
        let s4 := if f.cut || f.fn.testBit 2 then dropFlight s3 id
          else setFlight (inject s3 f.dst f.src 1 (f.fn.testBit 0)) id (fun g => { g with arrived := true })
        retryTile (retryTile s4 f.dst) f.src)

/-- SEND_ACK_ARRIVAL (R222, R186): an acknowledgement of a send issued before a reset decrements nothing. -/
def cmdSendAckArrival (id : Nat) (s : Chip) : Out :=
  .next (match findFlight s id with
    | none => s
    | some f =>
      if !f.arrived || (tileDie f.src != tileDie f.dst && !knuckleOpen s) then s
      else dropFlight (if f.acked then s else acArrive s f.src f.lcnt) id)

/-- SEND_REFUSED (R218, R221): refused at its destination or with its route lost before or after it was written;
the sender's strand gets the code as an asynchronous fault with its LADDR. -/
def cmdSendRefused (id : Nat) (s : Chip) : Out :=
  .next (match findFlight s id with
    | none => s
    | some f =>
      let code := if f.arrived then (if tileDie f.src != tileDie f.dst && !knuckleOpen s then 0x2094 else 0) else sendCode s f
      if code == 0 then s
      else
        let s1 := dropFlight (popSend s f.src id) id
        if f.cut || f.acked then s1
        else retryTile (postFault (tileStatus s1 f.src code) f.src f.strand ⟨code, 0x05, f.laddr⟩) f.src)

/-- ASYNC_FAULT_TAKEN (R228, R230, R231): the strand takes its lowest pending fault, its wait abandoned; the loop cache
that it held is free for others (R154). -/
def cmdAsyncFaultTaken (tile strand : Nat) (s : Chip) : Out :=
  onStrand tile strand s (fun s =>
    match lowestPend (getStrand s tile strand).pend with
    | some f => if strandRuns s tile strand then retryCache (takePending s tile strand f) tile else s
    | none => s)

/-- MVT_COMPLETE (R259). -/
def cmdMvtComplete (tile : Nat) (s : Chip) : Out := completeOp s tile 4 [.mvt] (runMvt tile)

/-- DTAP_COMPLETE (R280). -/
def cmdDtapComplete (tile : Nat) (s : Chip) : Out := completeOp s tile 4 [.dtap] (runDtap tile)

/-- STAP_COMPLETE (R281). -/
def cmdStapComplete (tile : Nat) (s : Chip) : Out := completeOp s tile 4 [.stap] (runStap tile)

end Sys2Proof.Machine
end

