-- ==== Sys2Proof/Machine/Clock.lean ====
section
/-! DEFINITION. Reading the time bases, and the stamps that records carry (R371, R489 to R492). -/

namespace Sys2Proof.Machine

/-- A time base in units of 2^-34 ns. -/
def tbGet (s : Chip) (b : Nat) : Nat := tget (fun _ => 0) s.time.tb b

/-- Values of a base: 64-bit seconds (R489). -/
def tvMod : Nat := 2 ^ 64 * 1000000000 * 2 ^ 34

def tbSet (s : Chip) (b v : Nat) : Chip :=
  { s with time := { s.time with tb := tset (fun _ => 0) b (v % tvMod) s.time.tb } }

/-- Whole nanoseconds of a base since its epoch. -/
def tbNanos (s : Chip) (b : Nat) : Nat := tbGet s b / 2 ^ 34

/-- The 64-bit seconds of a value, and the register form of its nanoseconds and fraction (R489, R508). -/
def tvSec (v : Nat) : Nat := v / 2 ^ 34 / 1000000000 % 2 ^ 64
def tvNsf (v : Nat) : Nat := (v / 2 ^ 34 % 1000000000) * 2 ^ 16 + v / 2 ^ 18 % 2 ^ 16

/-- The value of seconds and nanoseconds with fraction. -/
def tvOf (sec nsf : Nat) : Nat := (sec * 1000000000 + bitsOf nsf 47 16) * 2 ^ 34 + bitsOf nsf 15 0 * 2 ^ 18

/-- What a base gains in `k` steps of 1.25 ns (R491): 1.25 ns and its frequency adjustment. -/
def tbGain (s : Chip) (b k : Nat) : Nat :=
  (((k : Int) * (5 * 2 ^ 32 + 5 * signed 32 (fget s (aTB b 0x18) 31 0))).toNat)

/-- The stamp of a record: low 32 bits of the seconds above the nanoseconds (R371). -/
def stamp (s : Chip) (b : Nat) : Nat :=
  let n := tbNanos s b
  n / 1000000000 % 2 ^ 32 * 2 ^ 32 + n % 1000000000

/-- A number read little-endian from `n` bytes of a byte list at offset `o`. -/
def bNat (l : List Byte) (o n : Nat) : Nat := leNat ((l.drop o).take n)

/-- `n` bytes of a list replaced at offset `o` by a number. -/
def bSet (l : List Byte) (o n v : Nat) : List Byte := l.take o ++ leBytes n v ++ l.drop (o + n)

/-- The bytes from offset `o`, `n` of them, are 0. -/
def bZero (l : List Byte) (o n : Nat) : Bool := bNat l o n == 0

/-- The eight staged words of a function as 64 bytes (R387, R685). -/
def stageBytes (s : Chip) (key : Nat → Nat) : List Byte :=
  (List.range 8).flatMap (fun i => leBytes 8 (barGet s (key i)))

/-- 64 bytes put into eight staged words. -/
def putStage (s : Chip) (key : Nat → Nat) (l : List Byte) : Chip :=
  forEach (List.range 8) (fun st i => barSet st (key i) (bNat l (8 * i) 8)) s

end Sys2Proof.Machine
end

