-- ==== Sys2Proof/Machine/Counters.lean ====
section
/-! DEFINITION. Counter sets (rows 319 and 320; R662 to R668, R685). -/

namespace Sys2Proof.Machine

/-- A set closes (R665, R666, R668): the closing values take the live ones, which restart at 0. -/
def closeSet (s : Chip) (p cause : Nat) : Chip :=
  let mine := s.ctrLive.filter (fun x => x.1 / 256 == p)
  let k := aCTR_STATUS p
  let counted := if fbit s k 1 then fsat s k 31 16 1 else s
  let s1 := { counted with
    ctrClosed := mine.foldl (fun t x => tset (fun _ => 0) x.1 x.2 t) (tclear (256 * p) (256 * p + 256) s.ctrClosed)
    ctrLive := tclear (256 * p) (256 * p + 256) s.ctrLive }
  let s2 := fsetb (fset (fset s1 k 63 32 (fget s1 k 63 32 + 1)) k 11 8 cause) k 1 true
  barSet (fsetb s2 k 2 (mine.any (fun x => x.2 == 2 ^ 64 - 1))) (aCTR_CLOSE_TIME p) (stamp s 2)

/-- A close in a boundary in which the set may have closed already: one close, with the lowest cause (R665); `s0` is the
state before the boundary. -/
def closeOnce (s0 s : Chip) (p cause : Nat) : Chip :=
  if fget s (aCTR_STATUS p) 63 32 == fget s0 (aCTR_STATUS p) 63 32 then closeSet s p cause else s

/-- COUNTER_CLOSE (R665, R666, R685). -/
def cmdCounterClose (sets : Nat) (s : Chip) : Out :=
  .next (forEach (bitsBelow 17 sets) (fun st p => closeSet st p 1) s)

/-- CLOSE_TIME_READ (R668). -/
def cmdCloseTimeRead (set : Nat) (s : Chip) : Out :=
  onUnit "counter set" 17 set s (fun st =>
    { fsetb st (aCTR_STATUS set) 1 false with resp := BitVec.ofNat 64 (barGet st (aCTR_CLOSE_TIME set)) })

end Sys2Proof.Machine
end

