-- ==== Sys2Proof/Machine/SwageIn.lean ====
section
/-! DEFINITION. Command records of the Swage units and their acceptance (R316, R317, R319, R320, R326, R328, R334, R337,
R338). -/

namespace Sys2Proof.Machine

def getUnit (s : Chip) (u : Nat) : SwUnit := tget (fun _ => {}) s.mem.units u
def setUnit (s : Chip) (u : Nat) (x : SwUnit) : Chip :=
  { s with mem := { s.mem with units := tset (fun _ => {}) u x s.mem.units } }

/-- The field of `n` bytes at offset `o` of a record. -/
def swField (r : List MByte) (o n : Nat) : Nat := leNat (unmark ((r.drop o).take n))

/-- Head dimension D (R313). -/
def swDim (x : Nat) : Nat := 64 * 2 ^ x

/-- Key and value formats of a page (R313). -/
def kvFmt (c : Nat) : Bool := c == 1 || c == 2 || c == 6 || c == 7 || c == 8

/-- Query formats for keys of a format (R319). -/
def queryPair (fq f : Nat) : Bool := kvFmt f && (if f == 8 then fq == 8 else fq == 1 || fq == 6)

/-- The row pitch P of D elements of a format (R314). -/
def rowPitch (f d : Nat) : Nat := cdiv (d * elemBits f) 512 * 64

/-- Bytes of a row's scales, padded to 64 (R319, R326). -/
def scalePad (f n : Nat) : Nat := if isMX f then cdiv (n / 32) 64 * 64 else 0

/-- The length of a QUERY record. -/
def queryLen (fq d gq : Nat) : Nat := 64 + gq * rowPitch fq d + scalePad fq (gq * d)

/-- The length of an APPEND record to a page of a format. -/
def appendLen (f d : Nat) : Nat := 64 + 2 * (rowPitch f d + scalePad f d)

/-- The lengths that an APPEND record can have. -/
def appendLens : List Nat := [1, 6, 8].flatMap (fun f => [64, 128, 256].map (appendLen f))

/-- The bytes of a channel's local region (R287, R288). -/
def localLen (s : Chip) (c : Nat) : Nat :=
  if inSet s c then localSize s else min (localSize s) ((getChan s c).cap * 2 ^ 30)

/-- The bytes `o` to `o + n − 1` lie within the channel's local region. -/
def localHolds (s : Chip) (c o n : Nat) : Bool := decide (o + n ≤ localLen s c)

/-- The return areas fit in the tile (R320, R323): `n` tag lines and `n` rows. -/
def returnFits (rtag rdata n : Nat) : Bool :=
  decide (rtag + 64 * n ≤ bankEnd) && decide (rdata < bankEnd) && decide (rdata % 0x18000 / 64 + n ≤ 1536)

/-- The fields that a QUERY leaves at 0, and its ranges (R319, R320). -/
def queryBad (r : List MByte) : Bool :=
  let f (o n : Nat) := swField r o n
  let gq := bitsOf (f 4 1) 3 0 + 1
  let ng := f 36 2
  !(f 1 1 / 64 == 0 && f 4 1 / 16 == 0 && f 6 1 / 8 == 0 && f 40 4 / 2 ^ 20 == 0 && f 44 4 / 2 ^ 22 == 0 &&
      f 48 4 / 2 ^ 22 == 0 && f 52 12 == 0) ||
    f 6 1 == 7 || ng == 0 || decide (256 < ng) || decide (512 < ng * gq) || decide (f 24 4 < f 20 4) ||
    f 28 8 % 64 != 0 || f 44 4 % 64 != 0 || f 48 4 % 64 != 0 || !returnFits (f 44 4) (f 48 4) (ng * gq)

/-- A descriptor whose reserved fields are not 0 (R313). -/
def descReserved (d : List MByte) : Bool :=
  swField d 15 1 / 16 != 0 || swField d 16 4 / 2 ^ 20 != 0 || swField d 21 3 != 0 || swField d 32 32 != 0

/-- The codes of a record of each kind; a header that carries poison is malformed (DEDUCED, log 20). -/
def recordCodes (s : Chip) (u : Nat) (r : List MByte) : List Nat :=
  let f (o n : Nat) := swField r o n
  let n := r.length
  let cmd := f 0 1
  let hdr := (r.take 64).any (·.2)
  if decide (n < 64) || decide (8256 < n) || cmd == 0 || decide (3 < cmd) then [0x2046]
  else if cmd == 1 then
    let pair := queryPair (f 5 1) (f 19 1) && decide (f 7 1 ≤ 2)
    [if pair && n != queryLen (f 5 1) (swDim (f 7 1)) (bitsOf (f 4 1) 3 0 + 1) then 0x2046 else 0,
      if hdr || queryBad r then 0x2040 else 0,
      if pair then 0 else 0x2041,
      if localHolds s u (f 28 8) 64 then 0 else 0x2042]
  else if cmd == 2 then
    [if appendLens.contains n then 0 else 0x2046,
      if hdr || bitOf (f 1 1) 6 || f 8 8 % 64 != 0 || f 23 41 != 0 then 0x2040 else 0,
      if localHolds s u (f 8 8) 64 then 0 else 0x2042]
  else
    let d := (r.drop 64).take 64
    [if n == 128 then 0 else 0x2046,
      if r.any (·.2) || bitOf (f 1 1) 6 || f 8 8 % 64 != 0 || f 16 48 != 0 || swField d 0 8 != 0 || descReserved d then 0x2040
      else 0,
      if localHolds s u (f 8 8) 64 && localHolds s u (swField d 24 8) 1 then 0 else 0x2042]

/-- A Swage code recorded by a unit (R336). -/
def swLog (s : Chip) (u code : Nat) : Chip :=
  fsat (fset s (aSWAGE_ERR u) 63 48 code) (aSWAGE_ERR u) 31 0 1

/-- QUEUED and ACTIVE as they stand (R335). -/
def swCounts (s : Chip) (u : Nat) : Chip :=
  let x := getUnit s u
  fset (fset s (aSWAGE_STATUS u) 31 26 (min 32 x.queue.length)) (aSWAGE_STATUS u) 25 21
    ((x.ctxs.filter (fun c => c.2.isSome)).length)

/-- The code with which a unit refuses any command (R298, R309, R317, R334, R337, R340). -/
def unitCodes (s : Chip) (u p : Nat) : List Nat :=
  let k := aSWAGE_CTL u
  [if !fbit s aMEM_MAP 0 || chanState s u == 0 || chanState s u == 1 then 0x2004 else 0,
    if chanFailed s u || chanState s u == 3 then 0x2003 else 0,
    if fbit s k 0 && !fbit s k 1 && domainOn s (38 + u / 8) then 0 else 0x2047,
    if decide (p < 16) && fget s (aSWAGE_PART p) 4 0 != 0 && swageGranted s p u then 0 else 0x2005]

/-- A write of a record to offset `off` of a command window (R316): queued, or refused with a code that the unit
records. -/
def swageAccept (s : Chip) (u p sender off : Nat) (r : List MByte) : Chip × Nat :=
  let codes := if off == 0 then recordCodes s u r else [0x2046]
  let code := leastCode (unitCodes s u p ++ codes)
  if code != 0 then
    let s1 := if code == 0x2005 && p < 16 then partCode s p 0x4006 else s
    (swLog s1 u code, code)
  else
    let x := getUnit s u
    let c : SwCmd := { no := x.count, part := p, sender := sender, record := r }
    (swCounts (setUnit s u { x with queue := x.queue ++ [c], count := x.count + 1 }) u, 0)

/-- A checked write to device space, where the Swage windows take records (R286, R316). -/
def devPort (s : Chip) (p fn sender a : Nat) (bs : List MByte) : Chip × Nat :=
  match locate s a with
  | .swage u off => swageAccept s u p sender off bs
  | _ => devWrite s p fn a bs

end Sys2Proof.Machine
end

