-- ==== Sys2Proof/Machine/Queue.lean ====
section
/-! DEFINITION. The queue manager: contexts, the hot-head cache, completion records and the commands of QM_CMD
(R349 to R359, R371 to R376, R381 to R392; rows 149 to 162, 167, 168, 170). -/

namespace Sys2Proof.Machine

-- Contexts (R350, R358) ------------------------------------------------------------------------------------

def qmMod (s : Chip) (f : QM → QM) : Chip := { s with qm := f s.qm }

/-- The device address of a queue's context (R349). -/
def ctxAddr (s : Chip) (q : Nat) : Nat := fget s aQM_TABLE 47 26 * 2 ^ 26 + 64 * q

/-- A context of zeros: off. -/
def ctxOff : List Byte := List.replicate 64 0#8

/-- Device bytes as they stand, with no effect on counters or marks. -/
def peekDev (s : Chip) (a n : Nat) : List MByte :=
  (List.range n).map (fun k =>
    match locate s (a + k) with
    | .burst c mb => ((burstBytes s c (mb - mb % 64)).getD (mb % 64) (0#8, false))
    | _ => (0#8, false))

/-- A context as the cache or the table holds it, with no effect on either. -/
def ctxPeek (s : Chip) (q : Nat) : List Byte :=
  match s.qm.cached.find? (fun p => p.1 == q) with
  | some p => p.2
  | none => (peekDev s (ctxAddr s q) 64).map (·.1)

-- Fields of a context (R350).
def cRing (c : List Byte) : Nat := bNat c 0 8
def cLog (c : List Byte) : Nat := bNat c 8 1
def cKind (c : List Byte) : Nat := bNat c 9 1
def cEngine (c : List Byte) : Nat := bNat c 10 1 % 16
def cRadio (c : List Byte) : Bool := bNat c 11 1 % 2 == 1
def cPart (c : List Byte) : Nat := bNat c 12 1 % 16
def cFunc (c : List Byte) : Nat := bNat c 13 1 % 64
def cVector (c : List Byte) : Nat := bNat c 14 2
def cCq (c : List Byte) : Nat := bNat c 16 4 % 2 ^ 20
def cHead (c : List Byte) : Nat := bNat c 20 4 % 2 ^ 17
def cTail (c : List Byte) : Nat := bNat c 24 4 % 2 ^ 17
def cState (c : List Byte) : Nat := bNat c 28 1
def cTrig (c : List Byte) : Nat := bNat c 29 1 % 16
def cModCnt (c : List Byte) : Nat := max 1 (bNat c 30 2)
def cModUs (c : List Byte) : Nat := bNat c 32 2

/-- The queues have started (R388). -/
def qmReady (s : Chip) : Bool := fbit s aQM_CTL 2

/-- Transfers of a queue, in ring order. -/
def xfersOf (s : Chip) (q : Nat) : List Xfer := tget (fun _ => []) s.qm.xfers q

def setXfers (s : Chip) (q : Nat) (l : List Xfer) : Chip :=
  qmMod s (fun m => { m with xfers := tset (fun _ => []) q l m.xfers })

def modXfer (s : Chip) (q slot : Nat) (f : Xfer → Xfer) : Chip :=
  setXfers s q ((xfersOf s q).map (fun x => if x.slot == slot then f x else x))

def findXfer (s : Chip) (q slot : Nat) : Option Xfer := (xfersOf s q).find? (fun x => x.slot == slot)

/-- A context that may not be evicted: active or pinned (R358). -/
def ctxHeld (s : Chip) (q : Nat) : Bool :=
  !(xfersOf s q).isEmpty || s.qm.pins.contains q || s.qm.radioPins.contains q

/-- A context is put into the cache as the one used last. -/
def ctxTouch (s : Chip) (q : Nat) (c : List Byte) : Chip :=
  qmMod s (fun m => { m with cached := tput q c (tdel q m.cached), lru := q :: m.lru.filter (· != q) })

/-- The least recently used context that may leave is written back (R358); `none` when all 4,096 are held. -/
def ctxEvict (s : Chip) : Option Chip :=
  if s.qm.lru.length < 4096 then some s
  else
    match s.qm.lru.reverse.find? (fun q => !ctxHeld s q) with
    | none => none
    | some q =>
      let s1 := (devWriteRaw s 16 (ctxAddr s q) (clean (ctxPeek s q))).1
      some (qmMod s1 (fun m => { m with cached := tdel q m.cached, lru := m.lru.filter (· != q) }))

/-- A queue's context, brought into the cache: a miss is counted, a table line that does not come sound puts the
queue into error with 0x100C (R385). `none` when no entry frees. -/
def ctxLoad (s : Chip) (q : Nat) : Option (Chip × List Byte) :=
  if s.qm.cached.any (fun p => p.1 == q) then
    let c := ctxPeek s q
    some (ctxTouch s q c, c)
  else
    match ctxEvict (fsat s aQM_CACHE 31 0 1) with
    | none => none
    | some s1 =>
      let r := devRead s1 16 (ctxAddr s1 q) 64
      let c := if r.2.1.any (·.2) then bSet (unmark r.2.1) 28 1 4 else unmark r.2.1
      some (ctxTouch r.1 q c, c)

/-- A cached context changed. -/
def ctxPut (s : Chip) (q : Nat) (c : List Byte) : Chip := ctxTouch s q c

/-- A field of a context changed. -/
def ctxField (s : Chip) (q o n v : Nat) : Chip := ctxPut s q (bSet (ctxPeek s q) o n v)

def setQState (s : Chip) (q v : Nat) : Chip := ctxField s q 28 1 v

/-- Entries between head and tail (R351). -/
def ringHeld (c : List Byte) : Nat := (cTail c + 2 ^ 17 - cHead c) % 2 ^ 17

/-- The address of a ring entry. -/
def ringSlot (c : List Byte) (v : Nat) : Nat := cRing c + 64 * (v % 2 ^ cLog c)

/-- The next descriptor to start (R355): started ones stand before it. -/
def nextSlot (s : Chip) (q : Nat) (c : List Byte) : Nat := (cHead c + (xfersOf s q).length) % 2 ^ 17

/-- Descriptors of the ring that have not started. -/
def unstarted (s : Chip) (q : Nat) (c : List Byte) : Nat := (ringHeld c) - (xfersOf s q).length

/-- The descriptor at the head of those not started begins to wait for its line now (R357). -/
def headArrives (s : Chip) (q : Nat) : Chip :=
  let n := tget (fun _ => 0) s.qm.fires (cTrig (ctxPeek s q))
  qmMod s (fun m => { m with headAt := tset (fun _ => 0) q n m.headAt })

/-- A trigger line fires (R357): descriptors that wait for it are released. -/
def fireLine (s : Chip) (k : Nat) : Chip :=
  if k == 0 then s else qmMod s (fun m => { m with fires := tmod (fun _ => 0) k (· + 1) m.fires })

-- Completion (R371 to R376) --------------------------------------------------------------------------------

-- Fields of a descriptor (R360).
def dType (d : List Byte) : Nat := bNat d 0 1
def dFlag (d : List Byte) (k : Nat) : Bool := (bNat d 1 1).testBit k
def dSR (d : List Byte) : Bool := dFlag d 0
def dESize (d : List Byte) : Nat := bNat d 2 2 + 1
def dRefmt (d : List Byte) : Nat := bNat d 4 1 % 8
def dSat (d : List Byte) : Bool := (bNat d 4 1).testBit 3
def dFmtIn (d : List Byte) : Nat := bNat d 5 1 / 16
def dFmtOut (d : List Byte) : Nat := bNat d 5 1 % 16
def dCnt (d : List Byte) : Option Nat := if (bNat d 6 1).testBit 7 then none else some (bNat d 6 1 % 64)
def dSrc (d : List Byte) : Nat := bNat d 8 8
def dDst (d : List Byte) : Nat := bNat d 16 8
def dN (d : List Byte) (k : Nat) : Nat := if k == 0 then bNat d 24 4 else bNat d (26 + 2 * k) 2 + 1
def dSS (d : List Byte) (k : Nat) : Int := signed 32 (bNat d (30 + 4 * k) 4)
def dDS (d : List Byte) (k : Nat) : Int := signed 32 (bNat d (42 + 4 * k) 4)
def dTag (d : List Byte) : Nat := bNat d 58 6

/-- A pane stream (R368): pane bytes, panes, stream number and release word. -/
def isStream (d : List Byte) : Bool := dType d == 5 || dType d == 6
def paneBytes (d : List Byte) : Nat := dESize d
def paneNo (d : List Byte) : Nat := bNat d 28 2 % 8
def paneRel (d : List Byte) : Nat := bNat d 46 4 % 2 ^ 22

/-- Elements of a transfer (R361, R367, R368). -/
def dCount (d : List Byte) : Nat :=
  if isStream d then dN d 0 * (paneBytes d / 64)
  else if dType d == 2 || dType d == 3 || dType d == 7 then dN d 0
  else if dRefmt d == 1 then dN d 2 * dN d 3
  else if dRefmt d == 2 || dRefmt d == 3 then dN d 1 * dN d 2 * dN d 3
  else dN d 0 * dN d 1 * dN d 2 * dN d 3

/-- The counters of an element (R361, R367, R368). -/
def dIndex (d : List Byte) (e : Nat) : Nat × Nat × Nat × Nat :=
  if isStream d then let l := paneBytes d / 64; (e % l, e / l, 0, 0)
  else if dType d == 2 || dType d == 3 || dType d == 7 then (e, 0, 0, 0)
  else if dRefmt d == 1 then (0, 0, e % dN d 2, e / dN d 2)
  else if dRefmt d == 2 || dRefmt d == 3 then (0, e % dN d 1, e / dN d 1 % dN d 2, e / (dN d 1 * dN d 2))
  else (e % dN d 0, e / dN d 0 % dN d 1, e / (dN d 0 * dN d 1) % dN d 2, e / (dN d 0 * dN d 1 * dN d 2))

/-- Elements not delivered (R371). -/
def residue (x : Xfer) : Nat := dCount x.d - (x.next - x.missed)

/-- Every element was delivered (R371). -/
def isWhole (x : Xfer) : Bool := residue x == 0 && !x.ended && !x.stopped && !x.aborted && !x.badBack

/-- The status of a record (R27, R371). -/
def xStatus (x : Xfer) : Nat := leastCode x.codes

/-- A completion record (R371). -/
def recordOf (s : Chip) (q : Nat) (x : Xfer) (phase : Bool) : List Byte :=
  let whole := isWhole x
  let i := if whole then (0, 0, 0, 0) else dIndex x.d (x.miss.getD x.next)
  let stopFlag := x.stopped || (x.aborted && dSR x.d)
  leBytes 2 (xStatus x) ++
    leBytes 1 (b2n phase + 2 * b2n whole + 4 * b2n stopFlag + 8 * b2n x.resumed + 16 * b2n x.aborted) ++
    leBytes 1 x.engine ++ leBytes 4 q ++ leBytes 4 x.slot ++ leBytes 4 x.poisoned ++ leBytes 4 x.dropped ++
    leBytes 4 i.1 ++ leBytes 2 i.2.1 ++ leBytes 2 i.2.2.1 ++ leBytes 2 i.2.2.2 ++ leBytes 2 0 ++
    leBytes 8 (residue x) ++ leBytes 8 x.bytes ++ leBytes 8 (stamp s 2) ++ leBytes 6 (dTag x.d) ++ leBytes 2 0

/-- A completion queue raises its vector; its records are signalled (R376). -/
def signalCq (s : Chip) (cq : Nat) : Chip :=
  let c := ctxPeek s cq
  raiseIrq (qmMod s (fun m => { m with unsig := tset (fun _ => 0) cq 0 m.unsig })) (cFunc c) (cVector c)

/-- Bytes written to the ring of a queue, under its partition and function. -/
def ringWrite (s : Chip) (c : List Byte) (v : Nat) (bs : List Byte) : Chip × Nat :=
  spaceWrite s (cPart c) (cFunc c) (cFunc c) (ringSlot c v) (clean bs)

/-- A record that raised a code is noted by its engine (R392). -/
def engineNote (s : Chip) (e q code : Nat) : Chip :=
  if code == 0 then s
  else
    let k := aDMA_ENG_ERR e
    fsat (fset (fset s k 63 48 code) k 47 28 q) k 27 0 1

/-- Queue state idle or active as its transfers say; other states stand (R350). -/
def settleState (s : Chip) (q : Nat) : Chip :=
  let st := cState (ctxPeek s q)
  if st == 1 || st == 2 then setQState s q (if (xfersOf s q).isEmpty then 1 else 2) else s

/-- Recorded transfers leave the head of the queue; a stopped one stays there until it is skipped or aborted (R381,
R384). -/
def settleGo (q : Nat) : Nat → Chip → Chip
  | 0, s => s
  | n + 1, s =>
    match xfersOf s q with
    | x :: r =>
      if x.stage == .done && (!x.stopped || x.leave) then
        settleGo q n (ctxField (setXfers s q r) q 20 4 ((x.slot + 1) % 2 ^ 17))
      else s
    | [] => s

def settleQ (s : Chip) (q : Nat) : Chip := settleState (settleGo q ((xfersOf s q).length + 1) s) q

/-- Earlier transfers of the queue have their records (R373). -/
def turnOf (s : Chip) (q slot : Nat) : Bool :=
  ((xfersOf s q).takeWhile (fun x => x.slot != slot)).all (fun x => x.stage == .done)

/-- The record of a transfer is written when its turn has come and its ring has room (R371 to R376). -/
def writeRecord (s : Chip) (q slot : Nat) : Chip :=
  match findXfer s q slot with
  | none => s
  | some x =>
    if x.stage != .record || !turnOf s q slot then s
    else
      let c := ctxPeek s q
      let code := xStatus x
      let s0 := engineNote s x.engine q code
      if dFlag x.d 6 && code == 0 && !x.stopped && !x.aborted then
        settleQ (modXfer s0 q slot (fun y => { y with stage := .done })) q
      else
        match ctxLoad s (cCq c) with
        | none => s
        | some r =>
          let k := r.2
          if cKind k != 2 || cState k == 0 || 2 ^ cLog k ≤ ringHeld k then s
          else
            let s1 := engineNote r.1 x.engine q code
            let phase := cTail k / 2 ^ cLog k % 2 == 0
            let s2 := (ringWrite s1 k (cTail k) (recordOf s1 q x phase)).1
            let s3 := ctxField s2 (cCq c) 24 4 ((cTail k + 1) % 2 ^ 17)
            let s4 := settleQ (modXfer s3 q slot (fun y => { y with stage := .done })) q
            let n := tget (fun _ => 0) s4.qm.unsig (cCq c) + b2n (dFlag x.d 5)
            let s5 := qmMod s4 (fun m => { m with unsig := tset (fun _ => 0) (cCq c) n m.unsig })
            if code != 0 || x.stopped || x.aborted || (dFlag x.d 5 && decide (cModCnt k ≤ n)) then signalCq s5 (cCq c)
            else s5

-- Commands (R352 to R358, R381 to R389) --------------------------------------------------------------------

/-- The register keys of a function's queue registers. -/
def kQstatus (fn : Nat) : Nat := barKey fn aQM_QSTATUS
def kStage (fn i : Nat) : Nat := barKey fn (aQM_STAGE i)

/-- The result of a QM_CMD (R390). -/
def qmResult (s : Chip) (fn q code : Nat) : Chip :=
  let c := ctxPeek s q
  let k := kQstatus fn
  let s1 := fset (fset s k 63 48 code) k 47 44 (cState c)
  fset (fset s1 k 40 24 (cHead c)) k 16 0 (cTail c)

/-- A QM_CMD on a queue: refused while the table is not ready, for a queue number beyond the table, or for a
function that does not own the queue; otherwise `f` gives the new state and the code. -/
def qmCommand (fn q : Nat) (owned : List Byte → Bool) (s : Chip) (f : Chip → List Byte → Chip × Nat) : Out :=
  onFn fn s (fun s =>
    if !qmReady s || decide (2 ^ 20 ≤ q) then fset (barSet s (kQstatus fn) 0) (kQstatus fn) 63 48 0x1006
    else
      match ctxLoad s q with
      | none => fset (barSet s (kQstatus fn) 0) (kQstatus fn) 63 48 0x1006
      | some r =>
        if !owned r.2 then qmResult r.1 fn q 0x1006
        else
          let t := f r.1 r.2
          qmResult t.1 fn q t.2)

/-- A function owns a queue (R352). -/
def ownedBy (fn : Nat) (c : List Byte) : Bool := cFunc c == fn

/-- Vectors of a function (R540). -/
def vectorCount (fn : Nat) : Nat := if fn == 0 then 2048 else 64

/-- A context that may become usable (R350, R540, R541). -/
def ctxOk (s : Chip) (c : List Byte) : Bool :=
  let fp := barGet s (aFUNC_PART (cFunc c))
  (cKind c == 1 || cKind c == 2) && decide (4 ≤ cLog c) && decide (cLog c ≤ 16) && cRing c % 4096 == 0 &&
    decide (cVector c < vectorCount (cFunc c)) &&
    (cFunc c == 0 || (bitOf fp 7 && bitsOf fp 3 0 == cPart c))

/-- WRITE_CONTEXT (R350, R352, R354, R381, R541): the physical function writes any queue that is off; a function
writes its own idle queue, or one in error; a stopped queue takes a new engine only. -/
def cmdWriteContext (fn queue : Nat) (s : Chip) : Out :=
  qmCommand fn queue (fun c => ownedBy fn c || (fn == 0 && cState c == 0)) s (fun s c =>
    let st := stageBytes s (kStage fn)
    let cls := (bNat c 11 1 / 2 % 2) * 2 + (if fn == 0 then bNat st 11 1 % 2 else bNat c 11 1 % 2)
    let w0 := bSet st 11 1 cls
    let w1 := if fn == 0 then w0 else bSet (bSet w0 12 1 (bNat c 12 1)) 13 1 (bNat c 13 1)
    let on := cState st != 0
    let w2 := bSet w1 28 1 (b2n on)
    if cState c == 3 then
      (if bSet st 10 1 (bNat c 10 1) == c then (ctxPut s queue st, 0) else (s, 0x1006))
    else if cState c == 2 then (s, 0x1006)
    else if on && !ctxOk s w2 then (s, 0x1006)
    else (headArrives (ctxPut s queue w2) queue, 0))

/-- READ_CONTEXT (R352): the physical function reads any context. -/
def cmdReadContext (fn queue : Nat) (s : Chip) : Out :=
  qmCommand fn queue (fun c => ownedBy fn c || fn == 0) s (fun s c => (putStage s (kStage fn) c, 0))

/-- APPEND (R353, R354). -/
def cmdAppend (fn queue : Nat) (s : Chip) : Out :=
  qmCommand fn queue (ownedBy fn) s (fun s c =>
    if cKind c != 1 || cState c == 0 || decide (4 ≤ cState c) || decide (2 ^ cLog c ≤ ringHeld c) then (s, 0x1006)
    else
      let r := ringWrite s c (cTail c) (stageBytes s (kStage fn))
      if r.2 != 0 then (r.1, r.2)
      else
        let s1 := ctxField r.1 queue 24 4 ((cTail c + 1) % 2 ^ 17)
        (if unstarted s queue c == 0 then headArrives s1 queue else s1, 0))

/-- The stopped transfer at the head of a stopped queue, its record written (R381). -/
def stoppedHead (s : Chip) (q : Nat) : Option Xfer :=
  match xfersOf s q with
  | x :: _ => if cState (ctxPeek s q) == 3 && x.stopped && x.stage == .done then some x else none
  | [] => none

/-- The queue leaves the stopped state unless another of its transfers stopped (R381). -/
def unstop (s : Chip) (q : Nat) : Chip :=
  if (xfersOf s q).any (·.stopped) then s else setQState s q (if (xfersOf s q).isEmpty then 1 else 2)

/-- REWRITE (R381). -/
def cmdRewrite (fn queue : Nat) (s : Chip) : Out :=
  qmCommand fn queue (ownedBy fn) s (fun s c =>
    match stoppedHead s queue with
    | none => (s, 0x1006)
    | some x =>
      let d := stageBytes s (kStage fn)
      let same := bNat d 0 6 == bNat x.d 0 6 && bNat d 24 10 == bNat x.d 24 10
      if !same then (s, 0x1002)
      else
        let r := ringWrite s c x.slot d
        (modXfer r.1 queue x.slot (fun y => { y with d := d }), r.2))

/-- RESUME (R381, R382): from its counters, as a part with its own record. -/
def cmdResume (fn queue : Nat) (s : Chip) : Out :=
  qmCommand fn queue (ownedBy fn) s (fun s c =>
    match stoppedHead s queue with
    | none => (s, 0x1006)
    | some x =>
      (unstop (modXfer s queue x.slot (fun y => { y with
        stage := .running, stopped := false, resumed := true, bytes := 0, poisoned := 0, dropped := 0, codes := [],
        badBack := false, engine := cEngine c })) queue, 0))

/-- SKIP (R381). -/
def cmdSkip (fn queue : Nat) (s : Chip) : Out :=
  qmCommand fn queue (ownedBy fn) s (fun s _ =>
    match stoppedHead s queue with
    | none => (s, 0x1006)
    | some x => (unstop (settleQ (modXfer s queue x.slot (fun y => { y with stopped := false })) queue) queue, 0))

/-- What an abort makes of a started transfer (R383, R384). -/
def abortXfer (x : Xfer) : Xfer :=
  if x.stage == .running && x.next < dCount x.d then
    { x with stage := .readBack, aborted := true, codes := 0x1001 :: x.codes }
  else if x.stopped then { x with leave := true }
  else x

/-- Abort records of the descriptors that have not started (R383). -/
def abortRest (q : Nat) : Nat → Chip → Chip
  | 0, s => s
  | n + 1, s =>
    let c := ctxPeek s q
    let v := nextSlot s q c
    let r := devRead s 16 (ringSlot c v % 2 ^ 48) 64
    let x : Xfer := { slot := v, d := unmark r.2.1, stage := .record, aborted := true, codes := [0x1001], engine := cEngine c }
    abortRest q n (setXfers r.1 q (xfersOf r.1 q ++ [x]))

/-- Every descriptor of a queue is aborted (R383, R384); its records follow in turn. -/
def abortQueue (s : Chip) (q : Nat) : Chip :=
  let c := ctxPeek s q
  if cKind c != 1 || cState c == 0 then s
  else
    let s1 := setXfers s q ((xfersOf s q).map abortXfer)
    let s2 := abortRest q (unstarted s q c) s1
    let s3 := if cState c == 4 then s2 else setQState s2 q 2
    let s4 := settleQ s3 q
    if (xfersOf s4 q).isEmpty then signalCq s4 (cCq c) else s4

/-- ABORT (R383). -/
def cmdAbort (fn queue : Nat) (s : Chip) : Out :=
  qmCommand fn queue (ownedBy fn) s (fun s c =>
    if cKind c != 1 || cState c == 0 then (s, 0x1006) else (abortQueue s queue, 0))

/-- PIN (R358). -/
def cmdPin (fn queue : Nat) (s : Chip) : Out :=
  qmCommand fn queue (ownedBy fn) s (fun s c =>
    if s.qm.pins.contains queue then (s, 0)
    else if 1024 ≤ s.qm.pins.length then (s, 0x1006)
    else (qmMod (ctxPut s queue (bSet c 11 1 (bNat c 11 1 % 2 + 2))) (fun m => { m with pins := queue :: m.pins }), 0))

/-- UNPIN (R358). -/
def cmdUnpin (fn queue : Nat) (s : Chip) : Out :=
  qmCommand fn queue (ownedBy fn) s (fun s c =>
    (qmMod (ctxPut s queue (bSet c 11 1 (bNat c 11 1 % 2))) (fun m => { m with pins := m.pins.filter (· != queue) }), 0))

/-- A doorbell on a cached context (R354, R373). -/
def doorbell (s : Chip) (fn q index : Nat) (c : List Byte) : Chip :=
  if !ownedBy fn c || cState c == 0 then s
  else if cKind c == 2 then ctxField s q 20 4 index
  else if 2 ^ cLog c < (index + 2 ^ 17 - cHead c) % 2 ^ 17 ∨
      (index + 2 ^ 17 - cHead c) % 2 ^ 17 < (xfersOf s q).length then setQState s q 4
  else
    let s1 := ctxField s q 24 4 index
    if unstarted s q c == 0 then headArrives s1 q else s1

/-- Doorbells that waited are served while entries free (R358). -/
def drainBells : Nat → Chip → Chip
  | 0, s => s
  | n + 1, s =>
    match s.qm.doorbells with
    | [] => s
    | (fn, q, i) :: r =>
      match ctxLoad s q with
      | none => s
      | some t => drainBells n (qmMod (doorbell t.1 fn q i t.2) (fun m => { m with doorbells := r }))

/-- QM_DOORBELL (R354, R358): ignored before the table is ready; one that finds no entry waits. -/
def cmdQmDoorbell (fn queue index : Nat) (s : Chip) : Out :=
  onFn fn s (fun s =>
    if !qmReady s || decide (2 ^ 20 ≤ queue) then s
    else
      let s0 := drainBells 256 s
      match (if s0.qm.doorbells.isEmpty then ctxLoad s0 queue else none) with
      | some t => doorbell t.1 fn queue (index % 2 ^ 17) t.2
      | none => qmMod s0 (fun m => { m with doorbells := m.doorbells ++ [(fn, queue, index % 2 ^ 17)] }))

/-- QM_CTL.ENABLE (R388): only with the table in the interleaved region outside host-managed memory. -/
def cmdQmEnable (s : Chip) : Out :=
  .next (
    let base := fget s aQM_TABLE 47 26 * 2 ^ 26
    if fbit s aQM_CTL 0 then s
    else if fbit s aMEM_MAP 0 && decide (base + 2 ^ 26 ≤ interSize s - hdmSize s) then
      qmMod (fsetb s aQM_CTL 0 true) (fun m => { m with clearing := true })
    else s)

/-- Device bytes of a range set to zero, burst by burst, for set 16 (R388, R533). -/
def zeroRange : Nat → Nat → Chip → Chip
  | 0, _, s => s
  | n + 1, a, s => zeroRange n (a + 64) (devWriteRaw s 16 a (List.replicate 64 (0#8, false))).1

/-- The table is clear (R388). -/
def cmdQmTableReady (s : Chip) : Out :=
  .next (when s.qm.clearing s (fun s =>
    qmMod (fsetb (zeroRange (2 ^ 20) (fget s aQM_TABLE 47 26 * 2 ^ 26) s) aQM_CTL 2 true)
      (fun m => { m with
        clearing := false, cached := [], lru := [], pins := [], radioPins := [], xfers := [], headAt := []
        retire := [], doorbells := [], unsig := [] })))

/-- QM_CTL.STOP_ALL (R388). -/
def cmdQmStopAll (stop : Bool) (s : Chip) : Out := .next (fsetb s aQM_CTL 1 stop)

/-- Queues whose context satisfies a test; none before the table is ready. -/
def queuesWhere (s : Chip) (f : List Byte → Bool) : List Nat :=
  if qmReady s then (List.range (2 ^ 20)).filter (fun q => f (ctxPeek s q)) else []

/-- An effect on a queue whose context is brought in first. -/
def onQueue (s : Chip) (q : Nat) (f : Chip → Chip) : Chip :=
  match ctxLoad s q with
  | some r => f r.1
  | none => s

/-- Every queue of a list is aborted. -/
def abortAll (s : Chip) (l : List Nat) : Chip := forEach l (fun st q => onQueue st q (fun st' => abortQueue st' q)) s

/-- DMA_ENG_CTL.ABORT (R383, R392). -/
def cmdEngineAbort (engine : Nat) (s : Chip) : Out :=
  onUnit "engine" 16 engine s (fun s =>
    abortAll s (queuesWhere s (fun c => cKind c == 1 && cState c != 0 && cEngine c == engine)))

/-- DMA_ENG_CTL.ENABLE (R392): a failed engine stays failed. -/
def cmdEngineEnable (engine : Nat) (on : Bool) (s : Chip) : Out :=
  onUnit "engine" 16 engine s (fun s =>
    let s1 := fsetb s (aDMA_ENG_CTL engine) 0 on
    if fget s (aDMA_ENG_STATUS engine) 3 0 == 3 then s1 else fset s1 (aDMA_ENG_STATUS engine) 3 0 (b2n on))

/-- The records that a queue could not write before are tried in turn, `n` of them. -/
def writeRecords (q : Nat) : List Nat → Chip → Chip
  | [], s => s
  | slot :: r, s => writeRecords q r (writeRecord s q slot)

/-- Queues of a destroyed partition are set off once their transfers have their records, completion queues last
(R532). -/
def settleRetire (s : Chip) : Chip :=
  if s.qm.retire.isEmpty then s
  else
    let live := s.qm.retire.filter (fun q => cKind (ctxPeek s q) == 1 && !(xfersOf s q).isEmpty)
    let gone := s.qm.retire.filter (fun q => if cKind (ctxPeek s q) == 1 then !live.contains q else live.isEmpty)
    let s1 := forEach gone (fun st q => onQueue st q (fun u => setQState u q 0)) s
    qmMod s1 (fun m => { m with retire := m.retire.filter (fun q => !gone.contains q) })

/-- READ_BACK_RETURN (R372): a fabric path's read-back is a fence (R581), so it returns when no request of the queue
is outstanding. -/
def cmdReadBackReturn (queue slot : Nat) (ok : Bool) (s : Chip) : Out :=
  .next (match findXfer s queue slot with
    | none => s
    | some x =>
      if x.stage != .readBack || fenceOpen s ⟨cPart (ctxPeek s queue), 0xFFF, queue⟩ 0xFFFF then s
      else
        let s1 := modXfer s queue slot (fun y => if ok then { y with stage := .record }
          else { y with stage := .record, badBack := true, codes := 0x1009 :: y.codes })
        let s2 := if dType x.d == 7 && ok && !x.ended && !x.stopped && !x.aborted then
            onQueue s1 (dDst x.d % 2 ^ 20) (fun st =>
              let t := dDst x.d % 2 ^ 20
              let c := ctxPeek st t
              let st1 := ctxField st t 24 4 ((cTail c + dN x.d 0) % 2 ^ 17)
              if unstarted st t c == 0 then headArrives st1 t else st1)
          else s1
        settleRetire (drainBells 256 (writeRecord s2 queue slot)))

/-- COMPLETION_RECORD_WRITE (R371, R373, R374). -/
def cmdCompletionRecordWrite (queue slot : Nat) (s : Chip) : Out := .next (settleRetire (drainBells 256 (writeRecord s queue slot)))

/-- CQ_MODERATION_TIMEOUT (R376). -/
def cmdCqModerationTimeout (queue : Nat) (s : Chip) : Out :=
  .next (
    let c := ctxPeek s queue
    if qmReady s && cKind c == 2 && cModUs c != 0 && tget (fun _ => 0) s.qm.unsig queue != 0 then signalCq s queue else s)

/-- CONTEXT_LOST (R385): only a cached context can be lost. -/
def cmdContextLost (queue : Nat) (s : Chip) : Out :=
  .next (when (s.qm.cached.any (fun p => p.1 == queue)) s (fun s =>
    engineNote (setQState s queue 4) (cEngine (ctxPeek s queue)) queue 0x100C))

end Sys2Proof.Machine
end

