-- ==== Sys2Proof/Machine/Dma.lean ====
section
/-! DEFINITION. The DMA engines: descriptor checks, elements, reformatting, pane streams and faults (R345 to R348,
R355 to R369, R375, R378 to R385; rows 163 to 166, 169, 171). -/

namespace Sys2Proof.Machine

-- The sides of a transfer (R347, R348) ---------------------------------------------------------------------

/-- The edge port that a tile's column uses (R50, R51). -/
def edgePort (s : Chip) (t : Nat) : Nat := tget (fun x => x) s.mesh.port (tileX t)

/-- A tile-space address of a queue's partition: the physical tile, or a code (R347, R348, R121). -/
def tileSide (s : Chip) (p a n : Nat) : Nat × Nat :=
  let l := bitsOf a 39 32
  if bitsOf a 59 40 != 0 || bitsOf a 31 22 != 0 then (0, 0x1002)
  else
    match physOf s p l with
    | none => (0, 0x1005)
    | some t =>
      if !tileOpen s t then (t, 0x2081)
      else if !inBanks (a % 2 ^ 22) n then (t, 0x2080)
      else (t, 0)

/-- CXL.io traffic is stopped by an insecure stream (R620). -/
def hostShut (s : Chip) : Bool := tmem s.boot.insecure 0

/-- The MEM charge of an access: 64 bytes for each burst, 128 for one written in part (R534). -/
def burstCharge (a n : Nat) (write : Bool) : Nat :=
  if n == 0 then 0
  else
    let first := a / 64
    let last := (a + n - 1) / 64
    let part := b2n (a % 64 != 0) + b2n ((a + n) % 64 != 0 && (first != last || a % 64 == 0))
    64 * (last - first + 1) + (if write then 64 * part else 0)

def memCharge (s : Chip) (c : List Byte) (a n : Nat) (write : Bool) : Chip :=
  if cRadio c then s else charge s (cPart c) 0 0 (burstCharge a n write)

/-- Bytes of another device that a fabric read brings: free values (DESIGN CHOICE, log 9). -/
def freeBytes (s : Chip) (n : Nat) : Chip × List MByte :=
  ({ s with freeCtr := s.freeCtr + 1 },
    (List.range n).map (fun k => (BitVec.ofNat 8 (Config.freeAt s.freeCtr k), false)))

/-- A fabric read by a queue takes its sequence number, and its answer has come (R574, R581). -/
def fabReadDone (s : Chip) (p q a n : Nat) : Chip :=
  let s1 := fabSend s p (faRank a) { mkReq ⟨p, 0xFFF, q⟩ 0 (faTarget a) [] 0 false with operand := n }
  { s1 with fab := { s1.fab with reqs := s1.fab.reqs.filter (fun r => !(r.owner == ⟨p, 0xFFF, q⟩ && r.kind == 0)) } }

/-- A read for a queue: bytes with marks, and a code (R347, R348, R379). -/
def sideRead (s : Chip) (c : List Byte) (q a n : Nat) : Chip × List MByte × Nat :=
  let p := cPart c
  let bad (code : Nat) : Chip × List MByte × Nat := (s, List.replicate n (0#8, true), code)
  let sp := a / 2 ^ 60
  if sp == 0 then
    (if bitsOf a 59 48 != 0 then bad 0x1002
    else
      let r := devReadChecked (memCharge s c a n false) p (cFunc c) (a % 2 ^ 48) n
      if r.2.2 == 0 || r.2.2 == 0x2001 then r else (r.1, List.replicate n (0#8, true), r.2.2))
  else if sp == 1 then
    (let w := tileSide s p a n
    if w.2 != 0 then bad w.2
    else
      let r := readMarked s w.1 (a % 2 ^ 22) n
      let fl := 128 * flitsOf (lineCount (a % 2 ^ 22) n)
      let s1 := ctrAdd (ctrAdd r.1 p (140 + edgePort s w.1) fl) p 154 fl
      (if cRadio c then s1 else charge s1 p 2 w.1 fl, r.2, 0))
  else if sp == 2 then
    (if hostShut s then bad 0x1008
    else let r := hostRead s p (a % 2 ^ 57) n; (r.1, clean r.2, 0))
  else if sp == 3 then
    (let code := fabCheck s p a
    if code != 0 then bad code
    else let r := freeBytes (fabReadDone s p q a n) n; (r.1, r.2, 0))
  else bad 0x1002

/-- A write for a queue, and its code. -/
def sideWrite (s : Chip) (c : List Byte) (q slot a : Nat) (bs : List MByte) : Chip × Nat :=
  let p := cPart c
  let n := bs.length
  let sp := a / 2 ^ 60
  if sp == 0 then
    (if bitsOf a 59 48 != 0 then (s, 0x1002)
    else devPort (memCharge s c a n true) p (cFunc c) (0x1000000 + q) (a % 2 ^ 48) bs)
  else if sp == 1 then
    (let w := tileSide s p a n
    if w.2 != 0 then (s, w.2)
    else
      (ctrAdd (storeMarked s w.1 (a % 2 ^ 22) bs) p (128 + edgePort s w.1) (128 * flitsOf (lineCount (a % 2 ^ 22) n)), 0))
  else if sp == 2 then
    (if hostShut s then (s, 0x1008) else (hostWrite s p (cFunc c) (a % 2 ^ 57) bs, 0))
  else if sp == 3 then
    (let code := fabCheck s p a
    if code != 0 then (s, code)
    else
      (forEach (copyPieces (faTarget a) n) (fun st k =>
        let d := (bs.drop k.1).take k.2
        fabSend st p (faRank a) { mkReq ⟨p, 0xFFF, q⟩ 1 (faTarget a + k.1) (unmark d) (marksOf d) true with off := slot }) s, 0))
  else (s, 0x1002)

-- Addresses of elements (R361 to R363, R366 to R368) -------------------------------------------------------

/-- An address with a signed offset. -/
def addOff (a : Nat) (o : Int) : Nat := wrap 64 ((a : Int) + o)

/-- The pieces of `n` bytes from offset `k` of a circle of `m` bytes at `b`, with fuel. -/
def circle (m b : Nat) : Nat → Nat → Nat → List (Nat × Nat)
  | 0, _, _ => []
  | f + 1, k, n => if k + n ≤ m then [(b + k, n)] else (b + k, m - k) :: circle m b f 0 (n - (m - k))

/-- The pieces of `n` bytes at an offset from a base, wrapped when the side is circular (R363). -/
def ringPieces (on : Bool) (clog base : Nat) (o : Int) (n : Nat) : List (Nat × Nat) :=
  let a := addOff base o
  if !on then [(a, n)]
  else
    let m := 2 ^ clog
    circle m (base - base % m) (n / m + 2) (a % m) n

/-- The offsets of dimensions 1 to 3. -/
def dimOff (st : Nat → Int) (i : Nat × Nat × Nat × Nat) : Int := i.2.1 * st 1 + i.2.2.1 * st 2 + i.2.2.2 * st 3

/-- The bits of an element of a reformat's input (R366). -/
def fmtBits (d : List Byte) : Nat := elemBits (dFmtIn d)

/-- Source offsets and lengths of an element; `x` the index of a gather or of an indexed stream. -/
def srcOffs (d : List Byte) (e x : Nat) : List (Int × Nat) :=
  let i := dIndex d e
  let ty := dType d
  if ty == 4 then []
  else if ty == 2 then [((x : Int), dESize d)]
  else if ty == 3 || ty == 7 then [((e * dESize d : Nat), dESize d)]
  else if ty == 5 then [(i.2.1 * dSS d 1 + 64 * i.1, 64)]
  else if ty == 6 then [((x + 64 * i.1 : Nat), 64)]
  else if dRefmt d == 1 then
    (List.range (dN d 1)).map (fun (r : Nat) => (dimOff (dSS d) (0, r, i.2.2.1, i.2.2.2), dN d 0 * fmtBits d / 8))
  else if dRefmt d == 2 || dRefmt d == 3 then [(dimOff (dSS d) i, canonBytes (dFmtIn d) (dN d 0))]
  else [(i.1 * dESize d + dimOff (dSS d) i, dESize d)]

/-- Destination offsets of an element; `x` the index of a scatter. -/
def dstOffs (d : List Byte) (e x : Nat) : List Int :=
  let i := dIndex d e
  let ty := dType d
  if ty == 2 then [((e * dESize d : Nat))]
  else if ty == 3 then [(x : Int)]
  else if isStream d then [((i.2.1 % 5 * paneBytes d + 64 * i.1 : Nat))]
  else if dRefmt d == 1 then
    (List.range (dN d 0)).map (fun (r : Nat) => (r : Int) * dDS d 1 + i.2.2.1 * dDS d 2 + i.2.2.2 * dDS d 3)
  else if dRefmt d == 2 || dRefmt d == 3 then [dimOff (dDS d) i]
  else [i.1 * dESize d + dimOff (dDS d) i]

-- Reformatting (R366) --------------------------------------------------------------------------------------

/-- The bits of bytes, and the mark of each. -/
def rowBits (l : List MByte) : Nat := leNat (unmark l)
def rowMark (l : List MByte) (k : Nat) : Bool := (l.getD k (0#8, false)).2

/-- Rows transposed element by element. -/
def transposeRows (w cols : Nat) (rows : List (List MByte)) : List (List MByte) :=
  (List.range cols).map (fun c =>
    rowBytes w (rows.map (fun l => ⟨lane w (rowBits l) c, rowMark l (c * w / 8)⟩)))

/-- The elements of a row in the canonical layout of format `c`: bits, scale byte, mark. -/
def rowElems (c n : Nat) (l : List MByte) : List (Nat × Nat × Bool) :=
  (List.range n).map (pieceElem c (rowBits l) (rowMark l))

/-- Blocks of 32 of a row to MX blocks (R73): a marked element marks its block. -/
def mxBlocks (c : Nat) : Nat → List (FV × Bool) → List MByte
  | 0, _ => []
  | n + 1, l =>
    if l.isEmpty then []
    else
      let b := l.take 32
      let q := mxQuant c (b.map (·.1))
      let bs := leBytes 1 q.1 ++ leBytes (cdiv (b.length * elemBits c) 8) (packLanes (elemBits c) q.2.1)
      let pz := b.any (·.2)
      bs.map (fun x => (if pz then 0#8 else x, pz)) ++ mxBlocks c n (l.drop 32)

/-- A row of `CONVERT` (R72 to R74). -/
def convertRow (ci co n : Nat) (sat : Bool) (l : List MByte) : List MByte :=
  let es := rowElems ci n l
  if isMX co then mxBlocks co (n / 32 + 1) (es.map (fun e => (pieceValue ci e.1 e.2.1, e.2.2)))
  else rowBytes (elemBits co) (es.map (fun e =>
    if e.2.2 then ⟨0, true⟩ else ⟨(cvtTo co sat (toF32 (pieceValue ci e.1 e.2.1)).1).1, false⟩))

/-- Stripes of a row of `STRIPE`, with the fill of R132. -/
def stripeRow (c : Nat) : Nat → List (Nat × Nat × Bool) → List MByte
  | 0, _ => []
  | n + 1, l =>
    if l.isEmpty then []
    else
      let b := l.take 2048
      let b' := b ++ List.replicate (2048 - b.length) (0, 0x7F, false)
      let wl := rowBytes (elemBits c) (b'.map (fun e => (⟨e.1, e.2.2⟩ : Elem)))
      let sl : List MByte := if isMX c then
          (List.range 64).map (fun k => let e := b'.getD (32 * k) (0, 0x7F, false); (BitVec.ofNat 8 e.2.1, e.2.2))
        else []
      wl ++ sl ++ stripeRow c n (l.drop 2048)

/-- What the source pieces of an element become at the destination. -/
def reformat (d : List Byte) (rows : List (List MByte)) : List (List MByte) :=
  if dType d == 4 then [(List.range (dESize d)).map (fun k => (BitVec.ofNat 8 (bNat d (8 + k % 8) 1), false))]
  else if dType d != 1 || dRefmt d == 0 then rows
  else if dRefmt d == 1 then transposeRows (fmtBits d) (dN d 0) rows
  else
    let l := rows.flatten
    if dRefmt d == 2 then [convertRow (dFmtIn d) (dFmtOut d) (dN d 0) (dSat d) l]
    else [stripeRow (dFmtIn d) (dN d 0 / 2048 + 1) (rowElems (dFmtIn d) (dN d 0) l)]

-- Checks (R365, R366) --------------------------------------------------------------------------------------

/-- The pairs of formats that `CONVERT` takes (R366). -/
def convertPair (i o : Nat) : Bool :=
  (([8, 9].contains i) && ([0, 1, 2, 8, 9].contains o || isMX o)) || (decide (i ≤ 9) && o == 9)

/-- Weight formats (R131). -/
def stripeFmt (c : Nat) : Bool := decide (c ≤ 2) || isMX c

/-- Bytes that an element moves, at most (R365). -/
def elemBytes (d : List Byte) : Nat :=
  if isStream d then 64
  else if dRefmt d == 1 then dN d 0 * dN d 1 * fmtBits d / 8
  else if dRefmt d == 2 || dRefmt d == 3 then canonBytes (dFmtIn d) (dN d 0)
  else dESize d

/-- The index fields of R362 hold nothing else. -/
def indexShape (d : List Byte) : Bool := bNat d 34 1 / 2 == 0 && bNat d 35 1 / 32 == 0

/-- The check of a descriptor that starts: 0, or the code of its record (R360 to R368). -/
def descCode (d : List Byte) (radio : Bool) : Nat :=
  let ty := dType d
  let bad :=
    ty == 0 || decide (7 < ty) || dFlag d 7 || bNat d 4 1 / 16 != 0 || (bNat d 6 1).testBit 6 || bNat d 7 1 / 32 != 0 ||
    dN d 0 == 0 || (radio && dSR d) ||
    ((dFlag d 1 || dFlag d 2) && (decide (bNat d 7 1 < 12) || decide (30 < bNat d 7 1))) ||
    (dRefmt d != 0 && ty != 1) || decide (3 < dRefmt d) ||
    ((ty == 2 || ty == 3) && (!bZero d 28 6 || !indexShape d || !bZero d 36 2 || !bZero d 54 4)) ||
    (isStream d && (dESize d % 64 != 0 || bNat d 28 2 / 8 != 0 || !bZero d 30 4 || dDst d / 2 ^ 60 != 1 ||
      dDst d % 64 != 0 || paneRel d % 8 != 0 || (ty == 5 && bNat d 46 4 / 2 ^ 22 != 0) || !inBanks (paneRel d) 8)) ||
    (ty == 6 && !indexShape d) ||
    (ty == 7 && (dESize d != 64 || !bZero d 28 6 || dDst d / 2 ^ 20 != 0 || dFlag d 2)) ||
    (dRefmt d == 1 && (dESize d != 1 || decide (2 ^ 18 < elemBytes d) || dN d 0 * fmtBits d % 8 != 0 || dN d 1 * fmtBits d % 8 != 0)) ||
    decide (2 ^ 48 < dCount d * elemBytes d)
  leastCode [
    if bad then 0x1002 else 0,
    if ty == 1 && dRefmt d == 1 && !(decide (dFmtIn d ≤ 9) && fmtBits d != 6) then 0x7006 else 0,
    if ty == 1 && dRefmt d == 2 && !convertPair (dFmtIn d) (dFmtOut d) then 0x7006 else 0,
    if ty == 1 && dRefmt d == 3 && !stripeFmt (dFmtIn d) then 0x7006 else 0,
    if ty == 1 && (dRefmt d == 2 || dRefmt d == 3) && isMX (dFmtIn d) &&
      (dSS d 1) % ((1 + 4 * elemBits (dFmtIn d) : Nat) : Int) != 0 then 0x7008 else 0]

-- Running (R379 to R385) -----------------------------------------------------------------------------------

/-- A transfer ends before its last element (R379). -/
def endX (s : Chip) (q slot code : Nat) : Chip :=
  modXfer s q slot (fun x => { x with stage := .readBack, ended := true, codes := code :: x.codes })

/-- A stop-and-resume transfer stops and stops its queue (R381). -/
def stopX (s : Chip) (q slot code : Nat) : Chip :=
  let s1 := modXfer s q slot (fun x => { x with stage := .readBack, stopped := true, codes := code :: x.codes })
  if cState (ctxPeek s1 q) == 4 then s1 else setQState s1 q 3

/-- The fault mode of the descriptor decides (R378, R379). -/
def failX (s : Chip) (q : Nat) (x : Xfer) (code : Nat) : Chip :=
  if dSR x.d then stopX s q x.slot code else endX s q x.slot code

/-- An index entry (R362): the value shifted, and a code (0x1004 at or beyond the limit). -/
def readIndex (s : Chip) (c : List Byte) (q : Nat) (d : List Byte) (i : Nat) : Chip × Nat × Nat :=
  let w := if (bNat d 34 1).testBit 0 then 8 else 4
  let r := sideRead s c q (addOff (bNat d 38 8) ((w * i : Nat) : Int)) w
  let v := leNat (unmark r.2.1)
  if r.2.1.any (·.2) then (r.1, 0, if r.2.2 == 0 then 0x1003 else r.2.2)
  else if bNat d 46 8 ≤ v then (r.1, 0, 0x1004)
  else (r.1, v * 2 ^ (bNat d 35 1 % 32), 0)

/-- Pieces read in turn; the lowest code. -/
def readPieces (c : List Byte) (q : Nat) : List (Nat × Nat) → Chip → Chip × List MByte × Nat
  | [], s => (s, [], 0)
  | (a, n) :: r, s =>
    let x := sideRead s c q a n
    let y := readPieces c q r x.1
    (y.1, x.2.1 ++ y.2.1, leastCode [x.2.2, y.2.2])

/-- The source rows of an element. -/
def readRowsX (c : List Byte) (q : Nat) (d : List Byte) : List (Int × Nat) → Chip → Chip × List (List MByte) × Nat
  | [], s => (s, [], 0)
  | (o, n) :: r, s =>
    let x := readPieces c q (ringPieces (dFlag d 1) (bNat d 7 1) (dSrc d) o n) s
    let y := readRowsX c q d r x.1
    (y.1, x.2.1 :: y.2.1, leastCode [x.2.2, y.2.2])

/-- Bytes written over pieces in turn. -/
def writePieces (c : List Byte) (q slot : Nat) : List (Nat × Nat) → List MByte → Chip → Chip × Nat
  | [], _, s => (s, 0)
  | (a, n) :: r, bs, s =>
    let x := sideWrite s c q slot a (bs.take n)
    let y := writePieces c q slot r (bs.drop n) x.1
    (y.1, leastCode [x.2, y.2])

/-- The destination base of an element: a ring fill writes into the ring of its target (R353). -/
def dstPieces (s : Chip) (d : List Byte) (e : Nat) (o : Int) (n : Nat) : List (Nat × Nat) :=
  if dType d == 7 then
    let t := ctxPeek s (dDst d % 2 ^ 20)
    [(ringSlot t (cTail t + e), n)]
  else ringPieces (dFlag d 2) (bNat d 7 1) (dDst d) o n

/-- The rows of an element written; where a mark-and-flow transfer has written before, a free choice leaves either
element (R361). -/
def writeRowsX (c : List Byte) (q slot : Nat) (d : List Byte) (e : Nat) (spots : List Nat) :
    List (Int × List MByte) → Chip → Chip × Nat
  | [], s => (s, 0)
  | (o, bs) :: r, s =>
    let ps := dstPieces s d e o bs.length
    let covered (a : Nat) : Bool := spots.any (fun b => decide (b ≤ a) && decide (a < b + bs.length))
    let hit := !dSR d && ps.any (fun p => covered p.1 || covered (p.1 + p.2 - 1))
    let keep := if hit then freeBelow s 2 else (1, s)
    let x :=
      if keep.1 == 0 then
        let each := (ps.flatMap (fun p => (List.range p.2).map (fun k => p.1 + k))).zip bs
        let new := each.filter (fun b => !covered b.1)
        writePieces c q slot (new.map (fun b => (b.1, 1))) (new.map (·.2)) keep.2
      else writePieces c q slot ps bs keep.2
    let y := writeRowsX c q slot d e spots r x.1
    (y.1, leastCode [x.2, y.2])

/-- The destination tile of a transfer, if it is one (R375). -/
def dstTile (s : Chip) (c d : List Byte) : Option Nat :=
  if dType d != 7 && dDst d / 2 ^ 60 == 1 then physOf s (cPart c) (bitsOf (dDst d) 39 32) else none

/-- The counter of a transfer whose last element is written (R375); a stream's waits for its last pane (R370). -/
def xArrive (s : Chip) (c d : List Byte) : Chip :=
  match dstTile s c d, dCnt d with
  | some t, some n => retryTile (acArrive s t n) t
  | _, _ => s

/-- The last element has been handled: the read-backs go out (R372, R375). -/
def lastElement (s : Chip) (q : Nat) (c : List Byte) (x : Xfer) : Chip :=
  if x.next < dCount x.d || isStream x.d then s
  else xArrive (modXfer s q x.slot (fun y => { y with stage := .readBack })) c x.d

/-- An element delivered or dropped. -/
def advanceX (s : Chip) (q : Nat) (c : List Byte) (x : Xfer) : Chip :=
  lastElement (modXfer s q x.slot (fun _ => x)) q c x

/-- The pane of a stream's next element has been requested (R161, R368, R369). -/
def paneAsked (s : Chip) (c : List Byte) (q : Nat) (x : Xfer) : Bool :=
  !isStream x.d ||
    (match dstTile s c x.d with
    | none => true
    | some t =>
      let y := tget (fun _ => ({} : Stream)) (getTile s t).streams (paneNo x.d)
      tileFenced s t ||
        (y.on && y.queue == q && (!y.stopped || x.next % (paneBytes x.d / 64) != 0) &&
          decide (x.next / (paneBytes x.d / 64) < y.released + 5)))

/-- New host writes, fronthaul frames and fabric requests have stopped (R658). -/
def outShut (s : Chip) (a : Nat) : Bool := s.boot.undervolt && (a / 2 ^ 60 == 2 || a / 2 ^ 60 == 3)

/-- One element of a running transfer (R379, R380). -/
def dmaElement (s : Chip) (q : Nat) (x : Xfer) (o : ReadOutcome) : Chip :=
  let c := ctxPeek s q
  let d := x.d
  let ix := if dType d == 2 || dType d == 3 || dType d == 6 then
      readIndex s c q d (if dType d == 6 then x.next / (paneBytes d / 64) else x.next)
    else (s, 0, 0)
  let src := readRowsX c q d (srcOffs d x.next ix.2.1) ix.1
  let met := match o with
    | .good => 0
    | .edgePortFailed => 0x1007
    | .hostError => 0x1008
    | .fabricError code => code
  let marked := src.2.1.any (fun l => l.any (·.2))
  let pzCode := if ix.2.2 != 0 then ix.2.2 else if met != 0 then met else if src.2.2 != 0 then src.2.2
    else if marked then 0x1003 else 0
  if met == 0x1008 || src.2.2 == 0x1008 then failX s q x 0x1008
  else if pzCode != 0 && dSR d then stopX ix.1 q x.slot pzCode
  else if ix.2.2 != 0 && dType d == 3 then
    -- a scatter's element without an address reaches no byte (DEDUCED, log 19)
    advanceX ix.1 q c { x with next := x.next + 1, poisoned := x.poisoned + 1, codes := pzCode :: x.codes }
  else
    let all := pzCode != 0
    let rows := if all then src.2.1.map (fun l => l.map (fun _ => ((0#8 : Byte), true))) else src.2.1
    let out := reformat d rows
    let offs := dstOffs d x.next ix.2.1
    let s1 := if ix.2.2 != 0 then ix.1 else src.1
    let w := writeRowsX c q x.slot d x.next x.spots (offs.zip out) s1
    let n := (out.map (·.length)).foldl (· + ·) 0
    if w.2 == 0x2003 then
      (if dSR d then stopX w.1 q x.slot 0x2003
      else advanceX w.1 q c { x with
        next := x.next + 1, missed := x.missed + 1, miss := some (x.miss.getD x.next), dropped := x.dropped + 1,
        codes := 0x2003 :: x.codes })
    else if w.2 != 0 then failX w.1 q x w.2
    else
      advanceX w.1 q c { x with
        next := x.next + 1, bytes := x.bytes + n, poisoned := x.poisoned + b2n (pzCode != 0),
        codes := if pzCode != 0 then pzCode :: x.codes else x.codes,
        spots := if dSR d || dRefmt d != 0 || isStream d then [] else
          (offs.flatMap (fun f => (dstPieces s d x.next f n).map (·.1))) ++ x.spots }

/-- DMA_READ_RETURN (R379, R380): the next element of a running transfer. -/
def cmdDmaReadReturn (queue slot : Nat) (outcome : ReadOutcome) (s : Chip) : Out :=
  .next (match findXfer s queue slot with
    | none => s
    | some x =>
      let c := ctxPeek s queue
      if x.stage != .running || !paneAsked s c queue x || outShut s (dDst x.d) || dCount x.d ≤ x.next then s
      else dmaElement s queue x outcome)

/-- HOST_READ_TIMEOUT (R379, R619). -/
def cmdHostReadTimeout (queue slot : Nat) (s : Chip) : Out :=
  .next (match findXfer s queue slot with
    | none => s
    | some x => if x.stage == .running && dSrc x.d / 2 ^ 60 == 2 && dType x.d != 4 then failX s queue x 0x1008 else s)

/-- A fabric request of a queue came back with a code (R581, R591). -/
def dmaFabricError (s : Chip) (q slot code : Nat) : Chip :=
  match findXfer s q slot with
  | none => s
  | some x =>
    if x.stage == .running then failX s q x code
    else modXfer s q slot (fun y => { y with codes := code :: y.codes, badBack := true })

/-- Transfers that run on an engine (R355, R392). -/
def running (s : Chip) (e : Nat) : Nat :=
  (s.qm.xfers.map (fun p => (p.2.filter (fun x => x.engine == e && x.stage == .running)).length)).foldl (· + ·) 0

/-- ENGINE_FAILURE (R379, R385). -/
def cmdEngineFailure (engine : Nat) (s : Chip) : Out :=
  onUnit "engine" 16 engine s (fun s =>
    let s1 := fset s (aDMA_ENG_STATUS engine) 3 0 3
    forEach s.qm.xfers (fun st p =>
      forEach (p.2.filter (fun x => x.engine == engine && x.stage == .running)) (fun st' x => failX st' p.1 x 0x100B) st) s1)

/-- The engine serves its queues (R392). -/
def engineServes (s : Chip) (e : Nat) : Bool := fbit s (aDMA_ENG_CTL e) 0 && fget s (aDMA_ENG_STATUS e) 3 0 == 1

/-- The enabled engine with the fewest running transfers, the lowest of them (R551; DEDUCED, log 19). -/
def leastEngine (s : Chip) : Option Nat :=
  (List.range 16).foldl (fun r e =>
    if !engineServes s e then r
    else match r with
      | none => some e
      | some b => if running s e < running s b then some e else some b) none

/-- The engine that a descriptor of a queue starts on (R356, R551). -/
def startEngine (s : Chip) (c : List Byte) : Option Nat :=
  if fbit s (aPART_CTL (cPart c)) 1 then leastEngine s
  else if engineServes s (cEngine c) then some (cEngine c) else none

/-- A stream is set up in its tile (R161, R162, R368). -/
def openStream (s : Chip) (q : Nat) (c d : List Byte) : Chip :=
  match dstTile s c d with
  | none => s
  | some t =>
    let z : Stream := ⟨true, q, dDst d % 2 ^ 22, paneBytes d, dN d 0, paneRel d, 0, 0, false⟩
    modTile s t (fun y => { y with streams := tset (fun _ => ({} : Stream)) (paneNo d) z y.streams })

/-- The tile's stream is taken by another transfer. -/
def streamBusy (s : Chip) (c d : List Byte) : Bool :=
  isStream d && (match dstTile s c d with
    | none => false
    | some t => (tget (fun _ => ({} : Stream)) (getTile s t).streams (paneNo d)).on)

/-- A ring fill's target (R353, R354): the code of its record. -/
def fillCode (s : Chip) (c d : List Byte) : Nat :=
  if dType d != 7 then 0
  else
    let t := ctxPeek s (dDst d % 2 ^ 20)
    if cKind t != 1 || cFunc t != cFunc c || cState t == 0 then 0x100A
    else if 2 ^ cLog t < ringHeld t + dN d 0 then 0x1006 else 0

/-- DESCRIPTOR_START (R353, R355, R357, R365, R515, R542, R570, R591): the next descriptor of a queue, when ordering, fence and
trigger allow. -/
def cmdDescriptorStart (queue : Nat) (s : Chip) : Out :=
  .next (
    if !qmReady s || fbit s aQM_CTL 1 || decide (2 ^ 20 ≤ queue) || fget s aSEC_STATUS 3 0 == 0xF then s
    else
      match ctxLoad s queue with
      | none => s
      | some r =>
        let c := r.2
        let s1 := r.1
        if cKind c != 1 || !(cState c == 1 || cState c == 2) || unstarted s1 queue c == 0 || (getPart s1 (cPart c)).quiet ||
            fbit s1 (aFJ_CTL (cPart c)) 4 then s1
        else
          match startEngine s1 c with
          | none => s1
          | some e =>
            let v := nextSlot s1 queue c
            let m := devReadChecked s1 (cPart c) (cFunc c) (ringSlot c v % 2 ^ 48) 64
            let d := unmark m.2.1
            let code := if m.2.2 != 0 then m.2.2 else if m.2.1.any (·.2) then 0x1003
              else leastCode [descCode d (cRadio c), fillCode m.1 c d]
            let waits := code == 0 &&
              ((dFlag d 3 && !(xfersOf s1 queue).isEmpty) ||
                (dFlag d 4 && decide (tget (fun _ => 0) s1.qm.fires (cTrig c) ≤ tget (fun _ => 0) s1.qm.headAt queue)) ||
                decide (32 ≤ running s1 e) || streamBusy s1 c d ||
                (jobCode s1 (cPart c) == 0x3011 && (dSrc d / 2 ^ 60 == 3 || dDst d / 2 ^ 60 == 3)))
            if waits then s1
            else
              let x : Xfer := { slot := v, d := d, engine := e }
              let x' := if code == 0 then x else { x with stage := .record, ended := true, codes := [code] }
              let s2 := headArrives (setXfers m.1 queue (xfersOf m.1 queue ++ [x'])) queue
              let s3 := setQState s2 queue 2
              if code == 0 then (if isStream d then openStream s3 queue c d else s3) else writeRecord s3 queue v)

/-- A stream is abandoned: its transfer ends with 0x1001 (R186, R370). -/
def dropStream (s : Chip) (t k : Nat) : Chip :=
  let y := tget (fun _ => ({} : Stream)) (getTile s t).streams k
  if !y.on then s
  else
    let s1 := modTile s t (fun z => { z with streams := tset (fun _ => ({} : Stream)) k {} z.streams })
    match (xfersOf s1 y.queue).find? (fun x => isStream x.d && x.stage == .running && paneNo x.d == k) with
    | some x => endX s1 y.queue x.slot 0x1001
    | none => s1

/-- PANE_ARRIVAL (R161, R369, R370): the next pane of a stream is whole; after the last one the stream's counter is
decremented and its record follows. -/
def cmdPaneArrival (tile stream : Nat) (s : Chip) : Out :=
  if tile < 144 ∧ stream < 8 then
    .next (
      let y := tget (fun _ => ({} : Stream)) (getTile s tile).streams stream
      match (xfersOf s y.queue).find? (fun x => isStream x.d && x.stage == .running && paneNo x.d == stream &&
          dstTile s (ctxPeek s y.queue) x.d == some tile) with
      | none => s
      | some x =>
        if !y.on || decide (x.next < (y.whole + 1) * (paneBytes x.d / 64)) || decide (y.panes ≤ y.whole) then s
        else
          let done := y.whole + 1 == y.panes
          let z : Stream := { y with whole := y.whole + 1, on := !done }
          let s1 := modTile s tile (fun w => { w with streams := tset (fun _ => ({} : Stream)) stream z w.streams })
          let s2 := if done then
              xArrive (modXfer s1 y.queue x.slot (fun w => { w with stage := .readBack })) (ctxPeek s1 y.queue) x.d
            else s1
          retryTile s2 tile)
  else .fault (.noSuchUnit "pane stream")

end Sys2Proof.Machine
end

