-- ==== Sys2Proof/Machine/Notice.lean ====
section
/-! DEFINITION. What the Hearth tells others, and what stops the part: notices, tiles lost, radio codes, fatal errors
and fences (R173, R429 to R431, R461, R523, R524, R601, R637, R645). -/

namespace Sys2Proof.Machine

-- Radio codes (R461) ---------------------------------------------------------------------------------------

/-- A radio-class code recorded. -/
def radioCode (s : Chip) (code : Nat) : Chip := fset s aRADIO_ERR 63 48 code

def rdMod (s : Chip) (f : Radio → Radio) : Chip := { s with radio := f s.radio }

/-- A logical tile of the Anvil partition is lost to the plan: the next boundary answers (R430). -/
def radioLose (s : Chip) (l : Nat) : Chip :=
  if s.radio.lost.contains l then s
  else rdMod s (fun r => { r with lost := l :: r.lost, lostNow := r.lostNow ++ [l] })

/-- A report of 0x5030 or 0x5031 about a tile: counted, and the second within 8,000 Strikes marks the tile lost
(R428, R429). -/
def lateReport (s : Chip) (t code : Nat) : Chip :=
  let s1 := fsat (radioCode s code) aRADIO_ERR 47 32 1
  let n := s.radio.number
  let old := (tget (fun _ => []) s.radio.reports t).filter (fun m => decide (n < m + 8000))
  let s2 := rdMod s1 (fun r => { r with reports := tset (fun _ => []) t (n :: old) r.reports })
  if old.isEmpty then s2
  else match logOf s2 t with
    | some l => radioLose s2 l
    | none => s2

/-- The running plan's hard reserve holds the tile: a spare, or a working tile of tier 0 (R420). -/
def hardReserve (s : Chip) (t : Nat) : Bool :=
  match s.radio.plan with
  | none => false
  | some p => tileAnvil s t && (match logOf s t with
    | some l => decide (l < p.nspare + (p.tierTab.getD 0 (0, 0)).1)
    | none => false)

-- Notices (R523) -------------------------------------------------------------------------------------------

/-- A notice record of 64 bytes. -/
def noticeBytes (s : Chip) (nseq kind reason pass ltiles : Nat) : List Byte :=
  leBytes 4 nseq ++ leBytes 1 kind ++ leBytes 1 reason ++ leBytes 2 0 ++ leBytes 4 pass ++ leBytes 4 (strikeNow s) ++
    leBytes 18 ltiles ++ leBytes 30 0

/-- The tile writes of a notice: the record at QN_ADDR, then one decrement of QN_CNT. -/
def noticeTiles (s : Chip) (p : Nat) (bs : List Byte) : Chip :=
  let k := aPART_CTL p
  if !fbit s k 0 then s
  else
    forEach (getPart s p).map (fun st t =>
      if t = 0xFF || !tileOpen st t || !(tileHeld st t && tilePart st t == p) then st
      else
        let a := fget st k 31 16 * 64
        if !inBanks a 64 then st
        else
          retryTile (acArrive (ctrBank (putBytes t 65 st a (clean bs)) t true 1) t (fget st k 37 32)) t) s

/-- A notice to a partition; answers its number (R523). -/
def notice (s : Chip) (p kind reason pass ltiles : Nat) : Chip :=
  let n := (getPart s p).nseq + 1
  let bs := noticeBytes s n kind reason pass ltiles
  let s1 := modPart s p (fun x => { x with nseq := n })
  toController (noticeTiles s1 p bs) p 0x0010 0 (bs.take 48)

/-- The bitmap of a partition's logical tiles on a set of physical tiles. -/
def ltilesOf (s : Chip) (p : Nat) (ts : List Nat) : Nat :=
  let m := (getPart s p).map
  (List.range m.length).foldl (fun acc l => if ts.contains (m.getD l 0xFF) then acc + 2 ^ l else acc) 0

/-- Logical indices of physical tiles become absent (R524 to R526). -/
def makeAbsent (s : Chip) (p : Nat) (ts : List Nat) : Chip :=
  modPart s p (fun x => { x with map := x.map.map (fun t => if ts.contains t then 0xFF else t) })

-- Fences (R173, R524) --------------------------------------------------------------------------------------

/-- Registers and stacks that a fence or a strand reset empties (R173, R186). -/
def emptyEngines (y : Tile) : Tile :=
  { y with partials := [], sets := [], lanes := [], qMat := [], qBank := [], qFul := [], qComb := [], qMov := [] }

/-- A tile is fenced in service: its partition learns that it is lost (R524); the Anvil partition's plan loses its
logical tile (R430). -/
def tileLost (s : Chip) (t : Nat) : Chip :=
  if !tileHeld s t then s
  else
    let p := tilePart s t
    match logOf s t with
    | none => s
    | some l =>
      let s1 := faultMsg (notice s p 3 4 0 (2 ^ l)) p 0x4020 l 0xFF 0
      let s2 := if p == 0 then radioLose s1 l else s1
      makeAbsent s2 p [t]

/-- A tile is fenced (R173); a second fence does nothing. -/
def fenceTile (s : Chip) (t : Nat) : Chip :=
  if tileFenced s t then s
  else
    let s1 := fsetb (fsetb s (aTILE_CTL t) 4 true) (aTILE_STATUS t) 1 true
    let s2 := modTile s1 t emptyEngines
    tileLost { s2 with flights := s2.flights.filter (fun f => !(f.src == t && !f.arrived)) } t

-- Stopping the part (R601, R637, R656) ---------------------------------------------------------------------

def bootMod (s : Chip) (f : Boot → Boot) : Chip := { s with boot := f s.boot }
def rasMod (s : Chip) (f : Ras → Ras) : Chip := { s with ras := f s.ras }

/-- SEC_STATUS.STAGE (R602). -/
def stageNow (s : Chip) : Nat := fget s aSEC_STATUS 3 0
def setStage (s : Chip) (v : Nat) : Chip := fset s aSEC_STATUS 3 0 v

/-- A security-class code recorded (R630). -/
def secCode (s : Chip) (code : Nat) : Chip := fset s aSEC_STATUS 63 48 code

/-- Strike events and fronthaul egress stop (R601, R656). -/
def stopRadio (s : Chip) : Chip :=
  fsetb (rdMod s (fun r => { r with running := false })) aSTRIKE_STATUS 2 false

/-- The steps of R601: radio and DMA stop, AER is signalled, and the stage is failed. -/
def failPart (s : Chip) : Chip := setStage (bootMod (stopRadio s) (fun b => { b with aer := b.aer + 1 })) 0xF

/-- A fatal error (R637, R645): source 1 Hearth SRAM, 2 router state, 3 root of trust. -/
def fatal (s : Chip) (src t : Nat) : Chip :=
  fset (fset (fsetb (failPart s) aRAS_STATUS 63 true) aRAS_STATUS 59 56 src) aRAS_STATUS 55 48 t

-- Starting strands (R185) ----------------------------------------------------------------------------------

/-- A strand that was reset starts at its entry word; before the tile is tested and zeroed it waits (R172, R185). -/
def startStrand (s : Chip) (t i : Nat) : Chip :=
  let x := getStrand s t i
  if !x.fresh || !strandRuns s t i || !tileOpen s t then s
  else
    let r := readWord (ctrBank s t false 1) t i
    let s1 := modStrand r.1 t i (fun y => { y with fresh := false })
    if r.2.pz then takeFault s1 t i 0x2093 0x04 0xFF (8 * i)
    else if 196608 ≤ r.2.v then takeFault s1 t i 0x2098 0x04 0xFF (8 * i)
    else modStrand s1 t i (fun y => { y with pc := r.2.v })

/-- Every strand of a tile that may start does. -/
def startStrands (s : Chip) (t : Nat) : Chip := forEach (List.range 8) (fun st i => startStrand st t i) s

/-- Strands go on: fresh ones at their entry, waiting ones with their bundle. -/
def wakeTile (s : Chip) (t : Nat) : Chip := retryTile (startStrands s t) t

end Sys2Proof.Machine
end

