-- ==== Sys2Proof/Machine/TileCtl.lean ====
section
/-! DEFINITION. Mesh resends and the control of a tile: governor, bank upkeep, zeroing, fences, strand control, host
access and fetch (R42, R122 to R128, R158, R163 to R173, R184 to R186, R717; rows 2 to 19). -/

namespace Sys2Proof.Machine

-- Mesh links (R42, R460) -----------------------------------------------------------------------------------

/-- What a link number names: a Knuckle row, an edge port, a link inside a die, or nothing. -/
inductive Link where
  | knuckle (row : Nat)
  | edge (port : Nat)
  | die (tile : Nat)
  | none
  deriving DecidableEq, Repr

def linkOf (n : Nat) : Link :=
  if 0x400 ≤ n then (if n < 0x40C then .edge (n - 0x400) else .none)
  else if 576 ≤ n then .none
  else
    let t := n / 4
    let o := n % 4
    let x := tileX t
    let y := tileY t
    if o == 1 && x == 5 then .knuckle y
    else if o == 3 && x == 6 then .knuckle y
    else if (o == 0 && y == 11) || (o == 1 && x == 11) || (o == 2 && y == 0) || (o == 3 && x == 0) then .none
    else .die t

def meshMod (s : Chip) (f : MeshS → MeshS) : Chip := { s with mesh := f s.mesh }

/-- A row's Knuckle link is marked in one of its directions (R35, R460). -/
def rowMarked (s : Chip) (y : Nat) : Bool :=
  tmem s.mesh.marked (4 * (12 * y + 5) + 1) || tmem s.mesh.marked (4 * (12 * y + 6) + 3)

/-- A link is marked failing and the mark is counted (R42, R51, R64, R645). -/
def markLink (s : Chip) (n : Nat) (l : Link) : Chip :=
  if tmem s.mesh.marked n then s
  else
    let s1 := meshMod s (fun m => { m with marked := tmark m.marked n true })
    let due (st : Chip) : Chip := meshMod (fsat st aRAS_LINKMARK 63 32 1) (fun m => { m with due := m.due ++ [n] })
    match l with
    | .knuckle y => if rowMarked s y then s1 else due s1
    | .edge x => due (fset s1 aMESH_STATUS 47 36 (Nat.lor (fget s1 aMESH_STATUS 47 36) (2 ^ x)))
    | _ => fsat s1 aRAS_LINKMARK 63 32 1

/-- MESH_FLIT_RESEND (R42, R48, R645): `again` says that the flit failed on its previous send too. -/
def cmdMeshFlitResend (link : Nat) (again : Bool) (s : Chip) : Out :=
  match linkOf link with
  | .none => .fault (.noSuchUnit "mesh link")
  | l => .next (
      let n := if again then tget (fun _ => 0) s.mesh.fails link + 1 else 1
      let s1 := fsat s aMESH_STATUS 15 0 1
      let s2 := match l with
        | .edge _ => fsat s1 aRAS_LINKMARK 31 0 1
        | _ => s1
      let s3 := meshMod s2 (fun m => { m with fails := tset (fun _ => 0) link n m.fails })
      let s4 := if 2 ≤ n then markLink s3 link l else s3
      match l with
      | .die t => if 64 ≤ n then fatal s4 2 t else s4
      | _ => s4)

-- Governor (R164 to R166) ----------------------------------------------------------------------------------

/-- Cycles granted of those in which an engine is ready. -/
def govGrant (left units ready : Nat) : Nat := if units == 0 then ready else min ready (left / units)

/-- GOVERNOR_FRAME (R164, R166): ready cycles of each engine in the frame and the units each draws in one. -/
def cmdGovernorFrame (tile readyF readyM readyB unitsM unitsB : Nat) (s : Chip) : Out :=
  onTile tile s (fun s =>
    let k := aTILE_GOV tile
    let all := 4 * fget s k 15 8
    let f := govGrant all 25 readyF
    let r1 := all - 25 * f
    let first := if fbit s k 0 then (unitsB, readyB) else (unitsM, readyM)
    let other := if fbit s k 0 then (unitsM, readyM) else (unitsB, readyB)
    let a := govGrant r1 first.1 first.2
    let r2 := r1 - first.1 * a
    let b := govGrant r2 other.1 other.2
    if f < readyF || a < first.2 || b < other.2 then fsat s k 63 32 1 else s)

/-- TILE_GOV_WRITE (R166, R170). -/
def cmdTileGovWrite (tile : Nat) (data : Word) (s : Chip) : Out :=
  onTile tile s (fun s =>
    let v := data.toNat
    let s1 := fset s (aTILE_GOV tile) 0 0 (bitsOf v 0 0)
    if hardReserve s tile then s1 else fset s1 (aTILE_GOV tile) 15 8 (max 25 (min 125 (bitsOf v 15 8))))

-- Bank upkeep (R123, R126, R128) ---------------------------------------------------------------------------

/-- ECC_WRITE_BACK (R123). -/
def cmdEccWriteBack (tile bank : Nat) (s : Chip) : Out :=
  onBank tile bank s (fun s =>
    let x := getTile s tile
    match x.wbq.find? (fun w => wordBank w == bank) with
    | none => s
    | some w => setTile s tile { x with wbq := x.wbq.erase w, flaw := tset (fun _ => 0) w 0 x.flaw })

/-- Passes that all 32 banks have completed. -/
def scrubPasses (y : Tile) : Nat :=
  (List.range 32).foldl (fun m b => min m (tget (fun _ => 0) y.scrub b / 1536)) (tget (fun _ => 0) y.scrub 0 / 1536)

/-- SCRUB_LINE (R126). -/
def cmdScrubLine (tile bank : Nat) (s : Chip) : Out :=
  onBank tile bank s (fun s =>
    if !fbit s (aTILE_CTL tile) 3 || !tilePowered s tile then s
    else
      let n := tget (fun _ => 0) (getTile s tile).scrub bank
      let r := readWords s tile (bank * 0x3000 + n % 1536 * 8) 8
      let s1 := modTile r.1 tile (fun y => { y with scrub := tset (fun _ => 0) bank (n + 1) y.scrub })
      fsat s1 (aTILE_ECC tile) 15 0 (scrubPasses (getTile s1 tile) - scrubPasses (getTile s tile)))

/-- PORT_PROMOTION (R128): a grant to a requester, of order 1 to 6, that had been refused 16 times. -/
def cmdPortPromotion (tile bank order : Nat) (s : Chip) : Out :=
  if order = 0 ∨ 6 < order then .fault (.noSuchUnit "bank requester")
  else onBank tile bank s (fun s => fsat s (aTILE_STATUS tile) 15 8 1)

-- Zeroing and fences (R172, R173) --------------------------------------------------------------------------

/-- TILE_ZERO (R172). -/
def cmdTileZero (tile : Nat) (s : Chip) : Out :=
  onTile tile s (fun s =>
    if !tilePowered s tile || !tileEnabled s tile then s
    else modTile (fsetb s (aTILE_STATUS tile) 2 false) tile (fun y => { y with zeroing := true }))

/-- Every line of every bank written with zero (R172). -/
def zeroBanks (y : Tile) : Tile :=
  { y with mem := [], pz := [], flaw := [], wbq := [], zeroing := false, fetch := y.fetch.filter (y.locked.contains ·) }

/-- TILE_ZERO_COMPLETE (R172). -/
def cmdTileZeroComplete (tile : Nat) (s : Chip) : Out :=
  onTile tile s (fun s =>
    if !(getTile s tile).zeroing then s
    else wakeTile (fsetb (modTile s tile zeroBanks) (aTILE_STATUS tile) 2 true) tile)

/-- TILE_FENCE (R173, R524, R430). -/
def cmdTileFence (tile : Nat) (s : Chip) : Out := onTile tile s (fun s => fenceTile s tile)

/-- TILE_LOGIC_FAULT (R173): the Hearth fences the tile. -/
def cmdTileLogicFault (tile : Nat) (s : Chip) : Out := onTile tile s (fun s => fenceTile s tile)

-- Strands (R184 to R186) -----------------------------------------------------------------------------------

/-- The sends of a tile at its reset: a free number of lines of each has left (R186). -/
def cutSends (t : Nat) : List Flight → Chip → Chip × List Flight
  | [], s => (s, [])
  | f :: l, s =>
    let lines := f.words.length / 8
    let r := if f.src == t && !f.arrived then freeBelow s (lines + 1) else (0, s)
    let q := cutSends t l r.2
    if f.src != t then (q.1, f :: q.2)
    else if f.arrived || r.1 == lines then (q.1, { f with acked := true } :: q.2)
    else if r.1 == 0 then q
    else (q.1, { f with words := f.words.take (8 * r.1), cut := true, acked := true } :: q.2)

/-- STRAND_RESET's effect on a tile (R186). -/
def resetStrands (s : Chip) (t : Nat) : Chip :=
  let s1 := forEach (List.range 8) (fun st k => dropStream st t k) s
  let s2 := forEach (List.range 8) (fun st i =>
    modStrand st t i (fun x => { ({} : Strand) with fresh := true, held := x.held })) s1
  let c := cutSends t s2.flights s2
  modTile { c.1 with flights := c.2 } t (fun y => { emptyEngines y with ac := [], c := [], cm := [], lcOwner := none })

/-- STRAND_RESET (R186). -/
def cmdStrandReset (tile : Nat) (s : Chip) : Out := onTile tile s (fun s => resetStrands s tile)

/-- TILE_CTL.HALT written (R168, R185). -/
def haltTile (s : Chip) (t : Nat) (halt : Bool) : Chip :=
  let s1 := fsetb s (aTILE_CTL t) 1 halt
  if halt then s1 else wakeTile s1 t

/-- TILE_HALT (R184, R185). -/
def cmdTileHalt (tile : Nat) (halt : Bool) (s : Chip) : Out := onTile tile s (fun s => haltTile s tile halt)

/-- STRAND_ENABLE (R184). -/
def cmdStrandEnable (tile mask : Nat) (s : Chip) : Out :=
  onTile tile s (fun s => wakeTile (fset s (aTILE_CTL tile) 39 32 mask) tile)

-- Host access (R717) ---------------------------------------------------------------------------------------

/-- The code with which a host access is refused: 0 when it is performed. -/
def windowCode (s : Chip) (t : Nat) : Nat :=
  leastCode [if tileOpen s t then 0 else 0x2081, if bankEnd ≤ fget s (aTILE_SRAM_ADDR t) 21 3 * 8 then 0x2080 else 0]

/-- A refused access, counted and recorded. -/
def windowRefuse (s : Chip) (t code : Nat) : Chip := tileStatus (fsat s aRAS_STATUS 31 0 1) t code

/-- The address moves on by 8. -/
def windowNext (s : Chip) (t : Nat) : Chip := fset s (aTILE_SRAM_ADDR t) 21 3 (fget s (aTILE_SRAM_ADDR t) 21 3 + 1)

/-- TILE_SRAM_DATA_READ (R717). -/
def cmdTileSramDataRead (tile : Nat) (s : Chip) : Out :=
  onTile tile s (fun s =>
    let code := windowCode s tile
    if code != 0 then { windowRefuse s tile code with resp := BitVec.allOnes 64 }
    else
      let r := readWord (ctrBank s tile false 1) tile (fget s (aTILE_SRAM_ADDR tile) 21 3)
      let s1 := if r.2.pz then tileStatus (fsetb r.1 (aTILE_STATUS tile) 3 true) tile 0x2083 else r.1
      { windowNext s1 tile with resp := BitVec.ofNat 64 r.2.v })

/-- TILE_SRAM_DATA_WRITE (R717, R124). -/
def cmdTileSramDataWrite (tile : Nat) (data : Word) (s : Chip) : Out :=
  onTile tile s (fun s =>
    let code := windowCode s tile
    if code != 0 then windowRefuse s tile code
    else windowNext (writeWord (ctrBank s tile true 1) tile (fget s (aTILE_SRAM_ADDR tile) 21 3) ⟨data.toNat, false⟩) tile)

-- Fetch and buffers (R158, R163) ---------------------------------------------------------------------------

/-- A line put into the fetch buffer of 256 lines: the oldest line that is not locked leaves. -/
def fetchPut (y : Tile) (line : Nat) : Tile :=
  if y.fetch.contains line then y
  else if y.fetch.length < 256 then { y with fetch := y.fetch ++ [line] }
  else
    match y.fetch.find? (fun l => !y.locked.contains l) with
    | some old => { y with fetch := y.fetch.erase old ++ [line] }
    | none => y

/-- A strand of the tile waits for the line. -/
def wantsLine (s : Chip) (t line : Nat) : Bool :=
  (List.range 8).any (fun i =>
    let x := getStrand s t i
    x.wait == some ⟨.fetch, 0⟩ && x.pc / 4 == line)

/-- FETCH_LINE_ARRIVAL (R158). -/
def cmdFetchLineArrival (tile line : Nat) (s : Chip) : Out :=
  onTile tile s (fun s =>
    if !wantsLine s tile line || !tileOpen s tile then s
    else
      let r := readWords (ctrBank s tile false 1) tile (8 * line) 8
      retryTile (modTile r.1 tile (fun y => fetchPut y line)) tile)

/-- BUFFER_SWAP (R163, R429): whether the fill is complete is a free value, since the spec gives the mover's fill no
form; a late swap is counted and waits, and the next BUFFER_SWAP of the strand ends its wait (DEDUCED, log 19). -/
def cmdBufferSwap (tile strand : Nat) (s : Chip) : Out :=
  onStrand tile strand s (fun s =>
    let h := tget (fun _ => ({} : Halves)) (getTile s tile).halves strand
    let put (st : Chip) (z : Halves) : Chip :=
      modTile st tile (fun y => { y with halves := tset (fun _ => ({} : Halves)) strand z y.halves })
    if h.waiting then
      retryTile (put s ⟨!h.half, false⟩) tile
    else
      let f := freeBelow s 2
      if f.1 == 0 then put f.2 ⟨!h.half, false⟩
      else
        let s1 := fsat (put f.2 ⟨h.half, true⟩) (aTILE_STATUS tile) 23 16 1
        let s2 := modStrand s1 tile strand (fun x => { x with wait := some ⟨.swap, 0⟩ })
        if tileAnvil s tile then lateReport s2 tile 0x5031 else s2)

end Sys2Proof.Machine
end

