-- ==== Sys2Proof/Machine/MemCmd.lean ====
section
/-! DEFINITION. Commands of the memory controllers and the map (rows 125 to 137; R282 to R310, R602, R622). -/

namespace Sys2Proof.Machine

-- Service (R284, R340, R602) -------------------------------------------------------------------------------

/-- The domain of a channel's memory group is on (R31). -/
def groupOn (s : Chip) (c : Nat) : Bool := domainOn s (38 + c / 8)

def inService (s : Chip) (c : Nat) : Bool := chanState s c == 2

/-- A tile's first test is over: it passed, it failed, or it is fenced (R602). -/
def tileJudged (s : Chip) (t : Nat) : Bool :=
  fbit s (aTILE_STATUS t) 0 || tmem s.ras.failed t || tileFenced s t

/-- Every channel of some memory group is in service. -/
def memGroupReady (s : Chip) : Bool :=
  (List.range 4).any (fun g => (List.range 8).all (fun i => inService s (8 * g + i)))

/-- Stages 0x4 and 0x5 are left forwards when their conditions hold (R602). -/
def advanceStage (s : Chip) : Chip :=
  let passed := ((List.range 144).filter (fun t => fbit s (aTILE_STATUS t) 0)).length
  let s1 := if stageNow s == 4 && memGroupReady s && decide (16 ≤ passed) then setStage s 5 else s
  if stageNow s1 == 5 && (List.range 144).all (fun t => !tileEnabled s1 t || tileJudged s1 t) then setStage s1 6 else s1

-- Training (R283 to R285) ----------------------------------------------------------------------------------

/-- The module is of a kind that a channel accepts (R284). -/
def moduleOk (x : Chan) : Bool := [32, 64, 96, 128, 192, 256].contains x.cap && [1, 2, 4].contains x.ranks

/-- The channel has a module and power, and answers its presence detect. -/
def chanPresent (s : Chip) (c : Nat) : Bool := (getChan s c).populated && groupOn s c

/-- MEM_TRAIN: every populated channel starts training, once per reset (R283, R305). -/
def cmdMemTrain (s : Chip) : Out :=
  if s.mem.trained then .next s
  else
    .next (forEach (List.range 32) (fun st c =>
      if chanPresent st c then
        let k := aMEM_STATUS c
        let x := getChan st c
        fset (fsetb (fset (fset st k 47 40 (x.cap / 16)) k 39 36 x.ranks) k 2 true) k 7 4 1
      else st) { s with mem := { s.mem with trained := true } })

/-- The speed asked for: an A0 part trains at most at 10,400 MT/s (R9, R283). -/
def askedSpeed (s : Chip) : Nat :=
  let v := fget s (aMEM_CTL 0) 15 14
  if fget s 0 39 32 == 0xA0 then min v 1 else v

/-- The channel can be trained at 8,800 MT/s at least. -/
def trainable (s : Chip) (c : Nat) : Bool := moduleOk (getChan s c) && decide ((getChan s c).best ≤ 2)

/-- The highest speed up to the one asked for that all trainable channels under training reach (R283). -/
def reachedSpeed (s : Chip) : Nat :=
  (List.range 32).foldl (fun v c =>
    if chanState s c == 1 && trainable s c then min v (getChan s c).best else v) (askedSpeed s)

/-- The speed that training ends at: the one reached before, for a group that was switched on again (R650). -/
def endSpeed (s : Chip) : Nat :=
  match (List.range 32).find? (inService s) with
  | some c => fget s (aMEM_STATUS c) 35 34
  | none => reachedSpeed s

/-- CHANNEL_TRAINING_COMPLETE: each channel under training enters service or the training-failed state (R283, R284);
hard repairs that a module could not make are counted (R610). -/
def cmdChannelTrainingComplete (hpprSkipped : Nat) (s : Chip) : Out :=
  if !((List.range 32).any (fun c => chanState s c == 1)) then .next s
  else
    let v := endSpeed s
    let s1 := forEach (List.range 32) (fun st c =>
      let k := aMEM_STATUS c
      if chanState st c != 1 then st
      else if trainable st c && decide (v ≤ (getChan st c).best) then fset (fset st k 7 4 2) k 35 34 v
      else fset (fset st k 7 4 3) (aSWAGE_STATUS c) 3 0 3) s
    .next (advanceStage (fsat s1 aSEC_STATUS 31 24 hpprSkipped))

-- Failure (R298) -------------------------------------------------------------------------------------------

/-- CHANNEL_FENCE (R298, R305). -/
def cmdChannelFence (chan : Nat) (s : Chip) : Out :=
  onChan chan s (fun st => failChannel (fsetb st (aMEM_CTL chan) 8 true) chan)

/-- CA_PARITY_ERROR: the command is sent again; an error of that too fails the channel (R298). -/
def cmdCaParityError (chan : Nat) (again : Bool) (s : Chip) : Out :=
  onChan chan s (fun st => when (again && inService st chan) st (fun u => failChannel u chan))

-- The map (R285, R287, R303, R309, R310) -------------------------------------------------------------------

/-- The values of WAYS and SET may be enabled (R309). -/
def mapLegal (ways set : Nat) : Bool :=
  ways != 3 && (ways != 2 || set == 0) && (ways != 1 || decide (set ≤ 1))

/-- The map is enabled: CAP is fixed, and the members out of service are lost to it (R285). -/
def enableMap (s : Chip) : Chip :=
  let s1 := fsetb s aMEM_MAP 0 true
  let set := (List.range 32).filter (inSet s1)
  let live := set.filter (inService s1)
  let cap := match live.map (fun c => (getChan s1 c).cap * 2 ^ 30) with
    | [] => 0
    | x :: r => r.foldl min x
  let s2 := { s1 with mem := { s1.mem with cap := cap, lost := set.filter (fun c => !inService s1 c) } }
  forEach (List.range 32) (fun st c => fsetb st (aMEM_STATUS c) 3 (inSet st c)) s2

/-- A write of MEM_MAP (R303, R309): while ENABLE is 1 only ENABLE takes the written value. -/
def writeMap (s : Chip) (v : Nat) : Chip :=
  if fbit s aMEM_MAP 0 then
    if bitOf v 0 then s
    else forEach (List.range 32) (fun st c => fsetb st (aMEM_STATUS c) 3 false)
      { fsetb s aMEM_MAP 0 false with mem := { s.mem with cap := 0, lost := [] } }
  else
    let s1 := fset (fset (fset s aMEM_MAP 47 40 (bitsOf v 47 40)) aMEM_MAP 33 32 (bitsOf v 33 32)) aMEM_MAP 25 24
      (bitsOf v 25 24)
    if bitOf v 0 && mapLegal (bitsOf v 33 32) (bitsOf v 25 24) then enableMap s1 else s1

/-- MEM_MAP_WRITE. -/
def cmdMemMapWrite (data : Word) (s : Chip) : Out := .next (writeMap s data.toNat)

/-- HDM_DECODER_COMMIT: MEM_HDM.LOCK is set (R303, R310). -/
def cmdHdmDecoderCommit (s : Chip) : Out := .next (fsetb s aMEM_HDM 0 true)

-- Accesses (R291 to R294, R301, R302) ----------------------------------------------------------------------

/-- What an access delivers. -/
def deliver (s : Chip) (bs : List MByte) (code : Nat) : Chip :=
  { s with mem := { s.mem with out := bs, outCode := code } }

/-- A host access lies in the host-managed region. -/
def hdmHit (s : Chip) (a n : Nat) : Bool :=
  fbit s aMEM_MAP 0 && decide (interSize s - hdmSize s ≤ a) && decide (a + n ≤ interSize s)

/-- HOST_HDM_ACCESS: `addr` is the device address that the host's decoder gives (R301, R302). -/
def cmdHostHdmAccess (isWrite : Bool) (addr len : Nat) (data : List (BitVec 8)) (s : Chip) : Out :=
  let n := if isWrite then data.length else len
  .next (if !hdmHit s addr n then deliver s (if isWrite then [] else List.replicate len (0#8, false))
      (if fbit s aMEM_MAP 0 then 0x2002 else 0x2004)
    else if isWrite then
      let r := devWriteRaw s 16 addr (clean data)
      deliver r.1 [] r.2
    else
      let r := devRead s 16 addr len
      deliver r.1 r.2.1 r.2.2)

/-- MEM_READ of partition `part` (16 for none) under function `fn` (R286, R291, R293, R298, R302). -/
def cmdMemRead (part fn addr len : Nat) (s : Chip) : Out :=
  onUnit "partition" 17 part s (fun st =>
    let r := devReadChecked st part fn addr len
    deliver r.1 r.2.1 r.2.2)

/-- MEM_WRITE (R291, R292, R294, R298, R302). -/
def cmdMemWrite (part fn addr : Nat) (data : List (BitVec 8)) (poison : Bool) (s : Chip) : Out :=
  onUnit "partition" 17 part s (fun st =>
    let r := devWrite st part fn addr (data.map (fun b => (if poison then 0#8 else b, poison)))
    deliver r.1 [] r.2)

/-- MEM_CORRECTION_WRITE_BACK: the oldest corrected burst is written back (R293). -/
def cmdMemCorrectionWriteBack (chan : Nat) (s : Chip) : Out :=
  onChan chan s (fun st =>
    match (getChan st chan).fix with
    | [] => st
    | mb :: r =>
      let s1 := modChan st chan (fun x => { x with fix := r })
      if chanFailed st chan || tget (fun _ => 0) st.mem.dflaw (mbKey chan mb / 64) != 1 then s1
      else
        let k := mbKey chan mb / 64
        ctrAdd { s1 with mem := { s1.mem with dflaw := tset (fun _ => 0) k 0 s1.mem.dflaw } } 16 (32 + chan) 64)

/-- The end of a scrub pass: it is counted, and the module's own counts are read, which no rule gives (R293,
R295; DESIGN CHOICE, log 9). -/
def endPass (s : Chip) (c : Nat) : Chip :=
  let s1 := modChan s c (fun x => { x with scrubPos := 0, scrubPass := x.scrubPass + 1 })
  let d := freeBelow (fsat s1 (aMEM_ECC c) 15 0 1) 65536
  fsat d.2 (aMEM_ECC c) 31 16 d.1

/-- PATROL_SCRUB: the next burst of the module (R295). -/
def cmdPatrolScrub (chan : Nat) (s : Chip) : Out :=
  onChan chan s (fun st =>
    when (inService st chan && fbit st (aMEM_CTL chan) 13) st (fun u =>
      let p := (getChan u chan).scrubPos
      let s1 := (readBurst u 16 chan (64 * p)).1
      if decide ((getChan u chan).cap * 2 ^ 24 ≤ p + 1) then endPass s1 chan
      else modChan s1 chan (fun x => { x with scrubPos := p + 1 })))

/-- The bursts of a row of a channel that hold an error. -/
def rowFlaws (s : Chip) (c row : Nat) : List Nat :=
  let lo := mbKey c (8192 * row) / 64
  (s.mem.dflaw.filter (fun p => decide (lo ≤ p.1) && decide (p.1 < lo + 128))).map (fun p => (p.1 - lo) * 64 + 8192 * row)

/-- SOFT_PPR: a row with corrected errors in four passes is copied, with its errors corrected or poisoned, and
repaired (R293, R296). -/
def cmdSoftPpr (chan row : Nat) (s : Chip) : Out :=
  onChan chan s (fun st =>
    let hits := tget (fun _ => []) (getChan st chan).rowHits row
    when (inService st chan && fbit st (aMEM_CTL chan) 12 && decide (4 ≤ hits.length)) st (fun u =>
      let s1 := forEach (rowFlaws u chan row) (fun v mb =>
        let r := readBurst v 16 chan mb
        putBurst r.1 chan mb (r.2.1.map (·.1)) (r.2.1.any (·.2))) u
      let s2 := modChan s1 chan (fun x => { x with
        rowHits := tset (fun _ => []) row [] x.rowHits
        fix := x.fix.filter (fun mb => mb / 8192 != row)
        spared := x.spared ++ [row] })
      fset (fsat s2 (aMEM_STATUS chan) 31 24 1) (aMEM_ERRLOG chan) 42 0 (8192 * row)))

/-- REFRESH changes timing only (R297). -/
def cmdRefresh (chan : Nat) (s : Chip) : Out := onChan chan s (fun st => st)

end Sys2Proof.Machine
end

