-- ==== Sys2Proof/Machine/Swage.lean ====
section
/-! DEFINITION. The Swage units: contexts, the page computation, records, APPEND and PAGE_INIT (rows 138 to 148;
R312 to R338). -/

namespace Sys2Proof.Machine

/-- The unit's channel has failed, or the unit is fenced: its contexts complete as for a failed channel (R325, R334). -/
def swFailed (s : Chip) (u : Nat) : Bool := chanFailed s u || fbit s (aSWAGE_CTL u) 1

def swCmdOf (c : SwCmd) : Nat := swField c.record 0 1

/-- An effect on the command of a context, when the context holds one of the kind. -/
def onCtx (s : Chip) (u k cmd : Nat) (f : Chip → SwCmd → Chip) : Out :=
  if u < 32 ∧ k < 24 then
    .next (match tget (fun _ => none) (getUnit s u).ctxs k with
      | some c => if swCmdOf c == cmd then f s c else s
      | none => s)
  else .fault (.noSuchUnit "Swage context")

def setCtx (s : Chip) (u k : Nat) (c : Option SwCmd) : Chip :=
  let x := getUnit s u
  swCounts (setUnit s u { x with ctxs := tset (fun _ => none) k c x.ctxs }) u

/-- A command is complete: its context frees, and it is counted (R330, R337). -/
def swDone (s : Chip) (u k : Nat) : Chip := fsat (setCtx s u k none) (aSWAGE_WORK u) 31 0 1

/-- Every earlier command of the command's sender has read what it reads, or is complete (R318, R327). -/
def swTurn (s : Chip) (u : Nat) (c : SwCmd) : Bool :=
  let x := getUnit s u
  let others := x.queue ++ x.ctxs.filterMap (·.2)
  others.all (fun o => o.sender != c.sender || decide (c.no ≤ o.no) || (swCmdOf o == 1 && o.stage == .records))

-- Reads and writes of the channel (R312, R314) -------------------------------------------------------------

/-- The device address of a local offset (R286). -/
def localAddr (u o : Nat) : Nat := 0x080000000000 + u * 2 ^ 38 + o

/-- Bytes read for a unit: counted for the partition (R332, R664). -/
def swRead (s : Chip) (u p o n : Nat) : Chip × List MByte :=
  let r := devRead (charge (ctrAdd s p 158 n) p 0 0 (64 * lineCount o n)) p (localAddr u o) n
  (r.1, r.2.1)

def swWrite (s : Chip) (u p o : Nat) (bs : List MByte) : Chip :=
  (devWriteRaw (markDirty (charge s p 0 0 (64 * lineCount o bs.length)) p (localAddr u o)) p (localAddr u o) bs).1

/-- Body bytes of a page (R314). -/
def bodyLen (f d : Nat) : Nat := 2 * (64 * rowPitch f d + (if isMX f then 2 * d else 0))

/-- One block (keys or values) of a body: the elements and the scale bytes of a row. -/
def blockRow (f d : Nat) (blk : List MByte) (i : Nat) : List Elem × List Elem :=
  let p := rowPitch f d
  let w := elemBits f / 8
  let row := (blk.drop (i * p)).take (d * w)
  let el (l : List MByte) : Elem := ⟨leNat (unmark l), l.any (·.2)⟩
  ((List.range d).map (fun j => el ((row.drop (j * w)).take w)),
    if isMX f then (List.range (d / 32)).map (fun j => el ((blk.drop (64 * p + i * (d / 32) + j)).take 1)) else [])

-- The page computation (R322) ------------------------------------------------------------------------------

/-- Query rows and their scales as a record carries them (R319). -/
def queryRow (c : SwCmd) (h : Nat) : List Elem × List Elem :=
  let fq := swField c.record 5 1
  let d := swDim (swField c.record 7 1)
  let gq := bitsOf (swField c.record 4 1) 3 0 + 1
  let w := elemBits fq / 8
  let p := rowPitch fq d
  let el (l : List MByte) : Elem := ⟨leNat (unmark l), l.any (·.2)⟩
  let row := (c.record.drop (64 + h * p)).take (d * w)
  ((List.range d).map (fun j => el ((row.drop (j * w)).take w)),
    if isMX fq then (List.range (d / 32)).map (fun j => el ((c.record.drop (64 + gq * p + h * (d / 32) + j)).take 1)) else [])

/-- The raw score of a query row and a key row (R322 step 2, R84, R89, R104). -/
def swScore (fq f : Nat) (q k : List Elem × List Elem) : Elem × Nat :=
  if (q.1 ++ q.2 ++ k.1 ++ k.2).any (·.pz) then (⟨poisonF32, true⟩, flPZ)
  else
    let r := groupOf fq f (q.1.map (·.v)) (k.1.map (·.v)) (q.2.map (·.v)) (k.2.map (·.v))
    (⟨r.1, false⟩, r.2)

/-- A value element as FP32 (R322 step 8). -/
def swValue (f : Nat) (sc : List Elem) (j : Nat) (e : Elem) : Elem × Nat :=
  let x := sc.getD (j / 32) ⟨0x7F, false⟩
  if e.pz || x.pz then (⟨poisonF32, true⟩, flPZ)
  else
    let v := if isMX f then mxElem f x.v e.v else decodeF ((elemFmt f).getD fBF16) e.v
    let r := toF32 v
    (⟨r.1, false⟩, r.2)

def isNanOrPosInf (x : Nat) : Bool := decide (0x7F800000 ≤ x % 2 ^ 31) && x != negInfF32

/-- o[j] of a page: the canonical tree over the weighted values. -/
def swColumn (f : Nat) (ps : List Elem) (vs : List (List Elem × List Elem)) (j : Nat) : Elem × Nat :=
  let leaves := List.zipWith (fun p v =>
    let x := swValue f v.2 j (v.1.getD j ⟨0, false⟩)
    let y := eBin fMul p x.1
    (y.1, flOr x.2 y.2)) ps vs
  let t := tree 0 (leaves.map (·.1))
  (t.1, flOr (allFlags (leaves.map (·.2))) t.2)

/-- The page partial from the 64 scaled scores and the value rows (R322 steps 4 to 8). -/
def swPartial (f d : Nat) (ss : List Elem) (vs : List (List Elem × List Elem)) : Att × Nat :=
  let all (e : Elem) : Att := ⟨e, e, List.replicate d e⟩
  if ss.any (·.pz) then (all ⟨poisonF32, true⟩, flPZ)
  else if ss.all (fun e => e.v == negInfF32) then
    (⟨⟨negInfF32, false⟩, ⟨0, false⟩, List.replicate d ⟨0, false⟩⟩, 0)
  else if ss.any (fun e => isNanOrPosInf e.v) then (all ⟨nanF32, false⟩, flNV)
  else
    let m := ss.foldl (fun a b => (eBin (fMinMax true) a b).1) ⟨negInfF32, false⟩
    let ps := ss.map (fun e => attFactor e m)
    let l := tree 0 (ps.map (·.1))
    let os := (List.range d).map (swColumn f (ps.map (·.1)) vs)
    (⟨m, l.1, os.map (·.1)⟩, flOr (allFlags (ps.map (·.2))) (flOr l.2 (allFlags (os.map (·.2)))))

/-- The page partial of head h from a descriptor and a body, with its flags and the flags of each score (R322). -/
def swPage (c : SwCmd) (desc body : List MByte) (h : Nat) : Att × Nat × List Nat :=
  let r := c.record
  let fq := swField r 5 1
  let f := swField r 19 1
  let d := swDim (swField r 7 1)
  let half := bodyLen f d / 2
  let valid := swField desc 0 8
  let p := swField desc 16 4
  let q := queryRow c h
  let ss := (List.range 64).map (fun i =>
    if bitOf valid i && decide (swField r 20 4 ≤ 64 * p + i) && decide (64 * p + i ≤ swField r 24 4) then
      let k := swScore fq f q (blockRow f d (body.take half) i)
      let x := eBin fMul k.1 ⟨swField r 8 4, false⟩
      (x.1, flOr k.2 x.2, k.2)
    else (⟨negInfF32, false⟩, 0, 0))
  let vs := (List.range 64).map (blockRow f d (body.drop half))
  let a := swPartial f d (ss.map (·.1)) vs
  (a.1, flOr a.2 (allFlags (ss.map (·.2.1))), ss.map (·.2.2))

/-- One level of the tree of a group's page partials: neighbours merge, a last one passes up (R103, R323). -/
def attLevel : List Att → List Att × Nat
  | a :: b :: r =>
    let x := attMerge a b
    let t := attLevel r
    (x.1 :: t.1, flOr x.2 t.2)
  | l => (l, 0)

def attTree : Nat → List Att → Nat → Option Att × Nat
  | 0, l, fl => (l.head?, fl)
  | n + 1, l, fl => if l.length ≤ 1 then (l.head?, fl) else let t := attLevel l; attTree n t.1 (flOr fl t.2)

-- A query in its context (R321, R323) ----------------------------------------------------------------------

/-- The pages of the group whose first page is p0 (R315). -/
def groupPages (c : SwCmd) (p0 : Nat) : Nat := min (2 ^ swField c.record 6 1) (swField c.record 40 4 + 1 - p0)

/-- The checks of a group's descriptors (R321, R317). -/
def groupCode (s : Chip) (u : Nat) (c : SwCmd) (ds : List (List MByte)) : Nat :=
  let r := c.record
  let first := ds.headD []
  let p0 := swField first 16 3 % 2 ^ 20
  let live := ds.take (groupPages c p0)
  leastCode ([if p0 % 2 ^ swField r 6 1 != 0 || decide (swField r 40 4 < p0) then 0x2044 else 0] ++
    ((List.range live.length).zip live).map (fun x =>
      let d := x.2
      leastCode [
        if d.any (·.2) || descReserved d || swField d 8 4 != swField r 12 4 || swField d 12 2 != swField r 16 2 ||
          swField d 14 1 != swField r 18 1 || swField d 15 1 != swField r 19 1 || swField d 20 1 != swField r 7 1 ||
          swField d 24 8 % 4096 != 0 then 0x2043 else 0,
        if swField d 16 4 % 2 ^ 20 != p0 + x.1 then 0x2044 else 0,
        if localHolds s u (swField d 24 8) (bodyLen (swField r 19 1) (swDim (swField r 7 1))) then 0 else 0x2042]))

/-- The descriptors of one group read, and the code of its checks. -/
def readGroup (s : Chip) (u : Nat) (c : SwCmd) (k : Nat) : Chip × List (List MByte) × Nat :=
  let n := 2 ^ swField c.record 6 1
  let o := swField c.record 28 8 + 64 * n * k
  let r := swRead s u c.part o (64 * n)
  let ds := (List.range n).map (fun i => (r.2.drop (64 * i)).take 64)
  let p0 := swField (ds.headD []) 16 3 % 2 ^ 20
  let short := !localHolds s u o (64 * min n (max 1 (groupPages c p0)))
  (r.1, ds, if short then 0x2042 else groupCode s u c ds)

def readGroups (u : Nat) (c : SwCmd) : Nat → Nat → Chip → Chip × List (List (List MByte) × Nat)
  | 0, _, s => (s, [])
  | n + 1, k, s =>
    let g := readGroup s u c k
    let r := readGroups u c n (k + 1) g.1
    (r.1, (g.2.1, g.2.2) :: r.2)

/-- G_q of a query (R319). -/
def swHeads (c : SwCmd) : Nat := bitsOf (swField c.record 4 1) 3 0 + 1

/-- The tag of head h of the group of node n (R323). -/
def swTag (c : SwCmd) (n h : Nat) : Tag :=
  let r := c.record
  ⟨(swField r 38 2 + h) % 2 ^ 16, swField r 6 1, n, swField r 40 4, 2⟩

/-- A partial with every value poisoned (R321, R325). -/
def poisonAtt (d : Nat) : Att :=
  let e : Elem := ⟨poisonF32, true⟩
  ⟨e, e, List.replicate d e⟩

/-- The node number of a group, from its first descriptor. -/
def groupNode (c : SwCmd) (ds : List (List MByte)) : Nat :=
  swField (ds.headD []) 16 3 % 2 ^ 20 / 2 ^ swField c.record 6 1

/-- The poisoned records of a group that failed its checks. -/
def badRecords (c : SwCmd) (ds : List (List MByte)) : List SwRec :=
  (List.range (swHeads c)).map (fun h => ⟨swTag c (groupNode c ds) h, poisonAtt (swDim (swField c.record 7 1))⟩)

/-- Groups that failed their checks and come next are returned poisoned; after the last group the command has read
all that it reads. -/
def skipBad (c : SwCmd) : Nat → SwCmd
  | 0 => c
  | n + 1 =>
    let k := c.records.length / swHeads c
    match c.groups[k]? with
    | none => { c with stage := .records }
    | some (ds, code) => if code == 0 then c else skipBad { c with records := c.records ++ badRecords c ds } n

/-- SWAGE_CONTEXT_START: the first command whose partition is below its cap takes the least free context (R330). -/
def cmdSwageContextStart (unit : Nat) (s : Chip) : Out :=
  onUnit "Swage unit" 32 unit s (fun st =>
    let x := getUnit st unit
    let used (p : Nat) : Nat := ((x.ctxs.filterMap (·.2)).filter (fun c => c.part == p)).length
    match (List.range 24).find? (fun k => (tget (fun _ => none) x.ctxs k).isNone),
      (x.queue.take 32).find? (fun c => decide (used c.part < fget st (aSWAGE_PART c.part) 4 0)) with
    | some k, some c =>
      setCtx (setUnit st unit { x with queue := x.queue.filter (fun o => o.no != c.no) }) unit k (some c)
    | _, _ => st)

/-- SWAGE_DESCRIPTORS_ARRIVE: each group is checked, and its code is recorded (R321, R342). -/
def cmdSwageDescriptorsArrive (unit ctx : Nat) (s : Chip) : Out :=
  onCtx s unit ctx 1 (fun st c =>
    when (c.stage == .fetch && !swFailed st unit && swTurn st unit c) st (fun v =>
      let ng := swField c.record 36 2
      let r := readGroups unit c ng 0 v
      let s1 := forEach r.2 (fun w g => if g.2 == 0 then w else swLog w unit g.2) r.1
      setCtx s1 unit ctx (some (skipBad { c with stage := .pages, groups := r.2 } (ng + 1)))))

/-- The flags of a page or a merge: NV and PZ are sticky in the unit, inexact groups are counted (R76, R118, R335). -/
def swFlags (s : Chip) (u fl : Nat) (scores : List Nat) : Chip :=
  let k := aSWAGE_STATUS u
  let old := fget s k 7 6
  let new := Nat.lor old (b2n (fl / flNV % 2 == 1) + 2 * b2n (fl / flPZ % 2 == 1))
  noteEvents (fset s k 7 6 new) (countFlag flGX scores) 0

/-- The partials of one head of a group merged (R323). -/
def mergeHead (c : SwCmd) (ds : List (List MByte)) (h : Nat) : SwRec × Nat :=
  let l := (c.parts.filter (fun x => x.1 == h)).map (·.2)
  let t := attTree 7 l 0
  (⟨swTag c (groupNode c ds) h, t.1.getD (poisonAtt (swDim (swField c.record 7 1)))⟩, t.2)

/-- SWAGE_PAGE_COMPLETE: the next page of the command is computed for every head; after the last page of a group its
partials are merged into its records (R322, R323, R337). -/
def cmdSwagePageComplete (unit ctx : Nat) (s : Chip) : Out :=
  onCtx s unit ctx 1 (fun st c =>
    when (c.stage == .pages && !swFailed st unit) st (fun v =>
      let k := c.records.length / swHeads c
      match c.groups[k]? with
      | none => v
      | some (ds, _) =>
        let d := ds.getD c.pagesDone []
        let b := swRead v unit c.part (swField d 24 8) (bodyLen (swField c.record 19 1) (swDim (swField c.record 7 1)))
        let ps := (List.range (swHeads c)).map (fun h => (h, swPage c d b.2 h))
        let s1 := fsat (swFlags b.1 unit (allFlags (ps.map (·.2.2.1))) (ps.flatMap (·.2.2.2))) (aSWAGE_WORK unit) 63 32 1
        let c1 := { c with pagesDone := c.pagesDone + 1, parts := c.parts ++ ps.map (fun x => (x.1, x.2.1)) }
        if c1.pagesDone < groupPages c (groupNode c ds * 2 ^ swField c.record 6 1) then setCtx s1 unit ctx (some c1)
        else
          let rs := (List.range (swHeads c)).map (mergeHead c1 ds)
          let c2 := { c1 with pagesDone := 0, parts := [], records := c1.records ++ rs.map (·.1) }
          setCtx (swFlags s1 unit (allFlags (rs.map (·.2))) []) unit ctx (some (skipBad c2 (c2.groups.length + 1)))))

-- Records (R323 to R325) -----------------------------------------------------------------------------------

/-- A decrement of the command's counter at its return tile (R209, R324); none when the tile is away or fenced. -/
def swArrive (s : Chip) (c : SwCmd) : Chip :=
  match physOf s c.part (swField c.record 2 2) with
  | none => s
  | some t => if tileOpen s t then retryTile (acArrive s t (swField c.record 1 1 % 64)) t else s

/-- Record r of a query written to its return tile, or dropped (R324, R325). -/
def putRecord (s : Chip) (u : Nat) (c : SwCmd) (x : SwRec) : Chip :=
  let d := swDim (swField c.record 7 1)
  match physOf s c.part (swField c.record 2 2) with
  | none => fsat s (aSWAGE_ERR u) 47 32 1
  | some t =>
    if !tileOpen s t then fsat s (aSWAGE_ERR u) 47 32 1
    else
      let fl := 128 * (1 + cdiv (4 * d) 128)
      let s1 := writeRec (ctrAdd s c.part (128 + edgePort s t) fl) t (swField c.record 44 4 + 64 * c.written)
        (swField c.record 48 4 + 64 * c.written) ⟨x.tag, d, 1, false, x.att.m, x.att.l, x.att.o⟩ true
      let s2 := if !x.att.l.pz && x.att.l.v % 2 ^ 31 == 0 then fsat s1 (aSWAGE_STATUS u) 63 48 1 else s1
      swArrive { s2 with mem := { s2.mem with served := tset (fun _ => 0) t (u + 1) s2.mem.served } } c

/-- The record that a failed channel leaves (R325): its node is known once the descriptors came, and is free
otherwise (DESIGN CHOICE, log 9). -/
def lostRecord (s : Chip) (c : SwCmd) : Chip × SwRec :=
  let h := c.written % swHeads c
  let d := swDim (swField c.record 7 1)
  match c.groups[c.written / swHeads c]? with
  | some (ds, _) => (s, ⟨swTag c (groupNode c ds) h, poisonAtt d⟩)
  | none => let f := freeBelow s (2 ^ 20); (f.2, ⟨swTag c f.1 h, poisonAtt d⟩)

/-- One record is gone; after the last the command is complete. -/
def wroteRecord (s : Chip) (u k : Nat) (c : SwCmd) : Chip :=
  if c.written + 1 < swField c.record 36 2 * swHeads c then setCtx s u k (some { c with written := c.written + 1 })
  else swDone s u k

/-- SWAGE_RECORD_WRITE (R323 to R325). -/
def cmdSwageRecordWrite (unit ctx : Nat) (s : Chip) : Out :=
  onCtx s unit ctx 1 (fun st c =>
    if swFailed st unit then
      let r := lostRecord st c
      wroteRecord (putRecord (swLog r.1 unit 0x2003) unit c r.2) unit ctx c
    else
      match c.records[c.written]? with
      | none => st
      | some x => wroteRecord (putRecord st unit c x) unit ctx c)

/-- Records that a query still owes (R325). -/
def swOwed (c : SwCmd) : Nat := if swCmdOf c == 1 then swField c.record 36 2 * swHeads c - c.written else 0

/-- The commands of a partition that is torn down are complete without writing; the records they owe are dropped (R325,
R532). -/
def swAbandon (p : Nat) (s : Chip) (u : Nat) : Chip :=
  let x := getUnit s u
  let all := x.queue ++ x.ctxs.filterMap (·.2)
  let keep (k : Nat × Option SwCmd) : Bool := (k.2.map (fun c => c.part != p)).getD true
  let s1 := swCounts (setUnit s u { x with queue := x.queue.filter (fun c => c.part != p), ctxs := x.ctxs.filter keep }) u
  fsat s1 (aSWAGE_ERR u) 47 32 (((all.filter (fun c => c.part == p)).map swOwed).foldl (· + ·) 0)

-- APPEND and PAGE_INIT (R326 to R328) ----------------------------------------------------------------------

/-- The end of an APPEND or a PAGE_INIT: its decrement, unless the record asks for none, and its context. -/
def swEnd (s : Chip) (u k : Nat) (c : SwCmd) : Chip :=
  swDone (if bitOf (swField c.record 1 1) 7 then s else swArrive s c) u k

/-- The code of an APPEND against its descriptor (R326). -/
def appendCode (s : Chip) (u : Nat) (c : SwCmd) (d : List MByte) : Nat :=
  let r := c.record
  let f := swField d 15 1
  leastCode [
    if d.any (·.2) || descReserved d || !kvFmt f || decide (2 < swField d 20 1) || swField d 8 4 != swField r 16 4 ||
      swField d 12 2 != swField r 20 2 || swField d 14 1 != swField r 22 1 || swField d 24 8 % 4096 != 0 ||
      r.length != appendLen f (swDim (swField d 20 1)) then 0x2043 else 0,
    if swField r 4 4 / 64 != swField d 16 4 then 0x2045 else 0,
    if localHolds s u (swField d 24 8) (bodyLen f (swDim (swField d 20 1))) then 0 else 0x2042]

/-- The rows of an APPEND written into the body, then VALID (R326, R327). -/
def appendRows (s : Chip) (u : Nat) (c : SwCmd) (d : List MByte) : Chip :=
  let r := c.record
  let f := swField d 15 1
  let dim := swDim (swField d 20 1)
  let p := rowPitch f dim
  let i := swField r 4 4 % 64
  let body := swField d 24 8
  let half := bodyLen f dim / 2
  let n := p + scalePad f dim
  let put (v : Chip) (k : Nat) : Chip :=
    let s1 := swWrite v u c.part (body + k * half + i * p) ((r.drop (64 + k * n)).take p)
    if isMX f then swWrite s1 u c.part (body + k * half + 64 * p + i * (dim / 32)) ((r.drop (64 + k * n + p)).take (dim / 32))
    else s1
  let s2 := put (put s 0) 1
  let b := swField r 8 8 + i / 8
  swWrite s2 u c.part b (clean [(BitVec.ofNat 8 (swField d (i / 8) 1)) ||| (1#8 <<< (i % 8))])

/-- SWAGE_APPEND_COMMIT (R326, R327). -/
def cmdSwageAppendCommit (unit ctx : Nat) (s : Chip) : Out :=
  onCtx s unit ctx 2 (fun st c =>
    if swFailed st unit then swEnd (swLog st unit 0x2003) unit ctx c
    else if !swTurn st unit c then st
    else
      let r := swRead st unit c.part (swField c.record 8 8) 64
      let code := appendCode r.1 unit c r.2
      swEnd (if code == 0 then appendRows r.1 unit c r.2 else swLog r.1 unit code) unit ctx c)

/-- SWAGE_PAGE_INIT_COMMIT (R328). -/
def cmdSwagePageInitCommit (unit ctx : Nat) (s : Chip) : Out :=
  onCtx s unit ctx 3 (fun st c =>
    if swFailed st unit then swEnd (swLog st unit 0x2003) unit ctx c
    else if !swTurn st unit c then st
    else swEnd (swWrite st unit c.part (swField c.record 8 8) ((c.record.drop 64).take 64)) unit ctx c)

-- Acceptance (R316 to R320) and control (R334) -------------------------------------------------------------

/-- A record written to a unit's window: its CMD byte says which command it is (R316); its status goes to the write
that carried it. -/
def windowWrite (unit part sender : Nat) (record : List Byte) (s : Chip) : Out :=
  onUnit "Swage unit" 32 unit s (fun st =>
    let r := swageAccept st unit part sender 0 (clean record)
    deliver r.1 [] r.2)

/-- SWAGE_QUERY (R319, R320). -/
def cmdSwageQuery (unit part sender : Nat) (record : List (BitVec 8)) (s : Chip) : Out :=
  windowWrite unit part sender record s

/-- SWAGE_APPEND (R326). -/
def cmdSwageAppend (unit part sender : Nat) (record : List (BitVec 8)) (s : Chip) : Out :=
  windowWrite unit part sender record s

/-- SWAGE_PAGE_INIT (R328). -/
def cmdSwagePageInit (unit part sender : Nat) (record : List (BitVec 8)) (s : Chip) : Out :=
  windowWrite unit part sender record s

/-- Writes held by a full queue meet a unit that accepts no more (R330, R334). -/
def refuseHeld (s : Chip) (u : Nat) : Chip :=
  let x := getUnit s u
  forEach (x.queue.drop 32) (fun v _ => swLog v u 0x2047) (setUnit s u { x with queue := x.queue.take 32 })

/-- STATE of a unit from its enable and fence (R335); a failed channel shows as such. -/
def unitState (s : Chip) (u : Nat) : Chip :=
  let k := aSWAGE_CTL u
  if fget s (aSWAGE_STATUS u) 3 0 == 3 then s
  else fset s (aSWAGE_STATUS u) 3 0 (if fbit s k 1 then 2 else b2n (fbit s k 0))

/-- SWAGE_FENCE (R334). -/
def cmdSwageFence (unit : Nat) (s : Chip) : Out :=
  onUnit "Swage unit" 32 unit s (fun st => unitState (refuseHeld (fsetb st (aSWAGE_CTL unit) 1 true) unit) unit)

/-- SWAGE_ENABLE (R334). -/
def cmdSwageEnable (unit : Nat) (on : Bool) (s : Chip) : Out :=
  onUnit "Swage unit" 32 unit s (fun st =>
    let s1 := fsetb st (aSWAGE_CTL unit) 0 on
    unitState (if on then s1 else refuseHeld s1 unit) unit)

end Sys2Proof.Machine
end

