-- ==== Sys2Proof/Machine/Hasp.lean ====
section
/-! DEFINITION. Hasp mailboxes (rows 232 to 243; R525, R547 to R550, R555). -/

namespace Sys2Proof.Machine

/-- The message types of version 1.0 (R550). -/
def haspTypes : List Nat :=
  [0x01, 0x02, 0x10, 0x11, 0x12, 0x13, 0x20, 0x21, 0x30, 0x31, 0x32, 0x40, 0x41, 0x42, 0x50, 0xF0, 0xF1]

def haspKnown (type : Nat) : Bool := haspTypes.contains type || decide (0x8000 ≤ type)

/-- Messages of a ring that did not come from the Hearth: 12 entries are for them (R548, R555). -/
def peerCount (l : List Msg) : Nat := (l.filter (fun m => m.src != 0)).length

/-- The code of a send (R548, R549): 0 when it goes. -/
def haspCode (s : Chip) (f : Nat) (tenant : Bool) (type len : Nat) : Nat :=
  let h := getHasp s f
  leastCode [
    if 12 ≤ peerCount (if tenant then h.toManager else h.toTenant) then 0x4030 else 0,
    if !h.agreed && type != (if tenant then 1 else 2) then 0x4031 else 0,
    if decide (56 < len) || !haspKnown type then 0x4032 else 0]

/-- Every strand on the tiles of some groups halts (R525). -/
def holdTiles (s : Chip) (gs : Nat) (on : Bool) : Chip :=
  forEach (tilesOfGroups gs) (fun st t =>
    forEach (List.range 8) (fun u i => modStrand u t i (fun x => { x with held := on })) st) s

/-- `VACATED` at the Hearth (R525): the pending reclaim of that number in a partition that the function controls. -/
def vacatedAt (s : Chip) (f nseq : Nat) : Chip × Bool :=
  match (List.range 16).find? (fun p => controller s p == f && (getPart s p).moves.any (fun m => m.nseq == nseq)) with
  | none => (s, false)
  | some p =>
    let gs := ((getPart s p).moves.filter (fun m => m.nseq == nseq)).foldl (fun a m => Nat.lor a m.groups) 0
    (modPart (holdTiles s gs true) p (fun x => { x with
      moves := x.moves.map (fun m => if m.nseq == nseq then { m with vacated := true } else m) }), true)

/-- A message that has been sent reaches its side, or the Hearth (R525, R547, R549, R550). -/
def haspRoute (s : Chip) (f : Nat) (tenant : Bool) (m : Msg) : Chip :=
  let s1 := if m.type == 2 && m.status == 0 && !tenant then
      let h := getHasp s f
      let v := (bNat m.payload 0 1 % 16) * 16 + bNat m.payload 1 1 % 16
      setHasp s f { h with agreed := true, version := v }
    else s
  let s2 := if m.type == 0x11 && (tenant || f == 0) then
      let r := vacatedAt s1 f (bNat m.payload 0 4)
      hearthSend r.1 f (f != 0) (if r.2 then 0xF0 else 0xF1) (if r.2 then 0 else 0x4001) (leBytes 2 m.seqNo)
    else if f == 0 then s1
    else haspPush s1 f (!tenant) m
  haspFlush f true 16 (haspFlush f false 16 s2)

/-- A side sends a message (R548): refused with a code in its HASP_STATUS, or sent. -/
def haspSend (s : Chip) (f : Nat) (tenant : Bool) (type status : Nat) (payload : List Byte) : Chip :=
  let code := haspCode s f tenant type payload.length
  let s1 := fset s (aHASP tenant f + 0xC8) 63 48 code
  if code != 0 then s1
  else
    let src := if tenant then 2 else 1
    let h := getHasp s1 f
    let q := tget (fun _ => 0) h.seqs src
    haspRoute (setHasp s1 f { h with seqs := tset (fun _ => 0) src ((q + 1) % 2 ^ 16) h.seqs }) f tenant
      ⟨type, q, src, payload.length, status, payload⟩

/-- An effect on an instance that has a tenant. -/
def onTenant (f : Nat) (s : Chip) (g : Chip → Chip) : Out :=
  if 0 < f ∧ f < 64 then .next (g s) else .fault (.noSuchUnit "tenant side")

/-- A side that may send: 1 the manager, 2 the tenant, which instance 0 does not have (R547, R549). -/
def onSide (f side : Nat) (s : Chip) (g : Bool → Chip → Chip) : Out :=
  if side = 1 ∧ f < 64 then .next (g false s)
  else if side = 2 then onTenant f s (g true)
  else .fault (.noSuchUnit "Hasp side")

/-- HELLO (R549, R550). -/
def cmdHello (inst major minor : Nat) (s : Chip) : Out :=
  onTenant inst s (fun st => haspSend st inst true 1 0 (leBytes 1 major ++ leBytes 1 minor))

/-- HELLO_ACK (R549, R550). -/
def cmdHelloAck (inst major minor status : Nat) (s : Chip) : Out :=
  onFn inst s (fun st => haspSend st inst false 2 status (leBytes 1 major ++ leBytes 1 minor))

/-- VACATED, from the controlling function; the physical function's through instance 0 (R525, R547). -/
def cmdVacated (inst nseq : Nat) (s : Chip) : Out :=
  onFn inst s (fun st => haspSend st inst (inst != 0) 0x11 0 (leBytes 4 nseq))

/-- RESIZE_REQ (R550; payload layout: DESIGN CHOICE, log 13). -/
def cmdResizeReq (inst groups gib : Nat) (s : Chip) : Out :=
  onTenant inst s (fun st => haspSend st inst true 0x30 0 (leBytes 4 groups ++ leBytes 4 gib))

/-- RESIZE_REPLY (R550; payload layout: DESIGN CHOICE, log 13). -/
def cmdResizeReply (inst groups gib strike : Nat) (s : Chip) : Out :=
  onTenant inst s (fun st => haspSend st inst false 0x31 0 (leBytes 4 groups ++ leBytes 4 gib ++ leBytes 4 strike))

/-- BUDGET (R550). -/
def cmdBudget (inst : Nat) (payload : List (BitVec 8)) (s : Chip) : Out :=
  onTenant inst s (fun st => haspSend st inst false 0x32 0 payload)

/-- FREEZE_NOTICE (R550). -/
def cmdFreezeNotice (inst strike : Nat) (s : Chip) : Out :=
  onTenant inst s (fun st => haspSend st inst false 0x40 0 (leBytes 4 strike))

/-- TEARDOWN (R550). -/
def cmdTeardown (inst : Nat) (fromHearth : Bool) (reason : Nat) (s : Chip) : Out :=
  onTenant inst s (fun st =>
    if fromHearth then hearthSend st inst true 0x50 0 (leBytes 1 reason) else haspSend st inst false 0x50 0 (leBytes 1 reason))

/-- A reply of any side: 0 the Hearth, which replies to the controller (R550). -/
def haspReply (inst side type seqNo status : Nat) (s : Chip) : Out :=
  if side = 0 then onFn inst s (fun st => hearthSend st inst (inst != 0) type status (leBytes 2 seqNo))
  else onSide inst side s (fun t st => haspSend st inst t type status (leBytes 2 seqNo))

/-- ACK (R550). -/
def cmdAck (inst side seqNo : Nat) (s : Chip) : Out := haspReply inst side 0xF0 seqNo 0 s

/-- NAK (R550). -/
def cmdNak (inst side seqNo status : Nat) (s : Chip) : Out := haspReply inst side 0xF1 seqNo status s

/-- VENDOR_MESSAGE (R550): types 0x8000 to 0xFFFF, not interpreted. -/
def cmdVendorMessage (inst side type : Nat) (payload : List (BitVec 8)) (s : Chip) : Out :=
  onSide inst side s (fun t st => haspSend st inst t (0x8000 + type % 0x8000) 0 payload)

/-- HASP_POP: the head message leaves, and messages that the Hearth holds follow (R548). -/
def popSide (s : Chip) (f : Nat) (tenant : Bool) : Chip :=
  let h := getHasp s f
  let h' := if tenant then { h with toTenant := h.toTenant.drop 1 } else { h with toManager := h.toManager.drop 1 }
  haspFlush f tenant 16 (setHasp s f h')

/-- HASP_POP (R548). -/
def cmdHaspPop (inst side : Nat) (s : Chip) : Out := onSide inst side s (fun t st => popSide st inst t)

end Sys2Proof.Machine
end

