-- ==== Sys2Proof/Machine/Parts.lean ====
section
/-! DEFINITION. Partitions: groups, maps, programs, the Quench, freezing, saving and migration (rows 208 to 224 and
231; R512 to R532, R540 to R546, R551, R553). -/

namespace Sys2Proof.Machine

-- Tile groups (R513, R529) ---------------------------------------------------------------------------------

def partState (s : Chip) (p : Nat) : Nat := fget s (aPART_STATUS p) 3 0
def setPartState (s : Chip) (p v : Nat) : Chip := fset s (aPART_STATUS p) 3 0 v

def heldGroups (s : Chip) (p : Nat) : Nat := fget s (aPART_GROUPS p) 35 0

/-- The tiles of a partition's groups. -/
def partTiles (s : Chip) (p : Nat) : List Nat := tilesOfGroups (heldGroups s p)

/-- A group is not disabled by fuse (R4). -/
def groupEnabled (s : Chip) (g : Nat) : Bool := (groupTiles g).any (tileEnabled s)

/-- No partition holds the group or has claimed it, and none is about to be joined by it (R465, R513, R516). -/
def groupFree (s : Chip) (g : Nat) : Bool :=
  decide (g < 36) && groupEnabled s g && !s.radio.claims.testBit g &&
    (List.range 16).all (fun p => !(heldGroups s p).testBit g && !(getPart s p).joining.testBit g)

/-- Bits of a group bitmap removed. -/
def dropBits (x gs : Nat) : Nat := (bitsBelow 36 x).foldl (fun a g => if gs.testBit g then a else a + 2 ^ g) 0

/-- TILES of a partition (R553). -/
def countTiles (s : Chip) (p : Nat) : Chip :=
  fset s (aPART_STATUS p) 47 40 ((partTiles s p).filter (tileEnabled s)).length

/-- PART_MOVING (R553). -/
def setMoving (s : Chip) (p : Nat) : Chip :=
  fset s (aPART_MOVING p) 35 0 ((getPart s p).moves.foldl (fun a m => Nat.lor a m.groups) 0)

/-- A tile between owners (R526, R529): strands reset and halted, everything that its banks do not hold emptied, and
zeroing begun. -/
def cleanTile (s : Chip) (t : Nat) : Chip :=
  let s1 := fsetb (resetStrands s t) (aTILE_CTL t) 1 true
  let s2 := forEach (List.range 8) (fun st i => modStrand st t i (fun x => { x with held := false })) s1
  let on := tilePowered s2 t && tileEnabled s2 t
  let s3 := modTile s2 t (fun y => { ({} : Tile) with
    mem := y.mem, pz := y.pz, flaw := y.flaw, wbq := y.wbq, scrub := y.scrub, zeroing := on || y.zeroing })
  if on then fsetb s3 (aTILE_STATUS t) 2 false else s3

/-- Groups leave a partition: its logical indices of their tiles become absent (R526). Partition 0's map keeps naming
them, since it is the plan's placement map and elastic groups come back (R420, R423, R432); while another holds them
`physOf` finds no tile (DEDUCED, log 20). -/
def leavePart (s : Chip) (p gs : Nat) : Chip :=
  let s0 := fset s (aPART_GROUPS p) 35 0 (dropBits (heldGroups s p) gs)
  let s1 := if p == 0 then s0 else makeAbsent s0 p (tilesOfGroups gs)
  countTiles (forEach (tilesOfGroups gs) (fun st t => fset st (aTILE_CTL t) 47 44 0) s1) p

/-- Groups join a partition (R515, R527). -/
def joinPart (s : Chip) (p gs : Nat) : Chip :=
  let s1 := fset s (aPART_GROUPS p) 35 0 (Nat.lor (heldGroups s p) gs)
  countTiles (forEach (tilesOfGroups gs) (fun st t => fset st (aTILE_CTL t) 47 44 p) s1) p

/-- Groups of a partition pass to a target, or to the free pool when it is 0x10 or off (R526, R527). -/
def passGroups (s : Chip) (p gs target : Nat) : Chip :=
  let s1 := forEach (tilesOfGroups gs) cleanTile (leavePart s p gs)
  if target < 16 && partState s1 target != 0 then
    let s2 := joinPart s1 target gs
    if target == 0 then s2 else toController s2 target 0x0012 0 (leBytes 5 gs)
  else s1

-- The Quench (R521 to R528) --------------------------------------------------------------------------------

/-- The code of an origin in a notice (R523). -/
def originCode : Origin → Nat
  | .radio => 1 | .manager => 2 | .temper => 3

/-- A Quench is announced (R521, R523). -/
def announce (s : Chip) (p : Nat) (o : Origin) (gs pass target : Nat) : Chip :=
  let s1 := notice s p 1 (originCode o) (pass % 2 ^ 32) (ltilesOf s p (tilesOfGroups gs))
  setMoving (modPart s1 p (fun x => { x with moves := x.moves ++ [⟨o, gs, pass, target, x.nseq, false⟩] })) p

/-- Pending manager and Temper moves of some groups in a partition are cancelled (R515, R528); `code` is told to the
manager when it is not 0. -/
def cancelIn (gs code : Nat) (s : Chip) (p : Nat) : Chip :=
  let hit := (getPart s p).moves.filter (fun m => m.origin != .radio && Nat.land m.groups gs != 0)
  let s1 := modPart s p (fun x => { x with
    moves := (x.moves.map (fun m => if m.origin == .radio then m else { m with groups := dropBits m.groups gs })).filter
      (fun m => m.groups != 0)
    passing := if partState s p == 0 then x.passing else (x.passing.map (fun m => (m.1, dropBits m.2 gs))).filter
      (fun m => m.2 != 0) })
  setMoving (forEach hit (fun st m =>
    let both := Nat.land m.groups gs
    let s2 := notice st p 2 (originCode m.origin) (m.pass % 2 ^ 32) (ltilesOf st p (tilesOfGroups both))
    if code == 0 then s2 else toManager s2 p 0x0013 code (leBytes 1 p ++ leBytes 5 both)) s1) p

def cancelMoves (s : Chip) (gs code : Nat) : Chip := forEach (List.range 16) (cancelIn gs code) s

/-- Groups of a partition are taken for a test: zeroed, their logical indices away (R521, R527, R646). -/
def takeForTest (s : Chip) (p gs : Nat) : Chip :=
  forEach (bitsBelow 36 gs) (fun st g =>
    let ts := groupTiles g
    let m := (getPart st p).map
    let away := ((List.range m.length).zip m).filter (fun x => ts.contains x.2)
    let s1 := forEach ts cleanTile (makeAbsent st p ts)
    let s2 := forEach ts (fun u t => fsetb u (aTILE_STATUS t) 0 false) s1
    rasMod s2 (fun r => { r with tests := r.tests ++ [⟨g, p, away, false⟩] })) s

/-- A Quench reaches its pass Strike (R526, R527): the reclaim is forced unless VACATED came before. -/
def takeMove (s : Chip) (p : Nat) (m : Move) : Chip :=
  let s1 := setMoving (modPart s p (fun x => { x with moves := x.moves.filter (fun k => k.nseq != m.nseq) })) p
  let lt := ltilesOf s1 p (tilesOfGroups m.groups)
  let s2 := match m.origin with
    | .temper => takeForTest s1 p m.groups
    | _ => passGroups s1 p m.groups m.target
  if m.vacated then s2
  else
    let u := notice s2 p 5 (originCode m.origin) (m.pass % 2 ^ 32) lt
    faultSend (fsat u (aPART_STATUS p) 39 32 1) p 0x4010 0xFF 0xFF 0

/-- Groups vacated since the last boundary become absent (R525). -/
def vacatedAbsent (s : Chip) (p : Nat) : Chip :=
  let gs := ((getPart s p).moves.filter (·.vacated)).foldl (fun a m => Nat.lor a m.groups) 0
  if gs == 0 then s else makeAbsent s p (tilesOfGroups gs)

/-- Every Quench at the boundary that begins Strike n (R521, R522, R526, R528). -/
def quenchBoundary (s : Chip) (n : Nat) : Chip :=
  let s1 := forEach (List.range 16) vacatedAbsent s
  let s2 := forEach (List.range 16) (fun st p =>
    forEach ((getPart st p).moves.filter (fun m => decide (m.pass ≤ n))) (fun u m => takeMove u p m) st) s1
  forEach (List.range 16) (fun st p =>
    forEach (getPart st p).passing (fun u m => passGroups u p m.2 m.1)
      (modPart st p (fun x => { x with passing := [] }))) s2

/-- ADD and MAP at a boundary (R515, R518). -/
def joinBoundary (s : Chip) (p : Nat) : Chip :=
  let x := getPart s p
  let s1 := modPart s p (fun y => { y with joining := 0, nextMap := none })
  let s2 := if x.joining == 0 || partState s p == 0 then s1 else forEach (tilesOfGroups x.joining) cleanTile (joinPart s1 p x.joining)
  match x.nextMap with
  | some m => modPart s2 p (fun y => { y with map := m })
  | none => s2

-- Running, stopping, freezing (R515, R542, R546) -----------------------------------------------------------

/-- The strands of a partition halt before their next bundle, or go on. -/
def holdPart (s : Chip) (p : Nat) (on : Bool) : Chip := holdTiles s (heldGroups s p) on

def markStreams (s : Chip) (p : Nat) (stop : Bool) : Chip :=
  forEach (partTiles s p) (fun st t =>
    forEach (List.range 8) (fun u k =>
      let y := tget (fun _ => ({} : Stream)) (getTile u t).streams k
      if y.on then modTile u t (fun z => { z with streams := tset (fun _ => ({} : Stream)) k { y with stopped := stop } z.streams })
      else u) st) s

/-- START, FREEZE and THAW at the boundary that begins Strike n (R515, R542, R546, R665). -/
def runBoundary (n : Nat) (s : Chip) (p : Nat) : Chip :=
  let x := getPart s p
  let s0 := modPart s p (fun y => { y with starting := false, freezing := false, thawing := false })
  if x.freezing then markStreams (modPart (holdPart s0 p true) p (fun y => { y with quiet := true })) p true
  else if x.starting || x.thawing then
    let s1 := modPart (holdPart s0 p false) p (fun y => { y with quiet := false })
    let s2 := if x.thawing then setPartState (markStreams s1 p false) p 3 else s1
    let s3 := closeSet (forEach (partTiles s2 p) (fun st t => if x.starting then haltTile st t false else wakeTile st t) s2) p 2
    if x.thawing then
      forEach ((List.range 64).filter (fun f => f != 0 && fbit s3 (aFUNC_PART f) 7 && fget s3 (aFUNC_PART f) 3 0 == p))
        (fun st f => hearthSend st f true 0x0042 0 (leBytes 4 (n % 2 ^ 32))) s3
    else s3
  else s0

/-- STOP (R515); the counter set closes (R665). -/
def stopPart (s : Chip) (p : Nat) : Chip :=
  closeSet (setPartState (modPart (holdPart s p true) p (fun x => { x with quiet := true, starting := false })) p 2) p 2

-- Commands (R515, R516) ------------------------------------------------------------------------------------

/-- The result of a command (R515, R553). -/
def partDone (s : Chip) (p code : Nat) : Chip :=
  let s1 := fset s aPART_CMD_STATUS 63 48 code
  if code / 256 == 0x40 then partCode s1 p code else s1

def partBusy (s : Chip) : Bool := fbit s aPART_CMD_STATUS 0

/-- A command allowed in some states: `f` answers the new state and the code (R515). -/
def partCommand (p : Nat) (allowed : List Nat) (s : Chip) (f : Chip → Chip × Nat) : Out :=
  onPart p s (fun st =>
    if partBusy st || !allowed.contains (partState st p) then partDone st p 0x4001
    else
      let r := f st
      if r.2 == 0 then partDone r.1 p 0 else partDone st p r.2)

/-- CREATE (R515, R536, R551). -/
def cmdPartCreate (part : Nat) (s : Chip) : Out :=
  partCommand part [0] s (fun st =>
    if part == 0 then (st, 0x4001)
    else
      let s1 := setPart st part { ({} : Part) with passing := (getPart st part).passing }
      (setPartState (fsetb s1 (aPART_CTL part) 1 false) part 1, 0))

/-- Functions attached to a partition (R541). -/
def attached (s : Chip) (p : Nat) : List Nat :=
  (List.range 64).filter (fun f => f != 0 && fbit s (aFUNC_PART f) 7 && fget s (aFUNC_PART f) 3 0 == p)

/-- A grant is made invalid; its range enters clearing (R520, R533). -/
def dropGrant (s : Chip) (g : Nat) : Chip :=
  let v := barGet s (aGRANT g)
  if !bitOf v 63 then s
  else
    let s1 := fsetb (fsetb s (aGRANT g) 63 false) (aGRANT g) 62 true
    { s1 with mem := { s1.mem with clearing := s1.mem.clearing ++ [(g, grantBase v, grantSize v)] } }

/-- DESTROY (R515, R522, R532, R533): the groups pass at the next boundary, those of a pending move to its target. The
reason of TEARDOWN is a free value (DESIGN CHOICE, log 9). -/
def cmdPartDestroy (part : Nat) (s : Chip) : Out :=
  partCommand part [1, 2, 5] s (fun st =>
    if part == 0 then (st, 0x4001)
    else
      let x := getPart st part
      let moving := x.moves.map (fun m => (m.target, m.groups)) ++ x.passing
      let rest := moving.foldl (fun a m => dropBits a m.2) (heldGroups st part)
      let s1 := forEach (List.range 256) (fun u g => if bitsOf (barGet u (aGRANT g)) 61 58 == part then dropGrant u g else u) st
      let qs := queuesWhere s1 (fun c => cPart c == part && cState c != 0)
      let s2 := forEach (List.range 32) (swAbandon part) (abortAll s1 qs)
      let s3 := settleRetire (qmMod s2 (fun m => { m with retire := m.retire ++ qs }))
      let r := freeBelow s3 256
      let s4 := forEach (attached r.2 part) (fun u f => hearthSend u f true 0x0050 0 (leBytes 1 r.1)) r.2
      let s5 := holdPart s4 part true
      let s6 := setPart s5 part { ({} : Part) with passing := moving ++ (if rest == 0 then [] else [(0x10, rest)]) }
      (closeSet (setMoving (setPartState s6 part 0) part) part 2, 0))

/-- ADD (R514 to R516): the groups join at the next boundary. -/
def cmdPartAdd (part groups : Nat) (s : Chip) : Out :=
  partCommand part [1, 2, 3, 4, 5] s (fun st =>
    if part == 0 && fbit st aSTRIKE_CTL 0 then (st, 0x4001)
    else if 2 ^ 36 ≤ groups || !(bitsBelow 36 groups).all (groupFree st) then (st, 0x4002)
    else (modPart st part (fun x => { x with joining := Nat.lor x.joining groups }), 0))

/-- The full number of a Strike from its low 32 bits, nearest to the current one (R521, R553). -/
def strikeOf (s : Chip) (low : Nat) : Int :=
  (s.radio.number : Int) + signed 32 ((low + 2 ^ 32 - s.radio.number % 2 ^ 32) % 2 ^ 32)

def quenchLead (s : Chip) : Nat := max 8 (min 64 (fget s aSTRIKE_CTL 23 16))

/-- Some Quench of one of the groups is pending (R521). -/
def movePending (s : Chip) (p gs : Nat) : Bool :=
  (getPart s p).moves.any (fun m => Nat.land m.groups gs != 0) ||
    (getPart s p).passing.any (fun m => Nat.land m.2 gs != 0)

/-- A tile of the group is in the hard reserve (R516). -/
def groupHard (s : Chip) (g : Nat) : Bool := (groupTiles g).any (hardReserve s)

/-- MOVE (R514, R516, R521, R522, R553). -/
def cmdPartMove (part groups target effective : Nat) (s : Chip) : Out :=
  partCommand part [1, 2, 3, 4, 5] s (fun st =>
    let idle := partState st part == 1
    let code := leastCode [
      if ((part == 0 || target == 0) && fbit st aSTRIKE_CTL 0) || decide (16 < target) || target == part ||
        (decide (target < 16) && partState st target == 0) then 0x4001 else 0,
      if 2 ^ 36 ≤ groups || !(bitsBelow 36 groups).all (fun g => (heldGroups st part).testBit g &&
        !(part == 0 && groupHard st g)) then 0x4002 else 0,
      if !idle && decide (strikeOf st effective < (st.radio.number + quenchLead st : Nat)) then 0x4011 else 0,
      if movePending st part groups then 0x4012 else 0]
    if code != 0 then (st, code)
    else if groups == 0 then (st, 0)
    else if idle then (modPart st part (fun x => { x with passing := x.passing ++ [(target, groups)] }), 0)
    else (announce st part .manager groups (strikeOf st effective).toNat target, 0))

/-- Bytes that the Hearth reads for a command (R347): a poisoned image reads with 0x2001. -/
def hearthRead (s : Chip) (p a n : Nat) : Chip × List Byte × Nat :=
  if a / 2 ^ 60 == 3 then
    let code := fabCheck s p a
    if code != 0 then (s, [], code) else let r := freeBytes s n; (r.1, unmark r.2, 0)
  else
    let r := spaceRead s 16 64 a n
    (r.1, unmark r.2.1, if r.2.2 == 0 && r.2.1.any (·.2) then 0x2001 else r.2.2)

/-- Bytes that the Hearth writes for a command, charged to the partition (R347, R544). -/
def hearthWrite (s : Chip) (p a : Nat) (bs : List Byte) : Chip :=
  if a / 2 ^ 60 == 3 then
    if fabCheck s p a != 0 then s
    else forEach (copyPieces (faTarget a) bs.length) (fun st k =>
      fabSend st p (faRank a) (mkReq ⟨p, 0xFFF, 2 ^ 20⟩ 1 (faTarget a + k.1) ((bs.drop k.1).take k.2) 0 true)) s
  else
    let s1 := if a / 2 ^ 60 == 0 then charge s p 0 0 (64 * lineCount a bs.length) else s
    (spaceWrite s1 p 64 0 a (clean bs)).1

/-- The tiles of a map's bytes are different tiles of the partition, 0xFF aside (R517). -/
def mapTilesOk (held : List Nat) : List Nat → Bool
  | [] => true
  | t :: r => (t == 0xFF || (held.contains t && !r.contains t)) && mapTilesOk held r

/-- The tiles that a partition's map may name: those of its groups, the groups that join at the same boundary among
them. Partition 0's map is the plan's placement map, which names groups that are free, claimed or lent as well (R420,
R423, R465, DEDUCED, log 20). -/
def mapTiles (s : Chip) (p : Nat) : List Nat :=
  if p == 0 then (List.range 144).filter (tileEnabled s)
  else tilesOfGroups (Nat.lor (heldGroups s p) (getPart s p).joining)

/-- MAP (R517, R518). -/
def cmdPartMap (part : Nat) (arg1 : Word) (s : Chip) : Out :=
  partCommand part [1, 2, 3] s (fun st =>
    let h := hearthRead st part arg1.toNat 4
    let n := bNat h.2.1 0 2
    if h.2.2 != 0 then (st, h.2.2)
    else if n == 0 || decide (144 < n) || bNat h.2.1 2 1 != 1 then (st, 0x4007)
    else
      let b := hearthRead h.1 part (arg1.toNat + 4) n
      let l := b.2.1.map (·.toNat)
      if b.2.2 != 0 then (st, b.2.2)
      else if !mapTilesOk (mapTiles st part) l then (st, 0x4007)
      else (modPart b.1 part (fun x => { x with nextMap := some l }), 0))

/-- The map that a load uses: the one that waits for a boundary, or the one in force. -/
def mapOf (s : Chip) (p : Nat) : List Nat := (getPart s p).nextMap.getD (getPart s p).map

/-- The checks of a binary against this unit and the partition (R234, R395, R551). -/
def progCode (s : Chip) (p : Nat) (g : Prog) : Nat :=
  let isa := barGet s 0x20
  leastCode [
    if g.major != bitsOf isa 47 40 || decide (bitsOf isa 39 32 < g.minor) ||
      Nat.land g.features (bitsOf isa 31 0) != g.features then 0x209C else 0,
    if (mapOf s p).length < g.tiles then 0x4008 else 0,
    if g.balanced && !fbit s (aPART_CTL p) 1 then 0x4050 else 0]

/-- Lines of a logical tile that a binary locks in the fetch buffer (R158). -/
def lockLines (l : Nat) (bin : List Byte) : List Nat := ((Config.progLock l bin).filter (· < 49152)).eraseDups

/-- A lock larger than 8 KiB of a tile is refused (R158); the spec states no code. -/
def lockCode (s : Chip) (p : Nat) (bin : List Byte) : Nat :=
  if (List.range (mapOf s p).length).any (fun l => decide (128 < (lockLines l bin).length)) then
    1 + Config.progField 6 bin % 0xFFFF
  else 0

/-- A logical tile's bytes of a binary put into the banks of a tile, whose fetch buffer keeps the lines that it locks
(R107, R158, R515; DESIGN CHOICE, log 16). -/
def loadTile (t l : Nat) (bin : List Byte) (s : Chip) : Chip :=
  modTile (forEach (Config.progImage l bin) (fun u ab => if ab.1 < bankEnd then bankPut t false 2 u ab.1 [ab.2] else u) s) t
    (fun y => { y with locked := lockLines l bin })

/-- A program's bytes put into the banks of the partition's tiles. -/
def loadImages (s : Chip) (p : Nat) (bin : List Byte) : Chip :=
  let m := mapOf s p
  forEach ((List.range m.length).zip m) (fun st x =>
    if x.2 == 0xFF || !tileOpen st x.2 || !((partTiles st p).contains x.2) then st else loadTile x.2 x.1 bin st) s

/-- LOAD (R158, R234, R395, R515, R551). -/
def cmdPartLoad (part : Nat) (arg1 : Word) (s : Chip) : Out :=
  partCommand part [1, 2] s (fun st =>
    let h := hearthRead st part arg1.toNat 64
    let b := hearthRead h.1 part arg1.toNat (Config.progField 5 h.2.1)
    let f (k : Nat) : Nat := Config.progField k b.2.1
    let g : Prog := ⟨arg1.toNat, f 0, f 1, f 2, f 3, f 4 == 1⟩
    let code := if h.2.2 != 0 then h.2.2 else if b.2.2 != 0 then b.2.2
      else if progCode st part g != 0 then progCode st part g else lockCode st part b.2.1
    if code != 0 then (st, code)
    else (closeSet (setPartState (modPart (loadImages b.1 part b.2.1) part (fun x => { x with prog := some g })) part 2) part 2, 0))

/-- START (R515). -/
def cmdPartStart (part : Nat) (s : Chip) : Out :=
  partCommand part [2] s (fun st => (setPartState (modPart st part (fun x => { x with starting := true })) part 3, 0))

/-- STOP (R515). -/
def cmdPartStop (part : Nat) (s : Chip) : Out := partCommand part [3] s (fun st => (stopPart st part, 0))

/-- FREEZE (R542): it takes effect at the next boundary. -/
def cmdPartFreeze (part : Nat) (s : Chip) : Out :=
  partCommand part [3] s (fun st =>
    (setPartState (modPart st part (fun x => { x with freezing := true, starting := false })) part 4, 0))

/-- Transfers of a partition that still run: streams that the freeze stopped are kept (R542). -/
def partXfers (s : Chip) (p : Nat) : List (Nat × Xfer) :=
  (s.qm.xfers.filter (fun q => cPart (ctxPeek s q.1) == p)).flatMap (fun q =>
    (q.2.filter (fun x => x.stage != .done && !(isStream x.d && x.stage == .running))).map (fun x => (q.1, x)))

/-- No operation of the partition is in flight (R542, R578). -/
def partDrained (s : Chip) (p : Nat) : Bool :=
  let ts := partTiles s p
  ts.all (fun t =>
    let y := getTile s t
    y.qMat.isEmpty && y.qBank.isEmpty && y.qFul.isEmpty && y.qComb.isEmpty && y.qMov.isEmpty) &&
    s.flights.all (fun f => !ts.contains f.src || f.acked) && (partXfers s p).isEmpty &&
    (s.fab.reqs ++ s.fab.waiting).all (fun r => r.owner.part != p) &&
    s.mem.units.all (fun u => (u.2.queue ++ u.2.ctxs.filterMap (·.2)).all (fun c => c.part != p))

/-- FREEZE_COMPLETE (R542, R550). -/
def cmdFreezeComplete (part : Nat) (s : Chip) : Out :=
  onPart part s (fun st =>
    when (partState st part == 4 && !(getPart st part).freezing && partDrained st part) st (fun u =>
      toManager (setPartState u part 5) part 0x0041 0 (leBytes 1 part)))

/-- FREEZE_TIMEOUT (R543). -/
def cmdFreezeTimeout (part : Nat) (s : Chip) : Out :=
  onPart part s (fun st =>
    when (partState st part == 4 && !(getPart st part).freezing && !(partXfers st part).isEmpty) st (fun u =>
      partCode (forEach (partXfers u part) (fun v x => modXfer v x.1 x.2.slot abortXfer) u) part 0x4040))

-- Images (R544, R546) --------------------------------------------------------------------------------------

/-- What a partition's image holds beside its bytes. -/
def imageOf (s : Chip) (p : Nat) : Image :=
  let x := getPart s p
  let tiles := x.map.map (fun t =>
    if t = 0xFF then none else some (getTile s t, (List.range 8).map (fun i => getStrand s t i)))
  let grants := ((List.range 256).map (fun g => barGet s (aGRANT g))).filter (fun v => bitOf v 63 && bitsOf v 61 58 == p)
  { isa := barGet s 0x20
    ltiles := x.map.length
    prog := x.prog.getD ⟨0, 0, 0, 0, 0, false⟩
    grants := grants.map (fun v => bitsOf v 57 0)
    tiles := tiles
    queues := (queuesWhere s (fun c => cPart c == p && cState c != 0)).map (fun q => (q, ctxPeek s q))
    rings := (attached s p).map (fun f => (f, getHasp s f)) }

/-- Bytes of an image: header, tiles, contexts and rings (R544). -/
def imageLen (m : Image) : Nat :=
  4096 + 3276800 * m.ltiles + 64 * m.queues.length +
    64 * (m.rings.map (fun r => r.2.toTenant.length + r.2.toManager.length)).foldl (· + ·) 0

/-- The header as the model lays it out (DESIGN CHOICE, log 15). -/
def imageHeader (m : Image) (no : Nat) : List Byte :=
  leBytes 1 1 ++ leBytes 7 0 ++ leBytes 8 m.isa ++ leBytes 2 m.ltiles ++ leBytes 6 0 ++ leBytes 8 no ++ leBytes 4064 0

/-- SAVE (R544): the address is kept; the image is written when SAVE completes. -/
def cmdPartSave (part engine : Nat) (arg1 : Word) (s : Chip) : Out :=
  partCommand part [5] s (fun st =>
    if 16 ≤ engine then (st, 0x4001)
    else (fsetb (modPart st part (fun x => { x with saving := some arg1.toNat })) aPART_CMD_STATUS 0 true, 0))

/-- The banks of an image's tiles written after its header. -/
def writeBanks (s : Chip) (p a : Nat) (m : Image) : Chip :=
  forEach ((List.range m.tiles.length).zip m.tiles) (fun st x =>
    match x.2 with
    | none => st
    | some y => hearthWrite st p (a + 4096 + 3276800 * x.1) (mread y.1.mem 0 bankEnd)) s

/-- SAVE_COMPLETE (R544, R550). -/
def cmdSaveComplete (part : Nat) (s : Chip) : Out :=
  onPart part s (fun st =>
    match (getPart st part).saving with
    | none => st
    | some a =>
      let m := imageOf st part
      let no := st.images.length
      let s1 := writeBanks (hearthWrite st part a (imageHeader m no)) part a m
      let s2 := fsetb { modPart s1 part (fun x => { x with saving := none }) with images := s1.images ++ [m] } aPART_CMD_STATUS 0 false
      toManager s2 part 0x0041 0 (leBytes 1 part ++ leBytes 8 (imageLen m)))

/-- An image fits this partition and this unit (R546). -/
def imageOk (s : Chip) (p : Nat) (m : Image) (h : List Byte) : Bool :=
  let isa := barGet s 0x20
  let mine := ((List.range 256).map (fun g => barGet s (aGRANT g))).filter (fun v => bitOf v 63 && bitsOf v 61 58 == p)
  bNat h 0 1 == 1 && bitsOf m.isa 47 40 == bitsOf isa 47 40 && (getPart s p).map.length == m.ltiles &&
    mine.map (fun v => bitsOf v 57 0) == m.grants && Nat.land m.prog.features (bitsOf isa 31 0) == m.prog.features &&
    m.queues.all (fun q => cState (ctxPeek s q.1) == 0)

/-- One tile of an image restored: its banks as the image's bytes hold them, the rest as it was saved. -/
def restoreTile (a p : Nat) (s : Chip) (x : Nat × Option (Tile × List Strand)) : Chip :=
  match x.2, physOf s p x.1 with
  | some (y, ss), some t =>
    let b := hearthRead s p (a + 4096 + 3276800 * x.1) bankEnd
    let s1 := setTile b.1 t { y with mem := mwrite [] 0 b.2.1, zeroing := false }
    forEach ((List.range 8).zip ss) (fun st i => setStrand st t i.1 { i.2 with held := true }) s1
  | _, _ => s

/-- RESTORE (R546): an image that this model did not write is refused, since the manual lays out no more of it (log
15). -/
def cmdPartRestore (part : Nat) (arg1 : Word) (s : Chip) : Out :=
  partCommand part [1] s (fun st =>
    let h := hearthRead st part arg1.toNat 4096
    match st.images[bNat h.2.1 24 8]? with
    | none => (st, 0x4041)
    | some m =>
      if h.2.2 != 0 || (getPart st part).prog.isSome || !imageOk st part m h.2.1 then (st, 0x4041)
      else
        let s1 := forEach ((List.range m.tiles.length).zip m.tiles) (restoreTile arg1.toNat part) h.1
        let s2 := forEach m.queues (fun u q => ctxPut u q.1 q.2) s1
        let s3 := forEach m.rings (fun u r => setHasp u r.1 r.2) s2
        (setPartState (modPart s3 part (fun x => { x with prog := some m.prog, quiet := true })) part 5, 0))

/-- THAW (R546): the partition goes on at the next boundary. -/
def cmdPartThaw (part : Nat) (s : Chip) : Out :=
  partCommand part [5] s (fun st => (modPart st part (fun x => { x with thawing := true }), 0))

/-- FLIP (R545): later writes set bits in the other bitmap. -/
def cmdPartFlip (part : Nat) (s : Chip) : Out :=
  partCommand part [1, 2, 3, 4, 5] s (fun st => (fsetb st (aPART_DMAP part) 1 (!fbit st (aPART_DMAP part) 1), 0))

/-- CANCEL (R515). -/
def cmdPartCancel (part groups : Nat) (s : Chip) : Out :=
  partCommand part [1, 2, 3, 4, 5] s (fun st => (cancelMoves st groups 0, 0))

/-- VF_FLR (R541). -/
def cmdVfFlr (fn : Nat) (s : Chip) : Out :=
  if fn = 0 ∨ 64 ≤ fn then .fault (.noSuchUnit "virtual function")
  else
    let s1 := abortAll s (queuesWhere s (fun c => cFunc c == fn && cKind c == 1 && cState c != 0))
    let h := getHasp s1 fn
    let s2 := setHasp s1 fn { h with toTenant := [], toManager := [], agreed := false, version := 0 }
    .next (forEach ((List.range 16).filter (fun p => controller s p == fn && partState s p == 3)) (fun st p =>
      toManager (partCode (stopPart st p) p 0x4022) p 0x0021 0x4022 (leBytes 1 fn)) s2)

end Sys2Proof.Machine
end

