-- ==== Sys2Proof/Machine/Bellows.lean ====
section
/-! DEFINITION. The grant table and the bandwidth budgets (rows 225 to 230; R302, R519, R520, R533, R535 to R539, R553,
R554). -/

namespace Sys2Proof.Machine

-- Grants (R519, R520, R533) --------------------------------------------------------------------------------

/-- Two ranges of device addresses share a byte. -/
def rangesMeet (a n b m : Nat) : Bool := decide (a < b + m) && decide (b < a + n)

/-- A grant entry's range lies in its region, outside host-managed memory (R287, R302, R519). -/
def grantInRegion (s : Chip) (v : Nat) : Bool :=
  let n := grantSize v
  if bitOf v 57 then decide (bitsOf v 51 30 * 2 ^ 21 + n ≤ localLen s (bitsOf v 56 52))
  else decide (grantBase v + n ≤ interSize s - hdmSize s)

/-- A written entry is refused with 0x4003 (R519): `g` the entry, whose own old range clears first when it moves. -/
def grantBad (s : Chip) (g v : Nat) : Bool :=
  let old := barGet s (aGRANT g)
  let mine := if bitOf old 63 then [(g, grantBase old, grantSize old)] else []
  partState s (bitsOf v 61 58) == 0 || grantSize v == 0 || !grantInRegion s v ||
    (List.range 256).any (fun h =>
      let w := barGet s (aGRANT h)
      h != g && bitOf w 63 && rangesMeet (grantBase v) (grantSize v) (grantBase w) (grantSize w)) ||
    (mine ++ s.mem.clearing).any (fun c => rangesMeet (grantBase v) (grantSize v) c.2.1 c.2.2)

/-- GRANT_WRITE (R519, R520, R533, R553). -/
def cmdGrantWrite (grant : Nat) (data : Word) (s : Chip) : Out :=
  onUnit "grant" 256 grant s (fun st =>
    let k := aGRANT grant
    let old := barGet st k
    let v := setBits data.toNat 29 22 0
    let new := setBits v 62 62 (bitsOf old 62 62)
    if new == old then st
    else if bitOf v 63 && grantBad st grant v then partCode st (bitsOf v 61 58) 0x4003
    else
      let s1 := dropGrant st grant
      barSet s1 k (setBits v 62 62 (bitsOf (barGet s1 k) 62 62)))

/-- Ranges of a grant filled with zeros (R533). -/
def clearRanges (s : Chip) (l : List (Nat × Nat × Nat)) : Chip :=
  forEach l (fun st c => zeroRange (c.2.2 / 64) c.2.1 st) s

/-- GRANT_CLEAR_COMPLETE (R533). -/
def cmdGrantClearComplete (grant : Nat) (s : Chip) : Out :=
  onUnit "grant" 256 grant s (fun st =>
    let l := st.mem.clearing.filter (fun c => c.1 == grant)
    let s1 := clearRanges st l
    fsetb { s1 with mem := { s1.mem with clearing := s1.mem.clearing.filter (fun c => c.1 != grant) } } (aGRANT grant) 62 false)

-- Regulators (R535 to R539) --------------------------------------------------------------------------------

/-- The Strike period in nanoseconds (R411). -/
def periodNs (s : Chip) : Nat := 62500 * 2 ^ fget s aSTRIKE_CTL 3 2

/-- The plannable rate of a channel at the trained speed, in bytes per microsecond (R282); 0 before training. -/
def plannable (s : Chip) : Nat :=
  match (List.range 32).find? (fun c => inService s c) with
  | none => 0
  | some c =>
    let v := fget s (aMEM_STATUS c) 35 34
    if v == 0 then 56300 else if v == 1 then 66600 else 82000

/-- MEM_CAP and FAB_CAP in 256-byte units (R538). -/
def memCap (s : Chip) : Nat :=
  ((List.range 32).filter (inService s)).length * plannable s * periodNs s / 1000 / 256
def fabCap (s : Chip) : Nat := 10000 * periodNs s / 256

/-- A budget counts at the capacity when it is unregulated (R538). -/
def budgetCount (b cap : Nat) : Nat := if b == 0xFFFFFFFF then cap else b

/-- The sum of a slot's budgets over the partitions, with partition p's taken as `v` (R538). -/
def slotSum (s : Chip) (reg slot p v cap : Nat) : Nat :=
  ((List.range 16).map (fun q => budgetCount (if q == p then v else bwBudget s q reg slot) cap)).foldl (· + ·) 0

/-- BW_SLOT_WRITE (R514, R536, R538): the manager's writes to partition 0 are ignored; the budget serves from the next
Strike that uses its slot. -/
def cmdBwSlotWrite (part slot : Nat) (isB : Bool) (data : Word) (s : Chip) : Out :=
  if part < 16 ∧ slot < 64 then
    .next (
      let v := data.toNat
      if part == 0 then s
      else if isB then fset s (aBW_SLOT_B part slot) 31 0 v
      else if decide (memCap s < slotSum s 0 slot part (bitsOf v 63 32) (memCap s)) ||
          decide (fabCap s < slotSum s 1 slot part (bitsOf v 31 0) (fabCap s)) then partCode s part 0x4004
      else barSet s (aBW_SLOT_A part slot) v)
  else .fault (.noSuchUnit "Bellows slot")

/-- Spent tokens after a change of depth: no more tokens stand than the new depth (R536). -/
def cutUsed (old new used : Nat) : Nat := new - min new (old - used)

/-- BW_DEPTH_WRITE (R536, R539, R554). -/
def cmdBwDepthWrite (part : Nat) (data : Word) (s : Chip) : Out :=
  onPart part s (fun st =>
    let v := data.toNat
    let old := bwDepth st part
    let s1 := fset (fset st (aBW_CTL part) 39 16 (max 0x40 (bitsOf v 39 16))) (aBW_CTL part) 3 1 (bitsOf v 3 1)
    let new := bwDepth s1 part
    modPart s1 part (fun x => { x with
      usedMem := cutUsed old new x.usedMem
      usedFab := cutUsed old new x.usedFab
      usedMesh := (List.range 144).foldl (fun m t =>
        tset (fun _ => 0) t (if tget (fun _ => 0) x.usedMesh t == 0 then 0 else cutUsed old new (tget (fun _ => 0) x.usedMesh t)) m)
        x.usedMesh }))

/-- BCYCLE_WRITE (R535): it takes effect at the first boundary that is a multiple of the new cycle. -/
def cmdBcycleWrite (data : Word) (s : Chip) : Out :=
  .next (rdMod s (fun r => { r with nextBcycle := some (bitsOf data.toNat 5 0) }))

/-- The BORROW bit of a regulator: 0 MEM, 1 FAB, 2 MESH (R539, R554). -/
def borrows (s : Chip) (p reg : Nat) : Bool :=
  fbit s (aPART_CTL p) 1 && fbit s (aBW_CTL p) (if reg == 0 then 2 else if reg == 1 then 3 else 1)

/-- A held request goes: the first such entry leaves. -/
def dropHeld (s : Chip) (p : Nat) (r : Nat × Nat × Nat) : Chip :=
  modPart s p (fun x => { x with heldReq := x.heldReq.erase r })

/-- BELLOWS_HOLD_RELEASE (R537, R539). -/
def cmdBellowsHoldRelease (part regulator tile charge : Nat) (arbiterIdle : Bool) (s : Chip) : Out :=
  onPart part s (fun st =>
    when ((getPart st part).heldReq.contains (regulator, tile, charge)) st (fun u =>
      if bwNow u part regulator == 0xFFFFFFFF then dropHeld u part (regulator, tile, charge)
      else if charge ≤ bwTokens u part regulator tile then
        dropHeld (bwSetUsed u part regulator tile (bwUsed u part regulator tile + charge)) part (regulator, tile, charge)
      else if arbiterIdle && borrows u part regulator then
        let n := (getPart u part).borrow + charge
        fsat (modPart (dropHeld u part (regulator, tile, charge)) part (fun x => { x with borrow := n % 256 }))
          (aBW_STATUS part) 31 0 (n / 256)
      else u))

/-- The scale that throttling applies to the MEM and FAB budgets of tenants, as a divisor (R654). -/
def budgetScale (s : Chip) (p : Nat) : Nat :=
  if p == 0 then 1 else 2 ^ (s.ras.steps.filter (·.halve)).length

/-- A regulator gains a Strike's budget, up to its depth (R536, R654). -/
def gainTokens (s : Chip) (p : Nat) : Chip :=
  modPart s p (fun x => { x with
    usedMem := x.usedMem - 256 * x.budMem / budgetScale s p
    usedFab := x.usedFab - 256 * x.budFab / budgetScale s p
    usedMesh := (x.usedMesh.map (fun m => (m.1, m.2 - 256 * x.budMesh))).filter (fun m => m.2 != 0) })

/-- A tenant's MEM budget scaled to the capacity that partition 0 leaves (R538). -/
def scaleSlot (s : Chip) (slot : Nat) : Chip :=
  let cap := memCap s
  let b0 := budgetCount (bwBudget s 0 0 slot) cap
  let sum := slotSum s 0 slot 16 0 cap
  if sum ≤ cap || !((List.range 32).any (fun c => chanState s c == 4)) then s
  else
    forEach (List.range 16) (fun st p =>
      let b := budgetCount (bwBudget s p 0 slot) cap
      if p == 0 || b == 0 then st
      else partCode (fset st (aBW_SLOT_A p slot) 63 32 (b * (cap - b0) / (sum - b0))) p 0x4005) s

/-- The regulators at the boundary that begins Strike n (R535, R536, R538). -/
def bellowsBoundary (s : Chip) (n : Nat) : Chip :=
  let s1 := forEach (List.range 16) gainTokens s
  let s2 := match s1.radio.nextBcycle with
    | some m => if n % (m + 1) == 0 then rdMod (fset s1 aBW_GLOBAL 5 0 m) (fun r => { r with nextBcycle := none }) else s1
    | none => s1
  let s3 := forEach (List.range 64) scaleSlot s2
  let slot := n % (fget s3 aBW_GLOBAL 5 0 + 1)
  forEach (List.range 16) (fun st p => modPart st p (fun x => { x with
    budMem := bwBudget s3 p 0 slot, budFab := bwBudget s3 p 1 slot, budMesh := bwBudget s3 p 2 slot })) s3

end Sys2Proof.Machine
end

