-- ==== Sys2Proof/Machine/Sha3.lean ====
section
/-! DEFINITION. SHA3-256 of FIPS 202, which plan images, measurements and watch digests take (R416, R605, R671). -/

namespace Sys2Proof.Machine

/-- A lane of the state of 25 lanes, lane (x, y) at place x + 5 y. -/
def laneOf (a : List Word) (x y : Nat) : Word := a.getD (x % 5 + 5 * (y % 5)) 0#64

/-- The rotation of each lane. -/
def shaRot : List Nat :=
  [0, 1, 62, 28, 27, 36, 44, 6, 55, 20, 3, 10, 43, 25, 39, 41, 45, 15, 21, 8, 18, 2, 61, 56, 14]

/-- The constants of the 24 rounds. -/
def shaRound : List Nat :=
  [0x0000000000000001, 0x0000000000008082, 0x800000000000808A, 0x8000000080008000, 0x000000000000808B,
   0x0000000080000001, 0x8000000080008081, 0x8000000000008009, 0x000000000000008A, 0x0000000000000088,
   0x0000000080008009, 0x000000008000000A] ++
  [0x000000008000808B, 0x800000000000008B, 0x8000000000008089, 0x8000000000008003, 0x8000000000008002,
   0x8000000000000080, 0x000000000000800A, 0x800000008000000A, 0x8000000080008081, 0x8000000000008080,
   0x0000000080000001, 0x8000000080008008]

/-- The parity of a column. -/
def shaColumn (a : List Word) (x : Nat) : Word :=
  laneOf a x 0 ^^^ laneOf a x 1 ^^^ laneOf a x 2 ^^^ laneOf a x 3 ^^^ laneOf a x 4

/-- Step theta. -/
def shaTheta (a : List Word) : List Word :=
  let d := (List.range 5).map (fun x => shaColumn a (x + 4) ^^^ (shaColumn a (x + 1)).rotateLeft 1)
  (List.range 25).map (fun i => a.getD i 0#64 ^^^ d.getD (i % 5) 0#64)

/-- Steps rho and pi: lane (x, y) goes, rotated, to (y, 2 x + 3 y). -/
def shaRhoPi (a : List Word) : List Word :=
  (List.range 25).map (fun i =>
    let x := (i % 5 + 3 * (i / 5)) % 5
    let y := i % 5
    (laneOf a x y).rotateLeft (shaRot.getD (x + 5 * y) 0))

/-- Step chi, and step iota with a round's constant. -/
def shaChi (rc : Nat) (a : List Word) : List Word :=
  (List.range 25).map (fun i =>
    let x := i % 5
    let y := i / 5
    let v := laneOf a x y ^^^ ((laneOf a (x + 1) y ^^^ BitVec.allOnes 64) &&& laneOf a (x + 2) y)
    if i == 0 then v ^^^ BitVec.ofNat 64 rc else v)

/-- The permutation of 24 rounds. -/
def keccak (a : List Word) : List Word := shaRound.foldl (fun b rc => shaChi rc (shaRhoPi (shaTheta b))) a

/-- The message padded to whole blocks of 136 bytes. -/
def shaPad (m : List Byte) : List Byte :=
  let k := 136 - m.length % 136
  if k == 1 then m ++ [0x86#8] else m ++ [0x06#8] ++ List.replicate (k - 2) 0#8 ++ [0x80#8]

/-- `n` blocks of a message absorbed. -/
def shaAbsorb : Nat → List Word → List Byte → List Word
  | 0, a, _ => a
  | n + 1, a, m =>
    let b := m.take 136
    let x := (List.range 25).map (fun i =>
      if i < 17 then a.getD i 0#64 ^^^ BitVec.ofNat 64 (leNat ((b.drop (8 * i)).take 8)) else a.getD i 0#64)
    shaAbsorb n (keccak x) (m.drop 136)

/-- The 32 bytes of SHA3-256. -/
def sha3 (m : List Byte) : List Byte :=
  let p := shaPad m
  ((shaAbsorb (p.length / 136) (List.replicate 25 0#64) p).take 4).flatMap (fun w => leBytes 8 w.toNat)

end Sys2Proof.Machine
end

