-- ==== Sys2Proof/Machine/Measure.lean ====
section
/-! DEFINITION. The measurement registers M0 to M7 (R611, R630). -/

namespace Sys2Proof.Machine

/-- The 32 bytes of a measurement register. -/
def measureBytes (s : Chip) (i : Nat) : List Byte := (List.range 4).flatMap (fun j => leBytes 8 (barGet s (aMEASURE i j)))

/-- A measurement register extended by a digest of 32 bytes (R611). -/
def extendM (s : Chip) (i : Nat) (d : List Byte) : Chip :=
  let h := sha3 (measureBytes s i ++ d)
  forEach (List.range 4) (fun st j => barSet st (aMEASURE i j) (leNat ((h.drop (8 * j)).take 8))) s

end Sys2Proof.Machine
end

