-- ==== Sys2Proof/Machine/Route.lean ====
section
/-! DEFINITION. Routes of the mesh: the links that a message takes and its latency (R37, R41, R44 to R51, R460). -/

namespace Sys2Proof.Machine

/-- The links of a row from column `a` to column `b`, each numbered 4 × tile + output (R460). -/
def rowLinks (y a b : Nat) : List Nat :=
  if a ≤ b then (List.range (b - a)).map (fun k => 4 * (12 * y + a + k) + 1)
  else (List.range (a - b)).map (fun k => 4 * (12 * y + a - k) + 3)

/-- The links of a column from row `a` to row `b`. -/
def columnLinks (x a b : Nat) : List Nat :=
  if a ≤ b then (List.range (b - a)).map (fun k => 4 * (12 * (a + k) + x))
  else (List.range (a - b)).map (fun k => 4 * (12 * (a - k) + x) + 2)

/-- How far apart two numbers are. -/
def apart (a b : Nat) : Nat := (a - b) + (b - a)

/-- The nearest of some numbers to `x`; of two as near, the higher when `high` holds, else the lower. -/
def nearest (high : Bool) (x : Nat) (l : List Nat) : Option Nat :=
  l.foldl (fun r y =>
    match r with
    | none => some y
    | some z =>
      if apart x y < apart x z || (apart x y == apart x z && (if high then decide (z < y) else decide (y < z))) then some y
      else some z) none

/-- The row in which a crossing of row `y` passes the Knuckle (R44); none when no row link works (R47). -/
def crossRow (s : Chip) (y : Nat) : Option Nat :=
  nearest true y ((List.range 12).filter (fun r => !(fget s aMESH_STATUS 35 24).testBit r))

/-- A stretch along row `y` from column `a` to column `b`: its links and its mesh cycles (R41, R44, R46). -/
def rowPath (s : Chip) (y a b : Nat) : Option (List Nat × Nat) :=
  if decide (a < 6) == decide (b < 6) then some (rowLinks y a b, apart a b)
  else
    match crossRow s y with
    | none => none
    | some r =>
      let c := if a < 6 then 5 else 6
      let d := 11 - c
      some (rowLinks y a c ++ columnLinks c y r ++ rowLinks r c d ++ columnLinks d r y ++ rowLinks y d b,
        apart a c + apart d b + max 8 (6 + 2 * apart y r))

/-- The route between two tiles as the proof of fit charges it: links, and mesh cycles of `n` flits (R37, R41, R46). -/
def tileRoute (s : Chip) (src dst n : Nat) : Option (List Nat × Nat) :=
  (rowPath s (tileY src) (tileX src) (tileX dst)).map (fun r =>
    (r.1 ++ columnLinks (tileX dst) (tileY src) (tileY dst), 4 + r.2 + apart (tileY src) (tileY dst) + (n - 1)))

/-- The edge port that column `x` uses when the ports of a bitmap have failed (R51). -/
def portFor (failed x : Nat) : Option Nat :=
  let ok := (List.range 12).filter (fun q => !failed.testBit q)
  if !failed.testBit x then some x
  else
    match nearest false x (ok.filter (fun q => decide (q < 6) == decide (x < 6))) with
    | some q => some q
    | none => nearest false x ok

/-- The route from a tile to the I/O die (R41, R50, R51). -/
def edgeRoute (s : Chip) (t n : Nat) : Option (List Nat × Nat) :=
  match portFor (fget s aMESH_STATUS 47 36) (tileX t) with
  | none => none
  | some q =>
    (rowPath s 0 (tileX t) q).map (fun r =>
      (columnLinks (tileX t) (tileY t) 0 ++ r.1 ++ [0x400 + q], 10 + tileY t + r.2 + (n - 1)))

end Sys2Proof.Machine
end

