-- ==== Sys2Proof/Machine/Plan.lean ====
section
/-! DEFINITION. Strike plans: the image's form and the proof of fit (R411 to R425, R434, R460, R470, R471, R478). -/

namespace Sys2Proof.Machine

-- The image (R416 to R422) ---------------------------------------------------------------------------------

/-- `n` entries of `size` bytes at an offset of the image; none when they do not lie between the header and its end. -/
def planTable (img : List Byte) (off n size : Nat) : Option (List (List Byte)) :=
  if 128 ≤ off ∧ off + n * size ≤ img.length then
    some ((List.range n).map (fun i => (img.drop (off + i * size)).take size))
  else none

/-- The bits of an FP32 value above 0 and at most 1. -/
def fpUnit (b : Nat) : Bool := decide (0 < b) && decide (b ≤ 0x3F800000)

/-- A carrier's parameter entry keeps R419. -/
def paramOk (td : Bool) (e : List Byte) : Bool :=
  let ntaps := bNat e 3 1
  let nroot := bNat e 20 1
  let nband := bNat e 21 1
  decide (1 ≤ bNat e 0 1) && decide (bNat e 0 1 ≤ 3) && decide (ntaps ≤ 32) && decide (nroot ≤ 8) && decide (nband ≤ 16) &&
    decide (bNat e 22 1 ≤ 1) && bZero e 23 1 && fpUnit (bNat e 8 4) && decide (0x3F800000 ≤ bNat e 12 4) &&
    decide (bNat e 12 4 ≤ 0x7F800000) && fpUnit (bNat e 16 4) && bZero e (24 + 2 * nroot) (40 - 2 * nroot) &&
    bZero e (64 + 4 * ntaps) (128 - 4 * ntaps) && bZero e 320 192 &&
    (List.range 16).all (fun k => bZero e (198 + 8 * k) 2) &&
    (List.range nband).all (fun k => decide (bNat e (192 + 8 * k) 2 < 4096) && decide (bNat e (194 + 8 * k) 2 < 4096)) &&
    (if td then decide (bNat e 1 1 ≤ 64) && decide (bNat e 2 1 ≤ 2) && decide (1 ≤ bNat e 4 2) && decide (bNat e 4 2 ≤ 32767)
    else bZero e 1 5 && nband == 0)

/-- A carrier-table entry with its parameter entry (R418, R419, R470); none when one of them breaks its rule. -/
def readCarrier (e q : List Byte) : Option Carrier :=
  let ok := decide (bNat e 0 1 ≤ 3) && [1, 2, 4, 8].contains (bNat e 1 1) && decide (1 ≤ bNat e 2 2) &&
    decide (bNat e 2 2 ≤ 275) && decide (bNat e 4 1 ≤ 1) && decide (bNat e 5 1 ≤ 7) && [9, 12, 14].contains (bNat e 6 1) &&
    decide (1 ≤ bNat e 7 1) && decide (bNat e 7 1 ≤ 4) && decide (bNat e 14 1 < 16) && bZero e 15 1
  if ok && paramOk (bNat e 4 1 == 1) q then
    some ⟨bNat e 0 1, bNat e 1 1, bNat e 2 2, bNat e 4 1, bNat e 5 1, bNat e 6 1, bNat e 7 1, bNat e 8 2, bNat e 10 2,
      bNat e 12 2, bNat e 14 1 % 16, bNat q 21 1⟩
  else none

/-- The transfer entries of a phase (R421). -/
def readXfers (img : List Byte) (tab ntile first n : Nat) : Option (List (Nat × Nat)) :=
  match planTable img (tab + 8 * first) n 8 with
  | none => none
  | some l =>
    if l.all (fun e => bZero e 6 2 && (decide (bNat e 0 2 < ntile) || bNat e 0 2 == 0xFFFF)) then
      some (l.map (fun e => (bNat e 0 2, bNat e 2 4)))
    else none

/-- A phase entry (R421). -/
def readPhase (img : List Byte) (cycle ntile tiers : Nat) (e : List Byte) : Option Phase :=
  let ok := (decide (bNat e 0 2 < cycle) || bNat e 0 2 == 0xFFFF) && decide (bNat e 2 2 < ntile) &&
    (decide (bNat e 4 1 < tiers) || bNat e 4 1 == 0xFF) && decide (bNat e 7 1 ≤ 62) && bNat e 20 2 % 2 == 0 &&
    decide (bNat e 32 1 % 16 ≤ 3) && decide (bNat e 32 1 < 32) && (decide (bNat e 33 1 < 32) || bNat e 33 1 == 0xFF) &&
    bZero e 35 1 && bZero e 44 4
  let n := bNat e 22 2
  let xs := if n == 0 then some [] else readXfers img (bNat img 40 8) ntile (bNat e 24 4) n
  match xs with
  | none => none
  | some l =>
    if ok then
      some ⟨bNat e 0 2, bNat e 2 2, bNat e 4 1, bNat e 5 1, bNat e 6 1 % 8, bNat e 7 1, bNat e 8 4, bNat e 12 4, bNat e 16 4,
        bNat e 20 2, l, bNat e 28 4, bNat e 32 1, bNat e 33 1, bNat e 34 1, bNat e 36 4, bNat e 40 4⟩
    else none

/-- Every member of a list is read, or none is. -/
def readAll {α β : Type} (f : α → Option β) : List α → Option (List β)
  | [] => some []
  | a :: r =>
    match f a, readAll f r with
    | some b, some l => some (b :: l)
    | _, _ => none

/-- A rising list. -/
def rising : List Nat → Bool
  | a :: b :: r => decide (a < b) && rising (b :: r)
  | _ => true

/-- The tier table keeps R420: TIERS entries and the reduced profile. -/
def tiersOk (ncar ntile nspare : Nat) (l : List (Nat × Nat)) : Bool :=
  let full := l.dropLast
  rising (full.map (·.1)) && full.all (fun t => decide (nspare + t.1 ≤ ntile)) && l.all (fun t => decide (t.2 ≤ ncar)) &&
    decide ((l.getLastD (0, 0)).1 ≤ min 16 ntile)

/-- The header keeps R416, format version aside; CHECK is over the image with that field at 0. -/
def headOk (img : List Byte) : Bool :=
  let between (lo hi o n : Nat) : Bool := decide (lo ≤ bNat img o n) && decide (bNat img o n ≤ hi)
  decide (bNat img 2 1 ≤ 3) && between 1 4 3 1 && between 1 2560 4 2 && between 1 768 6 2 && between 1 1048576 8 4 &&
    between 1 144 12 2 && between 1 8 14 1 && bZero img 15 1 && bNat img 48 8 % 4096 == 0 &&
    decide (bNat img 48 8 < 2 ^ 48) && bNat img 56 4 % 4096 == 0 && decide (bNat img 56 4 ≤ 2 ^ 20) && bZero img 80 48 &&
    (sha3 (bSet img 64 8 0)).take 8 == (img.drop 64).take 8

/-- The tables of an image whose header is sound. -/
def readTables (img : List Byte) : Option Plan :=
  let ncar := bNat img 6 2
  let ntile := bNat img 12 2
  let tiers := bNat img 3 1
  match planTable img (bNat img 16 8) (tiers + 1) 8, planTable img (bNat img 24 8) ncar 16,
      planTable img (bNat img 72 8) ncar 512, planTable img (bNat img 32 8) (bNat img 8 4) 48 with
  | some tt, some ct, some qt, some pt =>
    let tab := tt.map (fun e => (bNat e 0 2, bNat e 2 2))
    match readAll (fun p => readCarrier p.1 p.2) (ct.zip qt), readAll (readPhase img (bNat img 4 2) ntile tiers) pt with
    | some cs, some ps =>
      if tt.all (fun e => bZero e 4 4) && tiersOk ncar ntile (bNat img 14 1) tab then
        some ⟨bNat img 2 1, tiers, bNat img 4 2, ntile, bNat img 14 1, cs, tab, ps, bNat img 48 8, bNat img 56 4,
          (img.drop 64).take 8⟩
      else none
    | _, _ => none
  | _, _, _, _ => none

/-- A plan image read (R422): the plan, or a code. An image that is malformed beside its version has the lower code
(R27). -/
def readPlan (img : List Byte) : Option Plan × Nat :=
  match (if headOk img then readTables img else none) with
  | none => (none, 0x5001)
  | some p => if bNat img 0 1 != 1 || bNat img 1 1 != 0 then (none, 0x5002) else (some p, 0)

-- Profiles and configurations (R420, R427, R430) -----------------------------------------------------------

/-- WORK of a tier (R420). -/
def tierWork (p : Plan) (t : Nat) : Nat := (p.tierTab.getD t (0, 0)).1
def tierCars (p : Plan) (t : Nat) : Nat := (p.tierTab.getD t (0, 0)).2

/-- The running tier (R458). -/
def tierNow (s : Chip) : Nat := fget s aSTRIKE_STATUS 31 24

/-- Logical tiles that a tier uses, spares included; those of the hard reserve; those of the reduced profile. -/
def tierTop (p : Plan) (t : Nat) : Nat := p.nspare + tierWork p t
def hardTop (p : Plan) : Nat := tierTop p 0
def reducedWork (p : Plan) : Nat := tierWork p p.tiers

/-- A phase is active at a Strike index of the cycle (R427); in the reduced profile its PROF bit decides. -/
def phaseOn (ph : Phase) (k : Nat) (reduced : Bool) (tier : Nat) : Bool :=
  (ph.strike == k || ph.strike == 0xFFFF) &&
    (if reduced then bitOf ph.prof 1 else bitOf ph.prof 0 && ph.tier != 0xFF && decide (ph.tier ≤ tier))

/-- A configuration of the proof: profile, tier, and the tiles whose phases run elsewhere. -/
structure Cfg where
  reduced : Bool
  tier : Nat
  host : List (Nat × Nat)
  deriving DecidableEq, Repr

/-- The logical tile on which a logical tile's phases run. -/
def hostOf (host : List (Nat × Nat)) (l : Nat) : Nat := ((host.find? (fun x => x.1 == l)).map (·.2)).getD l

/-- The physical tile that partition 0's placement map names (R423); 0xFF none. -/
def placed (s : Chip) (l : Nat) : Nat := (getPart s 0).map.getD l 0xFF

/-- One spare for one working tile, beside substitutions that stand. -/
def swaps (p : Plan) (t : Nat) (base : List (Nat × Nat)) (spares : List Nat) : List Cfg :=
  spares.flatMap (fun x => (List.range (tierWork p t)).map (fun w => ⟨false, t, (p.nspare + w, x) :: base⟩))

/-- The configurations that a load proves (R423). -/
def loadCfgs (p : Plan) : List Cfg :=
  (List.range p.tiers).flatMap (fun t => ⟨false, t, []⟩ :: swaps p t [] (List.range p.nspare)) ++ [⟨true, 0, []⟩]

-- The checks (R423) ----------------------------------------------------------------------------------------

/-- Tile cycles of a period (R411). -/
def periodCycles (k : Nat) : Nat := 43750 * 2 ^ k
def periodOf (k : Nat) : Nat := 62500 * 2 ^ k

def tileTested (s : Chip) (t : Nat) : Bool := fbit s (aTILE_STATUS t) 0

/-- The group is free, or claimed for partition 0 (R465). -/
def groupClaimable (s : Chip) (g : Nat) : Bool := groupFree s g || s.radio.claims.testBit g

/-- Logical tiles that fail the check of tiles. -/
def tileFails (s : Chip) (p : Plan) : List Nat :=
  (List.range p.ntile).filter (fun l =>
    let t := placed s l
    let mine := tileAnvil s t && tileTested s t
    !(decide (t < 144) && tileEnabled s t && !tileFenced s t && (getPart s 0).map.count t == 1 &&
      (decide (reducedWork p ≤ l) || mine) &&
      (decide (hardTop p ≤ l) || mine || groupClaimable s (tileGroup t))))

/-- The routes of a phase's transfer entries that carry flits: links, mesh cycles and flits; none without a route. -/
def phaseRoutes (s : Chip) (c : Cfg) (ph : Phase) : Option (List (List Nat × Nat × Nat)) :=
  readAll (fun x =>
    let src := placed s (hostOf c.host ph.tile)
    let r := if x.1 == 0xFFFF then edgeRoute s src x.2 else tileRoute s src (placed s (hostOf c.host x.1)) x.2
    r.map (fun y => (y.1, y.2, x.2))) (ph.xfers.filter (fun x => x.2 != 0))

/-- T of a phase in tile cycles (R423): each route rounded up. -/
def transit (l : List (List Nat × Nat × Nat)) : Nat := (l.map (fun r => cdiv r.2.1 2)).foldl (· + ·) 0

/-- Hosting tiles whose windows fail. -/
def windowFails (s : Chip) (p : Plan) (c : Cfg) (act : List Phase) : List Nat :=
  let n := periodCycles p.period
  let lone := act.filter (fun ph =>
    match phaseRoutes s c ph with
    | none => true
    | some l => decide (ph.start < 1000) || decide (n - 1500 ≤ ph.deadline) ||
        decide (ph.deadline < ph.start + ph.wcet + transit l))
  let idx := (List.range act.length).zip act
  let both := idx.filter (fun a => idx.any (fun b =>
    decide (a.1 < b.1) && hostOf c.host a.2.tile == hostOf c.host b.2.tile && decide (a.2.start ≤ b.2.deadline) &&
      decide (b.2.start ≤ a.2.deadline)))
  (lone ++ both.map (·.2)).map (fun ph => hostOf c.host ph.tile)

/-- The number by which a link is reported: both directions of a Knuckle row link have one (R460). -/
def linkIndex (k : Nat) : Nat := if k < 0x400 ∧ k % 4 = 3 ∧ tileX (k / 4) = 6 then k - 6 else k

/-- Links on which a Strike's radio flits pass half of the period's flit slots (two a tile cycle). -/
def meshFails (s : Chip) (p : Plan) (c : Cfg) (act : List Phase) : List Nat :=
  let loads := act.flatMap (fun ph => ((phaseRoutes s c ph).getD []).flatMap (fun r => r.1.map (fun k => (k, r.2.2))))
  let overfull := (loads.map (·.1)).filter (fun k =>
    decide (periodCycles p.period < ((loads.filter (fun x => x.1 == k)).map (·.2)).foldl (· + ·) 0))
  overfull.map linkIndex

/-- A coding half serves, or would when it is enabled: it has neither failed nor been gated (R455, R462). -/
def halfWorks (s : Chip) (h : Nat) : Bool := !decide (2 ≤ fget s (aCODE_STATUS h) 3 0)

/-- The half that serves a phase's coding jobs (R455). -/
def halfFor (s : Chip) (h : Nat) : Nat := if halfWorks s h then h else 1 - h

/-- Engines, 4 × half + engine, whose time passes the period less the tail guard; 1,500 tile cycles are 15,000/7 ns. -/
def codeFails (s : Chip) (p : Plan) (act : List Phase) : List Nat :=
  let ns (h e : Nat) : Nat := ((act.filter (fun ph => ph.codeEng % 16 == e + 1 && halfFor s (ph.codeEng / 16 % 2) == h)).map
    (·.codeNs)).foldl (· + ·) 0
  (List.range 8).filter (fun k => decide (k % 4 < 3) &&
    (decide (7 * periodOf p.period < 7 * ns (k / 4) (k % 4) + 15000 && 0 < ns (k / 4) (k % 4)) ||
      (!halfWorks s (k / 4) && decide (0 < ns (k / 4) (k % 4)))))

/-- Channels whose bytes pass a quarter of the plannable rate. -/
def memFails (s : Chip) (p : Plan) (act : List Phase) : List Nat :=
  (List.range 32).filter (fun c =>
    let n := ((act.filter (fun ph => ph.chan == c)).map (·.memBytes)).foldl (· + ·) 0
    decide ((if inService s c then plannable s else 0) * periodOf p.period < 4000 * n))

/-- Ports whose bytes pass 90 % of 200 Gb/s, 22.5 bytes a nanosecond. -/
def fhFails (p : Plan) (act : List Phase) : List Nat :=
  (List.range 8).filter (fun k =>
    let n := ((act.filter (fun ph => ph.port < 128 && ph.port % 8 == k)).map (·.fhBytes)).foldl (· + ·) 0
    decide (45 * periodOf p.period < 2 * n))

/-- Quarter units of a carrier (R417). -/
def quarters (c : Carrier) : Nat := cdiv (4 * c.nprb * (15 * 2 ^ c.scs)) 8190

/-- A carrier's lag matches its port (R478; AIR_LAG holds the lag less 1, R507). -/
def lagOk (s : Chip) (c : Carrier) : Bool := c.lag == fget s (aFH c.port 0) 27 26 + 1

/-- Carriers that fail (R412, R417, R423, R471, R478); a plan for another period fails at carrier 0. -/
def carrierFails (s : Chip) (p : Plan) : List Nat :=
  let slot (c : Carrier) : Nat := 1000000 / 2 ^ c.scs
  let period := periodOf p.period
  if p.period != fget s aSTRIKE_CTL 3 2 then [0]
  else (List.range p.carriers.length).filter (fun i =>
    match p.carriers[i]? with
    | none => false
    | some c =>
      decide (768 < ((p.carriers.take (i + 1)).map quarters).foldl (· + ·) 0) || decide (slot c < period) ||
        slot c % period != 0 || decide (tierCars p (p.tiers - 1) ≤ i) || c.peer == 0 || !lagOk s c)

/-- The radio-class queues of partition 0 that are on (R358, R423). -/
def radioQueues (s : Chip) : List Nat := queuesWhere s (fun c => cRadio c && cPart c == 0 && cState c != 0)

/-- A failed check: kind, Strike index, configuration, index. The first in this order is reported. -/
structure Fit where
  kind : Nat
  strike : Nat
  cfg : Nat
  index : Nat
  deriving DecidableEq, Repr

def fitBefore (a b : Fit) : Bool :=
  if a.kind != b.kind then decide (a.kind < b.kind)
  else if a.strike != b.strike then decide (a.strike < b.strike)
  else if a.cfg != b.cfg then decide (a.cfg < b.cfg)
  else decide (a.index < b.index)

/-- The first of some failures. -/
def firstFit (l : List Fit) : Option Fit :=
  l.foldl (fun r f =>
    match r with
    | none => some f
    | some g => if fitBefore f g then some f else some g) none

/-- The failures of one Strike index in one configuration. -/
def strikeFits (s : Chip) (p : Plan) (k : Nat) (n : Nat) (c : Cfg) : List Fit :=
  let act := p.phases.filter (fun ph => phaseOn ph k c.reduced c.tier)
  (windowFails s p c act).map (fun i => ⟨2, k, n, i⟩) ++ (meshFails s p c act).map (fun i => ⟨3, k, n, i⟩) ++
    (codeFails s p act).map (fun i => ⟨4, k, n, i⟩) ++ (memFails s p act).map (fun i => ⟨5, k, n, i⟩) ++
    (fhFails p act).map (fun i => ⟨6, k, n, i⟩)

/-- The failures over every Strike of the cycle and some configurations. -/
def cfgFits (s : Chip) (p : Plan) (cs : List Cfg) : List Fit :=
  (List.range p.cycle).flatMap (fun k => ((List.range cs.length).zip cs).flatMap (fun c => strikeFits s p k c.1 c.2))

/-- The failures that no Strike has: carriers and queues. -/
def planFits (s : Chip) (p : Plan) : List Fit :=
  let q := (radioQueues s).length
  (carrierFails s p).map (fun i => ⟨7, 0, 0, i⟩) ++ (if 512 < q then [⟨8, 0, 0, min q 0xFFFF⟩] else [])

/-- The proof of fit of a load (R423, R425): the first failure, if any. -/
def prove (s : Chip) (p : Plan) : Option Fit :=
  firstFit ((tileFails s p).map (fun i => ⟨1, 0, 0, i⟩) ++ cfgFits s p (loadCfgs p) ++ planFits s p)

end Sys2Proof.Machine
end

