-- ==== Sys2Proof/Machine/Coding.lean ====
section
/-! DEFINITION. Coding halves: rings, blocks, failures and the ring registers (rows 181 to 183; R33, R448 to R455,
R462). -/

namespace Sys2Proof.Machine

-- Rings (R450, R462) ---------------------------------------------------------------------------------------

/-- The key of a ring: 8 × half + ring. -/
def getRing (s : Chip) (k : Nat) : CodeRing := tget (fun _ => {}) s.code k
def setRing (s : Chip) (k : Nat) (x : CodeRing) : Chip := { s with code := tset (fun _ => {}) k x s.code }

def ringA (s : Chip) (k : Nat) : Nat := barGet s (aCODE_RING_A (k / 8) (k % 8))
def ringB (s : Chip) (k : Nat) : Nat := barGet s (aCODE_RING_B (k / 8) (k % 8))

/-- LOG2N of a ring, from 4 to 12 (R462). -/
def ringLog (a : Nat) : Nat := max 4 (min 12 (bitsOf a 57 54))

/-- A tile-space address (R347). -/
def tileAddr (l a : Nat) : Nat := 2 ^ 60 + l * 2 ^ 32 + a % 2 ^ 22

/-- The radio-class traffic of partition 0 that has no queue of its own (R437, R450, R473, R476). -/
def radioCtx : List Byte := bSet ctxOff 11 1 1

/-- The half that serves a ring: its own, or the other once the ring was rebound (R455). -/
def ringHalf (s : Chip) (k : Nat) : Nat := if (getRing s k).moved then 1 - k / 8 else k / 8

/-- CODE_STATUS.STATE is serving (R462). -/
def halfServes (s : Chip) (h : Nat) : Bool := fget s (aCODE_STATUS h) 3 0 == 1

/-- Bytes that a coding half reads and writes, counted in set 0 (R664). -/
def codeRead (s : Chip) (a n : Nat) : Chip × List MByte × Nat :=
  let r := sideRead s radioCtx (2 ^ 20) a n
  (ctrAdd r.1 0 161 n, r.2.1, r.2.2)
def codeWrite (s : Chip) (a : Nat) (bs : List MByte) : Chip × Nat :=
  let r := sideWrite s radioCtx (2 ^ 20) 0 a bs
  (ctrAdd r.1 0 162 bs.length, r.2)

/-- A status of a half (R462). -/
def codeStatus (s : Chip) (h code : Nat) : Chip :=
  if code == 0 then s else radioCode (fset s (aCODE_STATUS h) 31 16 code) code

/-- Descriptors of a ring taken up from its head, `n` of them (R450). -/
def takeJobs (k : Nat) : Nat → Chip → Chip
  | 0, s => s
  | n + 1, s =>
    let x := getRing s k
    let a := ringA s k
    let i := x.head % 2 ^ ringLog a
    let r := codeRead s (tileAddr (bitsOf a 47 40) (bitsOf a 21 0 + 64 * i)) 64
    let d := if r.2.2 != 0 || r.2.1.any (·.2) then List.replicate 64 0#8 else unmark r.2.1
    takeJobs k n (setRing r.1 k { x with
      head := (x.head + 1) % 2 ^ 64
      jobs := x.jobs ++ [⟨i, bitsOf a 47 40, bitsOf (ringB s k) 21 0, ringLog a, d⟩] })

/-- A ring's trigger line has fired (R450): its tail word is read, and the descriptors up to it are served. A tail word
that cannot be read, or reads poisoned, starts nothing (DEDUCED, log 21). -/
def fireRing (s : Chip) (k : Nat) : Chip :=
  let h := ringHalf s k
  let x := getRing s k
  let a := ringA s k
  if !halfServes s h || (fget s (aCODE_STATUS (k / 8)) 15 8).testBit (k % 8) then s
  else
    let r := codeRead s (tileAddr (bitsOf a 47 40) (bitsOf (ringB s k) 43 22)) 8
    let d := (leNat (unmark r.2.1) + 2 ^ 64 - x.head) % 2 ^ 64
    if r.2.2 != 0 || r.2.1.any (·.2) then r.1
    else if 2 ^ ringLog a < d then
      radioCode (fset r.1 (aCODE_STATUS (k / 8)) 15 8 (fget r.1 (aCODE_STATUS (k / 8)) 15 8 ||| 2 ^ (k % 8))) 0x5043
    else takeJobs k d r.1

/-- A trigger line reaches the coding rings that name it. -/
def fireCoding (s : Chip) (line : Nat) : Chip :=
  forEach (List.range 16) (fun st k => if line != 0 && bitsOf (ringB st k) 47 44 == line then fireRing st k else st) s

/-- CODE_RING_WRITE (R450, R462). -/
def cmdCodeRingWrite (half ring : Nat) (isB : Bool) (data : Word) (s : Chip) : Out :=
  if half < 2 ∧ ring < 8 then
    .next (
      let v := data.toNat
      let k := 8 * half + ring
      let s1 := if isB then fset s (aCODE_RING_B half ring) 47 0 v
        else
          let w := fset (fset s (aCODE_RING_A half ring) 21 0 (v / 64 * 64)) (aCODE_RING_A half ring) 47 40 (bitsOf v 47 40)
          fset w (aCODE_RING_A half ring) 57 54 (ringLog v)
      let s2 := if isB then
          fset (fset s1 (aCODE_RING_B half ring) 24 22 0) (aCODE_RING_B half ring) 4 0 0
        else s1
      let off := dropBits (fget s2 (aCODE_STATUS half) 15 8) (2 ^ ring)
      fset (setRing s2 k { getRing s2 k with head := 0 }) (aCODE_STATUS half) 15 8 off)
  else .fault (.noSuchUnit "coding ring")

-- Blocks (R448, R451 to R454) ------------------------------------------------------------------------------

-- Fields of a coding descriptor (R451).
def kOp (d : List Byte) : Nat := bNat d 0 1
def kK (d : List Byte) : Nat := bNat d 8 4
def kE (d : List Byte) : Nat := bNat d 12 4
def kNcb (d : List Byte) : Nat := bNat d 16 4

/-- A descriptor keeps R451 and TS 38.212. -/
def codeDescOk (d : List Byte) : Bool :=
  let op := kOp d
  let ldpc := op == 1 || op == 2
  decide (1 ≤ op) && decide (op ≤ 4) && decide (bNat d 1 1 < 8) && decide (bNat d 6 1 < 4) && decide (bNat d 20 1 ≤ 6) &&
    bZero d 49 7 && (!ldpc || ((bNat d 2 1 == 1 || bNat d 2 1 == 2) && decide (2 ≤ bNat d 3 1) && decide (bNat d 3 1 ≤ 10))) &&
    (op != 1 || (decide (1 ≤ bNat d 7 1) && decide (bNat d 7 1 ≤ 32))) &&
    (op != 3 || ([1, 2, 4, 8].contains (bNat d 21 1) && decide (32 ≤ bNat d 22 2) && decide (bNat d 22 2 ≤ 1024))) &&
    (op != 1 || bNat d 40 8 == 0 || (decide (0x080000000000 ≤ bNat d 40 8) && decide (bNat d 40 8 < 0x100000000000))) &&
    decide (bNat d 24 8 / 2 ^ 60 < 2) && decide (bNat d 32 8 / 2 ^ 60 < 2) && Config.codeLegal d

/-- Input bytes of a block: soft bits for a decoder, packed bits for the others (R452). -/
def codeInLen (d : List Byte) : Nat := if kOp d == 1 || kOp d == 3 then kE d else cdiv (kK d) 8

/-- Output bytes of a block. -/
def codeOutLen (d : List Byte) : Nat := if kOp d == 2 then cdiv (kE d) 8 else if kOp d == 4 then 0 else cdiv (kK d) 8

/-- A list cut or filled to a length. -/
def fitLen (n : Nat) (l : List Byte) : List Byte := l.take n ++ List.replicate (n - l.length) 0#8

/-- A soft bit that enters as an erasure when it is poisoned (R452). -/
def erase (l : List MByte) : List Byte := l.map (fun b => if b.2 then 0#8 else b.1)

/-- The soft buffer after a transmission, and its codes (R452): combined with what it held, or overwritten. The places
of the received soft bits are TS 38.212's (DESIGN CHOICE, log 12). -/
def harq (s : Chip) (d : List Byte) (soft : List Byte) : Chip × List Byte × List Nat :=
  let a := bNat d 40 8
  let n := kNcb d
  let p := [kOp d, bNat d 2 1, bNat d 3 1, bNat d 4 2, bNat d 6 1 % 4, kK d, kE d, n]
  let combine := bitOf (bNat d 1 1) 0
  if a == 0 then (s, fitLen n (Config.codeKernel 0x10 p (soft ++ List.replicate n 0#8)), [])
  else
    let r := if combine then codeRead s a n else (s, List.replicate n (0#8, false), 0)
    let old := erase r.2.1
    let new := fitLen n (Config.codeKernel (if combine then 0x11 else 0x10) p (soft ++ old))
    let w := codeWrite r.1 a (clean new)
    (w.1, new, [if r.2.1.any (·.2) then 0x5042 else 0, if r.2.2 == 0x2001 then 0 else r.2.2, w.2])

/-- Iterations of a block (R453): all that are allowed, unless an early end stopped the decoder. -/
def codeIters (d : List Byte) (inp : List Byte) : Nat :=
  if kOp d != 1 then 0
  else if bitOf (bNat d 1 1) 2 then max 1 (min (bNat d 7 1) (Config.codeIters 1 ((List.range 64).map (bNat d · 1)) inp))
  else bNat d 7 1

/-- The result record (R454). -/
def resultRecord (s : Chip) (h code iters res : Nat) (d : List Byte) : List Byte :=
  leBytes 2 code ++ leBytes 1 iters ++ leBytes 1 res ++ leBytes 1 h ++ leBytes 3 0 ++ (d.drop 56).take 8 ++
    leBytes 8 (stamp s 0) ++ leBytes 8 0

/-- A block ends: its record, its counter, and the half's counts (R454, R462). -/
def endBlock (s : Chip) (h : Nat) (j : CodeJob) (code iters res : Nat) : Chip :=
  let w := codeWrite s (tileAddr j.tile (j.results + 32 * j.index)) (clean (resultRecord s h code iters res j.d))
  let s1 := codeStatus (fsat w.1 (aCODE_STATUS h) 63 32 1) h code
  let c := bNat j.d 48 1
  match physOf s1 0 j.tile with
  | some t => if 128 ≤ c then s1 else retryTile (acArrive s1 t (c % 64)) t
  | none => s1

/-- A block runs (R451 to R454). -/
def runBlock (s : Chip) (h : Nat) (j : CodeJob) : Chip :=
  let d := j.d
  if !codeDescOk d then endBlock s h j 0x5040 0 0
  else
    let r := codeRead s (bNat d 24 8) (codeInLen d)
    let pz := r.2.1.any (·.2)
    let soft := erase r.2.1
    let q := if kOp d == 1 then harq r.1 d soft else (r.1, soft, [])
    let p := (List.range 24).map (bNat d · 1) ++ [kK d, kE d]
    let out := fitLen (codeOutLen d) (Config.codeKernel (kOp d) p q.2.1)
    let bad := pz && kOp d != 1 && kOp d != 3
    let w := if codeOutLen d == 0 then (q.1, 0) else codeWrite q.1 (bNat d 32 8) (out.map (fun b => (b, bad)))
    let n := codeIters d q.2.1
    let crc := bNat d 20 1 != 0 && Config.codeOk 1 p q.2.1 && !bad
    let tb := bitOf (bNat d 1 1) 1 && Config.codeOk 2 p q.2.1 && !bad
    let res := b2n crc + 2 * b2n tb + 4 * b2n pz + 8 * b2n (kOp d == 1 && decide (n < bNat d 7 1))
    endBlock w.1 h j (leastCode ([if r.2.2 == 0x2001 then 0 else r.2.2, w.2] ++ q.2.2)) n res

/-- CODING_BLOCK_COMPLETE (R454): the oldest block that a ring has in service. -/
def cmdCodingBlockComplete (half ring : Nat) (s : Chip) : Out :=
  if half < 2 ∧ ring < 8 then
    .next (
      let k := 8 * half + ring
      match (getRing s k).jobs with
      | [] => s
      | j :: r =>
        if !halfServes s (ringHalf s k) then s
        else runBlock (setRing s k { getRing s k with jobs := r }) (ringHalf s k) j)
  else .fault (.noSuchUnit "coding ring")

-- Failures (R33, R455) -------------------------------------------------------------------------------------

/-- A block in service when its half goes: poisoned outputs and a record with 0x5041 (R455). -/
def loseBlock (s : Chip) (h : Nat) (j : CodeJob) : Chip :=
  let n := codeOutLen j.d
  let s1 := if n == 0 || !codeDescOk j.d then s
    else (codeWrite s (bNat j.d 32 8) (List.replicate n (0#8, true))).1
  endBlock s1 h j 0x5041 0 4

/-- A coding half fails (state 2) or is gated (state 3): its blocks end, and its rings wait to be rebound under a
re-proof (R426, R455). -/
def loseHalf (s : Chip) (h st : Nat) : Chip :=
  let s1 := forEach ((List.range 16).filter (fun k => ringHalf s k == h)) (fun u k =>
    forEach (getRing u k).jobs (fun v j => loseBlock v h j) (setRing u k { getRing u k with jobs := [] })) s
  let s2 := fset s1 (aCODE_STATUS h) 3 0 st
  rdMod s2 (fun r => { r with
    rebind := if r.rebind.contains h then r.rebind else r.rebind ++ [h]
    reproving := r.reproving || (r.plan.isSome && r.running && !r.reduced) })

/-- CODING_HALF_FAILURE (R455). -/
def cmdCodingHalfFailure (half : Nat) (s : Chip) : Out :=
  onUnit "coding half" 2 half s (fun st =>
    when (fget st (aCODE_STATUS half) 3 0 != 2) st (fun u => loseHalf u half 2))

/-- Rings of lost halves go to the other half at a boundary once the re-proof has passed (R455). -/
def rebindRings (s : Chip) : Chip :=
  if s.radio.rebind.isEmpty || s.radio.reproving then s
  else
    let s1 := forEach s.radio.rebind (fun st h =>
      if !halfWorks st (1 - h) then st
      else forEach ((List.range 16).filter (fun k => ringHalf st k == h)) (fun u k =>
        setRing u k { getRing u k with moved := !(getRing u k).moved }) st) s
    rdMod s1 (fun r => { r with rebind := [] })

/-- CODE_CTL.ENABLE (R462): a half that has failed or is gated stays so. -/
def codeEnable (s : Chip) (h : Nat) (on : Bool) : Chip :=
  let s1 := fsetb s (aCODE_CTL h) 0 on
  if halfWorks s h then fset s1 (aCODE_STATUS h) 3 0 (b2n on) else s1

end Sys2Proof.Machine
end

