-- ==== Sys2Proof/Machine/Stamp.lean ====
section
/-! DEFINITION. Timing-class codes, stamps and the capture units (R494, R498, R504, R506, R508). -/

namespace Sys2Proof.Machine

def tmMod (s : Chip) (f : TimeS → TimeS) : Chip := { s with time := f s.time }

/-- A timing-class code of the servo, the triggers or the capture units (R506). -/
def timeCode (s : Chip) (code : Nat) : Chip := tmMod s (fun t => { t with lastCode := code })

/-- The time of a base moved by some 2^-34 ns, as a stamp. -/
def stampAt (s : Chip) (b : Nat) (d : Int) : Nat := (((tbGet s b : Int) + d) % ((tvMod : Nat) : Int)).toNat

/-- An event at a capture unit that matches it (R504): stamped, or missed when a stamp is held. -/
def captureUnit (s : Chip) (j : Nat) (d : Int) : Chip :=
  let k := aTC_CTL j
  if !fbit s k 63 then s
  else if fbit s k 44 then timeCode (fsat s k 15 0 1) 0x8030
  else
    let v := stampAt s (fget s k 62 61) d
    fsetb (fset (barSet s (k + 8) (tvSec v)) (k + 16) 47 0 (tvNsf v)) k 44 true

/-- An event of a source (R504, R508): `src` as TC_CTL.SRC has it, `more` the rest of the match. -/
def captureEvent (s : Chip) (src unit : Nat) (more : Chip → Nat → Bool) (d : Int) : Chip :=
  forEach (List.range 16) (fun st j =>
    if fget st (aTC_CTL j) 60 58 == src && fget st (aTC_CTL j) 57 54 == unit && more st j then captureUnit st j d else st) s

/-- 2^-34 ns in an ingress stamp's move to the package balls: −96.5 ns and ASYM (R494). -/
def ingressMove (s : Chip) (port : Nat) : Int := -(193 * 2 ^ 33) + signed 32 (fget s (aFH port 0x20) 31 0) * 2 ^ 18

/-- The same of an egress stamp: +48 ns. -/
def egressMove : Int := 48 * 2 ^ 34

/-- A frame of a port at the capture units (R504): its Ethertype and its eCPRI or PTP message type. -/
def captureFrame (s : Chip) (port : Nat) (ptp : Bool) (mtype : Nat) (d : Int) : Chip :=
  captureEvent s 1 port (fun st j => fbit st (aTC_CTL j) 53 == ptp && fget st (aTC_CTL j) 52 45 == mtype) d

end Sys2Proof.Machine
end

