-- ==== Sys2Proof/Machine/Servo.lean ====
section
/-! DEFINITION. The PTP servo and SyncE (R490, R491, R496 to R501). -/

namespace Sys2Proof.Machine

def servoState (s : Chip) : Nat := fget s aPTP_STATUS 3 0

/-- The servo enters a state: LOCKED is 1 in the locked state and in holdover (R498); an acquisition starts afresh. -/
def servoTo (s : Chip) (v : Nat) : Chip :=
  tmMod (fsetb (fset s aPTP_STATUS 3 0 v) aSTRIKE_STATUS 1 (decide (2 ≤ v))) (fun t => { t with
    good := 0
    bad := 0
    stepped := if v == 1 then false else t.stepped
    told := if v == 1 then false else t.told
    holdAt := if v == 3 then s.cycle else t.holdAt })

/-- A signed count of nanoseconds added to a base (R491). The manual states no value below the epoch: a free one
(DESIGN CHOICE, log 9). -/
def tbStep (s : Chip) (b : Nat) (d : Int) : Chip :=
  let v := (tbGet s b : Int) + d * 2 ^ 34
  if v < 0 then let r := freeBelow s tvMod; tbSet r.2 b r.1 else tbSet s b v.toNat

/-- The acquiring state meets an offset (R498, R499). -/
def acquire (s : Chip) (x : Int) : Chip :=
  let on := fbit s aSTRIKE_CTL 0
  let s1 :=
    if !on then (if x.natAbs ≤ 1000 then s else tbStep s 0 (-x))
    else if s.radio.flowed then
      (if decide (1000000 < x.natAbs) && !s.time.told then timeCode (tmMod s (fun t => { t with told := true })) 0x8005 else s)
    else if s.time.stepped || x == 0 then s
    else rdMod (tmMod s (fun t => { t with stepped := true })) (fun r => { r with pendingStep := some (-x) })
  let n := if x.natAbs ≤ 100 then s1.time.good + 1 else 0
  if 64 ≤ n then servoTo s1 2 else tmMod s1 (fun t => { t with good := n })

/-- The servo meets a Sync message's offset (R498). -/
def servoSync (s : Chip) (x : Int) : Chip :=
  let st := servoState s
  if st == 0 then acquire (servoTo s 1) x
  else if st == 1 then acquire s x
  else if st == 2 then
    (let n := if 1000 < x.natAbs then s.time.bad + 1 else 0
    if 4 ≤ n then timeCode (servoTo s 1) 0x8001 else tmMod s (fun t => { t with bad := n }))
  else if x.natAbs ≤ 1000 then servoTo s 2
  else acquire (servoTo s 1) x

/-- A Sync message from the selected master on a port that takes part (R496, R509). -/
def ptpSync (s : Chip) (port : Nat) (x : Int) : Chip :=
  let s1 := fset (fset s aPTP_STATUS 63 32 (wrap 32 x)) aPTP_STATUS 15 12 port
  if fbit s aPTP_CTL 0 then servoSync s1 x else s1

/-- SYNC_TIMEOUT (R498). -/
def cmdSyncTimeout (s : Chip) : Out :=
  .next (when (servoState s == 2) s (fun st => fset (timeCode (servoTo st 3) 0x8002) aPTP_STATUS 15 12 0xF))

/-- HOLDOVER_EXPIRY (R498, R501). -/
def cmdHoldoverExpiry (s : Chip) : Out :=
  .next (when (servoState s == 3) s (fun st => timeCode (servoTo st 0) 0x8003))

/-- The reference is dropped (R497). -/
def dropReference (s : Chip) : Chip := timeCode (fset s aPTP_STATUS 11 8 2) 0x8004

/-- SYNCE_REFERENCE_LOST (R497). -/
def cmdSynceReferenceLost (s : Chip) : Out :=
  .next (when (fget s aPTP_STATUS 11 8 == 1) s dropReference)

/-- An ESMC message on a port: the reference port's quality level decides (R497, R509). -/
def esmcMessage (s : Chip) (port : Nat) (good : Bool) : Chip :=
  if !fbit s aSYNCE_CTL 0 || fget s aSYNCE_CTL 4 2 != port then s
  else if good then fset s aPTP_STATUS 11 8 1
  else if fget s aPTP_STATUS 11 8 == 1 then dropReference s
  else s

/-- What the servo's slewing adds to the radio base in `k` steps of 1.25 ns: a free value within ±10 ppm (R499,
DESIGN CHOICE, log 9). -/
def slew (s : Chip) (k : Nat) : Int × Chip :=
  if fbit s aPTP_CTL 0 && (servoState s == 1 || servoState s == 2) then
    let m := 214748 * k
    let r := freeBelow s (2 * m + 1)
    ((r.1 : Int) - (m : Int), r.2)
  else (0, s)

end Sys2Proof.Machine
end

