-- ==== Sys2Proof/Machine/Fronthaul.lean ====
section
/-! DEFINITION. Fronthaul ports: reception, steering, egress rings, shaping and samples (rows 184 to 195; R466 to R488,
R507, R511). -/

namespace Sys2Proof.Machine

def getPort (s : Chip) (p : Nat) : FhPort := tget (fun _ => {}) s.ports p
def setPort (s : Chip) (p : Nat) (x : FhPort) : Chip := { s with ports := tset (fun _ => {}) p x s.ports }
def modPort (s : Chip) (p : Nat) (f : FhPort → FhPort) : Chip := setPort s p (f (getPort s p))

def onPort (p : Nat) (s : Chip) (f : Chip → Chip) : Out := onUnit "fronthaul port" 8 p s f

/-- FH_PORT_STATUS.STATE (R507). -/
def portState (s : Chip) (p : Nat) : Nat := fget s (aFH p 8) 3 0

/-- Codes of one operation of a port: each is counted, the least is recorded (R27, R507). -/
def portCodes (s : Chip) (p : Nat) (l : List Nat) : Chip :=
  let n := (l.filter (· != 0)).length
  if n == 0 then s else fset (fsat s (aFH p 16) 31 0 n) (aFH p 8) 63 48 (leastCode l)

/-- A status of another class, counted alone (R473). -/
def portCount (s : Chip) (p : Nat) : Chip := fsat s (aFH p 16) 31 0 1

/-- The fronthaul domain is on (R31, R511). -/
def fhPowered (s : Chip) : Bool := domainOn s 46

-- Symbols (R411, R412, R473, R493) -------------------------------------------------------------------------

/-- The start of symbol `g` of a half millisecond with spacing code `c`, in 1/30.72 µs (TS 38.211, PRESUMED, log 12). -/
def symStart (c g : Nat) : Nat := g * 2192 / 2 ^ c + (if g == 0 then 0 else 16)

/-- Where Strike `m` begins in its millisecond, in units of 62.5 µs. -/
def strikePhase (s : Chip) (m : Nat) : Nat := m * 2 ^ fget s aSTRIKE_CTL 3 2 % 16

/-- The symbol of its slot that begins first in Strike `m` (R473). -/
def firstSymbol (s : Chip) (c m : Nat) : Nat :=
  let x := strikePhase s m
  let g := ((List.range (7 * 2 ^ c)).find? (fun g => decide (x % 8 * 1920 ≤ symStart c g))).getD 0
  if c == 0 then x / 8 * 7 + g else g % 14

/-- The start of a symbol on the air, in ns of the radio base (R412, R473, R478): the Strike's slot, and the symbol in
it. -/
def airStart (s : Chip) (c m sym : Nat) : Int :=
  let x := strikePhase s m
  let slot := x * 2 ^ c / 16
  let g := if c == 0 then sym % 7 else slot * 14 + sym - (x / 8) * 7 * 2 ^ c
  let half := if c == 0 then sym / 7 else x / 8
  (m * periodNs s + fget s aSTRIKE_ALIGN 31 0 : Nat) - (x * 62500 : Nat) + (half * 500000 + symStart c g * 3125 / 96 : Nat)

/-- The carrier of a port that an eAxC identifier belongs to: uplink or random access (R470). -/
def carrierOf (s : Chip) (p eaxc : Nat) : Option Carrier :=
  match s.radio.plan with
  | none => none
  | some q => q.carriers.find? (fun c => c.port == p &&
      ((decide (c.eaxcUl ≤ eaxc) && decide (eaxc < c.eaxcUl + c.ant)) ||
        (decide (c.eaxcRa ≤ eaxc) && decide (eaxc < c.eaxcRa + c.ant))))

-- Buckets (R481 to R485) -----------------------------------------------------------------------------------

/-- Rates and depths of a shaper (R481, R484). -/
structure Shape where
  cir : Nat
  pir : Nat
  cbs : Nat
  pbs : Nat
  ovh : Nat
  deriving DecidableEq, Repr

/-- The shape that two registers hold: a CIR above PIR is PIR (R484). -/
def shapeOf (a b : Nat) : Shape :=
  ⟨min (bitsOf a 19 0) (bitsOf a 39 20), bitsOf a 39 20, bitsOf b 23 0, bitsOf b 47 24, bitsOf b 53 48⟩

/-- Eight nanoseconds' tokens (R481). -/
def fill (h : Shape) (b : Bucket) : Bucket :=
  ⟨min (h.cbs * 4096) (b.c + 8 * h.cir), min (h.pbs * 4096) (b.p + 8 * h.pir)⟩

/-- A frame of a length has a colour: 0 red, 1 yellow, 2 green (R482). -/
def colour (h : Shape) (b : Bucket) (len : Nat) : Nat :=
  if h.pir == 0 then 2 else if b.p < len * 4096 then 0 else if b.c < len * 4096 then 1 else 2

/-- A frame is charged (R482). -/
def chargeBucket (h : Shape) (b : Bucket) (len : Nat) : Bucket :=
  if h.pir == 0 then b else ⟨if colour h b len == 2 then b.c - len * 4096 else b.c, b.p - len * 4096⟩

def portShape (s : Chip) (p q : Nat) : Shape := shapeOf (barGet s (aFH p (0x100 + 16 * q))) (barGet s (aFH p (0x108 + 16 * q)))
def policeShape (s : Chip) (p : Nat) : Shape := shapeOf (barGet s (aFH p 0x300)) (barGet s (aFH p 0x308))
def portBucket (s : Chip) (p q : Nat) : Bucket := tget (fun _ => {}) (getPort s p).shapers q
def setBucket (s : Chip) (p q : Nat) (b : Bucket) : Chip :=
  modPort s p (fun x => { x with shapers := tset (fun _ => {}) q b x.shapers })

/-- A shaper register's value with R484's limits. -/
def shapeValue (isB : Bool) (v : Nat) : Nat :=
  if isB then
    setBits (setBits (setBits (setBits 0 63 63 (bitsOf v 63 63)) 53 48 (bitsOf v 53 48)) 47 24 (max 16384 (bitsOf v 47 24)))
      23 0 (max 16384 (bitsOf v 23 0))
  else
    setBits (setBits (setBits 0 63 63 (bitsOf v 63 63)) 39 20 (min 102400 (bitsOf v 39 20))) 19 0 (min 102400 (bitsOf v 19 0))

/-- Both buckets full or empty, as TOKRST of the register written says (R483). -/
def resetBucket (h : Shape) (v : Nat) : Bucket := if bitOf v 63 then ⟨h.cbs * 4096, h.pbs * 4096⟩ else ⟨0, 0⟩

-- Heads of the queues (R480, R487) -------------------------------------------------------------------------

def nowNs (s : Chip) : Nat := tbNanos s 0

def headFrame (s : Chip) (p q : Nat) : Option EgFrame := (getPort s p).frames.find? (fun f => f.queue == q)

/-- L′ of a frame in its queue (R481). -/
def counted (s : Chip) (p : Nat) (f : EgFrame) : Nat := f.len + (portShape s p f.queue).ovh

/-- The peak bucket holds the queue's head (R482). -/
def headFits (s : Chip) (p q : Nat) : Bool :=
  match headFrame s p q with
  | none => false
  | some f => colour (portShape s p q) (portBucket s p q) (counted s p f) != 0

/-- A change of a queue's head or tokens: when its head came to be covered is noted (R487). -/
def noteFull (s0 s : Chip) (p q : Nat) : Chip :=
  if headFits s p q && !headFits s0 p q then modPort s p (fun x => { x with fullAt := tset (fun _ => 0) q (nowNs s) x.fullAt })
  else s

/-- A queue has a new head. -/
def noteHead (s : Chip) (p q : Nat) : Chip :=
  modPort s p (fun x => { x with
    headAt := tset (fun _ => 0) q (nowNs s) x.headAt
    fullAt := tset (fun _ => 0) q (nowNs s) x.fullAt })

/-- Downlink egress is withheld (R415). -/
def withheld (s : Chip) : Bool := !fbit s aSTRIKE_STATUS 1 || fbit s aSTRIKE_CTL 1 || !s.radio.running

/-- A head that may leave now: its launch time has come, its limit has not passed, its bucket holds it (R479, R482,
R415). -/
def eligible (s : Chip) (p : Nat) (f : EgFrame) : Bool :=
  decide (f.launch ≤ (nowNs s : Int)) && decide ((nowNs s : Int) ≤ f.limit) && !withheld s &&
    colour (portShape s p f.queue) (portBucket s p f.queue) (counted s p f) != 0

-- Egress rings (R476 to R479) ------------------------------------------------------------------------------

def aTXRING (p r : Nat) : Nat := aFH p (0x500 + 16 * r)

/-- Bytes in a port's egress buffer. -/
def buffered (s : Chip) (p : Nat) : Nat := ((getPort s p).frames.map (·.len)).foldl (· + ·) 0

/-- The carriers that are served (R420, R431). -/
def servedCars (s : Chip) : Nat :=
  match s.radio.plan with
  | none => 0
  | some p => if s.radio.reduced then tierCars p p.tiers else tierCars p (tierNow s)

/-- Carriers served in Strike `n`, as far as the last tier change and the pending request tell (R432, R434). -/
def carsAt (s : Chip) (p : Plan) (n : Nat) : Nat :=
  let r := s.radio
  let now := if !r.reduced && decide (n < r.since.1) then r.since.2 else servedCars s
  match r.request with
  | some q => if decide (q.effective ≤ n) then tierCars p q.target else now
  | none => now

/-- A carrier's downlink of air Strike `a` is served: it is served in every Strike of the pipeline (R434, R435). -/
def downServed (s : Chip) (p : Plan) (i a lag : Nat) : Bool :=
  decide (i < carsAt s p (a - lag - 2)) && decide (i < carsAt s p (a - lag))

/-- The exponent of a block of CI16 parts: the least that makes every part fit (R78). -/
def bfpExp (w : Nat) (l : List Int) : Nat :=
  ((List.range 16).find? (fun e => l.all (fun v =>
    decide (-(2 ^ (w - 1) : Int) ≤ v / 2 ^ e) && decide (v / 2 ^ e < (2 ^ (w - 1) : Int))))).getD 15

/-- A block compressed: exponent, mantissas of `w` bits, and clamps (R78). -/
def bfpBlock (w : Nat) (l : List Int) : Nat × List Nat × Nat :=
  let e := bfpExp w l
  let top : Int := 2 ^ (w - 1)
  let r := l.map (fun v => rneInt v e)
  (e, r.map (fun v => wrap w (max (-top) (min (top - 1) v))),
    (r.filter (fun v => decide (v < -top) || decide (top ≤ v))).length)

/-- `n` blocks of 24 parts each. -/
def bfpBlocks (w : Nat) : Nat → List Int → List (Nat × List Nat) × Nat
  | 0, _ => ([], 0)
  | n + 1, l =>
    let b := bfpBlock w (l.take 24)
    let r := bfpBlocks w n (l.drop 24)
    ((b.1, b.2.1) :: r.1, b.2.2 + r.2)

/-- Bytes of a compressed block: its exponent and 24 mantissas (R77, R469). -/
def blockBytes (w : Nat) : Nat := 1 + 3 * w

/-- Bytes of a frame's headers with its FCS: Ethernet, tag, eCPRI, and the U-plane's own (R469, R472; PRESUMED, log 12). -/
def headBytes (tag : Bool) (kind : Nat) : Nat :=
  26 + (if tag then 4 else 0) + (if kind == 1 then 8 else if kind == 2 then 6 else 0)

/-- A frame put at the end of the buffer; its queue's head may be new. -/
def pushFrame (s : Chip) (p : Nat) (f : EgFrame) : Chip :=
  let s1 := modPort s p (fun x => { x with frames := x.frames ++ [f] })
  if (headFrame s p f.queue).isNone then noteHead s1 p f.queue else s1

/-- A section's blocks in frames of at most `k` blocks each (R477). -/
def pushBlocks (p : Nat) (f : EgFrame) (k step w : Nat) : Nat → Chip → Nat → List (Nat × List Nat) → Chip
  | 0, s, _, _ => s
  | n + 1, s, at0, bs =>
    if bs.isEmpty then s
    else
      let c := bs.take k
      pushBlocks p f k step w n
        (pushFrame s p { f with start := at0, blocks := c, len := max 64 (f.len + c.length * blockBytes w) })
        (at0 + step * c.length) (bs.drop k)

/-- The parts of CI16 words, I before Q; a poisoned word is 0. -/
def ciParts : List MByte → List Int
  | a :: b :: c :: d :: r =>
    let z (x y : MByte) : Int := if x.2 || y.2 then 0 else signed 16 (x.1.toNat + 256 * y.1.toNat)
    z a b :: z c d :: ciParts r
  | _ => []

/-- An egress descriptor keeps R477. -/
def egressOk (s : Chip) (p : Nat) (d : List Byte) : Bool :=
  match s.radio.plan.bind (fun q => q.carriers[bNat d 0 2]?) with
  | none => false
  | some c =>
    let kind := bNat d 2 1
    c.port == p && decide (1 ≤ kind) && decide (kind ≤ 4) && (decide (3 ≤ kind) || kind == c.mode + 1) &&
      decide (bNat d 3 1 < c.ant) && decide (bNat d 8 1 < 14) && bZero d 9 1 && decide (bNat d 14 2 < 4096) &&
      decide (bNat d 16 8 < 2 ^ 40) && bitsOf (bNat d 16 8) 31 22 == 0 && bZero d 26 6 &&
      (if kind < 3 then decide (0 < bNat d 12 2) && (kind == 1 || bNat d 12 2 % 12 == 0)
      else decide (8 ≤ bNat d 24 2) && decide (bNat d 24 2 ≤ 8192) &&
        decide (headBytes (fbit s (aFH p (0x400 + 8 * c.peer)) 60) kind + bNat d 24 2 ≤ fget s (aFH p 0) 49 36))

/-- The frame that an egress descriptor asks for, without its payload (R477 to R479). -/
def egressFrame (s : Chip) (p : Nat) (c : Carrier) (d : List Byte) : EgFrame :=
  let kind := bNat d 2 1
  let m := (strikeOf s (bNat d 4 4)).toNat
  let air := airStart s c.scs m (bNat d 8 1)
  let up := air - ((fget s (aFH p 0) 27 26 + 1) * periodNs s : Nat) + (fget s (aFH p 0) 25 10 : Nat)
  let t := aFH p 0x18
  { queue := c.peer
    launch := if kind < 3 then up else up - (fget s t 31 0 : Nat)
    limit := air - (fget s t 63 32 : Nat)
    len := headBytes (fbit s (aFH p (0x400 + 8 * c.peer)) 60) kind
    carrier := bNat d 0 2
    kind := kind
    eaxc := ((if kind == 4 then c.eaxcRa else c.eaxcDl) + bNat d 3 1) % 2 ^ 16
    air := m
    symbol := bNat d 8 1
    start := bNat d 10 2
    blocks := []
    payload := [] }

/-- A descriptor is served (R415, R434, R437, R446, R477): nothing is sent for a carrier that is not served or an air
Strike without downlink, and a muted carrier sends zero samples. -/
def serveEgress (s : Chip) (p : Nat) (d : List Byte) : Chip :=
  match (if egressOk s p d then s.radio.plan.bind (fun q => q.carriers[bNat d 0 2]?) else none) with
  | none => portCodes s p [0x8024]
  | some c =>
    let f := egressFrame s p c d
    let l := bNat d 16 8
    let a := tileAddr (bitsOf l 39 32) (bitsOf l 21 0)
    let served := (s.radio.plan.map (fun q => downServed s q f.carrier f.air c.lag)).getD false
    if !served || s.radio.noDown.contains f.air then s
    else if 3 ≤ f.kind then
      let r := sideRead s radioCtx (2 ^ 20) a (bNat d 24 2)
      pushFrame r.1 p { f with payload := erase r.2.1, len := max 64 (f.len + bNat d 24 2) }
    else
      let n := if f.kind == 1 then bNat d 12 2 else bNat d 12 2 / 12
      let r := sideRead s radioCtx (2 ^ 20) a (48 * n)
      let parts := if s.radio.muted.contains f.carrier then List.replicate (24 * n) 0 else ciParts r.2.1
      let b := bfpBlocks c.bfpw n parts
      let k := max 1 ((fget s (aFH p 0) 49 36 - f.len) / blockBytes c.bfpw)
      pushBlocks p f k (if f.kind == 1 then 1 else 12) c.bfpw n (noteEvents r.1 0 b.2) f.start b.1

/-- Descriptors of a ring are fetched while the buffer of 4 MiB has room (R476, R478). -/
def fetchRing (p r : Nat) : Nat → Chip → Chip
  | 0, s => s
  | n + 1, s =>
    let x := getPort s p
    let owed := tget (fun _ => 0) x.owed r
    if owed == 0 || decide (4194304 ≤ buffered s p) then s
    else
      let k := barGet s (aTXRING p r)
      let h := tget (fun _ => 0) x.heads r
      let i := h % 2 ^ max 4 (min 12 (bitsOf k 59 56))
      let q := sideRead s radioCtx (2 ^ 20) (tileAddr (bitsOf k 55 48) (bitsOf k 21 0 + 32 * i)) 32
      let s1 := modPort q.1 p (fun y => { y with
        heads := tset (fun _ => 0) r ((h + 1) % 2 ^ 64) y.heads
        owed := tset (fun _ => 0) r (owed - 1) y.owed })
      fetchRing p r n (if q.2.2 != 0 || q.2.1.any (·.2) then portCodes s1 p [0x8024] else serveEgress s1 p (unmark q.2.1))

/-- A ring's trigger line has fired (R476). -/
def fireEgress (s : Chip) (p r : Nat) : Chip :=
  let x := getPort s p
  let k := barGet s (aTXRING p r)
  if portState s p != 2 || tmem x.stops r then s
  else
    let q := sideRead s radioCtx (2 ^ 20) (tileAddr (bitsOf k 55 48) (bitsOf k 43 22)) 8
    let d := (leNat (unmark q.2.1) + 2 ^ 64 - tget (fun _ => 0) x.heads r) % 2 ^ 64
    if q.2.2 != 0 || q.2.1.any (·.2) then q.1
    else if 2 ^ max 4 (min 12 (bitsOf k 59 56)) < d then
      portCodes (modPort q.1 p (fun y => { y with stops := tmark y.stops r true })) p [0x8026]
    else fetchRing p r d (modPort q.1 p (fun y => { y with owed := tset (fun _ => 0) r d y.owed }))

/-- Rings whose descriptors waited for room go on. -/
def resumeRings (s : Chip) (p : Nat) : Chip :=
  forEach (List.range 4) (fun st r => fetchRing p r (tget (fun _ => 0) (getPort st p).owed r) st) s

/-- A trigger line reaches DMA descriptors, coding rings and egress rings (R357, R450, R476). -/
def fireAll (s : Chip) (line : Nat) : Chip :=
  if line == 0 then s
  else
    forEach (List.range 32) (fun st k =>
      if fget st (aTXRING (k / 4) (k % 4)) 63 60 == line then fireEgress st (k / 4) (k % 4) else st)
      (fireCoding (fireLine s line) line)

/-- EGRESS_RING_WRITE (R476, R507). -/
def cmdEgressRingWrite (port ring : Nat) (data : Word) (s : Chip) : Out :=
  if port < 8 ∧ ring < 4 then
    .next (
      let v := data.toNat
      let k := aTXRING port ring
      let s1 := fset (fset s k 63 60 (bitsOf v 63 60)) k 59 56 (max 4 (min 12 (bitsOf v 59 56)))
      let s2 := fset (fset s1 k 55 48 (bitsOf v 55 48)) k 43 22 (bitsOf v 43 22 / 8 * 8)
      modPort (fset s2 k 21 0 (bitsOf v 21 0 / 32 * 32)) port (fun x => { x with
        heads := tset (fun _ => 0) ring 0 x.heads
        owed := tset (fun _ => 0) ring 0 x.owed
        stops := tmark x.stops ring false }))
  else .fault (.noSuchUnit "egress ring")

-- Egress (R479 to R482) ------------------------------------------------------------------------------------

/-- The frame that leaves next: of the eligible heads a green one before a yellow one, then the earliest launch, then the
lowest queue (R480). -/
def chooseFrame (s : Chip) (p : Nat) : Option EgFrame :=
  let heads := (List.range 16).filterMap (fun q => headFrame s p q)
  let ok := heads.filter (eligible s p)
  let green := ok.filter (fun f => colour (portShape s p f.queue) (portBucket s p f.queue) (counted s p f) == 2)
  let l := if green.isEmpty then ok else green
  l.foldl (fun r f =>
    match r with
    | none => some f
    | some g => if f.launch < g.launch then some f else some g) none

/-- A frame leaves the buffer. -/
def dropFrame (s : Chip) (p : Nat) (f : EgFrame) : Chip :=
  noteHead (modPort s p (fun x => { x with frames := x.frames.erase f })) p f.queue

/-- EGRESS_FRAME_START (R415, R480 to R482, R658). -/
def cmdEgressFrameStart (port : Nat) (s : Chip) : Out :=
  onPort port s (fun st =>
    if portState st port != 2 || st.boot.undervolt then st
    else
      match chooseFrame st port with
      | none => st
      | some f =>
        let b := chargeBucket (portShape st port f.queue) (portBucket st port f.queue) (counted st port f)
        let s1 := ctrAdd (setBucket st port f.queue b) 0 160 f.len
        let s2 := captureFrame s1 port false (if f.kind < 3 then 0 else 2) egressMove
        let s3 := modPort s2 port (fun x => { x with
          sent := some f
          txSeq := tset (fun _ => 0) f.eaxc ((tget (fun _ => 0) x.txSeq f.eaxc + 1) % 256) x.txSeq })
        resumeRings (rdMod (dropFrame s3 port f) (fun r => { r with flowed := true })) port)

/-- EGRESS_LATE_DISCARD (R479): the first frame of the queue whose limit has passed. -/
def cmdEgressLateDiscard (port queue : Nat) (s : Chip) : Out :=
  if port < 8 ∧ queue < 16 then
    .next (match (getPort s port).frames.find? (fun f => f.queue == queue && decide (f.limit < (nowNs s : Int))) with
      | none => s
      | some f => resumeRings (portCodes (dropFrame s port f) port [0x8022]) port)
  else .fault (.noSuchUnit "egress queue")

-- Shapers (R481 to R486) -----------------------------------------------------------------------------------

def linkShape (s : Chip) (l q : Nat) : Shape := shapeOf (barGet s (aFL_SHAPE_A l q)) (barGet s (aFL_SHAPE_B l q))
def linkBucket (s : Chip) (l q : Nat) : Bucket := tget (fun _ => {}) s.fab.buckets (16 * l + q)
def setLinkBucket (s : Chip) (l q : Nat) (b : Bucket) : Chip :=
  { s with fab := { s.fab with buckets := tset (fun _ => {}) (16 * l + q) b s.fab.buckets } }

/-- SHAPER_TICK (R481, R485, R486). -/
def cmdShaperTick (s : Chip) : Out :=
  .next (
    let s1 := forEach (List.range 8) (fun st p =>
      let u := forEach (List.range 16) (fun v q => noteFull v (setBucket v p q (fill (portShape v p q) (portBucket v p q))) p q) st
      modPort u p (fun x => { x with policer := fill (policeShape u p) x.policer })) s
    forEach (List.range 512) (fun st k => setLinkBucket st (k / 16) (k % 16) (fill (linkShape st (k / 16) (k % 16))
      (linkBucket st (k / 16) (k % 16)))) s1)

/-- SHAPER_WRITE (R483, R484, R486): a queue of a port or of a fabric link. -/
def cmdShaperWrite (fabric : Bool) (port queue : Nat) (isB : Bool) (data : Word) (s : Chip) : Out :=
  if queue < 16 ∧ port < (if fabric then 32 else 8) then
    .next (
      let v := data.toNat
      if fabric then
        let s1 := barSet s (if isB then aFL_SHAPE_B port queue else aFL_SHAPE_A port queue) (shapeValue isB v)
        setLinkBucket s1 port queue (resetBucket (linkShape s1 port queue) v)
      else
        let s1 := barSet s (aFH port ((if isB then 0x108 else 0x100) + 16 * queue)) (shapeValue isB v)
        noteFull s (setBucket s1 port queue (resetBucket (portShape s1 port queue) v)) port queue)
  else .fault (.noSuchUnit "shaper")

/-- POLICER_WRITE (R483 to R485). -/
def cmdPolicerWrite (port : Nat) (isB : Bool) (data : Word) (s : Chip) : Out :=
  onPort port s (fun st =>
    let s1 := barSet st (aFH port (if isB then 0x308 else 0x300)) (shapeValue isB data.toNat)
    modPort s1 port (fun x => { x with policer := resetBucket (policeShape s1 port) data.toNat }))

/-- A sample beside its maxima (R487): `depth` and `delay` in the register's units. -/
def putSample (s : Chip) (k depth delay : Nat) : Chip :=
  let d := min depth 0xFFFF
  let t := min delay 0xFFFF
  fset (fset (fset (fset s k 15 0 d) k 31 16 t) k 47 32 (max d (fget s k 47 32))) k 63 48 (max t (fget s k 63 48))

/-- Since when a queue's head has been eligible (R487). -/
def eligibleSince (s : Chip) (p q : Nat) (f : EgFrame) : Nat :=
  let x := getPort s p
  max f.launch.toNat (max (tget (fun _ => 0) x.headAt q) (tget (fun _ => 0) x.fullAt q))

/-- QUEUE_SAMPLE (R487). -/
def cmdQueueSample (port : Nat) (s : Chip) : Out :=
  onPort port s (fun st =>
    forEach (List.range 16) (fun u q =>
      let fs := (getPort u port).frames.filter (fun f => f.queue == q)
      let delay := match fs with
        | [] => 0
        | f :: _ => if eligible u port f then nowNs u - eligibleSince u port q f else 0
      putSample u (aFH port (0x200 + 8 * q)) (((fs.map (·.len)).foldl (· + ·) 0) / 256) (delay / 64)) st)

-- Links (R488, R507, R511) ---------------------------------------------------------------------------------

/-- Every frame of the buffer is discarded as late (R488). -/
def flushEgress (s : Chip) (p : Nat) : Chip :=
  let n := (getPort s p).frames.length
  portCodes (modPort s p (fun x => { x with frames := [], owed := [] })) p (List.replicate n 0x8022)

/-- A port that was up goes down (R488). -/
def portDown (s : Chip) (p : Nat) : Chip :=
  if portState s p != 2 then s else flushEgress (portCodes (fset s (aFH p 8) 3 0 3) p [0x8040]) p

/-- PORT_ENABLE (R507): a port trains; one that is turned off discards its frames as late. -/
def portEnable (s : Chip) (p : Nat) (on : Bool) : Chip :=
  let was := fbit s (aFH p 0) 0
  let s1 := fsetb s (aFH p 0) 0 on
  if on == was then s1
  else if on then (if fhPowered s then fset s1 (aFH p 8) 3 0 1 else s1)
  else fset (flushEgress s1 p) (aFH p 8) 3 0 0

def cmdPortEnable (port : Nat) (on : Bool) (s : Chip) : Out := onPort port s (fun st => portEnable st port on)

/-- PORT_LINK_DOWN (R488). -/
def cmdPortLinkDown (port : Nat) (s : Chip) : Out := onPort port s (fun st => portDown st port)

/-- PORT_LINK_UP (R488, R507): a port that trains, or whose link was down. -/
def cmdPortLinkUp (port : Nat) (s : Chip) : Out :=
  onPort port s (fun st =>
    when (fbit st (aFH port 0) 0 && fhPowered st && (portState st port == 1 || portState st port == 3)) st (fun u =>
      fset u (aFH port 8) 3 0 2))

-- Reception (R467 to R475, R485) ---------------------------------------------------------------------------

/-- The PTP multicast addresses (R496). -/
def ptpAddresses : List Nat := [0x011B19000000, 0x0180C200000E]

/-- The port accepts the frame (R467). -/
def frameAccepted (s : Chip) (p : Nat) (f : Frame) : Bool :=
  decide (64 ≤ f.len) && decide (f.len ≤ fget s (aFH p 0) 49 36) && decide (f.tags ≤ 1) &&
    (f.dst == fget s (aFH p 0x28) 47 0 || ptpAddresses.contains f.dst) &&
    (f.ethertype == 0xAEFE || f.ethertype == 0x88F7 || (f.ethertype == 0x8809 && f.subtype == 0x0A))

/-- Traffic of queue 0 (R480): PTP, ESMC and eCPRI message type 5. -/
def queueZero (f : Frame) : Bool :=
  f.ethertype != 0xAEFE || (match f.body with
    | .ecpri t _ _ _ => t == 5
    | _ => false)

def aRXMAP_A (p e : Nat) : Nat := aFH p (0x1000 + 16 * e)
def aRXMAP_B (p e : Nat) : Nat := aFH p (0x1008 + 16 * e)

/-- The valid steering entries of an eAxC identifier (R473). -/
def steering (s : Chip) (p eaxc : Nat) : List Nat :=
  (List.range 256).filter (fun e => fbit s (aRXMAP_A p e) 63 && fget s (aRXMAP_A p e) 47 32 == eaxc)

/-- A sequence identifier is checked against the last of its eAxC identifier (R475). -/
def seqGap (s : Chip) (p eaxc q : Nat) : Chip × Bool :=
  let last := tget (fun _ => (none : Option Nat)) (getPort s p).seqs eaxc
  (modPort s p (fun x => { x with seqs := tset (fun _ => none) eaxc (some (q % 256)) x.seqs }),
    match last with
    | none => false
    | some n => (n + 1) % 256 != q % 256)

/-- Mantissas of a block as parts, and its clamps (R79). -/
def bfpParts (w : Nat) (b : Nat × List Nat) : List Int × Nat :=
  let r := b.2.map (fun m => signed w m * 2 ^ (b.1 % 16))
  (r.map (fun v => max (-32768) (min 32767 v)), (r.filter (fun v => decide (v < -32768) || decide (32767 < v))).length)

/-- Pairs of parts as 32-bit CI16 words. -/
def ciWords : List Int → List Nat
  | i :: q :: r => (wrap 16 i + 2 ^ 16 * wrap 16 q) :: ciWords r
  | _ => []

/-- A U-plane frame (R468, R469, R472 to R475). -/
def uplaneFrame (s : Chip) (p eaxc seqId : Nat) (eBit concat timeDomain : Bool) (air sym start w : Nat)
    (blocks : List (Nat × List Nat)) : Chip :=
  let car := carrierOf s p eaxc
  let bad := !eBit || concat || !(blocks.all (fun b => b.2.length == 24)) ||
    (match car with
    | none => false
    | some c => w != c.bfpw || timeDomain != (c.mode == 1))
  let n := s.radio.number
  let es := steering s p eaxc
  let g := seqGap s p eaxc seqId
  let stops := [if n > air + 1 then 0x8020 else 0, if n + 1 < air then 0x8021 else 0, if es.isEmpty then 0x8023 else 0,
    if bad then 0x8024 else 0]
  let s1 := portCodes g.1 p (stops ++ [if g.2 then 0x8025 else 0])
  if leastCode stops != 0 then s1
  else
    let c := (car.map (·.scs)).getD 0
    let r := blocks.map (bfpParts w)
    let words := ciWords (r.flatMap (·.1))
    let s2 := noteEvents s1 0 ((r.map (·.2)).foldl (· + ·) 0)
    let j := sym - firstSymbol s c air
    let o := if timeDomain then 4 * start else 48 * start
    forEach es (fun st e =>
      let k := aRXMAP_B p e
      let a := fget st (aRXMAP_A p e) 21 0 / 64 * 64 + air % 4 * fget st k 15 0 * 64 + j * fget st k 31 16 * 64 + o
      modPort st p (fun x => { x with sections := x.sections ++ [⟨e, fget st (aRXMAP_A p e) 56 49, a, words⟩] })) s2

/-- An accepted frame reaches what it is for (R468 to R475, R494 to R497). -/
def frameBody (s : Chip) (p : Nat) (f : Frame) : Chip :=
  match f.body with
  | .uplane eaxc q eBit concat td air sym start w blocks =>
    if f.ethertype != 0xAEFE then s
    else uplaneFrame (captureFrame s p false 0 (ingressMove s p)) p eaxc q eBit concat td air sym start w blocks
  | .ecpri t eaxc q ip =>
    if f.ethertype != 0xAEFE then s
    else
      let g := seqGap (captureFrame s p false t (ingressMove s p)) p eaxc q
      portCodes g.1 p [if ip || t != 5 then 0x8024 else 0, if g.2 then 0x8025 else 0]
  | .ptp t domain fromMaster x =>
    if f.ethertype != 0x88F7 then s
    else
      let s1 := captureFrame s p true t (ingressMove s p)
      if t == 0 && fromMaster && (fget s aPTP_CTL 15 8).testBit p && domain == fget s aPTP_CTL 31 24 then ptpSync s1 p x
      else s1
  | .esmc good => if f.ethertype == 0x8809 then esmcMessage s p good else s
  | .other => if f.ethertype == 0xAEFE then portCodes s p [0x8024] else s

/-- A received frame at its port (R467, R485). -/
def frameReceived (port : Nat) (frame : Frame) (st : Chip) : Chip :=
  if portState st port != 2 then st
  else if !frame.fcsOk then portCodes st port [0x8042]
  else if !frameAccepted st port frame then fsat st (aFH port 16) 63 48 1
  else
    let s1 := ctrAdd st 0 159 frame.len
    if queueZero frame then frameBody s1 port frame
    else
      let h := policeShape s1 port
      let b := (getPort s1 port).policer
      let len := frame.len + h.ovh
      let c := colour h b len
      if c == 0 then portCodes s1 port [0x8050]
      else
        let s2 := modPort s1 port (fun x => { x with policer := chargeBucket h b len })
        frameBody (if c == 1 then fsat s2 (aFH port 16) 47 32 1 else s2) port frame

/-- INGRESS_SECTION_WRITTEN (R434, R473): the oldest section; it waits while its tile is being zeroed. -/
def cmdIngressSectionWritten (port : Nat) (s : Chip) : Out :=
  onPort port s (fun st =>
    match (getPort st port).sections with
    | [] => st
    | x :: r =>
      let s1 := modPort st port (fun y => { y with sections := r })
      match physOf st 0 x.tile with
      | none => portCount s1 port
      | some t =>
        if tileFenced st t then portCount s1 port
        else if !tileOpen st t || st.radio.toLoad.contains t then st
        else if !inBanks x.addr (4 * x.words.length) then portCount s1 port
        else
          let w := sideWrite s1 radioCtx (2 ^ 20) 0 (tileAddr x.tile x.addr) (clean (x.words.flatMap (leBytes 4)))
          retryTile (acArrive w.1 t (fget st (aRXMAP_A port x.entry) 62 57)) t)

end Sys2Proof.Machine
end

