-- ==== Sys2Proof/Machine/Watching.lean ====
section
/-! DEFINITION. The tensor-watch collector (rows 321 to 324; R113, R669 to R674, R685). -/

namespace Sys2Proof.Machine

def obMod (s : Chip) (f : Obs → Obs) : Chip := { s with obs := f s.obs }
def getWatch (s : Chip) (w : Nat) : Watch := tget (fun _ => {}) s.obs.watches w

-- Fields of an entry (R669).
def wValid (w : Watch) : Bool := bitOf (bNat w.cfg 0 1) 0
def wStats (w : Watch) : Bool := bitOf (bNat w.cfg 0 1) 1
def wIrq (w : Watch) : Bool := bitOf (bNat w.cfg 0 1) 2
def wFmt (w : Watch) : Nat := bNat w.cfg 1 1
def wRank (w : Watch) : Nat := bNat w.cfg 2 1
def wDim (w : Watch) (k : Nat) : Nat := bNat w.cfg (8 + 4 * k) 4

/-- OPEN counts the watches that hold pieces (R685). -/
def setWatch (s : Chip) (w : Nat) (x : Watch) : Chip :=
  let s1 := obMod s (fun o => { o with watches := tset (fun _ => {}) w x o.watches })
  fset s1 aTW_STATUS 10 0 (s1.obs.watches.filter (fun p => !p.2.came.isEmpty && !p.2.ended)).length

-- The result ring (R673, R674) -----------------------------------------------------------------------------

def twLog (s : Chip) : Nat := max 4 (min 16 (fget s aTW_CTL 20 16))

/-- Records that wait are written while the ring has room (R673, R674). -/
def flushResults : Nat → Chip → Chip
  | 0, s => s
  | n + 1, s =>
    match s.obs.results with
    | [] => s
    | r :: rest =>
      let tail := fget s aTW_HEAD 16 0
      if !fbit s aTW_CTL 0 || decide (2 ^ twLog s ≤ (tail + 2 ^ 17 - fget s aTW_HEAD 36 20) % 2 ^ 17) then s
      else
        let phase := b2n (tail / 2 ^ twLog s % 2 == 0)
        let bs := bSet (bSet r.2 4 1 (bNat r.2 4 1 / 2 * 2 + phase)) 48 8 (stamp s 2)
        let s1 := (spaceWrite s 16 64 0 (barGet s aTW_RING / 4096 * 4096 + 64 * (tail % 2 ^ twLog s)) (clean bs)).1
        let s2 := obMod (fset s1 aTW_HEAD 16 0 ((tail + 1) % 2 ^ 17)) (fun o => { o with results := rest })
        flushResults n (if r.1 then raiseIrq s2 0 (fget s2 aTW_CTL 15 4) else s2)

/-- A watch completes: its record, and the next tensor (R673, R674). -/
def finishWatch (s : Chip) (w status flags : Nat) (body : List Byte) (ended : Bool) : Chip :=
  let x := getWatch s w
  let fl := flags + 2 * b2n x.pz + 4 * b2n x.gap + 8 * b2n x.dup + 32 * b2n (wStats x)
  let bs := leBytes 2 w ++ leBytes 2 status ++ leBytes 1 fl ++ leBytes 3 0 ++ body ++ leBytes 8 0 ++ leBytes 8 x.seq
  let s1 := setWatch s w { cfg := x.cfg, seq := x.seq + 1, ended := ended }
  if 64 < s1.obs.results.length then fsat s1 aTW_STATUS 31 16 1
  else
    let s2 := flushResults 65 (obMod s1 (fun o => { o with results := o.results ++ [(wIrq x, bs)] }))
    if 64 < s2.obs.results.length then
      fsat (obMod s2 (fun o => { o with results := o.results.take 64 })) aTW_STATUS 31 16 1
    else s2

/-- A digest record's body (R673). -/
def digestBody (d : List Byte) : List Byte := d ++ leBytes 24 0

-- Digests (R113, R671) -------------------------------------------------------------------------------------

/-- The header of the canonical layout. -/
def layoutHeader (x : Watch) : List Byte :=
  leBytes 1 (wFmt x) ++ leBytes 1 (wRank x) ++ (List.range (wRank x)).flatMap (fun k => leBytes 4 (wDim x k))

/-- The element bytes that the dimensions give: each row ends on a whole byte. -/
def layoutBytes (x : Watch) : Nat :=
  let rows := (List.range (wRank x - 1)).foldl (fun a k => a * wDim x k) 1
  rows * canonBytes (wFmt x) (wDim x (wRank x - 1))

/-- Bytes in the reorder store of 2 MiB. -/
def storeUsed (s : Chip) : Nat :=
  (s.obs.watches.flatMap (fun p => p.2.held.map (fun h => h.2.length))).foldl (· + ·) 0

/-- Held pieces that are next in order are hashed. -/
def drainHeld : Nat → Watch → Watch
  | 0, x => x
  | n + 1, x =>
    match x.held.find? (fun h => h.1 == x.next) with
    | none => x
    | some h => drainHeld n { x with
        hashed := x.hashed ++ h.2
        next := x.next + 1
        held := x.held.filter (fun k => k.1 != h.1) }

/-- A piece reaches a digest watch (R671). -/
def digestPiece (s : Chip) (w piece : Nat) (last : Bool) (bs : List Byte) (pz : Bool) : Chip :=
  let x := getWatch s w
  let beyond := match x.last with
    | some l => decide (l < piece)
    | none => false
  if x.came.contains piece then setWatch s w { x with dup := true }
  else if beyond || (piece != x.next && decide (2097152 < storeUsed s + bs.length)) then setWatch s w { x with gap := true }
  else
    let late := last && x.held.any (fun h => decide (piece < h.1))
    let y : Watch := { x with
      came := piece :: x.came
      last := if last && x.last.isNone then some piece else x.last
      gap := x.gap || late
      pz := x.pz || pz
      total := x.total + bs.length
      held := (if last then x.held.filter (fun h => decide (h.1 < piece)) else x.held) ++ [(piece, bs)] }
    let z := drainHeld (y.held.length + 1) y
    let s1 := setWatch s w z
    match z.last with
    | none => s1
    | some l =>
      if z.next ≤ l then s1
      else finishWatch s1 w 0 (16 * b2n (z.hashed.length != layoutBytes z))
        (digestBody ((sha3 (layoutHeader z ++ z.hashed)).take 16)) false

-- Statistics (R96 to R98, R672) ----------------------------------------------------------------------------

/-- Two nodes combined, the even one left. -/
def joinStats (a b : StatNode) : StatNode :=
  { tag := tagParent a.tag
    min := (fMinMax false a.min b.min).1
    max := (fMinMax true a.max b.max).1
    nfin := a.nfin + b.nfin
    nnan := a.nnan + b.nnan
    ninf := a.ninf + b.ninf
    sum := (pAdd 0 ⟨a.sum, false⟩ ⟨b.sum, false⟩).1.v }

/-- A node meets those held; it rises with its siblings. The code of a failed check of R97, or 0. -/
def meetStats : Nat → Watch → StatNode → Watch × Nat
  | 0, x, _ => (x, 0)
  | n + 1, x, d0 =>
    let d := { d0 with tag := tagNorm d0.tag }
    let code := leastCode ((if 0 < d.tag.kind then 0x7006 else 0) ::
      (if x.came.contains (tagBits d.tag) then 0x7005 else 0) ::
      x.nodes.map (fun h => leastCode [if h.tag.rid == d.tag.rid then 0 else 0x7002,
        if h.tag.gm1 == d.tag.gm1 then 0 else 0x7003]))
    if code != 0 then (x, code)
    else
      let y := { x with came := tagBits d.tag :: x.came }
      match x.nodes.find? (fun h => tagCheck h.tag d.tag == 0) with
      | none => ({ y with nodes := y.nodes ++ [d] }, 0)
      | some h =>
        let left := if tagALeft h.tag then h else d
        let right := if tagALeft h.tag then d else h
        meetStats n { y with nodes := y.nodes.filter (fun k => k.tag != h.tag) } (joinStats left right)

/-- A statistics record's body (R672, R673). -/
def statsBody (d : StatNode) : List Byte :=
  let mean := if d.nfin == 0 then 0 else (fDiv d.sum (toF32 (.fin false d.nfin 0)).1).1
  leBytes 4 d.min ++ leBytes 4 d.max ++ leBytes 4 d.sum ++ leBytes 4 mean ++ leBytes 8 d.nfin ++ leBytes 8 d.nnan ++
    leBytes 8 d.ninf

/-- A record's body to which the manual gives no values: free ones (R671, R672, DESIGN CHOICE, log 9). -/
def freeBody (s : Chip) : Chip × List Byte :=
  ({ s with freeCtr := s.freeCtr + 1 }, (List.range 40).map (fun k => BitVec.ofNat 8 (Config.freeAt s.freeCtr k)))

/-- A piece's statistics reach their watch (R672). -/
def statsPiece (s : Chip) (w : Nat) (d : StatNode) (pz : Bool) : Chip :=
  let x := getWatch s w
  if x.ended then s
  else
    let r := meetStats 32 { x with pz := x.pz || pz } d
    if r.2 != 0 then
      let b := freeBody (setWatch s w r.1)
      finishWatch b.1 w r.2 0 b.2 true
    else
      let s1 := setWatch s w r.1
      match r.1.nodes with
      | [k] => if tagIsRoot k.tag then finishWatch s1 w 0 0 (statsBody k) false else s1
      | _ => s1

-- Commands -------------------------------------------------------------------------------------------------

/-- WATCH_WRITE (R669). -/
def cmdWatchWrite (watch : Nat) (s : Chip) : Out :=
  onUnit "watch" 1024 watch s (fun st => setWatch st watch { cfg := stageBytes st aTW_STAGE })

/-- WATCH_FLUSH (R671): an open watch is closed with a GAP result. -/
def cmdWatchFlush (watch : Nat) (s : Chip) : Out :=
  onUnit "watch" 1024 watch s (fun st =>
    let x := getWatch st watch
    if x.came.isEmpty then st
    else
      let s1 := setWatch st watch { x with gap := true }
      if wStats x then let b := freeBody s1; finishWatch b.1 watch 0 0 b.2 false
      else finishWatch s1 watch 0 (16 * b2n (x.total != layoutBytes x)) (digestBody (leBytes 16 0)) false)

/-- The watch takes a tap's pieces (R670). -/
def watchTakes (s : Chip) (p : TapPiece) (stats : Bool) : Bool :=
  let x := getWatch s p.watch
  fbit s aTW_CTL 0 && decide (p.watch < 1024) && wValid x && wStats x == stats && bNat x.cfg 3 1 % 16 == p.part

/-- TAP_PIECE_ARRIVAL (R670 to R672). -/
def cmdTapPieceArrival (id : Nat) (s : Chip) : Out :=
  .next (match s.taps.find? (fun p => p.id == id) with
    | none => s
    | some p =>
      let s1 := { s with taps := s.taps.filter (fun q => q.id != id) }
      match p.data with
      | .digest piece last bs pz =>
        if watchTakes s1 p false then digestPiece s1 p.watch piece last bs pz else fsat s1 aTW_STATUS 63 32 1
      | .stats tag mn mx nfin nnan ninf sum pz =>
        if watchTakes s1 p true then statsPiece s1 p.watch ⟨tag, mn, mx, nfin, nnan, ninf, sum⟩ pz
        else fsat s1 aTW_STATUS 63 32 1)

/-- TW_HEAD_WRITE (R674). -/
def cmdTwHeadWrite (data : Word) (s : Chip) : Out :=
  .next (flushResults 65 (fset s aTW_HEAD 36 20 (bitsOf data.toNat 36 20)))

end Sys2Proof.Machine
end

