-- ==== Sys2Proof/Machine/Snapshot.lean ====
section
/-! DEFINITION. The image of a hang snapshot (R681, R682, R684; row 331), and what STRAND_STATUS shows (R188). -/

namespace Sys2Proof.Machine

/-- The state of a strand (R184, R188). -/
def strandState (s : Chip) (t i : Nat) : Nat :=
  let x := getStrand s t i
  if !(fget s (aTILE_CTL t) 39 32).testBit i then 0
  else if x.faulted.isSome then 4
  else if fbit s (aTILE_CTL t) 1 || x.halted || x.held then 1
  else if x.wait.isSome then 3
  else 2

/-- STRAND_STATUS (R188). -/
def strandView (s : Chip) (t i : Nat) : Nat :=
  let x := getStrand s t i
  let st := strandState s t i
  let code := if st == 4 then x.faulted.getD 0 else 0
  let w := if st == 3 then (match x.wait with
    | some y => (waitCode y.kind, y.index)
    | none => (0, 0)) else (0, 0)
  code * 2 ^ 48 + st * 2 ^ 44 + w.1 * 2 ^ 40 + x.flags.toNat * 2 ^ 32 + w.2 % 256 * 2 ^ 24 + x.pc % 2 ^ 18

-- Values that the manual names and the model does not hold: credits, frames and reads in flight (R681, DESIGN CHOICE, log 9).

/-- Free value k of the image, below n. -/
def snapFree (s : Chip) (k n : Nat) : Nat := Config.freeAt s.freeCtr k % n

-- The sections (R684): each entry as numbers of 8 bytes, in the order in which R684 names its contents (DESIGN CHOICE, log 15).

def snapTiles (s : Chip) : List Nat := (List.range 144).filter (tileEnabled s)

/-- The threshold of the counter wait in a bundle (R212, R213). -/
def waitThreshold (x : Strand) : Nat :=
  (x.slots.findSome? (fun i => match i with
    | .wait _ f => some (rdS x f.ra)
    | .waitT _ f => some (rdS x f.ra)
    | _ => none)).getD 0

/-- Section 0x01: an enabled strand, and the counter on which it waits. -/
def snapStrand (s : Chip) (t i : Nat) : List Nat :=
  let x := getStrand s t i
  let w := match x.wait with
    | some y => if y.kind == .counter then [wrap 64 (acGet s t y.index), waitThreshold x] else [0, 0]
    | none => [0, 0]
  [t, i, strandView s t i] ++ w

def snapStrands (s : Chip) : List (List Nat) :=
  (snapTiles s).flatMap (fun t =>
    ((List.range 8).filter (fun i => (fget s (aTILE_CTL t) 39 32).testBit i)).map (snapStrand s t))

/-- Section 0x02. -/
def snapCounters (s : Chip) : List (List Nat) :=
  (snapTiles s).map (fun t => (List.range 64).map (fun n => wrap 64 (acGet s t n)))

/-- Section 0x03: the queues of R239, the pane streams that run (R161), late swaps. -/
def snapEngines (s : Chip) : List (List Nat) :=
  (snapTiles s).map (fun t =>
    let y := getTile s t
    [y.qMat.length, y.qBank.length, y.qFul.length, y.qComb.length, y.qMov.length, fget s (aTILE_STATUS t) 23 16] ++
      (y.streams.filter (fun p => p.2.on)).flatMap (fun p =>
        [p.1, p.2.base, p.2.pane, p.2.panes, p.2.released, p.2.whole, p.2.relw]))

/-- Section 0x04: a queue that is not off, its records that wait, and the slots of its running descriptors. -/
def snapQueues (s : Chip) : List (List Nat) :=
  (queuesWhere s (fun c => cState c != 0)).map (fun q =>
    let c := ctxPeek s q
    let l := xfersOf s q
    let run := l.filter (fun x => x.stage == .running)
    [q, cState c, cHead c, cTail c, cEngine c, cPart c, (l.filter (fun x => x.stage == .record)).length, run.length] ++
      run.map (·.slot))

/-- Section 0x05: an engine, and the partitions of its transfers that Bellows holds. -/
def snapDma (s : Chip) (e : Nat) : List Nat :=
  let n := running s e
  let busy := (s.qm.xfers.filter (fun p => p.2.any (fun x => x.engine == e && x.stage == .running))).map (fun p =>
    cPart (ctxPeek s p.1))
  let held := ((List.range 16).filter (fun p => busy.contains p && !(getPart s p).heldReq.isEmpty)).foldl (fun a p => a + 2 ^ p) 0
  [if n == 0 then 0 else snapFree s e 385, n, fget s (aDMA_ENG_STATUS e) 3 0, held]

/-- Section 0x06: a link's credits in use on each virtual channel. -/
def snapMesh (s : Chip) : List (List Nat) :=
  ((List.range 0x40C).filter (fun l => linkOf l != .none)).map (fun l =>
    l :: (List.range 3).map (fun v => snapFree s (0x1000 + 4 * l + v) (2 ^ 16)))

/-- Section 0x07: the crossbar's ports are the blocks of R34 in their order, then the edge ports; Swage commands past the
32 accepted and doorbells without a cache entry are held (R330, R358). -/
def snapCrossbar (s : Chip) : List (List Nat) :=
  (List.range 114).map (fun k =>
    let swage := if 50 ≤ k ∧ k < 82 then (getUnit s (k - 50)).queue.length - 32 else 0
    let bells := if k = 17 then s.qm.doorbells.length else 0
    [k, snapFree s (0x3000 + k) (2 ^ 16), swage, bells])

/-- Section 0x08: a unit, and the command, sender and records owed of each context. -/
def snapSwage (s : Chip) (u : Nat) : List Nat :=
  let x := getUnit s u
  let ctxs := x.ctxs.filterMap (fun p => p.2.map (fun c => (p.1, c)))
  [u, min 32 x.queue.length, ctxs.length] ++
    ctxs.flatMap (fun p => [p.1, swCmdOf p.2, p.2.sender, swOwed p.2])

/-- Section 0x09: a link's state, credits in use in each class, and frames not acknowledged. -/
def snapLink (s : Chip) (l : Nat) : List Nat :=
  [l, fget s (aFL_STATUS l) 47 44] ++ (List.range 4).map (fun v => snapFree s (0x4000 + 8 * l + v) (2 ^ 16)) ++
    [snapFree s (0x4000 + 8 * l + 4) (2 ^ 16)]

/-- Section 0x0A: a job, its fences and hot-line waits here, its requests to each rank, and those that fences cover in
each epoch. -/
def snapJob (s : Chip) (p : Nat) : List Nat :=
  let reqs := s.fab.reqs.filter (fun r => r.owner.part == p)
  let ranks := (reqs.map (·.rank)).eraseDups
  let epochs := ((reqs.filter (·.covered)).map (·.epoch)).eraseDups
  let fences := (snapTiles s).filter (fun t => tileHeld s t && tilePart s t == p)
  [p, fget s (aFJ_STATUS p) 3 0,
    (fences.flatMap (fun t => (List.range 8).filter (fun i => ((getStrand s t i).wait.map (·.kind)) == some .fence))).length,
    (s.fab.hot.filter (fun h => h.part == p)).length, ranks.length, epochs.length] ++
    ranks.flatMap (fun k => [k, (reqs.filter (fun r => r.rank == k)).length]) ++
    epochs.flatMap (fun e => [e, (reqs.filter (fun r => r.covered && r.epoch == e)).length])

/-- Section 0x0B. -/
def snapWards (s : Chip) : List (List Nat) :=
  ((List.range 4096).filter (fun w => fget s (aFW_A w) 63 62 != 0)).map (fun w =>
    [w, fget s (aFW_A w) 63 62, fget s (aFW_B w) 63 48, fget s (aFW_A w) 47 32, fget s (aFW_B w) 47 0])

/-- Section 0x0C: a partition's tokens, its requests held, and the tokens of each of its tiles. -/
def snapBellows (s : Chip) (p : Nat) : List Nat :=
  [p, bwTokens s p 0 0, bwTokens s p 1 0, (getPart s p).heldReq.length] ++
    ((snapTiles s).filter (fun t => tileHeld s t && tilePart s t == p)).flatMap (fun t => [t, bwTokens s p 2 t])

/-- The tail word of a ring that an Anvil tile holds (R450, R476). -/
def snapTail (s : Chip) (tile addr : Nat) : Nat :=
  match physOf s 0 tile with
  | some t => leNat (mread (getTile s t).mem addr 8)
  | none => 0

/-- Section 0x0D: coding rings, egress rings, Hasp rings and dirty logs: kind, number, head, tail and stop. -/
def snapRings (s : Chip) : List (List Nat) :=
  (List.range 16).map (fun k =>
    [0, k, (getRing s k).head, snapTail s (bitsOf (ringA s k) 47 40) (bitsOf (ringB s k) 43 22),
      b2n ((fget s (aCODE_STATUS (k / 8)) 15 8).testBit (k % 8))]) ++
  (List.range 32).map (fun k =>
    let x := getPort s (k / 4)
    let v := barGet s (aTXRING (k / 4) (k % 4))
    [1, k, tget (fun _ => 0) x.heads (k % 4), snapTail s (bitsOf v 55 48) (bitsOf v 43 22), b2n (tmem x.stops (k % 4))]) ++
  (List.range 32).map (fun k =>
    let h := getHasp s (k / 2)
    let ring := if k % 2 == 0 then h.toManager else h.toTenant
    let wait := if k % 2 == 0 then h.heldManager else h.heldTenant
    [2, k, 0, ring.length, b2n (!wait.isEmpty)]) ++
  (List.range 16).map (fun f =>
    [3, f, fget s (aDLOG_CTL f) 36 20, fget s (aDLOG_STATUS f) 16 0, b2n (s.mem.dlogHeld.any (fun h => h.1 == f))])

/-- Section 0x0E: STRIKE_STATUS, ac63 of each Anvil tile, and the phases of the current Strike. -/
def snapRadio (s : Chip) : List Nat :=
  let anvil := (snapTiles s).filter (tileAnvil s)
  let phases := match s.radio.plan with
    | none => []
    | some p =>
      if !s.radio.running then []
      else (List.range p.phases.length).filter (fun k =>
        (p.phases[k]?.map (fun ph => phaseOn ph (s.radio.number % p.cycle) s.radio.reduced (tierNow s))).getD false)
  [barGet s aSTRIKE_STATUS, anvil.length, phases.length] ++ anvil.flatMap (fun t => [t, wrap 64 (acGet s t 63)]) ++ phases

def snapSections (s : Chip) : List (Nat × List (List Nat)) :=
  [(1, snapStrands s), (2, snapCounters s), (3, snapEngines s), (4, snapQueues s), (5, (List.range 16).map (snapDma s)),
   (6, snapMesh s), (7, snapCrossbar s), (8, (List.range 32).map (snapSwage s)), (9, (List.range 32).map (snapLink s)),
   (10, (List.range 16).map (snapJob s)), (11, snapWards s), (12, (List.range 16).map (snapBellows s)),
   (13, snapRings s), (14, [snapRadio s])]

/-- The image cut now (R684). -/
def snapImage (s : Chip) : List Byte :=
  let secs := snapSections s
  let size (x : Nat × List (List Nat)) : Nat := 8 * ((x.2.map (·.length)).foldl max 0)
  let bodies := secs.map (fun x => x.2.flatMap (fun e => e.flatMap (leBytes 8) ++ leBytes (size x - 8 * e.length) 0))
  let head := leBytes 1 1 ++ leBytes 1 secs.length ++ leBytes 6 0 ++ leBytes 8 s.cycle ++ leBytes 8 (stamp s 2) ++ leBytes 40 0
  let table := ((List.range secs.length).zip secs).flatMap (fun x =>
    leBytes 2 x.2.1 ++ leBytes 2 (size x.2) ++ leBytes 4 x.2.2.length ++
      leBytes 8 (64 + 16 * secs.length + ((bodies.take x.1).map (·.length)).foldl (· + ·) 0))
  head ++ table ++ bodies.flatten

end Sys2Proof.Machine
end

