-- ==== Sys2Proof/Machine/Trace.lean ====
section
/-! DEFINITION. The trace unit and hang snapshots (rows 325 to 332 and 336; R675 to R683, R685). -/

namespace Sys2Proof.Machine

-- Snapshots (R681 to R683) ---------------------------------------------------------------------------------

/-- A snapshot is requested (R683): ignored outside stages 3 to 6, counted while one is in progress. -/
def snapRequest (s : Chip) : Chip :=
  if fbit s aSNAP_STATUS 0 then fsat s aSNAP_STATUS 31 16 1
  else if stageNow s < 3 ∨ 6 < stageNow s then s
  else obMod (fsetb { s with freeCtr := s.freeCtr + 1 } aSNAP_STATUS 0 true) (fun o => { o with shadow := some (snapImage s) })

/-- SNAPSHOT_REQUEST (R681, R683). -/
def cmdSnapshotRequest (s : Chip) : Out := .next (snapRequest s)

/-- SNAPSHOT_COMPLETE (R683, R685). -/
def cmdSnapshotComplete (s : Chip) : Out :=
  .next (match s.obs.shadow with
    | none => s
    | some img =>
      let s1 := (spaceWrite s 16 64 0 (barGet s aSNAP_ADDR / 4096 * 4096) (clean img)).1
      rasIrq (fsetb (fset (obMod s1 (fun o => { o with shadow := none })) aSNAP_STATUS 63 32 img.length) aSNAP_STATUS 0 false))

-- Trace (R675 to R680) -------------------------------------------------------------------------------------

def traceState (s : Chip) : Nat := fget s aTR_STATUS 2 0
def setTrace (s : Chip) (v : Nat) : Chip := fset s aTR_STATUS 2 0 v

/-- The debug domain is on (R31, R675). -/
def debugPowered (s : Chip) : Bool := domainOn s 49

/-- The time bytes of an entry (R675). -/
def traceTime (s : Chip) : List Byte :=
  let n := tbNanos s (fget s aTR_CTL 25 24)
  leBytes 4 (n % 1000000000) ++ leBytes 4 (n / 1000000000)

/-- An entry, its trigger and pre-trigger flags clear. -/
def traceBytes (time : List Byte) (cls source code part data : Nat) : List Byte :=
  time ++ leBytes 1 cls ++ leBytes 1 0 ++ leBytes 2 source ++ leBytes 2 code ++ leBytes 2 (part % 16) ++ leBytes 16 data

/-- The unit triggers (R679): only the first trigger after arming counts. -/
def traceTrigger (s : Chip) : Chip :=
  if traceState s != 1 then s
  else
    let s1 := setTrace s 2
    if fbit s aTR_CTL 2 then snapRequest s1 else s1

/-- A trigger that is no entry: the next entry written becomes the trigger entry (R679). -/
def traceTriggerNext (s : Chip) : Chip :=
  if traceState s != 1 then s else traceTrigger (obMod s (fun o => { o with trigNext := true }))

/-- An event at the trace unit (R675, R676, R679). -/
def traceEvent (s : Chip) (cls source code part data : Nat) : Chip :=
  let st := traceState s
  if !fbit s aTR_CTL 0 || !debugPowered s || !(fget s aTR_CTL 63 48).testBit cls || !(st == 1 || st == 2 || st == 5) then s
  else
    match s.obs.dropping with
    | some d => obMod s (fun o => { o with dropping := some (d.1 + 1, d.2) })
    | none =>
      if 512 ≤ s.obs.fifo.length then obMod s (fun o => { o with dropping := some (1, traceTime s) })
      else
        let b := traceBytes (traceTime s) cls source code part data
        let m := fget s aTR_TRIG 31 16
        let hit := st == 1 && (fget s aTR_TRIG 63 48).testBit cls && Nat.land code m == Nat.land (fget s aTR_TRIG 15 0) m
        let s1 := obMod s (fun o => { o with fifo := o.fifo ++ [if hit then bSet b 9 1 1 else b] })
        if hit then traceTrigger s1 else s1

/-- TRACE_ENTRY (R675, R676). -/
def cmdTraceEntry (cls source code part data : Nat) (s : Chip) : Out := .next (traceEvent s cls source code part data)

/-- TR_MARK (R675, R685). The manual gives a host write no SOURCE: a free value (DESIGN CHOICE, log 9). -/
def cmdTrMark (data : Word) (s : Chip) : Out :=
  .next (let r := freeBelow s 65536; traceEvent r.2 0x09 r.1 0 0xF data.toNat)

/-- The loss marker enters once the FIFO holds 256 or fewer (R676); its SOURCE is a free value (DESIGN CHOICE, log 9). -/
def lossMarker (s : Chip) : Chip :=
  match s.obs.dropping with
  | none => s
  | some d =>
    if 256 < s.obs.fifo.length then s
    else
      let r := freeBelow s 65536
      fsat (obMod r.2 (fun o => { o with
        dropping := none
        fifo := o.fifo ++ [traceBytes d.2 0x0F r.1 0 0xF d.1] })) aTR_STATUS 63 32 d.1

/-- An entry of the FIFO reaches the SRAM (R677 to R679). -/
def traceStore (s : Chip) (e : List Byte) : Chip :=
  if traceState s == 5 then
    let n := 2 ^ max 12 (min 30 (fget s aTR_CTL 30 26))
    let s1 := (spaceWrite s 16 64 0 (barGet s aTR_DRAIN + s.obs.streamed % n) (clean e)).1
    obMod s1 (fun o => { o with streamed := o.streamed + 32 })
  else
    let pre := fget s aTR_CTL 47 31
    if !s.obs.post.isEmpty || bitOf (bNat e 9 1) 0 || s.obs.trigNext then
      let s1 := obMod s (fun o => { o with
        post := o.post ++ [if o.trigNext then bSet e 9 1 1 else e]
        trigNext := false })
      if s1.obs.post.length + pre < 131072 then s1
      else setTrace (obMod s1 (fun o => { o with fifo := [], dropping := none })) 3
    else
      let l := s.obs.pre ++ [bSet e 9 1 2]
      let kept := l.drop (l.length - pre)
      fset (obMod s (fun o => { o with pre := kept })) aTR_STATUS 31 15 kept.length

/-- TRACE_SRAM_WRITE (R676 to R678). -/
def cmdTraceSramWrite (s : Chip) : Out :=
  .next (match s.obs.fifo with
    | [] => s
    | e :: r =>
      let s1 := traceStore (obMod s (fun o => { o with fifo := r })) e
      if traceState s1 == 3 then s1 else lossMarker s1)

/-- In STREAM mode the unit streams while EN is 1 and the debug domain is on (R677, R685; DEDUCED, log 21). -/
def traceFollow (s : Chip) : Chip :=
  let on := fbit s aTR_CTL 0 && !fbit s aTR_CTL 1 && debugPowered s
  if on && traceState s == 0 then setTrace s 5
  else if !on && traceState s == 5 then setTrace s 0
  else s

/-- ARM (R677, R680). -/
def traceArm (s : Chip) : Chip :=
  let s1 := obMod s (fun o => { o with
    fifo := [], pre := [], post := [], dropping := none, trigNext := false, streamed := 0 })
  fset (fsetb (setTrace s1 (if fbit s aTR_CTL 1 then 1 else 5 * b2n (fbit s aTR_CTL 0))) aTR_STATUS 3 false) aTR_STATUS 31 15 0

def cmdArm (s : Chip) : Out := .next (when (debugPowered s) s traceArm)

/-- TRIGGER (R679). -/
def cmdTrigger (s : Chip) : Out := .next (traceTriggerNext s)

/-- DRAIN (R680): only a frozen buffer. -/
def cmdDrain (s : Chip) : Out := .next (when (traceState s == 3) s (fun st => setTrace st 4))

/-- TRACE_DRAIN_COMPLETE (R680): the buffer is written and the unit is frozen again (DEDUCED, log 21). -/
def cmdTraceDrainComplete (s : Chip) : Out :=
  .next (when (traceState s == 4) s (fun st =>
    let s1 := (spaceWrite st 16 64 0 (barGet st aTR_DRAIN) (clean ((st.obs.pre ++ st.obs.post).flatten))).1
    setTrace (fsetb s1 aTR_STATUS 3 true) 3))

/-- The debug domain is switched off: the contents are lost (R650, R675). -/
def traceLost (s : Chip) : Chip :=
  fset (setTrace (obMod s (fun o => { o with
    fifo := [], pre := [], post := [], dropping := none, trigNext := false, streamed := 0 })) 0) aTR_STATUS 31 15 0

end Sys2Proof.Machine
end

