-- ==== Sys2Proof/Machine/Strike.lean ====
section
/-! DEFINITION. Running the Strike plan (rows 172 to 180; R44 to R46, R51, R411 to R415, R423 to R439, R446, R455 to R465,
R478, R500, R526, R527, R646). -/

namespace Sys2Proof.Machine

-- The plan's tiles (R420, R430) ----------------------------------------------------------------------------

/-- A logical tile of the plan can work: partition 0 holds it, and it is tested and not fenced. -/
def planTile (s : Chip) (l : Nat) : Bool :=
  match physOf s 0 l with
  | none => false
  | some t => tileTested s t && !tileFenced s t

/-- Free spares: spares, and tiles that came back from a test while a spare does their work (R430). -/
def freeSpares (s : Chip) (p : Plan) : List Nat :=
  let r := s.radio
  ((List.range p.nspare) ++ (r.subst.map (·.1))).filter (fun l =>
    !r.lost.contains l && !(r.subst.any (fun x => x.2 == l)) && planTile s l)

/-- The logical tile on which a tile's phases run in the running profile. -/
def runsOn (s : Chip) (l : Nat) : Nat := if s.radio.reduced then l else hostOf s.radio.subst l

/-- Every tile of the hard reserve has passed and joined and holds its kernel image; a fenced one is passed over (R464,
R465). -/
def hardReady (s : Chip) (p : Plan) : Bool :=
  (List.range (hardTop p)).all (fun l =>
    let t := placed s l
    tileFenced s t || (planTile s l && !s.radio.toLoad.contains t))

/-- A tile that replaced a lost one has passed Temper: the logical tile works again (R431). -/
def recovered (s : Chip) (l : Nat) : Bool := placed s l != s.radio.place.getD l 0xFF && planTile s l

/-- STATE, SPARES_LEFT, PENDING and TX_ON as they stand (R458). -/
def showRadio (s : Chip) : Chip :=
  let r := s.radio
  let st := if r.proving.isSome then 4 else if r.plan.isNone then 0 else if !r.running then 1 else if r.reduced then 3 else 2
  let free := match r.plan with
    | none => 0
    | some p => (freeSpares s p).length
  let k := aSTRIKE_STATUS
  fsetb (fsetb (fset (fset s k 11 8 st) k 23 16 free) k 0 r.request.isSome) k 2 (!withheld s && r.plan.isSome)

-- Job lists (R435 to R437) ---------------------------------------------------------------------------------

/-- The largest lag of the plan's carriers (R435). -/
def lagMax (p : Plan) : Nat := (p.carriers.map (·.lag)).foldl max 0

/-- The bytes of an air Strike's job list, when it is complete and sound (R436, R437). -/
def jobList (s : Chip) (p : Plan) (a : Nat) : Chip × Option (List Byte) :=
  let at0 := p.sjlBase + a % 64 * p.sjlSize
  let h := devReadChecked s 0 64 at0 64
  let b := unmark h.2.1
  let n := bNat b 4 2
  let ok := h.2.2 == 0 && !h.2.1.any (·.2) && bNat b 0 4 == a % 2 ^ 32 && bNat b 6 1 == 1 && bZero b 7 1 && decide (n ≤ 4095) &&
    decide (64 + 32 * n ≤ p.sjlSize) && bZero b 12 52
  if !ok then (h.1, none)
  else
    let r := devReadChecked h.1 0 64 at0 (64 + 32 * n)
    if r.2.2 != 0 || r.2.1.any (·.2) then (r.1, none) else (r.1, some (unmark r.2.1))

/-- The allocations of a list, 32 bytes each. -/
def allocs (l : List Byte) : List (List Byte) := (List.range (bNat l 4 2)).map (fun i => (l.drop (64 + 32 * i)).take 32)

/-- An allocation keeps R436; MOD and CARRIER have rules of their own. -/
def allocOk (e : List Byte) : Bool :=
  decide (1 ≤ bNat e 2 1) && decide (bNat e 2 1 ≤ 6) && decide (1 ≤ bNat e 3 1) && decide (bNat e 3 1 ≤ 4) &&
    decide (bNat e 11 1 < 32) && decide (bNat e 12 1 < 8)

/-- A downlink allocation. -/
def isDown (e : List Byte) : Bool := bNat e 2 1 == 2 || bNat e 2 1 == 4

/-- An allocation for air Strike `a` is ignored: a reserved constellation, or a carrier that is not served in a Strike
of its pipeline (R433 to R435, R441). -/
def allocIgnored (s : Chip) (p : Plan) (a : Nat) (e : List Byte) : Bool :=
  let c := bNat e 0 2
  match p.carriers[c]? with
  | none => true
  | some k =>
    decide (6 ≤ bNat e 10 1) || (if isDown e then !downServed s p c a k.lag
      else decide (carsAt s p a ≤ c) || decide (carsAt s p (a + 2) ≤ c))

/-- A missing report: counted and recorded (R461). -/
def missing (s : Chip) (code : Nat) : Chip := fsat (radioCode s code) aRADIO_ERR 31 16 1

/-- The check of the list whose deadline is the start of Strike `n` (R436, R437); ignored allocations are recorded, and
no register counts them. -/
def checkList (s : Chip) (p : Plan) (n : Nat) : Chip :=
  let a := n + lagMax p + 2
  let r := jobList s p a
  let bad := match r.2 with
    | none => true
    | some l => !(allocs l).all allocOk
  if bad then rdMod (missing r.1 0x5020) (fun x => { x with noDown := (a :: x.noDown).take 16 })
  else
    match r.2 with
    | none => r.1
    | some l => if (allocs l).any (allocIgnored r.1 p a) then radioCode r.1 0x5014 else r.1

/-- Downlink allocations whose deadline is the start of Strike `n` and whose transport block is missing (R437): whether
its completion record has come is a free value (DESIGN CHOICE, log 9). -/
def checkBlocks (s : Chip) (p : Plan) (n lag : Nat) : Chip :=
  let a := n + lag + 2
  if s.radio.noDown.contains a then s
  else
    let r := jobList s p a
    match r.2 with
    | none => r.1
    | some l =>
      forEach ((allocs l).filter (fun e => isDown e && !allocIgnored r.1 p a e &&
        ((p.carriers[bNat e 0 2]?).map (·.lag)).getD 0 == lag)) (fun st _ =>
          let f := freeBelow st 2
          if f.1 == 0 then f.2 else missing f.2 0x5021) r.1

/-- The mask monitor of a carrier (R446): whether a band passes its limit is a free value (DESIGN CHOICE, log 9). -/
def maskCheck (s : Chip) (c : Nat × Carrier) : Chip :=
  let f := freeBelow s 2
  if c.2.mode != 1 || c.2.nband == 0 || s.radio.muted.contains c.1 then s
  else if f.1 == 0 then rdMod f.2 (fun r => { r with maskRun := tset (fun _ => 0) c.1 0 r.maskRun })
  else
    let n := tget (fun _ => 0) s.radio.maskRun c.1 + 1
    let s1 := radioCode (rdMod f.2 (fun r => { r with maskRun := tset (fun _ => 0) c.1 n r.maskRun })) 0x5050
    if n < max 1 (fget s aSTRIKE_CTL 15 8) then s1
    else
      let s2 := rdMod s1 (fun r => { r with muted := r.muted ++ [c.1] })
      radioCode (fset s2 aRADIO_ERR 15 8 (Nat.lor (fget s2 aRADIO_ERR 15 8) (2 ^ c.2.port))) 0x5051

/-- What a running plan checks at the start of Strike `n` (R415, R437, R446). -/
def radioChecks (s : Chip) (n : Nat) : Chip :=
  match s.radio.plan with
  | none => s
  | some p =>
    if !s.radio.running then s
    else
      let s1 := checkList s p n
      let s2 := forEach ((List.range 5).filter (fun l => p.carriers.any (fun c => c.lag == l))) (fun st l => checkBlocks st p n l) s1
      let s3 := forEach (((List.range p.carriers.length).zip p.carriers).take (servedCars s2)) maskCheck s2
      if withheld s3 then radioCode s3 0x5060 else s3

-- Plan load and proof (R422 to R426, R439, R464, R465) -----------------------------------------------------

/-- A re-proof begins (R426). -/
def reprove (s : Chip) : Chip :=
  rdMod s (fun r => { r with reproving := r.reproving || (r.plan.isSome && r.running && !r.reduced) })

/-- The result of a load (R425, R459). -/
def planResult (s : Chip) (code : Nat) (f : Fit) : Chip :=
  let k := aPLAN_STATUS
  let s1 := fset (fset (fset (fset s k 63 48 code) k 47 32 f.strike) k 31 28 f.kind) k 27 12 (min f.index 0xFFFF)
  let s2 := if code == 0 then s1 else radioCode s1 code
  showRadio s2

/-- PLAN_LOAD (R423, R459): the address is taken; LOAD starts the proof unless one is in progress. -/
def cmdPlanLoad (data : Word) (s : Chip) : Out :=
  .next (
    let v := data.toNat
    let s1 := fset s aPLAN_BASE 47 12 (bitsOf v 47 12)
    if !bitOf v 0 || s.radio.proving.isSome then s1
    else showRadio (rdMod (fsetb s1 aPLAN_STATUS 0 true) (fun r => { r with proving := some (bitsOf v 47 12 * 4096) })))

/-- Groups of logical tiles `lo` up to `hi`. -/
def groupsOfTiles (s : Chip) (l : List Nat) : Nat :=
  l.foldl (fun a i => Nat.lor a (2 ^ tileGroup (placed s i))) 0

def logRange (lo hi : Nat) : List Nat := (List.range hi).filter (fun i => decide (lo ≤ i))

/-- Elastic groups: those that hold a tile above the hard reserve and none of it (R420, R513). -/
def elasticGroups (s : Chip) (p : Plan) : Nat :=
  dropBits (groupsOfTiles s (logRange (hardTop p) (tierTop p (p.tiers - 1)))) (groupsOfTiles s (List.range (hardTop p)))

/-- Claims of an accepted plan (R465): free groups of the hard reserve; those not tested go to Temper. -/
def claimGroups (s : Chip) (p : Plan) : Chip :=
  let gs := bitsBelow 36 (groupsOfTiles s (List.range (hardTop p)))
  forEach (gs.filter (groupFree s)) (fun st g =>
    let ok := (groupTiles g).all (fun t => !tileEnabled st t || tileTested st t)
    let s1 := rdMod st (fun r => { r with
      claims := Nat.lor r.claims (2 ^ g)
      joining := if ok then Nat.lor r.joining (2 ^ g) else r.joining })
    if ok then s1 else rasMod s1 (fun r => { r with wanted := r.wanted ++ [g] })) s

/-- The plan's radio-class queues are pinned (R358). -/
def pinRadio (s : Chip) : Chip :=
  let l := radioQueues s
  forEach l (fun st q => onQueue st q (fun u => u)) (qmMod s (fun m => { m with radioPins := l }))

/-- A plan takes over (R439, R464): its map is the one proved, nothing is lost or moved. -/
def usePlan (s : Chip) (p : Plan) : Chip :=
  let hold := tierNow s
  let s1 := rdMod s (fun r => { r with
    plan := some p, nextPlan := none, subst := [], lost := [], lostNow := [], reports := [], toReduced := false
    place := (getPart s 0).map, maskRun := [], noDown := [], reproving := false, since := (0, 0) })
  let s2 := fset s1 aSTRIKE_STATUS 31 24 (if s.radio.running then hold else 0)
  let ready := hardReady s2 p
  rdMod s2 (fun r => { r with startup := !ready || !r.running, reduced := !ready || !r.running })

/-- FLOOR at a plan load and a tier change (R653): the manual gives no power figures, so it is a free value (DESIGN CHOICE, log 9). -/
def setFloor (s : Chip) : Chip := let r := freeBelow s 1201; fset r.2 aPWR_LIMIT 42 32 r.1

/-- A proof has passed (R439, R465, R513, R665): claims, caps, pins, and the plan, at once or at a later Strike. -/
def acceptPlan (s : Chip) (p : Plan) : Chip :=
  let s1 := pinRadio (claimGroups s p)
  let s2 := fset s1 aANVIL_ELASTIC 35 0 (elasticGroups s1 p)
  let s3 := forEach (List.range (hardTop p)) (fun st l => fset st (aTILE_GOV (placed st l)) 15 8 125) s2
  let s4 := if s.radio.running && s.radio.plan.isSome then rdMod s3 (fun r => { r with nextPlan := some (p, r.number) })
    else usePlan s3 p
  closeSet (setFloor s4) 0 3

/-- A replacement needs tiles that the running plan does not hold, or has no current tier (R439). -/
def replacementFails (s : Chip) (p : Plan) : Option Fit :=
  if !s.radio.running || s.radio.plan.isNone then none
  else if p.tiers ≤ tierNow s then some ⟨1, 0, 0, 0⟩
  else ((List.range (tierTop p (tierNow s))).find? (fun l => !tileAnvil s (placed s l))).map (fun l => ⟨1, 0, 0, l⟩)

/-- PLAN_PROOF_COMPLETE (R416, R422, R423, R425): an accepted plan is measured into M4 (R611). -/
def cmdPlanProofComplete (s : Chip) : Out :=
  .next (match s.radio.proving with
    | none => s
    | some a =>
      let s1 := fsetb (rdMod s (fun r => { r with proving := none })) aPLAN_STATUS 0 false
      let h := devReadChecked s1 0 64 a 128
      let n := bNat (unmark h.2.1) 60 4
      let r := devReadChecked h.1 0 64 a n
      let good := h.2.2 == 0 && decide (128 ≤ n) && decide (n ≤ 2 ^ 26) && r.2.2 == 0 && !r.2.1.any (·.2) && granted s1 0 a n
      let q := if good then readPlan (unmark r.2.1) else (none, 0x5001)
      match q.1 with
      | none => planResult r.1 q.2 ⟨0, 0, 0, 0⟩
      | some p =>
        match firstFit ((prove r.1 p).toList ++ (replacementFails r.1 p).toList) with
        | some f => planResult r.1 0x5003 f
        | none =>
          let check := ((unmark r.2.1).drop 64).take 8
          planResult (extendM (acceptPlan r.1 p) 4 (check ++ List.replicate 24 0#8)) 0 ⟨0, 0, 0, 0⟩)

/-- The re-proof of the current tier (R426): its tiles that are not lost, the substitutions that stand, and each free
spare for each working tile. -/
def reproofFails (s : Chip) (p : Plan) : Option Fit :=
  let r := s.radio
  let t := tierNow s
  let cfgs := ⟨false, t, r.subst⟩ :: swaps p t r.subst (freeSpares s p)
  let tiles := (List.range (tierTop p t)).filter (fun l =>
    !r.lost.contains l && !(r.subst.any (fun x => x.1 == l)) && !planTile s l)
  firstFit (tiles.map (fun i => ⟨1, 0, 0, i⟩) ++ cfgFits s p cfgs ++ planFits s p)

/-- PLAN_REPROOF_COMPLETE (R426): a failure enters the reduced profile at the next boundary. -/
def cmdPlanReproofComplete (s : Chip) : Out :=
  .next (match s.radio.plan with
    | none => rdMod s (fun r => { r with reproving := false })
    | some p =>
      if !s.radio.reproving then s
      else
        let bad := (reproofFails s p).isSome
        rdMod s (fun r => { r with
          reproving := false, toReduced := r.toReduced || bad, rebind := if bad then [] else r.rebind }))

-- Tier requests (R432, R433) -------------------------------------------------------------------------------

/-- The tiles of a tier that would be without a working host. -/
def unhosted (s : Chip) (p : Plan) (t : Nat) : List Nat :=
  (logRange p.nspare (tierTop p t)).filter (fun l =>
    let h := hostOf s.radio.subst l
    (s.radio.lost.contains h && !recovered s h) || tileFenced s (placed s h))

/-- The code with which a request is refused, 0 when it is accepted (R432, R433). -/
def tierCode (s : Chip) (p : Plan) (target : Nat) (e : Int) : Nat :=
  let r := s.radio
  let up := r.reduced || decide (tierNow s < target)
  let elastic := logRange (hardTop p) (tierTop p target)
  let out := unhosted s p target
  leastCode [
    if e < (r.number : Int) + (if up then quenchLead s + 1 else 1 : Nat) then 0x5010 else 0,
    if r.request.isSome then 0x5011 else 0,
    if p.tiers ≤ target then 0x5012 else 0,
    if (!r.reduced && !out.isEmpty) || elastic.any (fun l => !tileTested s (placed s l)) then 0x5012 else 0,
    if r.reduced && decide ((freeSpares s p).length ≤ out.length) then 0x5012 else 0]

/-- A request is accepted (R432, R433, R521, R528): moves of the groups are cancelled, and the partitions that hold them
are told. -/
def takeTier (s : Chip) (p : Plan) (target e : Nat) : Chip :=
  let top := tierTop p target
  let want := (bitsBelow 36 (groupsOfTiles s (logRange (hardTop p) top))).foldl (fun a g =>
    if (heldGroups s 0).testBit g then a else a + 2 ^ g) 0
  let keep := groupsOfTiles s (List.range top)
  let leave := if tierNow s ≤ target then 0
    else dropBits (groupsOfTiles s (logRange top (tierTop p (tierNow s)))) keep
  let s1 := if want == 0 then s else cancelMoves s want 0x4013
  let s2 := forEach (List.range 16) (fun st q =>
    let both := Nat.land (heldGroups st q) want
    if q == 0 || both == 0 then st else announce st q .radio both (e - 1) 0) s1
  showRadio (rdMod s2 (fun r => { r with request := some ⟨target, e, want, leave, false⟩ }))

/-- TIER_REQ (R432, R433, R459). Without a running plan no tier is available (DEDUCED, log 21). -/
def cmdTierReq (data : Word) (s : Chip) : Out :=
  .next (
    let v := data.toNat
    let s1 := fset (fset s aTIER_REQ 63 56 (bitsOf v 63 56)) aTIER_REQ 31 0 (bitsOf v 31 0)
    let e := strikeOf s1 (bitsOf v 31 0)
    match s1.radio.plan with
    | none => radioCode s1 (if s1.radio.request.isSome then 0x5011 else 0x5012)
    | some p =>
      if !s1.radio.running then radioCode s1 (if s1.radio.request.isSome then 0x5011 else 0x5012)
      else
        let code := tierCode s1 p (bitsOf v 63 56) e
        if code != 0 then radioCode s1 code else takeTier s1 p (bitsOf v 63 56) e.toNat)

-- Boundaries -----------------------------------------------------------------------------------------------

/-- Detours and edge substitutions of links marked since the last boundary (R44 to R46, R51); a crossing that is now two
rows or more away, and a substitution, have the plan proved again (R46, R426). -/
def meshBoundary (s : Chip) : Chip :=
  let s1 := forEach s.mesh.due (fun st n =>
    match linkOf n with
    | .knuckle y => fset st aMESH_STATUS 35 24 (Nat.lor (fget st aMESH_STATUS 35 24) (2 ^ y))
    | _ => st) s
  let failed := fget s1 aMESH_STATUS 47 36
  let s2 := meshMod s1 (fun m => { m with
    due := []
    port := (List.range 12).foldl (fun t x => tset (fun k => k) x ((portFor failed x).getD x) t) m.port })
  let far := (List.range 12).any (fun y => crossRow s2 y != crossRow s y &&
    (match crossRow s2 y with
    | none => true
    | some r => decide (2 ≤ apart y r)))
  let edge := s.mesh.due.any (fun n => match linkOf n with
    | .edge _ => true
    | _ => false)
  if far || edge then reprove s2 else s2

/-- Tiles that joined the Anvil partition receive their kernel images once they are zeroed, and run (R430, R432). -/
def loadJoined (s : Chip) : Chip :=
  let l := s.radio.toLoad.filter (tileOpen s)
  if l.isEmpty then s
  else
    let s1 := rdMod s (fun r => { r with toLoad := r.toLoad.filter (fun t => !l.contains t) })
    match (getPart s1 0).prog with
    | none => s1
    | some g =>
      let h := hearthRead s1 0 g.addr 64
      let b := hearthRead h.1 0 g.addr (Config.progField 5 h.2.1)
      let m := (getPart s1 0).map
      forEach l (fun st t =>
        match m.findIdx? (· == t) with
        | none => st
        | some i =>
          let u := loadTile t i b.2.1 st
          if partState u 0 == 3 then haltTile u t false else u) b.1

/-- Groups join the Anvil partition at a boundary: zeroed, and to be loaded. -/
def joinAnvil (s : Chip) (gs : Nat) : Chip :=
  if gs == 0 then s
  else
    let s1 := forEach (tilesOfGroups gs) cleanTile (joinPart s 0 gs)
    rdMod s1 (fun r => { r with toLoad := r.toLoad ++ (tilesOfGroups gs).filter (tileEnabled s1) })

/-- Claimed groups whose test has passed join, whether or not Strikes run (R465). -/
def claimBoundary (s : Chip) : Chip :=
  let gs := s.radio.joining
  joinAnvil (rdMod s (fun r => { r with joining := 0, claims := dropBits r.claims gs })) gs

/-- Temper's groups whose test has passed return, their logical indices restored; the Anvil partition's tiles go back to
the spare pool (R430, R527). -/
def returnTests (s : Chip) : Chip :=
  forEach (s.ras.tests.filter (·.back)) (fun st x =>
    let s1 := rasMod st (fun r => { r with tests := r.tests.filter (fun y => y.group != x.group) })
    if 16 ≤ x.part then s1
    else
      let s2 := modPart s1 x.part (fun y => { y with
        map := (List.range y.map.length).map (fun l => ((x.away.find? (fun a => a.1 == l)).map (·.2)).getD (y.map.getD l 0xFF)) })
      let lt := x.away.foldl (fun a w => a + 2 ^ w.1) 0
      if x.part == 0 then
        rdMod s2 (fun r => { r with
          lost := r.lost.filter (fun l => !(x.away.any (fun w => w.1 == l)))
          toLoad := r.toLoad ++ (groupTiles x.group).filter (tileEnabled s2) })
      else
        let s3 := notice s2 x.part 4 3 0 lt
        if partState s3 x.part == 3 then forEach (groupTiles x.group) (fun u t => haltTile u t false) s3 else s3) s

/-- ENABLE takes effect (R457). -/
def enableBoundary (s : Chip) : Chip :=
  let on := fbit s aSTRIKE_CTL 0 && s.radio.plan.isSome && stageNow s != 0xF
  rdMod s (fun r => { r with running := on })

/-- A replacement takes effect (R439). -/
def replaceBoundary (s : Chip) (n : Nat) : Chip :=
  match s.radio.nextPlan with
  | none => s
  | some (p, a) => if n % p.cycle == 0 && decide (a + 16 ≤ n) then closeOnce s (usePlan s p) 0 3 else s

/-- The reduced profile is entered (R431). -/
def enterReduced (s : Chip) : Chip :=
  if s.radio.reduced then s else radioCode (rdMod s (fun r => { r with reduced := true })) 0x5033

/-- The full profile begins at tier 0 once the hard reserve is ready (R464). -/
def startupBoundary (s : Chip) : Chip :=
  match s.radio.plan with
  | none => s
  | some p =>
    if s.radio.running && s.radio.startup && hardReady s p then
      rdMod s (fun r => { r with startup := false, reduced := false })
    else s

/-- A working tile's phases move to the lowest free spare, or the reduced profile is entered (R430, R431). -/
def replaceTile (p : Plan) (s : Chip) (l : Nat) : Chip :=
  let w := ((s.radio.subst.find? (fun x => x.2 == l)).map (·.1)).getD l
  if s.radio.reduced || decide (w < p.nspare) || decide (tierTop p (tierNow s) ≤ w) || hostOf s.radio.subst w != l then s
  else
    match (freeSpares s p).head? with
    | none => enterReduced s
    | some x => radioCode (fsat (rdMod s (fun r => { r with
        subst := (w, x) :: r.subst.filter (fun y => y.1 != w) })) aRADIO_ERR 7 0 1) 0x5032

/-- Losses since the last boundary (R426, R430, R431). -/
def lossBoundary (s : Chip) : Chip :=
  match s.radio.plan with
  | none => rdMod s (fun r => { r with lostNow := [] })
  | some p =>
    if s.radio.lostNow.isEmpty then s
    else reprove (forEach s.radio.lostNow (replaceTile p) (rdMod s (fun r => { r with lostNow := [] })))

/-- Tiles of a tier restored from the reduced profile that need a spare take one (R433). -/
def rehost (p : Plan) (s : Chip) (l : Nat) : Chip :=
  match (freeSpares s p).head? with
  | none => s
  | some x => rdMod s (fun r => { r with subst := (l, x) :: r.subst.filter (fun y => y.1 != l) })

/-- A tier request at the boundary that begins Strike n (R432, R433, R665). -/
def tierBoundary (s : Chip) (n : Nat) : Chip :=
  match s.radio.request, s.radio.plan with
  | some q, some p =>
    let s1 := if !q.taken && decide (q.effective ≤ n + 1) then
        let free := (bitsBelow 36 q.join).foldl (fun a g => if groupFree s g then a + 2 ^ g else a) 0
        let u := joinAnvil s free
        rdMod u (fun r => { r with
          request := some { q with taken := true }
          toLoad := r.toLoad ++ (tilesOfGroups (dropBits q.join free)).filter (tileEnabled u) })
      else s
    if n < q.effective then s1
    else
      let s2 := if q.leave == 0 then s1 else passGroups s1 0 q.leave 0x10
      let back := (logRange p.nspare (tierTop p q.target)).filter (recovered s2)
      let s3 := rdMod s2 (fun r => { r with request := none, lost := r.lost.filter (fun l => !back.contains l) })
      let s4 := forEach (unhosted s3 p q.target) (rehost p) s3
      let ok := (unhosted s4 p q.target).isEmpty || !s4.radio.reduced
      let s5 := if ok then
          fset (rdMod s4 (fun r => { r with reduced := false, startup := false, since := (q.effective, servedCars s) }))
            aSTRIKE_STATUS 31 24 q.target
        else s4
      closeOnce s (setFloor s5) 0 3
  | _, _ => s

/-- A step of the radio base applied at a boundary (R500): numbers are skipped, and work for them is dropped. -/
def stepBoundary (s : Chip) : Chip :=
  match s.radio.pendingStep with
  | none => rdMod s (fun r => { r with number := r.number + 1 })
  | some d =>
    let s1 := tbStep (rdMod s (fun r => { r with pendingStep := none })) 0 d
    let n := cdiv (nowNs s1 - fget s1 aSTRIKE_ALIGN 31 0) (periodNs s1)
    let s2 := forEach (List.range 8) (fun st p => modPort st p (fun x => { x with sections := [] })) s1
    let s3 := timeCode s2 0x8006
    let skipped := match s.radio.request with
      | none => false
      | some q => decide (s.radio.number < q.effective) && decide (q.effective < n)
    let s4 := if skipped then radioCode (rdMod s3 (fun r => { r with request := none })) 0x5012 else s3
    rdMod s4 (fun r => { r with number := n, since := (0, 0) })

/-- Sets that close at every EVERY-th boundary (R665). -/
def autoClose (s0 s : Chip) (n : Nat) : Chip :=
  forEach (List.range 17) (fun st p =>
    if fbit st (aCTR_AUTO p) 0 && n % max 1 (fget st (aCTR_AUTO p) 31 16) == 0 then closeOnce s0 st p 4 else st) s

/-- The work of a boundary (R412, R426 to R439, R464, R465, R526): no Strike event follows a fatal error (R601). -/
def strikeBoundary (s : Chip) : Chip :=
  when (stageNow s != 0xF) s (fun s0 =>
    let s1 := stepBoundary s0
    let n := s1.radio.number
    let s2 := meshBoundary (fset s1 aSTRIKE_STATUS 63 32 n)
    let s3 := enableBoundary (returnTests (claimBoundary (loadJoined s2)))
    let s4 := startupBoundary (replaceBoundary s3 n)
    let s5 := if s4.radio.toReduced then enterReduced (rdMod s4 (fun r => { r with toReduced := false })) else s4
    let s6 := lossBoundary (tierBoundary s5 n)
    let s7 := quenchBoundary s6 n
    let s8 := forEach (List.range 16) (runBoundary n) (forEach (List.range 16) joinBoundary s7)
    let s9 := radioChecks (rebindRings (bellowsBoundary s8 n)) n
    showRadio (autoClose s0 s9 n))

-- Phases (R427 to R429, R438) ------------------------------------------------------------------------------

/-- The phase of a number, when it is active in the current Strike, and its tile. -/
def phaseHere (s : Chip) (k : Nat) : Option (Phase × Nat) :=
  match s.radio.plan with
  | none => none
  | some p =>
    match p.phases[k]? with
    | none => none
    | some ph =>
      if !s.radio.running || !phaseOn ph (s.radio.number % p.cycle) s.radio.reduced (tierNow s) then none
      else
        let h := runsOn s ph.tile
        if s.radio.lost.contains h then none
        else (physOf s 0 h).bind (fun t => if tileFenced s t then none else some (ph, t))

/-- A steering entry of a port in use decrements a counter of the tile (R438, R473). -/
def fedByPorts (s : Chip) (t n : Nat) : Bool :=
  (List.range 2048).any (fun k =>
    let a := aRXMAP_A (k / 256) (k % 256)
    fbit s a 63 && fget s a 62 57 == n && physOf s 0 (fget s a 56 49) == some t)

/-- PHASE_START (R427, R438). A counter that the ports feed and that is above 0 after the start shows symbols missing
(DEDUCED, log 21). -/
def cmdPhaseStart (phase : Nat) (s : Chip) : Out :=
  .next (match phaseHere s phase with
    | none => s
    | some (ph, t) =>
      let s1 := acArrive (acSet s t 63 1) t ph.startCnt
      let s2 := if decide (0 < acGet s1 t ph.startCnt) && fedByPorts s1 t ph.startCnt then missing s1 0x5022 else s1
      forEach ((List.range 16).filter (fun k => k != 0 && ph.trig.testBit k)) fireAll (retryTile s2 t))

/-- PHASE_DEADLINE (R428). -/
def cmdPhaseDeadline (phase : Nat) (s : Chip) : Out :=
  .next (match phaseHere s phase with
    | none => s
    | some (_, t) => if 0 < acGet s t 63 then lateReport s t 0x5030 else s)

-- Controls (R446, R457, R461, R478) ------------------------------------------------------------------------

/-- STRIKE_CTL.ENABLE written (R457, R478). -/
def strikeEnable (s : Chip) (on : Bool) : Chip :=
  if !on then fsetb s aSTRIKE_CTL 0 false
  else
    let bad := match s.radio.plan with
      | none => none
      | some p => (List.range p.carriers.length).find? (fun i => ((p.carriers[i]?).map (fun c => !lagOk s c)).getD false)
    match bad with
    | some i => if fbit s aSTRIKE_CTL 0 then s else planResult s 0x5003 ⟨7, 0, 0, i⟩
    | none =>
      if fbit s aSTRIKE_CTL 0 then s else fsetb (rdMod s (fun r => { r with flowed := false })) aSTRIKE_CTL 0 true

/-- STRIKE_ENABLE (R457). -/
def cmdStrikeEnable (on : Bool) (s : Chip) : Out := .next (strikeEnable s on)

/-- UNMUTE (R446, R461). -/
def cmdUnmute (ports : Nat) (s : Chip) : Out :=
  .next (
    let left := (bitsBelow 8 (fget s aRADIO_ERR 15 8)).foldl (fun a k => if ports.testBit k then a else a + 2 ^ k) 0
    let cs := match s.radio.plan with
      | none => []
      | some p => (List.range p.carriers.length).filter (fun i => ((p.carriers[i]?).map (fun (c : Carrier) => ports.testBit c.port)).getD false)
    rdMod (fset s aRADIO_ERR 15 8 left) (fun r => { r with
      muted := r.muted.filter (fun c => !cs.contains c)
      maskRun := r.maskRun.filter (fun x => !cs.contains x.1) }))

end Sys2Proof.Machine
end

