-- ==== Sys2Proof/Machine/Time.lean ====
section
/-! DEFINITION. Writes and reads of the time bases, time triggers, captures, and the pins of time (R489 to R508). -/

namespace Sys2Proof.Machine

/-- Step and frequency writes to a base are allowed (R490). -/
def baseFree (s : Chip) (b : Nat) : Bool :=
  if b == 0 then !fbit s aPTP_CTL 0 && !fbit s aSTRIKE_CTL 0
  else if b == 1 then !fbit s aFAB_TIME 0
  else b == 2

-- Time triggers (R502, R503) -----------------------------------------------------------------------------------

def onTrigger (i : Nat) (s : Chip) (f : Chip → Chip) : Out := onUnit "trigger" 16 i s f

/-- The target of a trigger in units of 2^-34 ns (R508). -/
def ttTarget (s : Chip) (i : Nat) : Nat := tvOf (barGet s (aTT_CTL i + 8)) (barGet s (aTT_CTL i + 16))

/-- The base of a trigger, as it stands (R502). -/
def ttNow (s : Chip) (i : Nat) : Nat := tbGet s (fget s (aTT_CTL i) 61 60)

/-- The period of a trigger (R508): smaller values set 1,000 ns. -/
def ttPeriod (s : Chip) (i : Nat) : Nat := max 1000 (fget s (aTT_CTL i + 24) 47 0) * 2 ^ 34

/-- The actions that TT_CTL selects (R502). -/
def ttActions (s : Chip) (i : Nat) : Chip :=
  let k := aTT_CTL i
  let s1 := forEach (List.range 15) (fun st n => if (fget s k 59 45).testBit n then fireAll st (n + 1) else st) s
  let s2 := when (fbit s k 44) s1 traceTriggerNext
  let s3 := forEach (List.range 2) (fun st n =>
    if (fget s k 43 42).testBit n then tmMod st (fun t => { t with outs := tset (fun _ => false) n true t.outs }) else st) s2
  when (fbit s k 41) s3 (fun st => strikeEnable st true)

/-- What follows the actions (R502, R503): a periodic trigger moves to the first period still ahead, and the periods
it passed over are counted; a one-shot trigger is disarmed. -/
def ttNext (s : Chip) (i : Nat) : Chip :=
  let k := aTT_CTL i
  if !fbit s k 62 then fsetb s k 63 false
  else
    let n := (ttNow s i - ttTarget s i) / ttPeriod s i
    let t := (ttTarget s i + (n + 1) * ttPeriod s i) % tvMod
    let s1 := barSet (barSet s (k + 8) (tvSec t)) (k + 16) (tvNsf t)
    if n == 0 then s1 else timeCode (fsat s1 k 31 16 n) 0x8011

/-- A trigger fires (R502, R503). -/
def ttFire (s : Chip) (i : Nat) : Chip := ttNext (ttActions (fsat s (aTT_CTL i) 15 0 1) i) i

/-- A trigger fires late (R503). -/
def ttLate (s : Chip) (i : Nat) : Chip := ttFire (timeCode s 0x8010) i

/-- The bases were stepped from one state to the other: each armed trigger whose target was stepped over fires at once
(R503). -/
def stepsOver (old s : Chip) : Chip :=
  forEach (List.range 16) (fun st i =>
    if fbit old (aTT_CTL i) 63 && fbit s (aTT_CTL i) 63 && decide (ttNow old i < ttTarget old i ∧ ttTarget st i ≤ ttNow st i)
    then ttLate st i else st) s

/-- A write of TT_CTL's control fields arms the trigger or disarms it (R503, R508). -/
def armTrigger (s : Chip) (i : Nat) (data : Word) : Chip :=
  let k := aTT_CTL i
  let s1 := fset s k 63 41 (bitsOf data.toNat 63 41)
  if fbit s1 k 63 && decide (ttTarget s1 i < ttNow s1 i) then ttLate s1 i else s1

/-- TIME_TRIGGER_ARM (R503). -/
def cmdTimeTriggerArm (trigger : Nat) (data : Word) (s : Chip) : Out :=
  onTrigger trigger s (fun st => armTrigger st trigger data)

/-- TIME_TRIGGER_FIRE (R502): a trigger that is armed and whose base has come to its target. -/
def cmdTimeTriggerFire (trigger : Nat) (s : Chip) : Out :=
  onTrigger trigger s (fun s0 =>
    when (fbit s0 (aTT_CTL trigger) 63 && decide (ttTarget s0 trigger ≤ ttNow s0 trigger)) s0 (fun st => ttFire st trigger))

/-- TIME_OUT_PULSE_END (R502). -/
def cmdTimeOutPulseEnd (pin : Nat) (s : Chip) : Out :=
  onUnit "pin" 2 pin s (fun st => tmMod st (fun t => { t with outs := tset (fun _ => false) pin false t.outs }))

-- Time bases (R490 to R492) ------------------------------------------------------------------------------------

def onBase (b : Nat) (s : Chip) (f : Chip → Chip) : Out := onUnit "time base" 4 b s f

/-- A write of TB_STEP (R490, R491, R503). -/
def writeStep (s : Chip) (b : Nat) (data : Word) : Chip :=
  if baseFree s b then stepsOver s (tbStep s b data.toInt) else timeCode s 0x8005

/-- A write of TB_FREQ (R490, R491): held within ±100 ppm. -/
def writeFreq (s : Chip) (b : Nat) (data : Word) : Chip :=
  if baseFree s b then
    fset s (aTB b 0x18) 31 0 (wrap 32 (max (-429497) (min 429497 (signed 32 data.toNat))))
  else timeCode s 0x8005

/-- TIME_BASE_STEP (R491). -/
def cmdTimeBaseStep (base : Nat) (data : Word) (s : Chip) : Out := onBase base s (fun st => writeStep st base data)

/-- TIME_BASE_FREQ_WRITE (R491). -/
def cmdTimeBaseFreqWrite (base : Nat) (data : Word) (s : Chip) : Out := onBase base s (fun st => writeFreq st base data)

/-- A read of TB_SEC by a function (R492, R23): the nanoseconds and fraction of that moment are latched for its next
read of TB_NSF. -/
def readSec (s : Chip) (fn b : Nat) : Chip :=
  let v := tbGet s b
  { s with resp := BitVec.ofNat 64 (tvSec v), latch := tset (fun _ => none) (barKey fn (aTB b 8)) (some (tvNsf v)) s.latch }

/-- TB_SEC_READ (R492): refused to a virtual function (R24, R540). -/
def cmdTbSecRead (fn base : Nat) (s : Chip) : Out :=
  if fn < 64 ∧ base < 4 then
    .next (if fn == 0 then readSec s fn base else { fsat s aRAS_STATUS 31 0 1 with resp := BitVec.allOnes 64 })
  else .fault (.noSuchUnit "time base")

/-- All four bases captured at once (R492). -/
def snapBases (s : Chip) : Chip :=
  forEach (List.range 4) (fun st b => barSet (barSet st (aTB b 0x20) (tvSec (tbGet st b))) (aTB b 0x28) (tvNsf (tbGet st b))) s

/-- TIME_SNAPSHOT (R492). -/
def cmdTimeSnapshot (s : Chip) : Out := .next (snapBases s)

-- Captures (R504, R505) ----------------------------------------------------------------------------------------

/-- TIME_IN_EDGE (R504, R505, R714): each unit's stamp lies within ±2 ns of the edge, by a free amount (DESIGN CHOICE, log 9). -/
def cmdTimeInEdge (pin : Nat) (rising : Bool) (s : Chip) : Out :=
  onUnit "pin" 4 pin s (fun st =>
    let r := freeBelow (fsetb st aPKG_PINS (4 + pin) rising) (2 ^ 36 + 1)
    captureEvent r.2 (if rising then 3 else 4) pin (fun _ _ => true) ((r.1 : Int) - 2 ^ 35))

/-- A read of TC_NSF (R504): the stamp is returned and the unit re-armed. -/
def readCapture (s : Chip) (j : Nat) : Chip :=
  fsetb { s with resp := BitVec.ofNat 64 (barGet s (aTC_CTL j + 16)) } (aTC_CTL j) 44 false

/-- CAPTURE_READ (R504). -/
def cmdCaptureRead (unit : Nat) (s : Chip) : Out := onUnit "capture unit" 16 unit s (fun st => readCapture st unit)

-- PTP messages sent (R495, R496) -------------------------------------------------------------------------------

/-- Message types that a port sends (R496): Delay_Req on the slave, Sync, Delay_Resp and Announce on a master. -/
def ptpSends (s : Chip) (p t : Nat) : Bool :=
  if fget s aPTP_STATUS 15 12 == p then t == 1 else [0, 9, 0xB].contains t

/-- Bytes of a PTP message's frame (PRESUMED, log 12). -/
def ptpLen (t : Nat) : Nat := if t == 0xB then 82 else if t == 9 then 72 else 64

/-- PTP_MESSAGE_TRANSMIT (R480 to R482, R494 to R496): through queue 0 of the port. -/
def cmdPtpMessageTransmit (port msgType : Nat) (s : Chip) : Out :=
  onPort port s (fun st =>
    let h := portShape st port 0
    let n := ptpLen msgType + h.ovh
    if portState st port != 2 || st.boot.undervolt || !(fget st aPTP_CTL 15 8).testBit port || !ptpSends st port msgType ||
        colour h (portBucket st port 0) n == 0 then st
    else
      captureFrame (ctrAdd (setBucket st port 0 (chargeBucket h (portBucket st port 0) n)) 0 160 (ptpLen msgType)) port true
        msgType egressMove)

-- Events that may step a base ----------------------------------------------------------------------------------

/-- FRAME_RECEIVED (R467, R485, R503). -/
def cmdFrameReceived (port : Nat) (frame : Frame) (s : Chip) : Out :=
  onPort port s (fun st => stepsOver st (frameReceived port frame st))

end Sys2Proof.Machine
end

