-- ==== Sys2Proof/Machine/Links.lean ====
section
/-! DEFINITION. Fabric links, the link map and the route epoch (R557 to R563, R572, R573, R575, R584; rows 244 to 254,
257 and 335). -/

namespace Sys2Proof.Machine

def fabMod (s : Chip) (f : Fab → Fab) : Chip := { s with fab := f s.fab }

/-- The most recent fabric-class code (R596). -/
def fabCode (s : Chip) (code : Nat) : Chip := fset s aFAB_STATUS 63 48 code

/-- A reported fabric event: the code, and the vector of FAB_CTL (R595, R596). -/
def fabEvent (s : Chip) (code : Nat) : Chip := raiseIrq (fabCode s code) 0 (fget s aFAB_CTL 15 4)

/-- A reported code of a link. -/
def linkEvent (s : Chip) (l code : Nat) : Chip := fabEvent (fset s (aFL_STATUS l) 63 48 code) code

def linkState (s : Chip) (l : Nat) : Nat := fget s (aFL_STATUS l) 47 44

/-- The link is up, at full or half rate (R597). -/
def linkIsUp (s : Chip) (l : Nat) : Bool := linkState s l == 2 || linkState s l == 3

/-- The optical link group of a link is switched on (R557, R650). -/
def linkPowered (s : Chip) (l : Nat) : Bool := domainOn s (42 + l / 8)

def linksWhere (f : Nat → Bool) : Nat := ((List.range 32).filter f).length

/-- LINKS_UP, LINKS_HALF, SPARE_WL and SPARE_FIBRE as they stand (R596). -/
def countLinks (s : Chip) : Chip :=
  let k := aFAB_STATUS
  fset (fset (fset (fset s k 39 32 (linksWhere (linkIsUp s))) k 31 24 (linksWhere (fun l => linkState s l == 3)))
    k 23 16 (linksWhere (fun l => linkIsUp s l && fget s (aFL_STATUS l) 31 28 != 0xF)))
    k 15 8 (((List.range 8).filter (fun i => !tmem s.fab.fibres i)).length)

def setLink (s : Chip) (l st : Nat) : Chip := countLinks (fset s (aFL_STATUS l) 47 44 st)

-- The map and the epoch (R573, R584) -----------------------------------------------------------------------------

def mapEntry (s : Chip) (k : Nat) : Nat := fget s (aFAB_LINKMAP (k / 8)) (8 * (k % 8) + 4) (8 * (k % 8))
def setMapEntry (s : Chip) (k v : Nat) : Chip := fset s (aFAB_LINKMAP (k / 8)) (8 * (k % 8) + 4) (8 * (k % 8)) v

/-- The paths of requests of the old epoch that are still up: destination and link. -/
def oldPaths (s : Chip) (old : Nat) : List (Nat × Nat) :=
  ((s.fab.reqs.filter (fun r => r.epoch == old && r.dest != devId s && linkIsUp s r.link)).map (fun r => (r.dest, r.link))).eraseDups

/-- The route epoch advances, and drain markers leave (R573, R584). -/
def newEpoch (s : Chip) : Chip :=
  let old := fget s aFAB_STATUS 47 40
  let ms : List Marker := (oldPaths s old).map (fun p =>
    ⟨p.1, p.2, ((s.fab.reqs.filter (fun r => r.epoch == old && r.dest == p.1 && r.link == p.2 && r.covered)).map (·.owner)).eraseDups⟩)
  fset (fabMod s (fun f => { f with markers := f.markers ++ ms })) aFAB_STATUS 47 40 (old + 1)

/-- A request is sent again in the current epoch (R575). -/
def resend (s : Chip) (r : FReq) : Chip :=
  let l := fabLink s (devId s) r.dest r.addr
  let s1 := sendPacket (fsat s aFAB_ERR 15 0 1) r l
  fabMod s1 (fun f => { f with reqs := f.reqs.map (fun x =>
    if x.dest == r.dest && x.seqNo == r.seqNo then { x with link := l, epoch := fget s1 aFAB_STATUS 47 40 } else x) })

/-- The next working link above a link in number, wrapping (R573). -/
def nextLink (s : Chip) (l : Nat) : Option Nat := ((List.range 31).map (fun d => (l + 1 + d) % 32)).find? (linkIsUp s)

/-- Tiles with a strand that waits for a kind of event. -/
def tilesWaiting (s : Chip) (k : WaitKind) : List Nat :=
  ((s.strands.filter (fun x => decide (x.2.wait.map (·.kind) = some k))).map (fun x => x.1 / 8)).eraseDups

/-- Fences whose last request has been acknowledged end (R578). -/
def endFences (s : Chip) : Chip := forEach (tilesWaiting s .fence) retryTile s

/-- A link that was up leaves service (R573, R575): the map is rewritten, requests sent on it are sent again, and its
drain markers are given up (R584). -/
def leaveLink (s : Chip) (l : Nat) : Chip :=
  let s1 := match nextLink s l with
    | none => s
    | some n =>
      if (List.range 32).any (fun k => mapEntry s k == l) then
        newEpoch (forEach (List.range 32) (fun st k => if mapEntry st k == l then setMapEntry st k n else st) s)
      else s
  let s2 := fabMod s1 (fun f => { f with markers := f.markers.filter (fun m => m.link != l) })
  endFences (forEach (s2.fab.reqs.filter (fun r => r.link == l && r.dest != devId s2)) resend s2)

/-- A link goes down, or off (R560, R573): 0x3001 is reported for the former. -/
def dropLink (s : Chip) (l st : Nat) : Chip :=
  let s1 := setLink s l st
  let s2 := if st == 4 then linkEvent s1 l 0x3001 else s1
  if linkIsUp s l then leaveLink s2 l else s2

/-- Training starts (R562). -/
def trainLink (s : Chip) (l : Nat) : Chip := setLink s l 1

/-- A link that was in service trains again (R559, R561, R562): counted. -/
def retrainLink (s : Chip) (l : Nat) : Chip := trainLink (fsat s (aFL_ERR l) 15 0 1) l

def onLink (l : Nat) (s : Chip) (f : Chip → Chip) : Out := onUnit "link" 32 l s f

def linkEnable (s : Chip) (l : Nat) (on : Bool) : Chip :=
  let was := fbit s (aFL_CTL l) 0
  let s1 := fsetb s (aFL_CTL l) 0 on
  if on then (if !was && linkPowered s l then trainLink s1 l else s1)
  else if linkState s l == 0 then s1 else dropLink s1 l 0

/-- LINK_ENABLE (R562). -/
def cmdLinkEnable (link : Nat) (on : Bool) (s : Chip) : Out := onLink link s (fun st => linkEnable st link on)

def linkRetrain (s : Chip) (l : Nat) : Chip := if fbit s (aFL_CTL l) 0 && linkPowered s l then retrainLink s l else s

/-- LINK_RETRAIN (R562). -/
def cmdLinkRetrain (link : Nat) (s : Chip) : Out := onLink link s (fun st => linkRetrain st link)

/-- Bits set of a 9-bit map of wavelengths. -/
def wlCount (x : Nat) : Nat := (bitsBelow 9 x).length

/-- Training ends (R560 to R562): the version agreed, wavelengths that failed marked, the rate that is left. -/
def linkTrained (s : Chip) (l failedWl major minor : Nat) : Chip :=
  let k := aFL_STATUS l
  let bad := Nat.lor (fget s k 40 32) (failedWl % 2 ^ 9)
  let s1 := fset s k 40 32 bad
  let good := 9 - wlCount bad
  if major != 1 then linkEvent (setLink s1 l 4) l 0x3004
  else if good < 4 then linkEvent (setLink s1 l 4) l 0x3001
  else
    let s2 := fset (if bad == 0 then s1 else fset s1 k 31 28 0xF) k 23 16 (0x10 + min 0 minor)
    let s3 := fabMod s2 (fun f => { f with retries := tset (fun _ => 0) l 0 f.retries, moved := tmark f.moved l false })
    let s4 := if tmem s.fab.moved l then linkEvent s3 l 0x3007 else s3
    if 8 ≤ good then setLink s4 l 2 else linkEvent (setLink s4 l 3) l 0x3003

/-- LINK_UP (R560 to R562). -/
def cmdLinkUp (link failedWl major minor : Nat) (s : Chip) : Out :=
  onLink link s (fun s0 =>
    when (fbit s0 (aFL_CTL link) 0 && linkPowered s0 link && (linkState s0 link == 1 || linkState s0 link == 4)) s0
      (fun st => linkTrained st link failedWl major minor))

/-- LINK_TRAIN_TIMEOUT (R562). -/
def cmdLinkTrainTimeout (link : Nat) (s : Chip) : Out :=
  onLink link s (fun s0 =>
    when (fbit s0 (aFL_CTL link) 0 && linkPowered s0 link && (linkState s0 link == 1 || linkState s0 link == 4)) s0
      (fun st => linkEvent (setLink (fsat st (aFL_ERR link) 15 0 1) link 4) link 0x3001))

/-- FABRIC_FRAME_RECEIVED (R559): eight retries in a row put the link into retraining with 0x3006. -/
def cmdFabricFrameReceived (link : Nat) (check : FrameCheck) (s : Chip) : Out :=
  onLink link s (fun s0 => when (linkIsUp s0 link) s0 (fun st =>
    let again (x : Chip) (n : Nat) : Chip := fabMod x (fun f => { f with retries := tset (fun _ => 0) link n f.retries })
    match check with
    | .clean => again st 0
    | .corrected => again (fsat st (aFL_ERR link) 63 48 1) 0
    | .retryRequest n => fsat st (aFL_ERR link) 47 32 (min n 512)
    | .crcBad =>
      let n := tget (fun _ => 0) st.fab.retries link + 1
      let s1 := fabCode (noteCE (fsat st (aFL_ERR link) 47 32 1)) 0x3005
      if n < 8 then again s1 n else retrainLink (linkEvent (again s1 0) link 0x3006) link))

/-- A wavelength fails (R560). -/
def failWavelength (s : Chip) (l w : Nat) : Chip :=
  let k := aFL_STATUS l
  let bad := Nat.lor (fget s k 40 32) (2 ^ w)
  let s1 := fset s k 40 32 bad
  if fget s k 31 28 != 0xF then countLinks (fset s1 k 31 28 0xF)
  else if 9 - wlCount bad < 4 then dropLink s1 l 4
  else if linkState s l == 2 then linkEvent (setLink s1 l 3) l 0x3003
  else s1

/-- WAVELENGTH_FAIL (R560). -/
def cmdWavelengthFail (link wl : Nat) (s : Chip) : Out :=
  if link < 32 ∧ wl < 9 then
    .next (when (linkIsUp s link && !(fget s (aFL_STATUS link) 40 32).testBit wl) s (fun st => failWavelength st link wl))
  else .fault (.noSuchUnit "wavelength")

/-- A link's fibre fails (R561). -/
def failFibre (s : Chip) (l : Nat) (port : Bool) : Chip :=
  let g := l / 8
  match (List.range 2).find? (fun i => !tmem s.fab.fibres (2 * g + i)) with
  | some i =>
    if port && fbit s (aFL_CTL l) 1 then
      retrainLink (fset (fabMod s (fun f => { f with fibres := tmark f.fibres (2 * g + i) true, moved := tmark f.moved l true }))
        (aFL_STATUS l) 27 24 (i + 1)) l
    else dropLink s l 4
  | none => dropLink s l 4

/-- FIBRE_FAIL (R561). -/
def cmdFibreFail (link : Nat) (switchHasPort : Bool) (s : Chip) : Out :=
  onLink link s (fun s0 => when (linkState s0 link != 0) s0 (fun st => failFibre st link switchHasPort))

/-- FABRIC_LINK_DOWN (R573). -/
def cmdFabricLinkDown (link : Nat) (s : Chip) : Out :=
  onLink link s (fun s0 => when (linkIsUp s0 link) s0 (fun st => dropLink st link 4))

/-- A write of FAB_LINKMAP (R573): any change advances the epoch. -/
def writeLinkMap (s : Chip) (i : Nat) (data : Word) : Chip :=
  let s1 := forEach (List.range 8) (fun st e => setMapEntry st (8 * i + e) (bitsOf data.toNat (8 * e + 4) (8 * e))) s
  if barGet s1 (aFAB_LINKMAP i) == barGet s (aFAB_LINKMAP i) then s1 else newEpoch s1

/-- LINKMAP_WRITE (R573). -/
def cmdLinkmapWrite (index : Nat) (data : Word) (s : Chip) : Out :=
  onUnit "link map register" 4 index s (fun st => writeLinkMap st index data)

/-- EPOCH_BUMP (R573). -/
def cmdEpochBump (s : Chip) : Out := .next (newEpoch s)

/-- DRAIN_MARKER_RETURN (R584). -/
def cmdDrainMarkerReturn (dest link : Nat) (s : Chip) : Out :=
  .next (endFences (fabMod s (fun f => { f with markers := f.markers.filter (fun m => !(m.dest == dest && m.link == link)) })))

/-- FABRIC_REPLAY_TIMEOUT (R575). -/
def cmdFabricReplayTimeout (dest seqNo : Nat) (s : Chip) : Out :=
  .next (match s.fab.reqs.find? (fun r => r.dest == dest && r.seqNo == seqNo) with
    | none => s
    | some r => resend s r)

/-- OPTICAL_CALIBRATION_COMPLETE (R563, R649): the wavelength that the spare displaced is the new spare; which one
Temper displaces is a free choice (DESIGN CHOICE, log 9). -/
def cmdOpticalCalibrationComplete (link : Nat) (s : Chip) : Out :=
  onLink link s (fun s0 =>
    let k := aFL_STATUS link
    let spare := fget s0 k 31 28
    when (linkIsUp s0 link && spare != 0xF) s0 (fun st =>
      let ws := (List.range 9).filter (fun w => w != spare && !(fget st k 40 32).testBit w)
      let r := freeBelow st ws.length
      fset r.2 k 31 28 (ws.getD r.1 spare)))

end Sys2Proof.Machine
end

