-- ==== Sys2Proof/Machine/FabIn.lean ====
section
/-! DEFINITION. The fabric at the target: Wards, sequence order and hot lines (R565 to R571, R574, R575, R583; rows 255
and 263 to 266). -/

namespace Sys2Proof.Machine

-- Wards (R568, R571) -------------------------------------------------------------------------------------------

/-- The permission bit that a request needs (R568). -/
def permBit (kind : Nat) : Nat := if kind == 0 then 0 else if 0x10 ≤ kind && kind ≤ 0x20 then 2 else 1

/-- Bytes that a request touches at its address. -/
def reqBytes (r : FabReq) : Nat :=
  if r.kind == 0 then r.operand else if 0x10 ≤ r.kind && r.kind ≤ 0x20 then 8 else r.data.length

/-- An active entry whose JOB, KEY, SRCDEV and PERM admit the request (R568). -/
def wardMatch (s : Chip) (w : Nat) (r : FabReq) : Bool :=
  let a := barGet s (aFW_A w)
  bitsOf a 63 62 == 2 && bitsOf (barGet s (aFW_B w)) 63 48 == r.job && bitsOf a 31 0 == r.key &&
    (bitsOf a 47 32 == r.src || bitsOf a 47 32 == 0xFFFF) && (bitsOf a 57 55).testBit (permBit r.kind)

/-- The target address lies in a grant of the partition or in a tile of it (R348, R568); a Swage window checks its
command itself (R317), and a record for the reducer has no address. -/
def wardAddr (s : Chip) (p : Nat) (r : FabReq) : Bool :=
  if 0x40 ≤ r.kind then true
  else if bitOf r.addr 47 then
    (r.kind == 0 || r.kind == 1 || r.kind == 0x30) && bitsOf r.addr 46 40 == 0 && bitsOf r.addr 31 22 == 0 &&
      (physOf s p (bitsOf r.addr 39 32)).isSome
  else isWindow r.addr || granted s p r.addr (reqBytes r)

/-- The Ward check: a code, 0 when it passes, and the entry's partition (R568). -/
def wardCheck (s : Chip) (r : FabReq) : Nat × Nat :=
  let ws := (List.range 4096).filter (fun w => wardMatch s w r)
  match ws.find? (fun w => wardAddr s (fget s (aFW_A w) 61 58) r) with
  | some w => (0, fget s (aFW_A w) 61 58)
  | none => (if ws.isEmpty then 0x3010 else 0x3021, 16)

/-- The job slot's own entry: for this device, this partition and the slot's job (R571). -/
def ownWard (s : Chip) (p : Nat) : Option Nat :=
  (List.range 4096).find? (fun w =>
    let a := barGet s (aFW_A w)
    bitsOf a 63 62 != 0 && bitsOf a 61 58 == p && bitsOf a 47 32 == devId s &&
      bitsOf (barGet s (aFW_B w)) 63 48 == fget s (aFJ_CTL p) 31 16)

/-- A job slot that is loaded, pending or active follows its own entry (R571); strands in `wward` see it. -/
def followWard (s : Chip) (p : Nat) : Chip :=
  let st := fget s (aFJ_STATUS p) 3 0
  if st == 1 || st == 2 || st == 3 then
    let v := match ownWard s p with
      | none => 1
      | some w => let e := fget s (aFW_A w) 63 62; if e == 2 then 3 else if e == 1 then 2 else 1
    let s1 := fset s (aFJ_STATUS p) 3 0 v
    forEach (tilesWaiting s1 .ward) retryTile s1
  else s

def followWards (s : Chip) : Chip := forEach (List.range 16) followWard s

/-- A pending entry with ACT_TIME 0 is active at once (R571). -/
def wardNow (s : Chip) (w : Nat) : Chip :=
  if fget s (aFW_A w) 63 62 == 1 && fget s (aFW_B w) 47 0 == 0 then fset s (aFW_A w) 63 62 2 else s

/-- A version record leaves for the peer that an installed entry names (R566). -/
def sendVersion (s : Chip) (w : Nat) : Chip :=
  let a := barGet s (aFW_A w)
  let d := bitsOf a 47 32
  if (bitsOf a 63 62 == 1 || bitsOf a 63 62 == 2) && d != 0xFFFF && d != devId s then
    fabMod s (fun f => { f with vsent := f.vsent ++ [(d, barGet s 0x20)] })
  else s

def onWard (w : Nat) (s : Chip) (f : Chip → Chip) : Out := onUnit "Ward entry" 4096 w s f

/-- A write of a Ward entry (R566, R571). -/
def writeWard (s : Chip) (w : Nat) (isB : Bool) (data : Word) : Chip :=
  let v := data.toNat
  let s1 := if isB then barSet s (aFW_B w) v else barSet s (aFW_A w) (bitsOf v 63 55 * 2 ^ 55 + bitsOf v 47 0)
  followWards (wardNow (if isB then s1 else sendVersion s1 w) w)

/-- WARD_WRITE (R571). -/
def cmdWardWrite (entry : Nat) (isB : Bool) (data : Word) (s : Chip) : Out :=
  onWard entry s (fun st => writeWard st entry isB data)

/-- The fabric time has come to an entry's ACT_TIME (R571): on its 16 bits of seconds, within half their range. -/
def actTimeCome (s : Chip) (w : Nat) : Bool :=
  let b := barGet s (aFW_B w)
  let n := 2 ^ 16 * 1000000000
  let now := tbNanos s 1 % n
  let t := (bitsOf b 47 32 * 1000000000 + bitsOf b 31 0) % n
  decide ((now + n - t) % n < n / 2)

/-- WARD_ACTIVATION (R571). -/
def cmdWardActivation (entry : Nat) (s : Chip) : Out :=
  onWard entry s (fun s0 =>
    when (fget s0 (aFW_A entry) 63 62 == 1 && actTimeCome s0 entry) s0 (fun st => followWards (fset st (aFW_A entry) 63 62 2)))

/-- FJ_VREC from the records that have come (R566). -/
def showVersions (s : Chip) (p : Nat) : Chip :=
  let l := tget (fun _ => []) s.fab.vrecs p
  let isa := l.foldl (fun a x => min a x.2.1) 0xFFFF
  let feat := l.foldl (fun a x => Nat.land a x.2.2) 0xFFFFFFFF
  if l.isEmpty then barSet s (aFJ_VREC p) 0 else barSet s (aFJ_VREC p) (isa * 2 ^ 48 + feat * 2 ^ 16 + l.length % 4096)

/-- VERSION_RECORD_ARRIVAL (R566). -/
def cmdVersionRecordArrival (part peer isaMajor isaMinor features : Nat) (s : Chip) : Out :=
  onPart part s (fun st =>
    let l := (tget (fun _ => []) st.fab.vrecs part).filter (fun x => x.1 != peer)
    let x := (peer, isaMajor % 256 * 256 + isaMinor % 256, features % 2 ^ 32)
    showVersions (fabMod st (fun f => { f with vrecs := tset (fun _ => []) part (l ++ [x]) f.vrecs })) part)

-- Answers (R568, R574) -----------------------------------------------------------------------------------------

/-- A packet of `n` bytes for or from a partition crosses a link, which a packet of this device to itself does not
(R565, R572, R664). -/
def rxCount (s : Chip) (p src addr n : Nat) : Chip :=
  if src == devId s then s else ctrAdd s p (96 + fabLink s src (devId s) addr) n

/-- A response leaves for a source (R574, R582). -/
def respond (s : Chip) (p : Nat) (r : FabReq) (value marks code : Nat) : Chip :=
  let n := 32 + (if r.kind == 0 then r.operand else if 0x10 ≤ r.kind && r.kind ≤ 0x20 then 8 else 0)
  let s1 := if r.src == devId s then s else ctrAdd s p (64 + fabLink s (devId s) r.src r.addr) n
  fabMod (if p < 16 then charge s1 p 1 0 n else s1) (fun f => { f with sent := f.sent ++ [⟨r.src, r.seqNo, value, marks, code⟩] })

/-- A failed Ward check (R568): counted, and refused at most once a millisecond for each source and job. -/
def wardDrop (s : Chip) (r : FabReq) (code : Nat) : Chip :=
  let s1 := fabCode (fsat s aFAB_ERR 63 32 1) code
  let recent := s1.fab.refused.any (fun x => x.1 == r.src && x.2.1 == r.job && decide (s1.cycle < x.2.2 + 700000))
  if recent then s1
  else
    let s2 := fabMod s1 (fun f => { f with
      refused := f.refused.filter (fun x => !(x.1 == r.src && x.2.1 == r.job)) ++ [(r.src, r.job, s1.cycle)] })
    respond s2 16 r 0 0 code

-- Application (R568, R574) -------------------------------------------------------------------------------------

/-- A write to a tile of the partition; the packet that names a counter is the put's last (R577, R585). -/
def applyTile (s : Chip) (p : Nat) (r : FabReq) : Chip × Nat × Nat × Nat :=
  match physOf s p (bitsOf r.addr 39 32) with
  | none => (s, 0, 0, 0x2081)
  | some t =>
    let a := bitsOf r.addr 21 0
    if !tileOpen s t then (s, 0, 0, 0x2081)
    else if !inBanks a (reqBytes r) then (s, 0, 0, 0x2080)
    else if r.kind == 0 then
      let x := readMarked s t a r.operand
      (x.1, leNat (x.2.map (·.1)), marksOf x.2, 0)
    else
      let s1 := storeMarked s t a (withMarks r.data r.poison)
      (match r.cnt with
        | some c => retryTile (acArrive s1 t c) t
        | none => retryTile s1 t, 0, 0, 0)

/-- What an atomic leaves in memory (R248, R576): operand and expected value of the packet. -/
def atomicElem (r : FabReq) (old : Elem) : Elem :=
  let b : Elem := ⟨r.operand, r.poison != 0⟩
  if r.kind == 0x20 then (if !old.pz && old.v == r.expect then b else old) else amoElem (r.kind - 0x10) old b

/-- A request applied (R574): the response's value and marks, and a code. -/
def applyReq (s : Chip) (p : Nat) (r : FabReq) : Chip × Nat × Nat × Nat :=
  if 0x40 ≤ r.kind then (s, 0, 0, 0)
  else if bitOf r.addr 47 then applyTile s p r
  else
    let n := reqBytes r
    if r.kind == 0 then
      let x := devReadChecked (charge s p 0 0 (burstCharge r.addr n false)) p 64 r.addr n
      (x.1, leNat (unmark x.2.1), marksOf x.2.1, if x.2.2 == 0x2001 then 0 else x.2.2)
    else if r.kind == 1 || r.kind == 0x30 then
      let x := devPort (charge s p 0 0 (burstCharge r.addr n true)) p 64 (0x2000000 + r.src) r.addr
        (withMarks r.data r.poison)
      (x.1, 0, 0, x.2)
    else
      let x := devReadChecked (charge s p 0 0 (burstCharge r.addr 8 true)) p 64 r.addr 8
      if x.2.2 != 0 && x.2.2 != 0x2001 then (x.1, 0, 0, x.2.2)
      else
        let old : Elem := ⟨leNat (unmark x.2.1), x.2.1.any (·.2)⟩
        let new := atomicElem r old
        let y := if new == old then (x.1, 0) else devWrite x.1 p 64 r.addr ((leBytes 8 new.v).map (fun b => (b, new.pz)))
        (y.1, old.v, wordMark old.pz, y.2)

/-- A request is applied and acknowledged. -/
def applyAck (s : Chip) (p : Nat) (r : FabReq) : Chip :=
  let x := applyReq s p r
  respond x.1 p r x.2.1 x.2.2.1 x.2.2.2

-- Hot lines (R583) ---------------------------------------------------------------------------------------------

/-- The lines of device space that an update touches. -/
def updateLines (r : FabReq) : List Nat :=
  if r.kind == 0 || 0x40 ≤ r.kind || bitOf r.addr 47 || isWindow r.addr || reqBytes r == 0 then []
  else (List.range ((r.addr + reqBytes r - 1) / 64 - r.addr / 64 + 1)).map (fun k => r.addr / 64 + k)

/-- Updates to a line wait, or its home has applied one within 2 ns: two tile cycles (R583; DEDUCED, log 22). -/
def lineBusy (s : Chip) (line : Nat) : Bool :=
  s.fab.hot.any (fun h => h.line == line) || decide (s.cycle < tget (fun _ => 0) s.fab.hotAt line)

/-- The lines of an update take the next one 2 ns later. -/
def lineDone (s : Chip) (r : FabReq) : Chip :=
  fabMod s (fun f => { f with hotAt := (updateLines r).foldl (fun t l => tset (fun _ => 0) l (s.cycle + 2) t) f.hotAt })

/-- The next request of a source in its order: applied; or it waits at a hot line's home, which holds at most four of a
source (R583); or it is held back behind an update of its source that waits (R574). -/
def takeReq (s : Chip) (h : FHeld) : Option Chip :=
  let r := h.req
  if h.code != 0 then some (wardDrop s r h.code)
  else
    let mine := s.fab.hot.filter (fun x => x.req.src == r.src)
    match (updateLines r).find? (lineBusy s) with
    | some l =>
      if mine.length < 4 && mine.all (fun x => x.line == l) then
        some (fabMod s (fun f => { f with hot := f.hot ++ [⟨l, h.part, r⟩] }))
      else none
    | none => if mine.isEmpty then some (lineDone (applyAck s h.part r) r) else none

/-- The requests of a source that wait are taken while the next in sequence is there (R574). -/
def takeNext : Nat → Nat → Chip → Chip
  | 0, _, s => s
  | n + 1, src, s =>
    let e := tget (fun _ => 0) s.fab.expect src
    match s.fab.reorder.find? (fun h => h.req.src == src && h.req.seqNo == e) with
    | none => s
    | some h =>
      match takeReq s h with
      | none => s
      | some s1 =>
        takeNext n src (fabMod s1 (fun f => { f with
          expect := tset (fun _ => 0) src ((e + 1) % 2 ^ 32) f.expect
          reorder := f.reorder.filter (fun x => !(x.req.src == src && x.req.seqNo == e)) }))

/-- The fabric takes requests from a source: the controller serves, and a packet of another device needs an identifier
of this one (R596). -/
def fabServes (s : Chip) (src : Nat) : Bool := fbit s aFAB_CTL 0 && (devId s != 0xFFFF || src == devId s)

/-- A request packet at its target (R568, R574, R575): checked at its arrival; one that was applied before is
acknowledged again; one beyond the window of 256 is dropped. -/
def requestArrives (s : Chip) (r : FabReq) : Chip :=
  let e := tget (fun _ => 0) s.fab.expect r.src
  let d := (r.seqNo + 2 ^ 32 - e) % 2 ^ 32
  let c := wardCheck s r
  let s1 := rxCount s c.2 r.src r.addr (32 + r.data.length)
  if 2 ^ 31 ≤ d then
    (if c.1 != 0 then wardDrop s1 r c.1
    else match s1.fab.sent.reverse.find? (fun x => x.dest == r.src && x.seqNo == r.seqNo) with
      | some x => fabMod s1 (fun f => { f with sent := f.sent ++ [x] })
      | none => s1)
  else if 256 ≤ d || s1.fab.reorder.any (fun h => h.req.src == r.src && h.req.seqNo == r.seqNo) then s1
  else takeNext 257 r.src (fabMod s1 (fun f => { f with reorder := f.reorder ++ [⟨r, c.1, c.2⟩] }))

/-- FABRIC_REQUEST_ARRIVAL (R568, R574, R583). -/
def cmdFabricRequestArrival (req : FabReq) (s : Chip) : Out :=
  .next (when (fabServes s req.src) s (fun st => requestArrives st req))

/-- The next source at a line's home: ascending from the source after the one served last (R583). -/
def nextSource (s : Chip) (line : Nat) : Option Nat :=
  let last := tget (fun _ => 0) s.fab.hotLast line
  ((s.fab.hot.filter (fun h => h.line == line)).map (fun h => h.req.src)).foldl (fun b x =>
    match b with
    | none => some x
    | some y => if (x + 65535 - last) % 65536 < (y + 65535 - last) % 65536 then some x else some y) none

/-- HOT_LINE_UPDATE (R583): the source's oldest waiting update is applied; requests held behind it go on. -/
def cmdHotLineUpdate (line : Nat) (s : Chip) : Out :=
  .next (match nextSource s line with
    | none => s
    | some src =>
      match s.fab.hot.find? (fun h => h.line == line && h.req.src == src) with
      | none => s
      | some h =>
        let s1 := fabMod s (fun f => { f with hot := f.hot.erase h, hotLast := tset (fun _ => 0) line src f.hotLast })
        takeNext 257 src (lineDone (applyAck s1 h.part h.req) h.req))

end Sys2Proof.Machine
end

