-- ==== Sys2Proof/Machine/FabBack.lean ====
section
/-! DEFINITION. The fabric at the source: acknowledgements, failures, jobs, multicast and gateways (R564, R570, R574 to
R581, R585, R589, R591; rows 256, 258 to 262, 267, 270 and 271). -/

namespace Sys2Proof.Machine

-- Answers (R574, R577, R578, R580, R585, R589) -----------------------------------------------------------------

/-- The strand of an owner, if the owner is one. -/
def ownerStrand (o : FOwner) : Option (Nat × Nat) := if o.tile < 144 ∧ o.strand < 8 then some (o.tile, o.strand) else none

/-- A load's or an atomic's register takes its value, poisoned where the request failed (R580); a strand that was reset
in between awaits none. -/
def giveReg (s : Chip) (o : FOwner) (rd v : Nat) (pz : Bool) : Chip :=
  match ownerStrand o with
  | none => s
  | some (t, i) =>
    if tmem (getStrand s t i).busy (codeS rd) then
      retryTile (modStrand s t i (fun x => wrS { x with busy := tmark x.busy (codeS rd) false } rd (if pz then 0 else v) pz)) t
    else s

/-- A covered request that was not applied without refusal or poison (R578). -/
def failFence (s : Chip) (o : FOwner) (rank : Nat) : Chip :=
  match ownerStrand o with
  | none => s
  | some (t, i) => modStrand s t i (fun x => { x with fenceFail := if x.fenceFail.contains rank then x.fenceFail else rank :: x.fenceFail })

/-- A granule that the Gateway fetched is kept for its strand (R589). -/
def keepGranule (s : Chip) (r : FReq) (data : List Byte) (marks : Nat) : Chip :=
  let others := s.fab.granules.filter (fun g => !(g.owner == r.owner && g.rank == r.rank && g.addr == r.addr))
  fabMod s (fun f => { f with granules := others ++ [⟨r.owner, r.rank, r.addr, data, marks⟩] })

/-- The whole of a copy, multicast or contribution has been answered (R577, R585, R586). -/
def endOp (s : Chip) (o : FOp) : Chip :=
  let s1 := fabMod s (fun f => { f with ops := f.ops.filter (fun x => x.id != o.id) })
  match ownerStrand o.owner with
  | none => s1
  | some (t, i) =>
    if o.code != 0 then retryTile (postFault (tileStatus s1 t o.code) t i ⟨o.code, 0x04, o.laddr⟩) t
    else match o.lcnt with
      | some c => retryTile (acArrive s1 t c) t
      | none => s1

/-- A part of an operation has been answered. -/
def opPart (s : Chip) (r : FReq) (value marks code : Nat) : Chip :=
  match s.fab.ops.find? (fun o => o.id == r.op) with
  | none => s
  | some o =>
    let s1 := if o.kind == 1 && code == 0 then
        (match ownerStrand o.owner with
          | none => s
          | some (t, _) => storeMarked s t (o.laddr + r.off) (withMarks (leBytes r.operand value) marks))
      else s
    let o1 : FOp := { o with
      left := o.left - 1
      code := leastCode [o.code, code]
      receivers := o.receivers.map (fun x => if x.1 == r.rank then (x.1, max x.2.1 (r.off + r.data.length), x.2.2) else x) }
    let s2 := fabMod s1 (fun f => { f with ops := f.ops.map (fun x => if x.id == o.id then o1 else x) })
    if o1.left == 0 then endOp s2 o1 else s2

/-- A request has its answer, or has failed with a code. -/
def answer (s : Chip) (r : FReq) (value marks code : Nat) : Chip :=
  let bad := marks != 0 || code != 0
  let s1 := match r.rd with
    | none => s
    | some rd =>
      if r.operand == 256 && r.kind == 0 then
        giveReg (if code == 0 then keepGranule s r (leBytes 256 value) marks else s) r.owner rd (value / 2 ^ (8 * r.off) % 2 ^ 64)
          (markAt marks r.off || code != 0)
      else giveReg s r.owner rd value bad
  let s2 := if r.covered && (bad || r.poison != 0) then failFence s1 r.owner r.rank else s1
  let s3 := if r.op != 0 then opPart s2 r value marks code else s2
  if r.owner.tile == 0xFFF && code != 0 then dmaFabricError s3 r.owner.strand r.off code else s3

/-- A request leaves the replay store; requests that waited take its place (R574). -/
def dropReq (s : Chip) (r : FReq) : Chip :=
  fabDrain 256 (fabMod s (fun f => { f with reqs := f.reqs.filter (fun x => !(x.dest == r.dest && x.seqNo == r.seqNo)) }))

-- Failures (R570, R591) ----------------------------------------------------------------------------------------

/-- Stores that the Gateway still holds fail with their request. -/
def gatherReqs (s : Chip) (p : Nat) (hit : Nat → Bool) : List FReq :=
  (s.fab.gathers.filter (fun g => g.part == p && hit g.rank)).map (fun g =>
    { mkReq g.owner 1 g.addr g.data (wordMark g.poison) true with rank := g.rank })

/-- Every outstanding request of a job to the ranks `hit` fails (R570, R591). -/
def failReqs (s : Chip) (p : Nat) (hit : Nat → Bool) (code : Nat) : Chip :=
  let out := (s.fab.reqs ++ s.fab.waiting).filter (fun r => r.owner.part == p && hit r.rank) ++ gatherReqs s p hit
  let s1 := fabMod s (fun f => { f with
    reqs := f.reqs.filter (fun r => !(r.owner.part == p && hit r.rank))
    waiting := f.waiting.filter (fun r => !(r.owner.part == p && hit r.rank))
    gathers := f.gathers.filter (fun g => !(g.part == p && hit g.rank)) })
  endFences (fabDrain 256 (forEach out (fun st r => answer st r 0 0 code) s1))

/-- The most recent code of a job slot. -/
def jobEvent (s : Chip) (p code : Nat) : Chip := fabCode (fset s (aFJ_STATUS p) 63 48 code) code

/-- The job is fenced at this device (R570): its outstanding operations fail as those to a dead target do. -/
def fenceJob (s : Chip) (p : Nat) : Chip :=
  let s1 := jobEvent (fset s (aFJ_STATUS p) 3 0 4) p 0x3011
  let s2 := failReqs s1 p (fun _ => true) 0x3020
  forEach (tilesWaiting s2 .ward) retryTile s2

/-- A dead-target failure (R591). -/
def deadTarget (s : Chip) (r : FReq) : Chip :=
  let p := r.owner.part
  let s1 := failReqs (fsat s aFAB_ERR 31 16 1) p (fun k => k == r.rank) 0x3020
  let s2 := fset (fset (jobEvent s1 p 0x3020) (aFJ_STATUS p) 3 0 5) (aFJ_STATUS p) 47 36 r.rank
  let s3 := raiseIrq (fsetb s2 (aFJ_CTL p) 4 true) 0 (fget s2 aFAB_CTL 15 4)
  let lt := if r.owner.tile < 144 then (logOf s3 r.owner.tile).getD 0xFF else 0xFF
  let s4 := toController s3 p 0x0020 0x3020
    (leBytes 2 0x3020 ++ leBytes 1 lt ++ leBytes 1 (if r.owner.tile < 144 then r.owner.strand else 0xFF) ++ leBytes 4 0 ++ leBytes 8 0)
  forEach (tilesWaiting s4 .ward) retryTile s4

/-- FABRIC_ACK_ARRIVAL (R568, R570, R574, R580): a refusal with 0x3010 fences the job. -/
def cmdFabricAckArrival (ackn : FabAck) (s : Chip) : Out :=
  .next (match s.fab.reqs.find? (fun r => r.dest == ackn.dest && r.seqNo == ackn.seqNo) with
    | none => s
    | some r =>
      let n := if r.kind == 0 then r.operand else if r.rd.isSome then 8 else 0
      let s1 := rxCount s r.owner.part r.dest r.addr (32 + n)
      let s2 := endFences (answer (dropReq s1 r) r ackn.value ackn.poison ackn.code)
      if ackn.code == 0x3010 then fenceJob s2 r.owner.part else s2)

/-- FABRIC_OP_TIMEOUT (R575, R591). -/
def cmdFabricOpTimeout (dest seqNo : Nat) (s : Chip) : Out :=
  .next (match s.fab.reqs.find? (fun r => r.dest == dest && r.seqNo == seqNo) with
    | none => s
    | some r => deadTarget s r)

/-- WARD_REFUSAL_RECEIVED (R570). -/
def cmdWardRefusalReceived (part : Nat) (s : Chip) : Out := onPart part s (fun st => fenceJob st part)

/-- FJ_CTL.FENCE set (R570). -/
def setFence (s : Chip) (p : Nat) : Chip := fenceJob (fsetb s (aFJ_CTL p) 3 true) p

/-- JOB_FENCE (R570). -/
def cmdJobFence (part : Nat) (s : Chip) : Out := onPart part s (fun st => setFence st part)

/-- JOB_HOLD_CLEAR (R591). -/
def cmdJobHoldClear (part : Nat) (s : Chip) : Out := onPart part s (fun st => fsetb st (aFJ_CTL part) 4 false)

-- Job images (R564) --------------------------------------------------------------------------------------------

/-- Bytes of a job image; a code where they cannot be read whole. -/
def jobBytes (s : Chip) (p a n : Nat) : Chip × List Byte × Bool :=
  let r := devReadChecked s p 64 a n
  (r.1, unmark r.2.1, r.2.2 == 0 && !r.2.1.any (·.2))

/-- The member lists of a job image's groups, and whether each is well formed. -/
def jobGroups (p a nchips : Nat) : List (List Byte) → Chip → Chip × List (List Nat × Nat) × Bool
  | [], s => (s, [], true)
  | g :: r, s =>
    let n := bNat g 0 2
    let b := jobBytes s p (a + bNat g 4 4) (2 * n)
    let ms := (List.range n).map (fun i => bNat b.2.1 (2 * i) 2)
    let x := jobGroups p a nchips r b.1
    (x.1, (ms, bNat g 2 2) :: x.2.1,
      b.2.2 && decide (1 ≤ n) && decide (n ≤ 4096) && ms.all (fun m => decide (m < nchips)) && x.2.2)

/-- The job image at an address: `none` when it is malformed (R564). -/
def readJob (s : Chip) (p a : Nat) : Chip × Option Job :=
  let h := jobBytes s p a 16
  let n := bNat h.2.1 0 2
  let ng := bNat h.2.1 6 2
  if !h.2.2 || n == 0 || 4096 < n || decide (n ≤ bNat h.2.1 2 2) || 256 < ng || bNat h.2.1 8 1 != 1 || !bZero h.2.1 9 7 then (h.1, none)
  else
    let b := jobBytes h.1 p (a + 16) (4 * n + 8 * ng)
    let chips := (List.range n).map (fun i => (b.2.1.drop (4 * i)).take 4)
    let gs := (List.range ng).map (fun i => (b.2.1.drop (4 * n + 8 * i)).take 8)
    let x := jobGroups p a n gs b.1
    if !b.2.2 || !x.2.2 || chips.any (fun c => decide (1 < bNat c 2 2)) then (x.1, none)
    else (x.1, some ⟨n, bNat h.2.1 2 2, bNat h.2.1 4 2, chips.map (fun c => (bNat c 0 2, bNat c 2 1 == 1)), x.2.1⟩)

/-- FJ_CTL.LOAD (R564, R570, R571): a new image clears a fence, and the slot follows its own Ward entry. -/
def loadJob (s : Chip) (p : Nat) : Chip :=
  let r := readJob s p (fget s (aFJ_IMAGE p) 47 0)
  match r.2 with
  | none => jobEvent r.1 p 0x3023
  | some j =>
    let s1 := fabMod r.1 (fun f => { f with
      jobs := tset (fun _ => ({} : Job)) p j f.jobs
      vrecs := tset (fun _ => []) p [] f.vrecs })
    let s2 := fsetb (fset (showVersions s1 p) (aFJ_STATUS p) 3 0 1) (aFJ_CTL p) 3 false
    followWard s2 p

/-- JOB_IMAGE_LOAD (R564). -/
def cmdJobImageLoad (part : Nat) (s : Chip) : Out := onPart part s (fun st => loadJob st part)

-- Multicast, gateways and time (R585, R589, R594) --------------------------------------------------------------

/-- MULTICAST_DETACH (R585): the receiver's part of the stream that it has not acknowledged goes to it alone. -/
def cmdMulticastDetach (op rank : Nat) (s : Chip) : Out :=
  .next (match s.fab.ops.find? (fun o => o.id == op && o.kind == 2) with
    | none => s
    | some o =>
      if !(o.receivers.any (fun x => x.1 == rank && x.2.2)) then s
      else
        let mine (r : FReq) : Bool := r.op == op && r.rank == rank
        let out := s.fab.reqs.filter mine
        let s1 := fabMod s (fun f => { f with
          ops := f.ops.map (fun x => if x.id == op then
            { x with receivers := x.receivers.map (fun y => if y.1 == rank then (y.1, y.2.1, false) else y) } else x)
          reqs := f.reqs.map (fun r => if mine r then { r with kind := 1 } else r)
          waiting := f.waiting.map (fun r => if mine r then { r with kind := 1 } else r) })
        forEach out (fun st r => sendPacket st { r with kind := 1 } r.link) s1)

/-- GATEWAY_FLUSH_TIMEOUT (R589). -/
def cmdGatewayFlushTimeout (part rank : Nat) (s : Chip) : Out := onPart part s (fun st => gwFlush st part rank)

/-- FABRIC_TIME_EXCHANGE (R503, R504, R594): the first exchange after EN steps the base to the master's time, later ones
leave it to the slewing of each tick. -/
def cmdFabricTimeExchange (link : Nat) (offset : Int) (s : Chip) : Out :=
  onLink link s (fun s0 =>
    when (fbit s0 aFAB_TIME 0 && linkIsUp s0 link) s0 (fun st =>
      let s1 := captureEvent st 2 (link / 8) (fun _ _ => true) 0
      if s1.fab.timeDone then s1
      else stepsOver s1 (fabMod (tbStep s1 1 (-offset)) (fun f => { f with timeDone := true }))))

/-- What fabric time's slewing adds to its base in `k` steps of 1.25 ns: a free value within ±10 ppm (R594, DESIGN CHOICE, log 9). -/
def fabSlew (s : Chip) (k : Nat) : Int × Chip :=
  if fbit s aFAB_TIME 0 && s.fab.timeDone then
    let m := 214748 * k
    let r := freeBelow s (2 * m + 1)
    ((r.1 : Int) - (m : Int), r.2)
  else (0, s)

end Sys2Proof.Machine
end

