-- ==== Sys2Proof/Machine/Reducer.lean ====
section
/-! DEFINITION. The fabric reducer (R96 to R100, R104, R586, R587; rows 268 and 269). -/

namespace Sys2Proof.Machine

/-- A node with its normalised tag (R96). -/
def normRec (r : PRec) : PRec := { r with tag := tagNorm r.tag }

/-- The check of an incoming record at its reduction (R97, R586): the tag fields against those met before, a duplicate,
and the shape. -/
def redCode (x : Reduction) (r : PRec) : Nat :=
  if r.empty then 0
  else
    leastCode [
      if r.cols == x.shape.cols && r.rows == x.shape.rows && r.vals.length == x.shape.vals.length || x.seen.isEmpty then 0 else 0x20A1,
      if decide (2 < r.tag.kind) then 0x7006 else 0,
      match x.seen with
      | [] => 0
      | t :: _ => leastCode [
          if r.tag.rid != t.rid then 0x7002 else 0,
          if r.tag.gm1 != t.gm1 then 0x7003 else 0,
          if r.tag.kind != t.kind then 0x7004 else 0],
      if x.seen.contains (tagNorm r.tag) then 0x7005 else 0]

/-- Two siblings combined (R93, R97, R103), the even one on the left. -/
def combineTwo (a b : PRec) : PRec :=
  let left := if tagALeft a.tag then a else b
  let right := if tagALeft a.tag then b else a
  if a.tag.kind == 2 then
    let v := (attMerge ⟨left.m, left.l, left.vals⟩ ⟨right.m, right.l, right.vals⟩).1
    { a with tag := tagParent a.tag, m := v.m, l := v.l, vals := v.o }
  else { a with tag := tagParent a.tag, vals := (addLists a.tag.kind left.vals right.vals).1 }

/-- The sibling of a node among those held (R97). -/
def siblingOf (held : List PRec) (r : PRec) : Option PRec :=
  held.find? (fun h => h.tag.level == r.tag.level && h.tag.index != r.tag.index && h.tag.index / 2 == r.tag.index / 2)

/-- A node comes to a combining point: it is combined with its sibling for as long as that is held (R97, R98). -/
def holdNode : Nat → PRec → List PRec → List Tag → List PRec × List Tag
  | 0, r, held, seen => (held ++ [r], seen)
  | n + 1, r, held, seen =>
    match siblingOf held r with
    | none => (held ++ [r], seen ++ [r.tag])
    | some h => holdNode n (combineTwo r h) (held.erase h) (seen ++ [r.tag])

/-- The strand of this device that waits for a reduction. -/
def redWait (s : Chip) (k : RedKey) : Option RWait :=
  s.fab.rwaits.find? (fun w => w.owner.part == k.part && w.group == k.group && w.seqNo == k.seqNo && w.tile == k.tile)

/-- A reduction is over for the strand that waited. -/
def dropWait (s : Chip) (k : RedKey) : Chip :=
  fabMod s (fun f => { f with rwaits := f.rwaits.filter (fun w =>
    !(w.owner.part == k.part && w.group == k.group && w.seqNo == k.seqNo && w.tile == k.tile)) })

/-- An asynchronous fault for the strand that waits; a code of R97 also enters the arithmetic fault log (R117). -/
def redFault (s : Chip) (k : RedKey) (code : Nat) : Chip :=
  let s1 := fabCode (if 0x7000 ≤ code then arithFault s code 0xFF 0x20 else s) (if 0x7000 ≤ code then fget s aFAB_STATUS 63 48 else code)
  match redWait s k with
  | none => s1
  | some w => match ownerStrand w.owner with
    | none => s1
    | some (t, i) => retryTile (postFault (tileStatus s1 t code) t i ⟨code, 0x20, 0⟩) t

/-- The result record is written, and its counter decremented (R586). -/
def redWrite (s : Chip) (k : RedKey) (h : RedHead) (r : PRec) : Chip :=
  let h' := match redWait s k with
    | some w => w.head
    | none => h
  match physOf s k.part k.tile with
  | none => s
  | some t =>
    if !tileOpen s t then s
    else if !r.empty && !stripeFits h'.ddata r.rows then redFault s k 0x20A1
    else retryTile (acArrive (writeRec s t h'.dtag h'.ddata r true) t h'.cnt) t

/-- What a reduction whose records have all come gives: one node, or nothing but EMPTY records; otherwise the code. -/
def redNode (x : Reduction) : Option PRec :=
  match x.held with
  | [] => some { x.shape with empty := true, vals := [] }
  | [r] => some r
  | _ => none

/-- A result moves on: a combined slice to every receiver (R587), any other to its tile. -/
def redResult (s : Chip) (x : Reduction) (r : PRec) : Chip :=
  if x.key.phase == 1 then
    let own := (getJob s x.key.part).rank
    let me := ((groupRanks s x.key.part x.key.group).findIdx? (· == own)).getD 0
    let dest := groupRanks s x.key.part x.head.dgroup
    let s1 := forEach dest (fun st m =>
      sendRecord st ⟨x.key.part, 0xFFE, 0⟩ 0 2 m { x.key with phase := 2 } { x.head with contributor := me } r false) s
    if dest.contains own then s1 else dropWait s1 x.key
  else dropWait (redWrite s x.key x.head r) x.key

/-- The slices of a result, in the order of the contributors (R587). -/
def joinSlices (x : Reduction) (n : Nat) : PRec :=
  { x.shape with vals := (List.range n).flatMap (fun i => ((x.slices.find? (fun p => p.1 == i)).map (fun p => p.2.vals)).getD []) }

def setReduction (s : Chip) (x : Reduction) : Chip :=
  fabMod s (fun f => { f with reductions := f.reductions.filter (fun y => y.key != x.key) ++ [x] })

def dropReduction (s : Chip) (k : RedKey) : Chip :=
  fabMod s (fun f => { f with reductions := f.reductions.filter (fun y => y.key != k) })

/-- A reduction goes on, or ends when its last record has come. -/
def redAdvance (s : Chip) (x : Reduction) (n : Nat) : Chip :=
  if x.came.length < n then setReduction s x
  else
    let s1 := dropReduction s x.key
    if x.ended then s1
    else if x.key.phase == 2 then redResult s1 x (joinSlices x n)
    else match redNode x with
      | some r => redResult s1 x r
      | none => dropWait (redFault s1 x.key 0x7001) x.key

/-- A record arrives at its reduction (R586, R587). -/
def redTake (s : Chip) (x : Reduction) (h : RedHead) (r : PRec) (n : Nat) : Chip :=
  let y := { x with came := x.came ++ [h.contributor] }
  if y.ended then redAdvance s y n
  else if y.key.phase == 2 then redAdvance s { y with slices := y.slices ++ [(h.contributor, r)] } n
  else
    let c := redCode x r
    if c != 0 then redAdvance (dropWait (redFault s y.key c) y.key) { y with ended := true } n
    else if r.empty then redAdvance s y n
    else
      let q := holdNode 40 (normRec r) y.held y.seen
      redAdvance s { y with held := q.1, seen := q.2, shape := if x.seen.isEmpty then r else x.shape } n

/-- REDUCER_RECORD_ARRIVAL (R586, R587): a malformed record is refused with 0x20A1. -/
def cmdReducerRecordArrival (key : RedKey) (head : RedHead) (record : List (BitVec 8)) (poison : Nat) (s : Chip) : Out :=
  onPart key.part s (fun st =>
    let n := (groupRanks st key.part key.group).length
    let x? := st.fab.reductions.find? (fun y => y.key == key)
    if n ≤ head.contributor || (x?.map (fun y => y.came.contains head.contributor)).getD false then st
    else
      match recOfBytes record poison with
      | none =>
        let z : PRec := ⟨tagOf 0, 1, 1, true, ⟨0, false⟩, ⟨0, false⟩, []⟩
        let x := x?.getD ⟨key, head, z, [], [], [], [], false⟩
        redAdvance (dropWait (redFault st key 0x20A1) key) { x with came := x.came ++ [head.contributor], ended := true } n
      | some r => redTake st (x?.getD ⟨key, head, r, [], [], [], [], false⟩) head r n)

/-- A record whose elements are all poisoned, of the shape of a reduction's first one, with the root's tag (R104, R587;
the tag is a DESIGN CHOICE, log 22). -/
def poisonRec (x : Reduction) : PRec :=
  let k := x.shape.tag.kind
  let bad : Elem := ⟨if k == 1 then 0 else poisonF32, true⟩
  { x.shape with
    tag := { x.shape.tag with level := tagHeight x.shape.tag, index := 0 }
    m := if k == 2 then bad else ⟨0, false⟩
    l := if k == 2 then bad else ⟨0, false⟩
    vals := (List.range (if x.shape.empty then 0 else
      if x.key.phase == 1 then x.shape.vals.length else x.shape.cols * x.shape.rows)).map (fun _ => bad) }

/-- REDUCTION_TIMEOUT (R587): the result is written poisoned, and the strand takes 0x3030. -/
def cmdReductionTimeout (key : RedKey) (s : Chip) : Out :=
  onPart key.part s (fun st =>
    match st.fab.reductions.find? (fun y => y.key == key && !y.ended) with
    | none => st
    | some x => setReduction (redResult (redFault st key 0x3030) x (poisonRec x)) { x with ended := true })

end Sys2Proof.Machine
end

