-- ==== Sys2Proof/Machine/Reset.lean ====
section
/-! DEFINITION. Resets (R599, R600, R627, R651, R694, R695; rows 272 to 278). -/

namespace Sys2Proof.Machine

/-- Bytes that a reset leaves undefined: each byte written before takes a free value (R600; DESIGN CHOICE, logs 4 and 9). -/
def undefinedBytes (d : Nat) (m : Tab Byte) : Tab Byte :=
  m.foldl (fun a p => mset a p.1 (BitVec.ofNat 8 (Config.freeAt d p.1))) []

/-- The module of a channel stays in its slot. -/
def sameModule (x : Chan) : Chan := { populated := x.populated, cap := x.cap, ranks := x.ranks, best := x.best }

/-- The package is powered and its regulators run (R694, R697). -/
def alive (s : Chip) : Bool := s.boot.pwrgood && !s.boot.off

/-- The hottest junction sensor, in 1/16 °C. -/
def junction (s : Chip) : Int :=
  let t (hi : Nat) : Int := signed 16 (fget s aTHERM_TEMP hi (hi - 15))
  max (max (t 63) (t 47)) (max (t 31) (t 15))

/-- What fuses put into registers (R12, R13, R43, R600, R609, R613, R657): the spare carries the lowest row whose Knuckle
link failed at test, and the other ones are in detour from reset. -/
def fuseBar (old s : Chip) : Chip :=
  let s1 := forEach [0x0, 0x8, 0x10, 0x18, 0x30, aTHERM_CFG] (fun st k => barSet st k (barGet old k)) s
  let f := aSEC_STATUS
  let s2 := fset (fset s1 f 47 40 (fget old f 47 40)) f 39 36 (fget old f 39 36)
  match bitsBelow 12 old.mesh.rowsFailed with
  | [] => fset s2 aMESH_STATUS 23 20 0xF
  | y :: r => fset (fset s2 aMESH_STATUS 23 20 y) aMESH_STATUS 35 24 (r.foldl (fun a k => a + 2 ^ k) 0)

/-- The power domains of enabled tile groups (R650). -/
def enabledGroups (s : Chip) : Nat := ((List.range 36).filter (groupEnabled s)).foldl (fun a g => a + 2 ^ g) 0

/-- Registers that a reset does not return to their reset values: fuses (R600), pin levels and VIN (R714), and the domains:
after a cold reset every enabled one but debug is on, after another they are as written with every enabled tile group on
(R651). -/
def keepBar (old : Chip) (cold : Bool) (s : Chip) : Chip :=
  let s1 := fuseBar old s
  let s2 := fset (fset (fset s1 aPKG_PINS 63 48 (fget old aPKG_PINS 63 48)) aPKG_PINS 7 4 (fget old aPKG_PINS 7 4))
    aPKG_PINS 0 0 (fget old aPKG_PINS 0 0)
  let w := if cold then 2 ^ 49 - 2 ^ 36 + enabledGroups old else Nat.lor old.ras.wrote (enabledGroups old)
  rasMod (barSet s2 aPWR_DOMAIN w) (fun r => { r with wrote := w })

/-- Everything that a cold, conventional or PF function-level reset resets (R599, R600): host memory, the modules in their
slots and the fuses stay; MRDIMM contents are undefined; the management endpoint survives all but a cold reset (R627). -/
def resetPackage (s : Chip) (cold keepLink : Bool) : Chip :=
  let z : Chip := { ({} : Chip) with
    freeCtr := s.freeCtr + 1
    resp := s.resp
    irqs := s.irqs
    ibis := s.ibis
    images := s.images
    mesh := { ({} : MeshS) with rowsFailed := s.mesh.rowsFailed }
    mem := { ({} : MemS) with
      host := s.mem.host
      chans := s.mem.chans.foldl (fun t p => tset (fun _ => ({} : Chan)) p.1 (sameModule p.2) t) []
      dram := undefinedBytes (Config.freeNat s.freeCtr) s.mem.dram }
    boot := { ({} : Boot) with
      pwrgood := s.boot.pwrgood
      perst := s.boot.perst
      dynAddr := if cold then none else s.boot.dynAddr
      eid := if cold then none else s.boot.eid
      mctpAnswer := if cold then [] else s.boot.mctpAnswer
      lanes := if keepLink then s.boot.lanes else 0
      rate := if keepLink then s.boot.rate else 0 } }
  rasMod (keepBar s cold z) (fun r => { r with brake := s.ras.brake })

/-- The thermal trip state holds every domain but the root of trust and the host interface off (R656). -/
def tripDomains : Nat := 2 ^ 47 + 2 ^ 48

/-- A conventional reset (R599): the trip state is left only when the junction is below the throttle point (R656). -/
def conventional (s : Chip) (keepLink : Bool) : Chip :=
  let hot := s.ras.tripped && decide ((fget s aTHERM_CFG 15 0 : Int) ≤ junction s)
  let z := resetPackage s false keepLink
  if hot then
    rasMod (fsetb (barSet (barSet z aPWR_DOMAIN tripDomains) aTHERM_TEMP (barGet s aTHERM_TEMP)) aPKG_PINS 1 true)
      (fun r => { r with tripped := true })
  else z

/-- PWRGOOD_ASSERT (R599, R694, R695): a cold reset. -/
def cmdPwrgoodAssert (s : Chip) : Out :=
  .next (when (!s.boot.pwrgood) s (fun st => resetPackage (bootMod st (fun b => { b with pwrgood := true })) true false))

/-- New host writes, fronthaul frames and fabric requests stop (R658). -/
def stopOutput (s : Chip) : Chip := bootMod s (fun b => { b with undervolt := true })

/-- PWRGOOD_DEASSERT (R658, R695): as an undervoltage, and every domain switches off. THERMTRIP# is released. -/
def cmdPwrgoodDeassert (s : Chip) : Out :=
  .next (when s.boot.pwrgood s (fun st =>
    fsetb (barSet (stopRadio (stopOutput (bootMod st (fun b => { b with pwrgood := false })))) aPWR_DOMAIN 0) aPKG_PINS 1 false))

/-- PERST_ASSERT (R599, R694). -/
def cmdPerstAssert (s : Chip) : Out :=
  .next (
    let s1 := bootMod s (fun b => { b with perst := true })
    if alive s then conventional s1 false else s1)

/-- PERST_DEASSERT (R603): the ROM goes on toward stage 0x1. -/
def cmdPerstDeassert (s : Chip) : Out := .next (bootMod s (fun b => { b with perst := false }))

/-- CXL_HOT_RESET (R599). -/
def cmdCxlHotReset (s : Chip) : Out := .next (when (alive s) s (fun st => conventional st false))

/-- CXL_LINK_DOWN_TIMEOUT (R599). -/
def cmdCxlLinkDownTimeout (s : Chip) : Out := .next (when (alive s) s (fun st => conventional st false))

/-- PF_FLR (R599): the CXL link stays up with its negotiated state. -/
def cmdPfFlr (s : Chip) : Out := .next (when (alive s) s (fun st => conventional st true))

end Sys2Proof.Machine
end

