-- ==== Sys2Proof/Machine/Boot.lean ====
section
/-! DEFINITION. Boot stages, firmware images, fuses and the watchdog (R601 to R612; rows 279 to 284). -/

namespace Sys2Proof.Machine

/-- Hearth firmware runs: stages 0x3 to 0x6 (R602, R609). -/
def hearthRuns (s : Chip) : Bool := decide (3 ≤ stageNow s) && decide (stageNow s ≤ 6)

/-- The fused SVN counter and revocation bits as bytes (DESIGN CHOICE, log 11). -/
def fuseBytes (s : Chip) : List Byte := leBytes 1 (fget s aSEC_STATUS 47 40) ++ leBytes 1 (fget s aSEC_STATUS 39 36)

/-- M3 extended by the fuses (R611). -/
def measureFuses (s : Chip) : Chip := extendM s 3 (sha3 (fuseBytes s))

/-- WATCHDOG_EXPIRY (R601). -/
def cmdWatchdogExpiry (s : Chip) : Out := .next (when (hearthRuns s) s (fun st => secCode (failPart st) 0x6020))

/-- IMAGE_LOAD_GO (R602, R608): a GO while a load is under way is refused with 0x6007. -/
def loadGo (s : Chip) : Chip :=
  if s.boot.load.isSome then secCode s 0x6007
  else if stageNow s == 1 || hearthRuns s then
    let s1 := bootMod s (fun b => { b with load := some ⟨barGet s aSEC_FW_ADDR, fget s aSEC_FW_LEN 31 0⟩ })
    if stageNow s == 1 then setStage s1 2 else s1
  else s

def cmdImageLoadGo (s : Chip) : Out := .next (loadGo s)

/-- Body limits (R605). -/
def bodyLimit (t : Nat) : Nat :=
  if t == 1 then 12 * 2 ^ 20 else if t == 2 || t == 3 then 2 * 2 ^ 20 else if t == 4 then 2 ^ 20 else if t == 5 then 8 * 2 ^ 20 else 0

/-- An image type may be loaded now (R605): the Hearth image in stage 0x2, the others once the Hearth runs, each once. -/
def typeAllowed (s : Chip) (t : Nat) : Bool :=
  decide (1 ≤ t) && decide (t ≤ 6) && !(fget s aSEC_STATUS 21 16).testBit (t - 1) && (if t == 1 then stageNow s == 2 else hearthRuns s)

/-- The checks of a signed image in their order (R606, R607): the code of the first that fails, 0 when all pass. -/
def imageCode (s : Chip) (len : Nat) (b : List Byte) : Nat :=
  let t := bNat b 0 1
  let slot := bNat b 1 1
  let body := b.drop 4096
  if decide (len < 4096) || len != 4096 + bNat b 12 4 || (decide (1 ≤ t ∧ t ≤ 5) && decide (bodyLimit t < bNat b 12 4)) ||
      !bZero b 2 2 || !bZero b 3780 316 || decide (64 < bNat b 4 4) then 0x6001
  else if !typeAllowed s t then 0x6005
  else if 4 ≤ slot || (fget s aSEC_STATUS 39 36).testBit slot || sha3 ((b.drop 48).take 1312) != (Config.keyHash slot).take 32 then 0x6003
  else if bNat b 4 4 < fget s aSEC_STATUS 47 40 then 0x6004
  else if sha3 body != (b.drop 16).take 32 then 0x6002
  else if !Config.sigOk 0 ((b.drop 48).take 3732 ++ sha3 (b.take 48)) then 0x6002
  else 0

/-- The check of a boot parameter block (R610). -/
def blockCode (s : Chip) (len : Nat) (b : List Byte) : Nat :=
  if bNat b 1 1 != 0x10 || decide (64 < bNat b 2 1) || !bZero b 3 5 || len != 8 + 8 * bNat b 2 1 then 0x6001
  else if !typeAllowed s 6 then 0x6005
  else 0

/-- An image is loaded (R605). -/
def markLoaded (s : Chip) (t : Nat) : Chip := fset s aSEC_STATUS 21 16 (Nat.lor (fget s aSEC_STATUS 21 16) (2 ^ (t - 1)))

/-- A signed image that passed is measured and loaded (R602, R611): the Hearth image starts stage 0x3, and the last of
types 0x02 to 0x05 stage 0x4. -/
def takeImage (s : Chip) (b : List Byte) : Chip :=
  let t := bNat b 0 1
  let d := sha3 (b.take 48)
  let s1 := extendM (markLoaded s t) (if t == 1 then 0 else 1) d
  if t == 1 then setStage (bootMod s1 (fun x => { x with hearth := some (bNat b 4 4, bNat b 1 1) })) 3
  else if stageNow s1 == 3 && bitsOf (fget s1 aSEC_STATUS 21 16) 4 1 == 0xF then advanceStage (setStage s1 4)
  else s1

/-- A boot parameter block that passed (R610). -/
def takeBlock (s : Chip) (b : List Byte) : Chip :=
  bootMod (extendM (markLoaded s 6) 2 (sha3 b)) (fun x => { x with
    hppr := (List.range (bNat b 2 1)).map (fun i => bNat b (8 + 8 * i) 8) })

/-- A load ends with a code (R602, R607): a refused Hearth image takes the stage back to 0x1. -/
def loadFails (s : Chip) (code : Nat) : Chip :=
  let s1 := secCode s code
  if stageNow s1 == 2 then setStage s1 1 else s1

/-- IMAGE_VERIFY (R605 to R608, R610). -/
def cmdImageVerify (hostReadOk : Bool) (s : Chip) : Out :=
  .next (match s.boot.load with
    | none => s
    | some l =>
      let s1 := bootMod s (fun b => { b with load := none })
      if !hostReadOk || hostShut s1 then loadFails s1 0x6006
      else
        let r := hostRead s1 16 l.addr l.len
        let block := bNat r.2 0 1 == 6
        let code := if block then blockCode r.1 l.len r.2 else imageCode r.1 l.len r.2
        if code != 0 then loadFails r.1 code else if block then takeBlock r.1 r.2 else takeImage r.1 r.2)

/-- SEC_BOOT_CTL.SVN_COMMIT (R609, R611): never lowers the counter. -/
def svnCommit (s : Chip) : Chip :=
  match s.boot.hearth with
  | none => s
  | some h => if hearthRuns s then measureFuses (fset s aSEC_STATUS 47 40 (max h.1 (fget s aSEC_STATUS 47 40))) else s

/-- SVN_COMMIT (R609). -/
def cmdSvnCommit (s : Chip) : Out := .next (svnCommit s)

/-- SEC_BOOT_CTL.REVOKE (R609, R611): refused for the slot of the running Hearth image and for the last slot left. -/
def revokeSlot (s : Chip) (slot : Nat) : Chip :=
  let old := fget s aSEC_STATUS 39 36
  let new := Nat.lor old (2 ^ slot)
  if !hearthRuns s then s
  else if (s.boot.hearth.map (·.2)) == some slot || new == 0xF then secCode s 0x6008
  else measureFuses (fset s aSEC_STATUS 39 36 new)

/-- REVOKE (R609). -/
def cmdRevoke (slot : Nat) (s : Chip) : Out := onUnit "key slot" 4 slot s (fun st => revokeSlot st slot)

end Sys2Proof.Machine
end

