-- ==== Sys2Proof/Machine/Attest.lean ====
section
/-! DEFINITION. Attestation, keys, coherence bias, link encryption and the management endpoint (R603, R612 to R621,
R626 to R628; rows 279, 285 to 300 and 333). -/

namespace Sys2Proof.Machine

-- Cryptography of the standards (DESIGN CHOICE, log 11) -----------------------------------------------------------------------

/-- `n` bytes that an operation of a standard makes: 0 identity public key, 1 alias public key, 2 a signature of the
identity key, 3 of the alias key, 4 an encapsulation key, 5 a shared secret, 6 a decrypted payload, 9 an MCTP control
answer. -/
def crypto (op n : Nat) (input : List Byte) : List Byte :=
  (Config.crypto op input ++ List.replicate n 0#8).take n

def identityPub : List Byte := crypto 0 1312 []

/-- The alias key depends on M0 as the Hearth image left it (R612). -/
def aliasPub (s : Chip) : List Byte := crypto 1 1312 (measureBytes s 0)

/-- The alias key exists (R612, R616). -/
def hasAlias (s : Chip) : Bool := s.boot.hearth.isSome

/-- A signature over the SHA3-256 of bytes, and its signer byte (R614, R616). -/
def signed32 (s : Chip) (m : List Byte) : List Byte :=
  if hasAlias s then crypto 3 2420 (measureBytes s 0 ++ sha3 m) else crypto 2 2420 (sha3 m)

-- Messages (R614) ----------------------------------------------------------------------------------------------

/-- An attestation message: code, version, status, payload. -/
def attestMsg (code status : Nat) (payload : List Byte) : List Byte :=
  leBytes 1 code ++ leBytes 1 0x10 ++ leBytes 2 status ++ leBytes 4 payload.length ++ payload

/-- The answer goes back over the carrier of its request. -/
def giveAnswer (s : Chip) (mctp : Bool) (m : List Byte) : Chip :=
  bootMod s (fun b => if mctp then { b with mctpAnswer := m } else { b with doeAnswer := m })

/-- A request refused with a code. -/
def attestRefuse (s : Chip) (mctp : Bool) (code status : Nat) : Chip :=
  giveAnswer (secCode s status) mctp (attestMsg (code + 0x80) status [])

def attestGive (s : Chip) (mctp : Bool) (code : Nat) (payload : List Byte) : Chip :=
  giveAnswer s mctp (attestMsg (code + 0x80) 0 payload)

/-- GET_IDENTITY's payload (R614, R616). -/
def identityPayload (s : Chip) : List Byte :=
  leBytes 8 (barGet s 0x30) ++ leBytes 8 (barGet s 0) ++ identityPub ++
    (if hasAlias s then
      aliasPub s ++ crypto 2 2420 (sha3 (aliasPub s ++ measureBytes s 0))
    else List.replicate 3732 0#8)

/-- GET_MEASUREMENTS's answer (R614, R616): internal debug is closed on every part (R703). -/
def quote (s : Chip) (nonce : List Byte) (mask : Nat) : List Byte :=
  let body := nonce ++ (bitsBelow 8 mask).flatMap (measureBytes s) ++ fuseBytes s ++ leBytes 1 0 ++ leBytes 1 (b2n (!hasAlias s))
  let m := leBytes 1 0x83 ++ leBytes 1 0x10 ++ leBytes 2 0 ++ leBytes 4 (body.length + 2420) ++ body
  m ++ signed32 s m

/-- The key slot of a stream, direction and key set (R614). -/
def ideKey (stream dir set : Nat) : Nat := 4 * stream + 2 * dir + set
def ideOk (stream dir set : Nat) : Bool := decide (stream < 2) && decide (dir < 2) && decide (set < 2)

/-- KEY_GO (R614, R620): traffic of an insecure stream resumes once both directions run on keys loaded since. -/
def keyGo (s : Chip) (stream dir set : Nat) : Chip :=
  bootMod s (fun b =>
    let go := tmark b.ideGo (ideKey stream dir set) true
    let runs (d : Nat) : Bool := tmem go (ideKey stream d 0) || tmem go (ideKey stream d 1)
    { b with
      ideGo := go
      insecure := if runs 0 && runs 1 then tmark b.insecure stream false else b.insecure })

/-- KEY_PROG's plaintext (R614; DESIGN CHOICE, log 11): stream, direction, key set, 32-byte key and 8-byte initial IV. -/
def keyProg (s : Chip) (mctp : Bool) (key payload : List Byte) : Chip :=
  let p := crypto 6 43 (key ++ payload)
  let stream := bNat p 0 1
  let dir := bNat p 1 1
  let set := bNat p 2 1
  if !Config.sigOk 1 (key ++ payload) || !ideOk stream dir set then attestRefuse s mctp 0x12 0x6013
  else
    attestGive (bootMod s (fun b => { b with ideKeys := tset (fun _ => []) (ideKey stream dir set) (p.drop 3) b.ideKeys })) mctp 0x12 []

/-- A KEY_GO or KEY_STOP under the session (R614). -/
def keyTurn (s : Chip) (mctp : Bool) (code : Nat) (p : List Byte) : Chip :=
  let stream := bNat p 0 1
  let dir := bNat p 1 1
  let set := bNat p 2 1
  if !ideOk stream dir set || (code == 0x13 && (tget (fun _ => []) s.boot.ideKeys (ideKey stream dir set)).isEmpty) then
    attestRefuse s mctp code 0x6013
  else if code == 0x13 then attestGive (keyGo s stream dir set) mctp code []
  else attestGive (bootMod s (fun b => { b with ideGo := tmark b.ideGo (ideKey stream dir set) false })) mctp code []

/-- SESSION_START (R614, R616): a new one ends the old session. -/
def sessionStart (s : Chip) (mctp : Bool) (req : List Byte) : Chip :=
  if !hasAlias s then attestRefuse s mctp 0x10 0x6015
  else
    let ek := crypto 4 1184 (leBytes 8 (Config.freeNat s.freeCtr))
    let m := attestMsg 0x90 0 (ek ++ signed32 s ek)
    giveAnswer (bootMod { s with freeCtr := s.freeCtr + 1 } (fun b => { b with session := some (req ++ m), sessionKey := none })) mctp m

/-- SESSION_FINISH (R614). -/
def sessionFinish (s : Chip) (mctp : Bool) (req c : List Byte) : Chip :=
  match s.boot.session, s.boot.sessionKey with
  | some msgs, none =>
    let m := attestMsg 0x91 0 []
    let key := sha3 (crypto 5 32 (msgs ++ c) ++ sha3 (msgs ++ req ++ m))
    giveAnswer (bootMod s (fun b => { b with session := some (msgs ++ req ++ m), sessionKey := some key })) mctp m
  | _, _ => attestRefuse s mctp 0x11 0x6012

/-- The payload length that a request has (R614); `none` for an unknown code. -/
def requestLen (code : Nat) : Option Nat :=
  match code with
  | 0x01 => some 0
  | 0x02 => some 0
  | 0x03 => some 33
  | 0x04 => some 33
  | 0x10 => some 0
  | 0x11 => some 1088
  | 0x12 => some 8185
  | 0x13 => some 3
  | 0x14 => some 3
  | _ => none

/-- A request that the root of trust serves (R614, R615). -/
def serve (s : Chip) (mctp : Bool) (req : List Byte) : Chip :=
  let code := bNat req 0 1
  let p := req.drop 8
  match requestLen code with
  | none => attestRefuse s mctp (code % 128) 0x6011
  | some n =>
    if bNat req 1 1 != 0x10 then attestRefuse s mctp code 0x6011
    else if bNat req 4 4 != p.length || (if n == 8185 then decide (8184 < p.length) else p.length != n) ||
        (code == 0x04 && bNat p 0 1 != 6 && bNat p 0 1 != 7) then attestRefuse s mctp code 0x6010
    else if code == 0x01 then attestGive s mctp code [0x10#8]
    else if code == 0x02 then attestGive s mctp code (identityPayload s)
    else if code == 0x03 then giveAnswer s mctp (quote s (p.take 32) (bNat p 32 1))
    else if code == 0x04 then attestGive (extendM s (bNat p 0 1) (p.drop 1)) mctp code []
    else if code == 0x10 then sessionStart s mctp req
    else if code == 0x11 then sessionFinish s mctp req p
    else match s.boot.sessionKey with
      | none => attestRefuse s mctp code 0x6012
      | some key => if code == 0x12 then keyProg s mctp key p else keyTurn s mctp code p

/-- A request arrives (R603, R614, R616): in stage 0x0 it waits until the identity key has been derived. -/
def attest (s : Chip) (mctp : Bool) (code : Nat) (payload : List Byte) : Out :=
  let req := attestMsg code 0 payload
  .next (
    if !alive s then s
    else if stageNow s == 0 then bootMod s (fun b => { b with early := b.early ++ [(mctp, req)] })
    else serve s mctp req)

/-- ROM_SELFTEST_COMPLETE (R602 to R604, R611, R616): the identity key is derived, the fuses are measured, and the
requests that waited are answered; a failure leaves the part in stage 0xF. -/
def cmdRomSelftestComplete (pass : Bool) (s : Chip) : Out :=
  .next (when (alive s && !s.boot.perst && !s.ras.tripped && stageNow s == 0) s (fun s0 =>
    let s1 := setStage (measureFuses (bootMod s0 (fun b => { b with early := [] }))) (if pass then 1 else 0xF)
    forEach s0.boot.early (fun st r => serve st r.1 r.2) s1))

def cmdGetVersion (mctp : Bool) (s : Chip) : Out := attest s mctp 0x01 []
def cmdGetIdentity (mctp : Bool) (s : Chip) : Out := attest s mctp 0x02 []
def cmdGetMeasurements (mctp : Bool) (nonce : List (BitVec 8)) (mask : Nat) (s : Chip) : Out :=
  attest s mctp 0x03 (nonce ++ leBytes 1 mask)
def cmdExtend (mctp : Bool) (register : Nat) (digest : List (BitVec 8)) (s : Chip) : Out :=
  attest s mctp 0x04 (leBytes 1 register ++ digest)
def cmdSessionStart (mctp : Bool) (s : Chip) : Out := attest s mctp 0x10 []
def cmdSessionFinish (mctp : Bool) (ciphertext : List (BitVec 8)) (s : Chip) : Out := attest s mctp 0x11 ciphertext
def cmdKeyProg (mctp : Bool) (payload : List (BitVec 8)) (s : Chip) : Out := attest s mctp 0x12 payload
def cmdKeyGo (mctp : Bool) (stream dir set : Nat) (s : Chip) : Out :=
  attest s mctp 0x13 (leBytes 1 stream ++ leBytes 1 dir ++ leBytes 1 set)
def cmdKeyStop (mctp : Bool) (stream dir set : Nat) (s : Chip) : Out :=
  attest s mctp 0x14 (leBytes 1 stream ++ leBytes 1 dir ++ leBytes 1 set)

-- The host link (R617 to R621) ---------------------------------------------------------------------------------

/-- A write of HOST_BIAS (R618, R630): a GO starts a flip unless one is in progress. -/
def biasWrite (s : Chip) (v : Nat) : Chip :=
  let s1 := fsetb (fset s aHOST_BIAS 47 21 (bitsOf v 47 21)) aHOST_BIAS 1 (bitOf v 1)
  if bitOf v 0 && !fbit s aHOST_BIAS 63 then
    { fsetb s1 aHOST_BIAS 63 true with mem := { s1.mem with flip := some (bitsOf v 47 21, bitOf v 1) } }
  else s1

/-- BIAS_FLIP (R618). -/
def cmdBiasFlip (data : Word) (s : Chip) : Out := .next (biasWrite s data.toNat)

/-- BIAS_FLIP_COMPLETE (R618, R620): ownership requests do not go out on an insecure stream. -/
def cmdBiasFlipComplete (s : Chip) : Out :=
  .next (match s.mem.flip with
    | none => s
    | some (page, dev) =>
      if dev && tmem s.boot.insecure 1 then s
      else fsetb { s with mem := { s.mem with flip := none, bias := tmark s.mem.bias page dev } } aHOST_BIAS 63 false)

/-- IDE_INTEGRITY_FAILURE (R620): the stream is insecure until new keys run. -/
def cmdIdeIntegrityFailure (stream : Nat) (s : Chip) : Out :=
  onUnit "stream" 2 stream s (fun st =>
    secCode (bootMod st (fun b => { b with
      insecure := tmark b.insecure stream true
      ideKeys := tclear (4 * stream) (4 * stream + 4) b.ideKeys
      ideGo := tclear (4 * stream) (4 * stream + 4) b.ideGo })) 0x6014)

/-- CXL_LINK_TRAINED (R617, R621): 16, 8 or 4 lanes at 32, 16 or 8 GT/s; a lesser link raises the vector of the RAS and
health block (DEDUCED, log 23). -/
def cmdCxlLinkTrained (lanes rate : Nat) (s : Chip) : Out :=
  .next (when (alive s && !s.boot.perst && [4, 8, 16].contains lanes && [8, 16, 32].contains rate) s (fun st =>
    let s1 := bootMod st (fun b => { b with lanes := lanes, rate := rate })
    if lanes == 16 && rate == 32 then s1 else rasIrq s1))

-- The management endpoint (R626 to R628, R644) -----------------------------------------------------------------

/-- ENTDAA (R626). -/
def cmdEntdaa (addr : Nat) (s : Chip) : Out :=
  .next (when (alive s) s (fun st => bootMod st (fun b => { b with dynAddr := some (addr % 128) })))

/-- SET_ENDPOINT_ID (R626). -/
def cmdSetEndpointId (eid : Nat) (s : Chip) : Out :=
  .next (when (alive s) s (fun st => bootMod st (fun b => { b with eid := some (eid % 256) })))

def mctpGive (s : Chip) (m : List Byte) : Chip := bootMod s (fun b => { b with mctpAnswer := m })

/-- MCTP_CONTROL (R628): a malformed message is refused with 0x6040; the answer is that of DSP0236 (DESIGN CHOICE, log 11). -/
def cmdMctpControl (wellFormed : Bool) (code : Nat) (s : Chip) : Out :=
  .next (when (alive s) s (fun st =>
    if wellFormed then mctpGive st (Config.crypto 9 (leBytes 1 code)) else secCode st 0x6040))

/-- Tiles out of service (R639). -/
def tilesOut (s : Chip) : Nat :=
  ((List.range 144).filter (fun t => tileEnabled s t && (tileFenced s t || tmem s.ras.failed t))).length

/-- Tiles enabled by fuse (R4). -/
def tilesOn (s : Chip) : Nat := ((List.range 144).filter (tileEnabled s)).length

/-- The sensors (R628, R644), numbered by the model (DESIGN CHOICE, log 13): 0 package power, 1 to 3 the junction temperatures of compute
dies 0 and 1 and the I/O die, 4 the health score, 5 tiles remaining, 6 spare wavelengths, 7 degraded but serving. -/
def sensor (s : Chip) (n : Nat) : Option Nat :=
  match n with
  | 0 => some (fget s aPWR_STATUS 63 53)
  | 1 => some (fget s aTHERM_TEMP 63 48)
  | 2 => some (fget s aTHERM_TEMP 47 32)
  | 3 => some (fget s aTHERM_TEMP 31 16)
  | 4 => some (fget s aHEALTH 63 54)
  | 5 => some (tilesOn s - tilesOut s)
  | 6 => some (fget s aFAB_STATUS 23 16)
  | 7 => some (b2n (fget s aHEALTH 53 52 != 0))
  | _ => none

/-- PLDM_REQUEST (R628): before stage 0x3 "not ready" (DESIGN CHOICE, log 13: first byte 1); otherwise 0 and the value. -/
def cmdPldmRequest (wellFormed : Bool) (sensor : Nat) (s : Chip) : Out :=
  .next (when (alive s) s (fun st =>
    if !wellFormed then secCode st 0x6040
    else if stageNow st < 3 then mctpGive st [1#8]
    else match Sys2Proof.Machine.sensor st sensor with
      | some v => mctpGive st (0#8 :: leBytes 4 v)
      | none => secCode st 0x6040))

end Sys2Proof.Machine
end

