-- ==== Sys2Proof/Machine/Temper.lean ====
section
/-! DEFINITION. Temper, parity, fatal errors and the health score (R632, R637 to R649; rows 172 and 301 to 305). -/

namespace Sys2Proof.Machine

-- Temper (R623, R646 to R648) ----------------------------------------------------------------------------------

/-- Groups tested at once (R623, R645, R647): eight at boot. -/
def temperRoom (s : Chip) : Nat := if stageNow s == 6 then max 1 (min 8 (fget s aTEMPER_CTL 3 0)) else 8

/-- Groups under test, or taken at a Quench announced for Temper (R646, R647). -/
def temperBusy (s : Chip) : Nat :=
  s.ras.tests.length + ((List.range 16).flatMap (fun p => (getPart s p).moves.filter (fun m => m.origin == .temper))).length

/-- A group that Temper may be asked to test (R647, R650). -/
def temperMay (s : Chip) (g : Nat) : Bool :=
  decide (4 ≤ stageNow s) && decide (stageNow s ≤ 6) && decide (g < 36) && groupEnabled s g && domainOn s g &&
    !(s.ras.tests.any (fun x => x.group == g))

/-- Temper may begin with a group now (R647). -/
def temperCan (s : Chip) (g : Nat) : Bool := temperMay s g && decide (temperBusy s < temperRoom s)

/-- The group's request waits for a Strike boundary (R646). -/
def want (s : Chip) (g : Nat) : Chip :=
  if s.ras.wanted.contains g then s else rasMod s (fun r => { r with wanted := r.wanted ++ [g] })

/-- The group's request waits no longer. -/
def unwant (s : Chip) (g : Nat) : Chip := rasMod s (fun r => { r with wanted := r.wanted.filter (· != g) })

/-- The partition that holds a group. -/
def holderOf (s : Chip) (g : Nat) : Option Nat := (List.range 16).find? (fun p => (heldGroups s p).testBit g)

/-- A group of no partition is taken directly (R646). -/
def testFree (s : Chip) (g : Nat) : Chip :=
  let s1 := forEach (groupTiles g) cleanTile (unwant s g)
  let s2 := forEach (groupTiles g) (fun u t => fsetb u (aTILE_STATUS t) 0 false) s1
  rasMod s2 (fun r => { r with tests := r.tests ++ [⟨g, 16, [], false⟩] })

/-- Logical indices of partition 0 on the tiles of a group. -/
def anvilOf (s : Chip) (g : Nat) : List Nat := (groupTiles g).filterMap (fun t => if tileAnvil s t then logOf s t else none)

/-- The logical tiles of a group that run phases of the plan now. -/
def workingOf (s : Chip) (g : Nat) : List Nat :=
  match s.radio.plan with
  | none => []
  | some p =>
    if !s.radio.running then []
    else (anvilOf s g).filter (fun l => (List.range (tierTop p (tierNow s))).any (fun w => decide (p.nspare ≤ w) && runsOn s w == l))

/-- Spares enough for the working tiles of a group are free outside it (R430, R646). -/
def sparesFor (s : Chip) (g : Nat) : Bool :=
  match s.radio.plan with
  | none => false
  | some p => decide ((workingOf s g).length ≤ ((freeSpares s p).filter (fun l => !(anvilOf s g).contains l)).length)

/-- Working tiles of an Anvil group that Temper must take are lost, so that their phases move to spares at the next
boundary; with no spare free the request waits (R430, R646). -/
def yieldAnvil (s : Chip) (g : Nat) : Chip :=
  if temperCan s g && sparesFor s g then forEach (workingOf s g) radioLose s else s

/-- A group of the Anvil partition is taken once none of its tiles runs a phase (R430, R646). -/
def testAnvil (s : Chip) (g : Nat) : Chip :=
  if (workingOf s g).isEmpty then takeForTest (forEach (anvilOf s g) radioLose (unwant s g)) 0 (2 ^ g) else yieldAnvil s g

/-- A group of a tenant partition is asked for with the lead (R521, R646, R647), or taken where the partition has no program
(R522). -/
def testTenant (s : Chip) (p g : Nat) : Chip :=
  if movePending s p (2 ^ g) then s
  else if (getPart s p).prog.isNone then takeForTest (unwant s g) p (2 ^ g)
  else announce (unwant s g) p .temper (2 ^ g) (s.radio.number + quenchLead s) p

/-- A group that waits is taken, or asked for (R646). -/
def temperStart (s : Chip) (g : Nat) : Chip :=
  if !temperCan s g then s
  else match holderOf s g with
    | none => testFree s g
    | some 0 => testAnvil s g
    | some p => testTenant s p g

/-- Requests that wait are served when they can be (R646). -/
def temperWaiting (s : Chip) : Chip := forEach s.ras.wanted temperStart s

/-- A request in service (R646, R647): tiles leave their pool at a Strike boundary, so it waits for one, but working tiles
of the Anvil yield to spares, and a tenant with a program is told, at once. -/
def temperAsk (s : Chip) (g : Nat) : Chip :=
  match holderOf s g with
  | none => s
  | some 0 => yieldAnvil s g
  | some p => if temperCan s g && !(getPart s p).prog.isNone then testTenant s p g else s

/-- A request (R602, R646, R647): before service a group is taken at once. -/
def temperRequest (s : Chip) (g : Nat) : Chip :=
  when (temperMay s g) s (fun st => if stageNow st == 6 then temperAsk (want st g) g else temperStart (want st g) g)

/-- TEMPER_SCHEDULE (R646, R647): the timer names the next group. -/
def cmdTemperSchedule (group : Nat) (s : Chip) : Out := onUnit "tile group" 36 group s (fun st => temperRequest st group)

/-- Temper takes the groups that wait at a Strike boundary (R646). -/
def temperBoundary (s : Chip) : Chip := when (stageNow s != 0xF) s temperWaiting

/-- STRIKE_BOUNDARY (R412, R500, R503, R646). -/
def cmdStrikeBoundary (s : Chip) : Out := .next (stepsOver s (temperBoundary (strikeBoundary s)))

/-- Tiles of a group that fail a test, by a mask over its enabled tiles in order (R648). -/
def failingTiles (s : Chip) (g mask : Nat) : List Nat :=
  ((List.range 4).zip (groupTiles g)).filterMap (fun x => if mask.testBit x.1 && tileEnabled s x.2 then some x.2 else none)

/-- The verdict on each tile (R602, R648): a failing one is fenced. -/
def judgeTile (bad : List Nat) (s : Chip) (t : Nat) : Chip :=
  if !tileEnabled s t then s
  else if bad.contains t then fenceTile (rasMod s (fun r => { r with failed := tmark r.failed t true })) t
  else if tileFenced s t then s
  else fsetb s (aTILE_STATUS t) 0 true

/-- A test ends (R465, R527, R648): the group returns at the next boundary; a tenant's group of which a tile failed does
not, and its partition receives a notice of KIND 0x3. -/
def testEnds (s : Chip) (x : Test) (bad : List Nat) : Chip :=
  let s1 := forEach (groupTiles x.group) (judgeTile bad) s
  let away := x.away.filter (fun a => !bad.contains a.2)
  let set (st : Chip) (y : Test) : Chip :=
    rasMod st (fun r => { r with tests := r.tests.map (fun z => if z.group == x.group then y else z) })
  let s2 :=
    if 16 ≤ x.part then
      (let u := set s1 { x with back := true }
      if bad.isEmpty && u.radio.claims.testBit x.group then
        rdMod u (fun r => { r with joining := Nat.lor r.joining (2 ^ x.group) })
      else u)
    else if x.part == 0 || bad.isEmpty then set s1 { x with away := away, back := true }
    else
      let lt := x.away.foldl (fun a w => a + 2 ^ w.1) 0
      let u := notice (leavePart s1 x.part (2 ^ x.group)) x.part 3 3 0 lt
      set u { x with part := 16, away := [], back := true }
  let s3 := advanceStage s2
  if stageNow s3 == 6 then s3 else temperWaiting s3

/-- TEMPER_TEST_COMPLETE (R648). -/
def cmdTemperTestComplete (group failMask : Nat) (s : Chip) : Out :=
  onUnit "tile group" 36 group s (fun st =>
    match st.ras.tests.find? (fun x => x.group == group && !x.back) with
    | none => st
    | some x => testEnds st x (failingTiles st group failMask))

-- Parity (R631, R632) ------------------------------------------------------------------------------------------

/-- An element of a 64-bit lane poisoned (R104): two FP32 elements or one INT64 element to a lane. -/
def poisonElems (kind lane : Nat) (l : List Elem) : List Elem :=
  (List.range l.length).map (fun i =>
    if (if kind == 1 then i else i / 2) == lane then ⟨if kind == 1 then 0 else poisonF32, true⟩ else l.getD i ⟨0, false⟩)

/-- 64-bit lane `k` of a number cleared. -/
def clearLane (x k : Nat) : Nat := setBits x (64 * k + 63) (64 * k) 0

/-- A lane poisoned: file 0 s, 1 v, 2 c, 3 accumulator set, 4 lane accumulator, 5 activation stage, 6 cell stack; its
bits read as 0 where no format gives a poison value (R104; DEDUCED, log 23). -/
def poisonLane (s : Chip) (t i file index lane : Nat) : Chip :=
  if file == 0 then modStrand s t i (fun x => wrS x (index % 32) 0 true)
  else if file == 1 then
    modStrand s t i (fun x => wrV x (index % 32) (clearLane (rdV x (index % 32)) (lane % 32)) (Nat.lor (rdVm x (index % 32)) (2 ^ (lane % 32))))
  else
    modTile s t (fun y =>
      if file == 2 then
        let c := index % 32
        let k := lane % 16
        { y with
          c := tset (fun _ => 0#1024) c (BitVec.ofNat 1024 (clearLane (tget (fun _ => 0#1024) y.c c).toNat k)) y.c
          cm := tset (fun _ => 0#32) c (tget (fun _ => 0#32) y.cm c ||| (3#32 <<< (2 * k))) y.cm }
      else if file == 3 then
        let z := tget (fun _ => ({} : KSet)) y.sets index
        match z.nodes with
        | [] => y
        | n :: r => { y with sets := tset (fun _ => ({} : KSet)) index { z with nodes := { n with vals := poisonElems n.tag.kind lane n.vals } :: r } y.sets }
      else if file == 4 then { y with lanes := tset (fun _ => ({} : Lane)) index ⟨0, 0, true⟩ y.lanes }
      else if file == 5 then
        let k := 1024 * index + lane % 1024
        { y with act := mwrite y.act (8 * k) (leBytes 8 0), actpz := tmark y.actpz k true }
      else
        match tget (fun _ => []) y.partials index with
        | [] => y
        | e :: r => { y with partials := tset (fun _ => []) index ({ e with vals := poisonElems e.tag.kind lane e.vals } :: r) y.partials })

/-- PARITY_ERROR (R632): in a buffer entry it only costs a refetch. -/
def cmdParityError (tile : Nat) (refetch : Bool) (strand file index lane : Nat) (s : Chip) : Out :=
  onStrand tile strand s (fun st =>
    if refetch then fsat st aRAS_PARITY 31 0 1
    else poisonLane (fsat st aRAS_PARITY 63 32 1) tile strand file index lane)

/-- FATAL_ERROR (R637, R645): source 1 Hearth SRAM, 2 router state with its tile, 3 root of trust. -/
def cmdFatalError (source tile : Nat) (s : Chip) : Out :=
  if 1 ≤ source ∧ source ≤ 3 then .next (fatal s source (if source == 2 then tile else 0xFF))
  else .fault (.noSuchUnit "fatal source")

-- Health (R639 to R642, R645) ----------------------------------------------------------------------------------

/-- Tiles out of service: fenced, failed, or lost from a partition (R639). -/
def outTiles (s : Chip) : Nat :=
  ((List.range 144).filter (fun t => tileEnabled s t && (tileFenced s t || tmem s.ras.failed t ||
    (tileAnvil s t && ((logOf s t).map (fun l => s.radio.lost.contains l)).getD false)))).length

def noSpare (s : Chip) : Nat := linksWhere (fun l => linkIsUp s l && fget s (aFL_STATUS l) 31 28 == 0xF)
def failedChans (s : Chip) : Nat := ((List.range 32).filter (fun c => chanState s c == 4)).length
def detours (s : Chip) : Nat := (bitsBelow 24 (fget s aMESH_STATUS 47 24)).length
def failedHalves (s : Chip) : Nat := ((List.range 2).filter (fun h => fget s (aCODE_STATUS h) 3 0 == 2)).foldl (fun a h => a + 2 ^ h) 0

/-- The score (R639, R641): `ce` the corrected events of the last hour, none while provisional. -/
def healthScore (s : Chip) (ce : Nat) : Nat :=
  let slow := 2 * linksWhere (fun l => linkState s l == 4) + linksWhere (fun l => linkState s l == 3)
  1000 - (min 300 (300 * outTiles s / max 1 (tilesOn s)) + min 150 (150 * noSpare s / 32) + min 200 (200 * slow / 64) +
    min 250 (250 * failedChans s / 32) + min 200 (100 * (bitsBelow 2 (failedHalves s)).length) + min 50 (10 * detours s) +
    min 100 (ce / max 1 (fget s aHEALTH_CFG 15 0)))

/-- The forcing conditions (R642), in listed order. -/
def forced (s : Chip) : Nat :=
  b2n (!knuckleOpen s) + 2 * b2n (fbit s aMEM_MAP 0 && (List.range 32).any (fun c => inSet s c && chanFailed s c)) +
    4 * b2n (s.radio.running && s.radio.reduced) + 8 * b2n (fbit s aPWR_STATUS 47)

/-- The state that follows (R640): 0 healthy, 1 degraded but serving, 2 failing; `old` none on leaving provisional. -/
def healthState (old : Option Nat) (score force : Nat) : Nat :=
  match old with
  | none => if score < 200 then 2 else if 850 ≤ score && force == 0 then 0 else 1
  | some 0 => if score < 200 then 2 else if score < 800 || force != 0 then 1 else 0
  | some 1 => if score < 200 then 2 else if 850 ≤ score && force == 0 then 0 else 1
  | some _ => if 250 ≤ score then 1 else 2

/-- Counts of the seconds so far (R639): two hours. -/
def countCE (s : Chip) : Chip :=
  let s1 := rasMod s (fun r => { r with ce := (r.ceNow :: r.ce).take 7200, ceNow := 0, served := if stageNow s == 6 then r.served + 1 else r.served })
  let sum (l : List Nat) : Nat := min (l.foldl (· + ·) 0) (2 ^ 32 - 1)
  barSet s1 aHEALTH_CE (sum (s1.ras.ce.take 3600) * 2 ^ 32 + sum (s1.ras.ce.drop 3600))

/-- The score and the state recomputed (R639 to R642). -/
def healthCompute (s : Chip) : Chip :=
  let s1 := countCE s
  let prov := decide (s1.ras.served < 3600)
  let was := fbit s aHEALTH 51
  let score := healthScore s1 (if prov then 0 else fget s1 aHEALTH_CE 63 32)
  let f := forced s1
  let old := fget s aHEALTH 53 52
  let st := if prov then 0 else healthState (if was then none else some old) score f
  let s2 := barSet s1 aHEALTH (score * 2 ^ 54 + st * 2 ^ 52 + b2n prov * 2 ^ 51 + f * 2 ^ 47 + min 255 (outTiles s1) * 2 ^ 32 +
    noSpare s1 * 2 ^ 24 + failedChans s1 * 2 ^ 16 + detours s1 * 2 ^ 8 + failedHalves s1)
  if was != prov || old != st then raiseIbi (rasIrq s2) 2 else s2

/-- HEALTH_RECOMPUTE (R640): the Hearth does it once a second. -/
def cmdHealthRecompute (s : Chip) : Out := .next (when (hearthRuns s) s healthCompute)

end Sys2Proof.Machine
end

