-- ==== Sys2Proof/Machine/Power.lean ====
section
/-! DEFINITION. Power domains, throttling, trips and power pins (R31, R340, R455, R511, R650 to R658, R697 to R703, R714;
rows 306 to 318). -/

namespace Sys2Proof.Machine

-- Domains (R31, R650, R652) ------------------------------------------------------------------------------------

/-- A tile of a group that is switched off: what is in it is lost, and it must be tested and zeroed again (R650). -/
def offTile (s : Chip) (t : Nat) : Chip :=
  let s1 := modTile (cleanTile s t) t (fun y => { y with zeroing := false })
  fsetb (fsetb s1 (aTILE_STATUS t) 0 false) (aTILE_STATUS t) 2 false

/-- Module contents of a memory group are lost: bytes written before take free values (R340; DESIGN CHOICE, log 9). -/
def loseModules (s : Chip) (g : Nat) : Chip :=
  let mine (k : Nat) : Bool := k / 2 ^ 43 / 8 == g
  let d := Config.freeNat s.freeCtr
  { s with
    freeCtr := s.freeCtr + 1
    mem := { s.mem with
      dram := s.mem.dram.foldl (fun a p => if mine p.1 then mset a p.1 (BitVec.ofNat 8 (Config.freeAt d p.1)) else a) s.mem.dram
      dpz := s.mem.dpz.filter (fun p => !mine (64 * p.1))
      dflaw := s.mem.dflaw.filter (fun p => !mine (64 * p.1)) } }

/-- Channels of a memory group go off and its units are disabled (R340). -/
def offMemory (s : Chip) (g : Nat) : Chip :=
  forEach ((List.range 8).map (fun i => 8 * g + i)) (fun st c =>
    let s1 := refuseHeld (fsetb st (aSWAGE_CTL c) 0 false) c
    fset (fset s1 (aMEM_STATUS c) 7 4 0) (aSWAGE_STATUS c) 3 0 0) (loseModules s g)

/-- Links of an optical group go down (R573, R650). -/
def offLinks (s : Chip) (g : Nat) : Chip :=
  forEach ((List.range 8).map (fun i => 8 * g + i)) (fun st l =>
    if linkState st l == 0 || linkState st l == 4 then st else dropLink st l 4) s

/-- The fronthaul domain goes off: its ports go down and PTP input ends (R488, R511). -/
def offPorts (s : Chip) : Chip :=
  let s1 := forEach (List.range 8) portDown s
  if servoState s1 == 2 then fset (timeCode (servoTo s1 3) 0x8002) aPTP_STATUS 15 12 0xF else s1

/-- What the blocks of a domain lose when it is switched off (R650). -/
def offBlocks (s : Chip) (d : Nat) : Chip :=
  if d < 36 then forEach (groupTiles d) offTile s
  else if d < 38 then (if fget s (aCODE_STATUS (d - 36)) 3 0 == 2 then s else loseHalf s (d - 36) 3)
  else if d < 42 then offMemory s (d - 38)
  else if d < 46 then offLinks s (d - 42)
  else if d == 46 then offPorts s
  else if d == 49 then traceLost s
  else s

/-- A domain switched off or on. -/
def setDomain (s : Chip) (d : Nat) (on : Bool) : Chip :=
  rasMod (fsetb s aPWR_DOMAIN d on) (fun r => { r with
    rising := setBits r.rising d d (b2n on)
    wrote := setBits r.wrote d d (b2n on) })

/-- The condition for switching a domain off (R340, R650). -/
def mayOff (s : Chip) (d : Nat) : Bool :=
  if d < 36 then groupFree s d
  else if 38 ≤ d ∧ d < 42 then !fbit s aMEM_MAP 0 || (List.range 8).all (fun i => !inSet s (8 * (d - 38) + i))
  else d != 47 && d != 48

/-- One bit of a write of PWR_DOMAIN (R650, R652): disabled groups and failed domains ignore it, and the trip state holds
domains off (R656). -/
def writeDomain (v : Nat) (s : Chip) (d : Nat) : Chip :=
  let want := v.testBit d
  if fbit s aPWR_DOMAIN d == want || s.ras.dead.testBit d || s.ras.tripped || (decide (d < 36) && !groupEnabled s d) then s
  else if want then setDomain s d true
  else if mayOff s d then offBlocks (setDomain s d false) d
  else fsat s aPWR_STATUS 31 16 1

def pwrDomainWrite (s : Chip) (v : Nat) : Chip := forEach (List.range 50) (writeDomain v) s

/-- PWR_DOMAIN_WRITE (R650). -/
def cmdPwrDomainWrite (data : Word) (s : Chip) : Out := .next (pwrDomainWrite s data.toNat)

/-- What a domain that is up again begins with (R650): a memory group trains at the speed reached, links train, ports and
coding halves are off. -/
def onBlocks (s : Chip) (d : Nat) : Chip :=
  if d < 36 then s
  else if d < 38 then
    (if fget s (aCODE_STATUS (d - 36)) 3 0 == 2 then s
    else fset (fsetb s (aCODE_CTL (d - 36)) 0 false) (aCODE_STATUS (d - 36)) 3 0 0)
  else if d < 42 then
    forEach ((List.range 8).map (fun i => 8 * (d - 38) + i)) (fun st c =>
      if st.mem.trained && chanPresent st c && chanState st c == 0 then fset st (aMEM_STATUS c) 7 4 1 else st) s
  else if d < 46 then
    forEach ((List.range 8).map (fun i => 8 * (d - 42) + i)) (fun st l => if fbit st (aFL_CTL l) 0 then trainLink st l else st) s
  else if d == 46 then forEach (List.range 8) (fun st p => fset st (aFH p 8) 3 0 0) s
  else if d == 49 then traceFollow s
  else s

/-- DOMAIN_POWER_UP_COMPLETE (R650). -/
def cmdDomainPowerUpComplete (domain : Nat) (s : Chip) : Out :=
  onUnit "power domain" 50 domain s (fun s0 =>
    when (s0.ras.rising.testBit domain) s0 (fun st =>
      onBlocks (rasMod st (fun r => { r with rising := setBits r.rising domain domain 0 })) domain))

/-- Every domain but those of a bitmap goes off with what its blocks lose. -/
def offAllBut (s : Chip) (keep : Nat) : Chip :=
  forEach ((List.range 50).filter (fun d => !keep.testBit d)) (fun st d =>
    if fbit st aPWR_DOMAIN d then offBlocks (rasMod (fsetb st aPWR_DOMAIN d false) (fun r => { r with rising := setBits r.rising d d 0 })) d
    else st) s

/-- The package loses power (R652, R658, R659, R697): Strike events, frames and writes stop, domains go off, and
THERMTRIP# is released. -/
def losePower (s : Chip) : Chip :=
  fsetb (bootMod (barSet (stopRadio (stopOutput s)) aPWR_DOMAIN 0) (fun b => { b with off := true })) aPKG_PINS 1 false

/-- The blocks of a domain fail with their regulator (R652). -/
def failBlocks (s : Chip) (d : Nat) : Chip :=
  if d < 36 then forEach ((groupTiles d).filter (tileEnabled s)) fenceTile s
  else if d < 38 then (if fget s (aCODE_STATUS (d - 36)) 3 0 == 2 then s else loseHalf s (d - 36) 2)
  else if d < 42 then forEach ((List.range 8).map (fun i => 8 * (d - 38) + i)) failChannel s
  else offBlocks s d

/-- REGULATOR_FAULT (R652): the bit reads 0 and ignores writes until reset. -/
def cmdRegulatorFault (domain : Nat) (s : Chip) : Out :=
  onUnit "power domain" 50 domain s (fun st =>
    if domain == 47 || domain == 48 then losePower st
    else
      failBlocks (rasMod (fsetb st aPWR_DOMAIN domain false) (fun r => { r with
        rising := setBits r.rising domain domain 0
        dead := setBits r.dead domain domain 1 })) domain)

-- Throttling (R653 to R656, R701) ------------------------------------------------------------------------------

def powerLimit (s : Chip) : Nat := fget s aPWR_LIMIT 10 0
def powerNow (s : Chip) : Nat := fget s aPWR_STATUS 63 53

def capOf (s : Chip) (t : Nat) : Nat := fget s (aTILE_GOV t) 15 8

/-- Tenant tiles of a partition above CAP 25 (R654). -/
def highTiles (s : Chip) (p : Nat) : List Nat := (partTiles s p).filter (fun t => tileEnabled s t && decide (25 < capOf s t))

/-- Tenant partitions in throttle order (R654): the lowest PWR_PRIO first, among equals the higher number. -/
def throttleOrder (s : Chip) : List Nat :=
  (List.range 8).flatMap (fun v => ((List.range 16).reverse).filter (fun p => p != 0 && fget s (aPWR_PRIO p) 2 0 == v))

/-- STEPS and STEP_COUNT as steps are taken (R657). -/
def showSteps (s : Chip) : Chip := fset s aPWR_STATUS 52 48 (min 31 s.ras.steps.length)

def pushStep (s : Chip) (x : Step) : Chip :=
  fsat (showSteps (rasMod s (fun r => { r with steps := x :: r.steps, calm := 0, below := 0, above := 0 }))) aPWR_STATUS 15 0 1

/-- Tiles lowered to a cap each. -/
def lowerTiles (s : Chip) (l : List Nat) (newCap : Nat → Nat) : Chip :=
  forEach l (fun st t => fset st (aTILE_GOV t) 15 8 (newCap (capOf st t))) s

def halvings (s : Chip) : Nat := (s.ras.steps.filter (·.halve)).length

/-- A step of R654, if one is left: a partition's tiles lower by 25, or the budgets halve. -/
def throttleStep (s : Chip) : Option Chip :=
  match (throttleOrder s).find? (fun p => !(highTiles s p).isEmpty) with
  | some p =>
    let l := highTiles s p
    some (pushStep (lowerTiles s l (fun c => max 25 (c - 25))) ⟨l.map (fun t => (t, capOf s t)), false, powerNow s, none⟩)
  | none => if halvings s < 3 then some (pushStep s ⟨[], true, powerNow s, none⟩) else none

/-- Every tenant tile to CAP 25 in one step (R654, R701). -/
def throttleAll (s : Chip) : Chip :=
  let l := (throttleOrder s).flatMap (highTiles s)
  if l.isEmpty then s
  else pushStep (lowerTiles s l (fun _ => 25)) ⟨l.map (fun t => (t, capOf s t)), false, powerNow s, none⟩

/-- The last step's saving is measured by the average of the ten samples after it (R655). -/
def measureSaving (s : Chip) : Chip :=
  match s.ras.steps with
  | [] => s
  | x :: r =>
    if x.saved.isSome || s.ras.calm < 10 then s
    else rasMod s (fun y => { y with steps := { x with saved := some (x.before - powerNow s) } :: r })

/-- The average is under the last step's release threshold (R655). -/
def underRelease (s : Chip) : Bool :=
  match s.ras.steps with
  | [] => false
  | x :: _ =>
    match x.saved with
    | none => false
    | some v => decide (powerNow s + v + 10 < powerLimit s)

/-- One more sample (R653). -/
def takeSample (s : Chip) (w : Nat) : Chip :=
  let l := (w :: s.ras.samples).take 10
  let s1 := rasMod s (fun r => { r with samples := l, calm := min 100 (r.calm + 1), heat := min 100 (r.heat + 1) })
  fset s1 aPWR_STATUS 63 53 (min 2047 (l.foldl (· + ·) 0 / l.length))

/-- Runs of samples under the release threshold and over the limit (R655). -/
def countRuns (s : Chip) : Chip :=
  let s1 := measureSaving s
  let low := underRelease s1
  let high := decide (powerLimit s1 < powerNow s1)
  rasMod s1 (fun r => { r with below := if low then r.below + 1 else 0, above := if high then r.above + 1 else 0 })

/-- POWER_SAMPLE (R653, R654). -/
def cmdPowerSample (watts : Nat) (s : Chip) : Out :=
  .next (when (alive s && !s.ras.tripped) s (fun s0 =>
    let s1 := countRuns (takeSample s0 watts)
    if powerLimit s1 + 100 < watts || 1300 < watts then throttleAll s1
    else if powerLimit s1 < powerNow s1 && 10 ≤ s1.ras.calm then
      match throttleStep s1 with
      | some s2 => s2
      | none => s1
    else s1))

/-- THROTTLE_RELEASE (R655, R656, R701): the last step taken goes when every cause allows. -/
def cmdThrottleRelease (s : Chip) : Out :=
  .next (
    if s.ras.below < 100 || s.ras.brake || fbit s aPWR_STATUS 46 then s
    else match s.ras.steps with
      | [] => s
      | x :: r =>
        let s1 := forEach x.caps (fun st c => fset st (aTILE_GOV c.1) 15 8 c.2) s
        showSteps (rasMod s1 (fun y => { y with steps := r, below := 0 })))

/-- Every step has been taken. -/
def noStepLeft (s : Chip) : Bool := (throttleStep s).isNone

/-- THROTTLE_EXHAUSTED (R655): the average has been over the limit for 10 ms with no step left. -/
def cmdThrottleExhausted (s : Chip) : Out :=
  .next (when (decide (1000 ≤ s.ras.above) && noStepLeft s) s (fun st => rasIrq (fsetb st aPWR_STATUS 47 true)))

/-- A write of PWR_LIMIT (R653). -/
def limitWrite (s : Chip) (v : Nat) : Chip :=
  fset s aPWR_LIMIT 10 0 (min 1200 (max (fget s aPWR_LIMIT 42 32) (bitsOf v 10 0)))

/-- PWR_LIMIT_WRITE (R653). -/
def cmdPwrLimitWrite (data : Word) (s : Chip) : Out := .next (limitWrite s data.toNat)

/-- The trip (R656, R700). -/
def thermalTrip (s : Chip) : Chip :=
  if s.ras.tripped then s
  else raiseIbi (fsetb (rasMod (offAllBut (stopRadio s) tripDomains) (fun r => { r with tripped := true })) aPKG_PINS 1 true) 1

/-- Throttling for temperature (R656): one step a millisecond at or above the throttle point, none from the release
point, 3 °C below it. -/
def thermalThrottle (s : Chip) : Chip :=
  let j := junction s
  let t : Int := fget s aTHERM_CFG 15 0
  if t ≤ j then
    let s1 := fsetb s aPWR_STATUS 46 true
    if s1.ras.heat < 100 then s1
    else match throttleStep s1 with
      | some s2 => rasMod s2 (fun r => { r with heat := 0 })
      | none => s1
  else if j < t - 48 then fsetb s aPWR_STATUS 46 false
  else s

/-- THERMAL_SAMPLE (R656): temperatures in 1/16 °C. -/
def cmdThermalSample (die0 die1 io opt : Int) (s : Chip) : Out :=
  .next (when (alive s) s (fun s0 =>
    let k := aTHERM_TEMP
    let s1 := fset (fset (fset (fset s0 k 63 48 (wrap 16 die0)) k 47 32 (wrap 16 die1)) k 31 16 (wrap 16 io)) k 15 0 (wrap 16 opt)
    if (fget s1 aTHERM_CFG 31 16 : Int) ≤ junction s1 then thermalTrip s1
    else if s1.ras.tripped then s1
    else thermalThrottle s1))

-- Pins (R658, R697 to R703) ------------------------------------------------------------------------------------

/-- UNDERVOLTAGE (R658). -/
def cmdUndervoltage (s : Chip) : Out := .next (stopOutput s)

/-- OVERVOLTAGE (R697): the regulators stay off until PWRGOOD is deasserted and asserted again. -/
def cmdOvervoltage (s : Chip) : Out := .next (losePower s)

/-- PWRBRAKE_ASSERT (R701, R702): without effect on tiles before the Hearth runs and after a trip; before stage 0x1 the
pin is ignored (R698). -/
def cmdPwrbrakeAssert (s : Chip) : Out :=
  .next (when (!s.ras.brake) s (fun s0 =>
    let s1 := fsetb (rasMod s0 (fun r => { r with brake := true })) aPKG_PINS 0 true
    let s2 := if stageNow s1 == 0 then s1 else fsat s1 aPKG_PINS 47 32 1
    if hearthRuns s2 && !s2.ras.tripped then throttleAll s2 else s2))

/-- PWRBRAKE_DEASSERT (R701): tiles return under R655. -/
def cmdPwrbrakeDeassert (s : Chip) : Out :=
  .next (fsetb (rasMod s (fun r => { r with brake := false })) aPKG_PINS 0 false)

/-- TAP_INSTRUCTION (R703): from stage 0x2 on an instruction that takes lands selects BYPASS; while the debug domain is off
the TAP ignores its inputs. -/
def cmdTapInstruction (takesLands : Bool) (s : Chip) : Out :=
  .next (when (alive s && domainOn s 49) s (fun st =>
    bootMod st (fun b => { b with lands := takesLands && decide (stageNow st ≤ 1) })))

end Sys2Proof.Machine
end

