-- ==== Sys2Proof/Machine/BarView.lean ====
section
/-! DEFINITION. Reads of BAR0 (row 1; R20 to R24, R540, R604): which registers a function sees, what a register shows, and
what a read does. -/

namespace Sys2Proof.Machine

-- Which registers answer (R24, R540, R604) ---------------------------------------------------------------------

/-- Registers of a virtual function's BAR0 (R540). -/
def vfSees (a : Nat) : Bool :=
  decide (a < 0x100000) || a == aQM_DOORBELL || a == aQM_CMD || a == aQM_QSTATUS ||
    (decide (aQM_STAGE 0 ≤ a) && decide (a ≤ aQM_STAGE 7)) || (decide (0x00108000 ≤ a) && decide (a < 0x00108100))

/-- The block answers in the boot stage at hand (R604). -/
def stageAnswers (s : Chip) (a : Nat) : Bool :=
  decide (3 ≤ stageNow s) || decide (a < 0x100000) || (decide (0x01400000 ≤ a) && decide (a < 0x02000000))

/-- The window of a disabled tile answers no access (R5). -/
def windowThere (s : Chip) (a : Nat) : Bool := decide (a < 0x02000000) || tileEnabled s ((a - 0x02000000) / 0x10000)

/-- The register that a function finds at an address. -/
def barRow (s : Chip) (fn a : Nat) : Option RegRow :=
  if (fn == 0 || vfSees a) && stageAnswers s a && windowThere s a then regRow a else none

/-- Its key: the identity block reads the same from every function (R540, R624). -/
def regKey (fn a : Nat) : Nat := if a < 0x100000 then a else barKey fn a

/-- An access refused (R24). -/
def barRefuse (s : Chip) : Chip := fsat s aRAS_STATUS 31 0 1

-- What registers show that hold no value of their own ----------------------------------------------------------

/-- The Hasp window at an address: instance and side (R547). -/
def haspSide (fn a : Nat) : Option (Nat × Bool) :=
  if 0x00108000 ≤ a ∧ a < 0x0010C000 then
    (if fn == 0 then some ((a - 0x00108000) / 0x100, false) else some (fn, true))
  else none

/-- The ring that a side reads, and the ring that it sends to. -/
def inRing (s : Chip) (f : Nat) (tenant : Bool) : List Msg := if tenant then (getHasp s f).toTenant else (getHasp s f).toManager
def outRing (s : Chip) (f : Nat) (tenant : Bool) : List Msg := inRing s f (!tenant)

/-- A message's 64 bytes (R549). -/
def msgBytes (m : Msg) : List Byte :=
  (leBytes 2 m.type ++ leBytes 2 m.seqNo ++ leBytes 1 m.src ++ leBytes 1 m.len ++ leBytes 2 m.status ++ m.payload ++
    List.replicate 56 0#8).take 64

/-- HASP_IN and HASP_STATUS (R555). -/
def haspView (s : Chip) (f : Nat) (tenant : Bool) (off old : Nat) : Nat :=
  if 0x80 ≤ off ∧ off < 0xC0 then
    (match (inRing s f tenant).head? with
    | none => 0
    | some m => bNat (msgBytes m) (off - 0x80) 8)
  else if off == 0xC8 then
    let h := getHasp s f
    bitsOf old 63 48 * 2 ^ 48 + h.version % 256 * 2 ^ 16 + b2n h.agreed * 2 ^ 12 +
      (12 - peerCount (outRing s f tenant)) * 2 ^ 8 + (inRing s f tenant).length % 32
  else old

/-- TILE_STATUS with the ready and waiting strands (R169). -/
def tileView (s : Chip) (t old : Nat) : Nat :=
  let mask (v : Nat) : Nat := ((List.range 8).filter (fun i => strandState s t i == v)).foldl (fun a i => a + 2 ^ i) 0
  setBits (setBits old 47 40 (mask 2)) 39 32 (mask 3)

/-- Counters (R664, R685). -/
def counterView (s : Chip) (p off : Nat) : Nat :=
  if off < 0x800 then tget (fun _ => 0) s.ctrLive (256 * p + off / 8)
  else tget (fun _ => 0) s.ctrClosed (256 * p + (off - 0x800) / 8)

/-- Seconds in holdover (R509): tile cycles since it began. -/
def holdSeconds (s : Chip) : Nat := if servoState s == 3 then (s.cycle - s.time.holdAt) / 700000000 else 0

/-- What a register of the physical function shows; a part that the manual does not fix is a free value (DESIGN CHOICE, log 9). -/
def pfView (s : Chip) (a old : Nat) : Chip × Nat :=
  if a == aBW_GLOBAL then (s, setBits (setBits old 63 39 (fabCap s)) 38 14 (memCap s))
  else if a == aQM_CACHE then
    (s, setBits (setBits old 63 48 (s.qm.pins.length + s.qm.radioPins.length)) 47 32 s.qm.cached.length)
  else if 0x00401000 ≤ a ∧ a < 0x00402000 ∧ a % 0x100 = 8 then
    let e := (a - 0x00401000) / 0x100
    let n := running s e
    let r := freeBelow s 385
    if n == 0 then (s, setBits (setBits old 63 55 0) 54 49 0) else (r.2, setBits (setBits old 63 55 r.1) 54 49 n)
  else if a == aPTP_STATUS then (s, setBits old 31 16 (min 0xFFFF (holdSeconds s)))
  else if a == aPKG_PINS then let r := freeBelow s 65536; (r.2, setBits old 63 48 r.1)
  else if 0x01300000 ≤ a ∧ a < 0x01322000 ∧ (a - 0x01300000) % 0x2000 < 0x1000 then
    (s, counterView s ((a - 0x01300000) / 0x2000) ((a - 0x01300000) % 0x2000))
  else if 0x00201000 ≤ a ∧ a < 0x00201100 ∧ a % 0x40 = 0 then (s, tvSec (tbGet s ((a - 0x00201000) / 0x40)))
  else if 0x00201000 ≤ a ∧ a < 0x00201100 ∧ a % 0x40 = 8 then
    (s, (tget (fun _ => none) s.latch a).getD (tvNsf (tbGet s ((a - 0x00201000) / 0x40))))
  else if 0x02000000 ≤ a then
    let t := (a - 0x02000000) / 0x10000
    let off := a % 0x10000
    if off == 8 then (s, tileView s t old)
    else if 0x100 ≤ off then (s, strandView s t ((off - 0x100) / 8))
    else (s, old)
  else (s, old)

/-- What a register shows to a function. -/
def regShows (s : Chip) (fn a : Nat) : Chip × Nat :=
  let old := barGet s (regKey fn a)
  match haspSide fn a with
  | some (f, tenant) => (s, haspView s f tenant (a % 0x100) old)
  | none => if fn == 0 then pfView s a old else (s, old)

-- What reads do (R20, R23) -------------------------------------------------------------------------------------

/-- RC fields cleared: of the whole register, or of the high half alone. -/
def clearRc (s : Chip) (k : Nat) (r : RegRow) (high : Bool) : Chip :=
  let m := accMask r .rc
  let m1 := if high then m / 2 ^ 32 * 2 ^ 32 else m
  if m1 == 0 then s else barSet s k (Nat.land (barGet s k) (2 ^ 64 - 1 - m1))

/-- Other effects of a read of the physical function (R492, R504, R668). -/
def readEffects (s : Chip) (a : Nat) : Chip :=
  if 0x00201000 ≤ a ∧ a < 0x00201100 ∧ a % 0x40 = 0 then
    { s with latch := tset (fun _ => none) (a + 8) (some (tvNsf (tbGet s ((a - 0x00201000) / 0x40)))) s.latch }
  else if 0x00201000 ≤ a ∧ a < 0x00201100 ∧ a % 0x40 = 8 then { s with latch := tset (fun _ => none) a none s.latch }
  else if 0x00203000 ≤ a ∧ a < 0x00203200 ∧ a % 0x20 = 0x10 then fsetb s (a - 0x10) 44 false
  else if 0x01301000 ≤ a ∧ a < 0x01322000 ∧ (a - 0x01300000) % 0x2000 = 0x1008 then fsetb s (a - 8) 1 false
  else s

/-- A register read whole at one instant: its value, and the read side effects, of every field or of the high half. -/
def regRead (s : Chip) (fn a : Nat) (r : RegRow) (high : Bool) : Chip × Nat :=
  let v := regShows s fn a
  let s1 := clearRc v.1 (regKey fn a) r high
  (if fn == 0 then readEffects s1 a else s1, v.2)

/-- A read of TILE_SRAM_DATA (R717): the access through the mover. -/
def sramRead (s : Chip) (t : Nat) : Chip × Nat :=
  match cmdTileSramDataRead t s with
  | .next st => (st, st.resp.toNat)
  | _ => (s, 0)

/-- The address is a TILE_SRAM_DATA of the physical function. -/
def isSramData (fn a : Nat) : Bool := fn == 0 && decide (0x02000000 ≤ a) && decide (a % 0x10000 = 0x28)

def fullRead (s : Chip) (fn a : Nat) (r : RegRow) (high : Bool) : Chip × Nat :=
  if isSramData fn a then sramRead s ((a - 0x02000000) / 0x10000) else regRead s fn a r high

/-- The result of a read. -/
def answerRead (s : Chip) (v : Nat) : Chip := { s with resp := BitVec.ofNat 64 v }

/-- The read latch of a function and register; the key is that of the register's high half. -/
def latchKey (fn a : Nat) : Nat := barKey fn (a + 4)
def setLatch (s : Chip) (fn a : Nat) (v : Option Nat) : Chip :=
  { s with latch := tset (fun _ => none) (latchKey fn a) v s.latch }

/-- An access whose size and alignment BAR0 accepts (R23, R24). -/
def accessOk (addr size : Nat) : Bool := (size == 4 || size == 8) && addr % size == 0

/-- A read of BAR0 (R23, R24). -/
def barRead (s : Chip) (fn addr size : Nat) : Chip :=
  let a := addr / 8 * 8
  match (if accessOk addr size then barRow s fn a else none) with
  | none => answerRead (barRefuse s) (2 ^ (8 * min size 8) - 1)
  | some r =>
    if size == 8 then let v := fullRead s fn a r false; answerRead v.1 v.2
    else if addr % 8 == 0 then
      let v := fullRead s fn a r false
      answerRead (setLatch v.1 fn a (some (v.2 / 2 ^ 32))) (v.2 % 2 ^ 32)
    else
      match tget (fun _ => none) s.latch (latchKey fn a) with
      | some h => answerRead (setLatch s fn a none) h
      | none => let v := fullRead s fn a r true; answerRead v.1 (v.2 / 2 ^ 32)

/-- REGISTER_READ_SIDE_EFFECT (R20, R23, R24). -/
def cmdRegisterReadSideEffect (fn addr size : Nat) (s : Chip) : Out := onFn fn s (fun st => barRead st fn addr size)

end Sys2Proof.Machine
end

