-- ==== Sys2Proof/Machine/Bar.lean ====
section
/-! DEFINITION. Writes of BAR0 (row 0; R20 to R24, R540, R604 and the register chapters): what a write of each register
does beside setting its fields. -/

namespace Sys2Proof.Machine

-- Fields (R20, R22, R23) ---------------------------------------------------------------------------------------

/-- A register's fields take a written value by their access types (R20). -/
def plainWrite (s : Chip) (k : Nat) (r : RegRow) (v : Nat) : Chip :=
  let all := 2 ^ 64 - 1
  let rw := accMask r .rw
  let x1 := Nat.lor (Nat.land (barGet s k) (all - rw)) (Nat.land v rw)
  let x2 := Nat.land x1 (all - Nat.land v (accMask r .w1c))
  barSet s k (Nat.lor x2 (Nat.land v (accMask r .w1s)))

/-- The value that a write of the high half alone gives: RW fields of the low half keep theirs, the others see no write
(R23). -/
def highOnly (s : Chip) (k : Nat) (r : RegRow) (h : Nat) : Nat :=
  h % 2 ^ 32 * 2 ^ 32 + Nat.land (barGet s k) (accMask r .rw) % 2 ^ 32

/-- One field of a register takes the written bits. -/
def take (s : Chip) (k hi lo v : Nat) : Chip := fset s k hi lo (bitsOf v hi lo)

-- Hearth and partitions (R515, R545, R548, R553, R555) ---------------------------------------------------------

/-- PART_CMD (R515): a reserved OP is no command of the table. -/
def partCmd (s : Chip) (v : Nat) : Out :=
  let p := bitsOf v 59 56
  let g := fget s aPART_ARG0 35 0
  let a : Word := BitVec.ofNat 64 (barGet s aPART_ARG1)
  match bitsOf v 63 60 with
  | 1 => cmdPartCreate p s
  | 2 => cmdPartDestroy p s
  | 3 => cmdPartAdd p g s
  | 4 => cmdPartMove p g (bitsOf v 55 51) (bitsOf v 31 0) s
  | 5 => cmdPartMap p a s
  | 6 => cmdPartLoad p a s
  | 7 => cmdPartStart p s
  | 8 => cmdPartStop p s
  | 9 => cmdPartFreeze p s
  | 10 => cmdPartSave p (g % 16) a s
  | 11 => cmdPartRestore p a s
  | 12 => cmdPartThaw p s
  | 13 => cmdPartFlip p s
  | 14 => cmdPartCancel p g s
  | _ => .next (partDone s p 0x4001)

/-- PART_CTL (R553): CONTROLLER only while the partition is off. -/
def partCtlWrite (s : Chip) (p v : Nat) : Chip :=
  let k := aPART_CTL p
  let s1 := take (take (take (take s k 37 32 v) k 31 16 v) k 1 1 v) k 0 0 v
  if partState s p == 0 then take s1 k 47 42 v else s1

/-- HASP_SEND (R548, R549): the staged message; bytes beyond the window read as 0. -/
def sendStaged (s : Chip) (f : Nat) (tenant : Bool) : Chip :=
  let b := (List.range 8).flatMap (fun i => leBytes 8 (barGet s (aHASP tenant f + 8 * i)))
  let n := bNat b 5 1
  haspSend s f tenant (bNat b 0 2) (bNat b 6 2) ((b.drop 8).take n ++ List.replicate (n - 56) 0#8)

/-- Held host writes of a function go while its log has room (R545). -/
def releaseHeld (f : Nat) : Nat → Chip → Chip
  | 0, s => s
  | n + 1, s =>
    match s.mem.dlogHeld.find? (fun h => h.1 == f) with
    | none => s
    | some h =>
      let first := h.2.1 / 4096
      let k := if h.2.2.isEmpty then 0 else (h.2.1 + h.2.2.length - 1) / 4096 - first + 1
      let r := dlogPages f k first s
      if r.2 then
        let s1 := hostPut (ctrAdd r.1 (fget s (aFUNC_PART f) 3 0) 157 h.2.2.length) h.2.1 h.2.2
        releaseHeld f n { s1 with mem := { s1.mem with dlogHeld := s1.mem.dlogHeld.erase h } }
      else r.1

/-- DLOG_CTL (R545, R555): LOG2N from 10 to 16; an enabled log begins with an empty filter. -/
def dlogCtlWrite (s : Chip) (f v : Nat) : Chip :=
  let k := aDLOG_CTL f
  let s1 := take (fset (take s k 36 20 v) k 12 8 (max 10 (min 16 (bitsOf v 12 8)))) k 0 0 v
  let s2 := if fbit s k 0 then s1 else { s1 with mem := { s1.mem with dlogSeen := tset (fun _ => []) f [] s1.mem.dlogSeen } }
  releaseHeld f (s2.mem.dlogHeld.length + 1) s2

def writeHearth (s : Chip) (a : Nat) (r : RegRow) (v : Nat) : Out :=
  if a == aPART_CMD then partCmd s v
  else if 0x00101000 ≤ a ∧ a < 0x00101400 ∧ a % 0x40 = 0 then .next (partCtlWrite s ((a - 0x00101000) / 0x40) v)
  else if 0x00102000 ≤ a ∧ a < 0x00102800 then cmdGrantWrite ((a - 0x00102000) / 8) (BitVec.ofNat 64 v) s
  else if 0x0010C000 ≤ a ∧ a % 0x20 = 8 then .next (dlogCtlWrite s ((a - 0x0010C000) / 0x20) v)
  else .next (plainWrite s a r v)

/-- A write within a Hasp window (R547, R548, R555). -/
def writeHasp (s : Chip) (f : Nat) (tenant : Bool) (a k : Nat) (r : RegRow) (v : Nat) : Chip :=
  let off := a % 0x100
  if off == 0x40 then (if bitOf v 0 then sendStaged s f tenant else s)
  else if off == 0xC0 then (if bitOf v 0 then popSide s f tenant else s)
  else plainWrite s k r v

-- Strike and time (R457 to R461, R491, R502 to R508) -----------------------------------------------------------

/-- STRIKE_CTL (R414, R457). -/
def strikeCtlWrite (s : Chip) (v : Nat) : Chip :=
  let k := aSTRIKE_CTL
  let s1 := take (take (fset s k 23 16 (max 8 (min 64 (bitsOf v 23 16)))) k 15 8 v) k 1 1 v
  let s2 := if fbit s k 0 then s1 else take s1 k 3 2 v
  showRadio (strikeEnable s2 (bitOf v 0))

/-- Offsets within a time base's registers (R491, R508). -/
def writeTime (s : Chip) (a : Nat) (r : RegRow) (v : Nat) : Out :=
  let d : Word := BitVec.ofNat 64 v
  if a == aTB_SNAPCMD then .next (if bitOf v 0 then snapBases s else s)
  else if a < 0x00201100 then
    let b := (a - 0x00201000) / 0x40
    .next (if a % 0x40 == 0x10 then writeStep s b d else if a % 0x40 == 0x18 then writeFreq s b d else s)
  else if a < 0x00202200 then
    let i := (a - 0x00202000) / 0x20
    if a % 0x20 = 0 then cmdTimeTriggerArm i d s
    else if a % 0x20 = 0x18 then .next (fset s a 47 0 (max 1000 (bitsOf v 47 0)))
    else .next (plainWrite s a r v)
  else .next (plainWrite s a r v)

/-- `whole`: the low half was written too (R23). -/
def writeStrike (s : Chip) (a : Nat) (r : RegRow) (v : Nat) (whole : Bool) : Out :=
  let d : Word := BitVec.ofNat 64 v
  if a == aSTRIKE_CTL then .next (strikeCtlWrite s v)
  else if a == aSTRIKE_ALIGN then .next (if fbit s aSTRIKE_CTL 0 then s else take s a 31 0 v)
  else if a == aPLAN_BASE then cmdPlanLoad d s
  else if a == aTIER_REQ then (if whole then cmdTierReq d s else .next (take s a 63 56 v))
  else if a == aRADIO_ERR then cmdUnmute (bitsOf v 15 8) s
  else if 0x00201000 ≤ a then writeTime s a r v
  else .next (plainWrite s a r v)

-- Bellows (R554) -----------------------------------------------------------------------------------------------

def writeBellows (s : Chip) (a : Nat) (r : RegRow) (v : Nat) : Out :=
  let d : Word := BitVec.ofNat 64 v
  let p := (a - 0x00300000) / 0x1000
  let off := a % 0x1000
  if a == aBW_GLOBAL then cmdBcycleWrite d s
  else if aBW_GLOBAL ≤ a then .next s
  else if off = 0 then (if p = 0 then .next s else cmdBwDepthWrite p d s)
  else if 0x100 ≤ off ∧ off < 0x500 then cmdBwSlotWrite p ((off - 0x100) / 0x10) (off % 0x10 == 8) d s
  else .next (plainWrite s a r v)

-- Queues and engines (R388 to R392) ----------------------------------------------------------------------------

/-- QM_CTL (R388): with ENABLE back at 0 the queues are not usable. -/
def qmCtlWrite (s : Chip) (v : Nat) : Out :=
  let s1 := fsetb s aQM_CTL 1 (bitOf v 1)
  if bitOf v 0 then cmdQmEnable s1 else .next (fsetb (fsetb s1 aQM_CTL 0 false) aQM_CTL 2 false)

/-- QM_CMD (R389): reserved operations do nothing. -/
def qmCmd (s : Chip) (fn v : Nat) : Out :=
  let q := bitsOf v 51 32
  match bitsOf v 63 60 with
  | 1 => cmdAppend fn q s
  | 2 => cmdWriteContext fn q s
  | 3 => cmdReadContext fn q s
  | 4 => cmdRewrite fn q s
  | 5 => cmdResume fn q s
  | 6 => cmdSkip fn q s
  | 7 => cmdAbort fn q s
  | 8 => cmdPin fn q s
  | 9 => cmdUnpin fn q s
  | _ => .next s

/-- DMA_ENG_CTL (R392). -/
def engineWrite (s : Chip) (e v : Nat) : Out :=
  match cmdEngineEnable e (bitOf v 0) s with
  | .next s1 => if bitOf v 1 then cmdEngineAbort e s1 else .next s1
  | o => o

/-- A doorbell names its index in the low half, without which it does nothing (R23, R389; DESIGN CHOICE, log 14). -/
def writeQueues (s : Chip) (fn a k : Nat) (r : RegRow) (v : Nat) (whole : Bool) : Out :=
  if a == aQM_DOORBELL then (if whole then cmdQmDoorbell fn (bitsOf v 51 32) (bitsOf v 16 0) s else .next s)
  else if a == aQM_CMD then qmCmd s fn v
  else if fn != 0 then .next (plainWrite s k r v)
  else if a == aQM_CTL then qmCtlWrite s v
  else if a == aQM_TABLE then .next (if fbit s aQM_CTL 0 then s else plainWrite s a r v)
  else if 0x00401000 ≤ a ∧ a < 0x00402000 ∧ a % 0x100 = 0 then engineWrite s ((a - 0x00401000) / 0x100) v
  else .next (plainWrite s k r v)

-- Memory and Swage (R303, R305, R309, R310, R334, R337) --------------------------------------------------------

/-- MEM_CTL (R305). -/
def memCtlWrite (s : Chip) (c v : Nat) : Out :=
  let k := aMEM_CTL c
  let s1 := take s k 13 12 v
  let s2 := if bitsOf v 15 14 == 3 then s1 else take s1 k 15 14 v
  let s3 := if bitOf v 8 then failChannel (fsetb s2 k 8 true) c else s2
  if bitOf v 0 && c == 0 then cmdMemTrain s3 else .next s3

/-- MEM_HDM (R303, R310). -/
def memHdmWrite (s : Chip) (v : Nat) : Chip :=
  let s1 := if fbit s aMEM_MAP 0 || fbit s aMEM_HDM 0 then s else take s aMEM_HDM 47 32 v
  if bitOf v 0 then fsetb s1 aMEM_HDM 0 true else s1

/-- SWAGE_CTL (R334). -/
def swageCtlWrite (s : Chip) (u v : Nat) : Out :=
  match cmdSwageEnable u (bitOf v 0) s with
  | .next s1 => if bitOf v 1 then cmdSwageFence u s1 else .next s1
  | o => o

def writeMemory (s : Chip) (a : Nat) (r : RegRow) (v : Nat) : Out :=
  if a == aMEM_MAP then .next (writeMap s v)
  else if a == aMEM_HDM then .next (memHdmWrite s v)
  else if a < 0x00A00000 then (if a % 0x10000 = 0 then memCtlWrite s ((a - 0x00800000) / 0x10000) v else .next (plainWrite s a r v))
  else if a < 0x00A20000 then (if a % 0x1000 = 0 then swageCtlWrite s ((a - 0x00A00000) / 0x1000) v else .next (plainWrite s a r v))
  else .next (fset s a 4 0 (min 24 (bitsOf v 4 0)))

-- Fabric (R564, R570 to R573, R594 to R597) --------------------------------------------------------------------

/-- FAB_CTL (R573, R596): the device identifier names the slots' own entries (R571). -/
def fabCtlWrite (s : Chip) (v : Nat) : Chip :=
  let k := aFAB_CTL
  let s1 := take (take (take (fset (take s k 63 48 v) k 47 32 (max 100 (bitsOf v 47 32))) k 31 16 v) k 15 4 v) k 1 0 v
  let s2 := followWards s1
  if bitOf v 2 then newEpoch s2 else s2

/-- FAB_TIME (R594): EN set begins with a step at the first exchange. -/
def fabTimeWrite (s : Chip) (r : RegRow) (v : Nat) : Chip :=
  let s1 := plainWrite s aFAB_TIME r v
  if bitOf v 0 && !fbit s aFAB_TIME 0 then fabMod s1 (fun f => { f with timeDone := false }) else s1

/-- FJ_CTL (R564, R570, R591, R596). -/
def jobCtlWrite (s : Chip) (p v : Nat) : Chip :=
  let k := aFJ_CTL p
  let s1 := followWard (take (take s k 63 32 v) k 31 16 v) p
  let s2 := if bitOf v 4 then fsetb s1 k 4 false else s1
  let s3 := if bitOf v 3 then setFence s2 p else s2
  if bitOf v 2 then loadJob s3 p else s3

/-- FL_CTL (R561, R562, R597). -/
def linkCtlWrite (s : Chip) (l v : Nat) : Chip :=
  let s1 := linkEnable (take s (aFL_CTL l) 1 1 v) l (bitOf v 0)
  if bitOf v 2 then linkRetrain s1 l else s1

def writeFabric (s : Chip) (a : Nat) (r : RegRow) (v : Nat) : Out :=
  let d : Word := BitVec.ofNat 64 v
  if a == aFAB_CTL then .next (fabCtlWrite s v)
  else if 0x00C00010 ≤ a ∧ a ≤ 0x00C00028 then .next (writeLinkMap s ((a - 0x00C00010) / 8) d)
  else if a == aFAB_TIME then .next (fabTimeWrite s r v)
  else if 0x00C01000 ≤ a ∧ a < 0x00C01400 ∧ a % 0x40 = 0 then .next (jobCtlWrite s ((a - 0x00C01000) / 0x40) v)
  else if 0x00C10000 ≤ a ∧ a < 0x00C20000 then
    let l := (a - 0x00C10000) / 0x800
    let off := a % 0x800
    if off = 0 then .next (linkCtlWrite s l v)
    else if 0x100 ≤ off ∧ off < 0x200 then cmdShaperWrite true l ((off - 0x100) / 0x10) (off % 0x10 == 8) d s
    else .next (plainWrite s a r v)
  else if 0x00C20000 ≤ a then .next (writeWard s ((a - 0x00C20000) / 0x10) (a % 0x10 == 8) d)
  else .next (plainWrite s a r v)

-- Fronthaul, PTP and coding (R462, R507, R509) -----------------------------------------------------------------

/-- FH_PORT_CTL (R478, R507). -/
def portCtlWrite (s : Chip) (p v : Nat) : Chip :=
  let k := aFH p 0
  let s1 := take (take (take (fset s k 49 36 (max 1518 (min 9600 (bitsOf v 49 36)))) k 35 32 v) k 31 28 v) k 25 10 v
  let s2 := if fbit s aSTRIKE_CTL 0 then s1 else take s1 k 27 26 v
  portEnable s2 p (bitOf v 0)

/-- PTP_CTL (R509): domains 24 to 43. -/
def ptpCtlWrite (s : Chip) (r : RegRow) (v : Nat) : Chip :=
  let d := bitsOf v 31 24
  plainWrite s aPTP_CTL r (setBits v 31 24 (if 24 ≤ d ∧ d ≤ 43 then d else 24))

/-- SYNCE_CTL (R509): without a reference in use there is none. -/
def synceCtlWrite (s : Chip) (r : RegRow) (v : Nat) : Chip :=
  let s1 := plainWrite s aSYNCE_CTL r v
  if bitOf v 0 then s1 else fset s1 aPTP_STATUS 11 8 0

def writeFronthaul (s : Chip) (a : Nat) (r : RegRow) (v : Nat) : Out :=
  let d : Word := BitVec.ofNat 64 v
  let p := (a - 0x00E00000) / 0x10000
  let off := a % 0x10000
  if a == aPTP_CTL then .next (ptpCtlWrite s r v)
  else if a == aSYNCE_CTL then .next (synceCtlWrite s r v)
  else if 0x00E80000 ≤ a then .next (plainWrite s a r v)
  else if off = 0 then .next (portCtlWrite s p v)
  else if 0x100 ≤ off ∧ off < 0x200 then cmdShaperWrite false p ((off - 0x100) / 0x10) (off % 0x10 == 8) d s
  else if off = 0x300 ∨ off = 0x308 then cmdPolicerWrite p (off == 0x308) d s
  else if 0x500 ≤ off ∧ off < 0x600 then
    (if off < 0x540 then cmdEgressRingWrite p ((off - 0x500) / 0x10) d s else .next (plainWrite s a r v))
  else .next (plainWrite s a r v)

def writeCoding (s : Chip) (a : Nat) (r : RegRow) (v : Nat) : Out :=
  let h := (a - 0x01000000) / 0x1000
  let off := a % 0x1000
  if off = 0 then .next (codeEnable s h (bitOf v 0))
  else if h < 2 ∧ 0x100 ≤ off ∧ off < 0x180 then cmdCodeRingWrite h ((off - 0x100) / 0x10) (off % 0x10 == 8) (BitVec.ofNat 64 v) s
  else .next (plainWrite s a r v)

-- RAS, power, trace, security (R630, R645, R657, R685) ---------------------------------------------------------

def writeRas (s : Chip) (a : Nat) (r : RegRow) (v : Nat) : Out :=
  let d : Word := BitVec.ofNat 64 v
  if a == aTEMPER_CTL then .next (fset (take s a 15 8 v) a 3 0 (min 8 (bitsOf v 3 0)))
  else if a == aPWR_DOMAIN then cmdPwrDomainWrite d s
  else if a == aPWR_LIMIT then cmdPwrLimitWrite d s
  else if a == aPWR_PRIO 0 then .next s
  else .next (plainWrite s a r v)

/-- TW_CTL (R685): LOG2N is taken, and TAIL reset, only while EN is 0. -/
def watchCtlWrite (s : Chip) (v : Nat) : Chip :=
  let k := aTW_CTL
  let s1 := take (take s k 15 4 v) k 0 0 v
  if fbit s k 0 then s1 else fset (fset s1 k 20 16 (max 4 (min 16 (bitsOf v 20 16)))) aTW_HEAD 16 0 0

/-- TW_RING (R685). -/
def watchRingWrite (s : Chip) (v : Nat) : Chip :=
  if fbit s aTW_CTL 0 then s else fset (barSet s aTW_RING v) aTW_HEAD 16 0 0

def writeTrace (s : Chip) (a : Nat) (r : RegRow) (v : Nat) (whole : Bool) : Out :=
  let d : Word := BitVec.ofNat 64 v
  let op := bitsOf v 63 60
  if a == aCTR_CMD then (if op == 1 then cmdCounterClose (bitsOf v 16 0) s else .next s)
  else if a == aTW_CTL then .next (watchCtlWrite s v)
  else if a == aTW_CMD then
    (if !whole then .next s
    else if op == 1 then cmdWatchWrite (bitsOf v 9 0) s
    else if op == 2 then cmdWatchFlush (bitsOf v 9 0) s
    else .next s)
  else if a == aTW_RING then .next (watchRingWrite s v)
  else if a == aTW_HEAD then cmdTwHeadWrite d s
  else if a == aTR_CTL then .next (traceFollow (plainWrite s a r v))
  else if a == aTR_CMD then
    (if op == 1 then cmdArm s else if op == 2 then cmdTrigger s else if op == 3 then cmdDrain s else .next s)
  else if a == aTR_MARK then cmdTrMark d s
  else if a == aSNAP_CTL then .next (if bitOf v 0 then snapRequest s else s)
  else .next (plainWrite s a r v)

/-- SEC_BOOT_CTL (R608, R609, R630): a revocation takes the slot of the same write. -/
def bootCtlWrite (s : Chip) (v : Nat) : Chip :=
  let s1 := take s aSEC_BOOT_CTL 11 10 v
  let s2 := if bitOf v 9 then revokeSlot s1 (bitsOf v 11 10) else s1
  let s3 := if bitOf v 8 then svnCommit s2 else s2
  if bitOf v 0 then loadGo s3 else s3

def writeSecurity (s : Chip) (a : Nat) (r : RegRow) (v : Nat) : Out :=
  if a == aSEC_BOOT_CTL then .next (bootCtlWrite s v)
  else if a == aHOST_BIAS then .next (biasWrite s v)
  else .next (plainWrite s a r v)

-- Tiles (R167, R168, R170, R717) -------------------------------------------------------------------------------

/-- TILE_CTL (R168): strands are reset, banks zeroed and the tile fenced before strands are released. -/
def tileCtlWrite (s : Chip) (t v : Nat) : Chip :=
  let k := aTILE_CTL t
  let s1 := take (take (take s k 39 32 v) k 3 3 v) k 1 1 v
  let s2 := if bitOf v 0 then resetStrands s1 t else s1
  let s3 := if bitOf v 2 && tilePowered s2 t && tileEnabled s2 t then
      modTile (fsetb s2 (aTILE_STATUS t) 2 false) t (fun y => { y with zeroing := true })
    else s2
  let s4 := if bitOf v 4 then fenceTile s3 t else s3
  if bitOf v 1 then s4 else wakeTile s4 t

/-- A write of the high half of TILE_SRAM_DATA alone keeps the word's low half (R23; DESIGN CHOICE, log 14). -/
def sramValue (s : Chip) (t v : Nat) (whole : Bool) : Nat :=
  if whole then v else v / 2 ^ 32 * 2 ^ 32 + cellWord (getTile s t) (fget s (aTILE_SRAM_ADDR t) 21 3) % 2 ^ 32

def writeTile (s : Chip) (a : Nat) (r : RegRow) (v : Nat) (whole : Bool) : Out :=
  let t := (a - 0x02000000) / 0x10000
  let off := a % 0x10000
  if off = 0 then .next (tileCtlWrite s t v)
  else if 144 ≤ t then .next s
  else if off = 0x10 then cmdTileGovWrite t (BitVec.ofNat 64 v) s
  else if off = 0x28 then cmdTileSramDataWrite t (BitVec.ofNat 64 (sramValue s t v whole)) s
  else .next (plainWrite s a r v)

-- The whole (R23, R24) -----------------------------------------------------------------------------------------

/-- A register takes a written value. -/
def regWrite (s : Chip) (fn a : Nat) (r : RegRow) (v : Nat) (whole : Bool) : Out :=
  let k := regKey fn a
  match haspSide fn a with
  | some (f, tenant) => .next (writeHasp s f tenant a k r v)
  | none =>
    if a < 0x00100000 then .next s
    else if a < 0x00200000 then writeHearth s a r v
    else if a < 0x00300000 then writeStrike s a r v whole
    else if a < 0x00400000 then writeBellows s a r v
    else if a < 0x00800000 then writeQueues s fn a k r v whole
    else if a < 0x00C00000 then writeMemory s a r v
    else if a < 0x00E00000 then writeFabric s a r v
    else if a < 0x01000000 then writeFronthaul s a r v
    else if a < 0x01100000 then writeCoding s a r v
    else if a < 0x01300000 then writeRas s a r v
    else if a < 0x01400000 then writeTrace s a r v whole
    else if a < 0x02000000 then writeSecurity s a r v
    else writeTile s a r v whole

/-- The write hold of a function and register. -/
def setHold (s : Chip) (fn a : Nat) (v : Option Nat) : Chip :=
  { s with hold := tset (fun _ => none) (barKey fn a) v s.hold }

/-- A write of BAR0 (R23, R24): a low half waits for its high half; any write empties the read latch. -/
def barWrite (s : Chip) (fn addr size : Nat) (data : Word) : Out :=
  let a := addr / 8 * 8
  let v := data.toNat
  match (if accessOk addr size then barRow s fn a else none) with
  | none => .next (barRefuse s)
  | some r =>
    let s1 := setLatch s fn a none
    if size == 8 then regWrite (setHold s1 fn a none) fn a r v true
    else if addr % 8 == 0 then .next (setHold s1 fn a (some (v % 2 ^ 32)))
    else
      match tget (fun _ => none) s.hold (barKey fn a) with
      | some lo => regWrite (setHold s1 fn a none) fn a r (v % 2 ^ 32 * 2 ^ 32 + lo) true
      | none => regWrite s1 fn a r (highOnly s1 (regKey fn a) r v) false

/-- REGISTER_WRITE (R20, R23, R24). -/
def cmdRegisterWrite (fn addr size : Nat) (data : Word) (s : Chip) : Out :=
  if fn < 64 then barWrite s fn addr size data else .fault (.noSuchUnit "function")

end Sys2Proof.Machine
end

