-- ==== Sys2Proof/Machine/Tongs.lean ====
section
/-! DEFINITION. The Tongs commands: each brings one slot of a bundle, whose effect its record in the Tongs files gives,
and the last slot issues the bundle (R190 to R197); the two events of a waiting bundle (R212, R213). -/

namespace Sys2Proof.Machine

/-- NOP (R245): A nop does nothing. -/
def cmdNop (site : Site) (s : Chip) : Out :=
  slotCommand site (.nop site) s

/-- BR (R198): A branch jumps to its bundle index plus the offset, costing 2 cycles when taken. -/
def cmdBr (site : Site) (off : Nat) (s : Chip) : Out :=
  slotCommand site (.br site off) s

/-- CALL (R245): A call writes the return index to s31 and jumps. -/
def cmdCall (site : Site) (off : Nat) (s : Chip) : Out :=
  slotCommand site (.call site off) s

/-- JR (R199): A jump-register jumps to the index held in ra. -/
def cmdJr (site : Site) (f : FmtR3) (s : Chip) : Out :=
  slotCommand site (.jr site f) s

/-- LOOP (R200): A loop pushes the loop stack and repeats the next len bundles as many times as ra states. -/
def cmdLoop (site : Site) (ra len : Nat) (s : Chip) : Out :=
  slotCommand site (.loop site ra len) s

/-- LOOPC (R201): A cached loop requests the loop cache and runs its body from it, waiting if another strand owns it. -/
def cmdLoopc (site : Site) (ra len : Nat) (s : Chip) : Out :=
  slotCommand site (.loopc site ra len) s

/-- HALT (R187): The strand stops at this bundle while its issued operations run to completion. -/
def cmdHalt (site : Site) (s : Chip) : Out :=
  slotCommand site (.halt site) s

/-- RFE (R231): Return from exception leaves handler state and continues at fpc. -/
def cmdRfe (site : Site) (s : Chip) : Out :=
  slotCommand site (.rfe site) s

/-- SYNC (R205): Waits until every earlier load, store and atomic of the strand has been performed. -/
def cmdSync (site : Site) (s : Chip) : Out :=
  slotCommand site (.sync site) s

/-- WAIT (R212): Waits until an arrival counter is at or below the threshold in ra. -/
def cmdWait (site : Site) (f : FmtW) (s : Chip) : Out :=
  slotCommand site (.wait site f) s

/-- WAIT_T (R213): A timed wait on an arrival counter writes pd 1 if the threshold is reached within the timeout. -/
def cmdWaitT (site : Site) (f : FmtW) (s : Chip) : Out :=
  slotCommand site (.waitT site f) s

/-- ACADD (R210): Adds ra to an arrival counter, with saturation, before the arrivals of the same cycle. -/
def cmdAcadd (site : Site) (f : FmtW) (s : Chip) : Out :=
  slotCommand site (.acadd site f) s

/-- ACSET (R210): Sets an arrival counter to ra, discarding earlier arrivals. -/
def cmdAcset (site : Site) (f : FmtW) (s : Chip) : Out :=
  slotCommand site (.acset site f) s

/-- WWARD (R579): Waits while the partition's job slot is pending, then writes pd by its state. -/
def cmdWward (site : Site) (f : FmtW) (s : Chip) : Out :=
  slotCommand site (.wward site f) s

/-- WFENCE (R578): Waits until the strand's earlier fabric stores, atomics, puts and multicasts are acknowledged, and writes pd. -/
def cmdWfence (site : Site) (f : FmtW) (s : Chip) : Out :=
  slotCommand site (.wfence site f) s

/-- MFSR (R245): Reads a special register into rd. -/
def cmdMfsr (site : Site) (f : FmtRI) (s : Chip) : Out :=
  slotCommand site (.mfsr site f) s

/-- MTSR (R182): Writes a special register from ra, faulting on read-only or unassigned numbers. -/
def cmdMtsr (site : Site) (f : FmtRI) (s : Chip) : Out :=
  slotCommand site (.mtsr site f) s

/-- SCALAR_ALU (R246): Scalar add, sub, and, or or xor of two registers. -/
def cmdScalarAlu (site : Site) (f : FmtR3) (s : Chip) : Out :=
  slotCommand site (.scalarAlu site f) s

/-- SCALAR_SHIFT (R246): Scalar shl, shr or sar by a register count. -/
def cmdScalarShift (site : Site) (f : FmtR3) (s : Chip) : Out :=
  slotCommand site (.scalarShift site f) s

/-- SCALAR_MUL (R246): Low 64 bits of a scalar product. -/
def cmdScalarMul (site : Site) (f : FmtR3) (s : Chip) : Out :=
  slotCommand site (.scalarMul site f) s

/-- SCALAR_MULH (R246): High 64 bits of a signed or unsigned scalar product. -/
def cmdScalarMulh (site : Site) (f : FmtR3) (s : Chip) : Out :=
  slotCommand site (.scalarMulh site f) s

/-- SCALAR_MINMAX (R246): Signed or unsigned scalar minimum or maximum. -/
def cmdScalarMinmax (site : Site) (f : FmtR3) (s : Chip) : Out :=
  slotCommand site (.scalarMinmax site f) s

/-- SCALAR_ALU_IMM (R246): addi, andi, ori or xori with a sign-extended immediate. -/
def cmdScalarAluImm (site : Site) (op : Nat) (f : FmtRI) (s : Chip) : Out :=
  slotCommand site (.scalarAluImm site op f) s

/-- SCALAR_SHIFT_IMM (R246): shli, shri or sari by an immediate count. -/
def cmdScalarShiftImm (site : Site) (op : Nat) (f : FmtRI) (s : Chip) : Out :=
  slotCommand site (.scalarShiftImm site op f) s

/-- LI (R246): Loads a sign-extended 16-bit immediate. -/
def cmdLi (site : Site) (f : FmtRW) (s : Chip) : Out :=
  slotCommand site (.li site f) s

/-- INS16 (R246): Shifts rd left 16 and inserts a 16-bit immediate. -/
def cmdIns16 (site : Site) (f : FmtRW) (s : Chip) : Out :=
  slotCommand site (.ins16 site f) s

/-- PREDICATE_LOGIC (R246): pand, por, pxor or pandn on predicates. -/
def cmdPredicateLogic (site : Site) (f : FmtR3) (s : Chip) : Out :=
  slotCommand site (.predicateLogic site f) s

/-- CMP (R246): Compares two registers into a predicate. -/
def cmdCmp (site : Site) (f : FmtR3) (s : Chip) : Out :=
  slotCommand site (.cmp site f) s

/-- CMP_IMM (R246): ceqi, clti or cltui compare a register with an immediate into a predicate. -/
def cmdCmpImm (site : Site) (op : Nat) (f : FmtRI) (s : Chip) : Out :=
  slotCommand site (.cmpImm site op f) s

/-- SCALAR_LOAD (R247): A scalar load of 1, 2, 4 or 8 bytes from the tile's banks. -/
def cmdScalarLoad (site : Site) (op : Nat) (f : FmtRI) (s : Chip) : Out :=
  slotCommand site (.scalarLoad site op f) s

/-- SCALAR_STORE (R247): A scalar store of 1, 2, 4 or 8 bytes to the tile's banks. -/
def cmdScalarStore (site : Site) (op : Nat) (f : FmtRI) (s : Chip) : Out :=
  slotCommand site (.scalarStore site op f) s

/-- AMO (R248): A tile atomic read-modify-write of a 64-bit word returning the old value. -/
def cmdAmo (site : Site) (f : FmtR3) (s : Chip) : Out :=
  slotCommand site (.amo site f) s

/-- CAS (R248): A tile compare-and-swap of a 64-bit word returning the old value. -/
def cmdCas (site : Site) (f : FmtR3) (s : Chip) : Out :=
  slotCommand site (.cas site f) s

/-- RNG (R249): Writes one value of the counter-based generator. -/
def cmdRng (site : Site) (f : FmtR3) (s : Chip) : Out :=
  slotCommand site (.rng site f) s

/-- VRNG (R249): Writes 32 generator values or 64 uniform FP32 values into a v register. -/
def cmdVrng (site : Site) (f : FmtR3) (s : Chip) : Out :=
  slotCommand site (.vrng site f) s

/-- VFADD (R250): Vector FP32 add, subtract or multiply. -/
def cmdVfadd (site : Site) (op : Nat) (f : FmtR3) (s : Chip) : Out :=
  slotCommand site (.vfadd site op f) s

/-- VFMA (R250): Vector fused multiply-add rounded once. -/
def cmdVfma (site : Site) (f : FmtR3) (s : Chip) : Out :=
  slotCommand site (.vfma site f) s

/-- VFMINMAX (R251): Vector FP32 minimum or maximum. -/
def cmdVfminmax (site : Site) (op : Nat) (f : FmtR3) (s : Chip) : Out :=
  slotCommand site (.vfminmax site op f) s

/-- VFUN (R250): Vector unary rcp, rsqrt, exp2, log2, abs or neg. -/
def cmdVfun (site : Site) (f : FmtR3) (s : Chip) : Out :=
  slotCommand site (.vfun site f) s

/-- VFCMP (R250): Vector FP32 compare writing lane masks. -/
def cmdVfcmp (site : Site) (f : FmtR3) (s : Chip) : Out :=
  slotCommand site (.vfcmp site f) s

/-- VSEL (R250): Bitwise vector select. -/
def cmdVsel (site : Site) (f : FmtR3) (s : Chip) : Out :=
  slotCommand site (.vsel site f) s

/-- VINT (R254): Vector integer operation at the width and operation that fn selects. -/
def cmdVint (site : Site) (f : FmtR3) (s : Chip) : Out :=
  slotCommand site (.vint site f) s

/-- VCVT (R252): Converts FP32 lanes to another format. -/
def cmdVcvt (site : Site) (f : FmtR3) (s : Chip) : Out :=
  slotCommand site (.vcvt site f) s

/-- VCVTF (R252): Converts another format to FP32 lanes. -/
def cmdVcvtf (site : Site) (f : FmtR3) (s : Chip) : Out :=
  slotCommand site (.vcvtf site f) s

/-- VMXQ (R252): Quantises 64 FP32 lanes to two MX blocks. -/
def cmdVmxq (site : Site) (f : FmtR3) (s : Chip) : Out :=
  slotCommand site (.vmxq site f) s

/-- VFSUM (R253): Combines the 64 lanes by the canonical tree. -/
def cmdVfsum (site : Site) (f : FmtR3) (s : Chip) : Out :=
  slotCommand site (.vfsum site f) s

/-- VLD (R255): Loads 256 bytes into a v register. -/
def cmdVld (site : Site) (f : FmtRI) (s : Chip) : Out :=
  slotCommand site (.vld site f) s

/-- VST (R255): Stores 256 bytes from a v register. -/
def cmdVst (site : Site) (f : FmtRI) (s : Chip) : Out :=
  slotCommand site (.vst site f) s

/-- VLDS (R255): Strided, transposing vector load. -/
def cmdVlds (site : Site) (f : FmtR3) (s : Chip) : Out :=
  slotCommand site (.vlds site f) s

/-- VSTS (R255): Strided, transposing vector store. -/
def cmdVsts (site : Site) (f : FmtR3) (s : Chip) : Out :=
  slotCommand site (.vsts site f) s

/-- MVSV (R256): Moves a scalar into one 64-bit lane of a v register. -/
def cmdMvsv (site : Site) (f : FmtR3) (s : Chip) : Out :=
  slotCommand site (.mvsv site f) s

/-- MVVS (R256): Moves one 64-bit lane of a v register into a scalar. -/
def cmdMvvs (site : Site) (f : FmtR3) (s : Chip) : Out :=
  slotCommand site (.mvvs site f) s

/-- VBC (R256): Broadcasts a scalar to every element at the width that fn selects. -/
def cmdVbc (site : Site) (f : FmtR3) (s : Chip) : Out :=
  slotCommand site (.vbc site f) s

/-- VCOPY (R256): Copies one v register to another. -/
def cmdVcopy (site : Site) (f : FmtR3) (s : Chip) : Out :=
  slotCommand site (.vcopy site f) s

/-- MVCV (R256): Moves a c register into a v register through the Fuller queue. -/
def cmdMvcv (site : Site) (f : FmtR3) (s : Chip) : Out :=
  slotCommand site (.mvcv site f) s

/-- MVVC (R256): Moves a v register into a c register through the Fuller queue. -/
def cmdMvvc (site : Site) (f : FmtR3) (s : Chip) : Out :=
  slotCommand site (.mvvc site f) s

/-- CLD (R257): Queues a 128-byte load of a c register from the banks. -/
def cmdCld (site : Site) (f : FmtRI) (s : Chip) : Out :=
  slotCommand site (.cld site f) s

/-- CST (R257): Queues a 128-byte store of a c register to the banks. -/
def cmdCst (site : Site) (f : FmtRI) (s : Chip) : Out :=
  slotCommand site (.cst site f) s

/-- XLD (R258): Queues a copy of bank bytes into an activation slot or its scale area. -/
def cmdXld (site : Site) (f : FmtD) (s : Chip) : Out :=
  slotCommand site (.xld site f) s

/-- MVT (R259): Queues a mover transposing copy. -/
def cmdMvt (site : Site) (f : FmtD) (s : Chip) : Out :=
  slotCommand site (.mvt site f) s

/-- PCOMB (R262): Queues the combine of two partial records into a third under the tag checks. -/
def cmdPcomb (site : Site) (f : FmtE) (s : Chip) : Out :=
  slotCommand site (.pcomb site f) s

/-- AMERGE (R263): Queues the merge of two attention partial records. -/
def cmdAmerge (site : Site) (f : FmtE) (s : Chip) : Out :=
  slotCommand site (.amerge site f) s

/-- AFINAL (R263): Queues the finishing of a root attention record into o over l. -/
def cmdAfinal (site : Site) (f : FmtE) (s : Chip) : Out :=
  slotCommand site (.afinal site f) s

/-- MM (R264): Queues one matrix-engine pass in gang or split mode. -/
def cmdMm (site : Site) (f : FmtE) (s : Chip) : Out :=
  slotCommand site (.mm site f) s

/-- MEW (R269): Queues an element-wise operation on the held root result of a quarter or the ganged array. -/
def cmdMew (site : Site) (f : FmtE) (s : Chip) : Out :=
  slotCommand site (.mew site f) s

/-- BMV (R270): Queues one bankside matrix-vector operation for up to 24 sequences. -/
def cmdBmv (site : Site) (f : FmtE) (s : Chip) : Out :=
  slotCommand site (.bmv site f) s

/-- KST (R273): Queues writing an accumulator set as a partial record. -/
def cmdKst (site : Site) (f : FmtE) (s : Chip) : Out :=
  slotCommand site (.kst site f) s

/-- KLD (R274): Queues loading a saved partial record into an accumulator set. -/
def cmdKld (site : Site) (f : FmtE) (s : Chip) : Out :=
  slotCommand site (.kld site f) s

/-- FCMUL (R277): Queues a Fuller complex multiply of two streams, optionally adding a third. -/
def cmdFcmul (site : Site) (f : FmtE) (s : Chip) : Out :=
  slotCommand site (.fcmul site f) s

/-- FCMAC (R277): Queues a Fuller complex multiply-accumulate into lane accumulators. -/
def cmdFcmac (site : Site) (f : FmtE) (s : Chip) : Out :=
  slotCommand site (.fcmac site f) s

/-- FWB (R277): Queues the write-back of lane accumulators to a c register or banks. -/
def cmdFwb (site : Site) (f : FmtE) (s : Chip) : Out :=
  slotCommand site (.fwb site f) s

/-- FFIR (R277): Queues a Fuller FIR filter or sliding correlator. -/
def cmdFfir (site : Site) (f : FmtE) (s : Chip) : Out :=
  slotCommand site (.ffir site f) s

/-- FMAG2 (R277): Queues a Fuller squared magnitude of a stream. -/
def cmdFmag2 (site : Site) (f : FmtE) (s : Chip) : Out :=
  slotCommand site (.fmag2 site f) s

/-- FBEXP (R277): Queues block-exponent detection of a stream into the exponent word. -/
def cmdFbexp (site : Site) (f : FmtE) (s : Chip) : Out :=
  slotCommand site (.fbexp site f) s

/-- FR4 (R278): Queues a radix-4 transform stage. -/
def cmdFr4 (site : Site) (f : FmtE) (s : Chip) : Out :=
  slotCommand site (.fr4 site f) s

/-- FR2 (R278): Queues a radix-2 transform stage. -/
def cmdFr2 (site : Site) (f : FmtE) (s : Chip) : Out :=
  slotCommand site (.fr2 site f) s

/-- DTAP (R280): Queues sending a watched tensor piece to the tensor-watch collector. -/
def cmdDtap (site : Site) (f : FmtD) (s : Chip) : Out :=
  slotCommand site (.dtap site f) s

/-- STAP (R281): Queues computing a piece's statistics for the collector. -/
def cmdStap (site : Site) (f : FmtE) (s : Chip) : Out :=
  slotCommand site (.stap site f) s

/-- SEND (R216): Copies 8 to 4,096 bytes to another tile of the partition over the mesh, after descriptor checks. -/
def cmdSend (site : Site) (f : FmtD) (s : Chip) : Out :=
  slotCommand site (.send site f) s

/-- FLD (R576): A fabric load of 8 bytes into rd. -/
def cmdFld (site : Site) (f : FmtRI) (s : Chip) : Out :=
  slotCommand site (.fld site f) s

/-- FST (R576): A posted fabric store of 8 bytes. -/
def cmdFst (site : Site) (f : FmtRI) (s : Chip) : Out :=
  slotCommand site (.fst site f) s

/-- FAMO (R576): A remote atomic at a fabric address. -/
def cmdFamo (site : Site) (f : FmtR3) (s : Chip) : Out :=
  slotCommand site (.famo site f) s

/-- FCAS (R576): A remote compare-and-swap at a fabric address. -/
def cmdFcas (site : Site) (f : FmtR3) (s : Chip) : Out :=
  slotCommand site (.fcas site f) s

/-- FCOPY (R577): An asynchronous put or get between the tile's banks and a fabric address. -/
def cmdFcopy (site : Site) (f : FmtD) (s : Chip) : Out :=
  slotCommand site (.fcopy site f) s

/-- FMCAST (R585): A multicast put of the same bytes to every member of a group. -/
def cmdFmcast (site : Site) (f : FmtD) (s : Chip) : Out :=
  slotCommand site (.fmcast site f) s

/-- FRED (R586): Contributes a partial record to a fabric reduction and receives the result. -/
def cmdFred (site : Site) (f : FmtD) (s : Chip) : Out :=
  slotCommand site (.fred site f) s

/-- WAIT_SATISFIED (R212): a bundle that waits on an arrival counter issues when the counter is at or below its
threshold; where it is not, the strand goes on waiting. -/
def cmdWaitSatisfied (tile strand : Nat) (s : Chip) : Out :=
  onStrand tile strand s (fun s =>
    match (getStrand s tile strand).wait with
    | some w => if w.kind == .counter then retryCache (tryIssue s tile strand) tile else s
    | none => s)

/-- A slot of the bundle is a timed wait whose predicate lets it execute (R213). -/
def timedWaiting (x : Strand) : Bool :=
  x.slots.any (fun c => match c with
    | .waitT site _ => rdP x site.pr != site.pn
    | _ => false)

/-- WAIT_TIMEOUT (R213): the bundle issues with pd written 0. -/
def cmdWaitTimeout (tile strand : Nat) (s : Chip) : Out :=
  onStrand tile strand s (fun s =>
    let x := getStrand s tile strand
    match x.wait with
    | some w =>
      if w.kind == .counter && timedWaiting x then
        retryCache (tryIssue (setStrand s tile strand { x with timedOut := true }) tile strand) tile
      else s
    | none => s)

end Sys2Proof.Machine
end

