-- ==== Sys2Proof/Machine/Meanings.lean ====
section
/-! DEFINITION. The meaning of each command on the whole state: its effect on the HX720, which its own file gives, with
the queue left as it stands. -/

namespace Sys2Proof.Machine

/-- The outcome of a command. -/
abbrev Outcome := Host.Outcome State Fault Refusal

def execRegisterWrite (fn addr size : Nat) (data : Word) (s : State) : Outcome :=
  onChip s (cmdRegisterWrite fn addr size data)
def execRegisterReadSideEffect (fn addr size : Nat) (s : State) : Outcome :=
  onChip s (cmdRegisterReadSideEffect fn addr size)
def execMeshFlitResend (link : Nat) (again : Bool) (s : State) : Outcome := onChip s (cmdMeshFlitResend link again)
def execGovernorFrame (tile readyF readyM readyB unitsM unitsB : Nat) (s : State) : Outcome :=
  onChip s (cmdGovernorFrame tile readyF readyM readyB unitsM unitsB)
def execEccWriteBack (tile bank : Nat) (s : State) : Outcome := onChip s (cmdEccWriteBack tile bank)
def execScrubLine (tile bank : Nat) (s : State) : Outcome := onChip s (cmdScrubLine tile bank)
def execPortPromotion (tile bank order : Nat) (s : State) : Outcome := onChip s (cmdPortPromotion tile bank order)
def execTileZero (tile : Nat) (s : State) : Outcome := onChip s (cmdTileZero tile)
def execTileZeroComplete (tile : Nat) (s : State) : Outcome := onChip s (cmdTileZeroComplete tile)
def execTileFence (tile : Nat) (s : State) : Outcome := onChip s (cmdTileFence tile)
def execTileLogicFault (tile : Nat) (s : State) : Outcome := onChip s (cmdTileLogicFault tile)
def execStrandReset (tile : Nat) (s : State) : Outcome := onChip s (cmdStrandReset tile)
def execTileHalt (tile : Nat) (halt : Bool) (s : State) : Outcome := onChip s (cmdTileHalt tile halt)
def execStrandEnable (tile mask : Nat) (s : State) : Outcome := onChip s (cmdStrandEnable tile mask)
def execTileSramDataRead (tile : Nat) (s : State) : Outcome := onChip s (cmdTileSramDataRead tile)
def execTileSramDataWrite (tile : Nat) (data : Word) (s : State) : Outcome :=
  onChip s (cmdTileSramDataWrite tile data)
def execTileGovWrite (tile : Nat) (data : Word) (s : State) : Outcome := onChip s (cmdTileGovWrite tile data)
def execFetchLineArrival (tile line : Nat) (s : State) : Outcome := onChip s (cmdFetchLineArrival tile line)
def execPaneArrival (tile stream : Nat) (s : State) : Outcome := onChip s (cmdPaneArrival tile stream)
def execBufferSwap (tile strand : Nat) (s : State) : Outcome := onChip s (cmdBufferSwap tile strand)
def execNop (site : Site) (s : State) : Outcome := onChip s (cmdNop site)
def execBr (site : Site) (off : Nat) (s : State) : Outcome := onChip s (cmdBr site off)
def execCall (site : Site) (off : Nat) (s : State) : Outcome := onChip s (cmdCall site off)
def execJr (site : Site) (f : FmtR3) (s : State) : Outcome := onChip s (cmdJr site f)
def execLoop (site : Site) (ra len : Nat) (s : State) : Outcome := onChip s (cmdLoop site ra len)
def execLoopc (site : Site) (ra len : Nat) (s : State) : Outcome := onChip s (cmdLoopc site ra len)
def execHalt (site : Site) (s : State) : Outcome := onChip s (cmdHalt site)
def execRfe (site : Site) (s : State) : Outcome := onChip s (cmdRfe site)
def execSync (site : Site) (s : State) : Outcome := onChip s (cmdSync site)
def execWait (site : Site) (f : FmtW) (s : State) : Outcome := onChip s (cmdWait site f)
def execWaitSatisfied (tile strand : Nat) (s : State) : Outcome := onChip s (cmdWaitSatisfied tile strand)
def execWaitT (site : Site) (f : FmtW) (s : State) : Outcome := onChip s (cmdWaitT site f)
def execWaitTimeout (tile strand : Nat) (s : State) : Outcome := onChip s (cmdWaitTimeout tile strand)
def execAcadd (site : Site) (f : FmtW) (s : State) : Outcome := onChip s (cmdAcadd site f)
def execAcset (site : Site) (f : FmtW) (s : State) : Outcome := onChip s (cmdAcset site f)
def execWward (site : Site) (f : FmtW) (s : State) : Outcome := onChip s (cmdWward site f)
def execWfence (site : Site) (f : FmtW) (s : State) : Outcome := onChip s (cmdWfence site f)
def execMfsr (site : Site) (f : FmtRI) (s : State) : Outcome := onChip s (cmdMfsr site f)
def execMtsr (site : Site) (f : FmtRI) (s : State) : Outcome := onChip s (cmdMtsr site f)
def execScalarAlu (site : Site) (f : FmtR3) (s : State) : Outcome := onChip s (cmdScalarAlu site f)
def execScalarShift (site : Site) (f : FmtR3) (s : State) : Outcome := onChip s (cmdScalarShift site f)
def execScalarMul (site : Site) (f : FmtR3) (s : State) : Outcome := onChip s (cmdScalarMul site f)
def execScalarMulh (site : Site) (f : FmtR3) (s : State) : Outcome := onChip s (cmdScalarMulh site f)
def execScalarMinmax (site : Site) (f : FmtR3) (s : State) : Outcome := onChip s (cmdScalarMinmax site f)
def execScalarAluImm (site : Site) (op : Nat) (f : FmtRI) (s : State) : Outcome :=
  onChip s (cmdScalarAluImm site op f)
def execScalarShiftImm (site : Site) (op : Nat) (f : FmtRI) (s : State) : Outcome :=
  onChip s (cmdScalarShiftImm site op f)
def execLi (site : Site) (f : FmtRW) (s : State) : Outcome := onChip s (cmdLi site f)
def execIns16 (site : Site) (f : FmtRW) (s : State) : Outcome := onChip s (cmdIns16 site f)
def execPredicateLogic (site : Site) (f : FmtR3) (s : State) : Outcome := onChip s (cmdPredicateLogic site f)
def execCmp (site : Site) (f : FmtR3) (s : State) : Outcome := onChip s (cmdCmp site f)
def execCmpImm (site : Site) (op : Nat) (f : FmtRI) (s : State) : Outcome := onChip s (cmdCmpImm site op f)
def execScalarLoad (site : Site) (op : Nat) (f : FmtRI) (s : State) : Outcome := onChip s (cmdScalarLoad site op f)
def execScalarStore (site : Site) (op : Nat) (f : FmtRI) (s : State) : Outcome := onChip s (cmdScalarStore site op f)
def execAmo (site : Site) (f : FmtR3) (s : State) : Outcome := onChip s (cmdAmo site f)
def execCas (site : Site) (f : FmtR3) (s : State) : Outcome := onChip s (cmdCas site f)
def execRng (site : Site) (f : FmtR3) (s : State) : Outcome := onChip s (cmdRng site f)
def execVrng (site : Site) (f : FmtR3) (s : State) : Outcome := onChip s (cmdVrng site f)
def execVfadd (site : Site) (op : Nat) (f : FmtR3) (s : State) : Outcome := onChip s (cmdVfadd site op f)
def execVfma (site : Site) (f : FmtR3) (s : State) : Outcome := onChip s (cmdVfma site f)
def execVfminmax (site : Site) (op : Nat) (f : FmtR3) (s : State) : Outcome := onChip s (cmdVfminmax site op f)
def execVfun (site : Site) (f : FmtR3) (s : State) : Outcome := onChip s (cmdVfun site f)
def execVfcmp (site : Site) (f : FmtR3) (s : State) : Outcome := onChip s (cmdVfcmp site f)
def execVsel (site : Site) (f : FmtR3) (s : State) : Outcome := onChip s (cmdVsel site f)
def execVint (site : Site) (f : FmtR3) (s : State) : Outcome := onChip s (cmdVint site f)
def execVcvt (site : Site) (f : FmtR3) (s : State) : Outcome := onChip s (cmdVcvt site f)
def execVcvtf (site : Site) (f : FmtR3) (s : State) : Outcome := onChip s (cmdVcvtf site f)
def execVmxq (site : Site) (f : FmtR3) (s : State) : Outcome := onChip s (cmdVmxq site f)
def execVfsum (site : Site) (f : FmtR3) (s : State) : Outcome := onChip s (cmdVfsum site f)
def execVld (site : Site) (f : FmtRI) (s : State) : Outcome := onChip s (cmdVld site f)
def execVst (site : Site) (f : FmtRI) (s : State) : Outcome := onChip s (cmdVst site f)
def execVlds (site : Site) (f : FmtR3) (s : State) : Outcome := onChip s (cmdVlds site f)
def execVsts (site : Site) (f : FmtR3) (s : State) : Outcome := onChip s (cmdVsts site f)
def execMvsv (site : Site) (f : FmtR3) (s : State) : Outcome := onChip s (cmdMvsv site f)
def execMvvs (site : Site) (f : FmtR3) (s : State) : Outcome := onChip s (cmdMvvs site f)
def execVbc (site : Site) (f : FmtR3) (s : State) : Outcome := onChip s (cmdVbc site f)
def execVcopy (site : Site) (f : FmtR3) (s : State) : Outcome := onChip s (cmdVcopy site f)
def execMvcv (site : Site) (f : FmtR3) (s : State) : Outcome := onChip s (cmdMvcv site f)
def execMvvc (site : Site) (f : FmtR3) (s : State) : Outcome := onChip s (cmdMvvc site f)
def execCld (site : Site) (f : FmtRI) (s : State) : Outcome := onChip s (cmdCld site f)
def execCst (site : Site) (f : FmtRI) (s : State) : Outcome := onChip s (cmdCst site f)
def execXld (site : Site) (f : FmtD) (s : State) : Outcome := onChip s (cmdXld site f)
def execXldComplete (tile : Nat) (s : State) : Outcome := onChip s (cmdXldComplete tile)
def execMvt (site : Site) (f : FmtD) (s : State) : Outcome := onChip s (cmdMvt site f)
def execMvtComplete (tile : Nat) (s : State) : Outcome := onChip s (cmdMvtComplete tile)
def execPcomb (site : Site) (f : FmtE) (s : State) : Outcome := onChip s (cmdPcomb site f)
def execPcombComplete (tile : Nat) (s : State) : Outcome := onChip s (cmdPcombComplete tile)
def execAmerge (site : Site) (f : FmtE) (s : State) : Outcome := onChip s (cmdAmerge site f)
def execAmergeComplete (tile : Nat) (s : State) : Outcome := onChip s (cmdAmergeComplete tile)
def execAfinal (site : Site) (f : FmtE) (s : State) : Outcome := onChip s (cmdAfinal site f)
def execAfinalComplete (tile : Nat) (s : State) : Outcome := onChip s (cmdAfinalComplete tile)
def execMm (site : Site) (f : FmtE) (s : State) : Outcome := onChip s (cmdMm site f)
def execMmPassComplete (tile : Nat) (s : State) : Outcome := onChip s (cmdMmPassComplete tile)
def execMew (site : Site) (f : FmtE) (s : State) : Outcome := onChip s (cmdMew site f)
def execMewComplete (tile : Nat) (s : State) : Outcome := onChip s (cmdMewComplete tile)
def execBmv (site : Site) (f : FmtE) (s : State) : Outcome := onChip s (cmdBmv site f)
def execBmvComplete (tile : Nat) (s : State) : Outcome := onChip s (cmdBmvComplete tile)
def execKst (site : Site) (f : FmtE) (s : State) : Outcome := onChip s (cmdKst site f)
def execKstComplete (tile : Nat) (s : State) : Outcome := onChip s (cmdKstComplete tile)
def execKld (site : Site) (f : FmtE) (s : State) : Outcome := onChip s (cmdKld site f)
def execKldComplete (tile : Nat) (s : State) : Outcome := onChip s (cmdKldComplete tile)
def execFcmul (site : Site) (f : FmtE) (s : State) : Outcome := onChip s (cmdFcmul site f)
def execFcmac (site : Site) (f : FmtE) (s : State) : Outcome := onChip s (cmdFcmac site f)
def execFwb (site : Site) (f : FmtE) (s : State) : Outcome := onChip s (cmdFwb site f)
def execFfir (site : Site) (f : FmtE) (s : State) : Outcome := onChip s (cmdFfir site f)
def execFmag2 (site : Site) (f : FmtE) (s : State) : Outcome := onChip s (cmdFmag2 site f)
def execFbexp (site : Site) (f : FmtE) (s : State) : Outcome := onChip s (cmdFbexp site f)
def execFr4 (site : Site) (f : FmtE) (s : State) : Outcome := onChip s (cmdFr4 site f)
def execFr2 (site : Site) (f : FmtE) (s : State) : Outcome := onChip s (cmdFr2 site f)
def execFullerOpComplete (tile : Nat) (s : State) : Outcome := onChip s (cmdFullerOpComplete tile)
def execDtap (site : Site) (f : FmtD) (s : State) : Outcome := onChip s (cmdDtap site f)
def execDtapComplete (tile : Nat) (s : State) : Outcome := onChip s (cmdDtapComplete tile)
def execStap (site : Site) (f : FmtE) (s : State) : Outcome := onChip s (cmdStap site f)
def execStapComplete (tile : Nat) (s : State) : Outcome := onChip s (cmdStapComplete tile)
def execSend (site : Site) (f : FmtD) (s : State) : Outcome := onChip s (cmdSend site f)
def execSendArrival (id : Nat) (s : State) : Outcome := onChip s (cmdSendArrival id)
def execSendAckArrival (id : Nat) (s : State) : Outcome := onChip s (cmdSendAckArrival id)
def execSendRefused (id : Nat) (s : State) : Outcome := onChip s (cmdSendRefused id)
def execAsyncFaultTaken (tile strand : Nat) (s : State) : Outcome := onChip s (cmdAsyncFaultTaken tile strand)
def execFld (site : Site) (f : FmtRI) (s : State) : Outcome := onChip s (cmdFld site f)
def execFst (site : Site) (f : FmtRI) (s : State) : Outcome := onChip s (cmdFst site f)
def execFamo (site : Site) (f : FmtR3) (s : State) : Outcome := onChip s (cmdFamo site f)
def execFcas (site : Site) (f : FmtR3) (s : State) : Outcome := onChip s (cmdFcas site f)
def execFcopy (site : Site) (f : FmtD) (s : State) : Outcome := onChip s (cmdFcopy site f)
def execFmcast (site : Site) (f : FmtD) (s : State) : Outcome := onChip s (cmdFmcast site f)
def execFred (site : Site) (f : FmtD) (s : State) : Outcome := onChip s (cmdFred site f)
def execMemTrain (s : State) : Outcome := onChip s (cmdMemTrain)
def execChannelTrainingComplete (hpprSkipped : Nat) (s : State) : Outcome :=
  onChip s (cmdChannelTrainingComplete hpprSkipped)
def execChannelFence (chan : Nat) (s : State) : Outcome := onChip s (cmdChannelFence chan)
def execCaParityError (chan : Nat) (again : Bool) (s : State) : Outcome := onChip s (cmdCaParityError chan again)
def execMemMapWrite (data : Word) (s : State) : Outcome := onChip s (cmdMemMapWrite data)
def execHdmDecoderCommit (s : State) : Outcome := onChip s (cmdHdmDecoderCommit)
def execHostHdmAccess (isWrite : Bool) (addr len : Nat) (data : List (BitVec 8)) (s : State) : Outcome :=
  onChip s (cmdHostHdmAccess isWrite addr len data)
def execMemRead (part fn addr len : Nat) (s : State) : Outcome := onChip s (cmdMemRead part fn addr len)
def execMemWrite (part fn addr : Nat) (data : List (BitVec 8)) (poison : Bool) (s : State) : Outcome :=
  onChip s (cmdMemWrite part fn addr data poison)
def execMemCorrectionWriteBack (chan : Nat) (s : State) : Outcome := onChip s (cmdMemCorrectionWriteBack chan)
def execPatrolScrub (chan : Nat) (s : State) : Outcome := onChip s (cmdPatrolScrub chan)
def execSoftPpr (chan row : Nat) (s : State) : Outcome := onChip s (cmdSoftPpr chan row)
def execRefresh (chan : Nat) (s : State) : Outcome := onChip s (cmdRefresh chan)
def execSwageQuery (unit part sender : Nat) (record : List (BitVec 8)) (s : State) : Outcome :=
  onChip s (cmdSwageQuery unit part sender record)
def execSwageAppend (unit part sender : Nat) (record : List (BitVec 8)) (s : State) : Outcome :=
  onChip s (cmdSwageAppend unit part sender record)
def execSwagePageInit (unit part sender : Nat) (record : List (BitVec 8)) (s : State) : Outcome :=
  onChip s (cmdSwagePageInit unit part sender record)
def execSwageContextStart (unit : Nat) (s : State) : Outcome := onChip s (cmdSwageContextStart unit)
def execSwageDescriptorsArrive (unit ctx : Nat) (s : State) : Outcome := onChip s (cmdSwageDescriptorsArrive unit ctx)
def execSwagePageComplete (unit ctx : Nat) (s : State) : Outcome := onChip s (cmdSwagePageComplete unit ctx)
def execSwageRecordWrite (unit ctx : Nat) (s : State) : Outcome := onChip s (cmdSwageRecordWrite unit ctx)
def execSwageAppendCommit (unit ctx : Nat) (s : State) : Outcome := onChip s (cmdSwageAppendCommit unit ctx)
def execSwagePageInitCommit (unit ctx : Nat) (s : State) : Outcome := onChip s (cmdSwagePageInitCommit unit ctx)
def execSwageFence (unit : Nat) (s : State) : Outcome := onChip s (cmdSwageFence unit)
def execSwageEnable (unit : Nat) (on : Bool) (s : State) : Outcome := onChip s (cmdSwageEnable unit on)
def execAppend (fn queue : Nat) (s : State) : Outcome := onChip s (cmdAppend fn queue)
def execWriteContext (fn queue : Nat) (s : State) : Outcome := onChip s (cmdWriteContext fn queue)
def execReadContext (fn queue : Nat) (s : State) : Outcome := onChip s (cmdReadContext fn queue)
def execRewrite (fn queue : Nat) (s : State) : Outcome := onChip s (cmdRewrite fn queue)
def execResume (fn queue : Nat) (s : State) : Outcome := onChip s (cmdResume fn queue)
def execSkip (fn queue : Nat) (s : State) : Outcome := onChip s (cmdSkip fn queue)
def execAbort (fn queue : Nat) (s : State) : Outcome := onChip s (cmdAbort fn queue)
def execPin (fn queue : Nat) (s : State) : Outcome := onChip s (cmdPin fn queue)
def execUnpin (fn queue : Nat) (s : State) : Outcome := onChip s (cmdUnpin fn queue)
def execQmDoorbell (fn queue index : Nat) (s : State) : Outcome := onChip s (cmdQmDoorbell fn queue index)
def execQmEnable (s : State) : Outcome := onChip s (cmdQmEnable)
def execQmTableReady (s : State) : Outcome := onChip s (cmdQmTableReady)
def execQmStopAll (stop : Bool) (s : State) : Outcome := onChip s (cmdQmStopAll stop)
def execEngineAbort (engine : Nat) (s : State) : Outcome := onChip s (cmdEngineAbort engine)
def execEngineEnable (engine : Nat) (on : Bool) (s : State) : Outcome := onChip s (cmdEngineEnable engine on)
def execDescriptorStart (queue : Nat) (s : State) : Outcome := onChip s (cmdDescriptorStart queue)
def execDmaReadReturn (queue slot : Nat) (outcome : ReadOutcome) (s : State) : Outcome :=
  onChip s (cmdDmaReadReturn queue slot outcome)
def execReadBackReturn (queue slot : Nat) (ok : Bool) (s : State) : Outcome :=
  onChip s (cmdReadBackReturn queue slot ok)
def execCompletionRecordWrite (queue slot : Nat) (s : State) : Outcome :=
  onChip s (cmdCompletionRecordWrite queue slot)
def execCqModerationTimeout (queue : Nat) (s : State) : Outcome := onChip s (cmdCqModerationTimeout queue)
def execEngineFailure (engine : Nat) (s : State) : Outcome := onChip s (cmdEngineFailure engine)
def execContextLost (queue : Nat) (s : State) : Outcome := onChip s (cmdContextLost queue)
def execHostReadTimeout (queue slot : Nat) (s : State) : Outcome := onChip s (cmdHostReadTimeout queue slot)
def execStrikeBoundary (s : State) : Outcome := onChip s (cmdStrikeBoundary)
def execPhaseStart (phase : Nat) (s : State) : Outcome := onChip s (cmdPhaseStart phase)
def execPhaseDeadline (phase : Nat) (s : State) : Outcome := onChip s (cmdPhaseDeadline phase)
def execPlanLoad (data : Word) (s : State) : Outcome := onChip s (cmdPlanLoad data)
def execPlanProofComplete (s : State) : Outcome := onChip s (cmdPlanProofComplete)
def execPlanReproofComplete (s : State) : Outcome := onChip s (cmdPlanReproofComplete)
def execTierReq (data : Word) (s : State) : Outcome := onChip s (cmdTierReq data)
def execStrikeEnable (on : Bool) (s : State) : Outcome := onChip s (cmdStrikeEnable on)
def execUnmute (ports : Nat) (s : State) : Outcome := onChip s (cmdUnmute ports)
def execCodingBlockComplete (half ring : Nat) (s : State) : Outcome := onChip s (cmdCodingBlockComplete half ring)
def execCodingHalfFailure (half : Nat) (s : State) : Outcome := onChip s (cmdCodingHalfFailure half)
def execCodeRingWrite (half ring : Nat) (isB : Bool) (data : Word) (s : State) : Outcome :=
  onChip s (cmdCodeRingWrite half ring isB data)
def execFrameReceived (port : Nat) (frame : Frame) (s : State) : Outcome := onChip s (cmdFrameReceived port frame)
def execIngressSectionWritten (port : Nat) (s : State) : Outcome := onChip s (cmdIngressSectionWritten port)
def execEgressFrameStart (port : Nat) (s : State) : Outcome := onChip s (cmdEgressFrameStart port)
def execEgressLateDiscard (port queue : Nat) (s : State) : Outcome := onChip s (cmdEgressLateDiscard port queue)
def execShaperTick (s : State) : Outcome := onChip s (cmdShaperTick)
def execShaperWrite (fabric : Bool) (port queue : Nat) (isB : Bool) (data : Word) (s : State) : Outcome :=
  onChip s (cmdShaperWrite fabric port queue isB data)
def execPolicerWrite (port : Nat) (isB : Bool) (data : Word) (s : State) : Outcome :=
  onChip s (cmdPolicerWrite port isB data)
def execQueueSample (port : Nat) (s : State) : Outcome := onChip s (cmdQueueSample port)
def execPortEnable (port : Nat) (on : Bool) (s : State) : Outcome := onChip s (cmdPortEnable port on)
def execPortLinkDown (port : Nat) (s : State) : Outcome := onChip s (cmdPortLinkDown port)
def execPortLinkUp (port : Nat) (s : State) : Outcome := onChip s (cmdPortLinkUp port)
def execEgressRingWrite (port ring : Nat) (data : Word) (s : State) : Outcome :=
  onChip s (cmdEgressRingWrite port ring data)
def execTimeBaseStep (base : Nat) (data : Word) (s : State) : Outcome := onChip s (cmdTimeBaseStep base data)
def execTimeBaseFreqWrite (base : Nat) (data : Word) (s : State) : Outcome :=
  onChip s (cmdTimeBaseFreqWrite base data)
def execTbSecRead (fn base : Nat) (s : State) : Outcome := onChip s (cmdTbSecRead fn base)
def execTimeSnapshot (s : State) : Outcome := onChip s (cmdTimeSnapshot)
def execSyncTimeout (s : State) : Outcome := onChip s (cmdSyncTimeout)
def execHoldoverExpiry (s : State) : Outcome := onChip s (cmdHoldoverExpiry)
def execSynceReferenceLost (s : State) : Outcome := onChip s (cmdSynceReferenceLost)
def execTimeTriggerArm (trigger : Nat) (data : Word) (s : State) : Outcome :=
  onChip s (cmdTimeTriggerArm trigger data)
def execTimeTriggerFire (trigger : Nat) (s : State) : Outcome := onChip s (cmdTimeTriggerFire trigger)
def execTimeOutPulseEnd (pin : Nat) (s : State) : Outcome := onChip s (cmdTimeOutPulseEnd pin)
def execTimeInEdge (pin : Nat) (rising : Bool) (s : State) : Outcome := onChip s (cmdTimeInEdge pin rising)
def execCaptureRead (unit : Nat) (s : State) : Outcome := onChip s (cmdCaptureRead unit)
def execPartCreate (part : Nat) (s : State) : Outcome := onChip s (cmdPartCreate part)
def execPartDestroy (part : Nat) (s : State) : Outcome := onChip s (cmdPartDestroy part)
def execPartAdd (part groups : Nat) (s : State) : Outcome := onChip s (cmdPartAdd part groups)
def execPartMove (part groups target effective : Nat) (s : State) : Outcome :=
  onChip s (cmdPartMove part groups target effective)
def execPartMap (part : Nat) (arg1 : Word) (s : State) : Outcome := onChip s (cmdPartMap part arg1)
def execPartLoad (part : Nat) (arg1 : Word) (s : State) : Outcome := onChip s (cmdPartLoad part arg1)
def execPartStart (part : Nat) (s : State) : Outcome := onChip s (cmdPartStart part)
def execPartStop (part : Nat) (s : State) : Outcome := onChip s (cmdPartStop part)
def execPartFreeze (part : Nat) (s : State) : Outcome := onChip s (cmdPartFreeze part)
def execFreezeComplete (part : Nat) (s : State) : Outcome := onChip s (cmdFreezeComplete part)
def execFreezeTimeout (part : Nat) (s : State) : Outcome := onChip s (cmdFreezeTimeout part)
def execPartSave (part engine : Nat) (arg1 : Word) (s : State) : Outcome := onChip s (cmdPartSave part engine arg1)
def execSaveComplete (part : Nat) (s : State) : Outcome := onChip s (cmdSaveComplete part)
def execPartRestore (part : Nat) (arg1 : Word) (s : State) : Outcome := onChip s (cmdPartRestore part arg1)
def execPartThaw (part : Nat) (s : State) : Outcome := onChip s (cmdPartThaw part)
def execPartFlip (part : Nat) (s : State) : Outcome := onChip s (cmdPartFlip part)
def execPartCancel (part groups : Nat) (s : State) : Outcome := onChip s (cmdPartCancel part groups)
def execGrantWrite (grant : Nat) (data : Word) (s : State) : Outcome := onChip s (cmdGrantWrite grant data)
def execGrantClearComplete (grant : Nat) (s : State) : Outcome := onChip s (cmdGrantClearComplete grant)
def execBellowsHoldRelease (part regulator tile charge : Nat) (arbiterIdle : Bool) (s : State) : Outcome :=
  onChip s (cmdBellowsHoldRelease part regulator tile charge arbiterIdle)
def execBwSlotWrite (part slot : Nat) (isB : Bool) (data : Word) (s : State) : Outcome :=
  onChip s (cmdBwSlotWrite part slot isB data)
def execBwDepthWrite (part : Nat) (data : Word) (s : State) : Outcome := onChip s (cmdBwDepthWrite part data)
def execBcycleWrite (data : Word) (s : State) : Outcome := onChip s (cmdBcycleWrite data)
def execVfFlr (fn : Nat) (s : State) : Outcome := onChip s (cmdVfFlr fn)
def execHello (inst major minor : Nat) (s : State) : Outcome := onChip s (cmdHello inst major minor)
def execHelloAck (inst major minor status : Nat) (s : State) : Outcome :=
  onChip s (cmdHelloAck inst major minor status)
def execVacated (inst nseq : Nat) (s : State) : Outcome := onChip s (cmdVacated inst nseq)
def execResizeReq (inst groups gib : Nat) (s : State) : Outcome := onChip s (cmdResizeReq inst groups gib)
def execResizeReply (inst groups gib strike : Nat) (s : State) : Outcome :=
  onChip s (cmdResizeReply inst groups gib strike)
def execBudget (inst : Nat) (payload : List (BitVec 8)) (s : State) : Outcome := onChip s (cmdBudget inst payload)
def execFreezeNotice (inst strike : Nat) (s : State) : Outcome := onChip s (cmdFreezeNotice inst strike)
def execTeardown (inst : Nat) (fromHearth : Bool) (reason : Nat) (s : State) : Outcome :=
  onChip s (cmdTeardown inst fromHearth reason)
def execAck (inst side seqNo : Nat) (s : State) : Outcome := onChip s (cmdAck inst side seqNo)
def execNak (inst side seqNo status : Nat) (s : State) : Outcome := onChip s (cmdNak inst side seqNo status)
def execVendorMessage (inst side type : Nat) (payload : List (BitVec 8)) (s : State) : Outcome :=
  onChip s (cmdVendorMessage inst side type payload)
def execHaspPop (inst side : Nat) (s : State) : Outcome := onChip s (cmdHaspPop inst side)
def execLinkEnable (link : Nat) (on : Bool) (s : State) : Outcome := onChip s (cmdLinkEnable link on)
def execLinkRetrain (link : Nat) (s : State) : Outcome := onChip s (cmdLinkRetrain link)
def execLinkUp (link failedWl major minor : Nat) (s : State) : Outcome :=
  onChip s (cmdLinkUp link failedWl major minor)
def execLinkTrainTimeout (link : Nat) (s : State) : Outcome := onChip s (cmdLinkTrainTimeout link)
def execFabricFrameReceived (link : Nat) (check : FrameCheck) (s : State) : Outcome :=
  onChip s (cmdFabricFrameReceived link check)
def execWavelengthFail (link wl : Nat) (s : State) : Outcome := onChip s (cmdWavelengthFail link wl)
def execFibreFail (link : Nat) (switchHasPort : Bool) (s : State) : Outcome :=
  onChip s (cmdFibreFail link switchHasPort)
def execFabricLinkDown (link : Nat) (s : State) : Outcome := onChip s (cmdFabricLinkDown link)
def execLinkmapWrite (index : Nat) (data : Word) (s : State) : Outcome := onChip s (cmdLinkmapWrite index data)
def execEpochBump (s : State) : Outcome := onChip s (cmdEpochBump)
def execDrainMarkerReturn (dest link : Nat) (s : State) : Outcome := onChip s (cmdDrainMarkerReturn dest link)
def execFabricRequestArrival (req : FabReq) (s : State) : Outcome := onChip s (cmdFabricRequestArrival req)
def execFabricAckArrival (ackn : FabAck) (s : State) : Outcome := onChip s (cmdFabricAckArrival ackn)
def execFabricReplayTimeout (dest seqNo : Nat) (s : State) : Outcome := onChip s (cmdFabricReplayTimeout dest seqNo)
def execFabricOpTimeout (dest seqNo : Nat) (s : State) : Outcome := onChip s (cmdFabricOpTimeout dest seqNo)
def execWardRefusalReceived (part : Nat) (s : State) : Outcome := onChip s (cmdWardRefusalReceived part)
def execJobImageLoad (part : Nat) (s : State) : Outcome := onChip s (cmdJobImageLoad part)
def execJobFence (part : Nat) (s : State) : Outcome := onChip s (cmdJobFence part)
def execJobHoldClear (part : Nat) (s : State) : Outcome := onChip s (cmdJobHoldClear part)
def execWardWrite (entry : Nat) (isB : Bool) (data : Word) (s : State) : Outcome :=
  onChip s (cmdWardWrite entry isB data)
def execWardActivation (entry : Nat) (s : State) : Outcome := onChip s (cmdWardActivation entry)
def execVersionRecordArrival (part peer isaMajor isaMinor features : Nat) (s : State) : Outcome :=
  onChip s (cmdVersionRecordArrival part peer isaMajor isaMinor features)
def execHotLineUpdate (line : Nat) (s : State) : Outcome := onChip s (cmdHotLineUpdate line)
def execMulticastDetach (op rank : Nat) (s : State) : Outcome := onChip s (cmdMulticastDetach op rank)
def execReducerRecordArrival (key : RedKey) (head : RedHead) (record : List (BitVec 8)) (poison : Nat) (s : State) : Outcome :=
  onChip s (cmdReducerRecordArrival key head record poison)
def execReductionTimeout (key : RedKey) (s : State) : Outcome := onChip s (cmdReductionTimeout key)
def execGatewayFlushTimeout (part rank : Nat) (s : State) : Outcome := onChip s (cmdGatewayFlushTimeout part rank)
def execFabricTimeExchange (link : Nat) (offset : Int) (s : State) : Outcome :=
  onChip s (cmdFabricTimeExchange link offset)
def execPwrgoodAssert (s : State) : Outcome := onChip s (cmdPwrgoodAssert)
def execPwrgoodDeassert (s : State) : Outcome := onChip s (cmdPwrgoodDeassert)
def execPerstAssert (s : State) : Outcome := onChip s (cmdPerstAssert)
def execPerstDeassert (s : State) : Outcome := onChip s (cmdPerstDeassert)
def execCxlHotReset (s : State) : Outcome := onChip s (cmdCxlHotReset)
def execCxlLinkDownTimeout (s : State) : Outcome := onChip s (cmdCxlLinkDownTimeout)
def execPfFlr (s : State) : Outcome := onChip s (cmdPfFlr)
def execRomSelftestComplete (pass : Bool) (s : State) : Outcome := onChip s (cmdRomSelftestComplete pass)
def execWatchdogExpiry (s : State) : Outcome := onChip s (cmdWatchdogExpiry)
def execImageLoadGo (s : State) : Outcome := onChip s (cmdImageLoadGo)
def execImageVerify (hostReadOk : Bool) (s : State) : Outcome := onChip s (cmdImageVerify hostReadOk)
def execSvnCommit (s : State) : Outcome := onChip s (cmdSvnCommit)
def execRevoke (slot : Nat) (s : State) : Outcome := onChip s (cmdRevoke slot)
def execGetVersion (mctp : Bool) (s : State) : Outcome := onChip s (cmdGetVersion mctp)
def execGetIdentity (mctp : Bool) (s : State) : Outcome := onChip s (cmdGetIdentity mctp)
def execGetMeasurements (mctp : Bool) (nonce : List (BitVec 8)) (mask : Nat) (s : State) : Outcome :=
  onChip s (cmdGetMeasurements mctp nonce mask)
def execExtend (mctp : Bool) (register : Nat) (digest : List (BitVec 8)) (s : State) : Outcome :=
  onChip s (cmdExtend mctp register digest)
def execSessionStart (mctp : Bool) (s : State) : Outcome := onChip s (cmdSessionStart mctp)
def execSessionFinish (mctp : Bool) (ciphertext : List (BitVec 8)) (s : State) : Outcome :=
  onChip s (cmdSessionFinish mctp ciphertext)
def execKeyProg (mctp : Bool) (payload : List (BitVec 8)) (s : State) : Outcome := onChip s (cmdKeyProg mctp payload)
def execKeyGo (mctp : Bool) (stream dir set : Nat) (s : State) : Outcome := onChip s (cmdKeyGo mctp stream dir set)
def execKeyStop (mctp : Bool) (stream dir set : Nat) (s : State) : Outcome :=
  onChip s (cmdKeyStop mctp stream dir set)
def execBiasFlip (data : Word) (s : State) : Outcome := onChip s (cmdBiasFlip data)
def execBiasFlipComplete (s : State) : Outcome := onChip s (cmdBiasFlipComplete)
def execIdeIntegrityFailure (stream : Nat) (s : State) : Outcome := onChip s (cmdIdeIntegrityFailure stream)
def execEntdaa (addr : Nat) (s : State) : Outcome := onChip s (cmdEntdaa addr)
def execSetEndpointId (eid : Nat) (s : State) : Outcome := onChip s (cmdSetEndpointId eid)
def execMctpControl (wellFormed : Bool) (code : Nat) (s : State) : Outcome :=
  onChip s (cmdMctpControl wellFormed code)
def execPldmRequest (wellFormed : Bool) (sensor : Nat) (s : State) : Outcome :=
  onChip s (cmdPldmRequest wellFormed sensor)
def execTemperSchedule (group : Nat) (s : State) : Outcome := onChip s (cmdTemperSchedule group)
def execTemperTestComplete (group failMask : Nat) (s : State) : Outcome :=
  onChip s (cmdTemperTestComplete group failMask)
def execParityError (tile : Nat) (refetch : Bool) (strand file index lane : Nat) (s : State) : Outcome :=
  onChip s (cmdParityError tile refetch strand file index lane)
def execFatalError (source tile : Nat) (s : State) : Outcome := onChip s (cmdFatalError source tile)
def execHealthRecompute (s : State) : Outcome := onChip s (cmdHealthRecompute)
def execPwrDomainWrite (data : Word) (s : State) : Outcome := onChip s (cmdPwrDomainWrite data)
def execDomainPowerUpComplete (domain : Nat) (s : State) : Outcome := onChip s (cmdDomainPowerUpComplete domain)
def execRegulatorFault (domain : Nat) (s : State) : Outcome := onChip s (cmdRegulatorFault domain)
def execPowerSample (watts : Nat) (s : State) : Outcome := onChip s (cmdPowerSample watts)
def execThrottleRelease (s : State) : Outcome := onChip s (cmdThrottleRelease)
def execThrottleExhausted (s : State) : Outcome := onChip s (cmdThrottleExhausted)
def execPwrLimitWrite (data : Word) (s : State) : Outcome := onChip s (cmdPwrLimitWrite data)
def execThermalSample (die0 die1 io opt : Int) (s : State) : Outcome := onChip s (cmdThermalSample die0 die1 io opt)
def execUndervoltage (s : State) : Outcome := onChip s (cmdUndervoltage)
def execOvervoltage (s : State) : Outcome := onChip s (cmdOvervoltage)
def execPwrbrakeAssert (s : State) : Outcome := onChip s (cmdPwrbrakeAssert)
def execPwrbrakeDeassert (s : State) : Outcome := onChip s (cmdPwrbrakeDeassert)
def execTapInstruction (takesLands : Bool) (s : State) : Outcome := onChip s (cmdTapInstruction takesLands)
def execCounterClose (sets : Nat) (s : State) : Outcome := onChip s (cmdCounterClose sets)
def execCloseTimeRead (set : Nat) (s : State) : Outcome := onChip s (cmdCloseTimeRead set)
def execWatchWrite (watch : Nat) (s : State) : Outcome := onChip s (cmdWatchWrite watch)
def execWatchFlush (watch : Nat) (s : State) : Outcome := onChip s (cmdWatchFlush watch)
def execTapPieceArrival (id : Nat) (s : State) : Outcome := onChip s (cmdTapPieceArrival id)
def execTwHeadWrite (data : Word) (s : State) : Outcome := onChip s (cmdTwHeadWrite data)
def execTraceEntry (cls source code part data : Nat) (s : State) : Outcome :=
  onChip s (cmdTraceEntry cls source code part data)
def execArm (s : State) : Outcome := onChip s (cmdArm)
def execTrigger (s : State) : Outcome := onChip s (cmdTrigger)
def execDrain (s : State) : Outcome := onChip s (cmdDrain)
def execTraceDrainComplete (s : State) : Outcome := onChip s (cmdTraceDrainComplete)
def execTrMark (data : Word) (s : State) : Outcome := onChip s (cmdTrMark data)
def execSnapshotRequest (s : State) : Outcome := onChip s (cmdSnapshotRequest)
def execSnapshotComplete (s : State) : Outcome := onChip s (cmdSnapshotComplete)
def execCxlLinkTrained (lanes rate : Nat) (s : State) : Outcome := onChip s (cmdCxlLinkTrained lanes rate)
def execPtpMessageTransmit (port msgType : Nat) (s : State) : Outcome := onChip s (cmdPtpMessageTransmit port msgType)
def execOpticalCalibrationComplete (link : Nat) (s : State) : Outcome := onChip s (cmdOpticalCalibrationComplete link)
def execTraceSramWrite (s : State) : Outcome := onChip s (cmdTraceSramWrite)

end Sys2Proof.Machine
end

