-- ==== Sys2Proof/Machine/Dispatch.lean ====
section
/-! DEFINITION. The meaning of each command: one arm for each constructor of Instr. -/

namespace Sys2Proof.Machine

def exec (i : Instr) (s : State) : Host.Outcome State Fault Refusal :=
  match i with
  | .registerWrite fn addr size data => Sys2Proof.Machine.execRegisterWrite fn addr size data s
  | .registerReadSideEffect fn addr size => Sys2Proof.Machine.execRegisterReadSideEffect fn addr size s
  | .meshFlitResend link again => Sys2Proof.Machine.execMeshFlitResend link again s
  | .governorFrame tile readyF readyM readyB unitsM unitsB => Sys2Proof.Machine.execGovernorFrame tile readyF readyM readyB unitsM unitsB s
  | .eccWriteBack tile bank => Sys2Proof.Machine.execEccWriteBack tile bank s
  | .scrubLine tile bank => Sys2Proof.Machine.execScrubLine tile bank s
  | .portPromotion tile bank order => Sys2Proof.Machine.execPortPromotion tile bank order s
  | .tileZero tile => Sys2Proof.Machine.execTileZero tile s
  | .tileZeroComplete tile => Sys2Proof.Machine.execTileZeroComplete tile s
  | .tileFence tile => Sys2Proof.Machine.execTileFence tile s
  | .tileLogicFault tile => Sys2Proof.Machine.execTileLogicFault tile s
  | .strandReset tile => Sys2Proof.Machine.execStrandReset tile s
  | .tileHalt tile halt => Sys2Proof.Machine.execTileHalt tile halt s
  | .strandEnable tile mask => Sys2Proof.Machine.execStrandEnable tile mask s
  | .tileSramDataRead tile => Sys2Proof.Machine.execTileSramDataRead tile s
  | .tileSramDataWrite tile data => Sys2Proof.Machine.execTileSramDataWrite tile data s
  | .tileGovWrite tile data => Sys2Proof.Machine.execTileGovWrite tile data s
  | .fetchLineArrival tile line => Sys2Proof.Machine.execFetchLineArrival tile line s
  | .paneArrival tile stream => Sys2Proof.Machine.execPaneArrival tile stream s
  | .bufferSwap tile strand => Sys2Proof.Machine.execBufferSwap tile strand s
  | .nop site => Sys2Proof.Machine.execNop site s
  | .br site off => Sys2Proof.Machine.execBr site off s
  | .call site off => Sys2Proof.Machine.execCall site off s
  | .jr site f => Sys2Proof.Machine.execJr site f s
  | .loop site ra len => Sys2Proof.Machine.execLoop site ra len s
  | .loopc site ra len => Sys2Proof.Machine.execLoopc site ra len s
  | .halt site => Sys2Proof.Machine.execHalt site s
  | .rfe site => Sys2Proof.Machine.execRfe site s
  | .sync site => Sys2Proof.Machine.execSync site s
  | .wait site f => Sys2Proof.Machine.execWait site f s
  | .waitSatisfied tile strand => Sys2Proof.Machine.execWaitSatisfied tile strand s
  | .waitT site f => Sys2Proof.Machine.execWaitT site f s
  | .waitTimeout tile strand => Sys2Proof.Machine.execWaitTimeout tile strand s
  | .acadd site f => Sys2Proof.Machine.execAcadd site f s
  | .acset site f => Sys2Proof.Machine.execAcset site f s
  | .wward site f => Sys2Proof.Machine.execWward site f s
  | .wfence site f => Sys2Proof.Machine.execWfence site f s
  | .mfsr site f => Sys2Proof.Machine.execMfsr site f s
  | .mtsr site f => Sys2Proof.Machine.execMtsr site f s
  | .scalarAlu site f => Sys2Proof.Machine.execScalarAlu site f s
  | .scalarShift site f => Sys2Proof.Machine.execScalarShift site f s
  | .scalarMul site f => Sys2Proof.Machine.execScalarMul site f s
  | .scalarMulh site f => Sys2Proof.Machine.execScalarMulh site f s
  | .scalarMinmax site f => Sys2Proof.Machine.execScalarMinmax site f s
  | .scalarAluImm site op f => Sys2Proof.Machine.execScalarAluImm site op f s
  | .scalarShiftImm site op f => Sys2Proof.Machine.execScalarShiftImm site op f s
  | .li site f => Sys2Proof.Machine.execLi site f s
  | .ins16 site f => Sys2Proof.Machine.execIns16 site f s
  | .predicateLogic site f => Sys2Proof.Machine.execPredicateLogic site f s
  | .cmp site f => Sys2Proof.Machine.execCmp site f s
  | .cmpImm site op f => Sys2Proof.Machine.execCmpImm site op f s
  | .scalarLoad site op f => Sys2Proof.Machine.execScalarLoad site op f s
  | .scalarStore site op f => Sys2Proof.Machine.execScalarStore site op f s
  | .amo site f => Sys2Proof.Machine.execAmo site f s
  | .cas site f => Sys2Proof.Machine.execCas site f s
  | .rng site f => Sys2Proof.Machine.execRng site f s
  | .vrng site f => Sys2Proof.Machine.execVrng site f s
  | .vfadd site op f => Sys2Proof.Machine.execVfadd site op f s
  | .vfma site f => Sys2Proof.Machine.execVfma site f s
  | .vfminmax site op f => Sys2Proof.Machine.execVfminmax site op f s
  | .vfun site f => Sys2Proof.Machine.execVfun site f s
  | .vfcmp site f => Sys2Proof.Machine.execVfcmp site f s
  | .vsel site f => Sys2Proof.Machine.execVsel site f s
  | .vint site f => Sys2Proof.Machine.execVint site f s
  | .vcvt site f => Sys2Proof.Machine.execVcvt site f s
  | .vcvtf site f => Sys2Proof.Machine.execVcvtf site f s
  | .vmxq site f => Sys2Proof.Machine.execVmxq site f s
  | .vfsum site f => Sys2Proof.Machine.execVfsum site f s
  | .vld site f => Sys2Proof.Machine.execVld site f s
  | .vst site f => Sys2Proof.Machine.execVst site f s
  | .vlds site f => Sys2Proof.Machine.execVlds site f s
  | .vsts site f => Sys2Proof.Machine.execVsts site f s
  | .mvsv site f => Sys2Proof.Machine.execMvsv site f s
  | .mvvs site f => Sys2Proof.Machine.execMvvs site f s
  | .vbc site f => Sys2Proof.Machine.execVbc site f s
  | .vcopy site f => Sys2Proof.Machine.execVcopy site f s
  | .mvcv site f => Sys2Proof.Machine.execMvcv site f s
  | .mvvc site f => Sys2Proof.Machine.execMvvc site f s
  | .cld site f => Sys2Proof.Machine.execCld site f s
  | .cst site f => Sys2Proof.Machine.execCst site f s
  | .xld site f => Sys2Proof.Machine.execXld site f s
  | .xldComplete tile => Sys2Proof.Machine.execXldComplete tile s
  | .mvt site f => Sys2Proof.Machine.execMvt site f s
  | .mvtComplete tile => Sys2Proof.Machine.execMvtComplete tile s
  | .pcomb site f => Sys2Proof.Machine.execPcomb site f s
  | .pcombComplete tile => Sys2Proof.Machine.execPcombComplete tile s
  | .amerge site f => Sys2Proof.Machine.execAmerge site f s
  | .amergeComplete tile => Sys2Proof.Machine.execAmergeComplete tile s
  | .afinal site f => Sys2Proof.Machine.execAfinal site f s
  | .afinalComplete tile => Sys2Proof.Machine.execAfinalComplete tile s
  | .mm site f => Sys2Proof.Machine.execMm site f s
  | .mmPassComplete tile => Sys2Proof.Machine.execMmPassComplete tile s
  | .mew site f => Sys2Proof.Machine.execMew site f s
  | .mewComplete tile => Sys2Proof.Machine.execMewComplete tile s
  | .bmv site f => Sys2Proof.Machine.execBmv site f s
  | .bmvComplete tile => Sys2Proof.Machine.execBmvComplete tile s
  | .kst site f => Sys2Proof.Machine.execKst site f s
  | .kstComplete tile => Sys2Proof.Machine.execKstComplete tile s
  | .kld site f => Sys2Proof.Machine.execKld site f s
  | .kldComplete tile => Sys2Proof.Machine.execKldComplete tile s
  | .fcmul site f => Sys2Proof.Machine.execFcmul site f s
  | .fcmac site f => Sys2Proof.Machine.execFcmac site f s
  | .fwb site f => Sys2Proof.Machine.execFwb site f s
  | .ffir site f => Sys2Proof.Machine.execFfir site f s
  | .fmag2 site f => Sys2Proof.Machine.execFmag2 site f s
  | .fbexp site f => Sys2Proof.Machine.execFbexp site f s
  | .fr4 site f => Sys2Proof.Machine.execFr4 site f s
  | .fr2 site f => Sys2Proof.Machine.execFr2 site f s
  | .fullerOpComplete tile => Sys2Proof.Machine.execFullerOpComplete tile s
  | .dtap site f => Sys2Proof.Machine.execDtap site f s
  | .dtapComplete tile => Sys2Proof.Machine.execDtapComplete tile s
  | .stap site f => Sys2Proof.Machine.execStap site f s
  | .stapComplete tile => Sys2Proof.Machine.execStapComplete tile s
  | .send site f => Sys2Proof.Machine.execSend site f s
  | .sendArrival id => Sys2Proof.Machine.execSendArrival id s
  | .sendAckArrival id => Sys2Proof.Machine.execSendAckArrival id s
  | .sendRefused id => Sys2Proof.Machine.execSendRefused id s
  | .asyncFaultTaken tile strand => Sys2Proof.Machine.execAsyncFaultTaken tile strand s
  | .fld site f => Sys2Proof.Machine.execFld site f s
  | .fst site f => Sys2Proof.Machine.execFst site f s
  | .famo site f => Sys2Proof.Machine.execFamo site f s
  | .fcas site f => Sys2Proof.Machine.execFcas site f s
  | .fcopy site f => Sys2Proof.Machine.execFcopy site f s
  | .fmcast site f => Sys2Proof.Machine.execFmcast site f s
  | .fred site f => Sys2Proof.Machine.execFred site f s
  | .memTrain => Sys2Proof.Machine.execMemTrain s
  | .channelTrainingComplete hpprSkipped => Sys2Proof.Machine.execChannelTrainingComplete hpprSkipped s
  | .channelFence chan => Sys2Proof.Machine.execChannelFence chan s
  | .caParityError chan again => Sys2Proof.Machine.execCaParityError chan again s
  | .memMapWrite data => Sys2Proof.Machine.execMemMapWrite data s
  | .hdmDecoderCommit => Sys2Proof.Machine.execHdmDecoderCommit s
  | .hostHdmAccess isWrite addr len data => Sys2Proof.Machine.execHostHdmAccess isWrite addr len data s
  | .memRead part fn addr len => Sys2Proof.Machine.execMemRead part fn addr len s
  | .memWrite part fn addr data poison => Sys2Proof.Machine.execMemWrite part fn addr data poison s
  | .memCorrectionWriteBack chan => Sys2Proof.Machine.execMemCorrectionWriteBack chan s
  | .patrolScrub chan => Sys2Proof.Machine.execPatrolScrub chan s
  | .softPpr chan row => Sys2Proof.Machine.execSoftPpr chan row s
  | .refresh chan => Sys2Proof.Machine.execRefresh chan s
  | .swageQuery unit part sender record => Sys2Proof.Machine.execSwageQuery unit part sender record s
  | .swageAppend unit part sender record => Sys2Proof.Machine.execSwageAppend unit part sender record s
  | .swagePageInit unit part sender record => Sys2Proof.Machine.execSwagePageInit unit part sender record s
  | .swageContextStart unit => Sys2Proof.Machine.execSwageContextStart unit s
  | .swageDescriptorsArrive unit ctx => Sys2Proof.Machine.execSwageDescriptorsArrive unit ctx s
  | .swagePageComplete unit ctx => Sys2Proof.Machine.execSwagePageComplete unit ctx s
  | .swageRecordWrite unit ctx => Sys2Proof.Machine.execSwageRecordWrite unit ctx s
  | .swageAppendCommit unit ctx => Sys2Proof.Machine.execSwageAppendCommit unit ctx s
  | .swagePageInitCommit unit ctx => Sys2Proof.Machine.execSwagePageInitCommit unit ctx s
  | .swageFence unit => Sys2Proof.Machine.execSwageFence unit s
  | .swageEnable unit on => Sys2Proof.Machine.execSwageEnable unit on s
  | .append fn queue => Sys2Proof.Machine.execAppend fn queue s
  | .writeContext fn queue => Sys2Proof.Machine.execWriteContext fn queue s
  | .readContext fn queue => Sys2Proof.Machine.execReadContext fn queue s
  | .rewrite fn queue => Sys2Proof.Machine.execRewrite fn queue s
  | .resume fn queue => Sys2Proof.Machine.execResume fn queue s
  | .skip fn queue => Sys2Proof.Machine.execSkip fn queue s
  | .abort fn queue => Sys2Proof.Machine.execAbort fn queue s
  | .pin fn queue => Sys2Proof.Machine.execPin fn queue s
  | .unpin fn queue => Sys2Proof.Machine.execUnpin fn queue s
  | .qmDoorbell fn queue index => Sys2Proof.Machine.execQmDoorbell fn queue index s
  | .qmEnable => Sys2Proof.Machine.execQmEnable s
  | .qmTableReady => Sys2Proof.Machine.execQmTableReady s
  | .qmStopAll stop => Sys2Proof.Machine.execQmStopAll stop s
  | .engineAbort engine => Sys2Proof.Machine.execEngineAbort engine s
  | .engineEnable engine on => Sys2Proof.Machine.execEngineEnable engine on s
  | .descriptorStart queue => Sys2Proof.Machine.execDescriptorStart queue s
  | .dmaReadReturn queue slot outcome => Sys2Proof.Machine.execDmaReadReturn queue slot outcome s
  | .readBackReturn queue slot ok => Sys2Proof.Machine.execReadBackReturn queue slot ok s
  | .completionRecordWrite queue slot => Sys2Proof.Machine.execCompletionRecordWrite queue slot s
  | .cqModerationTimeout queue => Sys2Proof.Machine.execCqModerationTimeout queue s
  | .engineFailure engine => Sys2Proof.Machine.execEngineFailure engine s
  | .contextLost queue => Sys2Proof.Machine.execContextLost queue s
  | .hostReadTimeout queue slot => Sys2Proof.Machine.execHostReadTimeout queue slot s
  | .strikeBoundary => Sys2Proof.Machine.execStrikeBoundary s
  | .phaseStart phase => Sys2Proof.Machine.execPhaseStart phase s
  | .phaseDeadline phase => Sys2Proof.Machine.execPhaseDeadline phase s
  | .planLoad data => Sys2Proof.Machine.execPlanLoad data s
  | .planProofComplete => Sys2Proof.Machine.execPlanProofComplete s
  | .planReproofComplete => Sys2Proof.Machine.execPlanReproofComplete s
  | .tierReq data => Sys2Proof.Machine.execTierReq data s
  | .strikeEnable on => Sys2Proof.Machine.execStrikeEnable on s
  | .unmute ports => Sys2Proof.Machine.execUnmute ports s
  | .codingBlockComplete half ring => Sys2Proof.Machine.execCodingBlockComplete half ring s
  | .codingHalfFailure half => Sys2Proof.Machine.execCodingHalfFailure half s
  | .codeRingWrite half ring isB data => Sys2Proof.Machine.execCodeRingWrite half ring isB data s
  | .frameReceived port frame => Sys2Proof.Machine.execFrameReceived port frame s
  | .ingressSectionWritten port => Sys2Proof.Machine.execIngressSectionWritten port s
  | .egressFrameStart port => Sys2Proof.Machine.execEgressFrameStart port s
  | .egressLateDiscard port queue => Sys2Proof.Machine.execEgressLateDiscard port queue s
  | .shaperTick => Sys2Proof.Machine.execShaperTick s
  | .shaperWrite fabric port queue isB data => Sys2Proof.Machine.execShaperWrite fabric port queue isB data s
  | .policerWrite port isB data => Sys2Proof.Machine.execPolicerWrite port isB data s
  | .queueSample port => Sys2Proof.Machine.execQueueSample port s
  | .portEnable port on => Sys2Proof.Machine.execPortEnable port on s
  | .portLinkDown port => Sys2Proof.Machine.execPortLinkDown port s
  | .portLinkUp port => Sys2Proof.Machine.execPortLinkUp port s
  | .egressRingWrite port ring data => Sys2Proof.Machine.execEgressRingWrite port ring data s
  | .timeBaseStep base data => Sys2Proof.Machine.execTimeBaseStep base data s
  | .timeBaseFreqWrite base data => Sys2Proof.Machine.execTimeBaseFreqWrite base data s
  | .tbSecRead fn base => Sys2Proof.Machine.execTbSecRead fn base s
  | .timeSnapshot => Sys2Proof.Machine.execTimeSnapshot s
  | .syncTimeout => Sys2Proof.Machine.execSyncTimeout s
  | .holdoverExpiry => Sys2Proof.Machine.execHoldoverExpiry s
  | .synceReferenceLost => Sys2Proof.Machine.execSynceReferenceLost s
  | .timeTriggerArm trigger data => Sys2Proof.Machine.execTimeTriggerArm trigger data s
  | .timeTriggerFire trigger => Sys2Proof.Machine.execTimeTriggerFire trigger s
  | .timeOutPulseEnd pin => Sys2Proof.Machine.execTimeOutPulseEnd pin s
  | .timeInEdge pin rising => Sys2Proof.Machine.execTimeInEdge pin rising s
  | .captureRead unit => Sys2Proof.Machine.execCaptureRead unit s
  | .partCreate part => Sys2Proof.Machine.execPartCreate part s
  | .partDestroy part => Sys2Proof.Machine.execPartDestroy part s
  | .partAdd part groups => Sys2Proof.Machine.execPartAdd part groups s
  | .partMove part groups target effective => Sys2Proof.Machine.execPartMove part groups target effective s
  | .partMap part arg1 => Sys2Proof.Machine.execPartMap part arg1 s
  | .partLoad part arg1 => Sys2Proof.Machine.execPartLoad part arg1 s
  | .partStart part => Sys2Proof.Machine.execPartStart part s
  | .partStop part => Sys2Proof.Machine.execPartStop part s
  | .partFreeze part => Sys2Proof.Machine.execPartFreeze part s
  | .freezeComplete part => Sys2Proof.Machine.execFreezeComplete part s
  | .freezeTimeout part => Sys2Proof.Machine.execFreezeTimeout part s
  | .partSave part engine arg1 => Sys2Proof.Machine.execPartSave part engine arg1 s
  | .saveComplete part => Sys2Proof.Machine.execSaveComplete part s
  | .partRestore part arg1 => Sys2Proof.Machine.execPartRestore part arg1 s
  | .partThaw part => Sys2Proof.Machine.execPartThaw part s
  | .partFlip part => Sys2Proof.Machine.execPartFlip part s
  | .partCancel part groups => Sys2Proof.Machine.execPartCancel part groups s
  | .grantWrite grant data => Sys2Proof.Machine.execGrantWrite grant data s
  | .grantClearComplete grant => Sys2Proof.Machine.execGrantClearComplete grant s
  | .bellowsHoldRelease part regulator tile charge arbiterIdle => Sys2Proof.Machine.execBellowsHoldRelease part regulator tile charge arbiterIdle s
  | .bwSlotWrite part slot isB data => Sys2Proof.Machine.execBwSlotWrite part slot isB data s
  | .bwDepthWrite part data => Sys2Proof.Machine.execBwDepthWrite part data s
  | .bcycleWrite data => Sys2Proof.Machine.execBcycleWrite data s
  | .vfFlr fn => Sys2Proof.Machine.execVfFlr fn s
  | .hello inst major minor => Sys2Proof.Machine.execHello inst major minor s
  | .helloAck inst major minor status => Sys2Proof.Machine.execHelloAck inst major minor status s
  | .vacated inst nseq => Sys2Proof.Machine.execVacated inst nseq s
  | .resizeReq inst groups gib => Sys2Proof.Machine.execResizeReq inst groups gib s
  | .resizeReply inst groups gib strike => Sys2Proof.Machine.execResizeReply inst groups gib strike s
  | .budget inst payload => Sys2Proof.Machine.execBudget inst payload s
  | .freezeNotice inst strike => Sys2Proof.Machine.execFreezeNotice inst strike s
  | .teardown inst fromHearth reason => Sys2Proof.Machine.execTeardown inst fromHearth reason s
  | .ack inst side seqNo => Sys2Proof.Machine.execAck inst side seqNo s
  | .nak inst side seqNo status => Sys2Proof.Machine.execNak inst side seqNo status s
  | .vendorMessage inst side type payload => Sys2Proof.Machine.execVendorMessage inst side type payload s
  | .haspPop inst side => Sys2Proof.Machine.execHaspPop inst side s
  | .linkEnable link on => Sys2Proof.Machine.execLinkEnable link on s
  | .linkRetrain link => Sys2Proof.Machine.execLinkRetrain link s
  | .linkUp link failedWl major minor => Sys2Proof.Machine.execLinkUp link failedWl major minor s
  | .linkTrainTimeout link => Sys2Proof.Machine.execLinkTrainTimeout link s
  | .fabricFrameReceived link check => Sys2Proof.Machine.execFabricFrameReceived link check s
  | .wavelengthFail link wl => Sys2Proof.Machine.execWavelengthFail link wl s
  | .fibreFail link switchHasPort => Sys2Proof.Machine.execFibreFail link switchHasPort s
  | .fabricLinkDown link => Sys2Proof.Machine.execFabricLinkDown link s
  | .linkmapWrite index data => Sys2Proof.Machine.execLinkmapWrite index data s
  | .epochBump => Sys2Proof.Machine.execEpochBump s
  | .drainMarkerReturn dest link => Sys2Proof.Machine.execDrainMarkerReturn dest link s
  | .fabricRequestArrival req => Sys2Proof.Machine.execFabricRequestArrival req s
  | .fabricAckArrival ackn => Sys2Proof.Machine.execFabricAckArrival ackn s
  | .fabricReplayTimeout dest seqNo => Sys2Proof.Machine.execFabricReplayTimeout dest seqNo s
  | .fabricOpTimeout dest seqNo => Sys2Proof.Machine.execFabricOpTimeout dest seqNo s
  | .wardRefusalReceived part => Sys2Proof.Machine.execWardRefusalReceived part s
  | .jobImageLoad part => Sys2Proof.Machine.execJobImageLoad part s
  | .jobFence part => Sys2Proof.Machine.execJobFence part s
  | .jobHoldClear part => Sys2Proof.Machine.execJobHoldClear part s
  | .wardWrite entry isB data => Sys2Proof.Machine.execWardWrite entry isB data s
  | .wardActivation entry => Sys2Proof.Machine.execWardActivation entry s
  | .versionRecordArrival part peer isaMajor isaMinor features => Sys2Proof.Machine.execVersionRecordArrival part peer isaMajor isaMinor features s
  | .hotLineUpdate line => Sys2Proof.Machine.execHotLineUpdate line s
  | .multicastDetach op rank => Sys2Proof.Machine.execMulticastDetach op rank s
  | .reducerRecordArrival key head record poison => Sys2Proof.Machine.execReducerRecordArrival key head record poison s
  | .reductionTimeout key => Sys2Proof.Machine.execReductionTimeout key s
  | .gatewayFlushTimeout part rank => Sys2Proof.Machine.execGatewayFlushTimeout part rank s
  | .fabricTimeExchange link offset => Sys2Proof.Machine.execFabricTimeExchange link offset s
  | .pwrgoodAssert => Sys2Proof.Machine.execPwrgoodAssert s
  | .pwrgoodDeassert => Sys2Proof.Machine.execPwrgoodDeassert s
  | .perstAssert => Sys2Proof.Machine.execPerstAssert s
  | .perstDeassert => Sys2Proof.Machine.execPerstDeassert s
  | .cxlHotReset => Sys2Proof.Machine.execCxlHotReset s
  | .cxlLinkDownTimeout => Sys2Proof.Machine.execCxlLinkDownTimeout s
  | .pfFlr => Sys2Proof.Machine.execPfFlr s
  | .romSelftestComplete pass => Sys2Proof.Machine.execRomSelftestComplete pass s
  | .watchdogExpiry => Sys2Proof.Machine.execWatchdogExpiry s
  | .imageLoadGo => Sys2Proof.Machine.execImageLoadGo s
  | .imageVerify hostReadOk => Sys2Proof.Machine.execImageVerify hostReadOk s
  | .svnCommit => Sys2Proof.Machine.execSvnCommit s
  | .revoke slot => Sys2Proof.Machine.execRevoke slot s
  | .getVersion mctp => Sys2Proof.Machine.execGetVersion mctp s
  | .getIdentity mctp => Sys2Proof.Machine.execGetIdentity mctp s
  | .getMeasurements mctp nonce mask => Sys2Proof.Machine.execGetMeasurements mctp nonce mask s
  | .extend mctp register digest => Sys2Proof.Machine.execExtend mctp register digest s
  | .sessionStart mctp => Sys2Proof.Machine.execSessionStart mctp s
  | .sessionFinish mctp ciphertext => Sys2Proof.Machine.execSessionFinish mctp ciphertext s
  | .keyProg mctp payload => Sys2Proof.Machine.execKeyProg mctp payload s
  | .keyGo mctp stream dir set => Sys2Proof.Machine.execKeyGo mctp stream dir set s
  | .keyStop mctp stream dir set => Sys2Proof.Machine.execKeyStop mctp stream dir set s
  | .biasFlip data => Sys2Proof.Machine.execBiasFlip data s
  | .biasFlipComplete => Sys2Proof.Machine.execBiasFlipComplete s
  | .ideIntegrityFailure stream => Sys2Proof.Machine.execIdeIntegrityFailure stream s
  | .entdaa addr => Sys2Proof.Machine.execEntdaa addr s
  | .setEndpointId eid => Sys2Proof.Machine.execSetEndpointId eid s
  | .mctpControl wellFormed code => Sys2Proof.Machine.execMctpControl wellFormed code s
  | .pldmRequest wellFormed sensor => Sys2Proof.Machine.execPldmRequest wellFormed sensor s
  | .temperSchedule group => Sys2Proof.Machine.execTemperSchedule group s
  | .temperTestComplete group failMask => Sys2Proof.Machine.execTemperTestComplete group failMask s
  | .parityError tile refetch strand file index lane => Sys2Proof.Machine.execParityError tile refetch strand file index lane s
  | .fatalError source tile => Sys2Proof.Machine.execFatalError source tile s
  | .healthRecompute => Sys2Proof.Machine.execHealthRecompute s
  | .pwrDomainWrite data => Sys2Proof.Machine.execPwrDomainWrite data s
  | .domainPowerUpComplete domain => Sys2Proof.Machine.execDomainPowerUpComplete domain s
  | .regulatorFault domain => Sys2Proof.Machine.execRegulatorFault domain s
  | .powerSample watts => Sys2Proof.Machine.execPowerSample watts s
  | .throttleRelease => Sys2Proof.Machine.execThrottleRelease s
  | .throttleExhausted => Sys2Proof.Machine.execThrottleExhausted s
  | .pwrLimitWrite data => Sys2Proof.Machine.execPwrLimitWrite data s
  | .thermalSample die0 die1 io opt => Sys2Proof.Machine.execThermalSample die0 die1 io opt s
  | .undervoltage => Sys2Proof.Machine.execUndervoltage s
  | .overvoltage => Sys2Proof.Machine.execOvervoltage s
  | .pwrbrakeAssert => Sys2Proof.Machine.execPwrbrakeAssert s
  | .pwrbrakeDeassert => Sys2Proof.Machine.execPwrbrakeDeassert s
  | .tapInstruction takesLands => Sys2Proof.Machine.execTapInstruction takesLands s
  | .counterClose sets => Sys2Proof.Machine.execCounterClose sets s
  | .closeTimeRead set => Sys2Proof.Machine.execCloseTimeRead set s
  | .watchWrite watch => Sys2Proof.Machine.execWatchWrite watch s
  | .watchFlush watch => Sys2Proof.Machine.execWatchFlush watch s
  | .tapPieceArrival id => Sys2Proof.Machine.execTapPieceArrival id s
  | .twHeadWrite data => Sys2Proof.Machine.execTwHeadWrite data s
  | .traceEntry cls source code part data => Sys2Proof.Machine.execTraceEntry cls source code part data s
  | .arm => Sys2Proof.Machine.execArm s
  | .trigger => Sys2Proof.Machine.execTrigger s
  | .drain => Sys2Proof.Machine.execDrain s
  | .traceDrainComplete => Sys2Proof.Machine.execTraceDrainComplete s
  | .trMark data => Sys2Proof.Machine.execTrMark data s
  | .snapshotRequest => Sys2Proof.Machine.execSnapshotRequest s
  | .snapshotComplete => Sys2Proof.Machine.execSnapshotComplete s
  | .cxlLinkTrained lanes rate => Sys2Proof.Machine.execCxlLinkTrained lanes rate s
  | .ptpMessageTransmit port msgType => Sys2Proof.Machine.execPtpMessageTransmit port msgType s
  | .opticalCalibrationComplete link => Sys2Proof.Machine.execOpticalCalibrationComplete link s
  | .traceSramWrite => Sys2Proof.Machine.execTraceSramWrite s

end Sys2Proof.Machine
end

