-- ==== Sys2Proof/Machine/Tick.lean ====
section
/-! DEFINITION. What a tile cycle does when no command waits: the cycle count and the time bases move on (R182, R491;
DESIGN CHOICE, log 1). -/

namespace Sys2Proof.Machine

/-- Steps of 1.25 ns that end in tile cycle `n`: eight steps in seven cycles (R182, R491). -/
def stepsIn (n : Nat) : Nat := 8 * (n + 1) / 7 - 8 * n / 7

/-- One tile cycle (R182, R491): each base gains its steps, and the bases under a servo what the servo's slewing adds
(R499, R594). -/
def tick (s : Chip) : Chip :=
  let k := stepsIn s.cycle
  let a := slew s k
  let b := fabSlew a.2 k
  let adds : List Int := [a.1, b.1, 0, 0]
  forEach (List.range 4) (fun st i => tbSet st i ((tbGet st i : Int) + tbGain st i k + adds.getD i 0).toNat)
    { b.2 with cycle := s.cycle + 1 }

end Sys2Proof.Machine
end

