-- ==== Sys2Proof/Machine/Step.lean ====
section
/-! DEFINITION. One step: the command at the front of the queue, or a tile cycle when none waits. -/

namespace Sys2Proof.Machine

/-- The queue replaced. -/
def withPending (s : State) (l : List Instr) : State := { s with pending := l }

/-- The front command takes effect on the state with the queue's rest; an empty queue lets one tile cycle pass
(DESIGN CHOICE, log 1). -/
def step (s : State) : Host.Outcome State Fault Refusal :=
  match s.pending with
  | [] => .next { s with chip := tick s.chip }
  | c :: r => exec c (withPending s r)

/-- A command that a word spells put at the front of the queue; the table gives no row any bits, so every word spells
none and the state stands. -/
def State.withFetchWord (s : State) (nbits w : Nat) : State :=
  match decodeTableWord nbits w with
  | some c => withPending s (c :: s.pending)
  | none => s

end Sys2Proof.Machine
end

