-- ==== Sys2Proof/WellFormed.lean ====
section
/-! DEFINITION. Which commands are well formed: every operand names a unit that the part has, a slot takes an
instruction of its class (R190, R244), and every operand field fits its place in the slot (R191, R192). -/

namespace Sys2Proof

/-- A number from `lo` to `hi`. -/
def between (x lo hi : Nat) : Bool := decide (lo ≤ x) && decide (x ≤ hi)

/-- One of the 144 tiles (R15). -/
def inTile (t : Nat) : Bool := decide (t < 144)

/-- One of the 64 Hasp instances (R547). -/
def inInst (f : Nat) : Bool := decide (f < 64)

/-- A Hasp instance with a tenant side: instance 0 has none (R547). -/
def inTenant (f : Nat) : Bool := decide (1 ≤ f) && decide (f < 64)

/-- A side of a Hasp instance that sends: 1 the manager, 2 the tenant (R549). -/
def inSide (f side : Nat) : Bool :=
  decide (f < 64) && (decide (side = 1) || (decide (side = 2) && decide (1 ≤ f)))

/-- A mesh link by R42: four for each tile, to the neighbours that exist, and the twelve edge ports. -/
def meshLinkOk (n : Nat) : Bool :=
  if 0x400 ≤ n then decide (n < 0x40C)
  else decide (n < 576) && !((n % 4 == 0 && n / 4 / 12 == 11) || (n % 4 == 1 && n / 4 % 12 == 11) ||
    (n % 4 == 2 && n / 4 / 12 == 0) || (n % 4 == 3 && n / 4 % 12 == 0))

/-- A slot of a strand, of one of the classes that take the instruction (R190, R191). -/
def siteOk (s : Site) (slots : List Nat) : Bool :=
  decide (s.tile < 144) && decide (s.strand < 8) && slots.contains s.slot && decide (s.pr < 8)

-- The operand fields of R192.

def FmtR3.ok (f : FmtR3) : Bool := decide (f.rd < 32) && decide (f.ra < 32) && decide (f.rb < 32) && decide (f.fn < 64)
def FmtRI.ok (f : FmtRI) : Bool := decide (f.rd < 32) && decide (f.ra < 32) && decide (f.imm < 2 ^ 11)
def FmtRW.ok (f : FmtRW) : Bool := decide (f.rd < 32) && decide (f.imm < 2 ^ 16)
def FmtW.ok (f : FmtW) : Bool := decide (f.n < 64) && decide (f.ra < 32) && decide (f.pd < 8) && decide (f.fn < 128)
def FmtD.ok (f : FmtD) : Bool := decide (f.sa < 32) && decide (f.sb < 32) && decide (f.fn < 2 ^ 11)
def FmtE.ok (f : FmtE) : Bool := decide (f.da < 32) && decide (f.db < 32) && decide (f.kc < 32) && decide (f.mode < 64)

/-- The command names units that the part has and its fields fit. -/
def wellFormed : Instr → Bool
  | .registerWrite fn _ _ _ => decide (fn < 64)
  | .registerReadSideEffect fn _ _ => decide (fn < 64)
  | .meshFlitResend link _ => meshLinkOk link
  | .governorFrame tile _ _ _ _ _ => inTile tile
  | .eccWriteBack tile bank => inTile tile && decide (bank < 32)
  | .scrubLine tile bank => inTile tile && decide (bank < 32)
  | .portPromotion tile bank order => inTile tile && decide (bank < 32) && decide (1 ≤ order) && decide (order ≤ 6)
  | .tileZero tile => inTile tile
  | .tileZeroComplete tile => inTile tile
  | .tileFence tile => inTile tile
  | .tileLogicFault tile => inTile tile
  | .strandReset tile => inTile tile
  | .tileHalt tile _ => inTile tile
  | .strandEnable tile mask => inTile tile && decide (mask < 256)
  | .tileSramDataRead tile => inTile tile
  | .tileSramDataWrite tile _ => inTile tile
  | .tileGovWrite tile _ => inTile tile
  | .fetchLineArrival tile _ => inTile tile
  | .paneArrival tile stream => inTile tile && decide (stream < 8)
  | .bufferSwap tile strand => inTile tile && decide (strand < 8)
  | .nop site => siteOk site [0, 1, 2, 3]
  | .br site off => siteOk site [0] && decide (off < 2 ^ 21)
  | .call site off => siteOk site [0] && decide (off < 2 ^ 21)
  | .jr site f => siteOk site [0] && f.ok
  | .loop site ra len => siteOk site [0] && decide (ra < 32) && decide (len < 2 ^ 16)
  | .loopc site ra len => siteOk site [0] && decide (ra < 32) && decide (len < 2 ^ 16)
  | .halt site => siteOk site [0]
  | .rfe site => siteOk site [0]
  | .sync site => siteOk site [0]
  | .wait site f => siteOk site [0] && f.ok
  | .waitSatisfied tile strand => inTile tile && decide (strand < 8)
  | .waitT site f => siteOk site [0] && f.ok
  | .waitTimeout tile strand => inTile tile && decide (strand < 8)
  | .acadd site f => siteOk site [0] && f.ok
  | .acset site f => siteOk site [0] && f.ok
  | .wward site f => siteOk site [0] && f.ok
  | .wfence site f => siteOk site [0] && f.ok
  | .mfsr site f => siteOk site [0] && f.ok
  | .mtsr site f => siteOk site [0] && f.ok
  | .scalarAlu site f => siteOk site [0, 1] && f.ok
  | .scalarShift site f => siteOk site [0, 1] && f.ok
  | .scalarMul site f => siteOk site [0, 1] && f.ok
  | .scalarMulh site f => siteOk site [0, 1] && f.ok
  | .scalarMinmax site f => siteOk site [0, 1] && f.ok
  | .scalarAluImm site op f => siteOk site [0, 1] && between op 0x21 0x24 && f.ok
  | .scalarShiftImm site op f => siteOk site [0, 1] && between op 0x25 0x27 && f.ok
  | .li site f => siteOk site [0, 1] && f.ok
  | .ins16 site f => siteOk site [0, 1] && f.ok
  | .predicateLogic site f => siteOk site [0, 1] && f.ok
  | .cmp site f => siteOk site [0, 1] && f.ok
  | .cmpImm site op f => siteOk site [0, 1] && between op 0x2D 0x2F && f.ok
  | .scalarLoad site op f => siteOk site [1] && between op 0x40 0x46 && f.ok
  | .scalarStore site op f => siteOk site [1] && between op 0x48 0x4B && f.ok
  | .amo site f => siteOk site [1] && f.ok
  | .cas site f => siteOk site [1] && f.ok
  | .rng site f => siteOk site [1] && f.ok
  | .vrng site f => siteOk site [2] && f.ok
  | .vfadd site op f => siteOk site [2, 3] && between op 0x20 0x22 && f.ok
  | .vfma site f => siteOk site [2, 3] && f.ok
  | .vfminmax site op f => siteOk site [2, 3] && between op 0x24 0x25 && f.ok
  | .vfun site f => siteOk site [2, 3] && f.ok
  | .vfcmp site f => siteOk site [2, 3] && f.ok
  | .vsel site f => siteOk site [2, 3] && f.ok
  | .vint site f => siteOk site [2, 3] && f.ok
  | .vcvt site f => siteOk site [2, 3] && f.ok
  | .vcvtf site f => siteOk site [2, 3] && f.ok
  | .vmxq site f => siteOk site [2, 3] && f.ok
  | .vfsum site f => siteOk site [2, 3] && f.ok
  | .vld site f => siteOk site [2] && f.ok
  | .vst site f => siteOk site [2] && f.ok
  | .vlds site f => siteOk site [2] && f.ok
  | .vsts site f => siteOk site [2] && f.ok
  | .mvsv site f => siteOk site [2] && f.ok
  | .mvvs site f => siteOk site [2] && f.ok
  | .vbc site f => siteOk site [2] && f.ok
  | .vcopy site f => siteOk site [2] && f.ok
  | .mvcv site f => siteOk site [2] && f.ok
  | .mvvc site f => siteOk site [2] && f.ok
  | .cld site f => siteOk site [2] && f.ok
  | .cst site f => siteOk site [2] && f.ok
  | .xld site f => siteOk site [2] && f.ok
  | .xldComplete tile => inTile tile
  | .mvt site f => siteOk site [2] && f.ok
  | .mvtComplete tile => inTile tile
  | .pcomb site f => siteOk site [2] && f.ok
  | .pcombComplete tile => inTile tile
  | .amerge site f => siteOk site [2] && f.ok
  | .amergeComplete tile => inTile tile
  | .afinal site f => siteOk site [2] && f.ok
  | .afinalComplete tile => inTile tile
  | .mm site f => siteOk site [3] && f.ok
  | .mmPassComplete tile => inTile tile
  | .mew site f => siteOk site [3] && f.ok
  | .mewComplete tile => inTile tile
  | .bmv site f => siteOk site [3] && f.ok
  | .bmvComplete tile => inTile tile
  | .kst site f => siteOk site [2] && f.ok
  | .kstComplete tile => inTile tile
  | .kld site f => siteOk site [2] && f.ok
  | .kldComplete tile => inTile tile
  | .fcmul site f => siteOk site [3] && f.ok
  | .fcmac site f => siteOk site [3] && f.ok
  | .fwb site f => siteOk site [3] && f.ok
  | .ffir site f => siteOk site [3] && f.ok
  | .fmag2 site f => siteOk site [3] && f.ok
  | .fbexp site f => siteOk site [3] && f.ok
  | .fr4 site f => siteOk site [3] && f.ok
  | .fr2 site f => siteOk site [3] && f.ok
  | .fullerOpComplete tile => inTile tile
  | .dtap site f => siteOk site [2] && f.ok
  | .dtapComplete tile => inTile tile
  | .stap site f => siteOk site [2] && f.ok
  | .stapComplete tile => inTile tile
  | .send site f => siteOk site [1] && f.ok
  | .sendArrival _ => true
  | .sendAckArrival _ => true
  | .sendRefused _ => true
  | .asyncFaultTaken tile strand => inTile tile && decide (strand < 8)
  | .fld site f => siteOk site [1] && f.ok
  | .fst site f => siteOk site [1] && f.ok
  | .famo site f => siteOk site [1] && f.ok
  | .fcas site f => siteOk site [1] && f.ok
  | .fcopy site f => siteOk site [1] && f.ok
  | .fmcast site f => siteOk site [1] && f.ok
  | .fred site f => siteOk site [1] && f.ok
  | .memTrain => true
  | .channelTrainingComplete _ => true
  | .channelFence chan => decide (chan < 32)
  | .caParityError chan _ => decide (chan < 32)
  | .memMapWrite _ => true
  | .hdmDecoderCommit => true
  | .hostHdmAccess _ _ _ _ => true
  | .memRead part fn _ _ => decide (part < 17) && decide (fn < 64)
  | .memWrite part fn _ _ _ => decide (part < 17) && decide (fn < 64)
  | .memCorrectionWriteBack chan => decide (chan < 32)
  | .patrolScrub chan => decide (chan < 32)
  | .softPpr chan _ => decide (chan < 32)
  | .refresh chan => decide (chan < 32)
  | .swageQuery unit part _ _ => decide (unit < 32) && decide (part < 16)
  | .swageAppend unit part _ _ => decide (unit < 32) && decide (part < 16)
  | .swagePageInit unit part _ _ => decide (unit < 32) && decide (part < 16)
  | .swageContextStart unit => decide (unit < 32)
  | .swageDescriptorsArrive unit ctx => decide (unit < 32) && decide (ctx < 24)
  | .swagePageComplete unit ctx => decide (unit < 32) && decide (ctx < 24)
  | .swageRecordWrite unit ctx => decide (unit < 32) && decide (ctx < 24)
  | .swageAppendCommit unit ctx => decide (unit < 32) && decide (ctx < 24)
  | .swagePageInitCommit unit ctx => decide (unit < 32) && decide (ctx < 24)
  | .swageFence unit => decide (unit < 32)
  | .swageEnable unit _ => decide (unit < 32)
  | .append fn queue => decide (fn < 64) && decide (queue < 2 ^ 20)
  | .writeContext fn queue => decide (fn < 64) && decide (queue < 2 ^ 20)
  | .readContext fn queue => decide (fn < 64) && decide (queue < 2 ^ 20)
  | .rewrite fn queue => decide (fn < 64) && decide (queue < 2 ^ 20)
  | .resume fn queue => decide (fn < 64) && decide (queue < 2 ^ 20)
  | .skip fn queue => decide (fn < 64) && decide (queue < 2 ^ 20)
  | .abort fn queue => decide (fn < 64) && decide (queue < 2 ^ 20)
  | .pin fn queue => decide (fn < 64) && decide (queue < 2 ^ 20)
  | .unpin fn queue => decide (fn < 64) && decide (queue < 2 ^ 20)
  | .qmDoorbell fn queue _ => decide (fn < 64) && decide (queue < 2 ^ 20)
  | .qmEnable => true
  | .qmTableReady => true
  | .qmStopAll _ => true
  | .engineAbort engine => decide (engine < 16)
  | .engineEnable engine _ => decide (engine < 16)
  | .descriptorStart queue => decide (queue < 2 ^ 20)
  | .dmaReadReturn queue _ _ => decide (queue < 2 ^ 20)
  | .readBackReturn queue _ _ => decide (queue < 2 ^ 20)
  | .completionRecordWrite queue _ => decide (queue < 2 ^ 20)
  | .cqModerationTimeout queue => decide (queue < 2 ^ 20)
  | .engineFailure engine => decide (engine < 16)
  | .contextLost queue => decide (queue < 2 ^ 20)
  | .hostReadTimeout queue _ => decide (queue < 2 ^ 20)
  | .strikeBoundary => true
  | .phaseStart phase => decide (phase < 2 ^ 16)
  | .phaseDeadline phase => decide (phase < 2 ^ 16)
  | .planLoad _ => true
  | .planProofComplete => true
  | .planReproofComplete => true
  | .tierReq _ => true
  | .strikeEnable _ => true
  | .unmute ports => decide (ports < 256)
  | .codingBlockComplete half ring => decide (half < 2) && decide (ring < 8)
  | .codingHalfFailure half => decide (half < 2)
  | .codeRingWrite half ring _ _ => decide (half < 2) && decide (ring < 8)
  | .frameReceived port _ => decide (port < 8)
  | .ingressSectionWritten port => decide (port < 8)
  | .egressFrameStart port => decide (port < 8)
  | .egressLateDiscard port queue => decide (port < 8) && decide (queue < 16)
  | .shaperTick => true
  | .shaperWrite fabric port queue _ _ => decide (queue < 16) && decide (port < (if fabric then 32 else 8))
  | .policerWrite port _ _ => decide (port < 8)
  | .queueSample port => decide (port < 8)
  | .portEnable port _ => decide (port < 8)
  | .portLinkDown port => decide (port < 8)
  | .portLinkUp port => decide (port < 8)
  | .egressRingWrite port ring _ => decide (port < 8) && decide (ring < 4)
  | .timeBaseStep base _ => decide (base < 4)
  | .timeBaseFreqWrite base _ => decide (base < 4)
  | .tbSecRead fn base => decide (fn < 64) && decide (base < 4)
  | .timeSnapshot => true
  | .syncTimeout => true
  | .holdoverExpiry => true
  | .synceReferenceLost => true
  | .timeTriggerArm n _ => decide (n < 16)
  | .timeTriggerFire n => decide (n < 16)
  | .timeOutPulseEnd n => decide (n < 2)
  | .timeInEdge n _ => decide (n < 4)
  | .captureRead unit => decide (unit < 16)
  | .partCreate part => decide (part < 16)
  | .partDestroy part => decide (part < 16)
  | .partAdd part groups => decide (part < 16) && decide (groups < 2 ^ 36)
  | .partMove part groups target effective =>
    decide (part < 16) && decide (target < 32) && decide (groups < 2 ^ 36) && decide (effective < 2 ^ 32)
  | .partMap part _ => decide (part < 16)
  | .partLoad part _ => decide (part < 16)
  | .partStart part => decide (part < 16)
  | .partStop part => decide (part < 16)
  | .partFreeze part => decide (part < 16)
  | .freezeComplete part => decide (part < 16)
  | .freezeTimeout part => decide (part < 16)
  | .partSave part engine _ => decide (part < 16) && decide (engine < 16)
  | .saveComplete part => decide (part < 16)
  | .partRestore part _ => decide (part < 16)
  | .partThaw part => decide (part < 16)
  | .partFlip part => decide (part < 16)
  | .partCancel part groups => decide (part < 16) && decide (groups < 2 ^ 36)
  | .grantWrite grant _ => decide (grant < 256)
  | .grantClearComplete grant => decide (grant < 256)
  | .bellowsHoldRelease part _ tile _ _ => decide (part < 16) && inTile tile
  | .bwSlotWrite part slot _ _ => decide (part < 16) && decide (slot < 64)
  | .bwDepthWrite part _ => decide (part < 16)
  | .bcycleWrite _ => true
  | .vfFlr fn => decide (1 ≤ fn) && decide (fn < 64)
  | .hello inst _ _ => inTenant inst
  | .helloAck inst _ _ _ => inTenant inst
  | .vacated inst _ => inTenant inst
  | .resizeReq inst _ _ => inTenant inst
  | .resizeReply inst _ _ _ => inTenant inst
  | .budget inst _ => inTenant inst
  | .freezeNotice inst _ => inTenant inst
  | .teardown inst _ _ => inTenant inst
  | .ack inst side _ => inSide inst side
  | .nak inst side _ _ => inSide inst side
  | .vendorMessage inst side _ _ => inSide inst side
  | .haspPop inst side => inSide inst side
  | .linkEnable link _ => decide (link < 32)
  | .linkRetrain link => decide (link < 32)
  | .linkUp link _ _ _ => decide (link < 32)
  | .linkTrainTimeout link => decide (link < 32)
  | .fabricFrameReceived link _ => decide (link < 32)
  | .wavelengthFail link wl => decide (link < 32) && decide (wl < 9)
  | .fibreFail link _ => decide (link < 32)
  | .fabricLinkDown link => decide (link < 32)
  | .linkmapWrite index _ => decide (index < 4)
  | .epochBump => true
  | .drainMarkerReturn _ link => decide (link < 32)
  | .fabricRequestArrival _ => true
  | .fabricAckArrival _ => true
  | .fabricReplayTimeout _ _ => true
  | .fabricOpTimeout _ _ => true
  | .wardRefusalReceived part => decide (part < 16)
  | .jobImageLoad part => decide (part < 16)
  | .jobFence part => decide (part < 16)
  | .jobHoldClear part => decide (part < 16)
  | .wardWrite entry _ _ => decide (entry < 4096)
  | .wardActivation entry => decide (entry < 4096)
  | .versionRecordArrival part _ _ _ _ => decide (part < 16)
  | .hotLineUpdate _ => true
  | .multicastDetach _ _ => true
  | .reducerRecordArrival key _ _ _ => decide (key.part < 16)
  | .reductionTimeout key => decide (key.part < 16)
  | .gatewayFlushTimeout part _ => decide (part < 16)
  | .fabricTimeExchange link _ => decide (link < 32)
  | .pwrgoodAssert => true
  | .pwrgoodDeassert => true
  | .perstAssert => true
  | .perstDeassert => true
  | .cxlHotReset => true
  | .cxlLinkDownTimeout => true
  | .pfFlr => true
  | .romSelftestComplete _ => true
  | .watchdogExpiry => true
  | .imageLoadGo => true
  | .imageVerify _ => true
  | .svnCommit => true
  | .revoke slot => decide (slot < 4)
  | .getVersion _ => true
  | .getIdentity _ => true
  | .getMeasurements _ _ mask => decide (mask < 256)
  | .extend _ register _ => decide (register < 2 ^ 8)
  | .sessionStart _ => true
  | .sessionFinish _ _ => true
  | .keyProg _ _ => true
  | .keyGo _ stream dir set => decide (stream < 2) && decide (dir < 2) && decide (set < 2)
  | .keyStop _ stream dir set => decide (stream < 2) && decide (dir < 2) && decide (set < 2)
  | .biasFlip _ => true
  | .biasFlipComplete => true
  | .ideIntegrityFailure stream => decide (stream < 2)
  | .entdaa addr => decide (addr < 128)
  | .setEndpointId eid => decide (eid < 256)
  | .mctpControl _ _ => true
  | .pldmRequest _ _ => true
  | .temperSchedule group => decide (group < 36)
  | .temperTestComplete group failMask => decide (group < 36) && decide (failMask < 16)
  | .parityError tile _ strand _ _ _ => inTile tile && decide (strand < 8)
  | .fatalError source _ => decide (1 ≤ source) && decide (source ≤ 3)
  | .healthRecompute => true
  | .pwrDomainWrite _ => true
  | .domainPowerUpComplete domain => decide (domain < 50)
  | .regulatorFault domain => decide (domain < 50)
  | .powerSample _ => true
  | .throttleRelease => true
  | .throttleExhausted => true
  | .pwrLimitWrite _ => true
  | .thermalSample _ _ _ _ => true
  | .undervoltage => true
  | .overvoltage => true
  | .pwrbrakeAssert => true
  | .pwrbrakeDeassert => true
  | .tapInstruction _ => true
  | .counterClose sets => decide (sets < 2 ^ 17)
  | .closeTimeRead set => decide (set < 17)
  | .watchWrite watch => decide (watch < 1024)
  | .watchFlush watch => decide (watch < 1024)
  | .tapPieceArrival _ => true
  | .twHeadWrite _ => true
  | .traceEntry _ _ _ part _ => decide (part < 16)
  | .arm => true
  | .trigger => true
  | .drain => true
  | .traceDrainComplete => true
  | .trMark _ => true
  | .snapshotRequest => true
  | .snapshotComplete => true
  | .cxlLinkTrained _ _ => true
  | .ptpMessageTransmit port _ => decide (port < 8)
  | .opticalCalibrationComplete link => decide (link < 32)
  | .traceSramWrite => true

end Sys2Proof
end

