-- ==== Sys2Proof/Safety.lean ====
section
/-! DEFINITION. The terms in which claims speak of a safe run: a queue of well-formed commands, what a command leaves
alone, and when a bundle of one slot issues. -/

namespace Sys2Proof.Machine

/-- Every command that waits is well formed. -/
def queueOk (s : State) : Prop := ∀ c ∈ s.pending, wellFormed c = true

/-- The command takes effect: a next state, neither a fault nor a refusal. -/
def completes (c : Instr) (s : State) : Prop := ∃ t, exec c s = .next t

-- Frames.

/-- Nothing but registers of BAR0 differs, and of these only those at the keys listed. -/
def regsOnly (ks : List Nat) (s t : State) : Prop :=
  t = { pending := s.pending, chip := { s.chip with bar := t.chip.bar } } ∧
    ∀ k, k ∉ ks → barGet t.chip k = barGet s.chip k

/-- Nothing but one strand, the owner of its tile's loop cache, and the registers of BAR0 at the keys listed differ. -/
def strandOnly (ks : List Nat) (tile strand : Nat) (s t : State) : Prop :=
  t = { pending := s.pending,
        chip := { s.chip with bar := t.chip.bar, strands := t.chip.strands, tiles := t.chip.tiles } } ∧
    (∀ k, k ∉ ks → barGet t.chip k = barGet s.chip k) ∧
    (∀ k, k ≠ skey tile strand → tget (fun _ => {}) t.chip.strands k = tget (fun _ => {}) s.chip.strands k) ∧
    (∀ k, k ≠ tile → getTile t.chip k = getTile s.chip k) ∧
    getTile t.chip tile = { getTile s.chip tile with lcOwner := (getTile t.chip tile).lcOwner }

/-- Nothing but one strand, its tile, the counters and the registers of BAR0 at the keys listed differ. -/
def homeOnly (ks : List Nat) (tile strand : Nat) (s t : State) : Prop :=
  t = { pending := s.pending,
        chip := { s.chip with bar := t.chip.bar, strands := t.chip.strands, tiles := t.chip.tiles,
                              ctrLive := t.chip.ctrLive } } ∧
    (∀ k, k ∉ ks → barGet t.chip k = barGet s.chip k) ∧
    (∀ k, k ≠ skey tile strand → tget (fun _ => {}) t.chip.strands k = tget (fun _ => {}) s.chip.strands k) ∧
    ∀ k, k ≠ tile → getTile t.chip k = getTile s.chip k

/-- Nothing but one tile differs. -/
def tileOnly (tile : Nat) (s t : State) : Prop :=
  t = { pending := s.pending, chip := { s.chip with tiles := t.chip.tiles } } ∧
    ∀ k, k ≠ tile → getTile t.chip k = getTile s.chip k

-- A bundle of one slot (R194 to R197, R224, R227).

/-- The strand with the command brought as a slot of its bundle. -/
def brought (s : Chip) (site : Site) (c : Instr) : Chip :=
  modStrand s site.tile site.strand (fun x => stage site c x (fun d => (siteOf d).map (·.slot)))

/-- What the slot does of a bundle that the strand holds. -/
def heldRec (s : Chip) (site : Site) (c : Instr) : SlotRec :=
  slotRec s site.tile site.strand (getStrand s site.tile site.strand) c

/-- No strand of the tile waits for the loop cache. -/
def cacheQuiet (s : Chip) (t : Nat) : Bool :=
  (List.range 8).all (fun j => (getStrand s t j).wait != some ⟨.loopCache, 0⟩)

/-- The strand may issue: it runs, no asynchronous fault is pending, no late buffer swap waits, and its bundle is in the
banks, fetched and free of poison (R158, R163, R184, R199, R224, R228). -/
def strandReady (s : Chip) (t i : Nat) : Bool :=
  let x := getStrand s t i
  let y := getTile s t
  strandRuns s t i && x.pend.isEmpty && !(tget (fun _ => ({} : Halves)) y.halves i).waiting && decide (x.pc < bundleEnd) &&
    fetched x y (y.lcOwner == some i) && !bundlePoison x y (y.lcOwner == some i)

/-- The one slot of a strand's bundle executes without fault: the predicate lets it, its encoding is legal, no precise
fault applies, and no register it names has a pending write. -/
def slotSound (s : Chip) (site : Site) (c : Instr) : Bool :=
  let x := getStrand s site.tile site.strand
  let r := heldRec s site c
  decide (x.slots = [c]) && r.on && !r.pz && r.legal && r.faults.isEmpty && !anyBusy x r.checks && !anyBusy x r.uses

/-- It executes without fault, and nothing it waits for is missing. -/
def slotFree (s : Chip) (site : Site) (c : Instr) : Bool :=
  slotSound s site c && (bundleWait s site.tile [heldRec s site c]).isNone

/-- The command names a slot of a strand that the part has, and no strand of the tile waits for the loop cache. -/
def sited (s : Chip) (site : Site) (c : Instr) : Bool :=
  decide (siteOf c = some site) && decide (site.tile < 144) && decide (site.strand < 8) && decide (site.slot < 4) &&
    cacheQuiet s site.tile

/-- The strand takes a new bundle: it runs, waits for nothing and holds no slot yet. -/
def strandFree (s : Chip) (t i : Nat) : Bool :=
  let x := getStrand s t i
  strandRuns s t i && decide (x.wait = none) && x.slots.isEmpty

/-- The command brings a bundle of one slot, which issues. -/
def issues (s : Chip) (site : Site) (c : Instr) : Bool :=
  sited s site c && site.last && strandFree s site.tile site.strand && strandReady s site.tile site.strand &&
    slotFree (brought s site c) site c

/-- The command brings a bundle of one slot, which waits for `w`. -/
def waitsFor (s : Chip) (site : Site) (c : Instr) (w : Wait) : Bool :=
  sited s site c && site.last && strandFree s site.tile site.strand && strandReady s site.tile site.strand &&
    slotSound (brought s site c) site c &&
    decide (bundleWait (brought s site c) site.tile [heldRec (brought s site c) site c] = some w)

/-- The strand holds a bundle of one slot that waits on an arrival counter, and nothing holds it any longer. -/
def resumes (s : Chip) (site : Site) (c : Instr) : Bool :=
  sited s site c && ((getStrand s site.tile site.strand).wait.map (·.kind) == some .counter) &&
    strandReady s site.tile site.strand && slotFree s site c

/-- The strand that brought the command, before and after. -/
def strandOf (s : State) (site : Site) : Strand := getStrand s.chip site.tile site.strand

/-- A strand that has taken a result into an s register, with PZ for a marked one (R104, R183, R246). -/
def tookS (x : Strand) (rd v : Nat) (pz : Bool) : Strand :=
  { wrS x rd (if pz then 0 else v) pz with flags := x.flags ||| BitVec.ofNat 6 (flIf pz flPZ) }

/-- A strand that has taken a predicate, with PZ for a marked one. -/
def tookP (x : Strand) (pd : Nat) (b pz : Bool) : Strand :=
  { wrP x pd (b && !pz) pz with flags := x.flags ||| BitVec.ofNat 6 (flIf pz flPZ) }

/-- A strand that has taken a vector result with the flags that its elements raised (R183, R250). -/
def tookV (x : Strand) (rd : Nat) (r : VRes) : Strand :=
  { wrV x rd r.v r.m with flags := x.flags ||| BitVec.ofNat 6 (allFlags r.fl) }

/-- The strand takes `y` and goes on to the next bundle, and nothing else differs but the registers at `ks`. -/
def tookAndWent (ks : List Nat) (site : Site) (s t : State) (y : Strand) : Prop :=
  strandOnly ks site.tile site.strand s t ∧ strandOf t site = advance .fall y

/-- The Gateway's granules of a strand are ended, as a fence ends them (R589). -/
def dropGranules (s : Chip) (site : Site) : Chip :=
  let kept := s.fab.granules.filter (fun g => !(g.owner == strandOwner s site.tile site.strand))
  { s with fab := { s.fab with granules := kept } }

/-- The bytes that a tile's banks hold from a tile-local address up. -/
def bankBytes (s : State) (tile a n : Nat) : List Byte := mread (getTile s.chip tile).mem a n

/-- The words of the banks that a range touches are read without correction and without poison (R123, R224). -/
def wordsClean (s : State) (tile a n : Nat) : Bool :=
  (List.range ((a + n - 1) / 8 - a / 8 + 1)).all (fun j =>
    tget (fun _ => 0) (getTile s.chip tile).flaw (a / 8 + j) == 0 && !tmem (getTile s.chip tile).pz (a / 8 + j))

/-- The banks of a tile hold outside `n` bytes from `lo` what they held. -/
def banksKept (s t : State) (tile lo n : Nat) : Prop :=
  ∀ a, a < lo ∨ lo + n ≤ a → mget (getTile t.chip tile).mem a = mget (getTile s.chip tile).mem a

/-- Every element of width `w` whose lane is unmarked is what `g` gives for it; marks and the other registers stand. -/
def lanesAre (y x : Strand) (rd w m : Nat) (g : Nat → Nat) : Prop :=
  rdVm y rd = m ∧ (∀ j, j < 2048 / w → laneMark w m j = false → lane w (rdV y rd) j = g j % 2 ^ w) ∧
    ∀ k, k ≠ rd → rdV y k = rdV x k ∧ rdVm y k = rdVm x k

/-- The operation has entered queue `q` of the strand's tile, the strand has taken `y` and gone on, and nothing else
differs (R239). -/
def enqueued (q : Nat) (o : EngOp) (site : Site) (s t : State) (y : Strand) : Prop :=
  homeOnly [] site.tile site.strand s t ∧ t.chip.ctrLive = s.chip.ctrLive ∧
    getTile t.chip site.tile = { setQueue (getTile s.chip site.tile) q (queueOf (getTile s.chip site.tile) q ++ [o]) with
      lcOwner := (getTile t.chip site.tile).lcOwner } ∧
    strandOf t site = advance .fall y

/-- No strand of the tile waits. -/
def tileQuiet (s : Chip) (t : Nat) : Bool := (List.range 8).all (fun j => decide ((getStrand s t j).wait = none))

/-- Queue `q` of a tile runs `o` next, the tile is open, and no strand of it waits. -/
def runsNext (s : State) (tile q : Nat) (o : EngOp) (k : EngKind) : Bool :=
  decide (nextOp (getTile s.chip tile) q = some o) && decide (o.kind = k) && decide (o.strand < 8) &&
    engineOpen s.chip tile && tileQuiet s.chip tile

/-- The operation has left its queue and decremented its counter (R241). -/
def opDone (s t : State) (tile q : Nat) (o : EngOp) : Prop :=
  queueOf (getTile t.chip tile) q = (queueOf (getTile s.chip tile) q).erase o ∧
    acGet t.chip tile (opCnt o) = max (-2147483648) (min 2147483647 (acGet s.chip tile (opCnt o) - 1))

/-- Nothing but one tile, its strands, the counters, free values, corrected events and the registers listed differ. -/
def engineOnly (ks : List Nat) (tile : Nat) (s t : State) : Prop :=
  t = { pending := s.pending,
        chip := { s.chip with bar := t.chip.bar, strands := t.chip.strands, tiles := t.chip.tiles,
                              ctrLive := t.chip.ctrLive, freeCtr := t.chip.freeCtr
                              ras := { s.chip.ras with ceNow := t.chip.ras.ceNow } } } ∧
    (∀ k, k ∉ ks → barGet t.chip k = barGet s.chip k) ∧
    (∀ k, k / 8 ≠ tile → tget (fun _ => {}) t.chip.strands k = tget (fun _ => {}) s.chip.strands k) ∧
    ∀ k, k ≠ tile → getTile t.chip k = getTile s.chip k

/-- The registers that an engine operation may count in: its tile's bank errors and the flag events. -/
def engineRegs (tile : Nat) : List Nat := [aTILE_ECC tile, aARITH_EVENTS]

/-- Sample k of a stream as the banks hold it. -/
def sampleAt (s : State) (tile a k : Nat) : CVal := ciOf ⟨leNat (bankBytes s tile (sampleAddr a k) 4), false⟩

/-- The words of a stream of `n` samples are sound. -/
def streamClean (s : State) (tile a n : Nat) : Bool :=
  (List.range n).all (fun k => wordsClean s tile (sampleAddr a k) 4)

/-- The banks hold `l` as a stream. -/
def streamIs (t : State) (tile a : Nat) (l : List CVal) : Prop :=
  ∀ k, k < l.length → leNat (bankBytes t tile (sampleAddr a k) 4) = (ciBits (l.getD k ⟨0, 0, false⟩)).v

/-- No part of the device answers to a fault: the strand has the code pending and nothing decremented its counter. -/
def opRefused (s t : State) (tile q : Nat) (o : EngOp) (unit code : Nat) : Prop :=
  queueOf (getTile t.chip tile) q = (queueOf (getTile s.chip tile) q).erase o ∧
    acGet t.chip tile (opCnt o) = acGet s.chip tile (opCnt o) ∧
    fget t.chip (aTILE_STATUS tile) 63 48 = code ∧
    (getStrand t.chip tile o.strand).pend = (getStrand s.chip tile o.strand).pend ++ [⟨code, unit, 0⟩]

-- The fabric's source side (R565, R572 to R577).

/-- A request to a destination is accepted at once: there is room, and nothing waits for that destination (R574). -/
def accepts (s : Chip) (dest : Nat) : Bool := fabRoom s dest && !(s.fab.waiting.any (fun w => w.dest == dest))

/-- A request with the sequence number, link and epoch that it takes when it is accepted (R572, R574, R592). -/
def numbered (s : Chip) (r : FReq) : FReq :=
  { r with seqNo := tget (fun _ => 0) s.fab.nextSeq r.dest, link := fabLink s (devId s) r.dest r.addr,
           epoch := fget s aFAB_STATUS 47 40 }

/-- One request has been accepted: it stands last in the replay store and its destination's numbers go on (R574). -/
def requestSent (s t : State) (r : FReq) : Prop :=
  t.chip.fab = { s.chip.fab with
    reqs := s.chip.fab.reqs ++ [numbered s.chip r]
    nextSeq := tset (fun _ => 0) r.dest ((tget (fun _ => 0) s.chip.fab.nextSeq r.dest + 1) % 2 ^ 32) s.chip.fab.nextSeq }

/-- The requests of operation `n` that the device holds, accepted or waiting, since `s`. -/
def opRequests (s t : State) (n : Nat) : List FReq :=
  ((t.chip.fab.reqs.drop s.chip.fab.reqs.length) ++ (t.chip.fab.waiting.drop s.chip.fab.waiting.length)).filter (fun r => r.op == n)

/-- A fabric instruction's frame: the strand has taken `y` and gone on, no other strand, no tile, no byte of a bank and no
register but a regulator's status has changed. -/
def fabricWent (site : Site) (s t : State) (y : Strand) : Prop :=
  t.pending = s.pending ∧ strandOf t site = advance .fall y ∧ banksKept s t site.tile 0 0 ∧
    (∀ k, k ≠ skey site.tile site.strand → tget (fun _ => {}) t.chip.strands k = tget (fun _ => {}) s.chip.strands k) ∧
    (∀ k, k ≠ site.tile → getTile t.chip k = getTile s.chip k) ∧
    ∀ k, k ∉ (List.range 16).map aBW_STATUS → barGet t.chip k = barGet s.chip k

-- Frames over parts of the block.

/-- Registers at the keys listed, and the parts of the block that `f` takes from the new state, are all that differs. -/
def chipOnly (ks : List Nat) (s t : State) (f : Chip → Chip) : Prop :=
  t = { pending := s.pending, chip := { f s.chip with bar := t.chip.bar } } ∧ ∀ k, k ∉ ks → barGet t.chip k = barGet s.chip k

/-- A field that counts has counted one, and has stopped at all ones (R117). -/
def countedOne (s t : State) (k hi lo : Nat) : Prop :=
  fget t.chip k hi lo = min (fget s.chip k hi lo + 1) (2 ^ (hi + 1 - lo) - 1)

/-- The module bytes of channel `c` outside `n` bytes from `mb` are what they were. -/
def modulesKept (s t : State) (c mb n : Nat) : Prop :=
  ∀ k, k < mbKey c mb ∨ mbKey c mb + n ≤ k → mget t.chip.mem.dram k = mget s.chip.mem.dram k

/-- `n` device bytes lie in one burst of a sound channel that the access may reach, and the burst holds no error and no
poison (R286, R291, R298, R302). -/
def burstSound (s : Chip) (p fn a n c mb : Nat) : Bool :=
  decide (0 < n) && decide (a % 64 + n ≤ 64) && decide (locate s a = .burst c mb) && decide (mb % 64 = a % 64) &&
    decide (devCheck s p fn a n = 0) && !chanFailed s c && decide (tget (fun _ => 0) s.mem.dflaw (mbKey c (mb - mb % 64) / 64) = 0) &&
    !tmem s.mem.dpz (mbKey c (mb - mb % 64) / 64)

-- Queues (R349 to R358) and Swage contexts (R330).

/-- No strand of the part waits, so that no arrival makes one go on. -/
def allQuiet (s : Chip) : Bool := (List.range 144).all (fun t => tileQuiet s t)

/-- The context of a queue stands in the cache, and the function may use it: a command runs on it at once (R352, R358). -/
def queueReady (s : Chip) (fn q : Nat) (c : List Byte) : Bool :=
  decide (fn < 64) && qmReady s && decide (q < 2 ^ 20) && decide (s.qm.cached.find? (fun p => p.1 == q) = some (q, c)) &&
    ownedBy fn c && decide (c.length = 64)

/-- What QM_QSTATUS shows a function after a command on a queue whose context is now `c` (R390). -/
def queueAnswer (t : State) (fn code : Nat) (c : List Byte) : Prop :=
  fget t.chip (kQstatus fn) 63 48 = code ∧ fget t.chip (kQstatus fn) 47 44 = cState c % 16 ∧
    fget t.chip (kQstatus fn) 40 24 = cHead c ∧ fget t.chip (kQstatus fn) 16 0 = cTail c

/-- Nothing but the queue manager and the registers listed differs. -/
def queueOnly (ks : List Nat) (s t : State) : Prop := chipOnly ks s t (fun c => { c with qm := t.chip.qm })

/-- The command of a Swage context. -/
def ctxAt (s : Chip) (u k : Nat) : Option SwCmd := tget (fun _ => none) (getUnit s u).ctxs k

/-- The bytes of a local region of a channel as the module holds them. -/
def localBytes (s : State) (u o n : Nat) : List Byte := unmark (peekDev s.chip (localAddr u o) n)

/-- The channel's local region is in use and sound: reads and writes of it meet no error (R288, R298). -/
def localSound (s : Chip) (u : Nat) : Bool :=
  fbit s aMEM_MAP 0 && !chanFailed s u && decide (chanState s u = 2) && decide (s.mem.cap % 64 = 0) && s.mem.dflaw.isEmpty && s.mem.dpz.isEmpty

-- Strikes (chapter 09).

/-- Nothing waits for the next Strike boundary, no plan is loaded, no partition beside reset is there, no counter set
closes by itself and no channel has failed: a boundary only begins a Strike. -/
def boundaryCalm (s : Chip) : Bool :=
  decide (stageNow s ≠ 0xF) && decide (s.radio = { s.radio with
    plan := none, nextPlan := none, pendingStep := none, request := none, toReduced := false, toLoad := [], lostNow := [],
    joining := 0, claims := 0, rebind := [], nextBcycle := none }) && s.parts.isEmpty && s.ras.tests.isEmpty && s.ras.wanted.isEmpty && s.mesh.due.isEmpty &&
    (List.range 17).all (fun p => !fbit s (aCTR_AUTO p) 0) && (List.range 32).all (fun c => decide (chanState s c ≠ 4))

-- Time and fronthaul (chapter 10).

/-- No time trigger is armed. -/
def trigsOff (s : Chip) : Bool := (List.range 16).all (fun i => !fbit s (aTT_CTL i) 63)

/-- No capture unit is armed. -/
def capsOff (s : Chip) : Bool := (List.range 16).all (fun i => !fbit s (aTC_CTL i) 63)

-- Partitions and mailboxes (chapter 11).

/-- A partition command may run: none is in progress and the state allows it (R515). -/
def partReady (s : Chip) (p : Nat) (states : List Nat) : Bool := !fbit s aPART_CMD_STATUS 0 && states.contains (partState s p)

/-- A partition command has ended with a code; only the registers listed and the partition have changed (R515). -/
def partAnswered (ks : List Nat) (s t : State) (p code : Nat) : Prop :=
  fget t.chip aPART_CMD_STATUS 63 48 = code ∧ chipOnly (aPART_CMD_STATUS :: ks) s t (fun c => { c with parts := t.chip.parts }) ∧
    ∀ q, q ≠ p → getPart t.chip q = getPart s.chip q

/-- A side's message has gone to the other side's ring: it carries the side's next number, and only that instance, its status
and its interrupt differ (R547 to R549); `f` is what the message itself does to the instance. -/
def haspSent (s t : State) (inst : Nat) (tenant : Bool) (type status : Nat) (payload : List Byte) (f : Hasp → Hasp) : Prop :=
  let src := if tenant then 2 else 1
  let h := getHasp s.chip inst
  let q := tget (fun _ => 0) h.seqs src
  let m : Msg := ⟨type, q, src, payload.length, status, payload⟩
  let x := f { h with seqs := tset (fun _ => 0) src ((q + 1) % 2 ^ 16) h.seqs }
  getHasp t.chip inst = (if tenant then { x with toManager := x.toManager ++ [m] } else { x with toTenant := x.toTenant ++ [m] }) ∧
    fget t.chip (aHASP tenant inst + 0xC8) 63 48 = 0 ∧
    chipOnly [aHASP tenant inst + 0xC8] s t (fun c => { c with hasp := t.chip.hasp, irqs := t.chip.irqs }) ∧
    ∀ k, k ≠ inst → getHasp t.chip k = getHasp s.chip k

/-- The Hearth's message has gone to a side of an instance (R548, R549). -/
def hearthSent (s t : State) (inst : Nat) (tenant : Bool) (type status : Nat) (payload : List Byte) : Prop :=
  let h := getHasp s.chip inst
  let q := tget (fun _ => 0) h.seqs 0
  let m : Msg := ⟨type, q, 0, payload.length, status, payload⟩
  let x := { h with seqs := tset (fun _ => 0) 0 ((q + 1) % 2 ^ 16) h.seqs }
  getHasp t.chip inst = (if tenant then { x with toTenant := x.toTenant ++ [m] } else { x with toManager := x.toManager ++ [m] }) ∧
    chipOnly [] s t (fun c => { c with hasp := t.chip.hasp, irqs := t.chip.irqs }) ∧
    ∀ k, k ≠ inst → getHasp t.chip k = getHasp s.chip k

/-- The Hearth holds nothing for either side of the instance (R548). -/
def haspIdle (s : Chip) (inst : Nat) : Bool := (getHasp s inst).heldTenant.isEmpty && (getHasp s inst).heldManager.isEmpty

/-- The Hearth may put a message into a side's ring at once (R548, R549). -/
def hearthMay (s : Chip) (inst : Nat) (tenant : Bool) : Bool :=
  let ring := if tenant then (getHasp s inst).toTenant else (getHasp s inst).toManager
  haspIdle s inst && (getHasp s inst).agreed && decide (hearthCount ring < 4) && decide (ring.length < 16)

-- The fabric's target side (chapter 12).

/-- No strand of the part waits for anything. -/
def nobodyWaits (s : Chip) : Bool := s.strands.all (fun x => decide (x.2.wait = none))

-- Resets and the rest (chapters 13 to 15).

/-- The package has been reset (R599, R600): everything of the tiles, the fabric, the radio and the queues is gone, the stage is
0, and the host's memory, the fuses and the queue of commands are as they were. -/
def wasReset (s t : State) : Prop :=
  t.pending = s.pending ∧ stageNow t.chip = 0 ∧ t.chip.tiles = [] ∧ t.chip.strands = [] ∧ t.chip.parts = [] ∧ t.chip.qm = {} ∧ t.chip.fab = {} ∧
    t.chip.radio = {} ∧ t.chip.hasp = [] ∧ t.chip.mem.host = s.chip.mem.host ∧
    fget t.chip aSEC_STATUS 47 36 = fget s.chip aSEC_STATUS 47 36 ∧ t.chip.images = s.chip.images

/-- The answer that stands in a carrier's mailbox: MCTP's, or the DOE's (R613, R614). -/
def answer1 (t : State) (mctp : Bool) : List Byte := if mctp then t.chip.boot.mctpAnswer else t.chip.boot.doeAnswer

/-- A request has its answer, and nothing else has changed. -/
def answered (s t : State) (mctp : Bool) (m : List Byte) : Prop :=
  t = { s with chip := { s.chip with boot := if mctp then { s.chip.boot with mctpAnswer := m } else { s.chip.boot with doeAnswer := m } } }

/-- A request is refused with a code, which its answer and SEC_STATUS show (R614, R630). -/
def refusedWith (s t : State) (mctp : Bool) (code status : Nat) : Prop :=
  answer1 t mctp = attestMsg (code + 0x80) status [] ∧ fget t.chip aSEC_STATUS 63 48 = status ∧
    chipOnly [aSEC_STATUS] s t (fun c => { c with boot := if mctp then { c.boot with mctpAnswer := t.chip.boot.mctpAnswer }
      else { c.boot with doeAnswer := t.chip.boot.doeAnswer } })

/-- Nothing but RAS and power state and the registers listed differs. -/
def regsOnlyRas (ks : List Nat) (s t : State) : Prop := chipOnly ks s t (fun c => { c with ras := t.chip.ras })

/-- Nothing but the debug units and the registers listed differs. -/
def regsOnlyObs (ks : List Nat) (s t : State) : Prop := chipOnly ks s t (fun c => { c with obs := t.chip.obs })

end Sys2Proof.Machine
end

