-- ==== Sys2Proof/Certificates/Slice0/Obligations.lean ====
section
/-! DEFINITION. The statements about the model, for the provers. -/

open Sys2Proof Sys2Proof.Machine

-- The queue of commands ------------------------------------------------------------------------------------

/-- Taking the front command is running it on the state with the queue's rest (the model's own queue, log 1). -/
def Obligations.StepRunsFrontCommand : Prop :=
  ∀ (c : Instr) (r : List Instr) (s : State), step { s with pending := c :: r } = exec c { s with pending := r }

/-- With no command waiting a step answers the state one tile cycle later (DESIGN CHOICE, log 1): the count of tile
cycles is one higher, and only the time bases and the counter of free values may differ beside it. -/
def Obligations.IdleStepIsOneTileCycle : Prop :=
  ∀ s : State, s.pending = [] → ∃ t, step s = .next t ∧ t.pending = [] ∧ t.chip.cycle = s.chip.cycle + 1 ∧
    t.chip = { s.chip with cycle := t.chip.cycle, time := t.chip.time, freeCtr := t.chip.freeCtr } ∧
    t.chip.time = { s.chip.time with tb := t.chip.time.tb }

/-- A command's effect is on everything but the queue (the model's own queue, log 1). -/
def Obligations.CommandsKeepTheQueue : Prop :=
  ∀ (c : Instr) (s t : State), exec c s = .next t → t.pending = s.pending

/-- Every well-formed command answers a next state from every state: no command of the table is refused, and the one
fault is that of a unit which the part does not have. -/
def Obligations.WellFormedCommandsComplete : Prop :=
  ∀ (c : Instr) (s : State), wellFormed c = true → completes c s

/-- A step keeps a queue of well-formed commands one, and never ends in a fault or a refusal. -/
def Obligations.StepKeepsQueueOk : Prop :=
  (∀ s : State, queueOk s → ∃ t, step s = .next t) ∧ ∀ s t : State, queueOk s → step s = .next t → queueOk t

/-- A queue of well-formed commands runs out: as many steps as it holds commands leave it empty. -/
def Clauses.QueueRunsOut : Prop :=
  ∀ s : State, queueOk s → ∃ t, Host.Core.run Sys2Proof.core s.pending.length s = .next t ∧ t.pending = []

/-- After reset no command waits, so the queue is one of well-formed commands. -/
def Clauses.ResetQueueOk : Prop :=
  queueOk State.reset ∧ State.reset.pending = []

-- Tongs: scalar results (R246) -----------------------------------------------------------------------------

/-- Scalar arithmetic, with its operands read before any write: rd takes the value of R246, marked where an operand is,
and nothing else of the part changes but the strand's own progress. Writes to s0 are discarded (R178). -/
def Clauses.ScalarResults : Prop :=
  ∀ (s : State) (site : Site), let x := strandOf s site
    (∀ f, issues s.chip site (.scalarAlu site f) = true → ∃ t, exec (.scalarAlu site f) s = .next t ∧
      tookAndWent [] site s t (tookS x f.rd (scalarOp f.fn (rdS x f.ra) (rdS x f.rb)) (rdSm x f.ra || rdSm x f.rb))) ∧
    (∀ f, issues s.chip site (.scalarShift site f) = true → ∃ t, exec (.scalarShift site f) s = .next t ∧
      tookAndWent [] site s t (tookS x f.rd (scalarOp f.fn (rdS x f.ra) (rdS x f.rb)) (rdSm x f.ra || rdSm x f.rb))) ∧
    (∀ f, issues s.chip site (.scalarMul site f) = true → ∃ t, exec (.scalarMul site f) s = .next t ∧
      tookAndWent [] site s t (tookS x f.rd (rdS x f.ra * rdS x f.rb % 2 ^ 64) (rdSm x f.ra || rdSm x f.rb))) ∧
    (∀ f, issues s.chip site (.scalarMulh site f) = true → ∃ t, exec (.scalarMulh site f) s = .next t ∧
      tookAndWent [] site s t (tookS x f.rd (scalarOp f.fn (rdS x f.ra) (rdS x f.rb)) (rdSm x f.ra || rdSm x f.rb))) ∧
    (∀ f, issues s.chip site (.scalarMinmax site f) = true → ∃ t, exec (.scalarMinmax site f) s = .next t ∧
      tookAndWent [] site s t (tookS x f.rd (scalarOp f.fn (rdS x f.ra) (rdS x f.rb)) (rdSm x f.ra || rdSm x f.rb))) ∧
    (∀ op f, issues s.chip site (.scalarAluImm site op f) = true → ∃ t, exec (.scalarAluImm site op f) s = .next t ∧
      tookAndWent [] site s t (tookS x f.rd (scalarOp (immFn op) (rdS x f.ra) (wrap 64 (signed 11 f.imm))) (rdSm x f.ra))) ∧
    (∀ op f, issues s.chip site (.scalarShiftImm site op f) = true → ∃ t, exec (.scalarShiftImm site op f) s = .next t ∧
      tookAndWent [] site s t (tookS x f.rd (scalarOp (immFn op) (rdS x f.ra) f.imm) (rdSm x f.ra))) ∧
    (∀ f, issues s.chip site (.li site f) = true → ∃ t, exec (.li site f) s = .next t ∧
      tookAndWent [] site s t (tookS x f.rd (wrap 64 (signed 16 f.imm)) false)) ∧
    (∀ f, issues s.chip site (.ins16 site f) = true → ∃ t, exec (.ins16 site f) s = .next t ∧
      tookAndWent [] site s t (tookS x f.rd ((rdS x f.rd * 2 ^ 16 + f.imm % 2 ^ 16) % 2 ^ 64) (rdSm x f.rd))) ∧
    (∀ f, issues s.chip site (.rng site f) = true → ∃ t, exec (.rng site f) s = .next t ∧
      tookAndWent [] site s t (tookS x f.rd (rngNat (rdS x f.ra) (rdS x (f.ra + 1)) (rdS x f.rb))
        (rdSm x f.ra || rdSm x (f.ra + 1) || rdSm x f.rb)))

/-- The scalar operations by their fn (R246). -/
def Obligations.ScalarOperations : Prop :=
  ∀ a b : Nat, a < 2 ^ 64 → b < 2 ^ 64 →
    scalarOp 0 a b = (a + b) % 2 ^ 64 ∧ (scalarOp 1 a b : Int) = ((a : Int) - b) % 2 ^ 64 ∧
    scalarOp 2 a b = (a &&& b) ∧ scalarOp 3 a b = (a ||| b) ∧ scalarOp 4 a b = (a ^^^ b) ∧
    scalarOp 5 a b = a * 2 ^ (b % 64) % 2 ^ 64 ∧ scalarOp 6 a b = a / 2 ^ (b % 64) ∧
    signed 64 (scalarOp 7 a b) = signed 64 a / 2 ^ (b % 64) ∧
    scalarOp 8 a b = a * b % 2 ^ 64 ∧
    signed 64 (scalarOp 9 a b) = signed 64 a * signed 64 b / 2 ^ 64 ∧ scalarOp 0xA a b = a * b / 2 ^ 64 ∧
    signed 64 (scalarOp 0xB a b) = min (signed 64 a) (signed 64 b) ∧
    signed 64 (scalarOp 0xC a b) = max (signed 64 a) (signed 64 b) ∧
    scalarOp 0xD a b = min a b ∧ scalarOp 0xE a b = max a b

/-- Predicate logic and compares: pd takes the relation of R246; writes to p0 are discarded (R178). -/
def Clauses.PredicateResults : Prop :=
  ∀ (s : State) (site : Site), let x := strandOf s site
    (∀ f, issues s.chip site (.predicateLogic site f) = true → ∃ t, exec (.predicateLogic site f) s = .next t ∧
      tookAndWent [] site s t (tookP x f.rd (predOp f.fn (rdP x f.ra) (rdP x f.rb)) (rdPm x f.ra || rdPm x f.rb))) ∧
    (∀ f, issues s.chip site (.cmp site f) = true → ∃ t, exec (.cmp site f) s = .next t ∧
      tookAndWent [] site s t (tookP x f.rd (cmpRel f.fn (rdS x f.ra) (rdS x f.rb)) (rdSm x f.ra || rdSm x f.rb))) ∧
    (∀ op f, issues s.chip site (.cmpImm site op f) = true → ∃ t, exec (.cmpImm site op f) s = .next t ∧
      tookAndWent [] site s t
        (tookP x f.rd (cmpRel (immRel op) (rdS x f.ra) (wrap 64 (signed 11 f.imm))) (rdSm x f.ra)))

-- Tongs: control (R187, R198 to R201, R205, R231, R245) ----------------------------------------------------

/-- Where control goes: the bundle of one control instruction moves the strand as R245 says and leaves everything else
alone; `call` writes s31 first, `loopc` takes the loop cache. -/
def Obligations.ControlFlow : Prop :=
  ∀ (s : State) (site : Site), let x := strandOf s site
    (issues s.chip site (.nop site) = true → ∃ t, exec (.nop site) s = .next t ∧ tookAndWent [] site s t x) ∧
    (issues s.chip site (.sync site) = true → ∃ t, exec (.sync site) s = .next t ∧ tookAndWent [] site s t x) ∧
    (∀ off, issues s.chip site (.br site off) = true → ∃ t, exec (.br site off) s = .next t ∧
      strandOnly [] site.tile site.strand s t ∧ ((strandOf t site).pc : Int) = x.pc + signed 21 off ∧
      strandOf t site = { x with pc := (strandOf t site).pc, loops := jumpTo (strandOf t site).pc x.loops
                                 timedOut := false }) ∧
    (∀ off, issues s.chip site (.call site off) = true → ∃ t, exec (.call site off) s = .next t ∧
      strandOnly [] site.tile site.strand s t ∧ ((strandOf t site).pc : Int) = x.pc + signed 21 off ∧
      strandOf t site = { wrS x 31 (x.pc + 1) false with pc := (strandOf t site).pc
                                                         loops := jumpTo (strandOf t site).pc x.loops
                                                         timedOut := false }) ∧
    (∀ f, issues s.chip site (.jr site f) = true → ∃ t, exec (.jr site f) s = .next t ∧
      strandOnly [] site.tile site.strand s t ∧
      strandOf t site = { x with pc := rdS x f.ra, loops := jumpTo (rdS x f.ra) x.loops, timedOut := false }) ∧
    (∀ ra len, issues s.chip site (.loop site ra len) = true → ∃ t, exec (.loop site ra len) s = .next t ∧
      strandOnly [] site.tile site.strand s t ∧
      strandOf t site = if rdS x ra % 2 ^ 16 = 0 then advance (.skip len) x
        else { x with pc := x.pc + 1, timedOut := false
                      loops := ⟨x.pc + 1, len, rdS x ra % 2 ^ 16, false, true⟩ :: x.loops }) ∧
    (∀ ra len, issues s.chip site (.loopc site ra len) = true → rdS x ra % 2 ^ 16 ≠ 0 →
      ∃ t, exec (.loopc site ra len) s = .next t ∧ strandOnly [] site.tile site.strand s t ∧
      (getTile t.chip site.tile).lcOwner = some site.strand ∧
      strandOf t site = { x with pc := x.pc + 1, timedOut := false
                                 loops := ⟨x.pc + 1, len, rdS x ra % 2 ^ 16, true, true⟩ :: x.loops }) ∧
    (issues s.chip site (.halt site) = true → ∃ t, exec (.halt site) s = .next t ∧
      strandOnly [] site.tile site.strand s t ∧ strandOf t site = { x with halted := true, timedOut := false }) ∧
    (issues s.chip site (.rfe site) = true → ∃ t, exec (.rfe site) s = .next t ∧
      strandOnly [] site.tile site.strand s t ∧
      strandOf t site = { x with pc := x.fpc.toNat, loops := jumpTo x.fpc.toNat x.loops, handler := false
                                 timedOut := false })

-- Tongs: waits, arrival counters, special registers (R182, R208 to R213, R245, R578, R579) -----------------

/-- Waits that are satisfied, counter writes and special-register moves. A counter written by `acadd` stops at the
limits of R211. -/
def Obligations.CountersAndSpecials : Prop :=
  ∀ (s : State) (site : Site), let x := strandOf s site
    (∀ f, issues s.chip site (.wait site f) = true → ∃ t, exec (.wait site f) s = .next t ∧ tookAndWent [] site s t x) ∧
    (∀ f, issues s.chip site (.waitT site f) = true → ∃ t, exec (.waitT site f) s = .next t ∧
      tookAndWent [] site s t
        (wrP x f.pd (decide (acGet s.chip site.tile f.n ≤ signed 32 (rdS x f.ra))) false)) ∧
    (∀ f, issues s.chip site (.acadd site f) = true → ∃ t, exec (.acadd site f) s = .next t ∧
      homeOnly [] site.tile site.strand s t ∧ strandOf t site = advance .fall x ∧
      acGet t.chip site.tile f.n =
        max (-2147483648) (min 2147483647 (acGet s.chip site.tile f.n + signed 32 (rdS x f.ra))) ∧
      ∀ n, n ≠ f.n → acGet t.chip site.tile n = acGet s.chip site.tile n) ∧
    (∀ f, issues s.chip site (.acset site f) = true → ∃ t, exec (.acset site f) s = .next t ∧
      homeOnly [] site.tile site.strand s t ∧ strandOf t site = advance .fall x ∧
      acGet t.chip site.tile f.n = signed 32 (rdS x f.ra) ∧
      ∀ n, n ≠ f.n → acGet t.chip site.tile n = acGet s.chip site.tile n) ∧
    (∀ f, issues s.chip site (.mfsr site f) = true → ∃ t, exec (.mfsr site f) s = .next t ∧
      tookAndWent [] site s t (wrS x f.rd ((specialReg s.chip site.tile site.strand f.imm).getD 0) false)) ∧
    (∀ f, issues s.chip site (.mtsr site f) = true → ∃ t, exec (.mtsr site f) s = .next t ∧
      tookAndWent [] site s t (writeSpecial x f.imm (rdS x f.ra))) ∧
    (∀ f, issues s.chip site (.wward site f) = true → ∃ t, exec (.wward site f) s = .next t ∧
      tookAndWent [] site s t
        (wrP x f.pd (fget s.chip (aFJ_STATUS (tilePart s.chip site.tile)) 3 0 == 3) false)) ∧
    (∀ f, issues s.chip site (.wfence site f) = true → ∃ t, exec (.wfence site f) s = .next t ∧
      tookAndWent [] site { s with chip := dropGranules s.chip site } t
        (wrP x f.pd (x.fenceFail.all (fun k => f.fn == 1 && k != min (rdS x f.ra) 0xFFFE)) false))

/-- A `wait` that is not satisfied holds its bundle: the strand waits with WAIT_KIND 2 on its counter, and no slot has
any effect (R194, R212). -/
def Clauses.WaitHolds : Prop :=
  ∀ (s : State) (site : Site) (f : FmtW),
    waitsFor s.chip site (.wait site f) ⟨.counter, f.n⟩ = true → signed 32 (rdS (strandOf s site) f.ra) < acGet s.chip site.tile f.n →
    ∃ t, exec (.wait site f) s = .next t ∧ strandOnly [] site.tile site.strand s t ∧
      strandOf t site = { strandOf s site with slots := [.wait site f], wait := some ⟨.counter, f.n⟩ } ∧
      waitCode .counter = 2

/-- The two ends of a wait: the bundle issues when its counter has come to the threshold, and a timed wait issues with
pd written 0 when its time is over (R212, R213). -/
def Clauses.WaitsEnd : Prop :=
  ∀ (s : State) (site : Site), let x := strandOf s site
    (∀ f, resumes s.chip site (.wait site f) = true → ∃ t, exec (.waitSatisfied site.tile site.strand) s = .next t ∧
      tookAndWent [] site s t x) ∧
    (∀ f, resumes (setStrand s.chip site.tile site.strand { x with timedOut := true }) site (.waitT site f) = true →
      signed 32 (rdS x f.ra) < acGet s.chip site.tile f.n →
      ∃ t, exec (.waitTimeout site.tile site.strand) s = .next t ∧ tookAndWent [] site s t (wrP x f.pd false false))

/-- A slot that is not the last of its bundle is brought and nothing else happens: bundles issue as a unit (R194). -/
def Clauses.SlotsAreCollected : Prop :=
  ∀ (s : State) (site : Site) (c : Instr), sited s.chip site c = true → site.last = false →
    strandFree s.chip site.tile site.strand = true →
    exec c s = .next { s with chip := setStrand s.chip site.tile site.strand { strandOf s site with slots := [c] } }

/-- An encoding that is illegal faults with 0x2090 whatever the slot's predicate (R193); the slot has no effect, and the tile
records the code (R169, R227). With fmode 1 the strand sets fcode, finfo and fpc and goes on at fvec in handler state (R231);
with fmode 0 it is faulted, and the other strands go on (R230). -/
def Obligations.IllegalEncodingFaults : Prop :=
  ∀ (s : State) (site : Site) (c : Instr), let x := strandOf s site
    let r := heldRec (brought s.chip site c) site c
    sited s.chip site c = true → site.last = true → strandFree s.chip site.tile site.strand = true →
    strandReady s.chip site.tile site.strand = true → r.legal = false → r.faults = [] → r.checks = [] →
    x.handler = false →
    (x.fmode = true → ∃ t, exec c s = .next t ∧ strandOnly [aTILE_STATUS site.tile] site.tile site.strand s t ∧
      fget t.chip (aTILE_STATUS site.tile) 63 48 = 0x2090 ∧
      strandOf t site = { x with slots := [], wait := none, timedOut := false
                                 fcode := 0x2090#16
                                 finfo := BitVec.ofNat 64 (0x04 * 2 ^ 40 + site.slot * 2 ^ 32)
                                 fpc := BitVec.ofNat 18 x.pc, pc := x.fvec.toNat, handler := true }) ∧
    (x.fmode = false → ∃ t, exec c s = .next t ∧ fget t.chip (aTILE_STATUS site.tile) 63 48 = 0x2090 ∧
      strandOf t site = { x with slots := [], wait := none, timedOut := false, faulted := some 0x2090
                                 fpc := BitVec.ofNat 18 x.pc } ∧
      ∀ k, k ≠ skey site.tile site.strand → tget (fun _ => {}) t.chip.strands k = tget (fun _ => {}) s.chip.strands k)

-- Tongs: memory (R121, R206, R247, R248, R255) -------------------------------------------------------------

/-- Loads, stores and atomics of one word or less: little-endian bytes at ra + imm11 × size; a store changes exactly its
bytes, and an atomic its word, whose old value goes to rd. -/
def Obligations.ScalarMemory : Prop :=
  ∀ (s : State) (site : Site), let x := strandOf s site
    (∀ op f, let n := accessSize op
      let a := addrRI x f n
      issues s.chip site (.scalarLoad site op f) = true → wordsClean s site.tile a n = true →
      ∃ t, exec (.scalarLoad site op f) s = .next t ∧ homeOnly [] site.tile site.strand s t ∧
        banksKept s t site.tile 0 0 ∧
        strandOf t site = advance .fall (wrS x f.rd (extended op (leNat (bankBytes s site.tile a n))) false)) ∧
    (∀ op f, let n := accessSize op
      let a := addrRI x f n
      issues s.chip site (.scalarStore site op f) = true → wordsClean s site.tile a n = true → rdSm x f.rd = false →
      ∃ t, exec (.scalarStore site op f) s = .next t ∧ homeOnly [] site.tile site.strand s t ∧
        banksKept s t site.tile a n ∧ leNat (bankBytes t site.tile a n) = rdS x f.rd % 2 ^ (8 * n) ∧
        strandOf t site = advance .fall x) ∧
    (∀ f, let a := rdS x f.ra
      let old := leNat (bankBytes s site.tile a 8)
      issues s.chip site (.amo site f) = true → wordsClean s site.tile a 8 = true → rdSm x f.rb = false →
      ∃ t, exec (.amo site f) s = .next t ∧ homeOnly [] site.tile site.strand s t ∧ banksKept s t site.tile a 8 ∧
        leNat (bankBytes t site.tile a 8) = amoOp f.fn old (rdS x f.rb) ∧
        strandOf t site = advance .fall (tookS x f.rd old false)) ∧
    (∀ f, let a := rdS x f.ra
      let old := leNat (bankBytes s site.tile a 8)
      issues s.chip site (.cas site f) = true → wordsClean s site.tile a 8 = true → rdSm x f.rb = false →
      ∃ t, exec (.cas site f) s = .next t ∧ homeOnly [] site.tile site.strand s t ∧ banksKept s t site.tile a 8 ∧
        leNat (bankBytes t site.tile a 8) = (if old = rdS x f.rd then rdS x f.rb else old) ∧
        strandOf t site = advance .fall (tookS x f.rd old false))

/-- Vector loads and stores: 256 bytes at ra + imm11 × 64, or elements at ra + j × rb. Strided stores in ascending
element order leave the last element of each address. -/
def Clauses.VectorMemory : Prop :=
  ∀ (s : State) (site : Site), let x := strandOf s site
    (∀ f, let a := addrRI x f 64
      issues s.chip site (.vld site f) = true → wordsClean s site.tile a 256 = true →
      ∃ t, exec (.vld site f) s = .next t ∧ homeOnly [] site.tile site.strand s t ∧ banksKept s t site.tile 0 0 ∧
        strandOf t site = advance .fall (wrV x f.rd (leNat (bankBytes s site.tile a 256)) 0)) ∧
    (∀ f, let a := addrRI x f 64
      issues s.chip site (.vst site f) = true → rdVm x f.rd = 0 →
      ∃ t, exec (.vst site f) s = .next t ∧ homeOnly [] site.tile site.strand s t ∧ banksKept s t site.tile a 256 ∧
        leNat (bankBytes t site.tile a 256) = rdV x f.rd ∧ strandOf t site = advance .fall x) ∧
    (∀ f, let n := 2 ^ f.fn
      let adr := fun j => (rdS x f.ra + j * rdS x f.rb) % 2 ^ 64
      issues s.chip site (.vlds site f) = true → (∀ j, j < 256 / n → wordsClean s site.tile (adr j) n = true) →
      ∃ t, exec (.vlds site f) s = .next t ∧ homeOnly [] site.tile site.strand s t ∧ banksKept s t site.tile 0 0 ∧
        lanesAre (strandOf t site) x f.rd (8 * n) 0 (fun j => leNat (bankBytes s site.tile (adr j) n)) ∧
        (strandOf t site).pc = (advance .fall x).pc) ∧
    (∀ f, let n := 2 ^ f.fn
      let adr := fun j => (rdS x f.ra + j * rdS x f.rb) % 2 ^ 64
      issues s.chip site (.vsts site f) = true → rdVm x f.rd = 0 →
      (∀ j, j < 256 / n → wordsClean s site.tile (adr j) n = true) →
      ∃ t, exec (.vsts site f) s = .next t ∧ homeOnly [] site.tile site.strand s t ∧
        (∀ b, (∀ j, j < 256 / n → b < adr j ∨ adr j + n ≤ b) →
          mget (getTile t.chip site.tile).mem b = mget (getTile s.chip site.tile).mem b) ∧
        (∀ j, j < 256 / n → (∀ k, j < k → k < 256 / n → adr k ≠ adr j) →
          leNat (bankBytes t site.tile (adr j) n) = lane (8 * n) (rdV x f.rd) j) ∧
        strandOf t site = advance .fall x)

-- Tongs: vector arithmetic and moves (R249 to R256) --------------------------------------------------------

/-- Elementwise vector operations: every element whose lane no source marks takes its operation's value, the marks of
the sources spread, and no other register changes; ARITH_EVENTS may count flag events (R104, R118, R250, R254). -/
def Clauses.VectorElementwise : Prop :=
  ∀ (s : State) (site : Site), let x := strandOf s site
    let A := fun f : FmtR3 => rdV x f.ra
    let B := fun f : FmtR3 => rdV x f.rb
    let two := fun f : FmtR3 => rdVm x f.ra ||| rdVm x f.rb
    let three := fun f : FmtR3 => rdVm x f.ra ||| rdVm x f.rb ||| rdVm x f.rd
    let post := fun (t : State) (f : FmtR3) (w m : Nat) (g : Nat → Nat) =>
      strandOnly [aARITH_EVENTS] site.tile site.strand s t ∧ lanesAre (strandOf t site) x f.rd w m g ∧
        (strandOf t site).pc = (advance .fall x).pc
    (∀ op f, issues s.chip site (.vfadd site op f) = true → ∃ t, exec (.vfadd site op f) s = .next t ∧
      post t f 32 (two f) (fun j =>
        (if op = 0x20 then fAdd (lane 32 (A f) j) (lane 32 (B f) j)
         else if op = 0x21 then fSub (lane 32 (A f) j) (lane 32 (B f) j)
         else fMul (lane 32 (A f) j) (lane 32 (B f) j)).1)) ∧
    (∀ f, issues s.chip site (.vfma site f) = true → ∃ t, exec (.vfma site f) s = .next t ∧
      post t f 32 (three f) (fun j => (fFma (lane 32 (A f) j) (lane 32 (B f) j) (lane 32 (rdV x f.rd) j)).1)) ∧
    (∀ op f, issues s.chip site (.vfminmax site op f) = true → ∃ t, exec (.vfminmax site op f) s = .next t ∧
      post t f 32 (two f) (fun j => (fMinMax (op == 0x25) (lane 32 (A f) j) (lane 32 (B f) j)).1)) ∧
    (∀ f, issues s.chip site (.vfun site f) = true → ∃ t, exec (.vfun site f) s = .next t ∧
      post t f 32 (rdVm x f.ra) (fun j => (vfunOp f.fn (lane 32 (A f) j)).1)) ∧
    (∀ f, issues s.chip site (.vfcmp site f) = true → ∃ t, exec (.vfcmp site f) s = .next t ∧
      post t f 32 (two f) (fun j => vfcmpOp f.fn (lane 32 (A f) j) (lane 32 (B f) j))) ∧
    (∀ f, issues s.chip site (.vsel site f) = true → ∃ t, exec (.vsel site f) s = .next t ∧
      post t f 64 (three f) (fun j =>
        (lane 64 (rdV x f.rd) j &&& lane 64 (A f) j) ||| ((2 ^ 64 - 1 - lane 64 (rdV x f.rd) j) &&& lane 64 (B f) j))) ∧
    (∀ f, issues s.chip site (.vint site f) = true → ∃ t, exec (.vint site f) s = .next t ∧
      post t f (8 * 2 ^ (f.fn / 16)) (two f) (fun j => (vintOp (8 * 2 ^ (f.fn / 16)) (f.fn % 16)
        (lane (8 * 2 ^ (f.fn / 16)) (A f) j) (lane (8 * 2 ^ (f.fn / 16)) (B f) j)).1))

/-- Conversions, the lane sum and vector random numbers: vd takes the whole packed result with its marks and flags
(R249, R252, R253). -/
def Clauses.VectorConversions : Prop :=
  ∀ (s : State) (site : Site), let x := strandOf s site
    let marked := fun (f : FmtR3) j => laneMark 32 (rdVm x f.ra) j
    let src := fun (f : FmtR3) j => lane 32 (rdV x f.ra) j
    (∀ f, issues s.chip site (.vcvt site f) = true → ∃ t, exec (.vcvt site f) s = .next t ∧
      tookAndWent [aARITH_EVENTS] site s t (tookV x f.rd
        (let l := (List.range 64).map (fun j =>
          if marked f j then ((⟨poisonOf (f.fn % 16), true⟩ : Elem), flPZ)
          else ((⟨(cvtTo (f.fn % 16) (f.fn / 16 == 1) (src f j)).1, false⟩ : Elem),
            (cvtTo (f.fn % 16) (f.fn / 16 == 1) (src f j)).2))
        packMarked (elemBits (f.fn % 16)) (l.map (·.1)) (l.map (·.2))))) ∧
    (∀ f, issues s.chip site (.vcvtf site f) = true → ∃ t, exec (.vcvtf site f) s = .next t ∧
      tookAndWent [aARITH_EVENTS] site s t (tookV x f.rd
        (let l := (List.range 64).map (cvtFrom f.fn (rdV x f.ra) (rdVm x f.ra))
        packMarked 32 (l.map (·.1)) (l.map (·.2))))) ∧
    (∀ f, issues s.chip site (.vmxq site f) = true → rdVm x f.ra = 0 → ∃ t, exec (.vmxq site f) s = .next t ∧
      strandOnly [aARITH_EVENTS] site.tile site.strand s t ∧ rdVm (strandOf t site) f.rd = 0 ∧
      rdV (strandOf t site) f.rd = ((mxBlock f.fn (rdV x f.ra) 0 0).1 +
        2 ^ (8 + 32 * elemBits f.fn) * (mxBlock f.fn (rdV x f.ra) 0 1).1) % 2 ^ 2048) ∧
    (∀ f, issues s.chip site (.vfsum site f) = true → ∃ t, exec (.vfsum site f) s = .next t ∧
      tookAndWent [aARITH_EVENTS] site s t (tookV x f.rd
        (let r := foldTree (if f.fn == 0 then eBin fAdd else eBin (fMinMax (f.fn == 1))) 6
          ((List.range 64).map (fun j => (⟨src f j, marked f j⟩ : Elem))) 0
        ⟨r.1.v, b2n r.1.pz, [r.2]⟩))) ∧
    (∀ f, issues s.chip site (.vrng site f) = true → f.fn = 0 →
      rdSm x f.ra = false → rdSm x (f.ra + 1) = false → rdSm x f.rb = false → ∃ t, exec (.vrng site f) s = .next t ∧
      strandOnly [aARITH_EVENTS] site.tile site.strand s t ∧
      lanesAre (strandOf t site) x f.rd 64 0
        (fun j => rngNat (rdS x f.ra) (rdS x (f.ra + 1)) ((rdS x f.rb + j) % 2 ^ 64)))

/-- Moves between the register files (R256): one 64-bit lane chosen by the low five bits of rb, a broadcast, a copy. -/
def Clauses.RegisterMoves : Prop :=
  ∀ (s : State) (site : Site), let x := strandOf s site
    (∀ f, issues s.chip site (.mvsv site f) = true → rdSm x f.rb = false → ∃ t, exec (.mvsv site f) s = .next t ∧
      strandOnly [aARITH_EVENTS] site.tile site.strand s t ∧
      lane 64 (rdV (strandOf t site) f.rd) (rdS x f.rb % 32) = rdS x f.ra ∧
      (∀ j, j < 32 → j ≠ rdS x f.rb % 32 → lane 64 (rdV (strandOf t site) f.rd) j = lane 64 (rdV x f.rd) j) ∧
      (rdVm (strandOf t site) f.rd).testBit (rdS x f.rb % 32) = rdSm x f.ra ∧
      (strandOf t site).pc = (advance .fall x).pc) ∧
    (∀ f, issues s.chip site (.mvvs site f) = true → ∃ t, exec (.mvvs site f) s = .next t ∧
      tookAndWent [] site s t (tookS x f.rd (lane 64 (rdV x f.ra) (rdS x f.rb % 32))
        ((rdVm x f.ra).testBit (rdS x f.rb % 32) || rdSm x f.rb))) ∧
    (∀ f, issues s.chip site (.vbc site f) = true → rdSm x f.ra = false → ∃ t, exec (.vbc site f) s = .next t ∧
      strandOnly [aARITH_EVENTS] site.tile site.strand s t ∧
      lanesAre (strandOf t site) x f.rd (2 ^ (8 - f.fn)) 0 (fun _ => rdS x f.ra)) ∧
    (∀ f, issues s.chip site (.vcopy site f) = true → ∃ t, exec (.vcopy site f) s = .next t ∧
      tookAndWent [aARITH_EVENTS] site s t
        (tookV x f.rd ⟨rdV x f.ra, rdVm x f.ra, if rdVm x f.ra != 0 then [flPZ] else []⟩))

-- Tongs: queued operations (R239 to R242, R256 to R281) ----------------------------------------------------

/-- Engine, combine, mover and tap operations enter their queue with the descriptor words that they read, and the
strand goes on; nothing else happens at issue (R239, R240). The destination of `mvcv` has a pending write from then on
(R256). -/
def Clauses.EnginesTakeOperations : Prop :=
  ∀ (s : State) (site : Site), let x := strandOf s site
    let op := fun k (regs : List Nat) kc mode => ({ kind := k, strand := site.strand, w := regs.map (rdS x), kc := kc, mode := mode } : EngOp)
    let three := fun (f : FmtE) => [f.da, f.da + 1, f.db]
    let put := fun q o t => enqueued q o site s t x
    (∀ f, issues s.chip site (.mm site f) = true → ∃ t, exec (.mm site f) s = .next t ∧
      put 0 (op .mm [f.da, f.da + 1, f.db, f.db + 1] 0 f.mode) t) ∧
    (∀ f, issues s.chip site (.mew site f) = true → ∃ t, exec (.mew site f) s = .next t ∧
      put 0 (op .mew [f.da, f.db] f.kc f.mode) t) ∧
    (∀ f, issues s.chip site (.xld site f) = true → ∃ t, exec (.xld site f) s = .next t ∧
      put 1 (op .xld [f.sa, f.sb] 0 0) t) ∧
    (∀ f, issues s.chip site (.bmv site f) = true → ∃ t, exec (.bmv site f) s = .next t ∧ put 1 (op .bmv (three f) 0 0) t) ∧
    (∀ f, issues s.chip site (.kst site f) = true → ∃ t, exec (.kst site f) s = .next t ∧
      put 1 (op .kst [f.da] f.kc f.mode) t) ∧
    (∀ f, issues s.chip site (.kld site f) = true → ∃ t, exec (.kld site f) s = .next t ∧
      put 1 (op .kld [f.da] f.kc f.mode) t) ∧
    (∀ f, issues s.chip site (.pcomb site f) = true → ∃ t, exec (.pcomb site f) s = .next t ∧ put 3 (op .pcomb (three f) 0 0) t) ∧
    (∀ f, issues s.chip site (.amerge site f) = true → ∃ t, exec (.amerge site f) s = .next t ∧
      put 3 (op .amerge (three f) 0 0) t) ∧
    (∀ f, issues s.chip site (.afinal site f) = true → ∃ t, exec (.afinal site f) s = .next t ∧
      put 3 (op .afinal [f.da, f.db] 0 0) t) ∧
    (∀ f, issues s.chip site (.mvt site f) = true → ∃ t, exec (.mvt site f) s = .next t ∧ put 4 (op .mvt [f.sa, f.sb] 0 0) t) ∧
    (∀ f, issues s.chip site (.dtap site f) = true → ∃ t, exec (.dtap site f) s = .next t ∧ put 4 (op .dtap [f.sa, f.sb] 0 0) t) ∧
    (∀ f, issues s.chip site (.stap site f) = true → ∃ t, exec (.stap site f) s = .next t ∧ put 4 (op .stap (three f) 0 0) t)

/-- The Fuller's operations enter its queue in the same way; vd of `mvcv` has a pending write from then on, and `mvvc`
carries the low half of its register as it stands at issue (R239, R256, R257, R276). -/
def Clauses.FullerTakesOperations : Prop :=
  ∀ (s : State) (site : Site), let x := strandOf s site
    let op := fun k (f : FmtE) =>
      ({ kind := k, strand := site.strand, w := [f.da, f.da + 1, f.db].map (rdS x), kc := f.kc, mode := f.mode } : EngOp)
    let own := fun k w => ({ kind := k, strand := site.strand, w := w } : EngOp)
    (∀ f, issues s.chip site (.fcmul site f) = true → ∃ t, exec (.fcmul site f) s = .next t ∧ enqueued 2 (op .fcmul f) site s t x) ∧
    (∀ f, issues s.chip site (.fcmac site f) = true → ∃ t, exec (.fcmac site f) s = .next t ∧ enqueued 2 (op .fcmac f) site s t x) ∧
    (∀ f, issues s.chip site (.fwb site f) = true → ∃ t, exec (.fwb site f) s = .next t ∧ enqueued 2 (op .fwb f) site s t x) ∧
    (∀ f, issues s.chip site (.ffir site f) = true → ∃ t, exec (.ffir site f) s = .next t ∧ enqueued 2 (op .ffir f) site s t x) ∧
    (∀ f, issues s.chip site (.fmag2 site f) = true → ∃ t, exec (.fmag2 site f) s = .next t ∧ enqueued 2 (op .fmag2 f) site s t x) ∧
    (∀ f, issues s.chip site (.fbexp site f) = true → ∃ t, exec (.fbexp site f) s = .next t ∧ enqueued 2 (op .fbexp f) site s t x) ∧
    (∀ f, issues s.chip site (.fr4 site f) = true → ∃ t, exec (.fr4 site f) s = .next t ∧ enqueued 2 (op .fr4 f) site s t x) ∧
    (∀ f, issues s.chip site (.fr2 site f) = true → ∃ t, exec (.fr2 site f) s = .next t ∧ enqueued 2 (op .fr2 f) site s t x) ∧
    (∀ f, issues s.chip site (.cld site f) = true → ∃ t, exec (.cld site f) s = .next t ∧
      enqueued 2 (own .cld [f.rd, addrRI x f 128]) site s t x) ∧
    (∀ f, issues s.chip site (.cst site f) = true → ∃ t, exec (.cst site f) s = .next t ∧
      enqueued 2 (own .cst [f.rd, addrRI x f 128]) site s t x) ∧
    (∀ f, issues s.chip site (.mvcv site f) = true → ∃ t, exec (.mvcv site f) s = .next t ∧
      enqueued 2 (own .mvcv [f.rd, f.ra]) site s t { x with busy := tmark x.busy (codeV f.rd) true }) ∧
    (∀ f, issues s.chip site (.mvvc site f) = true → ∃ t, exec (.mvvc site f) s = .next t ∧
      enqueued 2 { own .mvvc [f.rd] with vdat := rdV x f.ra % 2 ^ 1024, vpz := rdVm x f.ra % 2 ^ 16 } site s t x)

/-- A queue that has no room holds the bundle, and none of its slots has an effect (R194, R239). -/
def Clauses.FullQueueHolds : Prop :=
  ∀ (s : State) (site : Site) (c : Instr) (q : Nat), waitsFor s.chip site c ⟨.queue, q⟩ = true →
    ∃ t, exec c s = .next t ∧ strandOnly [] site.tile site.strand s t ∧
      strandOf t site = { strandOf s site with slots := [c], wait := some ⟨.queue, q⟩ }

/-- A pass as it runs (R264, R266, R267): element (i, j) of its node is the partial of row i of A and row j of B. The node
stands alone on the stack, or is pushed on it, or is drained to the banks as a record. -/
def Clauses.MatrixPassRuns : Prop :=
  ∀ (s : State) (tile : Nat) (o : EngOp), tile < 144 → runsNext s tile 0 o .mm = true →
    let a := opW o 0
    let tg := tagOf (opW o 2)
    let m := bitsOf a 49 43 + 1
    let n := bitsOf a 42 36 + 1
    let k := bitsOf a 35 24 + 1
    let no := stackNo (o.mode.testBit 5) (bitsOf o.mode 4 3)
    let st := getStack (getTile s.chip tile) no
    let ta := bitsOf (opW o 3) 21 0
    let da := bitsOf (opW o 1) 21 0
    let xa := readOperand tile (bitsOf a 57 54) k (operandLines (bitsOf a 57 54) k) m (bitsOf a 21 0) s.chip
    let xb := readOperand tile (bitsOf a 53 50) k (operandLines (bitsOf a 53 50) k) n (bitsOf (opW o 1) 43 22) xa.1
    let pass := fun (vals : List Elem) => vals.length = m * n ∧ ∀ i j, i < m → j < n → vals.getD (i * n + j) ⟨0, false⟩ =
      (dotPartial (bitsOf a 57 54) (bitsOf a 53 50) (xa.2.getD i ([], [])) (xb.2.getD j ([], []))).1
    mmPair (bitsOf a 57 54) (bitsOf a 53 50) = true → tg.kind = kindWanted (bitsOf a 57 54) (bitsOf a 53 50) →
    passTag tg k = 0 →
    (o.mode.testBit 1 = false → o.mode.testBit 2 = false →
      ∃ t vals, exec (.mmPassComplete tile) s = .next t ∧ engineOnly (engineRegs tile) tile s t ∧ opDone s t tile 0 o ∧
        pass vals ∧ getStack (getTile t.chip tile) no = [⟨tg, m, n, vals, false⟩]) ∧
    (o.mode.testBit 1 = false → o.mode.testBit 2 = true →
      (pushEnt true (st.map (fun e => { e with vals := [] })) ⟨tg, m, n, [], false⟩).1 = 0 →
      ∃ t vals, exec (.mmPassComplete tile) s = .next t ∧ engineOnly (engineRegs tile) tile s t ∧ opDone s t tile 0 o ∧
        pass vals ∧ getStack (getTile t.chip tile) no = (pushEnt true st ⟨tg, m, n, vals, false⟩).2.1) ∧
    (o.mode.testBit 1 = true → o.mode.testBit 2 = false → stripeFits da m = true → ta % 64 = 0 → da % 64 = 0 →
      ta ∉ dataLines da (kindWidth tg.kind) n m → wordsClean s tile ta 64 = true →
      (∀ i j, i < m → j < n → wordsClean s tile (stripeAddr da (kindWidth tg.kind) i j) (kindWidth tg.kind) = true) →
      tagOf (tagBits tg) = tg →
      ∃ t vals, exec (.mmPassComplete tile) s = .next t ∧ engineOnly (engineRegs tile) tile s t ∧ opDone s t tile 0 o ∧
        pass vals ∧ getStack (getTile t.chip tile) no = [] ∧
        ((∀ v ∈ vals, v.pz = false) →
          (readRec t.chip tile ta da).2 = some ⟨tg, n, m, false, ⟨0, false⟩, ⟨0, false⟩, vals⟩))

/-- An element-wise operation as it runs on the one root that a stack holds (R269): every element takes the operation
with its row's, its column's or the one operand, and the result stays held, final, or is drained to the banks. -/
def Clauses.MatrixElementwiseRuns : Prop :=
  ∀ (s : State) (tile : Nat) (o : EngOp) (e : StackEnt), tile < 144 → runsNext s tile 0 o .mew = true →
    let a := opW o 0
    let d := bitsOf (opW o 1) 21 0
    let axis := bitsOf a 47 46
    let no := stackNo (o.kc.testBit 4) (o.kc % 4)
    let len := if axis = 0 then e.n else if axis = 1 then e.m else 1
    let at' := fun k => if axis = 0 then k % e.n else if axis = 1 then k / e.n else 0
    let word := fun base k => (⟨leNat (bankBytes s tile (base + 4 * at' k) 4), false⟩ : Elem)
    let out := (List.range e.vals.length).map (fun k => (mewOp o.mode (e.vals.getD k ⟨0, false⟩)
      (word (bitsOf a 21 0) k) (word (bitsOf a 43 22) k)).1)
    getStack (getTile s.chip tile) no = [e] → tagIsRoot e.tag = true → e.tag.kind = 0 → e.vals.length = e.m * e.n →
    mewOk a (opW o 1) o.mode = true →
    (o.mode ≤ 4 → inBanks (bitsOf a 21 0) (4 * len) = true ∧ wordsClean s tile (bitsOf a 21 0) (4 * len) = true) →
    (o.mode = 2 → inBanks (bitsOf a 43 22) (4 * len) = true ∧ wordsClean s tile (bitsOf a 43 22) (4 * len) = true) →
    (bitOf (opW o 1) 22 = false →
      ∃ t, exec (.mewComplete tile) s = .next t ∧ engineOnly [] tile s t ∧ opDone s t tile 0 o ∧
        banksKept s t tile 0 0 ∧ getStack (getTile t.chip tile) no = [{ e with vals := out, final := true }]) ∧
    (bitOf (opW o 1) 22 = true → stripeFits d e.m = true → e.n ≤ 512 → (∀ v ∈ out, v.pz = false) →
      (∀ i j, i < e.m → j < e.n → wordsClean s tile (stripeAddr d 4 i j) 4 = true) →
      ∃ t, exec (.mewComplete tile) s = .next t ∧ engineOnly [] tile s t ∧ opDone s t tile 0 o ∧
        getStack (getTile t.chip tile) no = [] ∧
        ∀ i j, i < e.m → j < e.n →
          leNat (bankBytes t tile (stripeAddr d 4 i j) 4) = (out.getD (i * e.n + j) ⟨0, false⟩).v)

/-- Bankside operations as they run: `xld` fills the activation stage from the banks (R258), `bmv` leaves one node on
each set of its mask when no set continues (R271, R272), `kst` stores a set as a record, an empty one as a tag line (R273), and `kld`
gives a set the record that `kst` writes (R274). -/
def Clauses.BanksideOperationsRun : Prop :=
  ∀ (s : State) (tile : Nat) (o : EngOp), tile < 144 →
    (let a := opW o 0
      let len := bitsOf a 44 32
      runsNext s tile 1 o .xld = true → xldOk a (opW o 1) = true → wordsClean s tile (bitsOf a 21 0) len = true →
      ∃ t, exec (.xldComplete tile) s = .next t ∧ engineOnly [] tile s t ∧ opDone s t tile 1 o ∧ banksKept s t tile 0 0 ∧
        mread (getTile t.chip tile).act
          (actKey (bitsOf a 57 53) ((if bitOf a 52 then 4096 else 0) + bitsOf (opW o 1) 11 0)) len =
          bankBytes s tile (bitsOf a 21 0) len) ∧
    (let a := opW o 0
      let tg := tagOf (opW o 2)
      let g := tagSpan tg
      runsNext s tile 1 o .bmv = true → bmvPair (bitsOf a 57 54) (bitsOf a 53 50) = true →
      tg.kind = kindWanted (bitsOf a 57 54) (bitsOf a 53 50) → passTag tg (256 * (g.2 - g.1)) = 0 → g.1 % 16 = 0 →
      cdiv (g.2 - g.1) 8 = 1 + bitsOf a 45 45 → bitsOf (opW o 1) 55 32 = 0 →
      ∃ t, exec (.bmvComplete tile) s = .next t ∧ engineOnly (engineRegs tile) tile s t ∧ opDone s t tile 1 o ∧
        (∀ n, n < 24 → (bitsOf (opW o 1) 23 0).testBit n = false → getSet (getTile t.chip tile) n = getSet (getTile s.chip tile) n) ∧
        ∀ n, n < 24 → (bitsOf (opW o 1) 23 0).testBit n = true →
          (getSet (getTile t.chip tile) n).rowsM1 = bitsOf a 49 46 ∧
          ((getSet (getTile t.chip tile) n).nodes.map (fun k => (k.tag, k.vals.length))) = [(tg, 512)]) ∧
    (∀ k, runsNext s tile 1 o .kst = true → (getSet (getTile s.chip tile) o.kc).nodes = [k] →
      let w := opW o 0
      let r : PRec := ⟨k.tag, if k.tag.kind = 1 then 256 else 512, if k.tag.kind = 1 then 2 else 1, false, ⟨0, false⟩, ⟨0, false⟩,
        setRows k.tag.kind k.vals⟩
      kstOk w = true → k.tag.kind < 2 → secondLineBad k.tag.kind (bitsOf w 43 22) (bitsOf w 16 0) = false →
      tagOf (tagBits k.tag) = k.tag → k.vals.length = 512 → (∀ e ∈ k.vals, e.pz = false ∧ e.v < 2 ^ (8 * kindWidth k.tag.kind)) →
      ∃ t, exec (.kstComplete tile) s = .next t ∧ engineOnly [] tile s t ∧ opDone s t tile 1 o ∧
        (readRec t.chip tile (bitsOf w 43 22) (bitsOf w 16 0)).2 = some r ∧
        getSet (getTile t.chip tile) o.kc = if o.mode.testBit 0 then {} else getSet (getTile s.chip tile) o.kc) ∧
    (runsNext s tile 1 o .kst = true → (getSet (getTile s.chip tile) o.kc).nodes = [] → kstOk (opW o 0) = true →
      ∃ t, exec (.kstComplete tile) s = .next t ∧ engineOnly [] tile s t ∧ opDone s t tile 1 o ∧
        banksKept s t tile (bitsOf (opW o 0) 43 22) 64 ∧
        (readRec t.chip tile (bitsOf (opW o 0) 43 22) (bitsOf (opW o 0) 16 0)).2 =
          some ⟨tagOf 0, 512, 1, true, ⟨0, false⟩, ⟨0, false⟩, []⟩) ∧
    (∀ r, let w := opW o 0
      runsNext s tile 1 o .kld = true → (readRec s.chip tile (bitsOf w 43 22) (bitsOf w 16 0)).2 = some r → r.empty = false →
      (r.tag.kind = 0 ∧ r.cols = 512 ∧ r.rows = 1 ∨ r.tag.kind = 1 ∧ r.cols = 256 ∧ r.rows = 2) →
      ∃ t, exec (.kldComplete tile) s = .next t ∧ engineOnly (engineRegs tile) tile s t ∧ opDone s t tile 1 o ∧
        ((getSet (getTile t.chip tile) o.kc).nodes.map (fun k => (k.tag, setRows r.tag.kind k.vals))) = [(r.tag, r.vals)])

/-- Records combined: the parent's tag with the elementwise sums, the left node first (R262, R91), or the merged
attention partials (R263, R103); the record that the banks then hold reads back as that. `afinal` leaves o divided by l. -/
def Clauses.CombineOperationsRun : Prop :=
  ∀ (s : State) (tile : Nat) (o : EngOp) (a b : PRec), tile < 144 →
    let dt := bitsOf (opW o 2) 43 22
    let dd := bitsOf (opW o 2) 21 0
    let left := if tagALeft a.tag then a else b
    let right := if tagALeft a.tag then b else a
    let apart := fun w => overlapLines dt dd (bitsOf (opW o 0) 43 22) (bitsOf (opW o 0) 21 0) w a.cols a.rows = [] ∧
      overlapLines dt dd (bitsOf (opW o 1) 43 22) (bitsOf (opW o 1) 21 0) w a.cols a.rows = [] ∧
      dt ∉ dataLines dd w a.cols a.rows
    let sound := (∀ e ∈ a.vals ++ b.vals, e.pz = false) ∧ (readTwo s.chip tile o).2 = (some a, some b) ∧
      pcombOk (opW o 0) (opW o 1) (opW o 2) = true
    tagOf (tagBits (tagParent a.tag)) = tagParent a.tag →
    (runsNext s tile 3 o .pcomb = true → sound → combCheck [0, 1] dd a b = 0 → apart (kindWidth a.tag.kind) →
      ∃ t, exec (.pcombComplete tile) s = .next t ∧ engineOnly (engineRegs tile) tile s t ∧ opDone s t tile 3 o ∧
        (readRec t.chip tile dt dd).2 =
          some ⟨tagParent a.tag, a.cols, a.rows, false, ⟨0, false⟩, ⟨0, false⟩, (addLists a.tag.kind left.vals right.vals).1⟩) ∧
    (runsNext s tile 3 o .amerge = true → sound → combCheck [2] dd a b = 0 → apart 4 →
      a.m.pz = false → a.l.pz = false → b.m.pz = false → b.l.pz = false →
      let v := (attMerge ⟨left.m, left.l, left.vals⟩ ⟨right.m, right.l, right.vals⟩).1
      ∃ t, exec (.amergeComplete tile) s = .next t ∧ engineOnly (engineRegs tile) tile s t ∧ opDone s t tile 3 o ∧
        (readRec t.chip tile dt dd).2 = some ⟨tagParent a.tag, a.cols, 1, false, v.m, v.l, v.o⟩) ∧
    (let d := bitsOf (opW o 1) 21 0
      let v := attFinal ⟨a.m, a.l, a.vals⟩
      runsNext s tile 3 o .afinal = true → (readRec s.chip tile (bitsOf (opW o 0) 43 22) (bitsOf (opW o 0) 21 0)).2 = some a →
      a.tag.kind = 2 → a.empty = false → tagIsRoot a.tag = true → d % 4 = 0 → inBanks d (4 * a.cols) = true →
      (∀ e ∈ v.1, e.pz = false) → v.2.2 = false → wordsClean s tile d (4 * a.cols) = true →
      ∃ t, exec (.afinalComplete tile) s = .next t ∧ engineOnly (engineRegs tile) tile s t ∧ opDone s t tile 3 o ∧
        banksKept s t tile d (4 * a.cols) ∧
        ∀ j, j < a.cols → leNat (bankBytes t tile (d + 4 * j) 4) = (v.1.getD j ⟨0, false⟩).v)

/-- Fuller operations as they run (R81, R277, R278): streams are read before the destination is written, samples are
shifted, rounded and brought to 16 bits, and the counter is decremented. -/
def Clauses.FullerOperationsRun : Prop :=
  ∀ (s : State) (tile : Nat) (o : EngOp), tile < 144 →
    let f := fulOf o
    let A := sampleAt s tile f.a
    let B := sampleAt s tile f.b
    let clean := streamClean s tile f.a (f.n + f.taps - 1) && streamClean s tile f.b (max f.n (3 * f.span)) &&
      streamClean s tile f.c f.n && streamClean s tile f.d f.n
    let inside := streamOk f.d f.n
    let out := fun (t : State) (l : List CVal) => engineOnly (engineRegs tile) tile s t ∧ opDone s t tile 2 o ∧
      streamIs t tile f.d (l.map (fun c => (writeBack f.sat f.shift c).1))
    let b := fun k => if f.conj then cConj (B k) else B k
    let tap := fun k => let c := (readC (getTile s.chip tile) o.kc).getD k ⟨0, 0, false⟩; if f.conj then cConj c else c
    clean = true → inside = true → f.bexp = false →
    (runsNext s tile 2 o .fcmul = true → ∃ t, exec (.fullerOpComplete tile) s = .next t ∧
      out t ((List.range f.n).map (fun k =>
        if f.low then cAdd (cMul (A k) (b k)) (cShl (sampleAt s tile f.c k) f.shift) else cMul (A k) (b k)))) ∧
    (runsNext s tile 2 o .fmag2 = true → ∃ t, exec (.fullerOpComplete tile) s = .next t ∧
      out t ((List.range f.n).map (fun k => ⟨(A k).i * (A k).i + (A k).q * (A k).q, 0, false⟩))) ∧
    (runsNext s tile 2 o .ffir = true → ∃ t, exec (.fullerOpComplete tile) s = .next t ∧
      out t ((List.range f.n).map (fun k =>
        (List.range f.taps).foldl (fun v j => cAdd v (cMul (tap j) (A (k + f.taps - 1 - j)))) ⟨0, 0, false⟩))) ∧
    (f.apply = false → runsNext s tile 2 o .fr2 = true → ∃ t, exec (.fullerOpComplete tile) s = .next t ∧
      engineOnly (engineRegs tile) tile s t ∧ opDone s t tile 2 o ∧
      streamIs t tile f.d ((radix2 f.n f.span A B).map (fun c => (writeBack f.sat (14 + f.shift) c).1))) ∧
    (f.apply = false → runsNext s tile 2 o .fr4 = true → ∃ t, exec (.fullerOpComplete tile) s = .next t ∧
      engineOnly (engineRegs tile) tile s t ∧ opDone s t tile 2 o ∧
      streamIs t tile f.d ((radix4 f.inv f.n f.span A B).map (fun c => (writeBack f.sat (14 + f.shift) c).1)))

/-- The Fuller operations on its own registers as they run (R80, R82, R256, R257, R277): lane accumulators, block
exponents, c registers, and `mvcv`, which ends the pending write of vd. -/
def Clauses.FullerRegistersRun : Prop :=
  ∀ (s : State) (tile : Nat) (o : EngOp), tile < 144 →
    let f := fulOf o
    let y := getTile s.chip tile
    let gone := fun (t : State) => queueOf (getTile t.chip tile) 2 = (queueOf y 2).erase o
    let prod := fun k => cMul (sampleAt s tile f.a k) (if f.conj then cConj (sampleAt s tile f.b k) else sampleAt s tile f.b k)
    let held := (List.range 32).map (fun k => (⟨(getLane y k).i, (getLane y k).q, (getLane y k).pz⟩ : CVal))
    (runsNext s tile 2 o .fcmac = true → streamClean s tile f.a f.n = true → streamClean s tile f.b f.n = true →
      ∃ t, exec (.fullerOpComplete tile) s = .next t ∧ engineOnly (engineRegs tile) tile s t ∧ opDone s t tile 2 o ∧
        banksKept s t tile 0 0 ∧ ∀ k, k < 32 → getLane (getTile t.chip tile) k =
          ((List.range f.n).filter (fun j => j % 32 == k)).foldl (fun l j => (laneAdd f.sat l (prod j)).1) (getLane y k)) ∧
    (runsNext s tile 2 o .fwb = true → f.low = false → f.bexp = false → streamOk f.d 32 = true →
      (∀ k, k < 32 → (getLane y k).pz = false) →
      ∃ t, exec (.fullerOpComplete tile) s = .next t ∧ engineOnly (engineRegs tile) tile s t ∧ opDone s t tile 2 o ∧
        (∀ k, getLane (getTile t.chip tile) k = {}) ∧
        streamIs t tile f.d (held.map (fun c => (writeBack f.sat f.shift c).1))) ∧
    (runsNext s tile 2 o .fwb = true → f.low = true → f.bexp = false →
      ∃ t, exec (.fullerOpComplete tile) s = .next t ∧ engineOnly (engineRegs tile) tile s t ∧ opDone s t tile 2 o ∧
        banksKept s t tile 0 0 ∧ (∀ k, getLane (getTile t.chip tile) k = {}) ∧
        ∀ k, k < 32 → (readC (getTile t.chip tile) o.kc).getD k ⟨0, 0, false⟩ =
          (writeBack f.sat f.shift (held.getD k ⟨0, 0, false⟩)).1) ∧
    (runsNext s tile 2 o .fbexp = true → streamClean s tile f.a f.n = true → wordsClean s tile f.e 8 = true → f.e % 8 = 0 →
      inBanks f.e 8 = true → ∃ t, exec (.fullerOpComplete tile) s = .next t ∧ engineOnly (engineRegs tile) tile s t ∧
        opDone s t tile 2 o ∧ banksKept s t tile f.e 1 ∧
        leNat (bankBytes t tile f.e 1) = (blockExp ((List.range f.n).map (sampleAt s tile f.a))).v) ∧
    (runsNext s tile 2 o .cld = true → wordsClean s tile (opW o 1) 128 = true → opW o 1 % 128 = 0 →
      ∃ t, exec (.fullerOpComplete tile) s = .next t ∧ engineOnly [] tile s t ∧ gone t ∧ banksKept s t tile 0 0 ∧
        (tget (fun _ => (0#1024 : CWord)) (getTile t.chip tile).c (opW o 0)).toNat = leNat (bankBytes s tile (opW o 1) 128) ∧
        (tget (fun _ => (0#32 : BitVec 32)) (getTile t.chip tile).cm (opW o 0)) = 0#32) ∧
    (runsNext s tile 2 o .cst = true → opW o 1 % 128 = 0 →
      (tget (fun _ => (0#32 : BitVec 32)) y.cm (opW o 0)) = 0#32 →
      ∃ t, exec (.fullerOpComplete tile) s = .next t ∧ engineOnly [] tile s t ∧ gone t ∧
        banksKept s t tile (opW o 1) 128 ∧
        leNat (bankBytes t tile (opW o 1) 128) = (tget (fun _ => (0#1024 : CWord)) y.c (opW o 0)).toNat) ∧
    (runsNext s tile 2 o .mvcv = true → (tget (fun _ => (0#32 : BitVec 32)) y.cm (opW o 1)) = 0#32 → o.strand < 8 →
      ∃ t, exec (.fullerOpComplete tile) s = .next t ∧ engineOnly [] tile s t ∧ gone t ∧ banksKept s t tile 0 0 ∧
        rdV (getStrand t.chip tile o.strand) (opW o 0) = (tget (fun _ => (0#1024 : CWord)) y.c (opW o 1)).toNat ∧
        tmem (getStrand t.chip tile o.strand).busy (codeV (opW o 0)) = false) ∧
    (runsNext s tile 2 o .mvvc = true → ∃ t, exec (.fullerOpComplete tile) s = .next t ∧ engineOnly [] tile s t ∧ gone t ∧
      banksKept s t tile 0 0 ∧ (tget (fun _ => (0#1024 : CWord)) (getTile t.chip tile).c (opW o 0)).toNat = o.vdat % 2 ^ 1024)

/-- Mover operations as they run: a transposing copy (R259), and pieces sent to the collector with the bytes of the banks
(R280) or their statistics (R281). -/
def Obligations.MoverOperationsRun : Prop :=
  ∀ (s : State) (tile : Nat) (o : EngOp), tile < 144 →
    let a := opW o 0
    let b := opW o 1
    let tapped := fun (t : State) w d =>
      t.chip.taps = s.chip.taps ++ [⟨s.chip.nextId, tileSet s.chip tile, w, d⟩] ∧ t.chip.nextId = s.chip.nextId + 1 ∧
        engineOnly (engineRegs tile) tile { s with chip := { s.chip with taps := t.chip.taps, nextId := t.chip.nextId } } t
    (let w := mvtBits a
      let rows := bitsOf a 55 44 + 1
      let cols := bitsOf b 55 44 + 1
      let rowBits := cols * w
      runsNext s tile 4 o .mvt = true → mvtOk a b = true →
      (∀ r, r < rows → wordsClean s tile (bitsOf a 43 22 + r * bitsOf b 43 22) (rowBits / 8) = true) →
      (∀ c, c < cols → wordsClean s tile (bitsOf a 21 0 + c * bitsOf b 21 0) (rows * w / 8) = true) →
      (rows * w / 8 ≤ bitsOf b 21 0 ∨ cols = 1) →
      ∃ t, exec (.mvtComplete tile) s = .next t ∧ engineOnly [] tile s t ∧ opDone s t tile 4 o ∧
        ∀ r c, r < rows → c < cols →
          lane w (leNat (bankBytes t tile (bitsOf a 21 0 + c * bitsOf b 21 0) (rows * w / 8))) r =
          lane w (leNat (bankBytes s tile (bitsOf a 43 22 + r * bitsOf b 43 22) (rowBits / 8))) c) ∧
    (runsNext s tile 4 o .dtap = true → wordsClean s tile (bitsOf a 21 0) (bitsOf b 21 0) = true → 0 < bitsOf b 21 0 →
      ∃ t, exec (.dtapComplete tile) s = .next t ∧ opDone s t tile 4 o ∧ banksKept s t tile 0 0 ∧
        tapped t (bitsOf b 63 48) (.digest (bitsOf b 47 24) (bitOf b 23)
          (bankBytes s tile (bitsOf a 21 0) (bitsOf b 21 0)) false)) ∧
    (let n := bitsOf b 31 0
      let c := bitsOf a 57 54
      let bits := leNat (bankBytes s tile (bitsOf a 21 0) (canonBytes c n))
      let acc := (List.range n).foldl (fun st j => statElem c st (pieceElem c bits (fun _ => false) j))
        ⟨0x7F800000, 0xFF800000, 0, 0, 0, false, []⟩
      let groups := chunks256 (n / 256 + 1) acc.leaves.reverse
      runsNext s tile 4 o .stap = true → c ≤ 9 → (tagOf (opW o 2)).kind = 0 → passTag (tagOf (opW o 2)) n = 0 →
      wordsClean s tile (bitsOf a 21 0) (canonBytes c n) = true →
      ∃ t, exec (.stapComplete tile) s = .next t ∧ opDone s t tile 4 o ∧ banksKept s t tile 0 0 ∧
        tapped t (bitsOf a 53 38) (.stats (tagOf (opW o 2)) acc.min acc.max acc.nfin acc.nnan acc.ninf
          (tree 0 (groups.map (fun g => (tree 0 g).1))).1.v false))

/-- An operation refused when it runs: it leaves its queue with nothing written and its counter as it was, the code is
the tile's status and reaches the strand as an asynchronous fault; arithmetic codes are logged (R115, R117, R228, R240). -/
def Clauses.OperationsRefused : Prop :=
  ∀ (s : State) (tile : Nat) (o : EngOp), tile < 144 → o.strand < 8 →
    let quiet := fun (t : State) => engineOnly [aTILE_STATUS tile, aARITH_FAULT_LOG] tile s t ∧ banksKept s t tile 0 0 ∧
      fget t.chip aARITH_FAULT_LOG 39 32 ≤ 0x05
    (runsNext s tile 0 o .mm = true → mmPair (bitsOf (opW o 0) 57 54) (bitsOf (opW o 0) 53 50) = false →
      o.mode.testBit 2 = false → ∃ t, exec (.mmPassComplete tile) s = .next t ∧ quiet t ∧
        (opRefused s t tile 0 o 0x01 0x7006 ∧ fget t.chip aARITH_FAULT_LOG 63 32 = 0x7006 * 2 ^ 16 + tile * 2 ^ 8 + 0x01)) ∧
    (∀ st, runsNext s tile 0 o .mew = true → getStack (getTile s.chip tile) (stackNo (o.kc.testBit 4) (o.kc % 4)) = st →
      st.length ≠ 1 → ∃ t, exec (.mewComplete tile) s = .next t ∧ quiet t ∧ opRefused s t tile 0 o 0x01 0x7009) ∧
    (runsNext s tile 1 o .kst = true → 2 ≤ (getSet (getTile s.chip tile) o.kc).nodes.length →
      ∃ t, exec (.kstComplete tile) s = .next t ∧ quiet t ∧ opRefused s t tile 1 o 0x02 0x7001)

-- Messages between tiles (R186, R216 to R222, R228) --------------------------------------------------------

/-- `send` at issue: the words are read, the message is on its way with the next number, and its entry stands in the
mover's queue (R216, R217, R222). -/
def Clauses.SendLeaves : Prop :=
  ∀ (s : State) (site : Site) (f : FmtD), let x := strandOf s site
    let a := rdS x f.sa
    let b := rdS x f.sb
    let dst := (physOf s.chip (tilePart s.chip site.tile) (bitsOf a 47 40))
    issues s.chip site (.send site f) = true → wordsClean s site.tile (bitsOf b 21 0) (bitsOf b 44 32) = true →
    ∃ t, exec (.send site f) s = .next t ∧ t.chip.nextId = s.chip.nextId + 1 ∧ strandOf t site = advance .fall x ∧
      t.chip.flights = s.chip.flights ++ [⟨s.chip.nextId, site.tile, site.strand, dst.getD 0xFF, dst.isNone, bitsOf a 37 32,
        bitsOf a 21 0, bitsOf b 21 0, bitsOf b 29 24, f.fn,
        (List.range (bitsOf b 44 32 / 8)).map (fun j => ⟨leNat (bankBytes s site.tile (bitsOf b 21 0 + 8 * j) 8), false⟩),
        false, false, false⟩] ∧
      (getTile t.chip site.tile).qMov = (getTile s.chip site.tile).qMov ++
        [{ kind := .send, strand := site.strand, w := [s.chip.nextId] }] ∧
      (∀ k, k ≠ site.tile → getTile t.chip k = getTile s.chip k) ∧ banksKept s t site.tile 0 0 ∧
      (∀ k, k ≠ skey site.tile site.strand → tget (fun _ => {}) t.chip.strands k = tget (fun _ => {}) s.chip.strands k) ∧
      ∀ k, k ∉ (List.range 16).map aBW_STATUS → barGet t.chip k = barGet s.chip k

/-- A message that arrives is written whole, decrements the counter it names unless NRC is set, and its acknowledgement
decrements the sender's counter (R218, R220, R222); refused, it writes nothing and the sender's strand gets the code with
LADDR (R221). -/
def Clauses.SendEnds : Prop :=
  ∀ (s : State) (id : Nat) (f : Flight), findFlight s.chip id = some f → (s.chip.flights.filter (fun g => g.id == id)) = [f] →
    f.src < 144 → f.strand < 8 → tileQuiet s.chip f.src = true → tileQuiet s.chip f.dst = true → f.cut = false →
    let rest := s.chip.flights.filter (fun g => g.id != id)
    (f.arrived = false → f.dst < 144 → earlierSend s.chip f = false → sendCode s.chip f = 0 → f.raddr % 8 = 0 →
      (∀ w ∈ f.words, w.pz = false ∧ w.v < 2 ^ 64) →
      ∃ t, exec (.sendArrival id) s = .next t ∧ banksKept s t f.dst f.raddr (8 * f.words.length) ∧
        (∀ j, j < f.words.length → leNat (bankBytes t f.dst (f.raddr + 8 * j) 8) = (f.words.getD j ⟨0, false⟩).v) ∧
        acGet t.chip f.dst f.rcnt = (if f.fn.testBit 1 then acGet s.chip f.dst f.rcnt
          else max (-2147483648) (min 2147483647 (acGet s.chip f.dst f.rcnt - 1))) ∧
        (∀ n, n ≠ f.rcnt → acGet t.chip f.dst n = acGet s.chip f.dst n) ∧ t.chip.bar = s.chip.bar ∧
        t.chip.strands = s.chip.strands ∧
        (∀ k, k ≠ f.dst → k ≠ f.src → getTile t.chip k = getTile s.chip k) ∧
        t.chip.flights = if f.fn.testBit 2 then rest
          else s.chip.flights.map (fun g => if g.id == id then { g with arrived := true } else g)) ∧
    (f.arrived = true → f.acked = false → (tileDie f.src = tileDie f.dst ∨ knuckleOpen s.chip = true) →
      ∃ t, exec (.sendAckArrival id) s = .next t ∧ t.chip.flights = rest ∧ tileOnly f.src { s with chip := { s.chip with flights := rest } } t ∧
        acGet t.chip f.src f.lcnt = max (-2147483648) (min 2147483647 (acGet s.chip f.src f.lcnt - 1))) ∧
    (f.arrived = false → f.acked = false → sendCode s.chip f ≠ 0 →
      ∃ t, exec (.sendRefused id) s = .next t ∧ t.chip.flights = rest ∧
        fget t.chip (aTILE_STATUS f.src) 63 48 = sendCode s.chip f ∧
        (getStrand t.chip f.src f.strand).pend = (getStrand s.chip f.src f.strand).pend ++ [⟨sendCode s.chip f, 0x05, f.laddr⟩] ∧
        (∀ k n, mget (getTile t.chip k).mem n = mget (getTile s.chip k).mem n) ∧ ∀ k n, acGet t.chip k n = acGet s.chip k n)

/-- An asynchronous fault is taken with the lowest pending code and the others are dropped (R228); with fmode 1 the
strand goes on at fvec, at a bundle boundary of its own, with its wait abandoned (R230, R231). -/
def Clauses.AsyncFaultIsTaken : Prop :=
  ∀ (s : State) (tile strand : Nat) (g : AFault), let x := getStrand s.chip tile strand
    tile < 144 → strand < 8 → strandRuns s.chip tile strand = true → g ∈ x.pend → (∀ h ∈ x.pend, g.code ≤ h.code) →
    (∀ h ∈ x.pend, h.code = g.code → h = g) → g.code < 2 ^ 16 → g.unit < 2 ^ 8 →
    x.fmode = true → x.handler = false → (∀ j, j ≠ strand → (getStrand s.chip tile j).wait ≠ some ⟨.loopCache, 0⟩) →
    ∃ t, exec (.asyncFaultTaken tile strand) s = .next t ∧ strandOnly [aTILE_STATUS tile] tile strand s t ∧
      fget t.chip (aTILE_STATUS tile) 63 48 = g.code ∧
      getStrand t.chip tile strand = { x with pend := [], slots := [], wait := none, timedOut := false
                                              fcode := BitVec.ofNat 16 g.code
                                              finfo := BitVec.ofNat 64 (g.unit * 2 ^ 40 + 0xFF * 2 ^ 32 + g.addr % 2 ^ 22)
                                              fpc := BitVec.ofNat 18 x.pc, pc := x.fvec.toNat, handler := true }

-- Fabric instructions (R565, R574 to R578, R585 to R589) ---------------------------------------------------

/-- Loads, stores and atomics on a near rank send one request with the address's target part, in the next sequence
number of its destination; a load and an atomic leave their register with a pending write (R576). -/
def Clauses.FabricWordRequests : Prop :=
  ∀ (s : State) (site : Site), let x := strandOf s site
    let p := tilePart s.chip site.tile
    let o := strandOwner s.chip site.tile site.strand
    let near := fun a => (rankDev s.chip p (faRank a)).2 = false ∧ accepts s.chip (rankDev s.chip p (faRank a)).1 = true
    let sent := fun (t : State) a (r : FReq) => requestSent s t
      { r with dest := (rankDev s.chip p (faRank a)).1, rank := faRank a }
    let hold := fun rd => { x with busy := tmark x.busy (codeS rd) (decide (rd ≠ 0)) }
    (∀ f, let a := addrRI x f 8
      issues s.chip site (.fld site f) = true → near a → ∃ t, exec (.fld site f) s = .next t ∧
        fabricWent site s t (hold f.rd) ∧
        sent t a { mkReq o 0 (faTarget a) [] 0 false with operand := 8, rd := some f.rd }) ∧
    (∀ f, let a := addrRI x f 8
      issues s.chip site (.fst site f) = true → near a → ∃ t, exec (.fst site f) s = .next t ∧ fabricWent site s t x ∧
        sent t a (mkReq o 1 (faTarget a) (leBytes 8 (rdS x f.rd)) (wordMark (rdSm x f.rd)) true)) ∧
    (∀ f, let a := rdS x f.ra
      issues s.chip site (.famo site f) = true → near a → ∃ t, exec (.famo site f) s = .next t ∧
        fabricWent site s t (hold f.rd) ∧
        sent t a { mkReq o (0x10 + f.fn) (faTarget a) [] (b2n (rdSm x f.rb)) true with operand := rdS x f.rb, rd := some f.rd }) ∧
    (∀ f, let a := rdS x f.ra
      issues s.chip site (.fcas site f) = true → near a → ∃ t, exec (.fcas site f) s = .next t ∧
        fabricWent site s t (hold f.rd) ∧
        sent t a { mkReq o 0x20 (faTarget a) [] (b2n (rdSm x f.rb)) true with
          operand := rdS x f.rb, expect := rdS x f.rd, rd := some f.rd })

/-- On a far rank a load is served by a granule that its strand holds, and a store is gathered while fewer than 512
stores wait for its destination (R589). -/
def Clauses.FabricFarWords : Prop :=
  ∀ (s : State) (site : Site), let x := strandOf s site
    let p := tilePart s.chip site.tile
    let o := strandOwner s.chip site.tile site.strand
    (∀ f g, let a := addrRI x f 8
      issues s.chip site (.fld site f) = true →
      s.chip.fab.granules.find? (fun q => q.owner == o && q.rank == faRank a && q.addr == faTarget a - faTarget a % 256) = some g →
      ∃ t, exec (.fld site f) s = .next t ∧ t.chip.fab = s.chip.fab ∧
        fabricWent site s t (wrS x f.rd (leNat ((g.data.drop (faTarget a % 256)).take 8))
          (markAt g.poison (faTarget a % 256)))) ∧
    (∀ f, let a := addrRI x f 8
      issues s.chip site (.fst site f) = true → (rankDev s.chip p (faRank a)).2 = true →
      ((s.chip.fab.gathers.filter (fun g => g.part == o.part && g.rank == faRank a)).length < 511) →
      ∃ t, exec (.fst site f) s = .next t ∧ fabricWent site s t x ∧
        t.chip.fab = { s.chip.fab with gathers := s.chip.fab.gathers ++
          [⟨o.part, faRank a, o, faTarget a, leBytes 8 (rdS x f.rd), rdSm x f.rd⟩] })

/-- Copies, multicasts and contributions with no gathered store in their way: one operation with the next number, and one
request for each piece and destination, in ascending order of the pieces (R577, R582, R585, R586). -/
def Obligations.FabricBulkRequests : Prop :=
  ∀ (s : State) (site : Site) (f : FmtD), let x := strandOf s site
    let a := rdS x f.sa
    let r := rdS x (f.sa + 1)
    let b := rdS x f.sb
    let len := bitsOf b 21 0
    let o := strandOwner s.chip site.tile site.strand
    let ps := copyPieces (faTarget r) len
    let k := copyCnts a r b f.fn
    let n := s.chip.fab.nextOp
    let members := groupRanks s.chip (tilePart s.chip site.tile) (faRank r)
    let part := fun off m => bankBytes s site.tile (bitsOf a 21 0 + off) m
    let cnt := fun (q : Nat × Nat) => if q.1 + q.2 = len then k.1 else none
    s.chip.fab.gathers = [] →
    (issues s.chip site (.fcopy site f) = true → f.fn.testBit 0 = false → wordsClean s site.tile (bitsOf a 21 0) len = true →
      ∃ t, exec (.fcopy site f) s = .next t ∧ fabricWent site s t x ∧ t.chip.fab.nextOp = n + 1 ∧
        t.chip.fab.ops = s.chip.fab.ops ++ [⟨n, o, 0, ps.length, 0, k.2, bitsOf a 21 0, 0, []⟩] ∧
        (opRequests s t n).map (fun q => (q.kind, q.addr, q.data, q.poison, q.cnt, q.rank)) =
          ps.map (fun q => (1, faTarget r + q.1, part q.1 q.2, 0, cnt q, faRank r))) ∧
    (issues s.chip site (.fcopy site f) = true → f.fn.testBit 0 = true →
      ∃ t, exec (.fcopy site f) s = .next t ∧ fabricWent site s t x ∧ t.chip.fab.nextOp = n + 1 ∧
        t.chip.fab.ops = s.chip.fab.ops ++ [⟨n, o, 1, ps.length, 0, k.2, bitsOf a 21 0, 0, []⟩] ∧
        (opRequests s t n).map (fun q => (q.kind, q.addr, q.operand, q.off, q.rank)) =
          ps.map (fun q => (0, faTarget r + q.1, q.2, q.1, faRank r))) ∧
    (issues s.chip site (.fmcast site f) = true → wordsClean s site.tile (bitsOf a 21 0) len = true →
      ∃ t, exec (.fmcast site f) s = .next t ∧ fabricWent site s t x ∧ t.chip.fab.nextOp = n + 1 ∧
        t.chip.fab.ops = s.chip.fab.ops ++
          [⟨n, o, 2, ps.length * members.length, 0, k.2, bitsOf a 21 0, faRank r, members.map (fun m => (m, 0, true))⟩] ∧
        ∀ m q, m ∈ members → q ∈ ps → ∃ e ∈ opRequests s t n, (e.kind, e.rank, e.addr, e.data, e.cnt) =
          (0x30, m, faTarget r + q.1, part q.1 q.2, cnt q)) ∧
    (∀ rec, issues s.chip site (.fred site f) = true →
      (readRec s.chip site.tile (bitsOf a 43 22) (bitsOf a 21 0)).2 = some rec →
      let onto := groupRanks s.chip (tilePart s.chip site.tile)
        (if f.fn = 1 ∨ bitsOf b 59 48 = 0xFFF then bitsOf r 59 48 else bitsOf b 59 48)
      ∃ t, exec (.fred site f) s = .next t ∧ t.chip.fab.nextOp = n + 1 ∧ strandOf t site = advance .fall x ∧
        t.chip.fab.ops = s.chip.fab.ops ++ [⟨n, o, 3, onto.length, 0, none, 0, bitsOf r 59 48, []⟩] ∧
        (opRequests s t n).map (fun e => (e.kind, e.rank, e.data)) = (List.range onto.length).map (fun i =>
          (0x40 + f.fn, onto.getD i 0, (recBytes (if f.fn = 1 then sliceOf rec onto.length i else rec)).map (·.1))))

-- BAR0 (R20 to R24, R540) ----------------------------------------------------------------------------------

/-- An access of BAR0 that no register answers, or whose size or alignment BAR0 does not accept, is counted in RAS_STATUS
and nothing else changes; a read answers all ones (R24). -/
def Obligations.RefusedAccesses : Prop :=
  ∀ (s : State) (fn addr size : Nat) (data : Word), fn < 64 →
    accessOk addr size = false ∨ barRow s.chip fn (addr / 8 * 8) = none →
    (∃ t, exec (.registerWrite fn addr size data) s = .next t ∧ regsOnly [aRAS_STATUS] s t ∧
      fget t.chip aRAS_STATUS 31 0 = min (fget s.chip aRAS_STATUS 31 0 + 1) (2 ^ 32 - 1) ∧
      fget t.chip aRAS_STATUS 63 32 = fget s.chip aRAS_STATUS 63 32) ∧
    (∃ t, exec (.registerReadSideEffect fn addr size) s = .next t ∧
      regsOnly [aRAS_STATUS] { s with chip := { s.chip with resp := t.chip.resp } } t ∧
      (size ≤ 8 → t.chip.resp.toNat = 2 ^ (8 * size) - 1) ∧
      fget t.chip aRAS_STATUS 31 0 = min (fget s.chip aRAS_STATUS 31 0 + 1) (2 ^ 32 - 1))

/-- A register written in two halves takes the whole value with the second, and the first half alone changes no register
(R23). -/
def Obligations.HalvesMakeAWhole : Prop :=
  ∀ (s : State) (fn addr : Nat) (lo hi : Word), fn < 64 → addr % 8 = 0 → lo.toNat < 2 ^ 32 → hi.toNat < 2 ^ 32 →
    ∃ t, exec (.registerWrite fn addr 4 lo) s = .next t ∧
      (∀ k, k ≠ aRAS_STATUS → barGet t.chip k = barGet s.chip k) ∧
      ((barRow s.chip fn addr).isSome = true → t.chip.bar = s.chip.bar ∧
        ∀ u, exec (.registerWrite fn addr 8 (BitVec.ofNat 64 (hi.toNat * 2 ^ 32 + lo.toNat))) { s with chip := setHold s.chip fn addr none } = .next u →
          exec (.registerWrite fn (addr + 4) 4 hi) t = .next u)

/-- A register of plain fields takes the value written to its RW fields and keeps its reserved bits, and nothing else
changes (R20, R22); it reads back as it stands. -/
def Clauses.PlainRegistersHoldWhatIsWritten : Prop :=
  ∀ (s : State) (a : Nat) (r : RegRow) (data : Word), a ∈ [aPART_ARG0, aPART_ARG1, aTR_TRIG, aTR_DRAIN, aSNAP_ADDR, aHEALTH_CFG] →
    barRow s.chip 0 a = some r →
    ∃ t, exec (.registerWrite 0 a 8 data) s = .next t ∧ (∀ k, k ≠ a → barGet t.chip k = barGet s.chip k) ∧
      barGet t.chip a = Nat.lor (Nat.land (barGet s.chip a) (2 ^ 64 - 1 - accMask r .rw)) (Nat.land data.toNat (accMask r .rw)) ∧
      t = { pending := s.pending, chip := { s.chip with bar := t.chip.bar, latch := t.chip.latch, hold := t.chip.hold } } ∧
      ∃ u, exec (.registerReadSideEffect 0 a 8) t = .next u ∧ u.chip.resp.toNat = barGet t.chip a

/-- A virtual function sees the identity block, its queue registers and its Hasp window; every other address is refused
(R24, R540). -/
def Clauses.VirtualFunctionsSeeTheirOwn : Prop :=
  ∀ (s : State) (fn addr : Nat), 0 < fn → fn < 64 → 0x100000 ≤ addr →
    addr ∉ [aQM_DOORBELL, aQM_CMD, aQM_QSTATUS] → ¬ (aQM_STAGE 0 ≤ addr ∧ addr ≤ aQM_STAGE 7) →
    ¬ (0x00108000 ≤ addr ∧ addr < 0x00108100) → addr % 8 = 0 →
    ∀ data, ∃ t, exec (.registerWrite fn addr 8 data) s = .next t ∧ regsOnly [aRAS_STATUS] s t

-- Mesh and tile control (R42, R48, R122 to R128, R158 to R173, R184 to R186, R717) --------------------------

/-- A flit sent again is counted, and a link is marked when a flit fails twice running; a link inside a die that fails
64 times running is fatal (R42, R48, R637). -/
def Clauses.FlitResends : Prop :=
  ∀ (s : State) (link : Nat) (again : Bool), linkOf link ≠ .none →
    let n := if again then tget (fun _ => 0) s.chip.mesh.fails link + 1 else 1
    (n < 64 ∨ (∀ tile, linkOf link ≠ .die tile) → ∃ t, exec (.meshFlitResend link again) s = .next t ∧ countedOne s t aMESH_STATUS 15 0 ∧
      chipOnly [aMESH_STATUS, aRAS_LINKMARK] s t (fun c => { c with mesh := t.chip.mesh }) ∧
      tget (fun _ => 0) t.chip.mesh.fails link = n ∧
      tmem t.chip.mesh.marked link = (tmem s.chip.mesh.marked link || decide (2 ≤ n))) ∧
    (∀ tile, 64 ≤ n → linkOf link = .die tile → ∃ t, exec (.meshFlitResend link again) s = .next t ∧
      fget t.chip aSEC_STATUS 3 0 = 0xF ∧ fbit t.chip aRAS_STATUS 63 = true ∧ fget t.chip aRAS_STATUS 59 56 = 2 ∧
      fget t.chip aRAS_STATUS 55 48 = tile % 256)

/-- The governor counts a frame as throttled exactly when the three engines would draw more than the limit (R164, R166);
its limit is kept from 25 to 125, and unchanged on a tile of the hard reserve (R166, R170). -/
def Clauses.GovernorFrames : Prop :=
  ∀ (s : State) (tile : Nat), tile < 144 →
    (∀ rf rm rb um ub, ∃ t, exec (.governorFrame tile rf rm rb um ub) s = .next t ∧ regsOnly [aTILE_GOV tile] s t ∧
      (25 * rf + um * rm + ub * rb ≤ 4 * fget s.chip (aTILE_GOV tile) 15 8 → t = s) ∧
      (4 * fget s.chip (aTILE_GOV tile) 15 8 < 25 * rf + um * rm + ub * rb → countedOne s t (aTILE_GOV tile) 63 32)) ∧
    ∀ data, ∃ t, exec (.tileGovWrite tile data) s = .next t ∧ regsOnly [aTILE_GOV tile] s t ∧
      fget t.chip (aTILE_GOV tile) 0 0 = data.toNat % 2 ∧
      fget t.chip (aTILE_GOV tile) 63 32 = fget s.chip (aTILE_GOV tile) 63 32 ∧
      fget t.chip (aTILE_GOV tile) 15 8 = if hardReserve s.chip tile then fget s.chip (aTILE_GOV tile) 15 8
        else max 25 (min 125 (bitsOf data.toNat 15 8))

/-- Bank upkeep: a queued correction is written back without a change of data (R123), the scrubber passes a sound line by
(R126), and a promoted grant is counted (R128). -/
def Clauses.BankUpkeep : Prop :=
  ∀ (s : State) (tile bank : Nat), tile < 144 → bank < 32 → let y := getTile s.chip tile
    let n := tget (fun _ => 0) y.scrub bank
    (∀ w, y.wbq.find? (fun v => wordBank v == bank) = some w → ∃ t, exec (.eccWriteBack tile bank) s = .next t ∧
      tileOnly tile s t ∧ getTile t.chip tile = { y with wbq := y.wbq.erase w, flaw := tset (fun _ => 0) w 0 y.flaw }) ∧
    (fbit s.chip (aTILE_CTL tile) 3 = true → tilePowered s.chip tile = true →
      wordsClean s tile (bank * 0x18000 + n % 1536 * 64) 64 = true →
      ∃ t, exec (.scrubLine tile bank) s = .next t ∧ banksKept s t tile 0 0 ∧
        chipOnly [aTILE_ECC tile] s t (fun c => { c with tiles := t.chip.tiles }) ∧
        getTile t.chip tile = { y with scrub := tset (fun _ => 0) bank (n + 1) y.scrub } ∧
        ∀ k, k ≠ tile → getTile t.chip k = getTile s.chip k) ∧
    (∀ order, 1 ≤ order → order ≤ 6 → ∃ t, exec (.portPromotion tile bank order) s = .next t ∧
      regsOnly [aTILE_STATUS tile] s t ∧ countedOne s t (aTILE_STATUS tile) 15 8 ∧
      fget t.chip (aTILE_STATUS tile) 63 16 = fget s.chip (aTILE_STATUS tile) 63 16)

/-- Zeroing leaves every byte of the banks 0 and unmarked and sets ZEROED, which is 0 from its start on (R172). -/
def Clauses.TilesAreZeroed : Prop :=
  ∀ (s : State) (tile : Nat), tile < 144 →
    (tilePowered s.chip tile = true → tileEnabled s.chip tile = true → ∃ t, exec (.tileZero tile) s = .next t ∧
      fbit t.chip (aTILE_STATUS tile) 2 = false ∧ (getTile t.chip tile).zeroing = true ∧ banksKept s t tile 0 0 ∧
      chipOnly [aTILE_STATUS tile] s t (fun c => { c with tiles := t.chip.tiles })) ∧
    ((getTile s.chip tile).zeroing = true → tileQuiet s.chip tile = true →
      (∀ i, i < 8 → (getStrand s.chip tile i).fresh = false) →
      ∃ t, exec (.tileZeroComplete tile) s = .next t ∧ fbit t.chip (aTILE_STATUS tile) 2 = true ∧
        (getTile t.chip tile).zeroing = false ∧ (∀ a, mget (getTile t.chip tile).mem a = 0#8) ∧
        (∀ w, tmem (getTile t.chip tile).pz w = false) ∧ t.chip.strands = s.chip.strands ∧
        chipOnly [aTILE_STATUS tile] s t (fun c => { c with tiles := t.chip.tiles }))

/-- A fence, from software or from a fault of the tile's logic: FENCED is set, no strand of the tile runs, its engines are
empty, and its banks keep their bytes; a second fence does nothing (R173). -/
def Clauses.FencesStopATile : Prop :=
  ∀ (s : State) (tile : Nat) (c : Instr), tile < 144 → c = .tileFence tile ∨ c = .tileLogicFault tile →
    (tileFenced s.chip tile = true → exec c s = .next s) ∧
    (tileFenced s.chip tile = false → (∀ k, k < 144 → tileQuiet s.chip k = true) → ∃ t, exec c s = .next t ∧ tileFenced t.chip tile = true ∧
      (∀ i, strandRuns t.chip tile i = false) ∧ fbit t.chip (aTILE_CTL tile) 4 = true ∧
      (getTile t.chip tile).mem = (getTile s.chip tile).mem ∧
      (∀ q, queueOf (getTile t.chip tile) q = []) ∧ (getTile t.chip tile).partials = [] ∧ (getTile t.chip tile).sets = [] ∧
      (∀ f ∈ t.chip.flights, f.src = tile → f.arrived = true))

/-- A reset of a tile's strands: every strand is as at reset and begins at its entry, the arrival counters and c registers
are 0 and the engines empty; the banks keep their bytes (R186). -/
def Clauses.StrandResets : Prop :=
  ∀ (s : State) (tile : Nat), tile < 144 →
    (∀ k, k < 8 → (tget (fun _ => ({} : Stream)) (getTile s.chip tile).streams k).on = false) →
    ∃ t, exec (.strandReset tile) s = .next t ∧
    (∀ i, i < 8 → getStrand t.chip tile i = { fresh := true, held := (getStrand s.chip tile i).held }) ∧
    (∀ n, acGet t.chip tile n = 0) ∧ (∀ q, queueOf (getTile t.chip tile) q = []) ∧ (getTile t.chip tile).c = [] ∧
    (getTile t.chip tile).mem = (getTile s.chip tile).mem ∧
    (∀ k, k / 8 ≠ tile → tget (fun _ => {}) t.chip.strands k = tget (fun _ => {}) s.chip.strands k) ∧
    (∀ k, k ≠ tile → getTile t.chip k = getTile s.chip k)

/-- Halting a tile stops its strands and changes nothing else; a tile let go starts a fresh strand at its entry word, and
one of its strands that is enabled does the same (R184, R185). -/
def Clauses.StrandsStartAndStop : Prop :=
  ∀ (s : State) (tile : Nat), tile < 144 →
    (∃ t, exec (.tileHalt tile true) s = .next t ∧ regsOnly [aTILE_CTL tile] s t ∧ fbit t.chip (aTILE_CTL tile) 1 = true ∧
      ∀ i, strandRuns t.chip tile i = false) ∧
    (∀ i, let x := getStrand s.chip tile i
      let entry := cellWord (getTile s.chip tile) i
      i < 8 → tileQuiet s.chip tile = true → tileOpen s.chip tile = true → wordsClean s tile 0 64 = true →
      x.fresh = true → x.halted = false → x.held = false → x.faulted = none → entry < 196608 →
      (∀ j, j < 8 → j ≠ i → (getStrand s.chip tile j).fresh = false) →
      ((fget s.chip (aTILE_CTL tile) 39 32).testBit i = true →
        ∃ t, exec (.tileHalt tile false) s = .next t ∧ fbit t.chip (aTILE_CTL tile) 1 = false ∧
          getStrand t.chip tile i = { x with fresh := false, pc := entry }) ∧
      (∀ mask, mask < 256 → mask.testBit i = true → fbit s.chip (aTILE_CTL tile) 1 = false →
        ∃ t, exec (.strandEnable tile mask) s = .next t ∧ fget t.chip (aTILE_CTL tile) 39 32 = mask ∧
          getStrand t.chip tile i = { x with fresh := false, pc := entry }))

/-- Host accesses of the banks through the window: the word at TILE_SRAM_ADDR, whose address moves on by 8; an access of
a tile that is not open, or beyond the banks, is refused, counted and recorded, and changes no byte (R717). -/
def Clauses.WindowAccesses : Prop :=
  ∀ (s : State) (tile : Nat) (data : Word), tile < 144 →
    let w := fget s.chip (aTILE_SRAM_ADDR tile) 21 3
    let moved := fun (t : State) => fget t.chip (aTILE_SRAM_ADDR tile) 21 3 = (w + 1) % 2 ^ 19
    (tileOpen s.chip tile = true → w * 8 < 0x300000 →
      (wordsClean s tile (8 * w) 8 = true → ∃ t, exec (.tileSramDataRead tile) s = .next t ∧ moved t ∧ banksKept s t tile 0 0 ∧
        t.chip.resp.toNat = leNat (bankBytes s tile (8 * w) 8) ∧ ∀ k, k ≠ aTILE_SRAM_ADDR tile → barGet t.chip k = barGet s.chip k) ∧
      ∃ t, exec (.tileSramDataWrite tile data) s = .next t ∧ moved t ∧ banksKept s t tile (8 * w) 8 ∧
        leNat (bankBytes t tile (8 * w) 8) = data.toNat ∧ ∀ k, k ≠ aTILE_SRAM_ADDR tile → barGet t.chip k = barGet s.chip k) ∧
    (tileOpen s.chip tile = false ∨ 0x300000 ≤ w * 8 →
      let code := if tileOpen s.chip tile = true then 0x2080 else if w * 8 < 0x300000 then 0x2081 else 0x2080
      (∃ t, exec (.tileSramDataRead tile) s = .next t ∧ t.chip.resp = BitVec.allOnes 64 ∧
        regsOnly [aRAS_STATUS, aTILE_STATUS tile] { s with chip := { s.chip with resp := BitVec.allOnes 64 } } t ∧
        fget t.chip (aTILE_STATUS tile) 63 48 = code ∧ countedOne s t aRAS_STATUS 31 0) ∧
      ∃ t, exec (.tileSramDataWrite tile data) s = .next t ∧ regsOnly [aRAS_STATUS, aTILE_STATUS tile] s t ∧
        fget t.chip (aTILE_STATUS tile) 63 48 = code ∧ countedOne s t aRAS_STATUS 31 0)

/-- A line that a strand waits for comes into the fetch buffer, and the strand's bundle issues from it (R158); a buffer
swap turns a strand's halves, or makes the strand wait and is counted late (R163, R429). -/
def Clauses.FetchAndSwap : Prop :=
  ∀ (s : State) (tile i : Nat), tile < 144 → i < 8 → let x := getStrand s.chip tile i
    let h := tget (fun _ => ({} : Halves)) (getTile s.chip tile).halves i
    (∀ line, wantsLine s.chip tile line = false → exec (.fetchLineArrival tile line) s = .next s) ∧
    (x.wait = some ⟨.fetch, 0⟩ → x.slots = [] → x.pend = [] → h.waiting = false → strandRuns s.chip tile i = true →
      tileOpen s.chip tile = true → x.pc < bundleEnd → wordsClean s tile (16 * x.pc / 64 * 64) 64 = true →
      fetched x (getTile s.chip tile) ((getTile s.chip tile).lcOwner == some i) = false → (getTile s.chip tile).fetch.length < 256 → x.loops = [] →
      (∀ j, j < 8 → j ≠ i → (getStrand s.chip tile j).wait = none) →
      ∃ t, exec (.fetchLineArrival tile (x.pc / 4)) s = .next t ∧ banksKept s t tile 0 0 ∧
        (getTile t.chip tile).fetch = (getTile s.chip tile).fetch ++ [x.pc / 4] ∧
        getStrand t.chip tile i = { x with pc := x.pc + 1, wait := none, timedOut := false }) ∧
    (h.waiting = false → tileAnvil s.chip tile = false → ∃ t, exec (.bufferSwap tile i) s = .next t ∧ banksKept s t tile 0 0 ∧
      let h' := tget (fun _ => ({} : Halves)) (getTile t.chip tile).halves i
      (h' = ⟨!h.half, false⟩ ∧ t.chip.bar = s.chip.bar ∧ t.chip.strands = s.chip.strands ∨
        h' = ⟨h.half, true⟩ ∧ countedOne s t (aTILE_STATUS tile) 23 16 ∧
          getStrand t.chip tile i = { x with wait := some ⟨.swap, 0⟩ })) ∧
    (h.waiting = true → tileQuiet s.chip tile = true → ∃ t, exec (.bufferSwap tile i) s = .next t ∧ tileOnly tile s t ∧
      tget (fun _ => ({} : Halves)) (getTile t.chip tile).halves i = ⟨!h.half, false⟩)

-- Memory channels (R283 to R298, R301 to R310) --------------------------------------------------------------

/-- Training: each present channel starts once per reset and ends in service at one common speed, or failed with its
Swage unit (R283, R284, R305). -/
def Clauses.ChannelsAreTrained : Prop :=
  ∀ s : State,
    (s.chip.mem.trained = true → exec .memTrain s = .next s) ∧
    (s.chip.mem.trained = false → ∃ t, exec .memTrain s = .next t ∧ t.chip.mem = { s.chip.mem with trained := true } ∧
      chipOnly ((List.range 32).map aMEM_STATUS) s t (fun c => { c with mem := t.chip.mem }) ∧
      ∀ c, c < 32 → if chanPresent s.chip c then chanState t.chip c = 1 ∧ fbit t.chip (aMEM_STATUS c) 2 = true ∧
          fget t.chip (aMEM_STATUS c) 47 40 = (getChan s.chip c).cap / 16 % 256 ∧
          fget t.chip (aMEM_STATUS c) 39 36 = (getChan s.chip c).ranks % 16
        else barGet t.chip (aMEM_STATUS c) = barGet s.chip (aMEM_STATUS c)) ∧
    (∀ k, (∃ c, c < 32 ∧ chanState s.chip c = 1) → ∃ t, exec (.channelTrainingComplete k) s = .next t ∧
      chipOnly (aSEC_STATUS :: (List.range 32).map aMEM_STATUS ++ (List.range 32).map aSWAGE_STATUS) s t id ∧
      fget t.chip aSEC_STATUS 31 24 = min (fget s.chip aSEC_STATUS 31 24 + k) 255 ∧
      ∀ c, c < 32 → if chanState s.chip c = 1 then
          (if trainable s.chip c = true ∧ endSpeed s.chip ≤ (getChan s.chip c).best then
            chanState t.chip c = 2 ∧ fget t.chip (aMEM_STATUS c) 35 34 = endSpeed s.chip % 4
          else chanState t.chip c = 3 ∧ fget t.chip (aSWAGE_STATUS c) 3 0 = 3)
        else barGet t.chip (aMEM_STATUS c) = barGet s.chip (aMEM_STATUS c))

/-- A channel fails by command or by a second error of its command bus: MEM_STATUS and its Swage unit show it; a first
error changes nothing (R298, R305). A refresh changes timing only (R297). -/
def Clauses.ChannelsFail : Prop :=
  ∀ (s : State) (c : Nat), c < 32 →
    let failed := fun (t : State) => chanState t.chip c = 4 ∧ fget t.chip (aSWAGE_STATUS c) 3 0 = 3 ∧ chanFailed t.chip c = true
    (∃ t, exec (.channelFence c) s = .next t ∧ regsOnly [aMEM_CTL c, aMEM_STATUS c, aSWAGE_STATUS c] s t ∧ failed t ∧
      fbit t.chip (aMEM_CTL c) 8 = true) ∧
    exec (.caParityError c false) s = .next s ∧
    (inService s.chip c = true → ∃ t, exec (.caParityError c true) s = .next t ∧
      regsOnly [aMEM_STATUS c, aSWAGE_STATUS c] s t ∧ failed t) ∧
    exec (.refresh c) s = .next s

/-- The map: a legal write with ENABLE fixes the capacity that the members in service share (R285, R309); a write that
leaves ENABLE 0 sets the fields alone; a locked decoder stays so (R303, R310). -/
def Clauses.TheMapIsEnabled : Prop :=
  ∀ (s : State) (data : Word), let v := data.toNat
    (fbit s.chip aMEM_MAP 0 = true → v % 2 = 1 → exec (.memMapWrite data) s = .next s) ∧
    (fbit s.chip aMEM_MAP 0 = false → ∃ t, exec (.memMapWrite data) s = .next t ∧
      chipOnly (aMEM_MAP :: (List.range 32).map aMEM_STATUS) s t (fun c => { c with mem := t.chip.mem }) ∧
      fget t.chip aMEM_MAP 47 40 = bitsOf v 47 40 ∧ fget t.chip aMEM_MAP 33 32 = bitsOf v 33 32 ∧
      fget t.chip aMEM_MAP 25 24 = bitsOf v 25 24 ∧
      if v % 2 = 1 ∧ mapLegal (bitsOf v 33 32) (bitsOf v 25 24) = true then
        fbit t.chip aMEM_MAP 0 = true ∧
        (∀ c, c < 32 → fbit t.chip (aMEM_STATUS c) 3 = inSet t.chip c) ∧
        (∀ c, c < 32 → inSet t.chip c = true → inService s.chip c = true →
          t.chip.mem.cap ≤ (getChan s.chip c).cap * 2 ^ 30) ∧
        (∀ c, c < 32 → (c ∈ t.chip.mem.lost ↔ inSet t.chip c = true ∧ inService s.chip c = false))
      else fbit t.chip aMEM_MAP 0 = false ∧ t.chip.mem = s.chip.mem) ∧
    ∃ t, exec .hdmDecoderCommit s = .next t ∧ regsOnly [aMEM_HDM] s t ∧ fbit t.chip aMEM_HDM 0 = true ∧
      fget t.chip aMEM_HDM 47 32 = fget s.chip aMEM_HDM 47 32

/-- Accesses within one sound burst: a read delivers the module's bytes and changes none, a write replaces exactly its
bytes and a read then delivers them (R286, R291, R292); the host reaches host-managed memory in the same way (R301). -/
def Clauses.DeviceMemoryAccesses : Prop :=
  ∀ (s : State) (p fn a n c mb : Nat) (data : List (BitVec 8)), p ≤ 16 →
    let out := fun (t : State) bs => t.chip.mem.out = bs ∧ t.chip.mem.outCode = 0
    (burstSound s.chip p fn a n c mb = true → ∃ t, exec (.memRead p fn a n) s = .next t ∧
      out t ((mread s.chip.mem.dram (mbKey c mb) n).map (fun b => (b, false))) ∧
      t.chip.bar = s.chip.bar ∧ t.chip.mem.dram = s.chip.mem.dram ∧ t.chip.tiles = s.chip.tiles ∧ t.chip.strands = s.chip.strands) ∧
    (burstSound s.chip p fn a data.length c mb = true → p = 16 ∨ bitOf (barGet s.chip (aPART_DMAP p)) 0 = false →
      ∃ t, exec (.memWrite p fn a data false) s = .next t ∧ out t [] ∧ t.chip.bar = s.chip.bar ∧
        modulesKept s t c mb data.length ∧ mread t.chip.mem.dram (mbKey c mb) data.length = data ∧
        burstSound t.chip p fn a data.length c mb = true) ∧
    (hdmHit s.chip a data.length = true → 0 < data.length → a % 64 + data.length ≤ 64 → locate s.chip a = .burst c mb →
      mb % 64 = a % 64 → chanFailed s.chip c = false →
      tget (fun _ => 0) s.chip.mem.dflaw (mbKey c (mb - mb % 64) / 64) = 0 →
      tmem s.chip.mem.dpz (mbKey c (mb - mb % 64) / 64) = false →
      (∃ t, exec (.hostHdmAccess false a data.length []) s = .next t ∧
        out t ((mread s.chip.mem.dram (mbKey c mb) data.length).map (fun b => (b, false)))) ∧
      ∃ t, exec (.hostHdmAccess true a 0 data) s = .next t ∧ out t [] ∧ modulesKept s t c mb data.length ∧
        mread t.chip.mem.dram (mbKey c mb) data.length = data)

/-- An access that a partition may not make delivers no byte of memory and changes none; one outside its grants is
recorded for it with 0x4006 (R302, R348, R520). -/
def Clauses.ForbiddenAccesses : Prop :=
  ∀ (s : State) (p fn a n : Nat) (data : List (BitVec 8)) (pz : Bool), p < 16 →
    (devCheck s.chip p fn a n ≠ 0 → ∃ t, exec (.memRead p fn a n) s = .next t ∧
      t.chip.mem = { s.chip.mem with out := List.replicate n (0#8, false), outCode := devCheck s.chip p fn a n } ∧
      chipOnly [aPART_STATUS p] s t (fun c => { c with mem := t.chip.mem }) ∧
      (devCheck s.chip p fn a n = 0x2005 → fget t.chip (aPART_STATUS p) 63 48 = 0x4006)) ∧
    (devCheck s.chip p fn a data.length ≠ 0 → ∃ t, exec (.memWrite p fn a data pz) s = .next t ∧
      t.chip.mem = { s.chip.mem with out := [], outCode := devCheck s.chip p fn a data.length } ∧
      chipOnly [aPART_STATUS p] s t (fun c => { c with mem := t.chip.mem }) ∧
      (devCheck s.chip p fn a data.length = 0x2005 → fget t.chip (aPART_STATUS p) 63 48 = 0x4006))

/-- Upkeep of a channel: a correction is written back (R293), the scrubber takes the next burst (R295), and a row that has
been corrected in four passes is repaired and counted (R296). -/
def Clauses.ChannelUpkeep : Prop :=
  ∀ (s : State) (c : Nat), c < 32 → let x := getChan s.chip c
    (∀ mb r, x.fix = mb :: r → chanFailed s.chip c = false → tget (fun _ => 0) s.chip.mem.dflaw (mbKey c mb / 64) = 1 →
      ∃ t, exec (.memCorrectionWriteBack c) s = .next t ∧ t.chip.bar = s.chip.bar ∧ t.chip.mem.dram = s.chip.mem.dram ∧
        (getChan t.chip c).fix = r ∧ tget (fun _ => 0) t.chip.mem.dflaw (mbKey c mb / 64) = 0) ∧
    (inService s.chip c = true → fbit s.chip (aMEM_CTL c) 13 = true → chanFailed s.chip c = false →
      tget (fun _ => 0) s.chip.mem.dflaw (mbKey c (64 * x.scrubPos) / 64) = 0 → x.scrubPos + 1 < x.cap * 2 ^ 24 →
      ∃ t, exec (.patrolScrub c) s = .next t ∧ t.chip.bar = s.chip.bar ∧ t.chip.mem.dram = s.chip.mem.dram ∧
        getChan t.chip c = { x with scrubPos := x.scrubPos + 1 }) ∧
    (∀ row, inService s.chip c = true → fbit s.chip (aMEM_CTL c) 12 = true → rowFlaws s.chip c row = [] →
      4 ≤ (tget (fun _ => []) x.rowHits row).length →
      ∃ t, exec (.softPpr c row) s = .next t ∧ regsOnly [aMEM_STATUS c, aMEM_ERRLOG c] { s with chip := { s.chip with mem := t.chip.mem } } t ∧
        countedOne s t (aMEM_STATUS c) 31 24 ∧ (getChan t.chip c).spared = x.spared ++ [row] ∧
        tget (fun _ => []) (getChan t.chip c).rowHits row = [] ∧ t.chip.mem.dram = s.chip.mem.dram)

-- Swage units (R312 to R338) -------------------------------------------------------------------------------

/-- A record written to a unit's window is queued when no check fails, and is otherwise refused with the least code, which
the unit records and the write answers (R316 to R320, R326, R328, R334). -/
def Clauses.SwageAccepts : Prop :=
  ∀ (s : State) (u p sender : Nat) (bytes : List (BitVec 8)) (c : Instr), u < 32 →
    c = .swageQuery u p sender bytes ∨ c = .swageAppend u p sender bytes ∨ c = .swagePageInit u p sender bytes →
    let code := leastCode (unitCodes s.chip u p ++ recordCodes s.chip u (clean bytes))
    let x := getUnit s.chip u
    (code = 0 → ∃ t, exec c s = .next t ∧ t.chip.mem.outCode = 0 ∧
      getUnit t.chip u = { x with queue := x.queue ++ [{ no := x.count, part := p, sender := sender, record := clean bytes }],
                                  count := x.count + 1 } ∧
      chipOnly [aSWAGE_STATUS u] s t (fun d => { d with mem := t.chip.mem }) ∧ t.chip.mem.dram = s.chip.mem.dram ∧
      fget t.chip (aSWAGE_STATUS u) 31 26 = min 32 (x.queue.length + 1)) ∧
    (code ≠ 0 → ∃ t, exec c s = .next t ∧ t.chip.mem.outCode = code ∧ getUnit t.chip u = x ∧
      chipOnly [aSWAGE_ERR u, aPART_STATUS p] s t (fun d => { d with mem := t.chip.mem }) ∧ t.chip.mem.dram = s.chip.mem.dram ∧
      fget t.chip (aSWAGE_ERR u) 63 48 = code % 2 ^ 16 ∧ countedOne s t (aSWAGE_ERR u) 31 0)

/-- A context takes the first command whose partition is below its cap (R330); its descriptors come and its groups are
checked (R321); each page adds its partial for every head (R322). -/
def Clauses.SwageQueriesProceed : Prop :=
  ∀ (s : State) (u k : Nat) (c : SwCmd), u < 32 → k < 24 →
    (∀ r, (getUnit s.chip u).queue = c :: r → (∀ d ∈ r, d.no ≠ c.no) →
      (∀ j, j < 24 → (ctxAt s.chip u j = none ↔ k ≤ j)) → (∀ j, j < k → (ctxAt s.chip u j).map (·.part) ≠ some c.part) →
      (getUnit s.chip u).ctxs.length = k → 0 < fget s.chip (aSWAGE_PART c.part) 4 0 →
      ∃ t, exec (.swageContextStart u) s = .next t ∧ ctxAt t.chip u k = some c ∧ (getUnit t.chip u).queue = r ∧
        chipOnly [aSWAGE_STATUS u] s t (fun d => { d with mem := t.chip.mem }) ∧
        ∀ j, j ≠ k → ctxAt t.chip u j = ctxAt s.chip u j) ∧
    (ctxAt s.chip u k = some c → swCmdOf c = 1 → swFailed s.chip u = false →
      (c.stage = .fetch → swTurn s.chip u c = true → c.records = [] →
        let gs := (readGroups u c (swField c.record 36 2) 0 s.chip).2
        gs ≠ [] → (∀ g ∈ gs, g.2 = 0) →
        ∃ t, exec (.swageDescriptorsArrive u k) s = .next t ∧
          ctxAt t.chip u k = some { c with stage := .pages, groups := gs } ∧ t.chip.tiles = s.chip.tiles ∧
          fget t.chip (aSWAGE_ERR u) 31 0 = fget s.chip (aSWAGE_ERR u) 31 0) ∧
      (∀ ds code, c.stage = .pages → c.groups[c.records.length / swHeads c]? = some (ds, code) →
        c.pagesDone + 1 < groupPages c (groupNode c ds * 2 ^ swField c.record 6 1) →
        let d := ds.getD c.pagesDone []
        let body := (swRead s.chip u c.part (swField d 24 8) (bodyLen (swField c.record 19 1) (swDim (swField c.record 7 1)))).2
        ∃ t, exec (.swagePageComplete u k) s = .next t ∧ countedOne s t (aSWAGE_WORK u) 63 32 ∧
          t.chip.tiles = s.chip.tiles ∧ t.chip.strands = s.chip.strands ∧
          let new := (List.range (swHeads c)).map (fun h => (h, (swPage c d body h).1))
          ctxAt t.chip u k = some { c with pagesDone := c.pagesDone + 1, parts := c.parts ++ new }))

/-- A result record reaches its return tile, whose counter is decremented; the last one ends the command, whose context
frees (R323, R324, R330). -/
def Clauses.SwageRecordsReturn : Prop :=
  ∀ (s : State) (u k t' : Nat) (c : SwCmd) (x : SwRec), u < 32 → k < 24 → ctxAt s.chip u k = some c → swCmdOf c = 1 →
    swFailed s.chip u = false → c.records[c.written]? = some x → physOf s.chip c.part (swField c.record 2 2) = some t' →
    tileOpen s.chip t' = true → tileQuiet s.chip t' = true →
    let d := swDim (swField c.record 7 1)
    let ta := swField c.record 44 4 + 64 * c.written
    let da := swField c.record 48 4 + 64 * c.written
    let n := swField c.record 1 1 % 64
    let last := swField c.record 36 2 * swHeads c ≤ c.written + 1
    ∃ t, exec (.swageRecordWrite u k) s = .next t ∧
      acGet t.chip t' n = max (-2147483648) (min 2147483647 (acGet s.chip t' n - 1)) ∧
      (∀ j, j ≠ t' → getTile t.chip j = getTile s.chip j) ∧ t.chip.strands = s.chip.strands ∧
      (ctxAt t.chip u k = if last then none else some { c with written := c.written + 1 }) ∧
      (last → countedOne s t (aSWAGE_WORK u) 31 0) ∧
      (ta % 64 = 0 → da % 64 = 0 → stripeFits da 1 = true → ta + 64 ≤ 0x300000 → ta ∉ dataLines da 4 d 1 → x.tag.kind = 2 →
        x.att.o.length = d → d ≤ 512 → tagOf (tagBits x.tag) = x.tag → x.att.m.pz = false → x.att.l.pz = false →
        x.att.m.v < 2 ^ 32 → x.att.l.v < 2 ^ 32 → (∀ e ∈ x.att.o, e.pz = false ∧ e.v < 2 ^ 32) →
        (readRec t.chip t' ta da).2 = some ⟨x.tag, d, 1, false, x.att.m, x.att.l, x.att.o⟩)

/-- APPEND writes its key and value rows and the VALID bit, PAGE_INIT its descriptor, and nothing else of the module
(R326 to R328); an APPEND that its descriptor does not fit writes nothing, and its code is recorded (R326). -/
def Clauses.SwageWrites : Prop :=
  ∀ (s : State) (u k : Nat) (c : SwCmd), u < 32 → k < 24 → ctxAt s.chip u k = some c → swFailed s.chip u = false →
    swTurn s.chip u c = true → c.part < 16 → bitOf (barGet s.chip (aPART_DMAP c.part)) 0 = false → allQuiet s.chip = true →
    localSound s.chip u = true → inSet s.chip u = true → (∀ b ∈ c.record, b.2 = false) →
    localHolds s.chip u (swField c.record 8 8) 64 = true →
    let o := swField c.record 8 8
    let r := (swRead s.chip u c.part o 64).2
    let f := swField r 15 1
    let dim := swDim (swField r 20 1)
    let i := swField c.record 4 4 % 64
    let half := bodyLen f dim / 2
    let at' := swField r 24 8 + i * rowPitch f dim
    (swCmdOf c = 2 → appendCode s.chip u c r = 0 → o % 64 = 0 → isMX f = false →
      ∃ t, exec (.swageAppendCommit u k) s = .next t ∧ ctxAt t.chip u k = none ∧ countedOne s t (aSWAGE_WORK u) 31 0 ∧
        ∀ h, h < 2 → (o + 64 ≤ at' + h * half ∨ at' + h * half + rowPitch f dim ≤ o) →
          localBytes t u (at' + h * half) (rowPitch f dim) = unmark ((c.record.drop (64 + h * rowPitch f dim)).take (rowPitch f dim)) ∧
          (leNat (localBytes t u (o + i / 8) 1)).testBit (i % 8) = true) ∧
    (swCmdOf c = 2 → appendCode s.chip u c r ≠ 0 →
      ∃ t, exec (.swageAppendCommit u k) s = .next t ∧ ctxAt t.chip u k = none ∧ countedOne s t (aSWAGE_WORK u) 31 0 ∧
        t.chip.mem.dram = s.chip.mem.dram ∧ countedOne s t (aSWAGE_ERR u) 31 0) ∧
    (swCmdOf c = 3 → o % 64 = 0 → c.record.length = 128 →
      ∃ t, exec (.swagePageInitCommit u k) s = .next t ∧ ctxAt t.chip u k = none ∧ countedOne s t (aSWAGE_WORK u) 31 0 ∧
        localBytes t u o 64 = unmark (c.record.drop 64))

/-- A unit is fenced or enabled: SWAGE_CTL shows it, and STATE follows while the channel has not failed (R334, R335). -/
def Clauses.SwageControl : Prop :=
  ∀ (s : State) (u : Nat) (on : Bool), u < 32 →
    let st := fget s.chip (aSWAGE_STATUS u) 3 0
    (∃ t, exec (.swageFence u) s = .next t ∧ fbit t.chip (aSWAGE_CTL u) 1 = true ∧
      fget t.chip (aSWAGE_STATUS u) 3 0 = (if st = 3 then 3 else 2) ∧ t.chip.mem.dram = s.chip.mem.dram ∧
      (getUnit t.chip u).queue = (getUnit s.chip u).queue.take 32 ∧
      chipOnly [aSWAGE_CTL u, aSWAGE_STATUS u, aSWAGE_ERR u] s t (fun d => { d with mem := t.chip.mem })) ∧
    ∃ t, exec (.swageEnable u on) s = .next t ∧ fbit t.chip (aSWAGE_CTL u) 0 = on ∧
      fget t.chip (aSWAGE_STATUS u) 3 0 = (if st = 3 then 3 else if fbit s.chip (aSWAGE_CTL u) 1 = true then 2 else b2n on) ∧
      chipOnly [aSWAGE_CTL u, aSWAGE_STATUS u, aSWAGE_ERR u] s t (fun d => { d with mem := t.chip.mem })

-- Queues and DMA (R345 to R392) ----------------------------------------------------------------------------

/-- Commands on a queue's context, from the function that owns it: what each leaves in the context and the function's
registers, and what QM_QSTATUS answers (R352 to R354, R358, R389, R390). -/
def Clauses.QueueCommands : Prop :=
  ∀ (s : State) (fn q : Nat) (c : List Byte), queueReady s.chip fn q c = true →
    let st := stageBytes s.chip (kStage fn)
    let put := fun (t : State) d => ctxPeek t.chip q = d
    (∃ t, exec (.readContext fn q) s = .next t ∧ stageBytes t.chip (kStage fn) = c ∧ put t c ∧ queueAnswer t fn 0 c ∧
      queueOnly (kQstatus fn :: (List.range 8).map (kStage fn)) s t) ∧
    (fn = 0 → cState c = 0 → cState st = 1 → ctxOk s.chip (bSet (bSet st 11 1 (bNat c 11 1 / 2 % 2 * 2 + bNat st 11 1 % 2)) 28 1 1) = true →
      ∃ t d, exec (.writeContext fn q) s = .next t ∧ put t d ∧ d.take 11 = st.take 11 ∧ (d.drop 12).take 16 = (st.drop 12).take 16 ∧
        cState d = 1 ∧ queueAnswer t fn 0 d ∧ queueOnly [kQstatus fn] s t) ∧
    (cKind c = 1 → cState c = 1 ∨ cState c = 2 ∨ cState c = 3 → ringHeld c < 2 ^ cLog c → (ringWrite (ctxTouch s.chip q c) c (cTail c) st).2 = 0 →
      ∃ t d, exec (.append fn q) s = .next t ∧ put t d ∧ cTail d = (cTail c + 1) % 2 ^ 17 ∧ cHead d = cHead c ∧
        queueAnswer t fn 0 d) ∧
    (cKind c ≠ 1 ∨ cState c = 0 ∨ 2 ^ cLog c ≤ ringHeld c → ∃ t, exec (.append fn q) s = .next t ∧ put t c ∧
      queueAnswer t fn 0x1006 c ∧ queueOnly [kQstatus fn] s t) ∧
    (q ∉ s.chip.qm.pins → s.chip.qm.pins.length < 1024 → ∃ t, exec (.pin fn q) s = .next t ∧
      t.chip.qm.pins = q :: s.chip.qm.pins ∧ put t (bSet c 11 1 (bNat c 11 1 % 2 + 2)) ∧ queueOnly [kQstatus fn] s t) ∧
    (∃ t, exec (.unpin fn q) s = .next t ∧ q ∉ t.chip.qm.pins ∧ put t (bSet c 11 1 (bNat c 11 1 % 2)) ∧
      queueOnly [kQstatus fn] s t)

/-- Commands on a stopped queue and aborts (R381 to R384): a stopped transfer is rewritten, goes on from where it stopped,
or is skipped; an abort ends every transfer with 0x1001. -/
def Clauses.StoppedQueues : Prop :=
  ∀ (s : State) (fn q : Nat) (c : List Byte) (x : Xfer) (r : List Xfer), queueReady s.chip fn q c = true →
    xfersOf s.chip q = x :: r →
    (stoppedHead s.chip q = some x →
      (∀ y ∈ r, y.slot ≠ x.slot) →
      (∀ d, d = stageBytes s.chip (kStage fn) →
        bNat d 0 6 = bNat x.d 0 6 → bNat d 24 10 = bNat x.d 24 10 →
        (ringWrite (ctxTouch s.chip q c) c x.slot d).2 = 0 →
        ∃ t, exec (.rewrite fn q) s = .next t ∧ xfersOf t.chip q = { x with d := d } :: r ∧ queueAnswer t fn 0 c) ∧
      (∃ t, exec (.resume fn q) s = .next t ∧ queueOnly [kQstatus fn] s t ∧ xfersOf t.chip q =
        { x with stage := .running, stopped := false, resumed := true, bytes := 0, poisoned := 0, dropped := 0, codes := []
                 badBack := false, engine := cEngine c } :: r) ∧
      (r = [] → ∃ t, exec (.skip fn q) s = .next t ∧ queueOnly [kQstatus fn] s t ∧ xfersOf t.chip q = [] ∧
        cHead (ctxPeek t.chip q) = (x.slot + 1) % 2 ^ 17 ∧ cState (ctxPeek t.chip q) = 1)) ∧
    (cKind c = 1 → cState c = 2 → unstarted s.chip q c = 0 → (∀ y ∈ x :: r, y.stage = .running ∧ y.next < dCount y.d) →
      let after := (x :: r).map (fun y => { y with stage := .readBack, aborted := true, codes := 0x1001 :: y.codes })
      (∃ t, exec (.abort fn q) s = .next t ∧ xfersOf t.chip q = after ∧ queueOnly [kQstatus fn] s t) ∧
      ∀ e, e < 16 → queuesWhere s.chip (fun d => cKind d == 1 && cState d != 0 && cEngine d == e) = [q] →
        ∃ t, exec (.engineAbort e) s = .next t ∧ xfersOf t.chip q = after ∧ queueOnly [] s t)

/-- Doorbells: TAIL of a submission queue, HEAD of a completion queue; an index beyond the ring puts the queue into error
(R354, R373). Before the table is ready they do nothing (R388). -/
def Clauses.Doorbells : Prop :=
  ∀ (s : State) (fn q index : Nat) (c : List Byte),
    (fn < 64 → qmReady s.chip = false → exec (.qmDoorbell fn q index) s = .next s) ∧
    (queueReady s.chip fn q c = true → index < 2 ^ 17 → s.chip.qm.doorbells = [] → cState c ≠ 0 →
      let n := (index + 2 ^ 17 - cHead c) % 2 ^ 17
      ∃ t d, exec (.qmDoorbell fn q index) s = .next t ∧ ctxPeek t.chip q = d ∧ queueOnly [] s t ∧
        (cKind c = 2 → cHead d = index ∧ cTail d = cTail c) ∧
        (cKind c ≠ 2 → n ≤ 2 ^ cLog c → (xfersOf s.chip q).length ≤ n → cTail d = index ∧ cHead d = cHead c ∧ cState d = cState c) ∧
        (cKind c ≠ 2 → 2 ^ cLog c < n → cState d = 4 ∧ cTail d = cTail c))

/-- The queue manager is enabled over a table in the interleaved region, and is ready when the table is clear (R388);
STOP_ALL and an engine's enable are its register bits (R388, R392). -/
def Clauses.QueueManagerStarts : Prop :=
  ∀ (s : State) (e : Nat) (b : Bool), e < 16 →
    (fbit s.chip aQM_CTL 0 = false → fbit s.chip aMEM_MAP 0 = true →
      fget s.chip aQM_TABLE 47 26 * 2 ^ 26 + 2 ^ 26 ≤ interSize s.chip - hdmSize s.chip →
      ∃ t, exec .qmEnable s = .next t ∧ fbit t.chip aQM_CTL 0 = true ∧ t.chip.qm = { s.chip.qm with clearing := true } ∧
        queueOnly [aQM_CTL] s t) ∧
    (s.chip.qm.clearing = true → ∃ t, exec .qmTableReady s = .next t ∧ qmReady t.chip = true ∧ t.chip.qm.cached = [] ∧
      t.chip.qm.xfers = [] ∧ t.chip.qm.pins = [] ∧ t.chip.qm.clearing = false ∧ t.chip.tiles = s.chip.tiles) ∧
    (∃ t, exec (.qmStopAll b) s = .next t ∧ regsOnly [aQM_CTL] s t ∧ fbit t.chip aQM_CTL 1 = b ∧
      fbit t.chip aQM_CTL 0 = fbit s.chip aQM_CTL 0) ∧
    ∃ t, exec (.engineEnable e b) s = .next t ∧ regsOnly [aDMA_ENG_CTL e, aDMA_ENG_STATUS e] s t ∧
      fbit t.chip (aDMA_ENG_CTL e) 0 = b ∧ fget t.chip (aDMA_ENG_STATUS e) 3 0 =
        if fget s.chip (aDMA_ENG_STATUS e) 3 0 = 3 then 3 else b2n b

/-- A descriptor that starts: the next of its queue, on the queue's engine, which the queue shows as active (R355, R356);
an element of a linear copy from device memory to a tile is written there as it was read (R361, R379), and the last one
decrements the descriptor's counter (R375). -/
def Clauses.TransfersRun : Prop :=
  ∀ (s : State) (q : Nat) (c : List Byte), c.length = 64 →
    s.chip.qm.cached.find? (fun p => p.1 == q) = some (q, c) →
    (let e := cEngine c
      let v := nextSlot s.chip q c
      let m := devReadChecked (ctxTouch s.chip q c) (cPart c) (cFunc c) (ringSlot c v % 2 ^ 48) 64
      let d := unmark m.2.1
      qmReady s.chip = true → fbit s.chip aQM_CTL 1 = false → q < 2 ^ 20 → fget s.chip aSEC_STATUS 3 0 ≠ 0xF →
      cKind c = 1 → cState c = 1 → xfersOf s.chip q = [] → unstarted s.chip q c ≠ 0 → (getPart s.chip (cPart c)).quiet = false →
      fbit s.chip (aFJ_CTL (cPart c)) 4 = false → fbit s.chip (aPART_CTL (cPart c)) 1 = false → engineServes s.chip e = true →
      m.2.2 = 0 → m.2.1.any (·.2) = false → descCode d (cRadio c) = 0 → dType d ≠ 7 → isStream d = false → dFlag d 4 = false →
      running s.chip e < 32 → dSrc d / 2 ^ 60 ≠ 3 → dDst d / 2 ^ 60 ≠ 3 →
      ∃ t, exec (.descriptorStart q) s = .next t ∧ xfersOf t.chip q = [{ slot := v, d := d, engine := e }] ∧
        cState (ctxPeek t.chip q) = 2 ∧ t.chip.tiles = s.chip.tiles ∧ t.chip.strands = s.chip.strands) ∧
    (∀ x ch mb tile, findXfer s.chip q x.slot = some x → xfersOf s.chip q = [x] → x.stage = .running → x.next < dCount x.d → x.spots = [] →
      x.codes = [] → dType x.d = 1 → dRefmt x.d = 0 → dFlag x.d 1 = false → dFlag x.d 2 = false →
      let n := dESize x.d
      let i := dIndex x.d x.next
      let a := addOff (dSrc x.d) (i.1 * n + dimOff (dSS x.d) i)
      let b := addOff (dDst x.d) (i.1 * n + dimOff (dDS x.d) i)
      a / 2 ^ 48 = 0 → b / 2 ^ 60 = 1 → b % 8 = 0 → n % 8 = 0 → burstSound s.chip (cPart c) (cFunc c) a n ch mb = true →
      tileSide s.chip (cPart c) b n = (tile, 0) → allQuiet s.chip = true → cRadio c = true → s.chip.boot.undervolt = false →
      ∃ t, exec (.dmaReadReturn q x.slot .good) s = .next t ∧ banksKept s t tile (b % 2 ^ 22) n ∧
        bankBytes t tile (b % 2 ^ 22) n = mread s.chip.mem.dram (mbKey ch mb) n ∧ t.chip.strands = s.chip.strands ∧
        (∀ k, k ≠ tile → (getTile t.chip k).mem = (getTile s.chip k).mem) ∧
        (∃ y, xfersOf t.chip q = [y] ∧ y.next = x.next + 1 ∧ y.bytes = x.bytes + n ∧ y.codes = [] ∧
          y.stage = if x.next + 1 < dCount x.d then .running else .readBack) ∧
        ∀ k, dCnt x.d = some k → dstTile s.chip c x.d = some tile → x.next + 1 = dCount x.d →
          acGet t.chip tile k = max (-2147483648) (min 2147483647 (acGet s.chip tile k - 1)))

/-- The end of a transfer: its read-back, then its completion record in the ring of its completion queue, whose TAIL moves
on (R371 to R374); and the ways a transfer fails (R379, R385). -/
def Obligations.TransfersEnd : Prop :=
  ∀ (s : State) (q cq : Nat) (c k : List Byte) (x : Xfer), c.length = 64 → k.length = 64 → q ≠ cq →
    s.chip.qm.cached.find? (fun p => p.1 == q) = some (q, c) → s.chip.qm.cached.find? (fun p => p.1 == cq) = some (cq, k) →
    xfersOf s.chip q = [x] → s.chip.qm.retire = [] → s.chip.qm.doorbells = [] → cCq c = cq →
    (x.stage = .readBack → fenceOpen s.chip ⟨cPart c, 0xFFF, q⟩ 0xFFFF = false → dType x.d ≠ 7 → dFlag x.d 6 = false →
      (cKind k ≠ 2 ∨ cState k = 0 ∨ 2 ^ cLog k ≤ ringHeld k) →
      (∃ t, exec (.readBackReturn q x.slot true) s = .next t ∧ xfersOf t.chip q = [{ x with stage := .record }]) ∧
      ∃ t, exec (.readBackReturn q x.slot false) s = .next t ∧
        xfersOf t.chip q = [{ x with stage := .record, badBack := true, codes := 0x1009 :: x.codes }]) ∧
    (∀ ring, ring = ringSlot k (cTail k) →
      x.stage = .record → x.stopped = false → dFlag x.d 6 = false → cKind k = 2 → cState k ≠ 0 → ringHeld k < 2 ^ cLog k →
      ring / 2 ^ 60 = 2 → fbit s.chip (aDLOG_CTL (cFunc k)) 0 = false → s.chip.mem.dlogHeld = [] → s.chip.boot.undervolt = false →
      cState c = 2 →
      ∃ t, exec (.completionRecordWrite q x.slot) s = .next t ∧
        mread t.chip.mem.host (ring % 2 ^ 57) 64 = recordOf s.chip q x (cTail k / 2 ^ cLog k % 2 == 0) ∧
        (∀ a, a < ring % 2 ^ 57 ∨ ring % 2 ^ 57 + 64 ≤ a → mget t.chip.mem.host a = mget s.chip.mem.host a) ∧
        cTail (ctxPeek t.chip cq) = (cTail k + 1) % 2 ^ 17 ∧ xfersOf t.chip q = [] ∧
        cHead (ctxPeek t.chip q) = (x.slot + 1) % 2 ^ 17 ∧ cState (ctxPeek t.chip q) = 1) ∧
    (qmReady s.chip = true → cKind k = 2 → cModUs k ≠ 0 → tget (fun _ => 0) s.chip.qm.unsig cq ≠ 0 →
      ∃ t, exec (.cqModerationTimeout cq) s = .next t ∧ t.chip.irqs = s.chip.irqs ++ [(cFunc k, cVector k)] ∧
        tget (fun _ => 0) t.chip.qm.unsig cq = 0 ∧ t.chip.bar = s.chip.bar) ∧
    (x.stage = .running → dSR x.d = false →
      let ended := fun code => [{ x with stage := .readBack, ended := true, codes := code :: x.codes }]
      (dSrc x.d / 2 ^ 60 = 2 → dType x.d ≠ 4 → ∃ t, exec (.hostReadTimeout q x.slot) s = .next t ∧
        xfersOf t.chip q = ended 0x1008 ∧ queueOnly [] s t) ∧
      (x.engine < 16 → s.chip.qm.xfers = [(q, [x])] → ∃ t, exec (.engineFailure x.engine) s = .next t ∧
        fget t.chip (aDMA_ENG_STATUS x.engine) 3 0 = 3 ∧ xfersOf t.chip q = ended 0x100B ∧
        queueOnly [aDMA_ENG_STATUS x.engine] s t)) ∧
    (cEngine c < 16 → ∃ t, exec (.contextLost q) s = .next t ∧ cState (ctxPeek t.chip q) = 4 ∧
      queueOnly [aDMA_ENG_ERR (cEngine c)] s t ∧ fget t.chip (aDMA_ENG_ERR (cEngine c)) 63 48 = 0x100C ∧
      countedOne s t (aDMA_ENG_ERR (cEngine c)) 27 0)

/-- A pane of a stream that is whole is counted, and the last one decrements the stream's counter (R161, R369, R370). -/
def Clauses.PanesArrive : Prop :=
  ∀ (s : State) (tile k : Nat) (x : Xfer), tile < 144 → k < 8 →
    let y := tget (fun _ => ({} : Stream)) (getTile s.chip tile).streams k
    (xfersOf s.chip y.queue) = [x] → isStream x.d = true → x.stage = .running → paneNo x.d = k →
    dstTile s.chip (ctxPeek s.chip y.queue) x.d = some tile → y.on = true → (y.whole + 1) * (paneBytes x.d / 64) ≤ x.next →
    y.whole < y.panes → tileQuiet s.chip tile = true →
    ∃ t, exec (.paneArrival tile k) s = .next t ∧ banksKept s t tile 0 0 ∧ t.chip.strands = s.chip.strands ∧
      tget (fun _ => ({} : Stream)) (getTile t.chip tile).streams k = { y with whole := y.whole + 1, on := decide (y.whole + 1 ≠ y.panes) } ∧
      (y.whole + 1 = y.panes → ∀ n, dCnt x.d = some n → acGet t.chip tile n = max (-2147483648) (min 2147483647 (acGet s.chip tile n - 1))) ∧
      (xfersOf t.chip y.queue).map (·.stage) = [if y.whole + 1 = y.panes then .readBack else .running]

-- Strikes (chapter 09) -------------------------------------------------------------------------------------

/-- A plan is loaded, proved and, when no plan runs, in use; a running plan's re-proof decides whether the reduced profile
is entered (R423, R425, R426, R439, R459). -/
def Clauses.PlansAreProved : Prop :=
  ∀ (s : State) (data : Word),
    (bitOf data.toNat 0 = false ∨ s.chip.radio.proving ≠ none →
      ∃ t, exec (.planLoad data) s = .next t ∧ regsOnly [aPLAN_BASE] s t ∧ fget t.chip aPLAN_BASE 47 12 = bitsOf data.toNat 47 12) ∧
    (bitOf data.toNat 0 = true → s.chip.radio.proving = none →
      ∃ t, exec (.planLoad data) s = .next t ∧ fget t.chip aPLAN_BASE 47 12 = bitsOf data.toNat 47 12 ∧
        fbit t.chip aPLAN_STATUS 0 = true ∧ fget t.chip aSTRIKE_STATUS 11 8 = 4 ∧
        chipOnly [aPLAN_BASE, aPLAN_STATUS, aSTRIKE_STATUS] s t
          (fun c => { c with radio := { c.radio with proving := some (bitsOf data.toNat 47 12 * 4096) } })) ∧
    (s.chip.radio.proving = none → exec .planProofComplete s = .next s) ∧
    (∀ a, s.chip.radio.proving = some a →
      let s1 := fsetb (rdMod s.chip (fun r => { r with proving := none })) aPLAN_STATUS 0 false
      let h := devReadChecked s1 0 64 a 128
      let n := bNat (unmark h.2.1) 60 4
      let r := devReadChecked h.1 0 64 a n
      let whole := h.2.2 == 0 && decide (128 ≤ n) && decide (n ≤ 2 ^ 26) && r.2.2 == 0 && !r.2.1.any (·.2) && granted s1 0 a n
      let answers := fun (t : State) (code : Nat) => exec .planProofComplete s = .next t ∧ t.chip.radio.proving = none ∧
        fbit t.chip aPLAN_STATUS 0 = false ∧ fget t.chip aPLAN_STATUS 63 48 = code
      (whole = false → ∃ t, answers t 0x5001 ∧ fget t.chip aRADIO_ERR 63 48 = 0x5001 ∧ t.chip.radio.plan = s.chip.radio.plan) ∧
      ∀ p, whole = true → (readPlan (unmark r.2.1)).1 = some p → s.chip.radio.running = false →
        (∀ f, prove r.1 p = some f → ∃ t, answers t 0x5003 ∧ fget t.chip aPLAN_STATUS 31 28 = f.kind % 16 ∧
          t.chip.radio.plan = s.chip.radio.plan ∧ fget t.chip aRADIO_ERR 63 48 = 0x5003) ∧
        (prove r.1 p = none → ∃ t, answers t 0 ∧ t.chip.radio.plan = some p ∧ t.chip.radio.nextPlan = none)) ∧
    ∀ p, s.chip.radio.plan = some p → s.chip.radio.reproving = true →
      let bad := (reproofFails s.chip p).isSome
      ∃ t, exec .planReproofComplete s = .next t ∧ chipOnly [] s t (fun c => { c with radio := { c.radio with
        reproving := false, toReduced := c.radio.toReduced || bad, rebind := if bad then [] else c.radio.rebind } })

/-- A tier request is stored, and refused or pending (R432, R433, R459); one of a plan that does not run is refused (log 21).
ENABLE is accepted over a plan whose lags fit and is refused with kind 7 otherwise (R457, R478); UNMUTE takes carriers of the
ports named out of the muted ones (R446). -/
def Clauses.RadioControls : Prop :=
  ∀ (s : State) (data : Word) (ports : Nat),
    (let v := data.toNat
      let s1 := fset (fset s.chip aTIER_REQ 63 56 (bitsOf v 63 56)) aTIER_REQ 31 0 (bitsOf v 31 0)
      let e := strikeOf s1 (bitsOf v 31 0)
      let refused := fun (code : Nat) => ∃ t, exec (.tierReq data) s = .next t ∧ regsOnly [aTIER_REQ, aRADIO_ERR] s t ∧
        fget t.chip aTIER_REQ 63 56 = bitsOf v 63 56 ∧ fget t.chip aTIER_REQ 31 0 = bitsOf v 31 0 ∧
        fget t.chip aRADIO_ERR 63 48 = code
      (s.chip.radio.running = false → refused (if s.chip.radio.request.isSome then 0x5011 else 0x5012)) ∧
      ∀ p, s.chip.radio.plan = some p → s.chip.radio.running = true →
        (tierCode s1 p (bitsOf v 63 56) e ≠ 0 → refused (tierCode s1 p (bitsOf v 63 56) e)) ∧
        (tierCode s1 p (bitsOf v 63 56) e = 0 → ∃ t q, exec (.tierReq data) s = .next t ∧ t.chip.radio.request = some q ∧
          q.target = bitsOf v 63 56 ∧ (q.effective : Int) = max 0 e ∧ q.taken = false ∧ fbit t.chip aSTRIKE_STATUS 0 = true)) ∧
    (∃ t, exec (.strikeEnable false) s = .next t ∧ regsOnly [aSTRIKE_CTL] s t ∧ fbit t.chip aSTRIKE_CTL 0 = false ∧
      fget t.chip aSTRIKE_CTL 63 1 = fget s.chip aSTRIKE_CTL 63 1) ∧
    (∀ p, fbit s.chip aSTRIKE_CTL 0 = false → s.chip.radio.plan = some p →
      (p.carriers.all (lagOk s.chip) = true → ∃ t, exec (.strikeEnable true) s = .next t ∧ fbit t.chip aSTRIKE_CTL 0 = true ∧
        chipOnly [aSTRIKE_CTL] s t (fun c => { c with radio := { c.radio with flowed := false } })) ∧
      (p.carriers.all (lagOk s.chip) = false → ∃ t, exec (.strikeEnable true) s = .next t ∧ fbit t.chip aSTRIKE_CTL 0 = false ∧
        fget t.chip aPLAN_STATUS 63 48 = 0x5003 ∧ fget t.chip aPLAN_STATUS 31 28 = 7)) ∧
    ∃ t, exec (.unmute ports) s = .next t ∧
      chipOnly [aRADIO_ERR] s t (fun c => { c with radio := { c.radio with muted := t.chip.radio.muted, maskRun := t.chip.radio.maskRun } }) ∧
      (∀ k, k < 8 → (fget t.chip aRADIO_ERR 15 8).testBit k = ((fget s.chip aRADIO_ERR 15 8).testBit k && !ports.testBit k)) ∧
      fget t.chip aRADIO_ERR 63 16 = fget s.chip aRADIO_ERR 63 16 ∧ fget t.chip aRADIO_ERR 7 0 = fget s.chip aRADIO_ERR 7 0 ∧
      ∀ p i k, s.chip.radio.plan = some p → p.carriers[i]? = some k →
        (i ∈ t.chip.radio.muted ↔ i ∈ s.chip.radio.muted ∧ ports.testBit k.port = false)

/-- A boundary begins the next Strike, whose number STRIKE_STATUS shows (R412, R413, R457); in the failed stage none begins
(R601). A phase starts by setting counter 63 of its tile to 1 and lowering its start counter (R427, R438), and a deadline
that finds counter 63 above 0 is reported (R428). -/
def Obligations.StrikesBegin : Prop :=
  ∀ (s : State) (k : Nat),
    (fget s.chip aSEC_STATUS 3 0 = 0xF → exec .strikeBoundary s = .next s) ∧
    (boundaryCalm s.chip = true → ∃ t, exec .strikeBoundary s = .next t ∧ t.chip.radio.number = s.chip.radio.number + 1 ∧
      fget t.chip aSTRIKE_STATUS 63 32 = (s.chip.radio.number + 1) % 2 ^ 32 ∧ t.chip.radio.running = false ∧
      t.chip.tiles = s.chip.tiles ∧ t.chip.strands = s.chip.strands ∧ t.chip.mem = s.chip.mem) ∧
    (phaseHere s.chip k = none → exec (.phaseStart k) s = .next s ∧ exec (.phaseDeadline k) s = .next s) ∧
    ∀ ph tile, phaseHere s.chip k = some (ph, tile) →
      (ph.startCnt < 63 → (∀ b, 1 ≤ b → b < 16 → ph.trig.testBit b = false) → fedByPorts s.chip tile ph.startCnt = false →
        tileQuiet s.chip tile = true →
        ∃ t, exec (.phaseStart k) s = .next t ∧ tileOnly tile s t ∧ acGet t.chip tile 63 = 1 ∧
          acGet t.chip tile ph.startCnt = max (-2147483648) (min 2147483647 (acGet s.chip tile ph.startCnt - 1)) ∧
          ∀ n, n < 63 → n ≠ ph.startCnt → acGet t.chip tile n = acGet s.chip tile n) ∧
      (acGet s.chip tile 63 ≤ 0 → exec (.phaseDeadline k) s = .next s) ∧
      (0 < acGet s.chip tile 63 → ∃ t, exec (.phaseDeadline k) s = .next t ∧
        chipOnly [aRADIO_ERR] s t (fun c => { c with radio := t.chip.radio }) ∧ countedOne s t aRADIO_ERR 47 32 ∧
        fget t.chip aRADIO_ERR 63 48 = 0x5030 ∧ t.chip.radio.number = s.chip.radio.number)

/-- A ring register of a coding half as written, with the ring at its start and served again (R450, R462); a block in
service ends with its record, its count and its counter (R454); a half that fails ends its blocks and waits to have its rings
rebound (R455). -/
def Obligations.CodingBlocks : Prop :=
  ∀ (s : State) (half ring : Nat) (data : Word), half < 2 → ring < 8 →
    let k := 8 * half + ring
    let v := data.toNat
    (∃ t, exec (.codeRingWrite half ring false data) s = .next t ∧ ringA t.chip k = 
        bitsOf v 21 6 * 64 + bitsOf v 47 40 * 2 ^ 40 + max 4 (min 12 (bitsOf v 57 54)) * 2 ^ 54 +
          (fget s.chip (aCODE_RING_A half ring) 39 22 * 2 ^ 22 + fget s.chip (aCODE_RING_A half ring) 53 48 * 2 ^ 48 +
            fget s.chip (aCODE_RING_A half ring) 63 58 * 2 ^ 58) ∧
      (getRing t.chip k).head = 0 ∧ (fget t.chip (aCODE_STATUS half) 15 8).testBit ring = false ∧
      chipOnly [aCODE_RING_A half ring, aCODE_STATUS half] s t (fun c => { c with code := t.chip.code }) ∧
      ∀ j, j ≠ k → getRing t.chip j = getRing s.chip j) ∧
    (∃ t, exec (.codeRingWrite half ring true data) s = .next t ∧
      fget t.chip (aCODE_RING_B half ring) 21 5 = bitsOf v 21 5 ∧ fget t.chip (aCODE_RING_B half ring) 43 25 = bitsOf v 43 25 ∧
      fget t.chip (aCODE_RING_B half ring) 47 44 = bitsOf v 47 44 ∧ fget t.chip (aCODE_RING_B half ring) 4 0 = 0 ∧
      fget t.chip (aCODE_RING_B half ring) 24 22 = 0 ∧ (getRing t.chip k).head = 0 ∧
      chipOnly [aCODE_RING_B half ring, aCODE_STATUS half] s t (fun c => { c with code := t.chip.code })) ∧
    ((getRing s.chip k).jobs = [] ∨ halfServes s.chip (ringHalf s.chip k) = false →
      exec (.codingBlockComplete half ring) s = .next s) ∧
    (∀ j r tile, (getRing s.chip k).jobs = j :: r → halfServes s.chip (ringHalf s.chip k) = true → codeDescOk j.d = false →
      tileSide s.chip 0 (tileAddr j.tile (j.results + 32 * j.index)) 32 = (tile, 0) → j.tile < 256 → tileQuiet s.chip tile = true →
      j.d.length = 64 → (j.results + 32 * j.index) % 8 = 0 → j.results + 32 * j.index < 2 ^ 22 → bNat j.d 48 1 < 128 →
      let c := bNat j.d 48 1 % 64
      let at0 := j.results + 32 * j.index
      ∃ t, exec (.codingBlockComplete half ring) s = .next t ∧ (getRing t.chip k).jobs = r ∧
        fget t.chip (aCODE_STATUS (ringHalf s.chip k)) 31 16 = 0x5040 ∧ countedOne s t (aCODE_STATUS (ringHalf s.chip k)) 63 32 ∧
        fget t.chip aRADIO_ERR 63 48 = 0x5040 ∧ (bankBytes t tile at0 16).take 5 = [0x40#8, 0x50#8, 0#8, 0#8, BitVec.ofNat 8 (ringHalf s.chip k)] ∧
        (bankBytes t tile at0 16).drop 8 = j.d.drop 56 ∧ banksKept s t tile at0 32 ∧
        acGet t.chip tile c = max (-2147483648) (min 2147483647 (acGet s.chip tile c - 1))) ∧
    (fget s.chip (aCODE_STATUS half) 3 0 = 2 → exec (.codingHalfFailure half) s = .next s) ∧
    (fget s.chip (aCODE_STATUS half) 3 0 ≠ 2 → (∀ j, j < 16 → ringHalf s.chip j = half → (getRing s.chip j).jobs = []) →
      ∃ t, exec (.codingHalfFailure half) s = .next t ∧ fget t.chip (aCODE_STATUS half) 3 0 = 2 ∧ half ∈ t.chip.radio.rebind ∧
        (t.chip.radio.reproving = true ↔ s.chip.radio.reproving = true ∨
          (s.chip.radio.plan ≠ none ∧ s.chip.radio.running = true ∧ s.chip.radio.reduced = false)) ∧
        chipOnly [aCODE_STATUS half] s t (fun c => { c with radio := t.chip.radio, code := t.chip.code }) ∧
        ∀ j, getRing t.chip j = getRing s.chip j)

-- Fronthaul and time (chapter 10) --------------------------------------------------------------------------

/-- A frame on a port that is up (R467, R473, R475, R485): one with a bad check sequence is counted and dropped, one that the
port does not accept is counted apart, and an uplink frame that nothing stops leaves one section for each steering entry of
its identifier. A port that is not up receives nothing. -/
def Clauses.FramesArrive : Prop :=
  ∀ (s : State) (port : Nat) (f : Frame), port < 8 → trigsOff s.chip = true → capsOff s.chip = true →
    (portState s.chip port ≠ 2 → exec (.frameReceived port f) s = .next s) ∧
    (portState s.chip port = 2 → f.fcsOk = false → ∃ t, exec (.frameReceived port f) s = .next t ∧
      regsOnly [aFH port 8, aFH port 16] s t ∧ fget t.chip (aFH port 8) 63 48 = 0x8042 ∧ countedOne s t (aFH port 16) 31 0) ∧
    (portState s.chip port = 2 → f.fcsOk = true → frameAccepted s.chip port f = false → ∃ t, exec (.frameReceived port f) s = .next t ∧
      regsOnly [aFH port 16] s t ∧ countedOne s t (aFH port 16) 63 48) ∧
    ∀ eaxc q air sym start w blocks c, f.body = .uplane eaxc q true false false air sym start w blocks → f.ethertype = 0xAEFE →
      portState s.chip port = 2 → f.fcsOk = true → frameAccepted s.chip port f = true →
      colour (policeShape s.chip port) (getPort s.chip port).policer (f.len + (policeShape s.chip port).ovh) = 2 →
      carrierOf s.chip port eaxc = some c → c.mode ≠ 1 → w = c.bfpw → (blocks.all (fun b => b.2.length == 24)) = true →
      (blocks.map (fun b => (bfpParts w b).2)).sum = 0 → steering s.chip port eaxc ≠ [] →
      s.chip.radio.number ≤ air + 1 → air ≤ s.chip.radio.number + 1 →
      let j := sym - firstSymbol s.chip c.scs air
      let words := ciWords ((blocks.map (bfpParts w)).flatMap (·.1))
      ∃ t, exec (.frameReceived port f) s = .next t ∧
        (getPort t.chip port).sections = (getPort s.chip port).sections ++ (steering s.chip port eaxc).map (fun e =>
          ⟨e, fget s.chip (aRXMAP_A port e) 56 49,
            fget s.chip (aRXMAP_A port e) 21 6 * 64 + air % 4 * fget s.chip (aRXMAP_B port e) 15 0 * 64 +
              j * fget s.chip (aRXMAP_B port e) 31 16 * 64 + 48 * start, words⟩) ∧
        (getPort t.chip port).policer = chargeBucket (policeShape s.chip port) (getPort s.chip port).policer
          (f.len + (policeShape s.chip port).ovh) ∧
        chipOnly [aFH port 8, aFH port 16] s t (fun x => { x with ports := t.chip.ports, ctrLive := t.chip.ctrLive }) ∧
        ∀ k, k ≠ port → getPort t.chip k = getPort s.chip k

/-- A section that waits is written to its tile, whose counter takes it; one whose tile is absent or fenced is counted and
dropped, and with none nothing happens (R434, R473). -/
def Clauses.SectionsAreWritten : Prop :=
  ∀ (s : State) (port : Nat), port < 8 →
    ((getPort s.chip port).sections = [] → exec (.ingressSectionWritten port) s = .next s) ∧
    ∀ x r, (getPort s.chip port).sections = x :: r →
      (physOf s.chip 0 x.tile = none → ∃ t, exec (.ingressSectionWritten port) s = .next t ∧
        chipOnly [aFH port 16] s t (fun c => { c with ports := t.chip.ports }) ∧ countedOne s t (aFH port 16) 31 0 ∧
        (getPort t.chip port).sections = r) ∧
      ∀ tile, tileSide s.chip 0 (tileAddr x.tile x.addr) (4 * x.words.length) = (tile, 0) → x.tile < 256 → tileFenced s.chip tile = false →
        tile ∉ s.chip.radio.toLoad → x.addr < 2 ^ 22 → x.addr % 8 = 0 → x.words.length % 2 = 0 → x.words ≠ [] → tileQuiet s.chip tile = true →
        let c := fget s.chip (aRXMAP_A port x.entry) 62 57
        ∃ t, exec (.ingressSectionWritten port) s = .next t ∧ (getPort t.chip port).sections = r ∧
          bankBytes t tile x.addr (4 * x.words.length) = x.words.flatMap (leBytes 4) ∧
          banksKept s t tile x.addr (4 * x.words.length) ∧ t.chip.strands = s.chip.strands ∧
          acGet t.chip tile c = max (-2147483648) (min 2147483647 (acGet s.chip tile c - 1))

/-- The egress side of a port (R476, R479, R482): a ring register as written, with the ring at its start; a chosen frame
leaves the buffer and is charged; a frame whose limit has passed is discarded and counted. -/
def Clauses.FramesLeave : Prop :=
  ∀ (s : State) (port ring queue : Nat) (data : Word), port < 8 → ring < 4 → queue < 16 →
    (let v := data.toNat
      ∃ t, exec (.egressRingWrite port ring data) s = .next t ∧ fget t.chip (aTXRING port ring) 63 60 = bitsOf v 63 60 ∧
        fget t.chip (aTXRING port ring) 59 56 = max 4 (min 12 (bitsOf v 59 56)) ∧
        fget t.chip (aTXRING port ring) 55 48 = bitsOf v 55 48 ∧ fget t.chip (aTXRING port ring) 43 25 = bitsOf v 43 25 ∧
        fget t.chip (aTXRING port ring) 24 22 = 0 ∧ fget t.chip (aTXRING port ring) 21 5 = bitsOf v 21 5 ∧
        fget t.chip (aTXRING port ring) 4 0 = 0 ∧ tget (fun _ => 0) (getPort t.chip port).heads ring = 0 ∧
        tmem (getPort t.chip port).stops ring = false ∧
        chipOnly [aTXRING port ring] s t (fun c => { c with ports := t.chip.ports })) ∧
    (portState s.chip port ≠ 2 ∨ chooseFrame s.chip port = none → exec (.egressFrameStart port) s = .next s) ∧
    (∀ f, portState s.chip port = 2 → s.chip.boot.undervolt = false → chooseFrame s.chip port = some f →
      capsOff s.chip = true → (∀ r, r < 4 → tget (fun _ => 0) (getPort s.chip port).owed r = 0) →
      ∃ t, exec (.egressFrameStart port) s = .next t ∧ (getPort t.chip port).frames = (getPort s.chip port).frames.erase f ∧
        (getPort t.chip port).sent = some f ∧ t.chip.radio = { s.chip.radio with flowed := true } ∧
        portBucket t.chip port f.queue = chargeBucket (portShape s.chip port f.queue) (portBucket s.chip port f.queue) (counted s.chip port f) ∧
        tget (fun _ => 0) (getPort t.chip port).txSeq f.eaxc = (tget (fun _ => 0) (getPort s.chip port).txSeq f.eaxc + 1) % 256 ∧
        t.chip.bar = s.chip.bar ∧ t.chip.tiles = s.chip.tiles ∧ t.chip.strands = s.chip.strands) ∧
    let late := (getPort s.chip port).frames.find? (fun f => f.queue == queue && decide (f.limit < (nowNs s.chip : Int)))
    (late = none → exec (.egressLateDiscard port queue) s = .next s) ∧
    ∀ f, late = some f → (∀ r, r < 4 → tget (fun _ => 0) (getPort s.chip port).owed r = 0) →
      ∃ t, exec (.egressLateDiscard port queue) s = .next t ∧ (getPort t.chip port).frames = (getPort s.chip port).frames.erase f ∧
        fget t.chip (aFH port 8) 63 48 = 0x8022 ∧ countedOne s t (aFH port 16) 31 0 ∧
        chipOnly [aFH port 8, aFH port 16] s t (fun c => { c with ports := t.chip.ports })

/-- Every bucket gains 8 ns of its rates up to its depths; a shaper's register as written within its limits, with its buckets
full or empty; samples and their maxima (R481 to R487). -/
def Clauses.ShapersRun : Prop :=
  ∀ (s : State) (port queue : Nat) (isB : Bool) (data : Word), queue < 16 →
    (∃ t, exec .shaperTick s = .next t ∧ t.chip.bar = s.chip.bar ∧
      (∀ p q, p < 8 → q < 16 → portBucket t.chip p q = fill (portShape s.chip p q) (portBucket s.chip p q)) ∧
      (∀ p, p < 8 → (getPort t.chip p).policer = fill (policeShape s.chip p) (getPort s.chip p).policer) ∧
      ∀ l q, l < 32 → q < 16 → linkBucket t.chip l q = fill (linkShape s.chip l q) (linkBucket s.chip l q)) ∧
    (port < 8 → ∃ t, exec (.shaperWrite false port queue isB data) s = .next t ∧
      barGet t.chip (aFH port ((if isB then 0x108 else 0x100) + 16 * queue)) = shapeValue isB data.toNat ∧
      portBucket t.chip port queue = resetBucket (portShape t.chip port queue) data.toNat ∧
      (∀ k, k ≠ queue → portBucket t.chip port k = portBucket s.chip port k) ∧
      chipOnly [aFH port ((if isB then 0x108 else 0x100) + 16 * queue)] s t (fun c => { c with ports := t.chip.ports })) ∧
    (port < 32 → ∃ t, exec (.shaperWrite true port queue isB data) s = .next t ∧
      barGet t.chip (if isB then aFL_SHAPE_B port queue else aFL_SHAPE_A port queue) = shapeValue isB data.toNat ∧
      linkBucket t.chip port queue = resetBucket (linkShape t.chip port queue) data.toNat ∧
      chipOnly [if isB then aFL_SHAPE_B port queue else aFL_SHAPE_A port queue] s t (fun c => { c with fab := t.chip.fab })) ∧
    (port < 8 → ∃ t, exec (.policerWrite port isB data) s = .next t ∧
      barGet t.chip (aFH port (if isB then 0x308 else 0x300)) = shapeValue isB data.toNat ∧
      (getPort t.chip port).policer = resetBucket (policeShape t.chip port) data.toNat ∧
      chipOnly [aFH port (if isB then 0x308 else 0x300)] s t (fun c => { c with ports := t.chip.ports })) ∧
    (port < 8 → ∃ t, exec (.queueSample port) s = .next t ∧ regsOnly ((List.range 16).map (fun q => aFH port (0x200 + 8 * q))) s t ∧
      let k := aFH port (0x200 + 8 * queue)
      let fs := (getPort s.chip port).frames.filter (fun f => f.queue == queue)
      fget t.chip k 15 0 = min ((fs.map (·.len)).sum / 256) 0xFFFF ∧ (fs = [] → fget t.chip k 31 16 = 0) ∧
        fget t.chip k 47 32 = max (fget t.chip k 15 0) (fget s.chip k 47 32) ∧
        fget t.chip k 63 48 = max (fget t.chip k 31 16) (fget s.chip k 63 48))

/-- A port trains when it is enabled, is off and empty when it is disabled, and goes down with its frames discarded as late;
a port that trains or was down comes up (R488, R507). -/
def Clauses.PortsChange : Prop :=
  ∀ (s : State) (port : Nat), port < 8 →
    (fbit s.chip (aFH port 0) 0 = false → fhPowered s.chip = true → ∃ t, exec (.portEnable port true) s = .next t ∧
      regsOnly [aFH port 0, aFH port 8] s t ∧ fbit t.chip (aFH port 0) 0 = true ∧ portState t.chip port = 1) ∧
    (fbit s.chip (aFH port 0) 0 = true → ∃ t, exec (.portEnable port false) s = .next t ∧ fbit t.chip (aFH port 0) 0 = false ∧
      portState t.chip port = 0 ∧ (getPort t.chip port).frames = [] ∧
      chipOnly [aFH port 0, aFH port 8, aFH port 16] s t (fun c => { c with ports := t.chip.ports })) ∧
    (portState s.chip port ≠ 2 → exec (.portLinkDown port) s = .next s) ∧
    (portState s.chip port = 2 → ∃ t, exec (.portLinkDown port) s = .next t ∧ portState t.chip port = 3 ∧
      (getPort t.chip port).frames = [] ∧ (getPort t.chip port).sections = (getPort s.chip port).sections ∧
      fget t.chip (aFH port 16) 31 0 = min (fget s.chip (aFH port 16) 31 0 + 1 + (getPort s.chip port).frames.length) (2 ^ 32 - 1) ∧
      chipOnly [aFH port 8, aFH port 16] s t (fun c => { c with ports := t.chip.ports })) ∧
    (fbit s.chip (aFH port 0) 0 = true → fhPowered s.chip = true → (portState s.chip port = 1 ∨ portState s.chip port = 3) →
      ∃ t, exec (.portLinkUp port) s = .next t ∧ regsOnly [aFH port 8] s t ∧ portState t.chip port = 2)

/-- A base is stepped and its frequency set, unless it is held by a servo or by the Strikes: then 0x8005 is recorded and
nothing else changes (R490, R491). Reads and snapshots of a base (R24, R492). -/
def Clauses.TimeBases : Prop :=
  ∀ (s : State) (base fn : Nat) (data : Word), base < 4 →
    let timed := fun (t : State) (code : Nat) => t = { s with chip := { s.chip with time := { s.chip.time with lastCode := code } } }
    (baseFree s.chip base = false →
      (∃ t, exec (.timeBaseStep base data) s = .next t ∧ timed t 0x8005) ∧
      ∃ t, exec (.timeBaseFreqWrite base data) s = .next t ∧ timed t 0x8005) ∧
    (∀ v : Nat, baseFree s.chip base = true → trigsOff s.chip = true → (v : Int) = (tbGet s.chip base : Int) + data.toInt * 2 ^ 34 →
      v < tvMod → ∃ t, exec (.timeBaseStep base data) s = .next t ∧ tbGet t.chip base = v ∧
        (∀ k, k ≠ base → tbGet t.chip k = tbGet s.chip k) ∧
        t = { s with chip := { s.chip with time := { s.chip.time with tb := t.chip.time.tb } } }) ∧
    (baseFree s.chip base = true → ∃ t, exec (.timeBaseFreqWrite base data) s = .next t ∧ regsOnly [aTB base 0x18] s t ∧
      signed 32 (fget t.chip (aTB base 0x18) 31 0) = max (-429497) (min 429497 (signed 32 data.toNat))) ∧
    (∃ t, exec (.tbSecRead 0 base) s = .next t ∧ t.chip.resp.toNat = tvSec (tbGet s.chip base) ∧
      t.chip.latch = tset (fun _ => none) (barKey 0 (aTB base 8)) (some (tvNsf (tbGet s.chip base))) s.chip.latch ∧ t.chip.bar = s.chip.bar ∧
      (3 ≤ stageNow s.chip → ∃ u, exec (.registerReadSideEffect 0 (aTB base 8) 8) t = .next u ∧
        u.chip.resp.toNat = tvNsf (tbGet s.chip base))) ∧
    (1 ≤ fn → fn < 64 → ∃ t, exec (.tbSecRead fn base) s = .next t ∧ t.chip.resp = BitVec.allOnes 64 ∧
      countedOne s t aRAS_STATUS 31 0 ∧ chipOnly [aRAS_STATUS] s t (fun c => { c with resp := t.chip.resp })) ∧
    ∃ t, exec .timeSnapshot s = .next t ∧ barGet t.chip (aTB base 0x20) = tvSec (tbGet s.chip base) ∧
      barGet t.chip (aTB base 0x28) = tvNsf (tbGet s.chip base) ∧
      regsOnly ((List.range 4).flatMap (fun b => [aTB b 0x20, aTB b 0x28])) s t

/-- The servo loses its Sync messages, holdover expires, the frequency reference goes (R497, R498, R501); each only in the
state it is told of. -/
def Clauses.ServoEvents : Prop :=
  ∀ s : State,
    let onto := fun (c : Instr) (state code : Nat) (lock : Bool) => ∃ t, exec c s = .next t ∧ servoState t.chip = state ∧
      fbit t.chip aSTRIKE_STATUS 1 = lock ∧ t.chip.time.lastCode = code ∧ t.chip.time.tb = s.chip.time.tb ∧
      chipOnly [aPTP_STATUS, aSTRIKE_STATUS] s t (fun x => { x with time := t.chip.time })
    (servoState s.chip ≠ 2 → exec .syncTimeout s = .next s) ∧ (servoState s.chip = 2 → onto .syncTimeout 3 0x8002 true) ∧
    (servoState s.chip ≠ 3 → exec .holdoverExpiry s = .next s) ∧ (servoState s.chip = 3 → onto .holdoverExpiry 0 0x8003 false) ∧
    (fget s.chip aPTP_STATUS 11 8 ≠ 1 → exec .synceReferenceLost s = .next s) ∧
    (fget s.chip aPTP_STATUS 11 8 = 1 → ∃ t, exec .synceReferenceLost s = .next t ∧ fget t.chip aPTP_STATUS 11 8 = 2 ∧
      t.chip.time.lastCode = 0x8004 ∧ chipOnly [aPTP_STATUS] s t (fun x => { x with time := { x.time with lastCode := 0x8004 } }))

/-- Time triggers (R502, R503, R508), shown for those without an action: arming one ahead of its base only arms it; one whose
target has come is counted and, when one-shot, disarmed, or moved to the first period ahead. -/
def Clauses.TriggersFire : Prop :=
  ∀ (s : State) (i pin : Nat) (data : Word), i < 16 → pin < 2 →
    let k := aTT_CTL i
    let quiet := fget s.chip k 59 41 = 0
    (∀ armed, armed = fset s.chip k 63 41 (bitsOf data.toNat 63 41) → (bitOf data.toNat 63 = false ∨ ttNow armed i ≤ ttTarget armed i) →
      ∃ t, exec (.timeTriggerArm i data) s = .next t ∧ regsOnly [k] s t ∧ fget t.chip k 63 41 = bitsOf data.toNat 63 41 ∧
        fget t.chip k 40 0 = fget s.chip k 40 0) ∧
    (fbit s.chip k 63 = false ∨ ttNow s.chip i < ttTarget s.chip i → exec (.timeTriggerFire i) s = .next s) ∧
    (fbit s.chip k 63 = true → ttTarget s.chip i ≤ ttNow s.chip i → quiet →
      (fbit s.chip k 62 = false → ∃ t, exec (.timeTriggerFire i) s = .next t ∧ regsOnly [k] s t ∧ fbit t.chip k 63 = false ∧
        countedOne s t k 15 0) ∧
      (fbit s.chip k 62 = true → ttNow s.chip i + ttPeriod s.chip i < tvMod → ∃ t, exec (.timeTriggerFire i) s = .next t ∧
        chipOnly [k, k + 8, k + 16] s t (fun c => { c with time := t.chip.time }) ∧ fbit t.chip k 63 = true ∧ countedOne s t k 15 0 ∧
        ttNow t.chip i < ttTarget t.chip i ∧ ttTarget t.chip i ≤ ttNow t.chip i + ttPeriod t.chip i)) ∧
    ∃ t, exec (.timeOutPulseEnd pin) s = .next t ∧
      t = { s with chip := { s.chip with time := { s.chip.time with outs := tset (fun _ => false) pin false s.chip.time.outs } } }

/-- An edge of a TIME_IN pin is stamped within 2 ns by each unit that is armed for it and holds no stamp (R504, R505, R714);
reading the stamp arms the unit again (R504). -/
def Clauses.StampsAreTaken : Prop :=
  ∀ (s : State) (pin unit : Nat) (rising : Bool), pin < 4 → unit < 16 →
    let k := aTC_CTL unit
    (∃ t, exec (.timeInEdge pin rising) s = .next t ∧ fbit t.chip aPKG_PINS (4 + pin) = rising ∧
      t.chip.time.tb = s.chip.time.tb ∧ t.chip.tiles = s.chip.tiles ∧
      (fbit s.chip k 63 = true → fget s.chip k 60 58 = (if rising then 3 else 4) → fget s.chip k 57 54 = pin → fbit s.chip k 44 = false →
        fbit t.chip k 44 = true ∧ ∃ d : Int, -(2 ^ 35) ≤ d ∧ d ≤ 2 ^ 35 ∧
          barGet t.chip (k + 8) = tvSec (stampAt s.chip (fget s.chip k 62 61) d) ∧
          fget t.chip (k + 16) 47 0 = tvNsf (stampAt s.chip (fget s.chip k 62 61) d)) ∧
      (fbit s.chip k 63 = true → fget s.chip k 60 58 = (if rising then 3 else 4) → fget s.chip k 57 54 = pin → fbit s.chip k 44 = true →
        countedOne s t k 15 0 ∧ barGet t.chip (k + 8) = barGet s.chip (k + 8) ∧ barGet t.chip (k + 16) = barGet s.chip (k + 16) ∧
          t.chip.time.lastCode = 0x8030)) ∧
    ∃ t, exec (.captureRead unit) s = .next t ∧ t.chip.resp.toNat = barGet s.chip (k + 16) ∧ fbit t.chip k 44 = false ∧
      chipOnly [k] s t (fun c => { c with resp := t.chip.resp }) ∧ fget t.chip k 63 45 = fget s.chip k 63 45

/-- A PTP message that the port's role has it send leaves through queue 0 (R480 to R482, R494 to R496); one that it does not
send, or from a port that is not up, does not. -/
def Clauses.PtpMessagesLeave : Prop :=
  ∀ (s : State) (port m : Nat), port < 8 → capsOff s.chip = true →
    (portState s.chip port ≠ 2 ∨ ptpSends s.chip port m = false → exec (.ptpMessageTransmit port m) s = .next s) ∧
    let h := portShape s.chip port 0
    let n := ptpLen m + h.ovh
    (portState s.chip port = 2 → s.chip.boot.undervolt = false → (fget s.chip aPTP_CTL 15 8).testBit port = true →
      ptpSends s.chip port m = true → colour h (portBucket s.chip port 0) n ≠ 0 →
      ∃ t, exec (.ptpMessageTransmit port m) s = .next t ∧ portBucket t.chip port 0 = chargeBucket h (portBucket s.chip port 0) n ∧
        tget (fun _ => 0) t.chip.ctrLive 160 = min (tget (fun _ => 0) s.chip.ctrLive 160 + ptpLen m) (2 ^ 64 - 1) ∧
        chipOnly [] s t (fun c => { c with ports := t.chip.ports, ctrLive := t.chip.ctrLive }) ∧
        (getPort t.chip port).frames = (getPort s.chip port).frames)

-- Partitions (chapter 11) ----------------------------------------------------------------------------------

/-- A partition command in a state that does not allow it, or while one is in progress, is refused with 0x4001 and has no
other effect (R515). -/
def Clauses.PartitionCommandsRefused : Prop :=
  ∀ (s : State) (p a b e n : Nat) (w : Word), p < 16 →
    ∀ c states, (c, states) ∈ ([(.partCreate p, [0]), (.partDestroy p, [1, 2, 5]), (.partAdd p a, [1, 2, 3, 4, 5]),
        (.partMove p a b e, [1, 2, 3, 4, 5]), (.partMap p w, [1, 2, 3]), (.partLoad p w, [1, 2]), (.partStart p, [2]), (.partStop p, [3]),
        (.partFreeze p, [3]), (.partSave p n w, [5]), (.partRestore p w, [1]), (.partThaw p, [5]), (.partFlip p, [1, 2, 3, 4, 5]),
        (.partCancel p a, [1, 2, 3, 4, 5])] : List (Instr × List Nat)) →
      partReady s.chip p states = false →
      ∃ t, exec c s = .next t ∧ regsOnly [aPART_CMD_STATUS, aPART_STATUS p] s t ∧ fget t.chip aPART_CMD_STATUS 63 48 = 0x4001 ∧
        fget t.chip (aPART_STATUS p) 63 48 = 0x4001 ∧ partState t.chip p = partState s.chip p

/-- An ADD that names a group that is not free, a MOVE of a group that the partition does not hold, and a MOVE of a group of
partition 0's hard reserve are refused with 0x4002 (R516). -/
def Clauses.GroupsAreRefused : Prop :=
  ∀ (s : State) (p groups target effective g : Nat), p < 16 → groups < 2 ^ 36 → partReady s.chip p [1, 2, 3, 4, 5] = true →
    (p ≠ 0 ∨ fbit s.chip aSTRIKE_CTL 0 = false) →
    let refused := fun c => ∃ t, exec c s = .next t ∧ partAnswered [aPART_STATUS p] s t p 0x4002 ∧ getPart t.chip p = getPart s.chip p
    ((∃ g, g < 36 ∧ groups.testBit g = true ∧ groupFree s.chip g = false) → refused (.partAdd p groups)) ∧
    (target ≠ p → (target ≠ 0 ∨ fbit s.chip aSTRIKE_CTL 0 = false) → (target = 16 ∨ (target < 16 ∧ partState s.chip target ≠ 0)) →
      g < 36 → groups.testBit g = true → ((heldGroups s.chip p).testBit g = false ∨ (p = 0 ∧ groupHard s.chip g = true)) →
      refused (.partMove p groups target effective))

/-- What the partition commands do that take effect (R515 to R518, R521, R545): a partition made, its groups added and moved,
its map set for the next boundary, one bitmap exchanged for the other. -/
def Clauses.PartitionsAreSetUp : Prop :=
  ∀ (s : State) (p groups target effective : Nat) (w : Word), 1 ≤ p → p < 16 → groups < 2 ^ 36 →
    (partReady s.chip p [0] = true → ∃ t, exec (.partCreate p) s = .next t ∧ partAnswered [aPART_CTL p, aPART_STATUS p] s t p 0 ∧
      partState t.chip p = 1 ∧ getPart t.chip p = { passing := (getPart s.chip p).passing } ∧ fbit t.chip (aPART_CTL p) 1 = false) ∧
    (partReady s.chip p [1, 2, 3, 4, 5] = true → (bitsBelow 36 groups).all (groupFree s.chip) = true → ∃ t,
      exec (.partAdd p groups) s = .next t ∧ partAnswered [] s t p 0 ∧
        getPart t.chip p = { getPart s.chip p with joining := Nat.lor (getPart s.chip p).joining groups }) ∧
    (partReady s.chip p [1, 2, 3, 4, 5] = true → target ≠ p → target ≠ 0 → (target = 16 ∨ (target < 16 ∧ partState s.chip target ≠ 0)) →
      (∀ g, g < 36 → groups.testBit g = true → (heldGroups s.chip p).testBit g = true) → movePending s.chip p groups = false →
      groups ≠ 0 →
      (partState s.chip p = 1 → ∃ t, exec (.partMove p groups target effective) s = .next t ∧ partAnswered [] s t p 0 ∧
        getPart t.chip p = { getPart s.chip p with passing := (getPart s.chip p).passing ++ [(target, groups)] }) ∧
      (partState s.chip p ≠ 1 → strikeOf s.chip effective < (s.chip.radio.number + quenchLead s.chip : Nat) → ∃ t,
        exec (.partMove p groups target effective) s = .next t ∧ partAnswered [aPART_STATUS p] s t p 0x4011 ∧
          getPart t.chip p = getPart s.chip p)) ∧
    (partReady s.chip p [1, 2, 3] = true →
      let h := hearthRead s.chip p w.toNat 4
      let n := bNat h.2.1 0 2
      let b := hearthRead h.1 p (w.toNat + 4) n
      let l := b.2.1.map (·.toNat)
      h.2.2 = 0 → 1 ≤ n → n ≤ 144 → bNat h.2.1 2 1 = 1 → b.2.2 = 0 → mapTilesOk (mapTiles s.chip p) l = true →
        ∃ t, exec (.partMap p w) s = .next t ∧ fget t.chip aPART_CMD_STATUS 63 48 = 0 ∧ (getPart t.chip p).nextMap = some l ∧
          (getPart t.chip p).map = (getPart b.1 p).map) ∧
    (partReady s.chip p [1, 2, 3, 4, 5] = true → ∃ t, exec (.partFlip p) s = .next t ∧ partAnswered [aPART_DMAP p] s t p 0 ∧
      fbit t.chip (aPART_DMAP p) 1 = !fbit s.chip (aPART_DMAP p) 1) ∧
    (partReady s.chip p [1, 2, 3, 4, 5] = true → allQuiet s.chip = true → ∃ t, exec (.partCancel p groups) s = .next t ∧
      fget t.chip aPART_CMD_STATUS 63 48 = 0 ∧
      ∀ q m, q < 16 → m ∈ (getPart t.chip q).moves → m.origin = .radio ∨ ∀ g, g < 36 → groups.testBit g = true → m.groups.testBit g = false)

/-- Loading, starting, stopping, freezing, thawing and ending a partition (R515, R532, R542, R543, R546, R551). -/
def Clauses.PartitionsRun : Prop :=
  ∀ (s : State) (p : Nat) (w : Word), 1 ≤ p → p < 16 →
    (partReady s.chip p [1, 2] = true →
      let h := hearthRead s.chip p w.toNat 64
      let b := hearthRead h.1 p w.toNat (Config.progField 5 h.2.1)
      let f := fun k => Config.progField k b.2.1
      let g : Prog := ⟨w.toNat, f 0, f 1, f 2, f 3, f 4 == 1⟩
      let code := if h.2.2 ≠ 0 then h.2.2 else if b.2.2 ≠ 0 then b.2.2
        else if progCode s.chip p g ≠ 0 then progCode s.chip p g else lockCode s.chip p b.2.1
      (code = 0 → ∃ t, exec (.partLoad p w) s = .next t ∧ fget t.chip aPART_CMD_STATUS 63 48 = 0 ∧ partState t.chip p = 2 ∧
        (getPart t.chip p).prog = some g) ∧
      (code ≠ 0 → code < 2 ^ 16 → ∃ t, exec (.partLoad p w) s = .next t ∧ partAnswered [aPART_STATUS p] s t p code ∧
        partState t.chip p = partState s.chip p ∧ getPart t.chip p = getPart s.chip p)) ∧
    (partReady s.chip p [2] = true → ∃ t, exec (.partStart p) s = .next t ∧ partAnswered [aPART_STATUS p] s t p 0 ∧
      partState t.chip p = 3 ∧ getPart t.chip p = { getPart s.chip p with starting := true }) ∧
    (partReady s.chip p [3] = true → ∃ t, exec (.partStop p) s = .next t ∧ partState t.chip p = 2 ∧
      getPart t.chip p = { getPart s.chip p with quiet := true, starting := false } ∧ fget t.chip aPART_CMD_STATUS 63 48 = 0 ∧
      t.chip.tiles = s.chip.tiles ∧
      (∀ tile i, tile ∈ partTiles s.chip p → i < 8 → getStrand t.chip tile i = { getStrand s.chip tile i with held := true }) ∧
      ∀ tile i, tile ∉ partTiles s.chip p → i < 8 → getStrand t.chip tile i = getStrand s.chip tile i) ∧
    (partReady s.chip p [3] = true → ∃ t, exec (.partFreeze p) s = .next t ∧ partAnswered [aPART_STATUS p] s t p 0 ∧
      partState t.chip p = 4 ∧ getPart t.chip p = { getPart s.chip p with freezing := true, starting := false }) ∧
    (partState s.chip p = 4 → (getPart s.chip p).freezing = false → partDrained s.chip p = true → ∃ t,
      exec (.freezeComplete p) s = .next t ∧ partState t.chip p = 5 ∧ t.chip.parts = s.chip.parts ∧ t.chip.strands = s.chip.strands) ∧
    (partState s.chip p ≠ 4 ∨ partDrained s.chip p = false → exec (.freezeComplete p) s = .next s) ∧
    (partState s.chip p = 4 → (getPart s.chip p).freezing = false → partXfers s.chip p ≠ [] → ∃ t,
      exec (.freezeTimeout p) s = .next t ∧ fget t.chip (aPART_STATUS p) 63 48 = 0x4040 ∧ partState t.chip p = 4 ∧
      t.chip.strands = s.chip.strands ∧ t.chip.parts = s.chip.parts) ∧
    (partReady s.chip p [5] = true → ∃ t, exec (.partThaw p) s = .next t ∧ partAnswered [] s t p 0 ∧
      getPart t.chip p = { getPart s.chip p with thawing := true }) ∧
    (partReady s.chip p [1, 2, 5] = true →
      let x := getPart s.chip p
      let moving := x.moves.map (fun m => (m.target, m.groups)) ++ x.passing
      let rest := moving.foldl (fun a m => dropBits a m.2) (heldGroups s.chip p)
      ∃ t, exec (.partDestroy p) s = .next t ∧ fget t.chip aPART_CMD_STATUS 63 48 = 0 ∧ partState t.chip p = 0 ∧
        getPart t.chip p = { passing := moving ++ (if rest = 0 then [] else [(0x10, rest)]) })

/-- A frozen partition's image is written, and a later RESTORE of it into an idle partition without a program brings the
partition back frozen (R544, R546; the image's form is the model's own, log 15). A virtual function's reset empties its
mailbox and stops the partitions it controls (R541). -/
def Clauses.PartitionsAreSaved : Prop :=
  ∀ (s : State) (p engine fn : Nat) (w : Word), 1 ≤ p → p < 16 → engine < 16 → 1 ≤ fn → fn < 64 →
    (partReady s.chip p [5] = true → ∃ t, exec (.partSave p engine w) s = .next t ∧ partAnswered [] s t p 0 ∧
      getPart t.chip p = { getPart s.chip p with saving := some w.toNat } ∧ fbit t.chip aPART_CMD_STATUS 0 = true) ∧
    ((getPart s.chip p).saving = none → exec (.saveComplete p) s = .next s) ∧
    (∀ a, (getPart s.chip p).saving = some a → ∃ t, exec (.saveComplete p) s = .next t ∧ fbit t.chip aPART_CMD_STATUS 0 = false ∧
      (getPart t.chip p).saving = none ∧ t.chip.images = s.chip.images ++ [imageOf s.chip p]) ∧
    (partReady s.chip p [1] = true →
      let h := hearthRead s.chip p w.toNat 4096
      (∀ m, s.chip.images[bNat h.2.1 24 8]? = some m → h.2.2 = 0 → (getPart s.chip p).prog = none → imageOk s.chip p m h.2.1 = true →
        ∃ t, exec (.partRestore p w) s = .next t ∧ fget t.chip aPART_CMD_STATUS 63 48 = 0 ∧ partState t.chip p = 5 ∧
          (getPart t.chip p).prog = some m.prog ∧ (getPart t.chip p).quiet = true) ∧
      (s.chip.images[bNat h.2.1 24 8]? = none → ∃ t, exec (.partRestore p w) s = .next t ∧
        partAnswered [aPART_STATUS p] s t p 0x4041 ∧ partState t.chip p = 1)) ∧
    (queuesWhere s.chip (fun c => cFunc c == fn && cKind c == 1 && cState c != 0) = [] →
      (∀ q, q < 16 → controller s.chip q ≠ fn ∨ partState s.chip q ≠ 3) → ∃ t, exec (.vfFlr fn) s = .next t ∧
        getHasp t.chip fn = { getHasp s.chip fn with toTenant := [], toManager := [], agreed := false, version := 0 } ∧
        (∀ k, k ≠ fn → getHasp t.chip k = getHasp s.chip k) ∧ chipOnly [] s t (fun c => { c with hasp := t.chip.hasp }))

/-- The grant table (R519, R520, R533): a refused entry stays as it was; a new range is stored; an entry that gives up a valid
range enters clearing, and is clear once that has ended. -/
def Clauses.GrantsChange : Prop :=
  ∀ (s : State) (g : Nat) (data : Word), g < 256 →
    let k := aGRANT g
    let old := barGet s.chip k
    let v := setBits data.toNat 29 22 0
    (setBits v 62 62 (bitsOf old 62 62) = old → exec (.grantWrite g data) s = .next s) ∧
    (setBits v 62 62 (bitsOf old 62 62) ≠ old → bitOf v 63 = true → grantBad s.chip g v = true → ∃ t, exec (.grantWrite g data) s = .next t ∧
      regsOnly [aPART_STATUS (bitsOf v 61 58)] s t ∧ fget t.chip (aPART_STATUS (bitsOf v 61 58)) 63 48 = 0x4003) ∧
    (setBits v 62 62 (bitsOf old 62 62) ≠ old → bitOf v 63 = false ∨ grantBad s.chip g v = false → bitOf old 63 = false → ∃ t,
      exec (.grantWrite g data) s = .next t ∧ regsOnly [k] s t ∧ barGet t.chip k = setBits v 62 62 (bitsOf old 62 62)) ∧
    (setBits v 62 62 (bitsOf old 62 62) ≠ old → bitOf v 63 = false ∨ grantBad s.chip g v = false → bitOf old 63 = true → ∃ t,
      exec (.grantWrite g data) s = .next t ∧ barGet t.chip k = setBits v 62 62 1 ∧
      chipOnly [k] s t (fun c => { c with mem := { c.mem with clearing := c.mem.clearing ++ [(g, grantBase old, grantSize old)] } })) ∧
    ∃ t, exec (.grantClearComplete g) s = .next t ∧ fbit t.chip k 62 = false ∧ fget t.chip k 61 0 = fget s.chip k 61 0 ∧
      t.chip.mem.clearing = s.chip.mem.clearing.filter (fun c => c.1 != g) ∧ t.chip.tiles = s.chip.tiles ∧ t.chip.strands = s.chip.strands

/-- The bandwidth regulators (R514, R535 to R539): a slot's budgets are stored unless their sum passes a capacity, the
manager's writes to partition 0 are ignored, a new depth leaves no more tokens than it holds, a held request goes when its
bucket holds its charge, when the slot is unregulated, or by borrowing from an idle arbiter. -/
def Clauses.RegulatorsRun : Prop :=
  ∀ (s : State) (p slot reg tile charge : Nat) (idle : Bool) (data : Word), p < 16 → slot < 64 → reg < 3 → tile < 144 →
    (∀ b, exec (.bwSlotWrite 0 slot b data) s = .next s) ∧
    (let v := data.toNat
      let above := decide (memCap s.chip < slotSum s.chip 0 slot p (bitsOf v 63 32) (memCap s.chip)) ||
        decide (fabCap s.chip < slotSum s.chip 1 slot p (bitsOf v 31 0) (fabCap s.chip))
      1 ≤ p →
      (above = false → ∃ t, exec (.bwSlotWrite p slot false data) s = .next t ∧ regsOnly [aBW_SLOT_A p slot] s t ∧
        barGet t.chip (aBW_SLOT_A p slot) = v) ∧
      (above = true → ∃ t, exec (.bwSlotWrite p slot false data) s = .next t ∧ regsOnly [aPART_STATUS p] s t ∧
        fget t.chip (aPART_STATUS p) 63 48 = 0x4004) ∧
      ∃ t, exec (.bwSlotWrite p slot true data) s = .next t ∧ regsOnly [aBW_SLOT_B p slot] s t ∧
        fget t.chip (aBW_SLOT_B p slot) 31 0 = bitsOf v 31 0) ∧
    (∃ t, exec (.bwDepthWrite p data) s = .next t ∧ bwDepth t.chip p = 256 * max 0x40 (bitsOf data.toNat 39 16) ∧
      fget t.chip (aBW_CTL p) 3 1 = bitsOf data.toNat 3 1 ∧ chipOnly [aBW_CTL p] s t (fun c => { c with parts := t.chip.parts }) ∧
      ∀ r, r < 2 → bwTokens t.chip p r tile = min (bwDepth t.chip p) (bwTokens s.chip p r tile)) ∧
    (∃ t, exec (.bcycleWrite data) s = .next t ∧
      t = { s with chip := { s.chip with radio := { s.chip.radio with nextBcycle := some (bitsOf data.toNat 5 0) } } }) ∧
    let x := getPart s.chip p
    let r := (reg, tile, charge)
    (r ∉ x.heldReq → exec (.bellowsHoldRelease p reg tile charge idle) s = .next s) ∧
    (r ∈ x.heldReq →
      (bwNow s.chip p reg = 0xFFFFFFFF → ∃ t, exec (.bellowsHoldRelease p reg tile charge idle) s = .next t ∧
        getPart t.chip p = { x with heldReq := x.heldReq.erase r } ∧ chipOnly [] s t (fun c => { c with parts := t.chip.parts })) ∧
      (bwNow s.chip p reg ≠ 0xFFFFFFFF → charge ≤ bwTokens s.chip p reg tile → ∃ t,
        exec (.bellowsHoldRelease p reg tile charge idle) s = .next t ∧ (getPart t.chip p).heldReq = x.heldReq.erase r ∧
        bwTokens t.chip p reg tile = bwTokens s.chip p reg tile - charge ∧ chipOnly [] s t (fun c => { c with parts := t.chip.parts })) ∧
      (bwNow s.chip p reg ≠ 0xFFFFFFFF → bwTokens s.chip p reg tile < charge → borrows s.chip p reg = true → ∃ t,
        exec (.bellowsHoldRelease p reg tile charge true) s = .next t ∧
        getPart t.chip p = { x with heldReq := x.heldReq.erase r, borrow := (x.borrow + charge) % 256 } ∧
        fget t.chip (aBW_STATUS p) 31 0 = min (fget s.chip (aBW_STATUS p) 31 0 + (x.borrow + charge) / 256) (2 ^ 32 - 1)) ∧
      (bwNow s.chip p reg ≠ 0xFFFFFFFF → bwTokens s.chip p reg tile < charge → (idle && borrows s.chip p reg) = false →
        exec (.bellowsHoldRelease p reg tile charge idle) s = .next s))

-- Mailboxes ------------------------------------------------------------------------------------------------

/-- Messages of the tenant's and the manager's side (R547 to R550; payload layouts: log 13): one that may go stands in the
other side's ring with its side's next number, one that may not is refused with its code. -/
def Clauses.MailboxesCarry : Prop :=
  ∀ (s : State) (f a b v side : Nat) (payload : List (BitVec 8)), 1 ≤ f → f < 64 → haspIdle s.chip f = true →
    let goes := fun (c : Instr) (tenant : Bool) (type status : Nat) (l : List Byte) =>
      (haspCode s.chip f tenant type l.length = 0 → ∃ t, exec c s = .next t ∧ haspSent s t f tenant type status l id) ∧
      (haspCode s.chip f tenant type l.length ≠ 0 → ∃ t, exec c s = .next t ∧ regsOnly [aHASP tenant f + 0xC8] s t ∧
        fget t.chip (aHASP tenant f + 0xC8) 63 48 = haspCode s.chip f tenant type l.length)
    goes (.hello f a b) true 1 0 (leBytes 1 a ++ leBytes 1 b) ∧ goes (.resizeReq f a b) true 0x30 0 (leBytes 4 a ++ leBytes 4 b) ∧
    goes (.resizeReply f a b v) false 0x31 0 (leBytes 4 a ++ leBytes 4 b ++ leBytes 4 v) ∧ goes (.budget f payload) false 0x32 0 payload ∧
    goes (.freezeNotice f a) false 0x40 0 (leBytes 4 a) ∧ goes (.teardown f false a) false 0x50 0 (leBytes 1 a) ∧
    (side = 1 ∨ side = 2 →
      goes (.ack f side a) (decide (side = 2)) 0xF0 0 (leBytes 2 a) ∧ goes (.nak f side a b) (decide (side = 2)) 0xF1 b (leBytes 2 a) ∧
      goes (.vendorMessage f side a payload) (decide (side = 2)) (0x8000 + a % 0x8000) 0 payload) ∧
    (haspCode s.chip f false 2 2 = 0 → ∃ t, exec (.helloAck f a b 0) s = .next t ∧
      haspSent s t f false 2 0 (leBytes 1 a ++ leBytes 1 b) (fun h => { h with agreed := true, version := a % 16 * 16 + b % 16 }))

/-- Messages of the Hearth, the taking of a message, and VACATED: the strands of the groups that leave halt and their
reclaim is marked (R525, R547 to R550). -/
def Clauses.MailboxesAnswer : Prop :=
  ∀ (s : State) (f a b : Nat), 1 ≤ f → f < 64 →
    (hearthMay s.chip f true = true →
      (∃ t, exec (.teardown f true a) s = .next t ∧ hearthSent s t f true 0x50 0 (leBytes 1 a)) ∧
      (∃ t, exec (.ack f 0 a) s = .next t ∧ hearthSent s t f true 0xF0 0 (leBytes 2 a)) ∧
      ∃ t, exec (.nak f 0 a b) s = .next t ∧ hearthSent s t f true 0xF1 b (leBytes 2 a)) ∧
    (haspIdle s.chip f = true →
      (∃ t, exec (.haspPop f 2) s = .next t ∧ getHasp t.chip f = { getHasp s.chip f with toTenant := (getHasp s.chip f).toTenant.drop 1 } ∧
        chipOnly [] s t (fun c => { c with hasp := t.chip.hasp }) ∧ ∀ k, k ≠ f → getHasp t.chip k = getHasp s.chip k) ∧
      ∃ t, exec (.haspPop f 1) s = .next t ∧ getHasp t.chip f = { getHasp s.chip f with toManager := (getHasp s.chip f).toManager.drop 1 } ∧
        chipOnly [] s t (fun c => { c with hasp := t.chip.hasp }) ∧ ∀ k, k ≠ f → getHasp t.chip k = getHasp s.chip k) ∧
    ∀ p, haspCode s.chip f true 0x11 4 = 0 → a < 2 ^ 32 →
      (List.range 16).find? (fun q => controller s.chip q == f && (getPart s.chip q).moves.any (fun m => m.nseq == a)) = some p →
      ∃ t, exec (.vacated f a) s = .next t ∧
        (∀ m, m ∈ (getPart t.chip p).moves → m.nseq = a → m.vacated = true) ∧
        (∀ m tile i, m ∈ (getPart s.chip p).moves → m.nseq = a → tile ∈ tilesOfGroups m.groups → i < 8 →
          (getStrand t.chip tile i).held = true) ∧
        t.chip.tiles = s.chip.tiles ∧ t.chip.bar = (fset s.chip (aHASP true f + 0xC8) 63 48 0).bar

-- The fabric (chapter 12) ----------------------------------------------------------------------------------

/-- A link enabled trains; disabled it is off; retraining is counted; training ends in a state that the working wavelengths
give, with its code, or fails (R559 to R562). Stated of links that are not up where a link goes out of service. -/
def Clauses.LinksTrain : Prop :=
  ∀ (s : State) (l failed major minor : Nat), l < 32 →
    let k := aFL_STATUS l
    let trains := fbit s.chip (aFL_CTL l) 0 = true ∧ linkPowered s.chip l = true ∧ (linkState s.chip l = 1 ∨ linkState s.chip l = 4)
    (fbit s.chip (aFL_CTL l) 0 = false → linkPowered s.chip l = true → ∃ t, exec (.linkEnable l true) s = .next t ∧
      regsOnly [aFL_CTL l, k, aFAB_STATUS] s t ∧ fbit t.chip (aFL_CTL l) 0 = true ∧ linkState t.chip l = 1) ∧
    (linkIsUp s.chip l = false → ∃ t, exec (.linkEnable l false) s = .next t ∧ regsOnly [aFL_CTL l, k, aFAB_STATUS] s t ∧
      fbit t.chip (aFL_CTL l) 0 = false ∧ linkState t.chip l = 0) ∧
    (fbit s.chip (aFL_CTL l) 0 = true → linkPowered s.chip l = true → ∃ t, exec (.linkRetrain l) s = .next t ∧
      regsOnly [aFL_ERR l, k, aFAB_STATUS] s t ∧ linkState t.chip l = 1 ∧ countedOne s t (aFL_ERR l) 15 0) ∧
    (trains →
      let good := 9 - wlCount (Nat.lor (fget s.chip k 40 32) (failed % 2 ^ 9))
      let state := if major ≠ 1 ∨ good < 4 then 4 else if 8 ≤ good then 2 else 3
      ∃ t, exec (.linkUp l failed major minor) s = .next t ∧ linkState t.chip l = state ∧
        fget t.chip k 40 32 = Nat.lor (fget s.chip k 40 32) (failed % 2 ^ 9) ∧ t.chip.fab.reqs = s.chip.fab.reqs ∧
        (major ≠ 1 → fget t.chip k 63 48 = 0x3004) ∧ (major = 1 → good < 4 → fget t.chip k 63 48 = 0x3001) ∧
        (state = 3 → fget t.chip k 63 48 = 0x3003)) ∧
    (trains → ∃ t, exec (.linkTrainTimeout l) s = .next t ∧ linkState t.chip l = 4 ∧ fget t.chip k 63 48 = 0x3001 ∧
      fget t.chip aFAB_STATUS 63 48 = 0x3001 ∧ countedOne s t (aFL_ERR l) 15 0 ∧ t.chip.irqs = s.chip.irqs ++ [(0, fget s.chip aFAB_CTL 15 4)])

/-- Frames, wavelengths and fibres (R559 to R561, R563): what is counted, what the spares replace, and when a link changes its
rate, trains again or goes down. -/
def Clauses.LinksWear : Prop :=
  ∀ (s : State) (l w : Nat) (check : FrameCheck), l < 32 → w < 9 →
    let k := aFL_STATUS l
    let bad := Nat.lor (fget s.chip k 40 32) (2 ^ w)
    (linkIsUp s.chip l = false → exec (.fabricFrameReceived l check) s = .next s ∧ exec (.wavelengthFail l w) s = .next s ∧
      exec (.fabricLinkDown l) s = .next s ∧ exec (.opticalCalibrationComplete l) s = .next s) ∧
    (linkIsUp s.chip l = true →
      (∃ t, exec (.fabricFrameReceived l .clean) s = .next t ∧
        t = { s with chip := { s.chip with fab := { s.chip.fab with retries := tset (fun _ => 0) l 0 s.chip.fab.retries } } }) ∧
      (∃ t, exec (.fabricFrameReceived l .corrected) s = .next t ∧ countedOne s t (aFL_ERR l) 63 48 ∧ t.chip.fab.reqs = s.chip.fab.reqs ∧
        tget (fun _ => 0) t.chip.fab.retries l = 0) ∧
      (tget (fun _ => 0) s.chip.fab.retries l < 7 → ∃ t, exec (.fabricFrameReceived l .crcBad) s = .next t ∧
        countedOne s t (aFL_ERR l) 47 32 ∧ tget (fun _ => 0) t.chip.fab.retries l = tget (fun _ => 0) s.chip.fab.retries l + 1 ∧
        linkState t.chip l = linkState s.chip l ∧ fget t.chip aFAB_STATUS 63 48 = 0x3005) ∧
      (7 ≤ tget (fun _ => 0) s.chip.fab.retries l → ∃ t, exec (.fabricFrameReceived l .crcBad) s = .next t ∧ linkState t.chip l = 1 ∧
        fget t.chip k 63 48 = 0x3006 ∧ countedOne s t (aFL_ERR l) 15 0) ∧
      ((fget s.chip k 40 32).testBit w = false → fget s.chip k 31 28 ≠ 0xF → ∃ t, exec (.wavelengthFail l w) s = .next t ∧
        regsOnly [k, aFAB_STATUS] s t ∧ fget t.chip k 40 32 = bad ∧ fget t.chip k 31 28 = 0xF ∧ linkState t.chip l = linkState s.chip l) ∧
      ((fget s.chip k 40 32).testBit w = false → fget s.chip k 31 28 = 0xF → 4 ≤ 9 - wlCount bad → linkState s.chip l = 2 → ∃ t,
        exec (.wavelengthFail l w) s = .next t ∧ linkState t.chip l = 3 ∧ fget t.chip k 63 48 = 0x3003 ∧ fget t.chip k 40 32 = bad) ∧
      (∀ ws, ws = (List.range 9).filter (fun x => x != fget s.chip k 31 28 && !(fget s.chip k 40 32).testBit x) → ws ≠ [] →
        fget s.chip k 31 28 ≠ 0xF → ∃ t, exec (.opticalCalibrationComplete l) s = .next t ∧ fget t.chip k 31 28 ∈ ws ∧
          chipOnly [k] s t (fun c => { c with freeCtr := t.chip.freeCtr }) ∧ linkState t.chip l = linkState s.chip l)) ∧
    (linkState s.chip l = 0 → ∀ b, exec (.fibreFail l b) s = .next s) ∧
    (linkState s.chip l ≠ 0 → fbit s.chip (aFL_CTL l) 1 = true → ∀ i, (List.range 2).find? (fun j => !tmem s.chip.fab.fibres (2 * (l / 8) + j)) = some i →
      ∃ t, exec (.fibreFail l true) s = .next t ∧ linkState t.chip l = 1 ∧ tmem t.chip.fab.fibres (2 * (l / 8) + i) = true ∧
        fget t.chip k 27 24 = i + 1 ∧ countedOne s t (aFL_ERR l) 15 0 ∧ t.chip.fab.reqs = s.chip.fab.reqs)

/-- A link that goes down is reported, its entries of the map go to the next link that is up, the epoch advances and every
request sent on it is sent again in the new epoch (R573, R575). Writes of the map, the epoch, and drain markers (R573, R584). -/
def Obligations.RoutesChange : Prop :=
  ∀ (s : State) (l n index dest : Nat) (data : Word), l < 32 → index < 4 → nobodyWaits s.chip = true →
    let epoch := (fget s.chip aFAB_STATUS 47 40 + 1) % 256
    (linkIsUp s.chip l = true → nextLink (setLink s.chip l 4) l = some n → n ≠ l → (∃ e, e < 32 ∧ mapEntry s.chip e = l) →
      ∃ t, exec (.fabricLinkDown l) s = .next t ∧ linkState t.chip l = 4 ∧ fget t.chip (aFL_STATUS l) 63 48 = 0x3001 ∧
        (∀ e, e < 32 → mapEntry t.chip e = if mapEntry s.chip e = l then n else mapEntry s.chip e) ∧
        fget t.chip aFAB_STATUS 47 40 = epoch ∧
        (∀ r, r ∈ t.chip.fab.reqs → r.link = l → r.dest ≠ devId s.chip → r.epoch = epoch) ∧
        t.chip.fab.reqs.map (·.seqNo) = s.chip.fab.reqs.map (·.seqNo)) ∧
    (∃ t, exec (.linkmapWrite index data) s = .next t ∧
      (∀ e, e < 8 → mapEntry t.chip (8 * index + e) = bitsOf data.toNat (8 * e + 4) (8 * e)) ∧
      (∀ e, e < 32 → e / 8 ≠ index → mapEntry t.chip e = mapEntry s.chip e) ∧
      ((∃ e, e < 8 ∧ mapEntry s.chip (8 * index + e) ≠ bitsOf data.toNat (8 * e + 4) (8 * e)) → fget t.chip aFAB_STATUS 47 40 = epoch) ∧
      ((∀ e, e < 8 → mapEntry s.chip (8 * index + e) = bitsOf data.toNat (8 * e + 4) (8 * e)) →
        fget t.chip aFAB_STATUS 47 40 = fget s.chip aFAB_STATUS 47 40) ∧
      chipOnly [aFAB_LINKMAP index, aFAB_STATUS] s t (fun c => { c with fab := { c.fab with markers := t.chip.fab.markers } })) ∧
    (∃ t, exec .epochBump s = .next t ∧ fget t.chip aFAB_STATUS 47 40 = epoch ∧
      chipOnly [aFAB_STATUS] s t (fun c => { c with fab := { c.fab with markers := t.chip.fab.markers } }) ∧
      ∀ d k, (∃ r, r ∈ s.chip.fab.reqs ∧ r.epoch = fget s.chip aFAB_STATUS 47 40 ∧ r.dest = d ∧ r.link = k ∧ d ≠ devId s.chip ∧
        linkIsUp s.chip k = true) → ∃ m, m ∈ t.chip.fab.markers ∧ m.dest = d ∧ m.link = k) ∧
    ∃ t, exec (.drainMarkerReturn dest l) s = .next t ∧
      t = { s with chip := { s.chip with fab := { s.chip.fab with
        markers := s.chip.fab.markers.filter (fun m => !(m.dest == dest && m.link == l)) } } }

/-- A request in its order at the target: one that no Ward entry admits is refused and counted and touches nothing, one that a
Ward entry admits is applied, and both take their sequence number (R565, R568, R574). -/
def Obligations.RequestsArrive : Prop :=
  ∀ (s : State) (r : FabReq),
    (fabServes s.chip r.src = false → exec (.fabricRequestArrival r) s = .next s) ∧
    (fabServes s.chip r.src = true → r.seqNo < 2 ^ 32 → tget (fun _ => 0) s.chip.fab.expect r.src = r.seqNo →
      (∀ h, h ∈ s.chip.fab.reorder → h.req.src ≠ r.src) → (∀ h, h ∈ s.chip.fab.hot → h.req.src ≠ r.src) →
      (∀ code, (wardCheck s.chip r).1 = code → code ≠ 0 → (∀ x, x ∈ s.chip.fab.refused → x.1 ≠ r.src) →
        ∃ t, exec (.fabricRequestArrival r) s = .next t ∧ fget t.chip aFAB_STATUS 63 48 = code ∧ countedOne s t aFAB_ERR 63 32 ∧
          t.chip.fab.sent = s.chip.fab.sent ++ [⟨r.src, r.seqNo, 0, 0, code⟩] ∧
          tget (fun _ => 0) t.chip.fab.expect r.src = (r.seqNo + 1) % 2 ^ 32 ∧ t.chip.tiles = s.chip.tiles ∧ t.chip.mem = s.chip.mem ∧
          t.chip.strands = s.chip.strands) ∧
      ∀ p tile, wardCheck s.chip r = (0, p) → bitOf r.addr 47 = true → physOf s.chip p (bitsOf r.addr 39 32) = some tile →
        tileOpen s.chip tile = true → inBanks (bitsOf r.addr 21 0) (reqBytes r) = true → tileQuiet s.chip tile = true →
        (r.kind = 0 → wordsClean s tile (bitsOf r.addr 21 0) r.operand = true → 0 < r.operand → ∃ t,
          exec (.fabricRequestArrival r) s = .next t ∧
          t.chip.fab.sent = s.chip.fab.sent ++ [⟨r.src, r.seqNo, leNat (bankBytes s tile (bitsOf r.addr 21 0) r.operand), 0, 0⟩] ∧
          banksKept s t tile 0 0 ∧ t.chip.strands = s.chip.strands ∧ tget (fun _ => 0) t.chip.fab.expect r.src = (r.seqNo + 1) % 2 ^ 32) ∧
        (r.kind = 1 → r.poison = 0 → bitsOf r.addr 21 0 % 8 = 0 → r.data.length % 8 = 0 → r.data ≠ [] → ∃ t,
          exec (.fabricRequestArrival r) s = .next t ∧ bankBytes t tile (bitsOf r.addr 21 0) r.data.length = r.data ∧
          banksKept s t tile (bitsOf r.addr 21 0) r.data.length ∧ t.chip.strands = s.chip.strands ∧
          (∀ c, r.cnt = some c → acGet t.chip tile c = max (-2147483648) (min 2147483647 (acGet s.chip tile c - 1))) ∧
          t.chip.fab.sent = s.chip.fab.sent ++ [⟨r.src, r.seqNo, 0, 0, 0⟩])) ∧
    ∀ line h, (nextSource s.chip line = none → exec (.hotLineUpdate line) s = .next s) ∧
      (s.chip.fab.hot = [h] → h.line = line → s.chip.fab.reorder = [] → nobodyWaits s.chip = true → ∃ t a, exec (.hotLineUpdate line) s = .next t ∧
        t.chip.fab.hot = [] ∧ tget (fun _ => 0) t.chip.fab.hotLast line = h.req.src ∧ t.chip.fab.sent = s.chip.fab.sent ++ [a] ∧
        a.dest = h.req.src ∧ a.seqNo = h.req.seqNo)

/-- An answer takes its request out of the replay store and gives a load its value, poisoned where it failed; a time-out
sends a request again; a dead target fails the job's requests to it and holds the job (R570, R574, R575, R576, R580, R591). -/
def Obligations.AnswersArrive : Prop :=
  ∀ (s : State) (dest q : Nat) (a : FabAck), nobodyWaits s.chip = true →
    (s.chip.fab.reqs.find? (fun r => r.dest == a.dest && r.seqNo == a.seqNo) = none → exec (.fabricAckArrival a) s = .next s) ∧
    (∀ r rd, s.chip.fab.reqs = [r] → s.chip.fab.waiting = [] → r.dest = a.dest → r.seqNo = a.seqNo → r.rd = some rd → rd ≠ 0 → rd < 32 →
      r.kind = 0 → r.operand = 8 → r.op = 0 → r.covered = false → r.owner.tile < 144 → r.owner.strand < 8 →
      tmem (getStrand s.chip r.owner.tile r.owner.strand).busy (codeS rd) = true → a.code ≠ 0x3010 →
      let x := getStrand s.chip r.owner.tile r.owner.strand
      let bad := a.poison != 0 || a.code != 0
      ∃ t, exec (.fabricAckArrival a) s = .next t ∧ t.chip.fab.reqs = [] ∧
        getStrand t.chip r.owner.tile r.owner.strand =
          wrS { x with busy := tmark x.busy (codeS rd) false } rd (if bad then 0 else a.value) bad ∧
        t.chip.tiles = s.chip.tiles ∧ t.chip.bar = s.chip.bar ∧
        ∀ k, k ≠ skey r.owner.tile r.owner.strand → tget (fun _ => {}) t.chip.strands k = tget (fun _ => {}) s.chip.strands k) ∧
    (s.chip.fab.reqs.find? (fun r => r.dest == dest && r.seqNo == q) = none →
      exec (.fabricReplayTimeout dest q) s = .next s ∧ exec (.fabricOpTimeout dest q) s = .next s) ∧
    ∀ r, s.chip.fab.reqs.find? (fun r => r.dest == dest && r.seqNo == q) = some r →
      (∃ t, exec (.fabricReplayTimeout dest q) s = .next t ∧ countedOne s t aFAB_ERR 15 0 ∧ t.chip.strands = s.chip.strands ∧
        t.chip.tiles = s.chip.tiles ∧ t.chip.fab.reqs = s.chip.fab.reqs.map (fun x => if x.dest == dest && x.seqNo == q then
          { x with link := fabLink s.chip (devId s.chip) dest r.addr, epoch := fget s.chip aFAB_STATUS 47 40 } else x)) ∧
      (r.owner.part < 16 → s.chip.fab.waiting = [] → ∃ t, exec (.fabricOpTimeout dest q) s = .next t ∧
        fget t.chip (aFJ_STATUS r.owner.part) 3 0 = 5 ∧ fget t.chip (aFJ_STATUS r.owner.part) 47 36 = r.rank % 4096 ∧
        fget t.chip (aFJ_STATUS r.owner.part) 63 48 = 0x3020 ∧ fbit t.chip (aFJ_CTL r.owner.part) 4 = true ∧ countedOne s t aFAB_ERR 31 16 ∧
        ∀ x, x ∈ t.chip.fab.reqs → ¬(x.owner.part = r.owner.part ∧ x.rank = r.rank))

/-- Job slots (R564, R566, R570, R571, R591): a fence ends the job's requests; a whole image is loaded and takes a fence off;
the hold is cleared; Ward entries are stored, pending ones become active; version records are shown. -/
def Clauses.JobsChange : Prop :=
  ∀ (s : State) (p e peer major minor feat : Nat) (data : Word), p < 16 → e < 4096 → nobodyWaits s.chip = true →
    let fenced := fun (t : State) => fget t.chip (aFJ_STATUS p) 3 0 = 4 ∧ fget t.chip (aFJ_STATUS p) 63 48 = 0x3011 ∧
      fget t.chip aFAB_STATUS 63 48 = 0x3011 ∧ ∀ x, x ∈ t.chip.fab.reqs → x.owner.part ≠ p
    (s.chip.fab.waiting = [] → (∃ t, exec (.wardRefusalReceived p) s = .next t ∧ fenced t) ∧
      ∃ t, exec (.jobFence p) s = .next t ∧ fenced t ∧ fbit t.chip (aFJ_CTL p) 3 = true) ∧
    (∃ t, exec (.jobHoldClear p) s = .next t ∧ regsOnly [aFJ_CTL p] s t ∧ fbit t.chip (aFJ_CTL p) 4 = false) ∧
    ((readJob s.chip p (fget s.chip (aFJ_IMAGE p) 47 0)).2 = none → ∃ t, exec (.jobImageLoad p) s = .next t ∧
      fget t.chip (aFJ_STATUS p) 63 48 = 0x3023 ∧ fget t.chip (aFJ_STATUS p) 3 0 = fget s.chip (aFJ_STATUS p) 3 0 ∧
      getJob t.chip p = getJob s.chip p) ∧
    (∀ j, (readJob s.chip p (fget s.chip (aFJ_IMAGE p) 47 0)).2 = some j → ∃ t, exec (.jobImageLoad p) s = .next t ∧
      getJob t.chip p = j ∧ fbit t.chip (aFJ_CTL p) 3 = false ∧ barGet t.chip (aFJ_VREC p) = 0 ∧
      (ownWard s.chip p = none → fget t.chip (aFJ_STATUS p) 3 0 = 1)) ∧
    (∃ t, exec (.wardWrite e true data) s = .next t ∧ barGet t.chip (aFW_B e) = data.toNat ∧ t.chip.fab.vsent = s.chip.fab.vsent) ∧
    (∃ t, exec (.wardWrite e false data) s = .next t ∧ fget t.chip (aFW_A e) 61 55 = bitsOf data.toNat 61 55 ∧
      fget t.chip (aFW_A e) 47 0 = bitsOf data.toNat 47 0 ∧ fget t.chip (aFW_A e) 54 48 = 0 ∧
      fget t.chip (aFW_A e) 63 62 =
        (if bitsOf data.toNat 63 62 = 1 ∧ fget s.chip (aFW_B e) 47 0 = 0 then 2 else bitsOf data.toNat 63 62)) ∧
    (fget s.chip (aFW_A e) 63 62 ≠ 1 ∨ actTimeCome s.chip e = false → exec (.wardActivation e) s = .next s) ∧
    (fget s.chip (aFW_A e) 63 62 = 1 → actTimeCome s.chip e = true → ∃ t, exec (.wardActivation e) s = .next t ∧
      fget t.chip (aFW_A e) 63 62 = 2 ∧ fget t.chip (aFW_A e) 61 0 = fget s.chip (aFW_A e) 61 0) ∧
    ∃ t, exec (.versionRecordArrival p peer major minor feat) s = .next t ∧
      chipOnly [aFJ_VREC p] s t (fun c => { c with fab := { c.fab with vrecs := t.chip.fab.vrecs } }) ∧
      (let l := (tget (fun _ => []) s.chip.fab.vrecs p).filter (fun x => x.1 != peer)
       tget (fun _ => []) t.chip.fab.vrecs p = l ++ [(peer, major % 256 * 256 + minor % 256, feat % 2 ^ 32)] ∧
         fget t.chip (aFJ_VREC p) 11 0 = (l.length + 1) % 4096)

/-- A receiver leaves a multicast and its part goes to it alone (R585); what the Gateway gathered for a rank leaves (R589); the
first exchange of fabric time steps the base (R594). -/
def Clauses.StreamsAndTime : Prop :=
  ∀ (s : State) (op rank p l : Nat) (offset : Int), p < 16 → l < 32 →
    (s.chip.fab.ops.find? (fun o => o.id == op && o.kind == 2) = none → exec (.multicastDetach op rank) s = .next s) ∧
    (∀ o, s.chip.fab.ops.find? (fun o => o.id == op && o.kind == 2) = some o → o.receivers.any (fun x => x.1 == rank && x.2.2) = true →
      ∃ t, exec (.multicastDetach op rank) s = .next t ∧
        (∀ x, x ∈ t.chip.fab.ops → x.id = op → ∀ y, y ∈ x.receivers → y.1 = rank → y.2.2 = false) ∧
        t.chip.fab.reqs = s.chip.fab.reqs.map (fun r => if r.op == op && r.rank == rank then { r with kind := 1 } else r) ∧
        t.chip.tiles = s.chip.tiles ∧ t.chip.strands = s.chip.strands) ∧
    ((∀ g, g ∈ s.chip.fab.gathers → ¬(g.part = p ∧ g.rank = rank)) → ∃ t, exec (.gatewayFlushTimeout p rank) s = .next t ∧
      t.chip.fab = s.chip.fab ∧ t.chip.strands = s.chip.strands) ∧
    (∀ g dest, s.chip.fab.gathers = [g] → g.part = p → g.rank = rank → (rankDev s.chip p rank).1 = dest → accepts s.chip dest = true →
      ∃ t r, exec (.gatewayFlushTimeout p rank) s = .next t ∧ t.chip.fab.gathers = [] ∧ t.chip.fab.reqs = s.chip.fab.reqs ++ [r] ∧
        r.dest = dest ∧ r.rank = rank ∧ r.addr = g.addr ∧ r.data = g.data ∧ r.owner = g.owner ∧ r.covered = true ∧
        r.seqNo = tget (fun _ => 0) s.chip.fab.nextSeq dest) ∧
    (fbit s.chip aFAB_TIME 0 = false ∨ linkIsUp s.chip l = false → exec (.fabricTimeExchange l offset) s = .next s) ∧
    (fbit s.chip aFAB_TIME 0 = true → linkIsUp s.chip l = true → capsOff s.chip = true → trigsOff s.chip = true →
      (s.chip.fab.timeDone = true → exec (.fabricTimeExchange l offset) s = .next s) ∧
      ∀ v : Nat, s.chip.fab.timeDone = false → (v : Int) = (tbGet s.chip 1 : Int) - offset * 2 ^ 34 → v < tvMod →
        ∃ t, exec (.fabricTimeExchange l offset) s = .next t ∧ t.chip.fab.timeDone = true ∧ tbGet t.chip 1 = v ∧
          t.chip.bar = s.chip.bar ∧ ∀ b, b ≠ 1 → tbGet t.chip b = tbGet s.chip b)

/-- The reducer (R586, R587): the first of several records is held for its reduction; the record of a group of one is written
to its tile at once, whose counter it decrements; a reduction that takes too long writes a poisoned result and reports 0x3030. -/
def Obligations.RecordsReduce : Prop :=
  ∀ (s : State) (k : RedKey) (h : RedHead) (bs : List (BitVec 8)) (r : PRec), k.part < 16 → nobodyWaits s.chip = true →
    let n := (groupRanks s.chip k.part k.group).length
    (n ≤ h.contributor → exec (.reducerRecordArrival k h bs 0) s = .next s) ∧
    (h.contributor < n → s.chip.fab.reductions.find? (fun y => y.key == k) = none → recOfBytes bs 0 = some r → r.empty = false →
      r.tag.kind ≤ 2 → k.phase = 0 →
      (1 < n → ∃ t, exec (.reducerRecordArrival k h bs 0) s = .next t ∧ t.chip.bar = s.chip.bar ∧ t.chip.tiles = s.chip.tiles ∧
        (∃ y, t.chip.fab.reductions.find? (fun y => y.key == k) = some y ∧ y.came = [h.contributor] ∧ y.held = [normRec r] ∧ y.ended = false)) ∧
      ∀ tile, n = 1 → physOf s.chip k.part k.tile = some tile → tileOpen s.chip tile = true → redWait s.chip k = none →
        stripeFits h.ddata r.rows = true → h.cnt < 64 → ∃ t, exec (.reducerRecordArrival k h bs 0) s = .next t ∧
          (getTile t.chip tile).mem = (getTile (writeRec s.chip tile h.dtag h.ddata (normRec r) true) tile).mem ∧
          acGet t.chip tile h.cnt = max (-2147483648) (min 2147483647 (acGet s.chip tile h.cnt - 1)) ∧
          t.chip.fab.reductions.find? (fun y => y.key == k) = none) ∧
    (s.chip.fab.reductions.find? (fun y => y.key == k && !y.ended) = none → exec (.reductionTimeout k) s = .next s) ∧
    ∀ x tile, s.chip.fab.reductions.find? (fun y => y.key == k && !y.ended) = some x → k.phase ≠ 1 → redWait s.chip k = none →
      physOf s.chip k.part k.tile = some tile → tileOpen s.chip tile = true → stripeFits x.head.ddata x.shape.rows = true →
      x.head.cnt < 64 → ∃ t, exec (.reductionTimeout k) s = .next t ∧ fget t.chip aFAB_STATUS 63 48 = 0x3030 ∧
        acGet t.chip tile x.head.cnt = max (-2147483648) (min 2147483647 (acGet s.chip tile x.head.cnt - 1)) ∧
        t.chip.fab.reductions.find? (fun y => y.key == k) = some { x with ended := true }

-- Resets, boot, attestation and the host link (chapter 13) --------------------------------------------------

/-- Resets (R599, R600, R627, R694): a powered package is reset by PWRGOOD, PERST#, a CXL reset and the physical function's
reset, with the host's memory, the fuses and the queue as they were; the endpoint's address survives all but the first. -/
def Clauses.ResetsHappen : Prop :=
  ∀ s : State,
    (s.chip.boot.pwrgood = true → exec .pwrgoodAssert s = .next s) ∧
    (s.chip.boot.pwrgood = false → ∃ t, exec .pwrgoodAssert s = .next t ∧ wasReset s t ∧ t.chip.boot.pwrgood = true ∧ t.chip.boot.eid = none) ∧
    (s.chip.boot.pwrgood = true → ∃ t, exec .pwrgoodDeassert s = .next t ∧ barGet t.chip aPWR_DOMAIN = 0 ∧
      chipOnly [aPWR_DOMAIN, aSTRIKE_STATUS, aPKG_PINS] s t (fun c => { c with
        boot := { c.boot with pwrgood := false, undervolt := true }, radio := { c.radio with running := false } }) ∧
      fbit t.chip aSTRIKE_STATUS 2 = false ∧ fbit t.chip aPKG_PINS 1 = false) ∧
    (alive s.chip = true → s.chip.ras.tripped = false →
      (∃ t, exec .perstAssert s = .next t ∧ wasReset s t ∧ t.chip.boot.perst = true ∧ t.chip.boot.eid = s.chip.boot.eid) ∧
      (∃ t, exec .cxlHotReset s = .next t ∧ wasReset s t ∧ t.chip.boot.eid = s.chip.boot.eid ∧ t.chip.boot.lanes = 0) ∧
      (∃ t, exec .cxlLinkDownTimeout s = .next t ∧ wasReset s t ∧ t.chip.boot.eid = s.chip.boot.eid ∧ t.chip.boot.lanes = 0) ∧
      ∃ t, exec .pfFlr s = .next t ∧ wasReset s t ∧ t.chip.boot.eid = s.chip.boot.eid ∧ t.chip.boot.lanes = s.chip.boot.lanes ∧
        t.chip.boot.rate = s.chip.boot.rate) ∧
    (alive s.chip = false → exec .cxlHotReset s = .next s ∧ exec .cxlLinkDownTimeout s = .next s ∧ exec .pfFlr s = .next s) ∧
    ∃ t, exec .perstDeassert s = .next t ∧ t = { s with chip := { s.chip with boot := { s.chip.boot with perst := false } } }

/-- Boot (R601 to R611): the self-test begins stage 1 or ends in 0xF, a load begins, an image is refused with the code of the
first check that fails or starts its stage and is measured, fuses are burnt, and the watchdog stops the part. -/
def Clauses.BootAdvances : Prop :=
  ∀ (s : State) (slot : Nat) (pass : Bool), slot < 4 →
    (alive s.chip = true → s.chip.boot.perst = false → s.chip.ras.tripped = false → stageNow s.chip = 0 → s.chip.boot.early = [] →
      ∃ t, exec (.romSelftestComplete pass) s = .next t ∧ stageNow t.chip = (if pass then 1 else 0xF) ∧
        measureBytes t.chip 3 = sha3 (measureBytes s.chip 3 ++ sha3 (fuseBytes s.chip)) ∧
        regsOnly (aSEC_STATUS :: (List.range 4).map (aMEASURE 3)) s t) ∧
    (hearthRuns s.chip = false → exec .watchdogExpiry s = .next s ∧ exec .svnCommit s = .next s ∧ exec (.revoke slot) s = .next s) ∧
    (hearthRuns s.chip = true →
      (∃ t, exec .watchdogExpiry s = .next t ∧ stageNow t.chip = 0xF ∧ fget t.chip aSEC_STATUS 63 48 = 0x6020 ∧
        t.chip.radio.running = false ∧ t.chip.boot.aer = s.chip.boot.aer + 1 ∧ t.chip.mem = s.chip.mem) ∧
      (∀ h, s.chip.boot.hearth = some h → h.1 ≤ 255 → ∃ t, exec .svnCommit s = .next t ∧
        fget t.chip aSEC_STATUS 47 40 = max h.1 (fget s.chip aSEC_STATUS 47 40) ∧ stageNow t.chip = stageNow s.chip) ∧
      (∀ bad, bad = ((s.chip.boot.hearth.map (·.2)) == some slot || Nat.lor (fget s.chip aSEC_STATUS 39 36) (2 ^ slot) == 0xF) →
        (bad = true → ∃ t, exec (.revoke slot) s = .next t ∧ regsOnly [aSEC_STATUS] s t ∧ fget t.chip aSEC_STATUS 63 48 = 0x6008 ∧
          fget t.chip aSEC_STATUS 39 36 = fget s.chip aSEC_STATUS 39 36) ∧
        (bad = false → ∃ t, exec (.revoke slot) s = .next t ∧ (fget t.chip aSEC_STATUS 39 36).testBit slot = true ∧
          measureBytes t.chip 3 = sha3 (measureBytes s.chip 3 ++ sha3 (fuseBytes t.chip))))) ∧
    (s.chip.boot.load ≠ none → ∃ t, exec .imageLoadGo s = .next t ∧ regsOnly [aSEC_STATUS] s t ∧ fget t.chip aSEC_STATUS 63 48 = 0x6007) ∧
    (s.chip.boot.load = none → stageNow s.chip = 1 → ∃ t, exec .imageLoadGo s = .next t ∧ stageNow t.chip = 2 ∧
      chipOnly [aSEC_STATUS] s t (fun c => { c with boot := { c.boot with
        load := some ⟨barGet s.chip aSEC_FW_ADDR, fget s.chip aSEC_FW_LEN 31 0⟩ } })) ∧
    (s.chip.boot.load = none → exec (.imageVerify pass) s = .next s) ∧
    ∀ l, s.chip.boot.load = some l →
      let b := mread s.chip.mem.host l.addr l.len
      let code := if bNat b 0 1 = 6 then blockCode s.chip l.len b else imageCode s.chip l.len b
      let ends := fun (t : State) (c : Nat) => exec (.imageVerify true) s = .next t ∧ t.chip.boot.load = none ∧
        fget t.chip aSEC_STATUS 63 48 = c ∧ stageNow t.chip = (if stageNow s.chip = 2 then 1 else stageNow s.chip) ∧
        fget t.chip aSEC_STATUS 21 16 = fget s.chip aSEC_STATUS 21 16
      (∃ t, exec (.imageVerify false) s = .next t ∧ t.chip.boot.load = none ∧ fget t.chip aSEC_STATUS 63 48 = 0x6006) ∧
      (hostShut s.chip = false →
        (code ≠ 0 → ∃ t, ends t code) ∧
        (code = 0 → bNat b 0 1 = 1 → ∃ t, exec (.imageVerify true) s = .next t ∧ stageNow t.chip = 3 ∧ t.chip.boot.load = none ∧
          t.chip.boot.hearth = some (bNat b 4 4, bNat b 1 1) ∧ fbit t.chip aSEC_STATUS 16 = true ∧
          measureBytes t.chip 0 = sha3 (measureBytes s.chip 0 ++ sha3 (b.take 48))))

/-- Attestation in a stage above 0 (R611, R612, R614 to R616; the standards' cryptography is free, log 11): each request is
answered over its carrier. In stage 0 it waits (R616). -/
def Clauses.AttestationAnswers : Prop :=
  ∀ (s : State) (m : Bool) (mask register stream dir set : Nat) (bs : List (BitVec 8)), alive s.chip = true →
    (stageNow s.chip = 0 → ∃ t, exec (.getVersion m) s = .next t ∧
      t = { s with chip := { s.chip with boot := { s.chip.boot with early := s.chip.boot.early ++ [(m, attestMsg 1 0 [])] } } }) ∧
    (stageNow s.chip ≠ 0 → mask < 256 →
      (∃ t, exec (.getVersion m) s = .next t ∧ answered s t m (attestMsg 0x81 0 [0x10#8])) ∧
      (∃ t, exec (.getIdentity m) s = .next t ∧ answered s t m (attestMsg 0x82 0 (identityPayload s.chip))) ∧
      (bs.length = 32 → ∃ t, exec (.getMeasurements m bs mask) s = .next t ∧ answered s t m (quote s.chip bs mask)) ∧
      (bs.length = 32 → (register = 6 ∨ register = 7) → ∃ t, exec (.extend m register bs) s = .next t ∧
        answer1 t m = attestMsg 0x84 0 [] ∧ measureBytes t.chip register = sha3 (measureBytes s.chip register ++ bs) ∧
        ∀ k, k < 8 → k ≠ register → measureBytes t.chip k = measureBytes s.chip k) ∧
      (bs.length = 32 → register < 256 → register ≠ 6 → register ≠ 7 → ∃ t, exec (.extend m register bs) s = .next t ∧
        refusedWith s t m 0x04 0x6010) ∧
      (s.chip.boot.hearth = none → ∃ t, exec (.sessionStart m) s = .next t ∧ refusedWith s t m 0x10 0x6015) ∧
      (s.chip.boot.hearth ≠ none → ∃ t msgs, exec (.sessionStart m) s = .next t ∧ t.chip.boot.session = some msgs ∧
        t.chip.boot.sessionKey = none ∧ msgs = attestMsg 0x10 0 [] ++ answer1 t m ∧ t.chip.bar = s.chip.bar) ∧
      (bs.length = 1088 → s.chip.boot.session ≠ none → s.chip.boot.sessionKey = none → ∃ t key, exec (.sessionFinish m bs) s = .next t ∧
        t.chip.boot.sessionKey = some key ∧ answer1 t m = attestMsg 0x91 0 []) ∧
      (s.chip.boot.sessionKey = none → stream < 2 → dir < 2 → set < 2 → bs.length ≤ 8184 →
        (∃ t, exec (.keyProg m bs) s = .next t ∧ refusedWith s t m 0x12 0x6012) ∧
        (∃ t, exec (.keyGo m stream dir set) s = .next t ∧ refusedWith s t m 0x13 0x6012) ∧
        ∃ t, exec (.keyStop m stream dir set) s = .next t ∧ refusedWith s t m 0x14 0x6012) ∧
      ∀ key, s.chip.boot.sessionKey = some key → stream < 2 → dir < 2 → set < 2 →
        (∀ p, p = crypto 6 43 (key ++ bs) →
          bs.length ≤ 8184 → Config.sigOk 1 (key ++ bs) = true → ideOk (bNat p 0 1) (bNat p 1 1) (bNat p 2 1) = true →
          ∃ t, exec (.keyProg m bs) s = .next t ∧ answer1 t m = attestMsg 0x92 0 [] ∧ t.chip.bar = s.chip.bar ∧
            tget (fun _ => []) t.chip.boot.ideKeys (ideKey (bNat p 0 1) (bNat p 1 1) (bNat p 2 1)) = p.drop 3) ∧
        (tget (fun _ => []) s.chip.boot.ideKeys (ideKey stream dir set) ≠ [] → ∃ t, exec (.keyGo m stream dir set) s = .next t ∧
          answer1 t m = attestMsg 0x93 0 [] ∧ tmem t.chip.boot.ideGo (ideKey stream dir set) = true) ∧
        ∃ t, exec (.keyStop m stream dir set) s = .next t ∧ answer1 t m = attestMsg 0x94 0 [] ∧
          tmem t.chip.boot.ideGo (ideKey stream dir set) = false)

/-- Coherence bias, link encryption and the management endpoint (R617, R618, R620, R621, R626, R628). -/
def Clauses.HostLinkChanges : Prop :=
  ∀ (s : State) (data : Word) (stream addr eid code lanes rate : Nat), stream < 2 →
    let v := data.toNat
    let bootIs := fun (c : Instr) (f : Boot → Boot) => ∃ t, exec c s = .next t ∧ t = { s with chip := { s.chip with boot := f s.chip.boot } }
    (bitOf v 0 = true → fbit s.chip aHOST_BIAS 63 = false → ∃ t, exec (.biasFlip data) s = .next t ∧ fbit t.chip aHOST_BIAS 63 = true ∧
      fget t.chip aHOST_BIAS 47 21 = bitsOf v 47 21 ∧
      chipOnly [aHOST_BIAS] s t (fun c => { c with mem := { c.mem with flip := some (bitsOf v 47 21, bitOf v 1) } })) ∧
    (s.chip.mem.flip = none → exec .biasFlipComplete s = .next s) ∧
    (∀ page dev, s.chip.mem.flip = some (page, dev) → (dev = false ∨ tmem s.chip.boot.insecure 1 = false) → ∃ t,
      exec .biasFlipComplete s = .next t ∧ fbit t.chip aHOST_BIAS 63 = false ∧ tmem t.chip.mem.bias page = dev ∧ t.chip.mem.flip = none ∧
      (∀ k, k ≠ page → tmem t.chip.mem.bias k = tmem s.chip.mem.bias k) ∧ t.chip.mem.dram = s.chip.mem.dram) ∧
    (∃ t, exec (.ideIntegrityFailure stream) s = .next t ∧ tmem t.chip.boot.insecure stream = true ∧
      fget t.chip aSEC_STATUS 63 48 = 0x6014 ∧ chipOnly [aSEC_STATUS] s t (fun c => { c with boot := t.chip.boot }) ∧
      ∀ k, k < 4 → tget (fun _ => []) t.chip.boot.ideKeys (4 * stream + k) = []) ∧
    (alive s.chip = true →
      bootIs (.entdaa addr) (fun b => { b with dynAddr := some (addr % 128) }) ∧
      bootIs (.setEndpointId eid) (fun b => { b with eid := some (eid % 256) }) ∧
      bootIs (.mctpControl true code) (fun b => { b with mctpAnswer := Config.crypto 9 (leBytes 1 code) }) ∧
      (∃ t, exec (.mctpControl false code) s = .next t ∧ regsOnly [aSEC_STATUS] s t ∧ fget t.chip aSEC_STATUS 63 48 = 0x6040) ∧
      (∃ t, exec (.pldmRequest false code) s = .next t ∧ regsOnly [aSEC_STATUS] s t ∧ fget t.chip aSEC_STATUS 63 48 = 0x6040) ∧
      (stageNow s.chip < 3 → bootIs (.pldmRequest true code) (fun b => { b with mctpAnswer := [1#8] })) ∧
      (3 ≤ stageNow s.chip → ∀ x, sensor s.chip code = some x →
        bootIs (.pldmRequest true code) (fun b => { b with mctpAnswer := 0#8 :: leBytes 4 x })) ∧
      (s.chip.boot.perst = false →
        bootIs (.cxlLinkTrained 16 32) (fun b => { b with lanes := 16, rate := 32 }) ∧
        ((lanes = 4 ∨ lanes = 8) → (rate = 8 ∨ rate = 16 ∨ rate = 32) → ∃ t, exec (.cxlLinkTrained lanes rate) s = .next t ∧
          t.chip.boot = { s.chip.boot with lanes := lanes, rate := rate } ∧ t.chip.bar = s.chip.bar)))

-- Temper, RAS, power and pins (chapter 14) -----------------------------------------------------------------

/-- In service a free group's request waits for a Strike boundary; before service its test begins at once with its tiles
untested; a test's end marks the tiles that passed and fences those that failed; parity
errors are counted, and one in a register poisons it; a fatal error fails the part (R632, R637, R645 to R648). -/
def Clauses.TestsAndErrors : Prop :=
  ∀ (s : State) (g mask tile strand index lane source : Nat), g < 36 → tile < 144 → strand < 8 →
    (s.chip.ras.wanted = [] →
      (temperMay s.chip g = false → exec (.temperSchedule g) s = .next s) ∧
      (temperMay s.chip g = true → stageNow s.chip = 6 → (∀ p, p < 16 → (heldGroups s.chip p).testBit g = false) →
        exec (.temperSchedule g) s = .next { s with chip := { s.chip with ras := { s.chip.ras with wanted := [g] } } }) ∧
      (temperCan s.chip g = true → stageNow s.chip ≠ 6 → (∀ p, p < 16 → (heldGroups s.chip p).testBit g = false) → ∃ t,
        exec (.temperSchedule g) s = .next t ∧ t.chip.ras.tests = s.chip.ras.tests ++ [⟨g, 16, [], false⟩] ∧ (∀ k, k ∈ groupTiles g → fbit t.chip (aTILE_STATUS k) 0 = false) ∧
        ∀ k, k < 144 → k ∉ groupTiles g → getTile t.chip k = getTile s.chip k) ∧
      (s.chip.ras.tests.find? (fun x => x.group == g && !x.back) = none → exec (.temperTestComplete g mask) s = .next s) ∧
      ∀ x, s.chip.ras.tests.find? (fun x => x.group == g && !x.back) = some x → x.part = 16 →
        (∀ k, k ∈ groupTiles g → tileHeld s.chip k = false) → ∃ t, exec (.temperTestComplete g mask) s = .next t ∧
        (∀ k, k ∈ groupTiles g → tileEnabled s.chip k = true → tileFenced s.chip k = false → k ∉ failingTiles s.chip g mask →
          fbit t.chip (aTILE_STATUS k) 0 = true) ∧
        ∀ k, k ∈ failingTiles s.chip g mask → tileFenced s.chip k = false →
          fbit t.chip (aTILE_STATUS k) 1 = true ∧ fbit t.chip (aTILE_CTL k) 4 = true ∧ tmem t.chip.ras.failed k = true) ∧
    (∀ file, ∃ t, exec (.parityError tile true strand file index lane) s = .next t ∧ regsOnly [aRAS_PARITY] s t ∧
      countedOne s t aRAS_PARITY 31 0) ∧
    (0 < index → index < 32 → ∃ t, exec (.parityError tile false strand 0 index lane) s = .next t ∧ countedOne s t aRAS_PARITY 63 32 ∧
      getStrand t.chip tile strand = wrS (getStrand s.chip tile strand) index 0 true ∧ t.chip.tiles = s.chip.tiles ∧
      ∀ k, k ≠ skey tile strand → tget (fun _ => {}) t.chip.strands k = tget (fun _ => {}) s.chip.strands k) ∧
    (1 ≤ source → source ≤ 3 → ∃ t, exec (.fatalError source tile) s = .next t ∧ stageNow t.chip = 0xF ∧
      fbit t.chip aRAS_STATUS 63 = true ∧ fget t.chip aRAS_STATUS 59 56 = source ∧
      fget t.chip aRAS_STATUS 55 48 = (if source = 2 then tile else 0xFF) ∧ t.chip.radio.running = false ∧ t.chip.mem = s.chip.mem)

/-- The health score is recomputed from the deductions, with its state, where the Hearth runs (R639 to R642). -/
def Clauses.HealthIsRecomputed : Prop :=
  ∀ s : State,
    (hearthRuns s.chip = false → exec .healthRecompute s = .next s) ∧
    (hearthRuns s.chip = true →
      let c := countCE s.chip
      let prov := decide (c.ras.served < 3600)
      let score := healthScore c (if prov then 0 else fget c aHEALTH_CE 63 32)
      let old := if fbit s.chip aHEALTH 51 then none else some (fget s.chip aHEALTH 53 52)
      ∃ t, exec .healthRecompute s = .next t ∧ fget t.chip aHEALTH 63 54 = score ∧ fbit t.chip aHEALTH 51 = prov ∧
        fget t.chip aHEALTH 53 52 = (if prov then 0 else healthState old score (forced c)) ∧ fget t.chip aHEALTH 50 47 = forced c ∧
        chipOnly [aHEALTH, aHEALTH_CE] s t (fun x => { x with ras := c.ras, irqs := t.chip.irqs, ibis := t.chip.ibis }))

/-- Power domains (R340, R455, R650, R652): one bit of PWR_DOMAIN turned off or on, or refused and counted; a domain that is up
again; a regulator that fails. -/
def Clauses.DomainsSwitch : Prop :=
  ∀ (s : State) (d : Nat) (data : Word), d < 50 →
    let v := data.toNat
    let only := (∀ k, k < 50 → k ≠ d → v.testBit k = fbit s.chip aPWR_DOMAIN k) ∧ s.chip.ras.tripped = false ∧
      s.chip.ras.dead.testBit d = false ∧ (d < 36 → groupEnabled s.chip d = true)
    ((∀ k, k < 50 → v.testBit k = fbit s.chip aPWR_DOMAIN k) ∨ s.chip.ras.tripped = true → exec (.pwrDomainWrite data) s = .next s) ∧
    (only → v.testBit d = false → fbit s.chip aPWR_DOMAIN d = true → mayOff s.chip d = false → ∃ t, exec (.pwrDomainWrite data) s = .next t ∧
      regsOnly [aPWR_STATUS] s t ∧ countedOne s t aPWR_STATUS 31 16) ∧
    (only → v.testBit d = false → fbit s.chip aPWR_DOMAIN d = true → mayOff s.chip d = true → ∃ t, exec (.pwrDomainWrite data) s = .next t ∧
      fbit t.chip aPWR_DOMAIN d = false ∧ (∀ k, k < 50 → k ≠ d → fbit t.chip aPWR_DOMAIN k = fbit s.chip aPWR_DOMAIN k) ∧
      (d < 36 → ∀ k, k ∈ groupTiles d → fbit t.chip (aTILE_STATUS k) 0 = false ∧ fbit t.chip (aTILE_STATUS k) 2 = false)) ∧
    (only → v.testBit d = true → fbit s.chip aPWR_DOMAIN d = false → ∃ t, exec (.pwrDomainWrite data) s = .next t ∧
      fbit t.chip aPWR_DOMAIN d = true ∧ domainOn t.chip d = false ∧ chipOnly [aPWR_DOMAIN] s t (fun c => { c with ras := t.chip.ras })) ∧
    (s.chip.ras.rising.testBit d = false → exec (.domainPowerUpComplete d) s = .next s) ∧
    (s.chip.ras.rising.testBit d = true → fbit s.chip aPWR_DOMAIN d = true → ∃ t, exec (.domainPowerUpComplete d) s = .next t ∧
      domainOn t.chip d = true ∧ t.chip.tiles = s.chip.tiles ∧ t.chip.mem = s.chip.mem ∧
      (42 ≤ d → d < 46 → ∀ i, i < 8 → fbit s.chip (aFL_CTL (8 * (d - 42) + i)) 0 = true → linkState t.chip (8 * (d - 42) + i) = 1)) ∧
    ((d = 47 ∨ d = 48) → ∃ t, exec (.regulatorFault d) s = .next t ∧ t.chip.boot.off = true ∧ barGet t.chip aPWR_DOMAIN = 0 ∧
      t.chip.radio.running = false ∧ t.chip.boot.undervolt = true) ∧
    (d ≠ 47 → d ≠ 48 → allQuiet s.chip = true → ∃ t, exec (.regulatorFault d) s = .next t ∧ fbit t.chip aPWR_DOMAIN d = false ∧
      t.chip.ras.dead.testBit d = true ∧
      ((d = 36 ∨ d = 37) → fget t.chip (aCODE_STATUS (d - 36)) 3 0 = 2))

/-- Throttling (R653 to R656): the average of the last ten samples, tenant tiles to CAP 25 at once when a sample passes the limit
by 100 W or 1,300 W, the release of the last step, a limit kept between FLOOR and 1,200 W, and the steps that are exhausted. -/
def Clauses.PowerIsHeld : Prop :=
  ∀ (s : State) (w : Nat) (data : Word), w < 2048 →
    let l := (w :: s.chip.ras.samples).take 10
    (alive s.chip = false ∨ s.chip.ras.tripped = true → exec (.powerSample w) s = .next s) ∧
    (alive s.chip = true → s.chip.ras.tripped = false →
      (powerLimit s.chip + 100 < w ∨ 1300 < w → ∃ t, exec (.powerSample w) s = .next t ∧ t.chip.ras.samples = l ∧
        (∀ p k, 1 ≤ p → p < 16 → k ∈ partTiles s.chip p → tileEnabled s.chip k = true → capOf t.chip k ≤ 25) ∧
        t.chip.tiles = s.chip.tiles ∧ t.chip.strands = s.chip.strands) ∧
      (w ≤ powerLimit s.chip + 100 → w ≤ 1300 → min 2047 (l.sum / l.length) ≤ powerLimit s.chip → ∃ t, exec (.powerSample w) s = .next t ∧
        fget t.chip aPWR_STATUS 63 53 = min 2047 (l.sum / l.length) ∧ chipOnly [aPWR_STATUS] s t (fun c => { c with ras := t.chip.ras }) ∧
        t.chip.ras.samples = l)) ∧
    (s.chip.ras.below < 100 ∨ s.chip.ras.brake = true ∨ s.chip.ras.steps = [] → exec .throttleRelease s = .next s) ∧
    (∀ x r, s.chip.ras.steps = x :: r → 100 ≤ s.chip.ras.below → s.chip.ras.brake = false → fbit s.chip aPWR_STATUS 46 = false →
      ∃ t, exec .throttleRelease s = .next t ∧ t.chip.ras.steps = r ∧ fget t.chip aPWR_STATUS 52 48 = min 31 r.length ∧
        (∀ k c, x.caps = [(k, c)] → k < 144 → capOf t.chip k = c % 256) ∧ t.chip.tiles = s.chip.tiles) ∧
    (s.chip.ras.above < 1000 ∨ noStepLeft s.chip = false → exec .throttleExhausted s = .next s) ∧
    (1000 ≤ s.chip.ras.above → noStepLeft s.chip = true → ∃ t, exec .throttleExhausted s = .next t ∧ fbit t.chip aPWR_STATUS 47 = true ∧
      chipOnly [aPWR_STATUS] s t (fun c => { c with irqs := t.chip.irqs })) ∧
    ∃ t, exec (.pwrLimitWrite data) s = .next t ∧ regsOnly [aPWR_LIMIT] s t ∧
      fget t.chip aPWR_LIMIT 10 0 = min 1200 (max (fget s.chip aPWR_LIMIT 42 32) (bitsOf data.toNat 10 0)) ∧
      fget t.chip aPWR_LIMIT 42 32 = fget s.chip aPWR_LIMIT 42 32

/-- Temperature and the power pins (R656, R658, R697 to R703). -/
def Clauses.PinsAct : Prop :=
  ∀ (s : State) (a b c d : Int) (lands : Bool),
    let k := aTHERM_TEMP
    let s1 := fset (fset (fset (fset s.chip k 63 48 (wrap 16 a)) k 47 32 (wrap 16 b)) k 31 16 (wrap 16 c)) k 15 0 (wrap 16 d)
    (alive s.chip = true →
      ((fget s.chip aTHERM_CFG 31 16 : Int) ≤ junction s1 → s.chip.ras.tripped = false → ∃ t, exec (.thermalSample a b c d) s = .next t ∧
        t.chip.ras.tripped = true ∧ fbit t.chip aPKG_PINS 1 = true ∧ t.chip.radio.running = false ∧
        ∀ x, x < 50 → x ≠ 47 → x ≠ 48 → fbit t.chip aPWR_DOMAIN x = false) ∧
      (junction s1 < (fget s.chip aTHERM_CFG 31 16 : Int) → junction s1 < (fget s.chip aTHERM_CFG 15 0 : Int) - 48 →
        s.chip.ras.tripped = false → ∃ t, exec (.thermalSample a b c d) s = .next t ∧ regsOnly [k, aPWR_STATUS] s t ∧
        fbit t.chip aPWR_STATUS 46 = false ∧ barGet t.chip k = barGet s1 k)) ∧
    (∃ t, exec .undervoltage s = .next t ∧ t = { s with chip := { s.chip with boot := { s.chip.boot with undervolt := true } } }) ∧
    (∃ t, exec .overvoltage s = .next t ∧ barGet t.chip aPWR_DOMAIN = 0 ∧ fbit t.chip aPKG_PINS 1 = false ∧ fbit t.chip aSTRIKE_STATUS 2 = false ∧
      chipOnly [aPWR_DOMAIN, aPKG_PINS, aSTRIKE_STATUS] s t (fun x => { x with
        boot := { x.boot with undervolt := true, off := true }, radio := { x.radio with running := false } })) ∧
    (s.chip.ras.brake = true → exec .pwrbrakeAssert s = .next s) ∧
    (s.chip.ras.brake = false → stageNow s.chip = 0 → ∃ t, exec .pwrbrakeAssert s = .next t ∧ regsOnlyRas [aPKG_PINS] s t ∧
      t.chip.ras.brake = true ∧ fbit t.chip aPKG_PINS 0 = true) ∧
    (s.chip.ras.brake = false → hearthRuns s.chip = true → s.chip.ras.tripped = false → ∃ t, exec .pwrbrakeAssert s = .next t ∧
      t.chip.ras.brake = true ∧ countedOne s t aPKG_PINS 47 32 ∧
      ∀ p k, 1 ≤ p → p < 16 → k ∈ partTiles s.chip p → tileEnabled s.chip k = true → capOf t.chip k ≤ 25) ∧
    (∃ t, exec .pwrbrakeDeassert s = .next t ∧ regsOnlyRas [aPKG_PINS] s t ∧ t.chip.ras = { s.chip.ras with brake := false } ∧
      fbit t.chip aPKG_PINS 0 = false) ∧
    (alive s.chip = true → domainOn s.chip 49 = true → ∃ t, exec (.tapInstruction lands) s = .next t ∧
      t = { s with chip := { s.chip with boot := { s.chip.boot with lands := lands && decide (stageNow s.chip ≤ 1) } } })

-- Observability (chapter 15) -------------------------------------------------------------------------------

/-- Counter sets close with their values, and a read of the close time takes the set (R665, R668). Watches are written, take
their pieces, are flushed, and their results are read out (R669 to R674). -/
def Clauses.CountersAndWatches : Prop :=
  ∀ (s : State) (p w id : Nat) (data : Word), p < 17 → w < 1024 →
    (∃ t, exec (.counterClose (2 ^ p)) s = .next t ∧ (∀ k, k < 256 → tget (fun _ => 0) t.chip.ctrLive (256 * p + k) = 0) ∧
      (∀ k, 256 * p + 256 ≤ k ∨ k < 256 * p → tget (fun _ => 0) t.chip.ctrLive k = tget (fun _ => 0) s.chip.ctrLive k) ∧
      fbit t.chip (aCTR_STATUS p) 1 = true ∧ fget t.chip (aCTR_STATUS p) 11 8 = 1 ∧
      fget t.chip (aCTR_STATUS p) 63 32 = (fget s.chip (aCTR_STATUS p) 63 32 + 1) % 2 ^ 32 ∧
      fget t.chip (aCTR_STATUS p) 31 16 = (if fbit s.chip (aCTR_STATUS p) 1 then min (fget s.chip (aCTR_STATUS p) 31 16 + 1) 0xFFFF
        else fget s.chip (aCTR_STATUS p) 31 16) ∧ barGet t.chip (aCTR_CLOSE_TIME p) = stamp s.chip 2 ∧
      chipOnly [aCTR_STATUS p, aCTR_CLOSE_TIME p] s t (fun c => { c with ctrLive := t.chip.ctrLive, ctrClosed := t.chip.ctrClosed })) ∧
    (∀ k v, twf (fun _ => (0 : Nat)) s.chip.ctrLive = true → k < 256 → tget (fun _ => 0) s.chip.ctrLive (256 * p + k) = v → ∃ t,
      exec (.counterClose (2 ^ p)) s = .next t ∧ tget (fun _ => 0) t.chip.ctrClosed (256 * p + k) = v) ∧
    (∃ t, exec (.closeTimeRead p) s = .next t ∧ fbit t.chip (aCTR_STATUS p) 1 = false ∧ t.chip.resp.toNat = barGet s.chip (aCTR_CLOSE_TIME p) ∧
      chipOnly [aCTR_STATUS p] s t (fun c => { c with resp := t.chip.resp })) ∧
    (∃ t, exec (.watchWrite w) s = .next t ∧ getWatch t.chip w = { cfg := stageBytes s.chip aTW_STAGE } ∧
      chipOnly [aTW_STATUS] s t (fun c => { c with obs := t.chip.obs }) ∧ ∀ k, k ≠ w → getWatch t.chip k = getWatch s.chip k) ∧
    ((getWatch s.chip w).came = [] → exec (.watchFlush w) s = .next s) ∧
    ((getWatch s.chip w).came ≠ [] → s.chip.obs.results = [] → fbit s.chip aTW_CTL 0 = false → ∃ t r, exec (.watchFlush w) s = .next t ∧
      t.chip.obs.results = [r] ∧ bNat r.2 0 2 = w ∧ bitOf (bNat r.2 4 1) 2 = true ∧
      getWatch t.chip w = { cfg := (getWatch s.chip w).cfg, seq := (getWatch s.chip w).seq + 1 }) ∧
    (s.chip.taps.find? (fun x => x.id == id) = none → exec (.tapPieceArrival id) s = .next s) ∧
    (∀ x piece last bs pz, s.chip.taps.find? (fun x => x.id == id) = some x → x.data = .digest piece last bs pz →
      (watchTakes s.chip x false = false → ∃ t, exec (.tapPieceArrival id) s = .next t ∧ countedOne s t aTW_STATUS 63 32 ∧
        chipOnly [aTW_STATUS] s t (fun c => { c with taps := c.taps.filter (fun q => q.id != id) })) ∧
      (watchTakes s.chip x false = true → x.watch = w → getWatch s.chip w = { cfg := (getWatch s.chip w).cfg, seq := (getWatch s.chip w).seq } →
        last = false → piece = 0 → ∃ t, exec (.tapPieceArrival id) s = .next t ∧
          getWatch t.chip w = { getWatch s.chip w with hashed := bs, next := 1, came := [0], pz := pz, total := bs.length } ∧
          t.chip.taps = s.chip.taps.filter (fun q => q.id != id))) ∧
    (s.chip.obs.results = [] → ∃ t, exec (.twHeadWrite data) s = .next t ∧ regsOnly [aTW_HEAD] s t ∧
      fget t.chip aTW_HEAD 36 20 = bitsOf data.toNat 36 20 ∧ fget t.chip aTW_HEAD 16 0 = fget s.chip aTW_HEAD 16 0)

/-- The trace unit (R675 to R680) and hang snapshots (R681 to R685): an entry enters the FIFO while the unit takes its class, an
entry reaches the SRAM, arming empties the unit, a trigger counts once, draining writes the frozen buffer, and a snapshot is
cut at once and written later. -/
def Clauses.TraceAndSnapshots : Prop :=
  ∀ (s : State) (cls source code part n : Nat) (data : Word),
    let st := traceState s.chip
    let takes := fun (k : Nat) => fbit s.chip aTR_CTL 0 = true ∧ debugPowered s.chip = true ∧ (fget s.chip aTR_CTL 63 48).testBit k = true ∧
      s.chip.obs.dropping = none ∧ s.chip.obs.fifo.length < 512
    (fbit s.chip aTR_CTL 0 = false ∨ (fget s.chip aTR_CTL 63 48).testBit cls = false ∨ (st ≠ 1 ∧ st ≠ 2 ∧ st ≠ 5) →
      exec (.traceEntry cls source code part n) s = .next s) ∧
    (takes cls → (st = 2 ∨ st = 5) → ∃ t, exec (.traceEntry cls source code part n) s = .next t ∧
      t = { s with chip := { s.chip with obs := { s.chip.obs with
        fifo := s.chip.obs.fifo ++ [traceBytes (traceTime s.chip) cls source code part n] } } }) ∧
    (takes 9 → (st = 2 ∨ st = 5) → ∃ t e, exec (.trMark data) s = .next t ∧ t.chip.obs.fifo = s.chip.obs.fifo ++ [e] ∧
      bNat e 8 1 = 9 ∧ bNat e 16 8 = data.toNat ∧ t.chip.bar = s.chip.bar) ∧
    (debugPowered s.chip = true → ∃ t, exec .arm s = .next t ∧ regsOnlyObs [aTR_STATUS] s t ∧ t.chip.obs.fifo = [] ∧ t.chip.obs.pre = [] ∧
      t.chip.obs.post = [] ∧ traceState t.chip = (if fbit s.chip aTR_CTL 1 then 1 else if fbit s.chip aTR_CTL 0 then 5 else 0) ∧ fget t.chip aTR_STATUS 31 15 = 0) ∧
    (st ≠ 1 → exec .trigger s = .next s) ∧
    (st = 1 → fbit s.chip aTR_CTL 2 = false → ∃ t, exec .trigger s = .next t ∧ traceState t.chip = 2 ∧ regsOnlyObs [aTR_STATUS] s t ∧
      t.chip.obs = { s.chip.obs with trigNext := true }) ∧
    (st ≠ 3 → exec .drain s = .next s) ∧ (st = 3 → ∃ t, exec .drain s = .next t ∧ regsOnly [aTR_STATUS] s t ∧ traceState t.chip = 4) ∧
    (st ≠ 4 → exec .traceDrainComplete s = .next s) ∧
    (st = 4 → barGet s.chip aTR_DRAIN / 2 ^ 60 = 2 → s.chip.boot.undervolt = false → fbit s.chip (aDLOG_CTL 0) 0 = false →
      s.chip.mem.dlogHeld = [] → ∃ t, exec .traceDrainComplete s = .next t ∧ traceState t.chip = 3 ∧ fbit t.chip aTR_STATUS 3 = true ∧
        let bs := (s.chip.obs.pre ++ s.chip.obs.post).flatten
        mread t.chip.mem.host (barGet s.chip aTR_DRAIN % 2 ^ 57) bs.length = bs) ∧
    (s.chip.obs.fifo = [] → exec .traceSramWrite s = .next s) ∧
    (∀ e r, s.chip.obs.fifo = e :: r → st = 1 → s.chip.obs.post = [] → s.chip.obs.trigNext = false → bitOf (bNat e 9 1) 0 = false →
      s.chip.obs.dropping = none → s.chip.obs.pre.length < fget s.chip aTR_CTL 47 31 → ∃ t, exec .traceSramWrite s = .next t ∧
        regsOnlyObs [aTR_STATUS] s t ∧ t.chip.obs = { s.chip.obs with fifo := r, pre := s.chip.obs.pre ++ [bSet e 9 1 2] } ∧
        fget t.chip aTR_STATUS 31 15 = (s.chip.obs.pre.length + 1) % 2 ^ 17) ∧
    (fbit s.chip aSNAP_STATUS 0 = true → ∃ t, exec .snapshotRequest s = .next t ∧ regsOnly [aSNAP_STATUS] s t ∧ countedOne s t aSNAP_STATUS 31 16) ∧
    (fbit s.chip aSNAP_STATUS 0 = false → (stageNow s.chip < 3 ∨ 6 < stageNow s.chip) → exec .snapshotRequest s = .next s) ∧
    (fbit s.chip aSNAP_STATUS 0 = false → 3 ≤ stageNow s.chip → stageNow s.chip ≤ 6 → ∃ t, exec .snapshotRequest s = .next t ∧
      chipOnly [aSNAP_STATUS] s t (fun c => { c with freeCtr := s.chip.freeCtr + 1, obs := t.chip.obs }) ∧
      fbit t.chip aSNAP_STATUS 0 = true ∧ t.chip.obs = { s.chip.obs with shadow := some (snapImage s.chip) }) ∧
    (s.chip.obs.shadow = none → exec .snapshotComplete s = .next s) ∧
    (∀ img, s.chip.obs.shadow = some img → ∃ t, exec .snapshotComplete s = .next t ∧ fbit t.chip aSNAP_STATUS 0 = false ∧
      fget t.chip aSNAP_STATUS 63 32 = img.length % 2 ^ 32 ∧ t.chip.obs = { s.chip.obs with shadow := none })

-- The statements that several of the clauses above make together -------------------------------------------

/-- The queue is empty at reset, and a queue of well-formed commands runs out. -/
def Obligations.QueueIsOkAtResetAndRunsOut : Prop := Clauses.ResetQueueOk ∧ Clauses.QueueRunsOut

/-- Scalar arithmetic, predicate logic and compares: results, marks and frame. -/
def Obligations.ScalarAndPredicateResults : Prop := Clauses.ScalarResults ∧ Clauses.PredicateResults

/-- Bundles issue as a unit: slots gathered, held by a wait or a full queue, and let go. -/
def Obligations.WaitsAndBundles : Prop := Clauses.SlotsAreCollected ∧ Clauses.WaitHolds ∧ Clauses.FullQueueHolds ∧ Clauses.WaitsEnd

/-- Vector loads and stores, and moves between register files. -/
def Obligations.VectorMemoryAndMoves : Prop := Clauses.VectorMemory ∧ Clauses.RegisterMoves

/-- Vector arithmetic, compares, selects, conversions, sums and random numbers. -/
def Obligations.VectorArithmetic : Prop := Clauses.VectorElementwise ∧ Clauses.VectorConversions

/-- Engine, combine, Fuller, mover and tap operations enter their queues at issue. -/
def Obligations.QueuedOperationsAreTaken : Prop := Clauses.EnginesTakeOperations ∧ Clauses.FullerTakesOperations

/-- A matrix pass and an element-wise operation as they run. -/
def Obligations.MatrixOperationsRun : Prop := Clauses.MatrixPassRuns ∧ Clauses.MatrixElementwiseRuns

/-- Bankside operations and record combination as they run. -/
def Obligations.BanksideAndCombineRun : Prop := Clauses.BanksideOperationsRun ∧ Clauses.CombineOperationsRun

/-- Fuller operations on streams and on the Fuller's own registers as they run. -/
def Obligations.FullerRuns : Prop := Clauses.FullerOperationsRun ∧ Clauses.FullerRegistersRun

/-- Refused operations report a code, and the strand takes the lowest as an asynchronous fault. -/
def Obligations.OperationFaultsReachTheirStrand : Prop := Clauses.OperationsRefused ∧ Clauses.AsyncFaultIsTaken

/-- send: the message leaves, arrives, is acknowledged or is refused. -/
def Obligations.MessagesBetweenTiles : Prop := Clauses.SendLeaves ∧ Clauses.SendEnds

/-- Fabric loads, stores and atomics on near and far ranks. -/
def Obligations.FabricWords : Prop := Clauses.FabricWordRequests ∧ Clauses.FabricFarWords

/-- Plain registers hold what is written, and a virtual function sees its own. -/
def Obligations.RegistersOfTheFunctions : Prop := Clauses.PlainRegistersHoldWhatIsWritten ∧ Clauses.VirtualFunctionsSeeTheirOwn

/-- Flits sent again, governor frames, and the upkeep of banks. -/
def Obligations.MeshGovernorAndBankUpkeep : Prop := Clauses.FlitResends ∧ Clauses.GovernorFrames ∧ Clauses.BankUpkeep

/-- Zeroing, fencing, resetting, halting and starting tiles and strands. -/
def Obligations.TilesAreZeroedFencedAndStarted : Prop := Clauses.TilesAreZeroed ∧ Clauses.FencesStopATile ∧ Clauses.StrandResets ∧ Clauses.StrandsStartAndStop

/-- Banks through the host window, the fetch buffer, and buffer swaps. -/
def Obligations.WindowFetchAndSwap : Prop := Clauses.WindowAccesses ∧ Clauses.FetchAndSwap

/-- Memory channels are trained, fail and are kept up, and the map is enabled. -/
def Obligations.ChannelsAndTheMap : Prop := Clauses.ChannelsAreTrained ∧ Clauses.ChannelsFail ∧ Clauses.TheMapIsEnabled ∧ Clauses.ChannelUpkeep

/-- Accesses of device memory, and those that a partition may not make. -/
def Obligations.DeviceMemory : Prop := Clauses.DeviceMemoryAccesses ∧ Clauses.ForbiddenAccesses

/-- Swage records are accepted or refused, and a unit is fenced or enabled. -/
def Obligations.SwageUnits : Prop := Clauses.SwageAccepts ∧ Clauses.SwageControl

/-- Swage queries proceed and return, and appends and page inits write. -/
def Obligations.SwageCommandsRun : Prop := Clauses.SwageQueriesProceed ∧ Clauses.SwageRecordsReturn ∧ Clauses.SwageWrites

/-- Queue commands, stopped queues, doorbells and the queue manager. -/
def Obligations.QueuesAreCommanded : Prop := Clauses.QueueCommands ∧ Clauses.StoppedQueues ∧ Clauses.Doorbells ∧ Clauses.QueueManagerStarts

/-- A descriptor starts, its elements are written, and panes arrive. -/
def Obligations.TransfersRunAndPanesArrive : Prop := Clauses.TransfersRun ∧ Clauses.PanesArrive

/-- Plans are loaded and proved; tier requests, ENABLE and UNMUTE. -/
def Obligations.PlansAndRadioControls : Prop := Clauses.PlansAreProved ∧ Clauses.RadioControls

/-- Frames received on a port, and their sections written to tiles. -/
def Obligations.FramesComeIn : Prop := Clauses.FramesArrive ∧ Clauses.SectionsAreWritten

/-- Egress rings and frames, late discards, and PTP messages. -/
def Obligations.FramesGoOut : Prop := Clauses.FramesLeave ∧ Clauses.PtpMessagesLeave

/-- Shapers, policers, queue samples, and the states of a port. -/
def Obligations.ShapersAndPorts : Prop := Clauses.ShapersRun ∧ Clauses.PortsChange

/-- Time bases are stepped, steered and read, and the servo loses its references. -/
def Obligations.TimeBasesAndServo : Prop := Clauses.TimeBases ∧ Clauses.ServoEvents

/-- Time triggers and capture units. -/
def Obligations.TriggersAndStamps : Prop := Clauses.TriggersFire ∧ Clauses.StampsAreTaken

/-- Partition commands that are refused, and those that set a partition up. -/
def Obligations.PartitionsAreMade : Prop := Clauses.PartitionCommandsRefused ∧ Clauses.GroupsAreRefused ∧ Clauses.PartitionsAreSetUp

/-- Partitions are loaded, started, stopped, frozen, saved, restored and ended. -/
def Obligations.PartitionsRunAndAreSaved : Prop := Clauses.PartitionsRun ∧ Clauses.PartitionsAreSaved

/-- The grant table and the bandwidth regulators. -/
def Obligations.GrantsAndRegulators : Prop := Clauses.GrantsChange ∧ Clauses.RegulatorsRun

/-- Mailbox messages of the tenant, the manager and the Hearth. -/
def Obligations.Mailboxes : Prop := Clauses.MailboxesCarry ∧ Clauses.MailboxesAnswer

/-- Fabric links train, wear and go down. -/
def Obligations.FabricLinks : Prop := Clauses.LinksTrain ∧ Clauses.LinksWear

/-- Job slots, Ward entries, multicasts, the Gateway and fabric time. -/
def Obligations.JobsStreamsAndTime : Prop := Clauses.JobsChange ∧ Clauses.StreamsAndTime

/-- Resets, the boot stages, image checks and fuses. -/
def Obligations.ResetsAndBoot : Prop := Clauses.ResetsHappen ∧ Clauses.BootAdvances

/-- Attestation, link encryption, coherence bias and the management endpoint. -/
def Obligations.AttestationAndHostLink : Prop := Clauses.AttestationAnswers ∧ Clauses.HostLinkChanges

/-- Temper tests, parity and fatal errors, and the health score. -/
def Obligations.TestsErrorsAndHealth : Prop := Clauses.TestsAndErrors ∧ Clauses.HealthIsRecomputed

/-- Power domains, throttling, temperature and the power pins. -/
def Obligations.PowerAndPins : Prop := Clauses.DomainsSwitch ∧ Clauses.PowerIsHeld ∧ Clauses.PinsAct

/-- Counter sets, watches, the trace unit and snapshots. -/
def Obligations.Observation : Prop := Clauses.CountersAndWatches ∧ Clauses.TraceAndSnapshots
end

