-- ==== Sys2Proof/Laws/Store.lean ====
section
/-! SUPPORT. Sparse tables: a read after a write, and the canonical form that every write keeps. -/

namespace Sys2Proof.Machine

variable {α : Type}

theorem tget_tdel_same (d : Nat → α) (k : Nat) (t : Tab α) : tget d (tdel k t) k = d k := by
  induction t with
  | nil => rfl
  | cons p r ih =>
    obtain ⟨j, v⟩ := p
    by_cases h : j = k
    · simp [tdel, h, ih]
    · simp [tdel, h, tget, Ne.symm h, ih]

theorem tget_tdel_other (d : Nat → α) {k k' : Nat} (h : k' ≠ k) (t : Tab α) :
    tget d (tdel k t) k' = tget d t k' := by
  induction t with
  | nil => rfl
  | cons p r ih =>
    obtain ⟨j, v⟩ := p
    by_cases hj : j = k
    · subst hj; simp [tdel, tget, h, ih]
    · by_cases hk : k' = j <;> simp [tdel, hj, tget, hk, ih]

theorem tget_tput_same (d : Nat → α) (k : Nat) (v : α) (t : Tab α) (h : ∀ p ∈ t, p.1 ≠ k) :
    tget d (tput k v t) k = v := by
  induction t with
  | nil => simp [tput, tget]
  | cons p r ih =>
    obtain ⟨j, w⟩ := p
    have hj : k ≠ j := fun e => h (j, w) (by simp) e.symm
    by_cases hl : k < j
    · simp [tput, hl, tget]
    · simp only [tput, hl, if_false, tget, if_neg hj]
      exact ih (fun p hp => h p (by simp [hp]))

theorem tget_tput_other (d : Nat → α) {k k' : Nat} (h : k' ≠ k) (v : α) (t : Tab α) :
    tget d (tput k v t) k' = tget d t k' := by
  induction t with
  | nil => simp [tput, tget, h]
  | cons p r ih =>
    obtain ⟨j, w⟩ := p
    by_cases hl : k < j
    · simp [tput, hl, tget, h]
    · by_cases hk : k' = j <;> simp [tput, hl, tget, hk, ih]

theorem tdel_keys (k : Nat) (t : Tab α) : ∀ p ∈ tdel k t, p.1 ≠ k := by
  induction t with
  | nil => simp [tdel]
  | cons p r ih =>
    obtain ⟨j, v⟩ := p
    by_cases h : j = k
    · simpa [tdel, h] using ih
    · intro q hq
      simp only [tdel, h, if_false, List.mem_cons] at hq
      rcases hq with rfl | hq
      · exact h
      · exact ih q hq

theorem tdel_of_no_key (k : Nat) (t : Tab α) (h : ∀ p ∈ t, p.1 ≠ k) : tdel k t = t := by
  induction t with
  | nil => rfl
  | cons p r ih =>
    obtain ⟨j, v⟩ := p
    rw [tdel, if_neg (h (j, v) (by simp)), ih (fun p hp => h p (by simp [hp]))]

theorem tdel_tput (k : Nat) (v : α) (t : Tab α) (h : ∀ p ∈ t, p.1 ≠ k) : tdel k (tput k v t) = t := by
  induction t with
  | nil => simp [tput, tdel]
  | cons p r ih =>
    obtain ⟨j, w⟩ := p
    by_cases hl : k < j
    · rw [tput, if_pos hl, tdel, if_pos rfl, tdel_of_no_key k _ h]
    · rw [tput, if_neg hl, tdel, if_neg (h (j, w) (by simp)), ih (fun p hp => h p (by simp [hp]))]

variable [DecidableEq α]

/-- A read of the key just written. -/
@[simp] theorem tget_tset_same (d : Nat → α) (k : Nat) (v : α) (t : Tab α) : tget d (tset d k v t) k = v := by
  unfold tset
  split
  · next h => rw [tget_tdel_same, h]
  · exact tget_tput_same d k v _ (tdel_keys k t)

/-- A read of any other key. -/
theorem tget_tset_other (d : Nat → α) {k k' : Nat} (h : k' ≠ k) (v : α) (t : Tab α) :
    tget d (tset d k v t) k' = tget d t k' := by
  unfold tset
  split
  · exact tget_tdel_other d h t
  · rw [tget_tput_other d h, tget_tdel_other d h]

/-- Reads after a write. -/
theorem tget_tset (d : Nat → α) (k k' : Nat) (v : α) (t : Tab α) :
    tget d (tset d k v t) k' = if k' = k then v else tget d t k' := by
  split
  · next h => subst h; simp
  · next h => exact tget_tset_other d h v t

/-- The later of two writes of a key stands. -/
@[simp] theorem tset_tset (d : Nat → α) (k : Nat) (v w : α) (t : Tab α) : tset d k v (tset d k w t) = tset d k v t := by
  have h : tdel k (tset d k w t) = tdel k t := by
    unfold tset
    split
    · exact tdel_of_no_key k _ (tdel_keys k t)
    · exact tdel_tput k w _ (tdel_keys k t)
  unfold tset at h ⊢
  rw [h]

-- The canonical form.

theorem twfFrom_mono (d : Nat → α) {lo lo' : Nat} (h : lo' ≤ lo) (t : Tab α) (ht : twfFrom d lo t = true) :
    twfFrom d lo' t = true := by
  cases t with
  | nil => rfl
  | cons p r =>
    obtain ⟨k, v⟩ := p
    simp only [twfFrom, Bool.and_eq_true, decide_eq_true_eq] at ht ⊢
    exact ⟨⟨by omega, ht.1.2⟩, ht.2⟩

theorem twfFrom_tdel (d : Nat → α) (k : Nat) : ∀ (lo : Nat) (t : Tab α), twfFrom d lo t = true →
    twfFrom d lo (tdel k t) = true := by
  intro lo t
  induction t generalizing lo with
  | nil => intro h; exact h
  | cons p r ih =>
    obtain ⟨j, v⟩ := p
    intro h
    simp only [twfFrom, Bool.and_eq_true, decide_eq_true_eq] at h
    by_cases hj : j = k
    · simp only [tdel, hj, if_true]
      exact twfFrom_mono d (show lo ≤ j + 1 by omega) _ (ih _ h.2)
    · simp only [tdel, hj, if_false, twfFrom, Bool.and_eq_true, decide_eq_true_eq]
      exact ⟨h.1, ih _ h.2⟩

theorem twfFrom_tput (d : Nat → α) (k : Nat) (v : α) (hv : v ≠ d k) : ∀ (lo : Nat) (t : Tab α), lo ≤ k →
    (∀ p ∈ t, p.1 ≠ k) → twfFrom d lo t = true → twfFrom d lo (tput k v t) = true := by
  intro lo t
  induction t generalizing lo with
  | nil => intro hk _ _; simp [tput, twfFrom, hk, hv]
  | cons p r ih =>
    obtain ⟨j, w⟩ := p
    intro hk hne h
    have hj : j ≠ k := hne (j, w) (by simp)
    simp only [twfFrom, Bool.and_eq_true, decide_eq_true_eq] at h
    by_cases hl : k < j
    · simp only [tput, hl, if_true, twfFrom, Bool.and_eq_true, decide_eq_true_eq]
      exact ⟨⟨hk, hv⟩, ⟨by omega, h.1.2⟩, h.2⟩
    · simp only [tput, hl, if_false, twfFrom, Bool.and_eq_true, decide_eq_true_eq]
      exact ⟨h.1, ih (j + 1) (by omega) (fun p hp => hne p (by simp [hp])) h.2⟩

/-- A write keeps the canonical form. -/
theorem twf_tset (d : Nat → α) (k : Nat) (v : α) (t : Tab α) (h : twf d t = true) : twf d (tset d k v t) = true := by
  unfold tset twf
  split
  · exact twfFrom_tdel d k 0 t h
  · next hv => exact twfFrom_tput d k v hv 0 _ (Nat.zero_le k) (tdel_keys k t) (twfFrom_tdel d k 0 t h)

/-- A read and write keep the canonical form. -/
theorem twf_tmod (d : Nat → α) (k : Nat) (f : α → α) (t : Tab α) (h : twf d t = true) : twf d (tmod d k f t) = true :=
  twf_tset d k _ t h

/-- The empty table is in canonical form. -/
theorem twf_nil (d : Nat → α) : twf d ([] : Tab α) = true := rfl

theorem twfFrom_filter (d : Nat → α) (q : Nat × α → Bool) : ∀ (lo : Nat) (t : Tab α), twfFrom d lo t = true →
    twfFrom d lo (t.filter q) = true := by
  intro lo t
  induction t generalizing lo with
  | nil => intro h; exact h
  | cons p r ih =>
    obtain ⟨j, v⟩ := p
    intro h
    simp only [twfFrom, Bool.and_eq_true, decide_eq_true_eq] at h
    by_cases hq : q (j, v) = true
    · simp only [List.filter_cons, hq, if_true, twfFrom, Bool.and_eq_true, decide_eq_true_eq]
      exact ⟨h.1, ih _ h.2⟩
    · simp only [List.filter_cons, hq]
      exact twfFrom_mono d (show lo ≤ j + 1 by omega) _ (ih _ h.2)

/-- A cleared range keeps the canonical form. -/
theorem twf_tclear (d : Nat → α) (lo hi : Nat) (t : Tab α) (h : twf d t = true) : twf d (tclear lo hi t) = true :=
  twfFrom_filter d _ 0 t h

/-- Two tables in canonical form that read alike are equal: equal memories are equal data. -/
theorem tab_ext_from (d : Nat → α) : ∀ (lo : Nat) (t u : Tab α), twfFrom d lo t = true → twfFrom d lo u = true →
    (∀ k, lo ≤ k → tget d t k = tget d u k) → t = u := by
  intro lo t
  have low : ∀ (lo k : Nat) (w : Tab α), twfFrom d lo w = true → k < lo → tget d w k = d k := by
    intro lo k w
    induction w generalizing lo with
    | nil => intro _ _; rfl
    | cons p r ih =>
      obtain ⟨j, v⟩ := p
      intro h hk
      simp only [twfFrom, Bool.and_eq_true, decide_eq_true_eq] at h
      rw [tget, if_neg (by omega)]
      exact ih (j + 1) h.2 (by omega)
  induction t generalizing lo with
  | nil =>
    intro u _ hu h
    cases u with
    | nil => rfl
    | cons p r =>
      obtain ⟨j, v⟩ := p
      simp only [twfFrom, Bool.and_eq_true, decide_eq_true_eq] at hu
      have := h j hu.1.1
      simp only [tget, if_true] at this
      exact absurd this.symm hu.1.2
  | cons p r ih =>
    obtain ⟨j, v⟩ := p
    intro u ht hu h
    simp only [twfFrom, Bool.and_eq_true, decide_eq_true_eq] at ht
    cases u with
    | nil =>
      have := h j ht.1.1
      simp only [tget, if_true] at this
      exact absurd this ht.1.2
    | cons q w =>
      obtain ⟨i, x⟩ := q
      simp only [twfFrom, Bool.and_eq_true, decide_eq_true_eq] at hu
      have hij : j = i := by
        by_contra hne
        rcases Nat.lt_or_gt_of_ne hne with hl | hl
        · have := h j ht.1.1
          rw [tget, if_pos rfl, tget, if_neg hne, low (i + 1) j w hu.2 (by omega)] at this
          exact ht.1.2 this
        · have := h i hu.1.1
          rw [tget, if_neg (Ne.symm hne), low (j + 1) i r ht.2 (by omega), tget, if_pos rfl] at this
          exact hu.1.2 this.symm
      subst hij
      have hv : v = x := by simpa [tget] using h j ht.1.1
      subst hv
      congr 1
      refine ih (j + 1) w ht.2 hu.2 (fun k hk => ?_)
      have := h k (by omega)
      simpa [tget, show k ≠ j by omega] using this

theorem tab_ext (d : Nat → α) (t u : Tab α) (ht : twf d t = true) (hu : twf d u = true)
    (h : ∀ k, tget d t k = tget d u k) : t = u := tab_ext_from d 0 t u ht hu (fun k _ => h k)

-- Memories and sets.

/-- A byte read after a byte write. -/
theorem mget_mset (m : Tab Byte) (a a' : Nat) (b : Byte) : mget (mset m a b) a' = if a' = a then b else mget m a' :=
  tget_tset _ a a' b m

/-- A byte write keeps the canonical form. -/
theorem mset_wf (m : Tab Byte) (a : Nat) (b : Byte) (h : Memory.wf m = true) : Memory.wf (mset m a b) = true :=
  twf_tset _ a b m h

/-- A write of bytes keeps the canonical form. -/
theorem mwrite_wf (l : List Byte) : ∀ (m : Tab Byte) (a : Nat), Memory.wf m = true → Memory.wf (mwrite m a l) = true := by
  induction l with
  | nil => intro m a h; exact h
  | cons b r ih => intro m a h; exact ih _ _ (mset_wf m a b h)

/-- A write of bytes leaves every byte below its address alone. -/
theorem mget_mwrite_below (l : List Byte) : ∀ (m : Tab Byte) (a x : Nat), x < a → mget (mwrite m a l) x = mget m x := by
  induction l with
  | nil => intro m a x _; rfl
  | cons b r ih =>
    intro m a x h
    rw [mwrite, ih _ _ _ (by omega), mget_mset, if_neg (by omega)]

/-- A byte read after a write of bytes. -/
theorem mget_mwrite (l : List Byte) : ∀ (m : Tab Byte) (a x : Nat),
    mget (mwrite m a l) x = if a ≤ x ∧ x < a + l.length then l.getD (x - a) 0 else mget m x := by
  induction l with
  | nil => intro m a x; simp [mwrite]
  | cons b r ih =>
    intro m a x
    rw [mwrite, ih, mget_mset]
    by_cases h1 : x = a
    · subst h1; simp
    · by_cases h2 : a ≤ x ∧ x < a + (b :: r).length
      · have h3 : a + 1 ≤ x ∧ x < a + 1 + r.length := by simp at h2; omega
        rw [if_pos h3, if_pos h2, show x - a = (x - (a + 1)) + 1 by omega]; rfl
      · have h3 : ¬(a + 1 ≤ x ∧ x < a + 1 + r.length) := by simp at h2; omega
        rw [if_neg h3, if_neg h2, if_neg h1]

/-- A mark read after a mark is set or cleared. -/
theorem tmem_tmark (t : Tab Bool) (k k' : Nat) (b : Bool) : tmem (tmark t k b) k' = if k' = k then b else tmem t k' :=
  tget_tset _ k k' b t

@[simp] theorem tmem_tmark_same (t : Tab Bool) (k : Nat) (b : Bool) : tmem (tmark t k b) k = b := by simp [tmem_tmark]

end Sys2Proof.Machine
end

