-- ==== Sys2Proof/Laws/State.lean ====
section
/-! SUPPORT. What each update of the chip leaves and gives, field by field. -/

namespace Sys2Proof.Machine

-- The queue is no part of what a command works on.

@[simp] theorem onChip_pending {s : State} {f : Chip → Out} {t : State} (h : onChip s f = .next t) :
    t.pending = s.pending := by
  unfold onChip at h
  cases hf : f s.chip <;> rw [hf] at h <;> cases h
  rfl

theorem onChip_next {s : State} {f : Chip → Out} {c : Chip} (h : f s.chip = .next c) :
    onChip s f = .next { s with chip := c } := by
  unfold onChip
  rw [h]

theorem onChip_fault {s : State} {f : Chip → Out} {r : Fault} (h : f s.chip = .fault r) : onChip s f = .fault r := by
  unfold onChip
  rw [h]

/-- The one way to a next state: the command's effect on the chip. -/
theorem onChip_cases {s : State} {f : Chip → Out} {t : State} (h : onChip s f = .next t) :
    ∃ c, f s.chip = .next c ∧ t = { s with chip := c } := by
  unfold onChip at h
  cases hf : f s.chip <;> rw [hf] at h <;> cases h
  exact ⟨_, rfl, rfl⟩

/-- A unit of the part: the effect, and no other outcome. -/
theorem onUnit_next {name : String} {n i : Nat} (h : i < n) (s : Chip) (f : Chip → Chip) :
    onUnit name n i s f = .next (f s) := if_pos h

theorem onStrand_next {t i : Nat} (ht : t < 144) (hi : i < 8) (s : Chip) (f : Chip → Chip) :
    onStrand t i s f = .next (f s) := if_pos ⟨ht, hi⟩

theorem onBank_next {t b : Nat} (ht : t < 144) (hb : b < 32) (s : Chip) (f : Chip → Chip) :
    onBank t b s f = .next (f s) := if_pos ⟨ht, hb⟩

@[simp] theorem when_true (s : Chip) (f : Chip → Chip) : when true s f = f s := rfl
@[simp] theorem when_false (s : Chip) (f : Chip → Chip) : when false s f = s := rfl

-- barSet
@[simp] theorem barSet_freeCtr (s : Chip) (k v : Nat) : (barSet s k v).freeCtr = s.freeCtr := rfl
@[simp] theorem barSet_latch (s : Chip) (k v : Nat) : (barSet s k v).latch = s.latch := rfl
@[simp] theorem barSet_hold (s : Chip) (k v : Nat) : (barSet s k v).hold = s.hold := rfl
@[simp] theorem barSet_resp (s : Chip) (k v : Nat) : (barSet s k v).resp = s.resp := rfl
@[simp] theorem barSet_ctrLive (s : Chip) (k v : Nat) : (barSet s k v).ctrLive = s.ctrLive := rfl
@[simp] theorem barSet_ctrClosed (s : Chip) (k v : Nat) : (barSet s k v).ctrClosed = s.ctrClosed := rfl
@[simp] theorem barSet_cycle (s : Chip) (k v : Nat) : (barSet s k v).cycle = s.cycle := rfl
@[simp] theorem barSet_tiles (s : Chip) (k v : Nat) : (barSet s k v).tiles = s.tiles := rfl
@[simp] theorem barSet_strands (s : Chip) (k v : Nat) : (barSet s k v).strands = s.strands := rfl
@[simp] theorem barSet_flights (s : Chip) (k v : Nat) : (barSet s k v).flights = s.flights := rfl
@[simp] theorem barSet_taps (s : Chip) (k v : Nat) : (barSet s k v).taps = s.taps := rfl
@[simp] theorem barSet_nextId (s : Chip) (k v : Nat) : (barSet s k v).nextId = s.nextId := rfl
@[simp] theorem barSet_parts (s : Chip) (k v : Nat) : (barSet s k v).parts = s.parts := rfl
@[simp] theorem barSet_hasp (s : Chip) (k v : Nat) : (barSet s k v).hasp = s.hasp := rfl
@[simp] theorem barSet_images (s : Chip) (k v : Nat) : (barSet s k v).images = s.images := rfl
@[simp] theorem barSet_mem (s : Chip) (k v : Nat) : (barSet s k v).mem = s.mem := rfl
@[simp] theorem barSet_fab (s : Chip) (k v : Nat) : (barSet s k v).fab = s.fab := rfl
@[simp] theorem barSet_qm (s : Chip) (k v : Nat) : (barSet s k v).qm = s.qm := rfl
@[simp] theorem barSet_radio (s : Chip) (k v : Nat) : (barSet s k v).radio = s.radio := rfl
@[simp] theorem barSet_code (s : Chip) (k v : Nat) : (barSet s k v).code = s.code := rfl
@[simp] theorem barSet_time (s : Chip) (k v : Nat) : (barSet s k v).time = s.time := rfl
@[simp] theorem barSet_ports (s : Chip) (k v : Nat) : (barSet s k v).ports = s.ports := rfl
@[simp] theorem barSet_mesh (s : Chip) (k v : Nat) : (barSet s k v).mesh = s.mesh := rfl
@[simp] theorem barSet_boot (s : Chip) (k v : Nat) : (barSet s k v).boot = s.boot := rfl
@[simp] theorem barSet_ras (s : Chip) (k v : Nat) : (barSet s k v).ras = s.ras := rfl
@[simp] theorem barSet_obs (s : Chip) (k v : Nat) : (barSet s k v).obs = s.obs := rfl
@[simp] theorem barSet_irqs (s : Chip) (k v : Nat) : (barSet s k v).irqs = s.irqs := rfl
@[simp] theorem barSet_ibis (s : Chip) (k v : Nat) : (barSet s k v).ibis = s.ibis := rfl
@[simp] theorem getTile_barSet (s : Chip) (k v : Nat) (t' : Nat) : getTile (barSet s k v) t' = getTile s t' := rfl
@[simp] theorem getStrand_barSet (s : Chip) (k v : Nat) (t' i' : Nat) : getStrand (barSet s k v) t' i' = getStrand s t' i' := rfl
@[simp] theorem getPart_barSet (s : Chip) (k v : Nat) (p' : Nat) : getPart (barSet s k v) p' = getPart s p' := rfl
@[simp] theorem getHasp_barSet (s : Chip) (k v : Nat) (f' : Nat) : getHasp (barSet s k v) f' = getHasp s f' := rfl
@[simp] theorem getPort_barSet (s : Chip) (k v : Nat) (p' : Nat) : getPort (barSet s k v) p' = getPort s p' := rfl

-- ctrAdd
@[simp] theorem ctrAdd_freeCtr (s : Chip) (p i n : Nat) : (ctrAdd s p i n).freeCtr = s.freeCtr := rfl
@[simp] theorem ctrAdd_bar (s : Chip) (p i n : Nat) : (ctrAdd s p i n).bar = s.bar := rfl
@[simp] theorem ctrAdd_latch (s : Chip) (p i n : Nat) : (ctrAdd s p i n).latch = s.latch := rfl
@[simp] theorem ctrAdd_hold (s : Chip) (p i n : Nat) : (ctrAdd s p i n).hold = s.hold := rfl
@[simp] theorem ctrAdd_resp (s : Chip) (p i n : Nat) : (ctrAdd s p i n).resp = s.resp := rfl
@[simp] theorem ctrAdd_ctrClosed (s : Chip) (p i n : Nat) : (ctrAdd s p i n).ctrClosed = s.ctrClosed := rfl
@[simp] theorem ctrAdd_cycle (s : Chip) (p i n : Nat) : (ctrAdd s p i n).cycle = s.cycle := rfl
@[simp] theorem ctrAdd_tiles (s : Chip) (p i n : Nat) : (ctrAdd s p i n).tiles = s.tiles := rfl
@[simp] theorem ctrAdd_strands (s : Chip) (p i n : Nat) : (ctrAdd s p i n).strands = s.strands := rfl
@[simp] theorem ctrAdd_flights (s : Chip) (p i n : Nat) : (ctrAdd s p i n).flights = s.flights := rfl
@[simp] theorem ctrAdd_taps (s : Chip) (p i n : Nat) : (ctrAdd s p i n).taps = s.taps := rfl
@[simp] theorem ctrAdd_nextId (s : Chip) (p i n : Nat) : (ctrAdd s p i n).nextId = s.nextId := rfl
@[simp] theorem ctrAdd_parts (s : Chip) (p i n : Nat) : (ctrAdd s p i n).parts = s.parts := rfl
@[simp] theorem ctrAdd_hasp (s : Chip) (p i n : Nat) : (ctrAdd s p i n).hasp = s.hasp := rfl
@[simp] theorem ctrAdd_images (s : Chip) (p i n : Nat) : (ctrAdd s p i n).images = s.images := rfl
@[simp] theorem ctrAdd_mem (s : Chip) (p i n : Nat) : (ctrAdd s p i n).mem = s.mem := rfl
@[simp] theorem ctrAdd_fab (s : Chip) (p i n : Nat) : (ctrAdd s p i n).fab = s.fab := rfl
@[simp] theorem ctrAdd_qm (s : Chip) (p i n : Nat) : (ctrAdd s p i n).qm = s.qm := rfl
@[simp] theorem ctrAdd_radio (s : Chip) (p i n : Nat) : (ctrAdd s p i n).radio = s.radio := rfl
@[simp] theorem ctrAdd_code (s : Chip) (p i n : Nat) : (ctrAdd s p i n).code = s.code := rfl
@[simp] theorem ctrAdd_time (s : Chip) (p i n : Nat) : (ctrAdd s p i n).time = s.time := rfl
@[simp] theorem ctrAdd_ports (s : Chip) (p i n : Nat) : (ctrAdd s p i n).ports = s.ports := rfl
@[simp] theorem ctrAdd_mesh (s : Chip) (p i n : Nat) : (ctrAdd s p i n).mesh = s.mesh := rfl
@[simp] theorem ctrAdd_boot (s : Chip) (p i n : Nat) : (ctrAdd s p i n).boot = s.boot := rfl
@[simp] theorem ctrAdd_ras (s : Chip) (p i n : Nat) : (ctrAdd s p i n).ras = s.ras := rfl
@[simp] theorem ctrAdd_obs (s : Chip) (p i n : Nat) : (ctrAdd s p i n).obs = s.obs := rfl
@[simp] theorem ctrAdd_irqs (s : Chip) (p i n : Nat) : (ctrAdd s p i n).irqs = s.irqs := rfl
@[simp] theorem ctrAdd_ibis (s : Chip) (p i n : Nat) : (ctrAdd s p i n).ibis = s.ibis := rfl
@[simp] theorem barGet_ctrAdd (s : Chip) (p i n : Nat) (a' : Nat) : barGet (ctrAdd s p i n) a' = barGet s a' := rfl
@[simp] theorem getTile_ctrAdd (s : Chip) (p i n : Nat) (t' : Nat) : getTile (ctrAdd s p i n) t' = getTile s t' := rfl
@[simp] theorem getStrand_ctrAdd (s : Chip) (p i n : Nat) (t' i' : Nat) : getStrand (ctrAdd s p i n) t' i' = getStrand s t' i' := rfl
@[simp] theorem getPart_ctrAdd (s : Chip) (p i n : Nat) (p' : Nat) : getPart (ctrAdd s p i n) p' = getPart s p' := rfl
@[simp] theorem getHasp_ctrAdd (s : Chip) (p i n : Nat) (f' : Nat) : getHasp (ctrAdd s p i n) f' = getHasp s f' := rfl
@[simp] theorem getPort_ctrAdd (s : Chip) (p i n : Nat) (p' : Nat) : getPort (ctrAdd s p i n) p' = getPort s p' := rfl

-- raiseIrq
@[simp] theorem raiseIrq_freeCtr (s : Chip) (fn v : Nat) : (raiseIrq s fn v).freeCtr = s.freeCtr := rfl
@[simp] theorem raiseIrq_bar (s : Chip) (fn v : Nat) : (raiseIrq s fn v).bar = s.bar := rfl
@[simp] theorem raiseIrq_latch (s : Chip) (fn v : Nat) : (raiseIrq s fn v).latch = s.latch := rfl
@[simp] theorem raiseIrq_hold (s : Chip) (fn v : Nat) : (raiseIrq s fn v).hold = s.hold := rfl
@[simp] theorem raiseIrq_resp (s : Chip) (fn v : Nat) : (raiseIrq s fn v).resp = s.resp := rfl
@[simp] theorem raiseIrq_ctrLive (s : Chip) (fn v : Nat) : (raiseIrq s fn v).ctrLive = s.ctrLive := rfl
@[simp] theorem raiseIrq_ctrClosed (s : Chip) (fn v : Nat) : (raiseIrq s fn v).ctrClosed = s.ctrClosed := rfl
@[simp] theorem raiseIrq_cycle (s : Chip) (fn v : Nat) : (raiseIrq s fn v).cycle = s.cycle := rfl
@[simp] theorem raiseIrq_tiles (s : Chip) (fn v : Nat) : (raiseIrq s fn v).tiles = s.tiles := rfl
@[simp] theorem raiseIrq_strands (s : Chip) (fn v : Nat) : (raiseIrq s fn v).strands = s.strands := rfl
@[simp] theorem raiseIrq_flights (s : Chip) (fn v : Nat) : (raiseIrq s fn v).flights = s.flights := rfl
@[simp] theorem raiseIrq_taps (s : Chip) (fn v : Nat) : (raiseIrq s fn v).taps = s.taps := rfl
@[simp] theorem raiseIrq_nextId (s : Chip) (fn v : Nat) : (raiseIrq s fn v).nextId = s.nextId := rfl
@[simp] theorem raiseIrq_parts (s : Chip) (fn v : Nat) : (raiseIrq s fn v).parts = s.parts := rfl
@[simp] theorem raiseIrq_hasp (s : Chip) (fn v : Nat) : (raiseIrq s fn v).hasp = s.hasp := rfl
@[simp] theorem raiseIrq_images (s : Chip) (fn v : Nat) : (raiseIrq s fn v).images = s.images := rfl
@[simp] theorem raiseIrq_mem (s : Chip) (fn v : Nat) : (raiseIrq s fn v).mem = s.mem := rfl
@[simp] theorem raiseIrq_fab (s : Chip) (fn v : Nat) : (raiseIrq s fn v).fab = s.fab := rfl
@[simp] theorem raiseIrq_qm (s : Chip) (fn v : Nat) : (raiseIrq s fn v).qm = s.qm := rfl
@[simp] theorem raiseIrq_radio (s : Chip) (fn v : Nat) : (raiseIrq s fn v).radio = s.radio := rfl
@[simp] theorem raiseIrq_code (s : Chip) (fn v : Nat) : (raiseIrq s fn v).code = s.code := rfl
@[simp] theorem raiseIrq_time (s : Chip) (fn v : Nat) : (raiseIrq s fn v).time = s.time := rfl
@[simp] theorem raiseIrq_ports (s : Chip) (fn v : Nat) : (raiseIrq s fn v).ports = s.ports := rfl
@[simp] theorem raiseIrq_mesh (s : Chip) (fn v : Nat) : (raiseIrq s fn v).mesh = s.mesh := rfl
@[simp] theorem raiseIrq_boot (s : Chip) (fn v : Nat) : (raiseIrq s fn v).boot = s.boot := rfl
@[simp] theorem raiseIrq_ras (s : Chip) (fn v : Nat) : (raiseIrq s fn v).ras = s.ras := rfl
@[simp] theorem raiseIrq_obs (s : Chip) (fn v : Nat) : (raiseIrq s fn v).obs = s.obs := rfl
@[simp] theorem raiseIrq_irqs (s : Chip) (fn v : Nat) : (raiseIrq s fn v).irqs = s.irqs ++ [(fn, v)] := rfl
@[simp] theorem raiseIrq_ibis (s : Chip) (fn v : Nat) : (raiseIrq s fn v).ibis = s.ibis := rfl
@[simp] theorem barGet_raiseIrq (s : Chip) (fn v : Nat) (a' : Nat) : barGet (raiseIrq s fn v) a' = barGet s a' := rfl
@[simp] theorem getTile_raiseIrq (s : Chip) (fn v : Nat) (t' : Nat) : getTile (raiseIrq s fn v) t' = getTile s t' := rfl
@[simp] theorem getStrand_raiseIrq (s : Chip) (fn v : Nat) (t' i' : Nat) : getStrand (raiseIrq s fn v) t' i' = getStrand s t' i' := rfl
@[simp] theorem getPart_raiseIrq (s : Chip) (fn v : Nat) (p' : Nat) : getPart (raiseIrq s fn v) p' = getPart s p' := rfl
@[simp] theorem getHasp_raiseIrq (s : Chip) (fn v : Nat) (f' : Nat) : getHasp (raiseIrq s fn v) f' = getHasp s f' := rfl
@[simp] theorem getPort_raiseIrq (s : Chip) (fn v : Nat) (p' : Nat) : getPort (raiseIrq s fn v) p' = getPort s p' := rfl

-- setTile
@[simp] theorem setTile_freeCtr (s : Chip) (t : Nat) (x : Tile) : (setTile s t x).freeCtr = s.freeCtr := rfl
@[simp] theorem setTile_bar (s : Chip) (t : Nat) (x : Tile) : (setTile s t x).bar = s.bar := rfl
@[simp] theorem setTile_latch (s : Chip) (t : Nat) (x : Tile) : (setTile s t x).latch = s.latch := rfl
@[simp] theorem setTile_hold (s : Chip) (t : Nat) (x : Tile) : (setTile s t x).hold = s.hold := rfl
@[simp] theorem setTile_resp (s : Chip) (t : Nat) (x : Tile) : (setTile s t x).resp = s.resp := rfl
@[simp] theorem setTile_ctrLive (s : Chip) (t : Nat) (x : Tile) : (setTile s t x).ctrLive = s.ctrLive := rfl
@[simp] theorem setTile_ctrClosed (s : Chip) (t : Nat) (x : Tile) : (setTile s t x).ctrClosed = s.ctrClosed := rfl
@[simp] theorem setTile_cycle (s : Chip) (t : Nat) (x : Tile) : (setTile s t x).cycle = s.cycle := rfl
@[simp] theorem setTile_tiles (s : Chip) (t : Nat) (x : Tile) : (setTile s t x).tiles = tset (fun _ => {}) t x s.tiles := rfl
@[simp] theorem setTile_strands (s : Chip) (t : Nat) (x : Tile) : (setTile s t x).strands = s.strands := rfl
@[simp] theorem setTile_flights (s : Chip) (t : Nat) (x : Tile) : (setTile s t x).flights = s.flights := rfl
@[simp] theorem setTile_taps (s : Chip) (t : Nat) (x : Tile) : (setTile s t x).taps = s.taps := rfl
@[simp] theorem setTile_nextId (s : Chip) (t : Nat) (x : Tile) : (setTile s t x).nextId = s.nextId := rfl
@[simp] theorem setTile_parts (s : Chip) (t : Nat) (x : Tile) : (setTile s t x).parts = s.parts := rfl
@[simp] theorem setTile_hasp (s : Chip) (t : Nat) (x : Tile) : (setTile s t x).hasp = s.hasp := rfl
@[simp] theorem setTile_images (s : Chip) (t : Nat) (x : Tile) : (setTile s t x).images = s.images := rfl
@[simp] theorem setTile_mem (s : Chip) (t : Nat) (x : Tile) : (setTile s t x).mem = s.mem := rfl
@[simp] theorem setTile_fab (s : Chip) (t : Nat) (x : Tile) : (setTile s t x).fab = s.fab := rfl
@[simp] theorem setTile_qm (s : Chip) (t : Nat) (x : Tile) : (setTile s t x).qm = s.qm := rfl
@[simp] theorem setTile_radio (s : Chip) (t : Nat) (x : Tile) : (setTile s t x).radio = s.radio := rfl
@[simp] theorem setTile_code (s : Chip) (t : Nat) (x : Tile) : (setTile s t x).code = s.code := rfl
@[simp] theorem setTile_time (s : Chip) (t : Nat) (x : Tile) : (setTile s t x).time = s.time := rfl
@[simp] theorem setTile_ports (s : Chip) (t : Nat) (x : Tile) : (setTile s t x).ports = s.ports := rfl
@[simp] theorem setTile_mesh (s : Chip) (t : Nat) (x : Tile) : (setTile s t x).mesh = s.mesh := rfl
@[simp] theorem setTile_boot (s : Chip) (t : Nat) (x : Tile) : (setTile s t x).boot = s.boot := rfl
@[simp] theorem setTile_ras (s : Chip) (t : Nat) (x : Tile) : (setTile s t x).ras = s.ras := rfl
@[simp] theorem setTile_obs (s : Chip) (t : Nat) (x : Tile) : (setTile s t x).obs = s.obs := rfl
@[simp] theorem setTile_irqs (s : Chip) (t : Nat) (x : Tile) : (setTile s t x).irqs = s.irqs := rfl
@[simp] theorem setTile_ibis (s : Chip) (t : Nat) (x : Tile) : (setTile s t x).ibis = s.ibis := rfl
@[simp] theorem barGet_setTile (s : Chip) (t : Nat) (x : Tile) (a' : Nat) : barGet (setTile s t x) a' = barGet s a' := rfl
@[simp] theorem getStrand_setTile (s : Chip) (t : Nat) (x : Tile) (t' i' : Nat) : getStrand (setTile s t x) t' i' = getStrand s t' i' := rfl
@[simp] theorem getPart_setTile (s : Chip) (t : Nat) (x : Tile) (p' : Nat) : getPart (setTile s t x) p' = getPart s p' := rfl
@[simp] theorem getHasp_setTile (s : Chip) (t : Nat) (x : Tile) (f' : Nat) : getHasp (setTile s t x) f' = getHasp s f' := rfl
@[simp] theorem getPort_setTile (s : Chip) (t : Nat) (x : Tile) (p' : Nat) : getPort (setTile s t x) p' = getPort s p' := rfl

-- setStrand
@[simp] theorem setStrand_freeCtr (s : Chip) (t i : Nat) (x : Strand) : (setStrand s t i x).freeCtr = s.freeCtr := rfl
@[simp] theorem setStrand_bar (s : Chip) (t i : Nat) (x : Strand) : (setStrand s t i x).bar = s.bar := rfl
@[simp] theorem setStrand_latch (s : Chip) (t i : Nat) (x : Strand) : (setStrand s t i x).latch = s.latch := rfl
@[simp] theorem setStrand_hold (s : Chip) (t i : Nat) (x : Strand) : (setStrand s t i x).hold = s.hold := rfl
@[simp] theorem setStrand_resp (s : Chip) (t i : Nat) (x : Strand) : (setStrand s t i x).resp = s.resp := rfl
@[simp] theorem setStrand_ctrLive (s : Chip) (t i : Nat) (x : Strand) : (setStrand s t i x).ctrLive = s.ctrLive := rfl
@[simp] theorem setStrand_ctrClosed (s : Chip) (t i : Nat) (x : Strand) : (setStrand s t i x).ctrClosed = s.ctrClosed := rfl
@[simp] theorem setStrand_cycle (s : Chip) (t i : Nat) (x : Strand) : (setStrand s t i x).cycle = s.cycle := rfl
@[simp] theorem setStrand_tiles (s : Chip) (t i : Nat) (x : Strand) : (setStrand s t i x).tiles = s.tiles := rfl
@[simp] theorem setStrand_strands (s : Chip) (t i : Nat) (x : Strand) : (setStrand s t i x).strands = tset (fun _ => {}) (skey t i) x s.strands := rfl
@[simp] theorem setStrand_flights (s : Chip) (t i : Nat) (x : Strand) : (setStrand s t i x).flights = s.flights := rfl
@[simp] theorem setStrand_taps (s : Chip) (t i : Nat) (x : Strand) : (setStrand s t i x).taps = s.taps := rfl
@[simp] theorem setStrand_nextId (s : Chip) (t i : Nat) (x : Strand) : (setStrand s t i x).nextId = s.nextId := rfl
@[simp] theorem setStrand_parts (s : Chip) (t i : Nat) (x : Strand) : (setStrand s t i x).parts = s.parts := rfl
@[simp] theorem setStrand_hasp (s : Chip) (t i : Nat) (x : Strand) : (setStrand s t i x).hasp = s.hasp := rfl
@[simp] theorem setStrand_images (s : Chip) (t i : Nat) (x : Strand) : (setStrand s t i x).images = s.images := rfl
@[simp] theorem setStrand_mem (s : Chip) (t i : Nat) (x : Strand) : (setStrand s t i x).mem = s.mem := rfl
@[simp] theorem setStrand_fab (s : Chip) (t i : Nat) (x : Strand) : (setStrand s t i x).fab = s.fab := rfl
@[simp] theorem setStrand_qm (s : Chip) (t i : Nat) (x : Strand) : (setStrand s t i x).qm = s.qm := rfl
@[simp] theorem setStrand_radio (s : Chip) (t i : Nat) (x : Strand) : (setStrand s t i x).radio = s.radio := rfl
@[simp] theorem setStrand_code (s : Chip) (t i : Nat) (x : Strand) : (setStrand s t i x).code = s.code := rfl
@[simp] theorem setStrand_time (s : Chip) (t i : Nat) (x : Strand) : (setStrand s t i x).time = s.time := rfl
@[simp] theorem setStrand_ports (s : Chip) (t i : Nat) (x : Strand) : (setStrand s t i x).ports = s.ports := rfl
@[simp] theorem setStrand_mesh (s : Chip) (t i : Nat) (x : Strand) : (setStrand s t i x).mesh = s.mesh := rfl
@[simp] theorem setStrand_boot (s : Chip) (t i : Nat) (x : Strand) : (setStrand s t i x).boot = s.boot := rfl
@[simp] theorem setStrand_ras (s : Chip) (t i : Nat) (x : Strand) : (setStrand s t i x).ras = s.ras := rfl
@[simp] theorem setStrand_obs (s : Chip) (t i : Nat) (x : Strand) : (setStrand s t i x).obs = s.obs := rfl
@[simp] theorem setStrand_irqs (s : Chip) (t i : Nat) (x : Strand) : (setStrand s t i x).irqs = s.irqs := rfl
@[simp] theorem setStrand_ibis (s : Chip) (t i : Nat) (x : Strand) : (setStrand s t i x).ibis = s.ibis := rfl
@[simp] theorem barGet_setStrand (s : Chip) (t i : Nat) (x : Strand) (a' : Nat) : barGet (setStrand s t i x) a' = barGet s a' := rfl
@[simp] theorem getTile_setStrand (s : Chip) (t i : Nat) (x : Strand) (t' : Nat) : getTile (setStrand s t i x) t' = getTile s t' := rfl
@[simp] theorem getPart_setStrand (s : Chip) (t i : Nat) (x : Strand) (p' : Nat) : getPart (setStrand s t i x) p' = getPart s p' := rfl
@[simp] theorem getHasp_setStrand (s : Chip) (t i : Nat) (x : Strand) (f' : Nat) : getHasp (setStrand s t i x) f' = getHasp s f' := rfl
@[simp] theorem getPort_setStrand (s : Chip) (t i : Nat) (x : Strand) (p' : Nat) : getPort (setStrand s t i x) p' = getPort s p' := rfl

-- setPart
@[simp] theorem setPart_freeCtr (s : Chip) (p : Nat) (x : Part) : (setPart s p x).freeCtr = s.freeCtr := rfl
@[simp] theorem setPart_bar (s : Chip) (p : Nat) (x : Part) : (setPart s p x).bar = s.bar := rfl
@[simp] theorem setPart_latch (s : Chip) (p : Nat) (x : Part) : (setPart s p x).latch = s.latch := rfl
@[simp] theorem setPart_hold (s : Chip) (p : Nat) (x : Part) : (setPart s p x).hold = s.hold := rfl
@[simp] theorem setPart_resp (s : Chip) (p : Nat) (x : Part) : (setPart s p x).resp = s.resp := rfl
@[simp] theorem setPart_ctrLive (s : Chip) (p : Nat) (x : Part) : (setPart s p x).ctrLive = s.ctrLive := rfl
@[simp] theorem setPart_ctrClosed (s : Chip) (p : Nat) (x : Part) : (setPart s p x).ctrClosed = s.ctrClosed := rfl
@[simp] theorem setPart_cycle (s : Chip) (p : Nat) (x : Part) : (setPart s p x).cycle = s.cycle := rfl
@[simp] theorem setPart_tiles (s : Chip) (p : Nat) (x : Part) : (setPart s p x).tiles = s.tiles := rfl
@[simp] theorem setPart_strands (s : Chip) (p : Nat) (x : Part) : (setPart s p x).strands = s.strands := rfl
@[simp] theorem setPart_flights (s : Chip) (p : Nat) (x : Part) : (setPart s p x).flights = s.flights := rfl
@[simp] theorem setPart_taps (s : Chip) (p : Nat) (x : Part) : (setPart s p x).taps = s.taps := rfl
@[simp] theorem setPart_nextId (s : Chip) (p : Nat) (x : Part) : (setPart s p x).nextId = s.nextId := rfl
@[simp] theorem setPart_parts (s : Chip) (p : Nat) (x : Part) : (setPart s p x).parts = tset (fun _ => {}) p x s.parts := rfl
@[simp] theorem setPart_hasp (s : Chip) (p : Nat) (x : Part) : (setPart s p x).hasp = s.hasp := rfl
@[simp] theorem setPart_images (s : Chip) (p : Nat) (x : Part) : (setPart s p x).images = s.images := rfl
@[simp] theorem setPart_mem (s : Chip) (p : Nat) (x : Part) : (setPart s p x).mem = s.mem := rfl
@[simp] theorem setPart_fab (s : Chip) (p : Nat) (x : Part) : (setPart s p x).fab = s.fab := rfl
@[simp] theorem setPart_qm (s : Chip) (p : Nat) (x : Part) : (setPart s p x).qm = s.qm := rfl
@[simp] theorem setPart_radio (s : Chip) (p : Nat) (x : Part) : (setPart s p x).radio = s.radio := rfl
@[simp] theorem setPart_code (s : Chip) (p : Nat) (x : Part) : (setPart s p x).code = s.code := rfl
@[simp] theorem setPart_time (s : Chip) (p : Nat) (x : Part) : (setPart s p x).time = s.time := rfl
@[simp] theorem setPart_ports (s : Chip) (p : Nat) (x : Part) : (setPart s p x).ports = s.ports := rfl
@[simp] theorem setPart_mesh (s : Chip) (p : Nat) (x : Part) : (setPart s p x).mesh = s.mesh := rfl
@[simp] theorem setPart_boot (s : Chip) (p : Nat) (x : Part) : (setPart s p x).boot = s.boot := rfl
@[simp] theorem setPart_ras (s : Chip) (p : Nat) (x : Part) : (setPart s p x).ras = s.ras := rfl
@[simp] theorem setPart_obs (s : Chip) (p : Nat) (x : Part) : (setPart s p x).obs = s.obs := rfl
@[simp] theorem setPart_irqs (s : Chip) (p : Nat) (x : Part) : (setPart s p x).irqs = s.irqs := rfl
@[simp] theorem setPart_ibis (s : Chip) (p : Nat) (x : Part) : (setPart s p x).ibis = s.ibis := rfl
@[simp] theorem barGet_setPart (s : Chip) (p : Nat) (x : Part) (a' : Nat) : barGet (setPart s p x) a' = barGet s a' := rfl
@[simp] theorem getTile_setPart (s : Chip) (p : Nat) (x : Part) (t' : Nat) : getTile (setPart s p x) t' = getTile s t' := rfl
@[simp] theorem getStrand_setPart (s : Chip) (p : Nat) (x : Part) (t' i' : Nat) : getStrand (setPart s p x) t' i' = getStrand s t' i' := rfl
@[simp] theorem getHasp_setPart (s : Chip) (p : Nat) (x : Part) (f' : Nat) : getHasp (setPart s p x) f' = getHasp s f' := rfl
@[simp] theorem getPort_setPart (s : Chip) (p : Nat) (x : Part) (p' : Nat) : getPort (setPart s p x) p' = getPort s p' := rfl

-- setHasp
@[simp] theorem setHasp_freeCtr (s : Chip) (f : Nat) (x : Hasp) : (setHasp s f x).freeCtr = s.freeCtr := rfl
@[simp] theorem setHasp_bar (s : Chip) (f : Nat) (x : Hasp) : (setHasp s f x).bar = s.bar := rfl
@[simp] theorem setHasp_latch (s : Chip) (f : Nat) (x : Hasp) : (setHasp s f x).latch = s.latch := rfl
@[simp] theorem setHasp_hold (s : Chip) (f : Nat) (x : Hasp) : (setHasp s f x).hold = s.hold := rfl
@[simp] theorem setHasp_resp (s : Chip) (f : Nat) (x : Hasp) : (setHasp s f x).resp = s.resp := rfl
@[simp] theorem setHasp_ctrLive (s : Chip) (f : Nat) (x : Hasp) : (setHasp s f x).ctrLive = s.ctrLive := rfl
@[simp] theorem setHasp_ctrClosed (s : Chip) (f : Nat) (x : Hasp) : (setHasp s f x).ctrClosed = s.ctrClosed := rfl
@[simp] theorem setHasp_cycle (s : Chip) (f : Nat) (x : Hasp) : (setHasp s f x).cycle = s.cycle := rfl
@[simp] theorem setHasp_tiles (s : Chip) (f : Nat) (x : Hasp) : (setHasp s f x).tiles = s.tiles := rfl
@[simp] theorem setHasp_strands (s : Chip) (f : Nat) (x : Hasp) : (setHasp s f x).strands = s.strands := rfl
@[simp] theorem setHasp_flights (s : Chip) (f : Nat) (x : Hasp) : (setHasp s f x).flights = s.flights := rfl
@[simp] theorem setHasp_taps (s : Chip) (f : Nat) (x : Hasp) : (setHasp s f x).taps = s.taps := rfl
@[simp] theorem setHasp_nextId (s : Chip) (f : Nat) (x : Hasp) : (setHasp s f x).nextId = s.nextId := rfl
@[simp] theorem setHasp_parts (s : Chip) (f : Nat) (x : Hasp) : (setHasp s f x).parts = s.parts := rfl
@[simp] theorem setHasp_hasp (s : Chip) (f : Nat) (x : Hasp) : (setHasp s f x).hasp = tset (fun _ => {}) f x s.hasp := rfl
@[simp] theorem setHasp_images (s : Chip) (f : Nat) (x : Hasp) : (setHasp s f x).images = s.images := rfl
@[simp] theorem setHasp_mem (s : Chip) (f : Nat) (x : Hasp) : (setHasp s f x).mem = s.mem := rfl
@[simp] theorem setHasp_fab (s : Chip) (f : Nat) (x : Hasp) : (setHasp s f x).fab = s.fab := rfl
@[simp] theorem setHasp_qm (s : Chip) (f : Nat) (x : Hasp) : (setHasp s f x).qm = s.qm := rfl
@[simp] theorem setHasp_radio (s : Chip) (f : Nat) (x : Hasp) : (setHasp s f x).radio = s.radio := rfl
@[simp] theorem setHasp_code (s : Chip) (f : Nat) (x : Hasp) : (setHasp s f x).code = s.code := rfl
@[simp] theorem setHasp_time (s : Chip) (f : Nat) (x : Hasp) : (setHasp s f x).time = s.time := rfl
@[simp] theorem setHasp_ports (s : Chip) (f : Nat) (x : Hasp) : (setHasp s f x).ports = s.ports := rfl
@[simp] theorem setHasp_mesh (s : Chip) (f : Nat) (x : Hasp) : (setHasp s f x).mesh = s.mesh := rfl
@[simp] theorem setHasp_boot (s : Chip) (f : Nat) (x : Hasp) : (setHasp s f x).boot = s.boot := rfl
@[simp] theorem setHasp_ras (s : Chip) (f : Nat) (x : Hasp) : (setHasp s f x).ras = s.ras := rfl
@[simp] theorem setHasp_obs (s : Chip) (f : Nat) (x : Hasp) : (setHasp s f x).obs = s.obs := rfl
@[simp] theorem setHasp_irqs (s : Chip) (f : Nat) (x : Hasp) : (setHasp s f x).irqs = s.irqs := rfl
@[simp] theorem setHasp_ibis (s : Chip) (f : Nat) (x : Hasp) : (setHasp s f x).ibis = s.ibis := rfl
@[simp] theorem barGet_setHasp (s : Chip) (f : Nat) (x : Hasp) (a' : Nat) : barGet (setHasp s f x) a' = barGet s a' := rfl
@[simp] theorem getTile_setHasp (s : Chip) (f : Nat) (x : Hasp) (t' : Nat) : getTile (setHasp s f x) t' = getTile s t' := rfl
@[simp] theorem getStrand_setHasp (s : Chip) (f : Nat) (x : Hasp) (t' i' : Nat) : getStrand (setHasp s f x) t' i' = getStrand s t' i' := rfl
@[simp] theorem getPart_setHasp (s : Chip) (f : Nat) (x : Hasp) (p' : Nat) : getPart (setHasp s f x) p' = getPart s p' := rfl
@[simp] theorem getPort_setHasp (s : Chip) (f : Nat) (x : Hasp) (p' : Nat) : getPort (setHasp s f x) p' = getPort s p' := rfl

-- setRing
@[simp] theorem setRing_freeCtr (s : Chip) (k : Nat) (x : CodeRing) : (setRing s k x).freeCtr = s.freeCtr := rfl
@[simp] theorem setRing_bar (s : Chip) (k : Nat) (x : CodeRing) : (setRing s k x).bar = s.bar := rfl
@[simp] theorem setRing_latch (s : Chip) (k : Nat) (x : CodeRing) : (setRing s k x).latch = s.latch := rfl
@[simp] theorem setRing_hold (s : Chip) (k : Nat) (x : CodeRing) : (setRing s k x).hold = s.hold := rfl
@[simp] theorem setRing_resp (s : Chip) (k : Nat) (x : CodeRing) : (setRing s k x).resp = s.resp := rfl
@[simp] theorem setRing_ctrLive (s : Chip) (k : Nat) (x : CodeRing) : (setRing s k x).ctrLive = s.ctrLive := rfl
@[simp] theorem setRing_ctrClosed (s : Chip) (k : Nat) (x : CodeRing) : (setRing s k x).ctrClosed = s.ctrClosed := rfl
@[simp] theorem setRing_cycle (s : Chip) (k : Nat) (x : CodeRing) : (setRing s k x).cycle = s.cycle := rfl
@[simp] theorem setRing_tiles (s : Chip) (k : Nat) (x : CodeRing) : (setRing s k x).tiles = s.tiles := rfl
@[simp] theorem setRing_strands (s : Chip) (k : Nat) (x : CodeRing) : (setRing s k x).strands = s.strands := rfl
@[simp] theorem setRing_flights (s : Chip) (k : Nat) (x : CodeRing) : (setRing s k x).flights = s.flights := rfl
@[simp] theorem setRing_taps (s : Chip) (k : Nat) (x : CodeRing) : (setRing s k x).taps = s.taps := rfl
@[simp] theorem setRing_nextId (s : Chip) (k : Nat) (x : CodeRing) : (setRing s k x).nextId = s.nextId := rfl
@[simp] theorem setRing_parts (s : Chip) (k : Nat) (x : CodeRing) : (setRing s k x).parts = s.parts := rfl
@[simp] theorem setRing_hasp (s : Chip) (k : Nat) (x : CodeRing) : (setRing s k x).hasp = s.hasp := rfl
@[simp] theorem setRing_images (s : Chip) (k : Nat) (x : CodeRing) : (setRing s k x).images = s.images := rfl
@[simp] theorem setRing_mem (s : Chip) (k : Nat) (x : CodeRing) : (setRing s k x).mem = s.mem := rfl
@[simp] theorem setRing_fab (s : Chip) (k : Nat) (x : CodeRing) : (setRing s k x).fab = s.fab := rfl
@[simp] theorem setRing_qm (s : Chip) (k : Nat) (x : CodeRing) : (setRing s k x).qm = s.qm := rfl
@[simp] theorem setRing_radio (s : Chip) (k : Nat) (x : CodeRing) : (setRing s k x).radio = s.radio := rfl
@[simp] theorem setRing_code (s : Chip) (k : Nat) (x : CodeRing) : (setRing s k x).code = tset (fun _ => {}) k x s.code := rfl
@[simp] theorem setRing_time (s : Chip) (k : Nat) (x : CodeRing) : (setRing s k x).time = s.time := rfl
@[simp] theorem setRing_ports (s : Chip) (k : Nat) (x : CodeRing) : (setRing s k x).ports = s.ports := rfl
@[simp] theorem setRing_mesh (s : Chip) (k : Nat) (x : CodeRing) : (setRing s k x).mesh = s.mesh := rfl
@[simp] theorem setRing_boot (s : Chip) (k : Nat) (x : CodeRing) : (setRing s k x).boot = s.boot := rfl
@[simp] theorem setRing_ras (s : Chip) (k : Nat) (x : CodeRing) : (setRing s k x).ras = s.ras := rfl
@[simp] theorem setRing_obs (s : Chip) (k : Nat) (x : CodeRing) : (setRing s k x).obs = s.obs := rfl
@[simp] theorem setRing_irqs (s : Chip) (k : Nat) (x : CodeRing) : (setRing s k x).irqs = s.irqs := rfl
@[simp] theorem setRing_ibis (s : Chip) (k : Nat) (x : CodeRing) : (setRing s k x).ibis = s.ibis := rfl
@[simp] theorem barGet_setRing (s : Chip) (k : Nat) (x : CodeRing) (a' : Nat) : barGet (setRing s k x) a' = barGet s a' := rfl
@[simp] theorem getTile_setRing (s : Chip) (k : Nat) (x : CodeRing) (t' : Nat) : getTile (setRing s k x) t' = getTile s t' := rfl
@[simp] theorem getStrand_setRing (s : Chip) (k : Nat) (x : CodeRing) (t' i' : Nat) : getStrand (setRing s k x) t' i' = getStrand s t' i' := rfl
@[simp] theorem getPart_setRing (s : Chip) (k : Nat) (x : CodeRing) (p' : Nat) : getPart (setRing s k x) p' = getPart s p' := rfl
@[simp] theorem getHasp_setRing (s : Chip) (k : Nat) (x : CodeRing) (f' : Nat) : getHasp (setRing s k x) f' = getHasp s f' := rfl
@[simp] theorem getPort_setRing (s : Chip) (k : Nat) (x : CodeRing) (p' : Nat) : getPort (setRing s k x) p' = getPort s p' := rfl

-- setPort
@[simp] theorem setPort_freeCtr (s : Chip) (p : Nat) (x : FhPort) : (setPort s p x).freeCtr = s.freeCtr := rfl
@[simp] theorem setPort_bar (s : Chip) (p : Nat) (x : FhPort) : (setPort s p x).bar = s.bar := rfl
@[simp] theorem setPort_latch (s : Chip) (p : Nat) (x : FhPort) : (setPort s p x).latch = s.latch := rfl
@[simp] theorem setPort_hold (s : Chip) (p : Nat) (x : FhPort) : (setPort s p x).hold = s.hold := rfl
@[simp] theorem setPort_resp (s : Chip) (p : Nat) (x : FhPort) : (setPort s p x).resp = s.resp := rfl
@[simp] theorem setPort_ctrLive (s : Chip) (p : Nat) (x : FhPort) : (setPort s p x).ctrLive = s.ctrLive := rfl
@[simp] theorem setPort_ctrClosed (s : Chip) (p : Nat) (x : FhPort) : (setPort s p x).ctrClosed = s.ctrClosed := rfl
@[simp] theorem setPort_cycle (s : Chip) (p : Nat) (x : FhPort) : (setPort s p x).cycle = s.cycle := rfl
@[simp] theorem setPort_tiles (s : Chip) (p : Nat) (x : FhPort) : (setPort s p x).tiles = s.tiles := rfl
@[simp] theorem setPort_strands (s : Chip) (p : Nat) (x : FhPort) : (setPort s p x).strands = s.strands := rfl
@[simp] theorem setPort_flights (s : Chip) (p : Nat) (x : FhPort) : (setPort s p x).flights = s.flights := rfl
@[simp] theorem setPort_taps (s : Chip) (p : Nat) (x : FhPort) : (setPort s p x).taps = s.taps := rfl
@[simp] theorem setPort_nextId (s : Chip) (p : Nat) (x : FhPort) : (setPort s p x).nextId = s.nextId := rfl
@[simp] theorem setPort_parts (s : Chip) (p : Nat) (x : FhPort) : (setPort s p x).parts = s.parts := rfl
@[simp] theorem setPort_hasp (s : Chip) (p : Nat) (x : FhPort) : (setPort s p x).hasp = s.hasp := rfl
@[simp] theorem setPort_images (s : Chip) (p : Nat) (x : FhPort) : (setPort s p x).images = s.images := rfl
@[simp] theorem setPort_mem (s : Chip) (p : Nat) (x : FhPort) : (setPort s p x).mem = s.mem := rfl
@[simp] theorem setPort_fab (s : Chip) (p : Nat) (x : FhPort) : (setPort s p x).fab = s.fab := rfl
@[simp] theorem setPort_qm (s : Chip) (p : Nat) (x : FhPort) : (setPort s p x).qm = s.qm := rfl
@[simp] theorem setPort_radio (s : Chip) (p : Nat) (x : FhPort) : (setPort s p x).radio = s.radio := rfl
@[simp] theorem setPort_code (s : Chip) (p : Nat) (x : FhPort) : (setPort s p x).code = s.code := rfl
@[simp] theorem setPort_time (s : Chip) (p : Nat) (x : FhPort) : (setPort s p x).time = s.time := rfl
@[simp] theorem setPort_ports (s : Chip) (p : Nat) (x : FhPort) : (setPort s p x).ports = tset (fun _ => {}) p x s.ports := rfl
@[simp] theorem setPort_mesh (s : Chip) (p : Nat) (x : FhPort) : (setPort s p x).mesh = s.mesh := rfl
@[simp] theorem setPort_boot (s : Chip) (p : Nat) (x : FhPort) : (setPort s p x).boot = s.boot := rfl
@[simp] theorem setPort_ras (s : Chip) (p : Nat) (x : FhPort) : (setPort s p x).ras = s.ras := rfl
@[simp] theorem setPort_obs (s : Chip) (p : Nat) (x : FhPort) : (setPort s p x).obs = s.obs := rfl
@[simp] theorem setPort_irqs (s : Chip) (p : Nat) (x : FhPort) : (setPort s p x).irqs = s.irqs := rfl
@[simp] theorem setPort_ibis (s : Chip) (p : Nat) (x : FhPort) : (setPort s p x).ibis = s.ibis := rfl
@[simp] theorem barGet_setPort (s : Chip) (p : Nat) (x : FhPort) (a' : Nat) : barGet (setPort s p x) a' = barGet s a' := rfl
@[simp] theorem getTile_setPort (s : Chip) (p : Nat) (x : FhPort) (t' : Nat) : getTile (setPort s p x) t' = getTile s t' := rfl
@[simp] theorem getStrand_setPort (s : Chip) (p : Nat) (x : FhPort) (t' i' : Nat) : getStrand (setPort s p x) t' i' = getStrand s t' i' := rfl
@[simp] theorem getPart_setPort (s : Chip) (p : Nat) (x : FhPort) (p' : Nat) : getPart (setPort s p x) p' = getPart s p' := rfl
@[simp] theorem getHasp_setPort (s : Chip) (p : Nat) (x : FhPort) (f' : Nat) : getHasp (setPort s p x) f' = getHasp s f' := rfl

-- fabMod
@[simp] theorem fabMod_freeCtr (s : Chip) (f : Fab → Fab) : (fabMod s f).freeCtr = s.freeCtr := rfl
@[simp] theorem fabMod_bar (s : Chip) (f : Fab → Fab) : (fabMod s f).bar = s.bar := rfl
@[simp] theorem fabMod_latch (s : Chip) (f : Fab → Fab) : (fabMod s f).latch = s.latch := rfl
@[simp] theorem fabMod_hold (s : Chip) (f : Fab → Fab) : (fabMod s f).hold = s.hold := rfl
@[simp] theorem fabMod_resp (s : Chip) (f : Fab → Fab) : (fabMod s f).resp = s.resp := rfl
@[simp] theorem fabMod_ctrLive (s : Chip) (f : Fab → Fab) : (fabMod s f).ctrLive = s.ctrLive := rfl
@[simp] theorem fabMod_ctrClosed (s : Chip) (f : Fab → Fab) : (fabMod s f).ctrClosed = s.ctrClosed := rfl
@[simp] theorem fabMod_cycle (s : Chip) (f : Fab → Fab) : (fabMod s f).cycle = s.cycle := rfl
@[simp] theorem fabMod_tiles (s : Chip) (f : Fab → Fab) : (fabMod s f).tiles = s.tiles := rfl
@[simp] theorem fabMod_strands (s : Chip) (f : Fab → Fab) : (fabMod s f).strands = s.strands := rfl
@[simp] theorem fabMod_flights (s : Chip) (f : Fab → Fab) : (fabMod s f).flights = s.flights := rfl
@[simp] theorem fabMod_taps (s : Chip) (f : Fab → Fab) : (fabMod s f).taps = s.taps := rfl
@[simp] theorem fabMod_nextId (s : Chip) (f : Fab → Fab) : (fabMod s f).nextId = s.nextId := rfl
@[simp] theorem fabMod_parts (s : Chip) (f : Fab → Fab) : (fabMod s f).parts = s.parts := rfl
@[simp] theorem fabMod_hasp (s : Chip) (f : Fab → Fab) : (fabMod s f).hasp = s.hasp := rfl
@[simp] theorem fabMod_images (s : Chip) (f : Fab → Fab) : (fabMod s f).images = s.images := rfl
@[simp] theorem fabMod_mem (s : Chip) (f : Fab → Fab) : (fabMod s f).mem = s.mem := rfl
@[simp] theorem fabMod_fab (s : Chip) (f : Fab → Fab) : (fabMod s f).fab = f s.fab := rfl
@[simp] theorem fabMod_qm (s : Chip) (f : Fab → Fab) : (fabMod s f).qm = s.qm := rfl
@[simp] theorem fabMod_radio (s : Chip) (f : Fab → Fab) : (fabMod s f).radio = s.radio := rfl
@[simp] theorem fabMod_code (s : Chip) (f : Fab → Fab) : (fabMod s f).code = s.code := rfl
@[simp] theorem fabMod_time (s : Chip) (f : Fab → Fab) : (fabMod s f).time = s.time := rfl
@[simp] theorem fabMod_ports (s : Chip) (f : Fab → Fab) : (fabMod s f).ports = s.ports := rfl
@[simp] theorem fabMod_mesh (s : Chip) (f : Fab → Fab) : (fabMod s f).mesh = s.mesh := rfl
@[simp] theorem fabMod_boot (s : Chip) (f : Fab → Fab) : (fabMod s f).boot = s.boot := rfl
@[simp] theorem fabMod_ras (s : Chip) (f : Fab → Fab) : (fabMod s f).ras = s.ras := rfl
@[simp] theorem fabMod_obs (s : Chip) (f : Fab → Fab) : (fabMod s f).obs = s.obs := rfl
@[simp] theorem fabMod_irqs (s : Chip) (f : Fab → Fab) : (fabMod s f).irqs = s.irqs := rfl
@[simp] theorem fabMod_ibis (s : Chip) (f : Fab → Fab) : (fabMod s f).ibis = s.ibis := rfl
@[simp] theorem barGet_fabMod (s : Chip) (f : Fab → Fab) (a' : Nat) : barGet (fabMod s f) a' = barGet s a' := rfl
@[simp] theorem getTile_fabMod (s : Chip) (f : Fab → Fab) (t' : Nat) : getTile (fabMod s f) t' = getTile s t' := rfl
@[simp] theorem getStrand_fabMod (s : Chip) (f : Fab → Fab) (t' i' : Nat) : getStrand (fabMod s f) t' i' = getStrand s t' i' := rfl
@[simp] theorem getPart_fabMod (s : Chip) (f : Fab → Fab) (p' : Nat) : getPart (fabMod s f) p' = getPart s p' := rfl
@[simp] theorem getHasp_fabMod (s : Chip) (f : Fab → Fab) (f' : Nat) : getHasp (fabMod s f) f' = getHasp s f' := rfl
@[simp] theorem getPort_fabMod (s : Chip) (f : Fab → Fab) (p' : Nat) : getPort (fabMod s f) p' = getPort s p' := rfl

-- rdMod
@[simp] theorem rdMod_freeCtr (s : Chip) (f : Radio → Radio) : (rdMod s f).freeCtr = s.freeCtr := rfl
@[simp] theorem rdMod_bar (s : Chip) (f : Radio → Radio) : (rdMod s f).bar = s.bar := rfl
@[simp] theorem rdMod_latch (s : Chip) (f : Radio → Radio) : (rdMod s f).latch = s.latch := rfl
@[simp] theorem rdMod_hold (s : Chip) (f : Radio → Radio) : (rdMod s f).hold = s.hold := rfl
@[simp] theorem rdMod_resp (s : Chip) (f : Radio → Radio) : (rdMod s f).resp = s.resp := rfl
@[simp] theorem rdMod_ctrLive (s : Chip) (f : Radio → Radio) : (rdMod s f).ctrLive = s.ctrLive := rfl
@[simp] theorem rdMod_ctrClosed (s : Chip) (f : Radio → Radio) : (rdMod s f).ctrClosed = s.ctrClosed := rfl
@[simp] theorem rdMod_cycle (s : Chip) (f : Radio → Radio) : (rdMod s f).cycle = s.cycle := rfl
@[simp] theorem rdMod_tiles (s : Chip) (f : Radio → Radio) : (rdMod s f).tiles = s.tiles := rfl
@[simp] theorem rdMod_strands (s : Chip) (f : Radio → Radio) : (rdMod s f).strands = s.strands := rfl
@[simp] theorem rdMod_flights (s : Chip) (f : Radio → Radio) : (rdMod s f).flights = s.flights := rfl
@[simp] theorem rdMod_taps (s : Chip) (f : Radio → Radio) : (rdMod s f).taps = s.taps := rfl
@[simp] theorem rdMod_nextId (s : Chip) (f : Radio → Radio) : (rdMod s f).nextId = s.nextId := rfl
@[simp] theorem rdMod_parts (s : Chip) (f : Radio → Radio) : (rdMod s f).parts = s.parts := rfl
@[simp] theorem rdMod_hasp (s : Chip) (f : Radio → Radio) : (rdMod s f).hasp = s.hasp := rfl
@[simp] theorem rdMod_images (s : Chip) (f : Radio → Radio) : (rdMod s f).images = s.images := rfl
@[simp] theorem rdMod_mem (s : Chip) (f : Radio → Radio) : (rdMod s f).mem = s.mem := rfl
@[simp] theorem rdMod_fab (s : Chip) (f : Radio → Radio) : (rdMod s f).fab = s.fab := rfl
@[simp] theorem rdMod_qm (s : Chip) (f : Radio → Radio) : (rdMod s f).qm = s.qm := rfl
@[simp] theorem rdMod_radio (s : Chip) (f : Radio → Radio) : (rdMod s f).radio = f s.radio := rfl
@[simp] theorem rdMod_code (s : Chip) (f : Radio → Radio) : (rdMod s f).code = s.code := rfl
@[simp] theorem rdMod_time (s : Chip) (f : Radio → Radio) : (rdMod s f).time = s.time := rfl
@[simp] theorem rdMod_ports (s : Chip) (f : Radio → Radio) : (rdMod s f).ports = s.ports := rfl
@[simp] theorem rdMod_mesh (s : Chip) (f : Radio → Radio) : (rdMod s f).mesh = s.mesh := rfl
@[simp] theorem rdMod_boot (s : Chip) (f : Radio → Radio) : (rdMod s f).boot = s.boot := rfl
@[simp] theorem rdMod_ras (s : Chip) (f : Radio → Radio) : (rdMod s f).ras = s.ras := rfl
@[simp] theorem rdMod_obs (s : Chip) (f : Radio → Radio) : (rdMod s f).obs = s.obs := rfl
@[simp] theorem rdMod_irqs (s : Chip) (f : Radio → Radio) : (rdMod s f).irqs = s.irqs := rfl
@[simp] theorem rdMod_ibis (s : Chip) (f : Radio → Radio) : (rdMod s f).ibis = s.ibis := rfl
@[simp] theorem barGet_rdMod (s : Chip) (f : Radio → Radio) (a' : Nat) : barGet (rdMod s f) a' = barGet s a' := rfl
@[simp] theorem getTile_rdMod (s : Chip) (f : Radio → Radio) (t' : Nat) : getTile (rdMod s f) t' = getTile s t' := rfl
@[simp] theorem getStrand_rdMod (s : Chip) (f : Radio → Radio) (t' i' : Nat) : getStrand (rdMod s f) t' i' = getStrand s t' i' := rfl
@[simp] theorem getPart_rdMod (s : Chip) (f : Radio → Radio) (p' : Nat) : getPart (rdMod s f) p' = getPart s p' := rfl
@[simp] theorem getHasp_rdMod (s : Chip) (f : Radio → Radio) (f' : Nat) : getHasp (rdMod s f) f' = getHasp s f' := rfl
@[simp] theorem getPort_rdMod (s : Chip) (f : Radio → Radio) (p' : Nat) : getPort (rdMod s f) p' = getPort s p' := rfl

-- bootMod
@[simp] theorem bootMod_freeCtr (s : Chip) (f : Boot → Boot) : (bootMod s f).freeCtr = s.freeCtr := rfl
@[simp] theorem bootMod_bar (s : Chip) (f : Boot → Boot) : (bootMod s f).bar = s.bar := rfl
@[simp] theorem bootMod_latch (s : Chip) (f : Boot → Boot) : (bootMod s f).latch = s.latch := rfl
@[simp] theorem bootMod_hold (s : Chip) (f : Boot → Boot) : (bootMod s f).hold = s.hold := rfl
@[simp] theorem bootMod_resp (s : Chip) (f : Boot → Boot) : (bootMod s f).resp = s.resp := rfl
@[simp] theorem bootMod_ctrLive (s : Chip) (f : Boot → Boot) : (bootMod s f).ctrLive = s.ctrLive := rfl
@[simp] theorem bootMod_ctrClosed (s : Chip) (f : Boot → Boot) : (bootMod s f).ctrClosed = s.ctrClosed := rfl
@[simp] theorem bootMod_cycle (s : Chip) (f : Boot → Boot) : (bootMod s f).cycle = s.cycle := rfl
@[simp] theorem bootMod_tiles (s : Chip) (f : Boot → Boot) : (bootMod s f).tiles = s.tiles := rfl
@[simp] theorem bootMod_strands (s : Chip) (f : Boot → Boot) : (bootMod s f).strands = s.strands := rfl
@[simp] theorem bootMod_flights (s : Chip) (f : Boot → Boot) : (bootMod s f).flights = s.flights := rfl
@[simp] theorem bootMod_taps (s : Chip) (f : Boot → Boot) : (bootMod s f).taps = s.taps := rfl
@[simp] theorem bootMod_nextId (s : Chip) (f : Boot → Boot) : (bootMod s f).nextId = s.nextId := rfl
@[simp] theorem bootMod_parts (s : Chip) (f : Boot → Boot) : (bootMod s f).parts = s.parts := rfl
@[simp] theorem bootMod_hasp (s : Chip) (f : Boot → Boot) : (bootMod s f).hasp = s.hasp := rfl
@[simp] theorem bootMod_images (s : Chip) (f : Boot → Boot) : (bootMod s f).images = s.images := rfl
@[simp] theorem bootMod_mem (s : Chip) (f : Boot → Boot) : (bootMod s f).mem = s.mem := rfl
@[simp] theorem bootMod_fab (s : Chip) (f : Boot → Boot) : (bootMod s f).fab = s.fab := rfl
@[simp] theorem bootMod_qm (s : Chip) (f : Boot → Boot) : (bootMod s f).qm = s.qm := rfl
@[simp] theorem bootMod_radio (s : Chip) (f : Boot → Boot) : (bootMod s f).radio = s.radio := rfl
@[simp] theorem bootMod_code (s : Chip) (f : Boot → Boot) : (bootMod s f).code = s.code := rfl
@[simp] theorem bootMod_time (s : Chip) (f : Boot → Boot) : (bootMod s f).time = s.time := rfl
@[simp] theorem bootMod_ports (s : Chip) (f : Boot → Boot) : (bootMod s f).ports = s.ports := rfl
@[simp] theorem bootMod_mesh (s : Chip) (f : Boot → Boot) : (bootMod s f).mesh = s.mesh := rfl
@[simp] theorem bootMod_boot (s : Chip) (f : Boot → Boot) : (bootMod s f).boot = f s.boot := rfl
@[simp] theorem bootMod_ras (s : Chip) (f : Boot → Boot) : (bootMod s f).ras = s.ras := rfl
@[simp] theorem bootMod_obs (s : Chip) (f : Boot → Boot) : (bootMod s f).obs = s.obs := rfl
@[simp] theorem bootMod_irqs (s : Chip) (f : Boot → Boot) : (bootMod s f).irqs = s.irqs := rfl
@[simp] theorem bootMod_ibis (s : Chip) (f : Boot → Boot) : (bootMod s f).ibis = s.ibis := rfl
@[simp] theorem barGet_bootMod (s : Chip) (f : Boot → Boot) (a' : Nat) : barGet (bootMod s f) a' = barGet s a' := rfl
@[simp] theorem getTile_bootMod (s : Chip) (f : Boot → Boot) (t' : Nat) : getTile (bootMod s f) t' = getTile s t' := rfl
@[simp] theorem getStrand_bootMod (s : Chip) (f : Boot → Boot) (t' i' : Nat) : getStrand (bootMod s f) t' i' = getStrand s t' i' := rfl
@[simp] theorem getPart_bootMod (s : Chip) (f : Boot → Boot) (p' : Nat) : getPart (bootMod s f) p' = getPart s p' := rfl
@[simp] theorem getHasp_bootMod (s : Chip) (f : Boot → Boot) (f' : Nat) : getHasp (bootMod s f) f' = getHasp s f' := rfl
@[simp] theorem getPort_bootMod (s : Chip) (f : Boot → Boot) (p' : Nat) : getPort (bootMod s f) p' = getPort s p' := rfl

-- rasMod
@[simp] theorem rasMod_freeCtr (s : Chip) (f : Ras → Ras) : (rasMod s f).freeCtr = s.freeCtr := rfl
@[simp] theorem rasMod_bar (s : Chip) (f : Ras → Ras) : (rasMod s f).bar = s.bar := rfl
@[simp] theorem rasMod_latch (s : Chip) (f : Ras → Ras) : (rasMod s f).latch = s.latch := rfl
@[simp] theorem rasMod_hold (s : Chip) (f : Ras → Ras) : (rasMod s f).hold = s.hold := rfl
@[simp] theorem rasMod_resp (s : Chip) (f : Ras → Ras) : (rasMod s f).resp = s.resp := rfl
@[simp] theorem rasMod_ctrLive (s : Chip) (f : Ras → Ras) : (rasMod s f).ctrLive = s.ctrLive := rfl
@[simp] theorem rasMod_ctrClosed (s : Chip) (f : Ras → Ras) : (rasMod s f).ctrClosed = s.ctrClosed := rfl
@[simp] theorem rasMod_cycle (s : Chip) (f : Ras → Ras) : (rasMod s f).cycle = s.cycle := rfl
@[simp] theorem rasMod_tiles (s : Chip) (f : Ras → Ras) : (rasMod s f).tiles = s.tiles := rfl
@[simp] theorem rasMod_strands (s : Chip) (f : Ras → Ras) : (rasMod s f).strands = s.strands := rfl
@[simp] theorem rasMod_flights (s : Chip) (f : Ras → Ras) : (rasMod s f).flights = s.flights := rfl
@[simp] theorem rasMod_taps (s : Chip) (f : Ras → Ras) : (rasMod s f).taps = s.taps := rfl
@[simp] theorem rasMod_nextId (s : Chip) (f : Ras → Ras) : (rasMod s f).nextId = s.nextId := rfl
@[simp] theorem rasMod_parts (s : Chip) (f : Ras → Ras) : (rasMod s f).parts = s.parts := rfl
@[simp] theorem rasMod_hasp (s : Chip) (f : Ras → Ras) : (rasMod s f).hasp = s.hasp := rfl
@[simp] theorem rasMod_images (s : Chip) (f : Ras → Ras) : (rasMod s f).images = s.images := rfl
@[simp] theorem rasMod_mem (s : Chip) (f : Ras → Ras) : (rasMod s f).mem = s.mem := rfl
@[simp] theorem rasMod_fab (s : Chip) (f : Ras → Ras) : (rasMod s f).fab = s.fab := rfl
@[simp] theorem rasMod_qm (s : Chip) (f : Ras → Ras) : (rasMod s f).qm = s.qm := rfl
@[simp] theorem rasMod_radio (s : Chip) (f : Ras → Ras) : (rasMod s f).radio = s.radio := rfl
@[simp] theorem rasMod_code (s : Chip) (f : Ras → Ras) : (rasMod s f).code = s.code := rfl
@[simp] theorem rasMod_time (s : Chip) (f : Ras → Ras) : (rasMod s f).time = s.time := rfl
@[simp] theorem rasMod_ports (s : Chip) (f : Ras → Ras) : (rasMod s f).ports = s.ports := rfl
@[simp] theorem rasMod_mesh (s : Chip) (f : Ras → Ras) : (rasMod s f).mesh = s.mesh := rfl
@[simp] theorem rasMod_boot (s : Chip) (f : Ras → Ras) : (rasMod s f).boot = s.boot := rfl
@[simp] theorem rasMod_ras (s : Chip) (f : Ras → Ras) : (rasMod s f).ras = f s.ras := rfl
@[simp] theorem rasMod_obs (s : Chip) (f : Ras → Ras) : (rasMod s f).obs = s.obs := rfl
@[simp] theorem rasMod_irqs (s : Chip) (f : Ras → Ras) : (rasMod s f).irqs = s.irqs := rfl
@[simp] theorem rasMod_ibis (s : Chip) (f : Ras → Ras) : (rasMod s f).ibis = s.ibis := rfl
@[simp] theorem barGet_rasMod (s : Chip) (f : Ras → Ras) (a' : Nat) : barGet (rasMod s f) a' = barGet s a' := rfl
@[simp] theorem getTile_rasMod (s : Chip) (f : Ras → Ras) (t' : Nat) : getTile (rasMod s f) t' = getTile s t' := rfl
@[simp] theorem getStrand_rasMod (s : Chip) (f : Ras → Ras) (t' i' : Nat) : getStrand (rasMod s f) t' i' = getStrand s t' i' := rfl
@[simp] theorem getPart_rasMod (s : Chip) (f : Ras → Ras) (p' : Nat) : getPart (rasMod s f) p' = getPart s p' := rfl
@[simp] theorem getHasp_rasMod (s : Chip) (f : Ras → Ras) (f' : Nat) : getHasp (rasMod s f) f' = getHasp s f' := rfl
@[simp] theorem getPort_rasMod (s : Chip) (f : Ras → Ras) (p' : Nat) : getPort (rasMod s f) p' = getPort s p' := rfl

-- qmMod
@[simp] theorem qmMod_freeCtr (s : Chip) (f : QM → QM) : (qmMod s f).freeCtr = s.freeCtr := rfl
@[simp] theorem qmMod_bar (s : Chip) (f : QM → QM) : (qmMod s f).bar = s.bar := rfl
@[simp] theorem qmMod_latch (s : Chip) (f : QM → QM) : (qmMod s f).latch = s.latch := rfl
@[simp] theorem qmMod_hold (s : Chip) (f : QM → QM) : (qmMod s f).hold = s.hold := rfl
@[simp] theorem qmMod_resp (s : Chip) (f : QM → QM) : (qmMod s f).resp = s.resp := rfl
@[simp] theorem qmMod_ctrLive (s : Chip) (f : QM → QM) : (qmMod s f).ctrLive = s.ctrLive := rfl
@[simp] theorem qmMod_ctrClosed (s : Chip) (f : QM → QM) : (qmMod s f).ctrClosed = s.ctrClosed := rfl
@[simp] theorem qmMod_cycle (s : Chip) (f : QM → QM) : (qmMod s f).cycle = s.cycle := rfl
@[simp] theorem qmMod_tiles (s : Chip) (f : QM → QM) : (qmMod s f).tiles = s.tiles := rfl
@[simp] theorem qmMod_strands (s : Chip) (f : QM → QM) : (qmMod s f).strands = s.strands := rfl
@[simp] theorem qmMod_flights (s : Chip) (f : QM → QM) : (qmMod s f).flights = s.flights := rfl
@[simp] theorem qmMod_taps (s : Chip) (f : QM → QM) : (qmMod s f).taps = s.taps := rfl
@[simp] theorem qmMod_nextId (s : Chip) (f : QM → QM) : (qmMod s f).nextId = s.nextId := rfl
@[simp] theorem qmMod_parts (s : Chip) (f : QM → QM) : (qmMod s f).parts = s.parts := rfl
@[simp] theorem qmMod_hasp (s : Chip) (f : QM → QM) : (qmMod s f).hasp = s.hasp := rfl
@[simp] theorem qmMod_images (s : Chip) (f : QM → QM) : (qmMod s f).images = s.images := rfl
@[simp] theorem qmMod_mem (s : Chip) (f : QM → QM) : (qmMod s f).mem = s.mem := rfl
@[simp] theorem qmMod_fab (s : Chip) (f : QM → QM) : (qmMod s f).fab = s.fab := rfl
@[simp] theorem qmMod_qm (s : Chip) (f : QM → QM) : (qmMod s f).qm = f s.qm := rfl
@[simp] theorem qmMod_radio (s : Chip) (f : QM → QM) : (qmMod s f).radio = s.radio := rfl
@[simp] theorem qmMod_code (s : Chip) (f : QM → QM) : (qmMod s f).code = s.code := rfl
@[simp] theorem qmMod_time (s : Chip) (f : QM → QM) : (qmMod s f).time = s.time := rfl
@[simp] theorem qmMod_ports (s : Chip) (f : QM → QM) : (qmMod s f).ports = s.ports := rfl
@[simp] theorem qmMod_mesh (s : Chip) (f : QM → QM) : (qmMod s f).mesh = s.mesh := rfl
@[simp] theorem qmMod_boot (s : Chip) (f : QM → QM) : (qmMod s f).boot = s.boot := rfl
@[simp] theorem qmMod_ras (s : Chip) (f : QM → QM) : (qmMod s f).ras = s.ras := rfl
@[simp] theorem qmMod_obs (s : Chip) (f : QM → QM) : (qmMod s f).obs = s.obs := rfl
@[simp] theorem qmMod_irqs (s : Chip) (f : QM → QM) : (qmMod s f).irqs = s.irqs := rfl
@[simp] theorem qmMod_ibis (s : Chip) (f : QM → QM) : (qmMod s f).ibis = s.ibis := rfl
@[simp] theorem barGet_qmMod (s : Chip) (f : QM → QM) (a' : Nat) : barGet (qmMod s f) a' = barGet s a' := rfl
@[simp] theorem getTile_qmMod (s : Chip) (f : QM → QM) (t' : Nat) : getTile (qmMod s f) t' = getTile s t' := rfl
@[simp] theorem getStrand_qmMod (s : Chip) (f : QM → QM) (t' i' : Nat) : getStrand (qmMod s f) t' i' = getStrand s t' i' := rfl
@[simp] theorem getPart_qmMod (s : Chip) (f : QM → QM) (p' : Nat) : getPart (qmMod s f) p' = getPart s p' := rfl
@[simp] theorem getHasp_qmMod (s : Chip) (f : QM → QM) (f' : Nat) : getHasp (qmMod s f) f' = getHasp s f' := rfl
@[simp] theorem getPort_qmMod (s : Chip) (f : QM → QM) (p' : Nat) : getPort (qmMod s f) p' = getPort s p' := rfl

-- tmMod
@[simp] theorem tmMod_freeCtr (s : Chip) (f : TimeS → TimeS) : (tmMod s f).freeCtr = s.freeCtr := rfl
@[simp] theorem tmMod_bar (s : Chip) (f : TimeS → TimeS) : (tmMod s f).bar = s.bar := rfl
@[simp] theorem tmMod_latch (s : Chip) (f : TimeS → TimeS) : (tmMod s f).latch = s.latch := rfl
@[simp] theorem tmMod_hold (s : Chip) (f : TimeS → TimeS) : (tmMod s f).hold = s.hold := rfl
@[simp] theorem tmMod_resp (s : Chip) (f : TimeS → TimeS) : (tmMod s f).resp = s.resp := rfl
@[simp] theorem tmMod_ctrLive (s : Chip) (f : TimeS → TimeS) : (tmMod s f).ctrLive = s.ctrLive := rfl
@[simp] theorem tmMod_ctrClosed (s : Chip) (f : TimeS → TimeS) : (tmMod s f).ctrClosed = s.ctrClosed := rfl
@[simp] theorem tmMod_cycle (s : Chip) (f : TimeS → TimeS) : (tmMod s f).cycle = s.cycle := rfl
@[simp] theorem tmMod_tiles (s : Chip) (f : TimeS → TimeS) : (tmMod s f).tiles = s.tiles := rfl
@[simp] theorem tmMod_strands (s : Chip) (f : TimeS → TimeS) : (tmMod s f).strands = s.strands := rfl
@[simp] theorem tmMod_flights (s : Chip) (f : TimeS → TimeS) : (tmMod s f).flights = s.flights := rfl
@[simp] theorem tmMod_taps (s : Chip) (f : TimeS → TimeS) : (tmMod s f).taps = s.taps := rfl
@[simp] theorem tmMod_nextId (s : Chip) (f : TimeS → TimeS) : (tmMod s f).nextId = s.nextId := rfl
@[simp] theorem tmMod_parts (s : Chip) (f : TimeS → TimeS) : (tmMod s f).parts = s.parts := rfl
@[simp] theorem tmMod_hasp (s : Chip) (f : TimeS → TimeS) : (tmMod s f).hasp = s.hasp := rfl
@[simp] theorem tmMod_images (s : Chip) (f : TimeS → TimeS) : (tmMod s f).images = s.images := rfl
@[simp] theorem tmMod_mem (s : Chip) (f : TimeS → TimeS) : (tmMod s f).mem = s.mem := rfl
@[simp] theorem tmMod_fab (s : Chip) (f : TimeS → TimeS) : (tmMod s f).fab = s.fab := rfl
@[simp] theorem tmMod_qm (s : Chip) (f : TimeS → TimeS) : (tmMod s f).qm = s.qm := rfl
@[simp] theorem tmMod_radio (s : Chip) (f : TimeS → TimeS) : (tmMod s f).radio = s.radio := rfl
@[simp] theorem tmMod_code (s : Chip) (f : TimeS → TimeS) : (tmMod s f).code = s.code := rfl
@[simp] theorem tmMod_time (s : Chip) (f : TimeS → TimeS) : (tmMod s f).time = f s.time := rfl
@[simp] theorem tmMod_ports (s : Chip) (f : TimeS → TimeS) : (tmMod s f).ports = s.ports := rfl
@[simp] theorem tmMod_mesh (s : Chip) (f : TimeS → TimeS) : (tmMod s f).mesh = s.mesh := rfl
@[simp] theorem tmMod_boot (s : Chip) (f : TimeS → TimeS) : (tmMod s f).boot = s.boot := rfl
@[simp] theorem tmMod_ras (s : Chip) (f : TimeS → TimeS) : (tmMod s f).ras = s.ras := rfl
@[simp] theorem tmMod_obs (s : Chip) (f : TimeS → TimeS) : (tmMod s f).obs = s.obs := rfl
@[simp] theorem tmMod_irqs (s : Chip) (f : TimeS → TimeS) : (tmMod s f).irqs = s.irqs := rfl
@[simp] theorem tmMod_ibis (s : Chip) (f : TimeS → TimeS) : (tmMod s f).ibis = s.ibis := rfl
@[simp] theorem barGet_tmMod (s : Chip) (f : TimeS → TimeS) (a' : Nat) : barGet (tmMod s f) a' = barGet s a' := rfl
@[simp] theorem getTile_tmMod (s : Chip) (f : TimeS → TimeS) (t' : Nat) : getTile (tmMod s f) t' = getTile s t' := rfl
@[simp] theorem getStrand_tmMod (s : Chip) (f : TimeS → TimeS) (t' i' : Nat) : getStrand (tmMod s f) t' i' = getStrand s t' i' := rfl
@[simp] theorem getPart_tmMod (s : Chip) (f : TimeS → TimeS) (p' : Nat) : getPart (tmMod s f) p' = getPart s p' := rfl
@[simp] theorem getHasp_tmMod (s : Chip) (f : TimeS → TimeS) (f' : Nat) : getHasp (tmMod s f) f' = getHasp s f' := rfl
@[simp] theorem getPort_tmMod (s : Chip) (f : TimeS → TimeS) (p' : Nat) : getPort (tmMod s f) p' = getPort s p' := rfl

-- meshMod
@[simp] theorem meshMod_freeCtr (s : Chip) (f : MeshS → MeshS) : (meshMod s f).freeCtr = s.freeCtr := rfl
@[simp] theorem meshMod_bar (s : Chip) (f : MeshS → MeshS) : (meshMod s f).bar = s.bar := rfl
@[simp] theorem meshMod_latch (s : Chip) (f : MeshS → MeshS) : (meshMod s f).latch = s.latch := rfl
@[simp] theorem meshMod_hold (s : Chip) (f : MeshS → MeshS) : (meshMod s f).hold = s.hold := rfl
@[simp] theorem meshMod_resp (s : Chip) (f : MeshS → MeshS) : (meshMod s f).resp = s.resp := rfl
@[simp] theorem meshMod_ctrLive (s : Chip) (f : MeshS → MeshS) : (meshMod s f).ctrLive = s.ctrLive := rfl
@[simp] theorem meshMod_ctrClosed (s : Chip) (f : MeshS → MeshS) : (meshMod s f).ctrClosed = s.ctrClosed := rfl
@[simp] theorem meshMod_cycle (s : Chip) (f : MeshS → MeshS) : (meshMod s f).cycle = s.cycle := rfl
@[simp] theorem meshMod_tiles (s : Chip) (f : MeshS → MeshS) : (meshMod s f).tiles = s.tiles := rfl
@[simp] theorem meshMod_strands (s : Chip) (f : MeshS → MeshS) : (meshMod s f).strands = s.strands := rfl
@[simp] theorem meshMod_flights (s : Chip) (f : MeshS → MeshS) : (meshMod s f).flights = s.flights := rfl
@[simp] theorem meshMod_taps (s : Chip) (f : MeshS → MeshS) : (meshMod s f).taps = s.taps := rfl
@[simp] theorem meshMod_nextId (s : Chip) (f : MeshS → MeshS) : (meshMod s f).nextId = s.nextId := rfl
@[simp] theorem meshMod_parts (s : Chip) (f : MeshS → MeshS) : (meshMod s f).parts = s.parts := rfl
@[simp] theorem meshMod_hasp (s : Chip) (f : MeshS → MeshS) : (meshMod s f).hasp = s.hasp := rfl
@[simp] theorem meshMod_images (s : Chip) (f : MeshS → MeshS) : (meshMod s f).images = s.images := rfl
@[simp] theorem meshMod_mem (s : Chip) (f : MeshS → MeshS) : (meshMod s f).mem = s.mem := rfl
@[simp] theorem meshMod_fab (s : Chip) (f : MeshS → MeshS) : (meshMod s f).fab = s.fab := rfl
@[simp] theorem meshMod_qm (s : Chip) (f : MeshS → MeshS) : (meshMod s f).qm = s.qm := rfl
@[simp] theorem meshMod_radio (s : Chip) (f : MeshS → MeshS) : (meshMod s f).radio = s.radio := rfl
@[simp] theorem meshMod_code (s : Chip) (f : MeshS → MeshS) : (meshMod s f).code = s.code := rfl
@[simp] theorem meshMod_time (s : Chip) (f : MeshS → MeshS) : (meshMod s f).time = s.time := rfl
@[simp] theorem meshMod_ports (s : Chip) (f : MeshS → MeshS) : (meshMod s f).ports = s.ports := rfl
@[simp] theorem meshMod_mesh (s : Chip) (f : MeshS → MeshS) : (meshMod s f).mesh = f s.mesh := rfl
@[simp] theorem meshMod_boot (s : Chip) (f : MeshS → MeshS) : (meshMod s f).boot = s.boot := rfl
@[simp] theorem meshMod_ras (s : Chip) (f : MeshS → MeshS) : (meshMod s f).ras = s.ras := rfl
@[simp] theorem meshMod_obs (s : Chip) (f : MeshS → MeshS) : (meshMod s f).obs = s.obs := rfl
@[simp] theorem meshMod_irqs (s : Chip) (f : MeshS → MeshS) : (meshMod s f).irqs = s.irqs := rfl
@[simp] theorem meshMod_ibis (s : Chip) (f : MeshS → MeshS) : (meshMod s f).ibis = s.ibis := rfl
@[simp] theorem barGet_meshMod (s : Chip) (f : MeshS → MeshS) (a' : Nat) : barGet (meshMod s f) a' = barGet s a' := rfl
@[simp] theorem getTile_meshMod (s : Chip) (f : MeshS → MeshS) (t' : Nat) : getTile (meshMod s f) t' = getTile s t' := rfl
@[simp] theorem getStrand_meshMod (s : Chip) (f : MeshS → MeshS) (t' i' : Nat) : getStrand (meshMod s f) t' i' = getStrand s t' i' := rfl
@[simp] theorem getPart_meshMod (s : Chip) (f : MeshS → MeshS) (p' : Nat) : getPart (meshMod s f) p' = getPart s p' := rfl
@[simp] theorem getHasp_meshMod (s : Chip) (f : MeshS → MeshS) (f' : Nat) : getHasp (meshMod s f) f' = getHasp s f' := rfl
@[simp] theorem getPort_meshMod (s : Chip) (f : MeshS → MeshS) (p' : Nat) : getPort (meshMod s f) p' = getPort s p' := rfl

-- obMod
@[simp] theorem obMod_freeCtr (s : Chip) (f : Obs → Obs) : (obMod s f).freeCtr = s.freeCtr := rfl
@[simp] theorem obMod_bar (s : Chip) (f : Obs → Obs) : (obMod s f).bar = s.bar := rfl
@[simp] theorem obMod_latch (s : Chip) (f : Obs → Obs) : (obMod s f).latch = s.latch := rfl
@[simp] theorem obMod_hold (s : Chip) (f : Obs → Obs) : (obMod s f).hold = s.hold := rfl
@[simp] theorem obMod_resp (s : Chip) (f : Obs → Obs) : (obMod s f).resp = s.resp := rfl
@[simp] theorem obMod_ctrLive (s : Chip) (f : Obs → Obs) : (obMod s f).ctrLive = s.ctrLive := rfl
@[simp] theorem obMod_ctrClosed (s : Chip) (f : Obs → Obs) : (obMod s f).ctrClosed = s.ctrClosed := rfl
@[simp] theorem obMod_cycle (s : Chip) (f : Obs → Obs) : (obMod s f).cycle = s.cycle := rfl
@[simp] theorem obMod_tiles (s : Chip) (f : Obs → Obs) : (obMod s f).tiles = s.tiles := rfl
@[simp] theorem obMod_strands (s : Chip) (f : Obs → Obs) : (obMod s f).strands = s.strands := rfl
@[simp] theorem obMod_flights (s : Chip) (f : Obs → Obs) : (obMod s f).flights = s.flights := rfl
@[simp] theorem obMod_taps (s : Chip) (f : Obs → Obs) : (obMod s f).taps = s.taps := rfl
@[simp] theorem obMod_nextId (s : Chip) (f : Obs → Obs) : (obMod s f).nextId = s.nextId := rfl
@[simp] theorem obMod_parts (s : Chip) (f : Obs → Obs) : (obMod s f).parts = s.parts := rfl
@[simp] theorem obMod_hasp (s : Chip) (f : Obs → Obs) : (obMod s f).hasp = s.hasp := rfl
@[simp] theorem obMod_images (s : Chip) (f : Obs → Obs) : (obMod s f).images = s.images := rfl
@[simp] theorem obMod_mem (s : Chip) (f : Obs → Obs) : (obMod s f).mem = s.mem := rfl
@[simp] theorem obMod_fab (s : Chip) (f : Obs → Obs) : (obMod s f).fab = s.fab := rfl
@[simp] theorem obMod_qm (s : Chip) (f : Obs → Obs) : (obMod s f).qm = s.qm := rfl
@[simp] theorem obMod_radio (s : Chip) (f : Obs → Obs) : (obMod s f).radio = s.radio := rfl
@[simp] theorem obMod_code (s : Chip) (f : Obs → Obs) : (obMod s f).code = s.code := rfl
@[simp] theorem obMod_time (s : Chip) (f : Obs → Obs) : (obMod s f).time = s.time := rfl
@[simp] theorem obMod_ports (s : Chip) (f : Obs → Obs) : (obMod s f).ports = s.ports := rfl
@[simp] theorem obMod_mesh (s : Chip) (f : Obs → Obs) : (obMod s f).mesh = s.mesh := rfl
@[simp] theorem obMod_boot (s : Chip) (f : Obs → Obs) : (obMod s f).boot = s.boot := rfl
@[simp] theorem obMod_ras (s : Chip) (f : Obs → Obs) : (obMod s f).ras = s.ras := rfl
@[simp] theorem obMod_obs (s : Chip) (f : Obs → Obs) : (obMod s f).obs = f s.obs := rfl
@[simp] theorem obMod_irqs (s : Chip) (f : Obs → Obs) : (obMod s f).irqs = s.irqs := rfl
@[simp] theorem obMod_ibis (s : Chip) (f : Obs → Obs) : (obMod s f).ibis = s.ibis := rfl
@[simp] theorem barGet_obMod (s : Chip) (f : Obs → Obs) (a' : Nat) : barGet (obMod s f) a' = barGet s a' := rfl
@[simp] theorem getTile_obMod (s : Chip) (f : Obs → Obs) (t' : Nat) : getTile (obMod s f) t' = getTile s t' := rfl
@[simp] theorem getStrand_obMod (s : Chip) (f : Obs → Obs) (t' i' : Nat) : getStrand (obMod s f) t' i' = getStrand s t' i' := rfl
@[simp] theorem getPart_obMod (s : Chip) (f : Obs → Obs) (p' : Nat) : getPart (obMod s f) p' = getPart s p' := rfl
@[simp] theorem getHasp_obMod (s : Chip) (f : Obs → Obs) (f' : Nat) : getHasp (obMod s f) f' = getHasp s f' := rfl
@[simp] theorem getPort_obMod (s : Chip) (f : Obs → Obs) (p' : Nat) : getPort (obMod s f) p' = getPort s p' := rfl

-- Reads after writes of the numbered units.

@[simp] theorem getTile_setTile_same (s : Chip) (t : Nat) (x : Tile) : getTile (setTile s t x) t = x := by
  simp [getTile]

theorem getTile_setTile (s : Chip) (t t' : Nat) (x : Tile) :
    getTile (setTile s t x) t' = if t' = t then x else getTile s t' := by
  simp only [getTile, setTile_tiles, tget_tset]

@[simp] theorem getPart_setPart_same (s : Chip) (p : Nat) (x : Part) : getPart (setPart s p x) p = x := by
  simp [getPart]

theorem getPart_setPart (s : Chip) (p p' : Nat) (x : Part) :
    getPart (setPart s p x) p' = if p' = p then x else getPart s p' := by
  simp only [getPart, setPart_parts, tget_tset]

@[simp] theorem getHasp_setHasp_same (s : Chip) (f : Nat) (x : Hasp) : getHasp (setHasp s f x) f = x := by
  simp [getHasp]

theorem getHasp_setHasp (s : Chip) (f f' : Nat) (x : Hasp) :
    getHasp (setHasp s f x) f' = if f' = f then x else getHasp s f' := by
  simp only [getHasp, setHasp_hasp, tget_tset]

@[simp] theorem getPort_setPort_same (s : Chip) (p : Nat) (x : FhPort) : getPort (setPort s p x) p = x := by
  simp [getPort]

theorem getPort_setPort (s : Chip) (p p' : Nat) (x : FhPort) :
    getPort (setPort s p x) p' = if p' = p then x else getPort s p' := by
  simp only [getPort, setPort_ports, tget_tset]

/-- Two strands below 8 of two tiles have one key only where they are one strand. -/
theorem skey_inj {t t' i i' : Nat} (hi : i < 8) (hi' : i' < 8) : skey t i = skey t' i' ↔ t = t' ∧ i = i' := by
  unfold skey; omega

@[simp] theorem getStrand_setStrand_same (s : Chip) (t i : Nat) (x : Strand) : getStrand (setStrand s t i x) t i = x := by
  simp [getStrand]

theorem getStrand_setStrand (s : Chip) (t t' i i' : Nat) (x : Strand) :
    getStrand (setStrand s t i x) t' i' = if skey t' i' = skey t i then x else getStrand s t' i' := by
  simp only [getStrand, setStrand_strands, tget_tset]

@[simp] theorem getStrand_modStrand_same (s : Chip) (t i : Nat) (f : Strand → Strand) :
    getStrand (modStrand s t i f) t i = f (getStrand s t i) := by
  simp [modStrand]

@[simp] theorem getTile_modTile_same (s : Chip) (t : Nat) (f : Tile → Tile) :
    getTile (modTile s t f) t = f (getTile s t) := by
  simp [modTile]

@[simp] theorem getTile_modStrand (s : Chip) (t i t' : Nat) (f : Strand → Strand) :
    getTile (modStrand s t i f) t' = getTile s t' := rfl

@[simp] theorem getStrand_modTile (s : Chip) (t t' i : Nat) (f : Tile → Tile) :
    getStrand (modTile s t f) t' i = getStrand s t' i := rfl

@[simp] theorem barGet_modStrand (s : Chip) (t i a : Nat) (f : Strand → Strand) :
    barGet (modStrand s t i f) a = barGet s a := rfl

@[simp] theorem barGet_modTile (s : Chip) (t a : Nat) (f : Tile → Tile) : barGet (modTile s t f) a = barGet s a := rfl

end Sys2Proof.Machine
end

