-- ==== Sys2Proof/Laws/Regs.lean ====
section
/-! SUPPORT. Registers and their fields: what a write of a field gives, and what it leaves alone. -/

namespace Sys2Proof.Machine

theorem bitsOf_eq (x hi lo : Nat) : bitsOf x hi lo = x / 2 ^ lo % 2 ^ (hi + 1 - lo) := by
  rw [bitsOf, Nat.shiftRight_eq_div_pow]

theorem bitsOf_lt (x hi lo : Nat) : bitsOf x hi lo < 2 ^ (hi + 1 - lo) := by
  rw [bitsOf_eq]
  exact Nat.mod_lt _ (Nat.two_pow_pos _)

/-- A number as the part above a field, the field, and the part below. -/
theorem split_field (x hi lo : Nat) (h : lo ≤ hi) :
    x = x / 2 ^ (hi + 1) * 2 ^ (hi + 1) + bitsOf x hi lo * 2 ^ lo + x % 2 ^ lo := by
  have e : 2 ^ (hi + 1) = 2 ^ lo * 2 ^ (hi + 1 - lo) := by rw [← pow_add]; congr 1; omega
  have h1 := Nat.div_add_mod x (2 ^ lo)
  have h2 := Nat.div_add_mod (x / 2 ^ lo) (2 ^ (hi + 1 - lo))
  rw [bitsOf_eq, e, ← Nat.div_div_eq_div_mul]
  calc x = 2 ^ lo * (x / 2 ^ lo) + x % 2 ^ lo := h1.symm
    _ = 2 ^ lo * (2 ^ (hi + 1 - lo) * (x / 2 ^ lo / 2 ^ (hi + 1 - lo)) + x / 2 ^ lo % 2 ^ (hi + 1 - lo)) + x % 2 ^ lo := by
      rw [h2]
    _ = _ := by ring

theorem setBits_eq (x hi lo v : Nat) (h : lo ≤ hi) :
    setBits x hi lo v = x / 2 ^ (hi + 1) * 2 ^ (hi + 1) + v % 2 ^ (hi + 1 - lo) * 2 ^ lo + x % 2 ^ lo := by
  have e := split_field x hi lo h
  unfold setBits
  omega

theorem setBits_field_lt (hi lo v : Nat) (h : lo ≤ hi) : v % 2 ^ (hi + 1 - lo) * 2 ^ lo + 2 ^ lo ≤ 2 ^ (hi + 1) := by
  have h1 : v % 2 ^ (hi + 1 - lo) + 1 ≤ 2 ^ (hi + 1 - lo) := Nat.mod_lt _ (Nat.two_pow_pos _)
  calc v % 2 ^ (hi + 1 - lo) * 2 ^ lo + 2 ^ lo = (v % 2 ^ (hi + 1 - lo) + 1) * 2 ^ lo := by ring
    _ ≤ 2 ^ (hi + 1 - lo) * 2 ^ lo := Nat.mul_le_mul_right _ h1
    _ = 2 ^ (hi + 1) := by rw [← pow_add]; congr 1; omega

theorem setBits_lt (x hi lo v : Nat) (h : lo ≤ hi) (hh : hi < 64) (hx : x < 2 ^ 64) : setBits x hi lo v < 2 ^ 64 := by
  rw [setBits_eq x hi lo v h]
  have h1 := setBits_field_lt hi lo v h
  have h2 : x % 2 ^ lo < 2 ^ lo := Nat.mod_lt _ (Nat.two_pow_pos _)
  have e : 2 ^ 64 = 2 ^ (hi + 1) * 2 ^ (63 - hi) := by rw [← pow_add]; congr 1; omega
  have h3 : x / 2 ^ (hi + 1) + 1 ≤ 2 ^ (63 - hi) := Nat.div_lt_of_lt_mul (by rwa [← e])
  have h4 : (x / 2 ^ (hi + 1) + 1) * 2 ^ (hi + 1) ≤ 2 ^ (63 - hi) * 2 ^ (hi + 1) := Nat.mul_le_mul_right _ h3
  rw [e, Nat.mul_comm (2 ^ (hi + 1)) (2 ^ (63 - hi))]
  rw [Nat.add_mul, Nat.one_mul] at h4
  omega

/-- The field just written. -/
theorem bitsOf_setBits_same (x hi lo v : Nat) (h : lo ≤ hi) : bitsOf (setBits x hi lo v) hi lo = v % 2 ^ (hi + 1 - lo) := by
  have e : 2 ^ (hi + 1) = 2 ^ lo * 2 ^ (hi + 1 - lo) := by rw [← pow_add]; congr 1; omega
  have h2 : x % 2 ^ lo < 2 ^ lo := Nat.mod_lt _ (Nat.two_pow_pos _)
  rw [setBits_eq x hi lo v h, bitsOf_eq, e]
  have : x / (2 ^ lo * 2 ^ (hi + 1 - lo)) * (2 ^ lo * 2 ^ (hi + 1 - lo)) + v % 2 ^ (hi + 1 - lo) * 2 ^ lo + x % 2 ^ lo =
      (x / (2 ^ lo * 2 ^ (hi + 1 - lo)) * 2 ^ (hi + 1 - lo) + v % 2 ^ (hi + 1 - lo)) * 2 ^ lo + x % 2 ^ lo := by ring
  rw [this, Nat.add_comm, Nat.add_mul_div_right _ _ (Nat.two_pow_pos _), Nat.div_eq_of_lt h2, Nat.zero_add,
    Nat.add_comm, Nat.add_mul_mod_self_right, Nat.mod_mod]

/-- A field above or below the one written. -/
theorem bitsOf_setBits_other (x hi lo v hi' lo' : Nat) (h : lo ≤ hi) (h' : lo' ≤ hi') (hd : hi' < lo ∨ hi < lo') :
    bitsOf (setBits x hi lo v) hi' lo' = bitsOf x hi' lo' := by
  have hf := setBits_field_lt hi lo v h
  have h2 : x % 2 ^ lo < 2 ^ lo := Nat.mod_lt _ (Nat.two_pow_pos _)
  rw [setBits_eq x hi lo v h, bitsOf_eq, bitsOf_eq]
  rcases hd with hd | hd
  · -- below: the number modulo 2 ^ lo stands
    have e1 : 2 ^ (hi + 1) = 2 ^ (hi + 1 - lo) * 2 ^ lo := by rw [← pow_add]; congr 1; omega
    have m : (x / 2 ^ (hi + 1) * 2 ^ (hi + 1) + v % 2 ^ (hi + 1 - lo) * 2 ^ lo + x % 2 ^ lo) % 2 ^ lo = x % 2 ^ lo := by
      rw [e1, ← Nat.mul_assoc, ← Nat.add_mul, Nat.add_comm, Nat.add_mul_mod_self_right, Nat.mod_mod]
    have key : ∀ y : Nat, y / 2 ^ lo' % 2 ^ (hi' + 1 - lo') = y % 2 ^ lo / 2 ^ lo' % 2 ^ (hi' + 1 - lo') := by
      intro y
      have e2 : 2 ^ lo = 2 ^ lo' * 2 ^ (lo - lo') := by rw [← pow_add]; congr 1; omega
      rw [e2, Nat.mod_mul_right_div_self, Nat.mod_mod_of_dvd]
      exact pow_dvd_pow 2 (by omega)
    rw [key, m, ← key]
  · -- above: the number divided by 2 ^ (hi + 1) stands
    have d : (x / 2 ^ (hi + 1) * 2 ^ (hi + 1) + v % 2 ^ (hi + 1 - lo) * 2 ^ lo + x % 2 ^ lo) / 2 ^ (hi + 1) =
        x / 2 ^ (hi + 1) := by
      rw [Nat.add_assoc, Nat.add_comm, Nat.add_mul_div_right _ _ (Nat.two_pow_pos _),
        Nat.div_eq_of_lt (by omega), Nat.zero_add]
    have key : ∀ y : Nat, y / 2 ^ lo' = y / 2 ^ (hi + 1) / 2 ^ (lo' - (hi + 1)) := by
      intro y
      rw [Nat.div_div_eq_div_mul, ← pow_add]
      congr 2
      omega
    rw [key, d, ← key]

-- Registers.

theorem barGet_lt (s : Chip) (k : Nat) : barGet s k < 2 ^ 64 := (tget regReset s.bar k).isLt

theorem barGet_barSet (s : Chip) (k k' v : Nat) :
    barGet (barSet s k v) k' = if k' = k then v % 2 ^ 64 else barGet s k' := by
  unfold barGet barSet
  rw [tget_tset]
  split <;> simp

@[simp] theorem barGet_barSet_same (s : Chip) (k v : Nat) : barGet (barSet s k v) k = v % 2 ^ 64 := by
  simp [barGet_barSet]

theorem barGet_barSet_other (s : Chip) {k k' : Nat} (v : Nat) (h : k' ≠ k) : barGet (barSet s k v) k' = barGet s k' := by
  simp [barGet_barSet, h]

theorem barGet_fset_other (s : Chip) {k k' : Nat} (hi lo v : Nat) (h : k' ≠ k) :
    barGet (fset s k hi lo v) k' = barGet s k' := barGet_barSet_other s _ h

/-- The field just written. -/
theorem fget_fset_same (s : Chip) (k hi lo v : Nat) (h : lo ≤ hi) (hh : hi < 64) :
    fget (fset s k hi lo v) k hi lo = v % 2 ^ (hi + 1 - lo) := by
  unfold fget fset
  rw [barGet_barSet_same, Nat.mod_eq_of_lt (setBits_lt _ hi lo v h hh (barGet_lt s k)), bitsOf_setBits_same _ _ _ _ h]

/-- A field of another register. -/
theorem fget_fset_other (s : Chip) {k k' : Nat} (hi lo v hi' lo' : Nat) (h : k' ≠ k) :
    fget (fset s k hi lo v) k' hi' lo' = fget s k' hi' lo' := by
  unfold fget
  rw [barGet_fset_other s hi lo v h]

/-- Another field of the same register. -/
theorem fget_fset_field (s : Chip) (k hi lo v hi' lo' : Nat) (h : lo ≤ hi) (hh : hi < 64) (h' : lo' ≤ hi')
    (hd : hi' < lo ∨ hi < lo') : fget (fset s k hi lo v) k hi' lo' = fget s k hi' lo' := by
  unfold fget fset
  rw [barGet_barSet_same, Nat.mod_eq_of_lt (setBits_lt _ hi lo v h hh (barGet_lt s k)),
    bitsOf_setBits_other _ _ _ _ _ _ h h' hd]

theorem fget_lt (s : Chip) (k hi lo : Nat) : fget s k hi lo < 2 ^ (hi + 1 - lo) := bitsOf_lt _ _ _

theorem fbit_fsetb_same (s : Chip) (k i : Nat) (b : Bool) (hi : i < 64) : fbit (fsetb s k i b) k i = b := by
  unfold fbit fsetb
  rw [fget_fset_same s k i i _ (le_refl _) hi, show i + 1 - i = 1 by omega]
  cases b <;> rfl

theorem fbit_fsetb_field (s : Chip) (k i j : Nat) (b : Bool) (hi : i < 64) (h : j ≠ i) :
    fbit (fsetb s k i b) k j = fbit s k j := by
  unfold fbit fsetb
  rw [fget_fset_field s k i i _ j j (le_refl _) hi (le_refl _) (by omega)]

theorem fbit_fsetb_other (s : Chip) {k k' : Nat} (i j : Nat) (b : Bool) (h : k' ≠ k) :
    fbit (fsetb s k i b) k' j = fbit s k' j := by
  unfold fbit fsetb
  rw [fget_fset_other s i i _ j j h]

/-- A counting field, cut at all ones. -/
theorem fget_fsat_same (s : Chip) (k hi lo n : Nat) (h : lo ≤ hi) (hh : hi < 64) :
    fget (fsat s k hi lo n) k hi lo = min (fget s k hi lo + n) (2 ^ (hi + 1 - lo) - 1) := by
  unfold fsat
  rw [fget_fset_same s k hi lo _ h hh, Nat.mod_eq_of_lt]
  have := Nat.two_pow_pos (hi + 1 - lo)
  omega

theorem fget_fsat_other (s : Chip) {k k' : Nat} (hi lo n hi' lo' : Nat) (h : k' ≠ k) :
    fget (fsat s k hi lo n) k' hi' lo' = fget s k' hi' lo' := fget_fset_other s hi lo _ hi' lo' h

theorem fget_fsat_field (s : Chip) (k hi lo n hi' lo' : Nat) (h : lo ≤ hi) (hh : hi < 64) (h' : lo' ≤ hi')
    (hd : hi' < lo ∨ hi < lo') : fget (fsat s k hi lo n) k hi' lo' = fget s k hi' lo' :=
  fget_fset_field s k hi lo _ hi' lo' h hh h' hd

/-- A register write keeps the register file in canonical form. -/
theorem barSet_wf (s : Chip) (k v : Nat) (h : twf regReset s.bar = true) : twf regReset (barSet s k v).bar = true :=
  twf_tset _ _ _ _ h

end Sys2Proof.Machine
end

