-- ==== Sys2Proof/Laws/Issue.lean ====
section
/-! SUPPORT. What a bundle of one slot does when it issues: its slot's effect, and the strand goes on. -/

namespace Sys2Proof.Machine

/-- The record of a Tongs command's slot is that slot's. -/
theorem slotRec_slot (s : Chip) (t i : Nat) (x : Strand) (c : Instr) (site : Site) (h : siteOf c = some site) :
    (slotRec s t i x c).slot = site.slot := by
  cases c <;> simp only [siteOf, Option.some.injEq, reduceCtorEq] at h <;> subst h <;> try rfl
  case jr f => unfold slotRec recJr; simp only; split <;> rfl
  case waitT f => unfold slotRec recWaitT; simp only; split <;> rfl
  case wfence f => unfold slotRec recWfence; simp only; split <;> rfl

theorem retryCache_quiet (s : Chip) (t : Nat) (h : cacheQuiet s t = true) : retryCache s t = s := by
  unfold cacheQuiet at h
  rw [List.all_eq_true] at h
  unfold retryCache forEach
  have key : ∀ l : List Nat, (∀ i ∈ l, (getStrand s t i).wait ≠ some ⟨.loopCache, 0⟩) →
      l.foldl (fun st i => if (getStrand st t i).wait == some ⟨.loopCache, 0⟩ && (getTile st t).lcOwner == none
        then tryIssue st t i else st) s = s := by
    intro l
    induction l with
    | nil => intro _; rfl
    | cons a r ih =>
      intro hl
      have ha : ((getStrand s t a).wait == some ⟨.loopCache, 0⟩) = false := by
        simpa using hl a (by simp)
      rw [List.foldl_cons, ha, Bool.false_and, if_neg (by simp)]
      exact ih (fun i hi => hl i (by simp [hi]))
  exact key _ (fun i hi => by simpa using h i hi)

theorem inOrder_one (r : SlotRec) (h : r.slot < 4) : inOrder [r] = [r] := by
  unfold inOrder
  have : r.slot = 0 ∨ r.slot = 1 ∨ r.slot = 2 ∨ r.slot = 3 := by omega
  rcases this with e | e | e | e <;> simp [List.filterMap, List.find?, e]

theorem bundleFaults_one (r : SlotRec) (hl : r.legal = true) (hp : r.pz = false) (ho : r.on = true)
    (hf : r.faults = []) : bundleFaults [r] = [] := by
  simp [bundleFaults, clash, hl, hp, ho, hf]

/-- The strand's own fields matter to the tries of its bundle, the staged slots do not. -/
theorem strandRuns_brought (s : Chip) (site : Site) (c : Instr) :
    strandRuns (brought s site c) site.tile site.strand = strandRuns s site.tile site.strand := by
  unfold strandRuns brought
  simp only [getStrand_modStrand_same]
  rfl

/-- A strand that holds a bundle of one slot with nothing in its way: the slot's effect, then the strand goes on
(R194). -/
theorem tryIssue_lone (s : Chip) (site : Site) (c : Instr) (hp : sited s site c = true)
    (hr : strandReady s site.tile site.strand = true) (hf : slotFree s site c = true) :
    tryIssue s site.tile site.strand =
      retire ((heldRec s site c).eff ((heldRec s site c).start s)) site.tile site.strand (heldRec s site c).ctl := by
  simp only [sited, strandReady, slotFree, slotSound, Bool.and_eq_true, decide_eq_true_eq, Bool.not_eq_true', List.isEmpty_iff,
    Option.isNone_iff_eq_none] at hp hr hf
  obtain ⟨⟨⟨⟨hs, ht⟩, hi⟩, hsl⟩, hq⟩ := hp
  obtain ⟨⟨⟨⟨⟨hrun, hpend⟩, hhalf⟩, hpc⟩, hfe⟩, hpo⟩ := hr
  obtain ⟨⟨⟨⟨⟨⟨⟨hslots, hon⟩, hpz⟩, hleg⟩, hfau⟩, hch⟩, hus⟩, hwt⟩ := hf
  have hslot : (heldRec s site c).slot = site.slot := slotRec_slot _ _ _ _ _ _ hs
  have hrecs : slotRecs s site.tile site.strand = [heldRec s site c] := by
    unfold slotRecs
    simp only [hslots]
    exact inOrder_one (heldRec s site c) (by rw [hslot]; exact hsl)
  unfold tryIssue
  simp only [hrun, hpend, Bool.not_true, lowestPend, hhalf,
    if_neg (show ¬ bundleEnd ≤ (getStrand s site.tile site.strand).pc by omega), hfe, hpo, hrecs]
  simp only [Bool.false_eq_true, if_false]
  unfold issue
  simp [hon, hpz, bundleFaults_one _ hleg hpz hon hfau, lowestFault, hch, hus, hwt, startSlots, runSlots, ctlOf]
  split <;> simp_all

theorem sited_brought (s : Chip) (site : Site) (c : Instr) (h : sited s site c = true) :
    sited (brought s site c) site c = true := by
  simp only [sited, Bool.and_eq_true, decide_eq_true_eq] at h ⊢
  refine ⟨h.1, ?_⟩
  have hq := h.2
  unfold cacheQuiet at hq ⊢
  rw [List.all_eq_true] at hq ⊢
  intro j hj
  have := hq j hj
  unfold brought modStrand
  rw [getStrand_setStrand]
  split
  · next he =>
    have : j = site.strand := by
      have hj8 : j < 8 := by simpa using hj
      exact ((skey_inj hj8 h.1.1.2).1 he).2
    subst this
    exact hq _ hj
  · exact this

/-- A bundle of one slot that issues: the slot's effect, then the strand goes on; strands that wait for the loop cache
try again (R154, R194). -/
theorem issue_lone (s : Chip) (site : Site) (c : Instr) (h : issues s site c = true) :
    slotCommand site c s = .next (retryCache (retire
      ((heldRec (brought s site c) site c).eff ((heldRec (brought s site c) site c).start (brought s site c)))
      site.tile site.strand (heldRec (brought s site c) site c).ctl) site.tile) := by
  simp only [issues, strandFree, Bool.and_eq_true, decide_eq_true_eq, List.isEmpty_iff] at h
  obtain ⟨⟨⟨⟨hp, hlast⟩, ⟨⟨hrun, hw⟩, hsl0⟩⟩, hr⟩, hf⟩ := h
  have hpl := hp
  simp only [sited, Bool.and_eq_true, decide_eq_true_eq] at hpl
  obtain ⟨⟨⟨⟨hs, ht⟩, hi⟩, hsl⟩, hq⟩ := hpl
  have hready : strandReady (brought s site c) site.tile site.strand = true := by
    unfold strandReady at hr ⊢
    rw [strandRuns_brought]
    unfold brought
    simp only [getStrand_modStrand_same, getTile_modStrand]
    exact hr
  unfold slotCommand
  rw [if_pos ⟨ht, hi, hsl⟩]
  simp only [hrun, hw, beq_self_eq_true, Bool.and_self, hlast, if_true]
  congr 2
  exact tryIssue_lone (brought s site c) site c (sited_brought s site c hp) hready hf

/-- `WAIT_SATISFIED` on a bundle of one slot that nothing holds any longer (R212). -/
theorem waitSatisfied_lone (s : Chip) (site : Site) (c : Instr) (h : resumes s site c = true) :
    cmdWaitSatisfied site.tile site.strand s = .next (retryCache (retire
      ((heldRec s site c).eff ((heldRec s site c).start s)) site.tile site.strand (heldRec s site c).ctl) site.tile) := by
  simp only [resumes, Bool.and_eq_true] at h
  obtain ⟨⟨⟨hp, hk⟩, hr⟩, hf⟩ := h
  have hpl := hp
  simp only [sited, Bool.and_eq_true, decide_eq_true_eq] at hpl
  unfold cmdWaitSatisfied
  rw [onStrand_next hpl.1.1.1.2 hpl.1.1.2]
  obtain ⟨w, hw, hkind⟩ : ∃ w, (getStrand s site.tile site.strand).wait = some w ∧ (w.kind == WaitKind.counter) = true := by
    cases hw : (getStrand s site.tile site.strand).wait with
    | none => rw [hw] at hk; cases hk
    | some w => exact ⟨w, rfl, by rw [hw] at hk; simpa using hk⟩
  simp only [hw, hkind, if_true, tryIssue_lone s site c hp hr hf]

end Sys2Proof.Machine
end

