-- ==== Sys2Proof/Tests/Slice0.lean ====
section
/-! SUPPORT. Small tests of the model, and witnesses of the hypotheses of the statements. -/

set_option Elab.async false

namespace Sys2Proof.Tests

open Sys2Proof.Machine

-- Small states ---------------------------------------------------------------------------------------------

/-- Fields put at their places in a word: pairs of a value and its low bit. -/
def fields (l : List (Nat × Nat)) : Nat := l.foldl (fun a p => a + p.1 * 2 ^ p.2) 0

/-- A part in stage 4 with every domain on. -/
def upChip : Chip := barSet (fset ({} : Chip) aSEC_STATUS 3 0 4) aPWR_DOMAIN (2 ^ 50 - 1)

/-- A chip with a tile out of reset, tested and zeroed, its strands enabled, and bundles 0 to 31 fetched. -/
def tileUp (c : Chip) (k : Nat) : Chip :=
  modTile (fsetb (fset (fsetb (fsetb c (aTILE_STATUS k) 0 true) (aTILE_STATUS k) 2 true) (aTILE_CTL k) 39 32 0xFF) (aTILE_CTL k) 1 false) k
    (fun y => { y with fetch := [4, 5] })

/-- A state in which strand 2 of tile 3 is `x`. -/
def running (x : Strand) : State := { pending := [], chip := setStrand (tileUp upChip 3) 3 2 x }

/-- A strand at bundle 17 with s2 an address, s3, s5, s6 small numbers. -/
def regs : Strand :=
  { pc := 17, fvec := 100#18
    s := [(2, 0x4000#64), (3, 5#64), (5, 7#64), (6, 3#64), (9, 0x200#64), (11, 0x40#64)] }

/-- A slot of strand 2 of tile 3, the last of its bundle, with predicate p0. -/
def at' (slot : Nat) : Site := ⟨3, 2, slot, false, 0, true⟩

/-- The command brings a bundle that issues in the state where the strand is `x`. -/
def can (x : Strand) (c : Instr) : Bool :=
  match siteOf c with
  | some site => issues (running x).chip site c
  | none => false

/-- The state of `running` with arrival counter 5 at 100. -/
def counting (x : Strand) : State := { running x with chip := modTile (running x).chip 3 (fun y => { y with ac := [(5, 100)] }) }

/-- A strand that holds a bundle of one slot, which waits on counter 5. -/
def holding (c : Instr) (x : Strand) : Strand := { x with slots := [c], wait := some ⟨.counter, 5⟩ }

/-- A bundle whose encoding is illegal is brought to a strand that runs, outside its handler. -/
def illegal (x : Strand) (c : Instr) : Bool :=
  match siteOf c with
  | some site =>
    let r := heldRec (brought (running x).chip site c) site c
    sited (running x).chip site c && site.last && strandFree (running x).chip 3 2 && strandReady (running x).chip 3 2 && !r.legal &&
      r.faults.isEmpty && r.checks.isEmpty && !x.handler
  | none => false

/-- Slots whose encoding each of these bundles gets wrong. -/
def wrongs : List Instr := [.wward (at' 0) ⟨1, 0, 4, 0⟩, .br { at' 0 with slot := 3 } 0]

/-- Words of the banks from an address up hold no flaw and no poison. -/
def clean (x : Strand) (a n : Nat) : Bool := wordsClean (running x) 3 a n

/-- A strand with vectors beside the scalars. -/
def vregs : Strand := { regs with v := [(1, 0x3F8000004000000040400000#2048), (2, 0x40000000BF80000041200000#2048)] }
/-- A strand whose registers from s12 up hold descriptors: addresses in the banks, and zeros elsewhere. -/
def descs : Strand := { regs with s := [(2, 0x4000#64), (3, 5#64), (5, 7#64), (6, 3#64), (9, 0x200#64), (11, 0x40#64),
  (16, BitVec.ofNat 64 (8 * 2 ^ 32 + 0x4000)), (19, 1#64), (21, BitVec.ofNat 64 (0x4000 * 2 ^ 22)),
  (22, BitVec.ofNat 64 (0x4000 * 2 ^ 22 + 0x5000)), (24, BitVec.ofNat 64 (0x4800 * 2 ^ 22 + 0x5000)), (25, 0x6000#64),
  (26, BitVec.ofNat 64 (2 ^ 56 + 0x4000 * 2 ^ 22 + 0x5000)), (27, 0x4000#64), (28, 64#64), (30, BitVec.ofNat 64 (63 * 2 ^ 40))] }
/-- A state in which queue `q` of tile 3 holds one operation of strand 2. -/
def queued (q : Nat) (o : EngOp) (f : Tile → Tile := id) : State :=
  { pending := [], chip := modTile (running descs).chip 3 (fun y => f (setQueue y q [o])) }

/-- A bound over two variables, as a bound over each. -/
theorem below2 {m n : Nat} {p : Nat → Nat → Prop} (h : ∀ i, i < m → ∀ j, j < n → p i j) : ∀ i j, i < m → j < n → p i j :=
  fun i j hi hj => h i hi j hj

/-- A pass over two rows and two columns of 16 elements of a format, by mode and tag. -/
def pass (mode code tag : Nat) : EngOp :=
  { kind := .mm, strand := 2, mode := mode
    w := [fields [(code, 54), (code, 50), (1, 43), (1, 36), (15, 24), (0x4000, 0)], fields [(0x5000, 22), (0xA000, 0)], tag, 0x9000] }

/-- What every clause of MatrixPassRuns asks of a pass. -/
def passReady (s : State) (o : EngOp) : Bool :=
  runsNext s 3 0 o .mm && mmPair (bitsOf (opW o 0) 57 54) (bitsOf (opW o 0) 53 50) &&
    (tagOf (opW o 2)).kind == kindWanted (bitsOf (opW o 0) 57 54) (bitsOf (opW o 0) 53 50) &&
    passTag (tagOf (opW o 2)) (bitsOf (opW o 0) 35 24 + 1) == 0

/-- The tag of leaf `i` of two. -/
def leaf (i kind : Nat) : Tag := tagOf (fields [(i, 23), (1, 3), (kind, 0)])

def entry (i : Nat) : StackEnt := ⟨leaf i 0, 2, 2, List.replicate 4 ⟨0x3F800000, false⟩, false⟩

/-- A root entry of a partial stack with two columns. -/
def rootEntry : StackEnt := ⟨tagOf 0, 1, 2, [⟨0x3F800000, false⟩, ⟨0xBF800000, false⟩], false⟩

/-- An element-wise operation: its mode, and whether it drains. -/
def elementwise (mode drain : Nat) : EngOp :=
  { kind := .mew, strand := 2, mode := mode, w := [fields [(0x5000, 22), (0x4000, 0)], fields [(drain, 22), (0xA000, 0)]] }

/-- The element-wise operations that use an operand, two or none have their operands, and their form is right. -/
def mewReady (o : EngOp) : Bool :=
  let s := queued 0 o (fun y => setStack y 0 [rootEntry])
  let a := opW o 0
  runsNext s 3 0 o .mew && decide (getStack (getTile s.chip 3) (stackNo (o.kc.testBit 4) (o.kc % 4)) = [rootEntry]) &&
    mewOk a (opW o 1) o.mode && inBanks (bitsOf a 21 0) 8 && inBanks (bitsOf a 43 22) 8 && wordsClean s 3 (bitsOf a 21 0) 8 &&
    wordsClean s 3 (bitsOf a 43 22) 8

def copyIn : EngOp := { kind := .xld, strand := 2, w := [fields [(3, 53), (64, 32), (0x4000, 0)], 8] }

def multiply (c x bit45 mask : Nat) : EngOp :=
  { kind := .bmv, strand := 2, w := [fields [(c, 54), (x, 50), (1, 46), (bit45, 45)], mask, 0] }

def storeSet (kc mode : Nat) : EngOp := { kind := .kst, strand := 2, kc := kc, mode := mode, w := [fields [(0x9000, 22), (0xA000, 0)]] }
def loadSet : EngOp := { kind := .kld, strand := 2, kc := 5, w := [fields [(0x9000, 22), (0xA000, 0)]] }

/-- An accumulator set of one node. -/
def oneNode (kind : Nat) : KSet := { nodes := [⟨leaf 0 kind, List.replicate 512 ⟨0x3F800000, false⟩⟩] }

def withSet (k : Nat) (x : KSet) (y : Tile) : Tile := { y with sets := tset (fun _ => ({} : KSet)) k x y.sets }

/-- A record of `c` columns, leaf `i` of two. -/
def record (i kind c : Nat) : PRec :=
  ⟨leaf i kind, c, 1, false, if kind = 2 then ⟨0x3F800000, false⟩ else ⟨0, false⟩, if kind = 2 then ⟨0x40000000, false⟩ else ⟨0, false⟩,
    (List.range c).map (fun k => ⟨0x3F800000 + 0x1000 * k, false⟩)⟩

def combine (k : EngKind) : EngOp :=
  { kind := k, strand := 2, w := [fields [(0x4000, 22), (0x5000, 0)], fields [(0x6000, 22), (0x7000, 0)], fields [(0x8000, 22), (0x9000, 0)]] }

/-- Both records stand in the banks, and the operation runs next. -/
def twoRecords (o : EngOp) (a b : PRec) : State :=
  { pending := [], chip := writeRec (writeRec (queued 3 o).chip 3 0x4000 0x5000 a true) 3 0x6000 0x7000 b true }

def divide : EngOp := { kind := .afinal, strand := 2, w := [fields [(0x4000, 22), (0x5000, 0)], 0x9000] }

/-- A root record of attention partials, alone in the banks. -/
def rootRecord : PRec := { record 0 2 3 with tag := tagOf 2 }

/-- What `pcomb` and `amerge` ask of two records. -/
def soundPair (o : EngOp) (kind w : Nat) : Bool :=
  let a := record 0 kind 3
  let b := record 1 kind 3
  let s := twoRecords o a b
  let dt := bitsOf (opW o 2) 43 22
  let dd := bitsOf (opW o 2) 21 0
  decide (tagOf (tagBits (tagParent a.tag)) = tagParent a.tag) && (a.vals ++ b.vals).all (fun e => !e.pz) &&
    decide ((readTwo s.chip 3 o).2 = (some a, some b)) && pcombOk (opW o 0) (opW o 1) (opW o 2) &&
    combCheck [kind] dd a b == 0 && (overlapLines dt dd (bitsOf (opW o 0) 43 22) (bitsOf (opW o 0) 21 0) w a.cols a.rows).isEmpty &&
    (overlapLines dt dd (bitsOf (opW o 1) 43 22) (bitsOf (opW o 1) 21 0) w a.cols a.rows).isEmpty &&
    !(dataLines dd w a.cols a.rows).contains dt && !a.m.pz && !a.l.pz && !b.m.pz && !b.l.pz

/-- A Fuller operation over streams at fixed places. -/
def stream (k : EngKind) (mode sh n taps l : Nat) : EngOp :=
  { kind := k, strand := 2, mode := mode, kc := 1
    w := [fields [(sh, 53), (n - 1, 40), (taps - 1, 35), (l, 31), (0x4000, 0)], fields [(0x5000, 22), (0x6000, 0)],
      fields [(0x7000, 22), (0x4040, 0)]] }

/-- What every clause of FullerOperationsRun asks of an operation, beside its kind. -/
def streamsReady (o : EngOp) : Bool :=
  let s := queued 2 o
  let f := fulOf o
  runsNext s 3 2 o o.kind && streamClean s 3 f.a (f.n + f.taps - 1) && streamClean s 3 f.b (max f.n (3 * f.span)) && streamClean s 3 f.c f.n &&
    streamClean s 3 f.d f.n && streamOk f.d f.n && !f.bexp

def fullerOwn (k : EngKind) (w : List Nat) : EngOp := { kind := k, strand := 2, w := w }
def transpose (w rows cols src dst sp dp : Nat) : EngOp :=
  { kind := .mvt, strand := 2
    w := [fields [(w, 56), (rows - 1, 44), (src, 22), (dst, 0)], fields [(cols - 1, 44), (sp, 22), (dp, 0)]] }

def digestOp : EngOp := { kind := .dtap, strand := 2, w := [fields [(5, 58), (0x4000, 0)], fields [(9, 48), (3, 24), (1, 23), (40, 0)]] }
def statsOp : EngOp := { kind := .stap, strand := 2, w := [fields [(5, 58), (8, 54), (9, 38), (0x4000, 0)], 30, 0] }

/-- An asynchronous fault that a strand has pending. -/
def lateFault : AFault := ⟨0x2095, 5, 77⟩
def faulting : Strand := { descs with pend := [lateFault, ⟨0x2097, 1, 0⟩], fmode := true, wait := some ⟨.counter, 5⟩ }

/-- Partition 1 runs with tiles 3, 4 and 100 as its logical tiles 0, 1 and 2, and its budgets are open. -/
def withPart (c : Chip) : Chip :=
  let c1 := [3, 4, 100].foldl (fun c t => fset c (aTILE_CTL t) 47 44 1) c
  let c2 := fset c1 (aPART_GROUPS 1) 35 0 (2 ^ tileGroup 3 + 2 ^ tileGroup 100)
  modPart (fset c2 (aPART_STATUS 1) 3 0 3) 1 (fun x =>
    { x with map := [3, 4, 100, 0xFF], budMem := 0xFFFFFFFF, budFab := 0xFFFFFFFF, budMesh := 0xFFFFFFFF })

/-- A job of three devices in slot 1: ranks 0 and 1 near, rank 2 far. -/
def withJob (c : Chip) : Chip :=
  let c1 := fset (fset (fsetb c aFAB_CTL 1 true) aFAB_CTL 63 48 10) (aFJ_STATUS 1) 3 0 3
  { c1 with fab := { c1.fab with jobs := [(1,
    { nchips := 3, rank := 0, job := 77, devs := [(10, false), (11, false), (12, true)], groups := [([0, 1], 0), ([1, 0, 2], 1)] })] } }

/-- A strand with far addresses of ranks 1 and 2 and descriptors of fabric operations. -/
def fabRegs : Strand := { descs with s := [(2, BitVec.ofNat 64 (fields [(3, 60), (1, 48), (0x1008, 0)])),
  (3, BitVec.ofNat 64 (fields [(3, 60), (2, 48), (0x1108, 0)])), (5, 7#64), (12, BitVec.ofNat 64 (fields [(5, 58), (0x4008, 0)])),
  (13, BitVec.ofNat 64 (fields [(3, 60), (1, 48), (0x10F0, 0)])), (14, BitVec.ofNat 64 (fields [(7, 58), (0x130, 0)])),
  (18, BitVec.ofNat 64 (fields [(5, 58), (0x4008, 0)])), (19, BitVec.ofNat 64 (fields [(3, 60), (1, 48), (1, 47), (0x10F0, 0)])),
  (20, BitVec.ofNat 64 (fields [(5, 58), (0x6000, 22), (0x7000, 0)])), (21, BitVec.ofNat 64 (fields [(1, 48), (0x8000, 22), (0x9000, 0)])),
  (22, BitVec.ofNat 64 (fields [(0xFFF, 48), (5, 0)])),
  (24, BitVec.ofNat 64 (fields [(1, 40), (5, 32), (0x6000, 0)])), (25, BitVec.ofNat 64 (fields [(40, 32), (7, 24), (0x4008, 0)]))] }

/-- Strand 2 of tile 3 may send fabric requests of job slot 1. -/
def fabS : State := { pending := [], chip := withJob (withPart (running fabRegs).chip) }

/-- A granule of rank 2 that the strand holds. -/
def granule : Granule := ⟨⟨1, 3, 2⟩, 2, 0x1100, List.replicate 256 1#8, 0⟩

/-- Tiles 3, 4 and 100 of partition 1 run, and messages are on their way. -/
def sending (l : List Flight) : State :=
  { pending := [], chip := { withPart (tileUp (tileUp (running fabRegs).chip 4) 100) with flights := l } }

/-- A message of two words from tile 3 to a tile. -/
def flight (id dst : Nat) (absent arrived : Bool) : Flight :=
  ⟨id, 3, 2, dst, absent, 5, 0x6000, 0x4000, 7, 0, [⟨123456, false⟩, ⟨2 ^ 63 + 1, false⟩], false, false, arrived⟩

def waits (s : State) (id : Nat) (f : Flight) : Bool :=
  decide (findFlight s.chip id = some f) && decide (s.chip.flights.filter (fun g => g.id == id) = [f]) && tileQuiet s.chip f.src &&
    tileQuiet s.chip f.dst && !f.cut
def upS : State := { pending := [], chip := upChip }

/-- A state with its chip changed. -/
def mod' (s : State) (f : Chip → Chip) : State := { s with chip := f s.chip }

/-- The state after a command that is taken. -/
def after (c : Instr) (s : State) : State :=
  match exec c s with
  | .next t => t
  | _ => s

/-- All 32 channels in service, with two ranks each at the best speed, and not yet in a map. -/
def trainedS : State := mod' upS (fun c =>
  let one (b : Nat) (c : Chip) : Chip := barSet c (aMEM_STATUS b) (fields [(1, 2), (2, 4), (2, 34), (2, 36), (8, 40)])
  let c1 := (List.range 32).foldr one c
  { c1 with mem := { c1.mem with trained := true } })

/-- The memory map enabled over all of them, and 8 units of host-managed memory. -/
def memS : State := mod' upS (fun c =>
  let one (b : Nat) (c : Chip) : Chip := barSet c (aMEM_STATUS b) (fields [(1, 2), (1, 3), (2, 4), (2, 34), (2, 36), (8, 40)])
  let c1 := barSet (barSet ((List.range 32).foldr one c) aMEM_MAP (fields [(1, 0), (2, 32), (16, 40)])) aMEM_HDM (fields [(8, 32)])
  { c1 with mem := { c1.mem with trained := true, cap := 2 ^ 37 } })

/-- Partition 1 has a grant of interleaved memory and one of the local region of channel 2. -/
def grantedS : State := mod' memS (fun c =>
  barSet (barSet c (aGRANT 0) (fields [(1, 63), (1, 58), (4, 32), (2, 0)])) (aGRANT 1) (fields [(1, 63), (1, 58), (1, 57), (2, 52), (4, 0)]))
/-- A block of `n` bytes with fields at their places. -/
def block (n : Nat) (l : List (Nat × Nat)) : List (BitVec 8) := leBytes n (fields l)

/-- A Swage query over one head of dimension 64 (its row of zeros), for one group of two pages. -/
def query : List (BitVec 8) :=
  block 64 [(1, 0), (5, 8), (1, 40), (1, 48), (0x3F800000, 64), (77, 96), (9, 128), (1, 152), (200, 192), (0x100000, 224), (1, 288),
    (4, 320), (0x4000, 352), (0x6000, 384)] ++ List.replicate (rowPitch 1 64) 0#8

/-- A page descriptor: its VALID bits, its page number, its body. -/
def pageDesc (valid page : Nat) : List (BitVec 8) :=
  block 64 [(valid, 0), (77, 64), (9, 96), (1, 120), (page, 128), (0x200000 + page * 0x8000, 192)]

def append (i seq : Nat) : List (BitVec 8) :=
  block 64 [(2, 0), (5, 8), (i, 32), (0x100000, 64), (seq, 128), (9, 160)] ++ List.replicate (2 * rowPitch 1 64) 7#8

def pageInit : List (BitVec 8) := block 64 [(3, 0), (5, 8), (0x100000, 64)] ++ pageDesc 0 1

/-- Unit 2 is enabled and serves partition 1, and two descriptors stand in its local region. -/
def swageS : State := mod' (mod' grantedS (fun c => withPart (tileUp c 3))) (fun c =>
  let c1 := fset (fsetb c (aSWAGE_CTL 2) 0 true) (aSWAGE_PART 1) 4 0 6
  { c1 with mem := { c1.mem with dram := mwrite [] (mbKey 2 (0x1C00000000 + 0x100000)) (pageDesc 0b1011 0 ++ pageDesc 1 1) } })

def command (r : List (BitVec 8)) : SwCmd := { no := 0, part := 1, sender := 7, record := Machine.clean r }

/-- Unit 2 has a command in context 0. -/
def serving (c : SwCmd) : State := mod' swageS (fun s => { s with mem := { s.mem with units := [(2, { ctxs := [(0, some c)], count := 1 })] } })

/-- The groups of the query as its descriptors give them. -/
def groupsRead : List (List (List MByte) × Nat) := (readGroups 2 (command query) 1 0 swageS.chip).2
def paged : SwCmd := { command query with stage := .pages, groups := [([Machine.clean (pageDesc 0b1011 0), Machine.clean (pageDesc 1 1)], 0)] }

/-- A result that waits to be written. -/
def result : SwRec := ⟨tagOf 2, ⟨⟨0x3F800000, false⟩, ⟨0x40000000, false⟩, List.replicate 64 ⟨0x3F800000, false⟩⟩⟩

/-- What SwageWrites asks of a command beside its code. -/
def writes (c : SwCmd) : Bool :=
  let s := serving c
  decide (ctxAt s.chip 2 0 = some c) && !swFailed s.chip 2 && swTurn s.chip 2 c && !bitOf (barGet s.chip (aPART_DMAP 1)) 0 && allQuiet s.chip &&
    inSet s.chip 2 && localSound s.chip 2 && c.record.all (fun b => !b.2) && localHolds s.chip 2 (swField c.record 8 8) 64

/-- The descriptor that a command names. -/
def named (c : SwCmd) : List MByte := (swRead (serving c).chip 2 1 (swField c.record 8 8) 64).2
def hostAt (a : Nat) : Nat := 2 * 2 ^ 60 + a

/-- A submission queue's context on engine 2 for partition 1, with its ring in host memory. -/
def subCtx (state head tail : Nat) : List (BitVec 8) :=
  block 64 [(hostAt 0x10000, 0), (4, 64), (1, 72), (2, 80), (1, 96), (3, 112), (6, 128), (head, 160), (tail, 192), (state, 224)]

/-- The same with its ring in device memory, by the radio's leave or without it. -/
def devCtx (state head tail radio : Nat) : List (BitVec 8) :=
  block 64 [(0x2010000, 0), (4, 64), (1, 72), (2, 80), (radio, 88), (1, 96), (3, 112), (6, 128), (head, 160), (tail, 192), (state, 224)]

/-- A completion queue's context, whose interrupt is moderated. -/
def doneCtx (state head tail : Nat) : List (BitVec 8) :=
  block 64 [(hostAt 0x20000, 0), (4, 64), (2, 72), (1, 96), (3, 112), (head, 160), (tail, 192), (state, 224), (500, 256)]

/-- A linear copy of `n` elements of 64 bytes into tile 3's banks. -/
def copyDesc (src n cnt : Nat) : List (BitVec 8) := block 64 [(1, 0), (63, 16), (cnt, 48), (src, 64), (2 ^ 60 + 0x8000, 128), (n, 192)]

/-- The queue manager is ready and engine 2 serves; two queues' contexts are cached, with transfers. -/
def queuesS (cs : List (Nat × List (BitVec 8))) (xs : List (Nat × List Xfer)) : State :=
  mod' (mod' grantedS (fun c => withPart (tileUp (fset c aQM_TABLE 47 26 3) 3))) (fun c =>
    let c1 := fsetb (fsetb c aQM_CTL 0 true) aQM_CTL 2 true
    let c2 := fset (fsetb c1 (aDMA_ENG_CTL 2) 0 true) (aDMA_ENG_STATUS 2) 3 0 1
    { c2 with qm := { c2.qm with cached := cs, lru := cs.map (·.1), xfers := xs } })

/-- The staging registers of the physical function hold 64 bytes. -/
def staging (l : List (BitVec 8)) (s : State) : State := mod' s (fun c => putStage c (kStage 0) l)

def copy (stage : XStage) (next : Nat) : Xfer := { slot := 3, d := copyDesc 0x2012300 4 0x80, engine := 2, next := next, stage := stage }

/-- A stream of two panes of 192 bytes into stream 3 of tile 3. -/
def paneXfer (next : Nat) : Xfer :=
  { slot := 3, engine := 2, next := next
    d := block 64 [(5, 0), (127, 16), (7, 48), (0x2012300, 64), (2 ^ 60 + 0x8000, 128), (2, 192), (3, 224), (0x4000, 368)] }

def paneS (whole next : Nat) : State :=
  mod' (queuesS [(5, subCtx 2 3 4), (6, doneCtx 1 0 0)] [(5, [paneXfer next])]) (fun c => modTile c 3 (fun y =>
    { y with streams := [(3, { on := true, queue := 5, panes := 2, whole := whole })] }))
/-- Bytes with fields put at their places: place, size, value. -/
def put (n : Nat) (l : List (Nat × Nat × Nat)) : List (BitVec 8) := l.foldl (fun b x => bSet b x.1 x.2.1 x.2.2) (List.replicate n 0#8)

/-- A plan image of one phase of two cycles of work, one carrier, and one configuration, before its hash. -/
def planBody (wcet : Nat) : List (BitVec 8) :=
  put 720 [(0,1,1),(2,1,1),(3,1,1),(4,2,1),(6,2,1),(8,4,1),(12,2,2),(14,1,1),(16,8,128),(24,8,144),(32,8,672),(40,8,720),(60,4,720),(72,8,160),
    (128,2,1),(130,2,1),(136,2,1),(138,2,0),
    (144,1,3),(145,1,1),(146,2,10),(148,1,0),(149,1,0),(150,1,9),(151,1,2),(152,2,7),(158,1,5),
    (160,1,1),(168,4,0x3F800000),(172,4,0x3F800000),(176,4,0x3F800000),
    (672,2,0),(674,2,1),(676,1,0),(677,1,3),(678,1,0),(679,1,5),(680,4,1000),(684,4,2000),(688,4,wcet),(705,1,0xFF),(706,1,0xFF)]

/-- Partition 0 holds tiles 3 and 4 as its logical tiles 0 and 1, with a grant of interleaved memory. -/
def radioS : State := mod' grantedS (fun c =>
  let c1 := [3, 4].foldl (fun c t => fset c (aTILE_CTL t) 47 44 0) (tileUp (tileUp c 3) 4)
  let c2 := barSet c1 (aGRANT 1) (fields [(1, 63), (8, 30), (1, 0)])
  modPart (fset c2 (aPART_GROUPS 0) 35 0 (Nat.lor (2 ^ tileGroup 3) (2 ^ tileGroup 4))) 0 (fun x => { x with map := [3, 4] }))

/-- The proof of the plan whose image stands in that grant is under way. -/
def proving (img : List (BitVec 8)) : State := mod' radioS (fun c =>
  rdMod (devWriteRaw c 16 (8 * 2 ^ 21) (Machine.clean img)).1 (fun r => { r with proving := some (8 * 2 ^ 21) }))

def planImage (wcet hash : Nat) : List (BitVec 8) := bSet (planBody wcet) 64 8 hash
/-- The image, with the first bytes of its hash. -/
def fits : List (BitVec 8) := planImage 500 6335983790876120229

/-- The plan that the image holds: its one phase, its carrier, and the whole. -/
def thePhase : Phase :=
  { strike := 0, tile := 1, tier := 0, prof := 3, strand := 0, startCnt := 5, start := 1000, deadline := 2000, wcet := 500, trig := 0,
    xfers := [], codeNs := 0, codeEng := 0, chan := 255, port := 255, memBytes := 0, fhBytes := 0 }
def theCarrier : Carrier :=
  { scs := 3, ant := 1, nprb := 10, mode := 0, port := 0, bfpw := 9, lag := 2, eaxcUl := 7, eaxcDl := 0, eaxcRa := 0, peer := 5, nband := 0 }
def thePlan : Plan :=
  { period := 1, tiers := 1, cycle := 1, ntile := 2, nspare := 1, carriers := [theCarrier], tierTab := [(1, 1), (1, 0)], phases := [thePhase],
    sjlBase := 0, sjlSize := 0, hash := [0xa5#8, 0xd4#8, 0xcd#8, 0x35#8, 0xb0#8, 0xef#8, 0xed#8, 0x57#8] }

/-- The plan runs, in its full or its reduced profile, at Strike 20. -/
def striking (reduced reproof : Bool) (s : State) : State := mod' s (fun c => fset (rdMod c (fun r =>
  { r with plan := some thePlan, running := true, reduced := reduced, reproving := reproof, number := 20, place := [3, 4] })) aSTRIKE_STATUS 63 32 20)

/-- The state of `proving` where Strikes have another period than the plan's. -/
def otherPeriod : State := mod' (proving fits) (fun c => fset c aSTRIKE_CTL 3 2 2)

/-- What a completed proof reads of the image at `a`, and whether it is whole. -/
def proofReads (s : State) (a : Nat) : Bool × List (BitVec 8) × Chip :=
  let s1 := fsetb (rdMod s.chip (fun r => { r with proving := none })) aPLAN_STATUS 0 false
  let h := devReadChecked s1 0 64 a 128
  let n := bNat (unmark h.2.1) 60 4
  let r := devReadChecked h.1 0 64 a n
  (h.2.2 == 0 && decide (128 ≤ n) && decide (n ≤ 2 ^ 26) && r.2.2 == 0 && !r.2.1.any (·.2) && granted s1 0 a n, unmark r.2.1, r.1)

/-- No plan runs, and a carrier is muted. -/
def stopped : State := mod' (striking false false radioS) (fun c => rdMod c (fun r => { r with running := false, muted := [0] }))
/-- The carrier's port has its lag, or takes longer than it. -/
def lagging : State := mod' stopped (fun c => fset c (aFH 0 0) 27 26 0)

/-- Both coding halves serve, and ring 3 of half 0 has a block in service. -/
def codingJob : CodeJob := { index := 2, tile := 1, results := 0x6000, log2n := 4, d := block 64 [(9, 0), (6, 8 * 48), (0x1122334455667788, 448)] }
def codingS (js : List CodeJob) : State := mod' radioS (fun c =>
  setRing (fset (fset c (aCODE_STATUS 0) 3 0 1) (aCODE_STATUS 1) 3 0 1) 3 { jobs := js })

/-- A running plan on a part with no more than its tiles. -/
def phaseS : State := striking false false (mod' upS (fun c =>
  let c1 := [3, 4].foldl (fun c t => fset c (aTILE_CTL t) 47 44 0) (tileUp (tileUp c 3) 4)
  modPart (fset c1 (aPART_GROUPS 0) 35 0 (Nat.lor (2 ^ tileGroup 3) (2 ^ tileGroup 4))) 0 (fun x => { x with map := [3, 4] })))
/-- Port 0 is up for the plan's carrier, with a steering entry to logical tile 1, and no trigger or capture is armed. -/
def fronthaulS : State := mod' phaseS (fun c =>
  let c1 := barSet (barSet c (aRXMAP_A 0 7) (fields [(1, 63), (5, 57), (1, 49), (7, 32), (0x4000, 0)])) (aRXMAP_B 0 7) (fields [(1, 0), (4, 16)])
  fsetb (fset (fsetb (fset (fset c1 (aFH 0 8) 3 0 2) (aFH 0 0) 49 36 1500) (aFH 0 0) 0 true) aPTP_CTL 15 8 0xFF) aSTRIKE_STATUS 1 true)

def frame (len : Nat) (ok : Bool) (body : FrameBody) : Frame :=
  { dst := 0x011B19000000, ethertype := 0xAEFE, subtype := 0, tags := 0, len := len, fcsOk := ok, body := body }

/-- An uplink frame of two blocks, the first with an exponent. -/
def upBlocks (e : Nat) : List (Nat × List Nat) :=
  [(e, (List.range 24).map (fun i => i * 20 % 512)), (0, (List.range 24).map (fun i => i * 21 % 512))]
def uplink (ok : Bool) : Frame := frame 200 ok (.uplane 7 3 true false false 20 2 0 9 (upBlocks 1))

def received (n tile : Nat) : Section := ⟨7, tile, 0x4040, (List.range n).map (fun i => i * 0x1010101)⟩
def leaving (limit : Int) : EgFrame :=
  { queue := 5, launch := -10, limit := limit, len := 100, carrier := 0, kind := 1, eaxc := 3, air := 20, symbol := 1, start := 0, blocks := [], payload := [] }

/-- Port 0 with this content. -/
def portIs (p : FhPort) : State := mod' fronthaulS (fun c => setPort c 0 p)
/-- Port 0 in this state. -/
def portAt (n : Nat) : State := mod' (portIs { frames := [leaving 1000] }) (fun c => fset c (aFH 0 8) 3 0 n)

/-- The servo steers base 0; bases stand at these times. -/
def steered : State := mod' upS (fun c => fsetb c aPTP_CTL 0 true)
def based : State := mod' upS (fun c => { c with time := { c.time with tb := [(0, 5 * 2 ^ 34 * 1000000000), (1, 2 ^ 34 * 7 + 5), (2, 2 ^ 60)] } })
def servoAt (a b : Nat) : State := mod' upS (fun c => fset (fset c aPTP_STATUS 3 0 a) aPTP_STATUS 11 8 b)

/-- Trigger 3 over base 2: its PERIODIC, its target in nanoseconds, its period. -/
def trigger (per : Nat) (tgt period : Nat) : State := mod' based (fun c =>
  barSet (barSet (barSet (barSet c (aTT_CTL 3) (fields [(1, 63), (per, 62), (2, 60)])) (aTT_CTL 3 + 8) (tgt / 10 ^ 9)) (aTT_CTL 3 + 16)
    (tgt % 10 ^ 9 * 2 ^ 16)) (aTT_CTL 3 + 24) period)
/-- Capture unit 3 over base 2 is armed for pin 1, rising, and holds a stamp or not. -/
def capture (full : Nat) : State := mod' based (fun c => barSet c (aTC_CTL 3) (fields [(1, 63), (2, 61), (3, 58), (1, 54), (full, 44)]))
/-- Partition 1 in a state, over no memory: it holds the groups of tiles 3 and 100. -/
def partAt (n : Nat) (f : Part → Part := id) : State := mod' upS (fun c => modPart (fset (withPart (tileUp c 3)) (aPART_STATUS 1) 3 0 n) 1 f)
/-- The same beside grants of memory, with bytes in it. -/
def partOver (n : Nat) (bytes : List (BitVec 8)) (f : Part → Part := id) : State := mod' grantedS (fun c =>
  (devWriteRaw (modPart (fset (withPart (tileUp c 3)) (aPART_STATUS 1) 3 0 n) 1 f) 16 0x2002000 (Machine.clean bytes)).1)

/-- A move of tile 3's group that has been announced. -/
def leavingGroup : Move := ⟨.manager, 2 ^ tileGroup 3, 90, 2, 7, false⟩

/-- Partition 1 has tokens to lend, is regulated, and holds these requests. -/
def regulated (l : List (Nat × Nat × Nat)) (mem : Nat) : State := mod' (partAt 3 (fun x =>
  { x with heldReq := l, budMem := mem, budFab := 9, usedMem := 1000000000 })) (fun c => fset (fsetb c (aPART_CTL 1) 1 true) (aBW_CTL 1) 63 0 (2 ^ 64 - 1))
/-- The same without a charge, so that its buckets are full. -/
def tokens (l : List (Nat × Nat × Nat)) : State := mod' (regulated l 5) (fun c => modPart c 1 (fun x => { x with usedMem := 0 }))

/-- Partition 1 has been saved, and is idle and empty in `restorable`. -/
def saveable : State := partOver 5 [1] (fun x => { x with map := [0xFF, 0xFF] })
def restorable : State := mod' (partOver 1 [1] (fun x => { x with map := [0xFF, 0xFF] })) (fun c => { c with images := [imageOf saveable.chip 1] })

/-- Mailbox 3 has agreed on a version and its rings hold `n` messages each. -/
def mailbox (n : Nat) : State := mod' upS (fun c =>
  setHasp c 3 { agreed := true, version := 16, toTenant := List.replicate n ⟨1, 5, 2, 2, 0, [1, 1]⟩, toManager := List.replicate n ⟨1, 5, 2, 2, 0, [1, 1]⟩ })
/-- Partition 1 is controlled through mailbox 3 and has been told of a move. -/
def toldToVacate : State := mod' (mailbox 0) (fun c =>
  fset (modPart (withPart c) 1 (fun x => { x with moves := [leavingGroup] })) (aPART_CTL 1) 47 42 3)
/-- Links in a state, enabled. -/
def links (l : List (Nat × Nat)) (s : State) : State :=
  mod' s (fun c => l.foldl (fun c x => fsetb (fset c (aFL_STATUS x.1) 47 44 x.2) (aFL_CTL x.1) 0 true) c)
def fabIs (f : Fab → Fab) (s : State) : State := mod' s (fun c => { c with fab := f c.fab })
/-- Links 7 and 9 are up. -/
def twoLinks : State := links [(7, 2), (9, 2)] upS
def linkField (l hi lo v : Nat) (s : State) : State := mod' s (fun c => fset c (aFL_STATUS l) hi lo v)

/-- A load of strand 2 of tile 3, on its way to a device over a link. -/
def request (dest q link : Nat) : FReq :=
  { dest := dest, seqNo := q, rank := 1, owner := ⟨1, 3, 2⟩, kind := 0, addr := 0x1000, operand := 8, expect := 0, data := [], poison := 0,
    cnt := none, link := link, epoch := 0, op := 0, rd := some 4, covered := false, off := 0 }
/-- Both links are up, entry 0 of the map is link 9, and requests went out over each. -/
def routed : State := fabIs (fun f => { f with reqs := [request 12 5 9, request 12 6 7, request 10 8 9] })
  (mod' twoLinks (fun c => fset (fset c aFAB_CTL 63 48 10) (aFAB_LINKMAP 0) 4 0 9))

/-- The fabric serves the job, and Ward entry 3 admits device 11's requests to partition 1. -/
def warded (s : State) : State := mod' s (fun c =>
  barSet (barSet (fsetb c aFAB_CTL 0 true) (aFW_A 3) (fields [(2, 62), (1, 58), (7, 55), (11, 32), (5, 0)])) (aFW_B 3) (fields [(77, 48)]))
def arriving (kind key : Nat) (data : List (BitVec 8)) : FabReq :=
  { src := 11, job := 77, key := key, seqNo := 0, kind := kind, addr := 2 ^ 47 + 0x4008, operand := if kind = 0 then 16 else 0, expect := 0, data := data,
    poison := 0, cnt := some 5 }
def hotUpdate : HotUp := ⟨0x2000000 / 64, 1, { arriving 0x10 5 [] with addr := 0x2000000, operand := 5 }⟩

/-- The load stands alone in the replay store, and its register is busy. -/
def awaiting : State := fabIs (fun f => { f with reqs := [request 11 5 9] })
  (mod' fabS (fun c => setStrand c 3 2 { getStrand c 3 2 with busy := [(codeS 4, true)] }))

/-- A job image of two devices, in memory that partition 1 has a grant of. -/
def jobImage : List (BitVec 8) := block 40 [(2, 0), (99, 32), (1, 64), (10, 128), (11, 160)]
def jobOver (l : List (BitVec 8)) : State := mod' (warded grantedS) (fun c =>
  fset (devWriteRaw (withJob (withPart (tileUp c 3))) 16 0x2000000 (Machine.clean l)).1 (aFJ_IMAGE 1) 47 0 0x2000000)

def multicast : FOp :=
  { id := 3, owner := ⟨1, 3, 2⟩, kind := 2, left := 64, code := 0, lcnt := none, laddr := 0, group := 0, receivers := [(0, 0, true), (1, 0, true)] }
def gathered : Gather := ⟨1, 1, ⟨1, 3, 2⟩, 0x1000, [1#8, 2#8], false⟩
def timed (done : Bool) : State := fabIs (fun f => { f with timeDone := done })
  (links [(9, 2)] (mod' upS (fun c => { fsetb c aFAB_TIME 0 true with time := { c.time with tb := [(1, 2 ^ 50)] } })))

/-- A record of two columns, the keys of a group of two ranks and of one of one rank, and where its result goes. -/
def reduced : PRec := ⟨tagOf 0, 2, 1, false, ⟨0, false⟩, ⟨0, false⟩, [⟨5, false⟩, ⟨6, false⟩]⟩
def keyOf (group : Nat) : RedKey := ⟨1, group, 7, 0, 0⟩
def headOf' : RedHead := ⟨0, 0, 5, 0x4000, 0x6000⟩
def reducing : Reduction := ⟨keyOf 0, headOf', reduced, [0], [normRec reduced], [(normRec reduced).tag], [], false⟩
def groupsS : State := fabIs (fun f => { f with jobs := f.jobs.map (fun j => (j.1, { j.2 with groups := [([0, 1], 0), ([0], 0)] })) }) fabS
def bootIs (f : Boot → Boot) (s : State) : State := mod' s (fun c => { c with boot := f c.boot })
def rasIs (f : Ras → Ras) (s : State) : State := mod' s (fun c => { c with ras := f c.ras })
def obsIs (f : Obs → Obs) (s : State) : State := mod' s (fun c => { c with obs := f c.obs })
def inStage (n : Nat) (s : State) : State := mod' s (fun c => fset c aSEC_STATUS 3 0 n)

/-- An image of type 1 for key slot 2 whose body is three bytes, and a boot parameter block of two entries. -/
def imageBody : List (BitVec 8) := [1#8, 2#8, 3#8]
def hearthImage : List (BitVec 8) := block 16 [(1, 0), (2, 8), (5, 32), (3, 96)] ++ sha3 imageBody ++ List.replicate 4048 0#8 ++ imageBody
def paramBlock : List (BitVec 8) := block 24 [(6, 0), (0x10, 8), (2, 16), (5, 64)]
/-- A load of these bytes from the host is under way. -/
def loading (l : List (BitVec 8)) (s : State) : State :=
  mod' (bootIs (fun x => { x with load := some ⟨0x1000, l.length⟩ }) s) (fun c => { c with mem := { c.mem with host := mwrite c.mem.host 0x1000 l } })

/-- The Hearth runs; a session has begun; it has its key. -/
def hearthS : State := bootIs (fun b => { b with hearth := some (9, 1) }) upS
def sessionS : State := bootIs (fun b => { b with session := some [1#8] }) hearthS
def keyedS : State := bootIs (fun b => { b with sessionKey := some [7#8, 8#8], ideKeys := [(0, [1#8]), (5, [2#8])] }) sessionS

def testing (g : Nat) (s : State) : State := rasIs (fun r => { r with tests := [⟨g, 16, [], false⟩] }) s
def domain (d : Nat) (on : Bool) (s : State) : State := mod' s (fun c => fsetb c aPWR_DOMAIN d on)

/-- Tiles 3 and 21 have caps, and the limit is 800 W. -/
def capped : State := mod' fabS (fun c => fset (fset (fset c (aTILE_GOV 3) 15 8 100) (aTILE_GOV 21) 15 8 50) aPWR_LIMIT 10 0 800)
def powerStep : Machine.Step := ⟨[(3, 100)], false, 900, some 30⟩
def stepped : State := rasIs (fun r => { r with below := 100, steps := [powerStep, ⟨[], true, 900, none⟩] }) capped
def noSteps : State := rasIs (fun r => { r with above := 1000, steps := List.replicate 3 ⟨[], true, 900, none⟩ }) upS

/-- Watches 5 and 6 take pieces of partition 1, which are on their way; watch 6 has one already. -/
def watchCfg : List (BitVec 8) := block 64 [(1, 0), (2, 8), (1, 16), (1, 24), (8, 64)]
def piece (id w : Nat) : TapPiece := { id := id, watch := w, part := 1, data := .digest 0 false [1#8, 2#8] false }
def watching : State := mod' (obsIs (fun o => { o with watches := [(5, { cfg := watchCfg }), (6, { cfg := watchCfg, came := [0], hashed := [1#8], total := 1, next := 1 })] }) upS)
  (fun c => { fsetb c aTW_CTL 0 true with taps := [piece 1 5, piece 2 6, piece 3 900] })

/-- The trace unit in a state, over every class. -/
def tracing (st : Nat) (ctl : List (Nat × Nat)) (s : State) : State := mod' s (fun c =>
  fset (barSet c aTR_CTL (fields ([(1, 0), (0xFFFF, 48), (4, 31)] ++ ctl))) aTR_STATUS 2 0 st)
def traced : List (BitVec 8) := traceBytes (List.replicate 8 0#8) 3 4 5 6 7

-- Witnesses ---------------------------------------------------------------------------------------------
-- Witnesses: Tongs -----------------------------------------------------------------------------------------

theorem witness_ScalarAndPredicateResults :
    ([.scalarAlu (at' 0) ⟨7, 5, 6, 1⟩, .scalarShift (at' 1) ⟨7, 5, 6, 5⟩, .scalarMul (at' 1) ⟨7, 5, 6, 8⟩, .scalarMulh (at' 0) ⟨7, 5, 6, 9⟩,
      .scalarMinmax (at' 0) ⟨7, 5, 6, 0xB⟩, .scalarAluImm (at' 0) 0x21 ⟨7, 5, 0x7FF⟩, .scalarShiftImm (at' 0) 0x25 ⟨7, 5, 63⟩,
      .li (at' 0) ⟨7, 0xFFFF⟩, .ins16 (at' 0) ⟨7, 0xFFFF⟩, .rng (at' 1) ⟨7, 2, 6, 0⟩, .predicateLogic (at' 0) ⟨1, 2, 3, 0⟩,
      .cmp (at' 0) ⟨1, 5, 6, 0⟩, .cmpImm (at' 0) 0x2D ⟨1, 5, 0x400⟩] : List Instr).all (can regs) = true := by decide +kernel

theorem witness_ControlFlow :
    ([.nop (at' 3), .sync (at' 0), .br (at' 0) 0x1FFFFF, .call (at' 0) 5, .jr (at' 0) ⟨0, 3, 0, 0⟩, .loop (at' 0) 6 4, .loop (at' 0) 0 4,
      .loopc (at' 0) 6 4, .halt (at' 0)] : List Instr).all (can regs) = true ∧ rdS regs 6 % 2 ^ 16 ≠ 0 ∧
    can { regs with handler := true, fpc := 9#18 } (.rfe (at' 0)) = true := by decide +kernel

theorem witness_CountersAndSpecials :
    ([.wait (at' 0) ⟨5, 5, 0, 0⟩, .waitT (at' 0) ⟨5, 2, 3, 0⟩, .acadd (at' 0) ⟨63, 5, 0, 0⟩, .acset (at' 0) ⟨0, 5, 0, 0⟩,
      .mfsr (at' 0) ⟨7, 0, 0⟩, .mtsr (at' 0) ⟨0, 5, 0x10⟩, .wward (at' 0) ⟨0, 0, 4, 0⟩, .wfence (at' 0) ⟨0, 0, 4, 0⟩,
      .wfence (at' 0) ⟨0, 5, 4, 1⟩] : List Instr).all (can regs) = true := by decide +kernel

theorem witness_WaitsAndBundles :
    (sited (running regs).chip { at' 1 with last := false } (.li { at' 1 with last := false } ⟨7, 0⟩) = true ∧
      strandFree (running regs).chip 3 2 = true) ∧
    (waitsFor (counting regs).chip (at' 0) (.wait (at' 0) ⟨5, 5, 0, 0⟩) ⟨.counter, 5⟩ = true ∧
      signed 32 (rdS (strandOf (counting regs) (at' 0)) 5) < acGet (counting regs).chip 3 5) ∧
    waitsFor (modTile (running regs).chip 3 (fun y => { y with qMat := List.replicate 8 { kind := .mm, strand := 1, w := [] } })) (at' 3)
      (.mew (at' 3) ⟨12, 13, 0, 0⟩) ⟨.queue, 0⟩ = true ∧
    resumes (running (holding (.wait (at' 0) ⟨5, 5, 0, 0⟩) regs)).chip (at' 0) (.wait (at' 0) ⟨5, 5, 0, 0⟩) = true ∧
    (resumes (setStrand (counting (holding (.waitT (at' 0) ⟨5, 6, 3, 0⟩) regs)).chip 3 2
        { holding (.waitT (at' 0) ⟨5, 6, 3, 0⟩) regs with timedOut := true }) (at' 0) (.waitT (at' 0) ⟨5, 6, 3, 0⟩) = true ∧
      signed 32 (rdS regs 6) < acGet (counting regs).chip 3 5) := by decide +kernel

theorem witness_IllegalEncodingFaults :
    wrongs.all (illegal { regs with fmode := true }) = true ∧ wrongs.all (illegal { regs with fmode := false }) = true := by
  decide +kernel

theorem witness_ScalarMemory :
    [0x40, 0x41, 0x43, 0x46].all (fun op => can regs (.scalarLoad (at' 1) op ⟨7, 2, 1⟩)) = true ∧
    [0x48, 0x49, 0x4A, 0x4B].all (fun op => can regs (.scalarStore (at' 1) op ⟨5, 2, 1⟩)) = true ∧
    can regs (.amo (at' 1) ⟨7, 2, 5, 1⟩) = true ∧ can regs (.cas (at' 1) ⟨7, 2, 5, 0⟩) = true ∧
    clean regs 0x4000 16 = true ∧ rdSm regs 5 = false := by decide +kernel

theorem witness_VectorMemoryAndMoves :
    ([.vld (at' 2) ⟨1, 2, 0⟩, .vst (at' 2) ⟨1, 2, 0⟩, .vlds (at' 2) ⟨1, 2, 11, 2⟩, .vlds (at' 2) ⟨1, 2, 11, 3⟩, .vsts (at' 2) ⟨1, 2, 11, 2⟩,
      .mvsv (at' 2) ⟨1, 2, 5, 0⟩, .mvvs (at' 2) ⟨7, 1, 5, 1⟩, .vbc (at' 2) ⟨1, 5, 0, 2⟩, .vcopy (at' 2) ⟨3, 1, 0, 6⟩] : List Instr).all
      (can vregs) = true ∧
    clean vregs 0x4000 256 = true ∧ rdVm vregs 1 = 0 ∧ rdSm vregs 5 = false ∧
    (∀ j, j < 64 → clean vregs ((rdS vregs 2 + j * rdS vregs 11) % 2 ^ 64) 4 = true) := by decide +kernel

theorem witness_VectorArithmetic :
    ([.vfadd (at' 2) 0x20 ⟨3, 1, 2, 0⟩, .vfadd (at' 3) 0x22 ⟨3, 1, 2, 0⟩, .vfma (at' 3) ⟨3, 1, 2, 0⟩, .vfminmax (at' 2) 0x24 ⟨3, 1, 2, 0⟩,
      .vfun (at' 2) ⟨3, 1, 0, 0⟩, .vfcmp (at' 2) ⟨3, 1, 2, 0⟩, .vsel (at' 2) ⟨3, 1, 2, 0⟩, .vint (at' 2) ⟨3, 1, 2, 0x10⟩,
      .vcvt (at' 2) ⟨3, 1, 0, 14⟩, .vcvtf (at' 2) ⟨3, 1, 0, 4⟩, .vmxq (at' 2) ⟨3, 1, 0, 4⟩, .vfsum (at' 2) ⟨3, 1, 0, 0⟩,
      .vrng (at' 2) ⟨3, 2, 5, 0⟩] : List Instr).all (can vregs) = true ∧
    rdVm vregs 1 = 0 ∧ rdSm vregs 2 = false ∧ rdSm vregs 3 = false ∧ rdSm vregs 5 = false := by decide +kernel
theorem witness_QueuedOperationsAreTaken :
    ([.mm (at' 3) ⟨12, 14, 0, 0⟩, .mm (at' 3) ⟨12, 14, 0, 0x20⟩, .mew (at' 3) ⟨12, 13, 0, 0⟩, .xld (at' 2) ⟨16, 12, 0⟩, .bmv (at' 3) ⟨2, 12, 0, 0⟩,
      .kst (at' 2) ⟨25, 0, 23, 1⟩, .kld (at' 2) ⟨25, 0, 23, 0⟩, .pcomb (at' 2) ⟨12, 14, 0, 0⟩, .amerge (at' 2) ⟨12, 14, 0, 0⟩,
      .afinal (at' 2) ⟨22, 25, 0, 0⟩, .mvt (at' 2) ⟨26, 12, 0⟩, .dtap (at' 2) ⟨12, 25, 0⟩, .stap (at' 2) ⟨12, 14, 0, 0⟩,
      .fcmul (at' 3) ⟨12, 14, 0, 0⟩, .fcmac (at' 3) ⟨12, 14, 0, 0⟩, .fwb (at' 3) ⟨12, 14, 0, 0⟩, .ffir (at' 3) ⟨12, 14, 0, 0⟩,
      .fmag2 (at' 3) ⟨12, 14, 0, 0⟩, .fbexp (at' 3) ⟨12, 14, 0, 0⟩, .fr4 (at' 3) ⟨30, 14, 0, 0⟩, .fr2 (at' 3) ⟨30, 14, 0, 0⟩,
      .cld (at' 2) ⟨15, 27, 0⟩, .cst (at' 2) ⟨15, 27, 0⟩, .mvcv (at' 2) ⟨1, 15, 0, 8⟩, .mvvc (at' 2) ⟨15, 1, 0, 9⟩] : List Instr).all
      (can descs) = true := by decide +kernel
theorem witness_MatrixOperationsRun :
    (passReady (queued 0 (pass 0 8 0)) (pass 0 8 0) = true ∧ (pass 0 8 0).mode.testBit 1 = false ∧ (pass 0 8 0).mode.testBit 2 = false) ∧
    (passReady (queued 0 (pass 4 8 (tagBits (leaf 1 0))) (fun y => setStack y 0 [entry 0])) (pass 4 8 (tagBits (leaf 1 0))) = true ∧
      (pushEnt true ([entry 0].map (fun e => { e with vals := [] })) ⟨leaf 1 0, 2, 2, [], false⟩).1 = 0) ∧
    (passReady (queued 0 (pass 2 8 0)) (pass 2 8 0) = true ∧ stripeFits 0xA000 2 = true ∧
      0x9000 ∉ dataLines 0xA000 (kindWidth 0) 2 2 ∧ wordsClean (queued 0 (pass 2 8 0)) 3 0x9000 64 = true ∧
      tagOf (tagBits (tagOf 0)) = tagOf 0) ∧
    [elementwise 0 0, elementwise 2 0, elementwise 4 0, elementwise 8 0, elementwise 0 1, elementwise 11 1].all mewReady = true ∧
    (tagIsRoot rootEntry.tag = true ∧ rootEntry.tag.kind = 0 ∧ rootEntry.vals.length = rootEntry.m * rootEntry.n ∧
      stripeFits 0xA000 rootEntry.m = true) := by decide +kernel

theorem witness_MatrixOperationsRun_banks :
    (∀ i j, i < 2 → j < 2 → wordsClean (queued 0 (pass 2 8 0)) 3 (stripeAddr 0xA000 (kindWidth 0) i j) (kindWidth 0) = true) ∧
    (∀ i j, i < 1 → j < 2 → wordsClean (queued 0 (elementwise 0 1)) 3 (stripeAddr 0xA000 4 i j) 4 = true) :=
  ⟨below2 (by decide +kernel), below2 (by decide +kernel)⟩

theorem witness_BanksideOperationsRun :
    (runsNext (queued 1 copyIn) 3 1 copyIn .xld = true ∧ xldOk (opW copyIn 0) (opW copyIn 1) = true ∧
      wordsClean (queued 1 copyIn) 3 0x4000 64 = true) ∧
    (runsNext (queued 1 (multiply 1 1 0 0x21)) 3 1 (multiply 1 1 0 0x21) .bmv = true ∧ bmvPair 1 1 = true ∧
      (tagOf 0).kind = kindWanted 1 1 ∧ passTag (tagOf 0) (256 * ((tagSpan (tagOf 0)).2 - (tagSpan (tagOf 0)).1)) = 0 ∧
      (tagSpan (tagOf 0)).1 % 16 = 0 ∧ cdiv ((tagSpan (tagOf 0)).2 - (tagSpan (tagOf 0)).1) 8 = 1) ∧
    [0, 1].all (fun k => runsNext (queued 1 (storeSet 2 1) (withSet 2 (oneNode k))) 3 1 (storeSet 2 1) .kst &&
      (oneNode k).nodes.length == 1 && kstOk (opW (storeSet 2 1) 0) && !secondLineBad k 0x9000 0xA000 &&
      tagOf (tagBits (leaf 0 k)) == leaf 0 k) = true ∧
    (runsNext (queued 1 (storeSet 3 0)) 3 1 (storeSet 3 0) .kst = true ∧ (getSet (getTile (queued 1 (storeSet 3 0)).chip 3) 3).nodes = []) ∧
    [0, 1].all (fun k =>
      let c := writeTagLine (queued 1 loadSet).chip 3 0x9000 (leaf 0 k) (if k = 1 then 256 else 512) (if k = 1 then 2 else 1) false
        ⟨0, false⟩ ⟨0, false⟩
      let s : State := { pending := [], chip := c }
      runsNext s 3 1 loadSet .kld && (readRec s.chip 3 0x9000 0xA000).2.any (fun r =>
        !r.empty && r.tag.kind == k && r.cols == (if k = 1 then 256 else 512) && r.rows == (if k = 1 then 2 else 1))) = true := by
  decide +kernel

/-- The values of the set that the witness of `kst` stores. -/
theorem witness_BanksideOperationsRun_values (k : Nat) (hk : k < 2) : ∀ n ∈ (oneNode k).nodes,
    n.vals.length = 512 ∧ ∀ e ∈ n.vals, e.pz = false ∧ e.v < 2 ^ (8 * kindWidth k) := by
  intro n hn
  simp only [oneNode, List.mem_singleton] at hn
  subst hn
  refine ⟨List.length_replicate, fun e he => ?_⟩
  obtain ⟨-, rfl⟩ := List.mem_replicate.1 he
  obtain rfl | rfl : k = 0 ∨ k = 1 := by omega
  · decide
  · decide

theorem witness_CombineOperationsRun :
    (runsNext (twoRecords (combine .pcomb) (record 0 0 3) (record 1 0 3)) 3 3 (combine .pcomb) .pcomb = true ∧
      soundPair (combine .pcomb) 0 4 = true ∧ soundPair (combine .pcomb) 1 8 = true) ∧
    (runsNext (twoRecords (combine .amerge) (record 0 2 3) (record 1 2 3)) 3 3 (combine .amerge) .amerge = true ∧
      soundPair (combine .amerge) 2 4 = true) ∧
    (let s := twoRecords divide rootRecord (record 1 2 3)
      let v := attFinal ⟨rootRecord.m, rootRecord.l, rootRecord.vals⟩
      runsNext s 3 3 divide .afinal = true ∧ (readRec s.chip 3 0x4000 0x5000).2 = some rootRecord ∧ tagIsRoot rootRecord.tag = true ∧
        inBanks 0x9000 12 = true ∧ (∀ e ∈ v.1, e.pz = false) ∧ v.2.2 = false ∧ wordsClean s 3 0x9000 12 = true) := by decide +kernel

theorem witness_FullerRuns :
    [stream .fcmul 2 7 33 1 0, stream .fcmul 0x20 7 8 1 0, stream .fmag2 0 12 33 1 0, stream .ffir 0 3 20 4 0, stream .fr2 0 1 64 1 3,
      stream .fr4 0 2 64 1 1].all streamsReady = true ∧
    [stream .fr2 0 1 64 1 3, stream .fr4 0 2 64 1 1].all (fun o => !(fulOf o).apply) = true ∧
    [stream .fcmac 0 0 33 1 0, stream .fcmac 0x20 0 33 1 0, stream .fwb 0 5 1 1 0, stream .fwb 1 5 1 1 0, stream .fbexp 0 0 33 1 0,
      fullerOwn .cld [1, 0x4080], fullerOwn .cst [1, 0x5080], fullerOwn .mvcv [4, 1], fullerOwn .mvvc [5]].all
      (fun o => runsNext (queued 2 o) 3 2 o o.kind) = true ∧
    ((fulOf (stream .fwb 0 5 1 1 0)).low = false ∧ (fulOf (stream .fwb 1 5 1 1 0)).low = true ∧ streamOk 0x6000 32 = true ∧
      (fulOf (stream .fbexp 0 0 33 1 0)).e % 8 = 0 ∧ inBanks (fulOf (stream .fbexp 0 0 33 1 0)).e 8 = true) ∧
    (wordsClean (queued 2 (fullerOwn .cld [1, 0x4080])) 3 (fulOf (stream .fbexp 0 0 33 1 0)).e 8 = true ∧
      wordsClean (queued 2 (fullerOwn .cld [1, 0x4080])) 3 0x4080 128 = true ∧ streamClean (queued 2 (fullerOwn .cld [1, 0x4080])) 3 0x4000 33 = true ∧
      streamClean (queued 2 (fullerOwn .cld [1, 0x4080])) 3 0x5000 33 = true ∧
      (∀ k, k < 32 → (getLane (getTile (queued 2 (stream .fwb 0 5 1 1 0)).chip 3) k).pz = false) ∧
      (tget (fun _ => (0#32 : BitVec 32)) (getTile (queued 2 (fullerOwn .cst [1, 0x5080])).chip 3).cm 1) = 0#32) := by decide +kernel
theorem witness_MoverOperationsRun :
    [transpose 1 3 5 0x4000 0x6000 16 8, transpose 0 4 6 0x4000 0x6000 8 8, transpose 3 2 4 0x4000 0x6000 16 8].all (fun o =>
      runsNext (queued 4 o) 3 4 o .mvt && mvtOk (opW o 0) (opW o 1) && wordsClean (queued 4 o) 3 0x4000 64 && wordsClean (queued 4 o) 3 0x6000 64 &&
        decide ((bitsOf (opW o 0) 55 44 + 1) * mvtBits (opW o 0) / 8 ≤ bitsOf (opW o 1) 21 0)) = true ∧
    (runsNext (queued 4 digestOp) 3 4 digestOp .dtap = true ∧ wordsClean (queued 4 digestOp) 3 0x4000 40 = true) ∧
    (runsNext (queued 4 statsOp) 3 4 statsOp .stap = true ∧ (tagOf (opW statsOp 2)).kind = 0 ∧ passTag (tagOf (opW statsOp 2)) 30 = 0 ∧
      wordsClean (queued 4 statsOp) 3 0x4000 (canonBytes 8 30) = true) := by decide +kernel

theorem witness_OperationFaultsReachTheirStrand :
    (runsNext (queued 0 (pass 0 15 0)) 3 0 (pass 0 15 0) .mm = true ∧ mmPair 15 15 = false) ∧
    runsNext (queued 0 (elementwise 0 0)) 3 0 (elementwise 0 0) .mew = true ∧
    getStack (getTile (queued 0 (elementwise 0 0)).chip 3) 0 = [] ∧
    runsNext (queued 1 (storeSet 2 0) (withSet 2 { nodes := [⟨leaf 0 0, []⟩, ⟨leaf 1 0, []⟩] })) 3 1 (storeSet 2 0) .kst = true ∧
    (strandRuns (running faulting).chip 3 2 = true ∧ (∀ h ∈ faulting.pend, lateFault.code ≤ h.code) ∧
      (∀ h ∈ faulting.pend, h.code = lateFault.code → h = lateFault) ∧ faulting.handler = false) := by decide +kernel

theorem witness_MessagesBetweenTiles :
    issues (sending []).chip (at' 1) (.send (at' 1) ⟨24, 25, 0⟩) = true ∧ wordsClean (sending []) 3 0x4008 40 = true ∧
    (let f := flight 1 4 false false;
      waits (sending [f]) 1 f = true ∧ earlierSend (sending [f]).chip f = false ∧ sendCode (sending [f]).chip f = 0 ∧
        ∀ w ∈ f.words, w.pz = false ∧ w.v < 2 ^ 64) ∧
    (let f := flight 1 100 false true;
      waits (sending [f]) 1 f = true ∧ knuckleOpen (sending [f]).chip = true) ∧
    (let f := flight 1 0xFF true false;
      waits (sending [f]) 1 f = true ∧ sendCode (sending [f]).chip f ≠ 0) := by decide +kernel

theorem witness_FabricWords :
    (issues fabS.chip (at' 1) (.fld (at' 1) ⟨4, 2, 0⟩) && issues fabS.chip (at' 1) (.fst (at' 1) ⟨5, 2, 1⟩) &&
      issues fabS.chip (at' 1) (.famo (at' 1) ⟨4, 2, 5, 0⟩) && issues fabS.chip (at' 1) (.fcas (at' 1) ⟨4, 2, 5, 0⟩)) = true ∧
    ((rankDev fabS.chip 1 (faRank (rdS fabRegs 2))).2 = false ∧ accepts fabS.chip 11 = true ∧ tilePart fabS.chip 3 = 1) ∧
    (let s : State := { fabS with chip := { fabS.chip with fab := { fabS.chip.fab with granules := [granule] } } };
      issues s.chip (at' 1) (.fld (at' 1) ⟨4, 3, 0⟩) = true ∧
        s.chip.fab.granules.find? (fun q => q.owner == strandOwner s.chip 3 2 && q.rank == faRank (addrRI fabRegs ⟨4, 3, 0⟩ 8) &&
          q.addr == faTarget (addrRI fabRegs ⟨4, 3, 0⟩ 8) - faTarget (addrRI fabRegs ⟨4, 3, 0⟩ 8) % 256) = some granule) ∧
    (issues fabS.chip (at' 1) (.fst (at' 1) ⟨5, 3, 0⟩) = true ∧ (rankDev fabS.chip 1 (faRank (rdS fabRegs 3))).2 = true) := by decide +kernel

theorem witness_FabricBulkRequests :
    (issues fabS.chip (at' 1) (.fcopy (at' 1) ⟨12, 14, 0⟩) && issues fabS.chip (at' 1) (.fcopy (at' 1) ⟨12, 14, 1⟩) &&
      issues fabS.chip (at' 1) (.fmcast (at' 1) ⟨18, 14, 0⟩)) = true ∧ wordsClean fabS 3 0x4008 0x130 = true ∧ fabS.chip.fab.gathers = [] ∧
    (let s : State := { fabS with chip := writeRec fabS.chip 3 0x6000 0x7000 (record 0 0 3) true };
      issues s.chip (at' 1) (.fred (at' 1) ⟨20, 22, 0⟩) = true ∧ issues s.chip (at' 1) (.fred (at' 1) ⟨20, 22, 1⟩) = true ∧
        (readRec s.chip 3 0x6000 0x7000).2 = some (record 0 0 3)) := by decide +kernel
theorem witness_RefusedAccesses :
    accessOk 0x100103 2 = false ∧ accessOk 0x100104 8 = false ∧ accessOk 0x100104 4 = true ∧ barRow upChip 0 0x100000 = none ∧
    barRow upChip 5 aPART_ARG0 = none := by decide +kernel

theorem witness_RegistersOfTheFunctions :
    [aPART_ARG0, aPART_ARG1, aTR_TRIG, aTR_DRAIN, aSNAP_ADDR, aHEALTH_CFG].all (fun a => (barRow upChip 0 a).isSome) = true ∧
    ((0x100000 : Nat) ≤ aPART_ARG0 ∧ aPART_ARG0 ∉ [aQM_DOORBELL, aQM_CMD, aQM_QSTATUS] ∧ ¬ (aQM_STAGE 0 ≤ aPART_ARG0 ∧ aPART_ARG0 ≤ aQM_STAGE 7) ∧
      ¬ (0x00108000 ≤ aPART_ARG0 ∧ aPART_ARG0 < 0x00108100) ∧ aPART_ARG0 % 8 = 0) := by decide +kernel

theorem witness_HalvesMakeAWhole : (barRow upChip 0 aPART_ARG0).isSome = true ∧ aPART_ARG0 % 8 = 0 := by decide +kernel

theorem witness_MeshGovernorAndBankUpkeep :
    (linkOf 5 = .die 1 ∧ linkOf 0x401 ≠ .none ∧ (∀ tile, linkOf 0x401 ≠ .die tile)) ∧
    (let c := { upChip with mesh := { upChip.mesh with fails := [(5, 63)] } };
     64 ≤ tget (fun _ => 0) c.mesh.fails 5 + 1) ∧
    (25 * 3 + 10 * 3 + 10 * 3 ≤ 4 * fget upChip (aTILE_GOV 3) 15 8 ∧ 4 * fget upChip (aTILE_GOV 3) 15 8 < 25 * 100 + 10 * 3 + 10 * 3) ∧
    (hardReserve upChip 3 = false) ∧
    ([0x803, 0x900].find? (fun v => wordBank v == 0) = some 0x803) ∧
    (fbit (running regs).chip (aTILE_CTL 3) 3 = true ∧ tilePowered (running regs).chip 3 = true ∧
      wordsClean (running regs) 3 (31 * 0x18000 + 1535 * 64) 64 = true) := by
  refine ⟨⟨by decide +kernel, by decide +kernel, fun tile h => ?_⟩, by decide +kernel, by decide +kernel, by decide +kernel, by decide +kernel,
    by decide +kernel⟩
  simp [linkOf] at h

theorem witness_TilesAreZeroedFencedAndStarted :
    (tilePowered (running regs).chip 3 = true ∧ tileEnabled (running regs).chip 3 = true) ∧
    (let s := mod' (running regs) (fun c => modTile c 3 (fun y => { y with zeroing := true, mem := [(0x4000, 7#8)] }));
     (getTile s.chip 3).zeroing = true ∧ tileQuiet s.chip 3 = true ∧ ∀ i, i < 8 → (getStrand s.chip 3 i).fresh = false) ∧
    (tileFenced (running regs).chip 3 = false ∧ allQuiet (running regs).chip = true ∧
      tileFenced (fsetb (running regs).chip (aTILE_STATUS 3) 1 true) 3 = true) ∧
    (∀ k, k < 8 → (tget (fun _ => ({} : Stream)) (getTile (running regs).chip 3).streams k).on = false) ∧
    (let s := mod' (running { fresh := true }) (fun c => fsetb c (aTILE_CTL 3) 1 true);
     tileQuiet s.chip 3 = true ∧ tileOpen s.chip 3 = true ∧ wordsClean s 3 0 64 = true ∧ (getStrand s.chip 3 2).fresh = true ∧
      cellWord (getTile s.chip 3) 2 < 196608 ∧ (∀ j, j < 8 → j ≠ 2 → (getStrand s.chip 3 j).fresh = false) ∧
      (fget s.chip (aTILE_CTL 3) 39 32).testBit 2 = true) ∧
    fbit (fset (running { fresh := true }).chip (aTILE_CTL 3) 39 32 0) (aTILE_CTL 3) 1 = false := by decide +kernel

theorem witness_WindowFetchAndSwap :
    (tileOpen (running regs).chip 3 = true ∧ wordsClean (running regs) 3 0x2FFFF8 8 = true ∧
      fget (fset (running regs).chip (aTILE_SRAM_ADDR 3) 21 3 0x5FFFF) (aTILE_SRAM_ADDR 3) 21 3 * 8 < 0x300000 ∧
      0x300000 ≤ fget (fset (running regs).chip (aTILE_SRAM_ADDR 3) 21 3 0x60000) (aTILE_SRAM_ADDR 3) 21 3 * 8 ∧
      tileOpen (fsetb (running regs).chip (aTILE_STATUS 3) 1 true) 3 = false) ∧
    (let x : Strand := { pc := 40, wait := some ⟨.fetch, 0⟩ };
     let s := running x;
     strandRuns s.chip 3 2 = true ∧ tileOpen s.chip 3 = true ∧ x.pc < bundleEnd ∧ wordsClean s 3 (16 * x.pc / 64 * 64) 64 = true ∧
      fetched x (getTile s.chip 3) ((getTile s.chip 3).lcOwner == some 2) = false ∧ (∀ j, j < 8 → j ≠ 2 → (getStrand s.chip 3 j).wait = none)) ∧
    wantsLine (running regs).chip 3 10 = false ∧ tileAnvil (sending []).chip 3 = false ∧
    (let s := mod' (running regs) (fun c => modTile c 3 (fun y => { y with halves := [(2, ⟨false, true⟩)] }));
     (tget (fun _ => ({} : Halves)) (getTile s.chip 3).halves 2).waiting = true ∧ tileQuiet s.chip 3 = true) := by decide +kernel

theorem witness_ChannelsAndTheMap :
    (upS.chip.mem.trained = false ∧ (after .memTrain upS).chip.mem.trained = true ∧ chanState (after .memTrain upS).chip 31 = 1) ∧
    inService trainedS.chip 31 = true ∧ fbit upChip aMEM_MAP 0 = false ∧ mapLegal 2 0 = true ∧ fbit memS.chip aMEM_MAP 0 = true ∧
    chanFailed memS.chip 5 = false ∧
    (fbit memS.chip (aMEM_CTL 5) 13 = true ∧ fbit memS.chip (aMEM_CTL 5) 12 = true ∧ (getChan memS.chip 5).scrubPos + 1 < (getChan memS.chip 5).cap * 2 ^ 24) ∧
    (let s := mod' memS (fun c => modChan c 5 (fun x => { x with fix := [64], rowHits := [(9, [1, 2, 3, 4])] }));
     let s := mod' s (fun c => { c with mem := { c.mem with dflaw := [(mbKey 5 64 / 64, 1)] } });
     (getChan s.chip 5).fix = [64] ∧ tget (fun _ => 0) s.chip.mem.dflaw (mbKey 5 64 / 64) = 1 ∧ rowFlaws s.chip 5 9 = [] ∧
      4 ≤ (tget (fun _ => []) (getChan s.chip 5).rowHits 9).length) := by decide +kernel
theorem witness_DeviceMemory :
    burstSound grantedS.chip 1 0 0x2012348 8 14 1050952 = true ∧ burstSound grantedS.chip 1 0 0x2012378 8 14 1051000 = true ∧
    bitOf (barGet grantedS.chip (aPART_DMAP 1)) 0 = false ∧
    (hdmHit grantedS.chip 3846143218704 4 = true ∧ locate grantedS.chip 3846143218704 = .burst 30 120191975440 ∧
      3846143218704 % 64 + 4 ≤ 64 ∧ 120191975440 % 64 = 3846143218704 % 64 ∧ chanFailed grantedS.chip 30 = false) ∧
    devCheck grantedS.chip 1 0 0x12348 4 = 0x2005 := by decide +kernel

theorem witness_SwageUnits :
    [query, append 2 77, pageInit].all (fun r => leastCode (unitCodes swageS.chip 2 1 ++ recordCodes swageS.chip 2 (Machine.clean r)) == 0) = true ∧
    leastCode (unitCodes swageS.chip 2 1 ++ recordCodes swageS.chip 2 (Machine.clean [1#8])) ≠ 0 ∧
    leastCode (unitCodes swageS.chip 3 1 ++ recordCodes swageS.chip 3 (Machine.clean query)) ≠ 0 := by decide +kernel

theorem witness_SwageCommandsRun :
    (0 < fget swageS.chip (aSWAGE_PART 1) 4 0 ∧ (∀ j, j < 24 → ctxAt swageS.chip 2 j = none)) ∧
    (ctxAt (serving (command query)).chip 2 0 = some (command query) ∧ swCmdOf (command query) = 1 ∧
      swFailed (serving (command query)).chip 2 = false ∧ swTurn (serving (command query)).chip 2 (command query) = true ∧
      swField (command query).record 36 2 = 1 ∧ groupsRead.length = 1 ∧ (∀ g ∈ groupsRead, g.2 = 0)) ∧
    (paged.groups[paged.records.length / swHeads paged]? = some ([Machine.clean (pageDesc 0b1011 0), Machine.clean (pageDesc 1 1)], 0) ∧
      paged.pagesDone + 1 < groupPages paged (groupNode paged [Machine.clean (pageDesc 0b1011 0), Machine.clean (pageDesc 1 1)] *
        2 ^ swField paged.record 6 1)) ∧
    (let c := { command query with stage := .records, records := [result] };
     let s := serving c;
     swFailed s.chip 2 = false ∧ c.records[c.written]? = some result ∧ physOf s.chip 1 (swField c.record 2 2) = some 3 ∧
      tileOpen s.chip 3 = true ∧ tileQuiet s.chip 3 = true ∧ swField c.record 44 4 % 64 = 0 ∧ swField c.record 48 4 % 64 = 0 ∧
      stripeFits (swField c.record 48 4) 1 = true ∧ swField c.record 44 4 + 64 ≤ 0x300000 ∧
      swField c.record 44 4 ∉ dataLines (swField c.record 48 4) 4 64 1 ∧ swDim (swField c.record 7 1) = 64 ∧
      swField c.record 36 2 * swHeads c ≤ c.written + 1 ∧ tagOf (tagBits result.tag) = result.tag ∧ result.tag.kind = 2) ∧
    [command (append 2 77), command (append 2 78), command pageInit].all writes = true ∧
    (swCmdOf (command (append 2 77)) = 2 ∧ appendCode (serving (command (append 2 77))).chip 2 (command (append 2 77)) (named (command (append 2 77))) = 0 ∧
      isMX (swField (named (command (append 2 77))) 15 1) = false) ∧
    (appendCode (serving (command (append 2 78))).chip 2 (command (append 2 78)) (named (command (append 2 78))) ≠ 0) ∧
    (swCmdOf (command pageInit) = 3 ∧ (command pageInit).record.length = 128) := by decide +kernel
theorem witness_QueuesAreCommanded :
    (queueReady (queuesS [(5, subCtx 1 3 4), (6, doneCtx 1 0 0)] []).chip 0 5 (subCtx 1 3 4) = true ∧
      queueReady (queuesS [(5, subCtx 1 3 4), (6, doneCtx 1 0 0)] []).chip 0 6 (doneCtx 1 0 0) = true) ∧
    (let s := staging (subCtx 1 3 4) (queuesS [(5, subCtx 0 3 4), (6, doneCtx 1 0 0)] []);
     let st := stageBytes s.chip (kStage 0);
     queueReady s.chip 0 5 (subCtx 0 3 4) = true ∧ cState (subCtx 0 3 4) = 0 ∧ cState st = 1 ∧
      ctxOk s.chip (bSet (bSet st 11 1 (bNat (subCtx 0 3 4) 11 1 / 2 % 2 * 2 + bNat st 11 1 % 2)) 28 1 1) = true) ∧
    (let s := staging (copyDesc 0x2012300 4 0x80) (queuesS [(5, subCtx 1 3 4), (6, doneCtx 1 0 0)] []);
     cKind (subCtx 1 3 4) = 1 ∧ ringHeld (subCtx 1 3 4) < 2 ^ cLog (subCtx 1 3 4) ∧
      (ringWrite (ctxTouch s.chip 5 (subCtx 1 3 4)) (subCtx 1 3 4) (cTail (subCtx 1 3 4)) (stageBytes s.chip (kStage 0))).2 = 0 ∧
      2 ^ cLog (subCtx 1 3 19) ≤ ringHeld (subCtx 1 3 19) ∧ s.chip.qm.pins = []) ∧
    (let x := { copy .done 4 with stopped := true };
     let s := staging x.d (queuesS [(5, subCtx 3 3 4), (6, doneCtx 1 0 0)] [(5, [x])]);
     queueReady s.chip 0 5 (subCtx 3 3 4) = true ∧ xfersOf s.chip 5 = [x] ∧ stoppedHead s.chip 5 = some x ∧
      bNat (stageBytes s.chip (kStage 0)) 0 6 = bNat x.d 0 6 ∧ bNat (stageBytes s.chip (kStage 0)) 24 10 = bNat x.d 24 10 ∧
      (ringWrite (ctxTouch s.chip 5 (subCtx 3 3 4)) (subCtx 3 3 4) x.slot (stageBytes s.chip (kStage 0))).2 = 0) ∧
    (let s := queuesS [(5, subCtx 2 3 4), (6, doneCtx 1 0 0)] [(5, [copy .running 1])];
     cState (subCtx 2 3 4) = 2 ∧ unstarted s.chip 5 (subCtx 2 3 4) = 0 ∧ (copy .running 1).next < dCount (copy .running 1).d ∧
      s.chip.qm.doorbells = []) ∧
    (qmReady upChip = false ∧ (4 + 2 ^ 17 - cHead (subCtx 1 3 4)) % 2 ^ 17 ≤ 2 ^ cLog (subCtx 1 3 4) ∧
      2 ^ cLog (subCtx 1 3 4) < (40 + 2 ^ 17 - cHead (subCtx 1 3 4)) % 2 ^ 17) ∧
    (fbit memS.chip aQM_CTL 0 = false ∧ fbit memS.chip aMEM_MAP 0 = true ∧
      fget memS.chip aQM_TABLE 47 26 * 2 ^ 26 + 2 ^ 26 ≤ interSize memS.chip - hdmSize memS.chip) := by decide +kernel

theorem witness_TransfersRunAndPanesArrive :
    (let c := devCtx 1 3 4 0;
     let s := mod' (queuesS [(5, c), (6, doneCtx 1 0 0)] []) (fun s => (devWriteRaw s 16 (0x2010000 + 64 * 3) (Machine.clean (copyDesc 0x2012300 4 0x80))).1);
     let v := nextSlot s.chip 5 c;
     let m := devReadChecked (ctxTouch s.chip 5 c) (cPart c) (cFunc c) (ringSlot c v % 2 ^ 48) 64;
     let d := unmark m.2.1;
     fbit s.chip aQM_CTL 1 = false ∧ fget s.chip aSEC_STATUS 3 0 ≠ 0xF ∧ cKind c = 1 ∧ cState c = 1 ∧ unstarted s.chip 5 c ≠ 0 ∧
      (getPart s.chip (cPart c)).quiet = false ∧ fbit s.chip (aFJ_CTL (cPart c)) 4 = false ∧ fbit s.chip (aPART_CTL (cPart c)) 1 = false ∧
      engineServes s.chip (cEngine c) = true ∧ m.2.2 = 0 ∧ m.2.1.any (·.2) = false ∧ descCode d (cRadio c) = 0 ∧ dType d = 1 ∧
      isStream d = false ∧ dFlag d 4 = false ∧ Machine.running s.chip 2 < 32 ∧ dSrc d / 2 ^ 60 = 0 ∧ dDst d / 2 ^ 60 = 1) ∧
    (let c := devCtx 2 3 4 1;
     let x := copy .running 3;
     let s := queuesS [(5, c), (6, doneCtx 1 0 0)] [(5, [x])];
     let a := addOff (dSrc x.d) ((dIndex x.d x.next).1 * dESize x.d + dimOff (dSS x.d) (dIndex x.d x.next));
     let b := addOff (dDst x.d) ((dIndex x.d x.next).1 * dESize x.d + dimOff (dDS x.d) (dIndex x.d x.next));
     findXfer s.chip 5 x.slot = some x ∧ dCount x.d = 4 ∧ dRefmt x.d = 0 ∧ dFlag x.d 1 = false ∧ dFlag x.d 2 = false ∧ a / 2 ^ 48 = 0 ∧
      b / 2 ^ 60 = 1 ∧ b % 8 = 0 ∧ dESize x.d = 64 ∧
      burstSound s.chip (cPart c) (cFunc c) a 64 14 1051072 = true ∧ tileSide s.chip (cPart c) b 64 = (3, 0) ∧ allQuiet s.chip = true ∧
      cRadio c = true) ∧
    (let s := paneS 1 4;
     isStream (paneXfer 4).d = true ∧ paneNo (paneXfer 4).d = 3 ∧ dstTile s.chip (ctxPeek s.chip 5) (paneXfer 4).d = some 3 ∧
      (1 + 1) * (paneBytes (paneXfer 4).d / 64) ≤ (paneXfer 4).next ∧ tileQuiet s.chip 3 = true) := by decide +kernel

theorem witness_TransfersEnd :
    (subCtx 2 3 4).length = 64 ∧ (doneCtx 1 0 2).length = 64 ∧
    (let s := queuesS [(5, subCtx 2 3 4), (6, doneCtx 1 0 16)] [(5, [copy .readBack 4])];
     xfersOf s.chip 5 = [copy .readBack 4] ∧ s.chip.qm.retire = [] ∧ cCq (subCtx 2 3 4) = 6 ∧
      fenceOpen s.chip ⟨cPart (subCtx 2 3 4), 0xFFF, 5⟩ 0xFFFF = false ∧ dType (copy .readBack 4).d ≠ 7 ∧ dFlag (copy .readBack 4).d 6 = false ∧
      2 ^ cLog (doneCtx 1 0 16) ≤ ringHeld (doneCtx 1 0 16)) ∧
    (let k := doneCtx 1 0 2;
     let s := queuesS [(5, subCtx 2 3 4), (6, k)] [(5, [copy .record 4])];
     (copy .record 4).stopped = false ∧ cKind k = 2 ∧ cState k ≠ 0 ∧ ringHeld k < 2 ^ cLog k ∧ ringSlot k (cTail k) / 2 ^ 60 = 2 ∧
      fbit s.chip (aDLOG_CTL (cFunc k)) 0 = false ∧ s.chip.mem.dlogHeld = [] ∧ s.chip.boot.undervolt = false ∧ cState (subCtx 2 3 4) = 2) ∧
    (let s := mod' (queuesS [(5, subCtx 2 3 4), (6, doneCtx 1 0 2)] []) (fun c => { c with qm := { c.qm with unsig := [(6, 2)] } });
     qmReady s.chip = true ∧ cModUs (doneCtx 1 0 2) ≠ 0 ∧ tget (fun _ => 0) s.chip.qm.unsig 6 ≠ 0) ∧
    (dSR (copy .running 1).d = false ∧ dSrc (copyDesc (hostAt 0x4000) 4 0x80) / 2 ^ 60 = 2 ∧ dType (copyDesc (hostAt 0x4000) 4 0x80) ≠ 4 ∧
      (copy .running 1).engine < 16 ∧ cEngine (subCtx 2 3 4) < 16) := by decide +kernel

theorem mread_nil : ∀ (n k : Nat), mread [] k n = List.replicate n 0#8
  | 0, _ => rfl
  | n + 1, k => by rw [mread, mread_nil n]; rfl

/-- With nothing in memory, the context of a queue that is not cached is all zeros: the queue is off. -/
theorem ctxPeek_blank {s : Chip} {q : Nat} (hd : s.mem.dram = []) (hc : s.qm.cached.find? (fun p => p.1 == q) = none) :
    ctxPeek s q = List.replicate 64 0#8 := by
  unfold ctxPeek
  rw [hc]
  simp only [peekDev, List.map_map]
  rw [List.eq_replicate_iff]
  refine ⟨by simp, fun b hb => ?_⟩
  simp only [List.mem_map, List.mem_range] at hb
  obtain ⟨k, -, rfl⟩ := hb
  simp only [Function.comp]
  split
  · rename_i c mb _
    simp only [burstBytes, hd, mread_nil]
    rw [List.map_replicate, List.getD_eq_getElem?_getD, List.getElem?_replicate]
    split <;> simp
  · rfl

/-- One queue of engine 2 is on, and that is the list of them. -/
theorem witness_QueuesAreCommanded_engine :
    queuesWhere (queuesS [(5, subCtx 2 3 4), (6, doneCtx 1 0 0)] [(5, [copy .running 1])]).chip
      (fun d => cKind d == 1 && cState d != 0 && cEngine d == 2) = [5] := by
  unfold queuesWhere
  rw [if_pos (by decide +kernel)]
  have h : (List.range (2 ^ 20)).filter (fun q => (fun d => cKind d == 1 && cState d != 0 && cEngine d == 2)
      (ctxPeek (queuesS [(5, subCtx 2 3 4), (6, doneCtx 1 0 0)] [(5, [copy .running 1])]).chip q)) =
      (List.range (2 ^ 20)).filter (fun q => q == 5) := by
    refine List.filter_congr (fun q _ => ?_)
    by_cases h5 : q = 5
    · subst h5; decide +kernel
    by_cases h6 : q = 6
    · subst h6; decide +kernel
    rw [ctxPeek_blank rfl]
    · rw [beq_false_of_ne h5]; decide
    · have : (queuesS [(5, subCtx 2 3 4), (6, doneCtx 1 0 0)] [(5, [copy .running 1])]).chip.qm.cached = [(5, subCtx 2 3 4), (6, doneCtx 1 0 0)] := rfl
      rw [this]
      simp [Ne.symm h5, Ne.symm h6]
  rw [h, List.filter_beq, List.nodup_range.count, if_pos (List.mem_range.2 (by omega))]
  rfl

theorem witness_PlansAreProved :
    (bitOf (0x5000#64).toNat 0 = false ∧ bitOf (0x5001#64).toNat 0 = true ∧ radioS.chip.radio.proving = none ∧
      (proving fits).chip.radio.proving = some (8 * 2 ^ 21)) ∧
    (let s := mod' (proving fits) (fun c => barSet c (aGRANT 1) 0);
     s.chip.radio.proving = some (8 * 2 ^ 21) ∧ (proofReads s (8 * 2 ^ 21)).1 = false) ∧
    (let r := proofReads (proving fits) (8 * 2 ^ 21);
     r.1 = true ∧ r.2.1 = fits ∧ (proving fits).chip.radio.running = false ∧ prove r.2.2 thePlan = none) ∧
    (let r := proofReads otherPeriod (8 * 2 ^ 21);
     r.1 = true ∧ r.2.1 = fits ∧ otherPeriod.chip.radio.running = false ∧ (prove r.2.2 thePlan).isSome = true) ∧
    ((striking false true radioS).chip.radio.plan = some thePlan ∧ (striking false true radioS).chip.radio.reproving = true) := by decide +kernel

/-- The image is read as a plan, its hash among it. -/
theorem witness_PlansAreProved_image : (readPlan fits).1 = some thePlan := by decide +kernel

theorem witness_RadioControls :
    (let req := fun (d e : Nat) => fset (fset (striking false false radioS).chip aTIER_REQ 63 56 d) aTIER_REQ 31 0 e;
     stopped.chip.radio.running = false ∧ (striking false false radioS).chip.radio.running = true ∧
      tierCode (req 0 20) thePlan 0 (strikeOf (req 0 20) 20) ≠ 0) ∧
    (let s := striking true false radioS;
     let s1 := fset (fset s.chip aTIER_REQ 63 56 0) aTIER_REQ 31 0 60;
     tierCode s1 thePlan 0 (strikeOf s1 60) = 0) ∧
    (fbit stopped.chip aSTRIKE_CTL 0 = false ∧ stopped.chip.radio.plan = some thePlan ∧
      thePlan.carriers.all (lagOk stopped.chip) = true ∧ thePlan.carriers.all (lagOk lagging.chip) = false) ∧
    (thePlan.carriers[0]?.isSome = true ∧ 0 ∈ stopped.chip.radio.muted) := by decide +kernel

theorem witness_StrikesBegin :
    (fget (mod' upS (fun c => fset c aSEC_STATUS 3 0 0xF)).chip aSEC_STATUS 3 0 = 0xF ∧ boundaryCalm upS.chip = true ∧
      phaseHere upS.chip 0 = none) ∧
    (let s := phaseS;
     (phaseHere s.chip 0).map (fun x => (x.1.startCnt, x.1.trig, x.2)) = some (5, 0, 4) ∧ fedByPorts s.chip 4 5 = false ∧
      tileQuiet s.chip 4 = true ∧ acGet s.chip 4 63 ≤ 0) ∧
    (let s := mod' phaseS (fun c => acSet c 4 63 5);
     (phaseHere s.chip 0).isSome = true ∧ 0 < acGet s.chip 4 63) := by decide +kernel

theorem witness_CodingBlocks :
    ((getRing (codingS []).chip 3).jobs = [] ∧ fget (codingS []).chip (aCODE_STATUS 0) 3 0 ≠ 2 ∧
      fget (mod' (codingS []) (fun c => fset c (aCODE_STATUS 0) 3 0 2)).chip (aCODE_STATUS 0) 3 0 = 2 ∧
      ∀ j, j < 16 → ringHalf (codingS []).chip j = 0 → (getRing (codingS []).chip j).jobs = []) ∧
    (let s := codingS [codingJob];
     let d := codingJob.d;
     (getRing s.chip 3).jobs = [codingJob] ∧ halfServes s.chip (ringHalf s.chip 3) = true ∧ codeDescOk d = false ∧
      tileSide s.chip 0 (tileAddr 1 (0x6000 + 32 * 2)) 32 = (4, 0) ∧ tileQuiet s.chip 4 = true ∧ d.length = 64 ∧ bNat d 48 1 < 128) := by
  decide +kernel

theorem witness_FramesComeIn :
    (trigsOff fronthaulS.chip = true ∧ capsOff fronthaulS.chip = true ∧ portState fronthaulS.chip 0 = 2 ∧ portState fronthaulS.chip 1 ≠ 2) ∧
    ((uplink false).fcsOk = false ∧ (frame 20 true (uplink true).body).fcsOk = true ∧
      frameAccepted fronthaulS.chip 0 (frame 20 true (uplink true).body) = false) ∧
    (let s := fronthaulS;
     (uplink true).body = .uplane 7 3 true false false 20 2 0 9 (upBlocks 1) ∧ (uplink true).ethertype = 0xAEFE ∧ (uplink true).fcsOk = true ∧
      frameAccepted s.chip 0 (uplink true) = true ∧
      colour (policeShape s.chip 0) (getPort s.chip 0).policer (200 + (policeShape s.chip 0).ovh) = 2 ∧
      carrierOf s.chip 0 7 = some theCarrier ∧ theCarrier.mode ≠ 1 ∧ theCarrier.bfpw = 9 ∧ (upBlocks 1).all (fun b => b.2.length == 24) = true ∧
      ((upBlocks 1).map (fun b => (bfpParts 9 b).2)).sum = 0 ∧ steering s.chip 0 7 ≠ [] ∧ s.chip.radio.number = 20) ∧
    (getPort fronthaulS.chip 0).sections = [] ∧
    (let x := received 24 1;
     let s := portIs { sections := [x, received 2 0] };
     (getPort s.chip 0).sections = [x, received 2 0] ∧ tileSide s.chip 0 (tileAddr x.tile x.addr) (4 * x.words.length) = (4, 0) ∧
      tileFenced s.chip 4 = false ∧ 4 ∉ s.chip.radio.toLoad ∧ x.words.length = 24 ∧ tileQuiet s.chip 4 = true) ∧
    (let s := portIs { sections := [received 24 77] };
     (getPort s.chip 0).sections = [received 24 77] ∧ physOf s.chip 0 77 = none) := by decide +kernel

theorem witness_FramesGoOut :
    (portState upS.chip 0 ≠ 2 ∧ chooseFrame fronthaulS.chip 0 = none) ∧
    (let s := portIs { frames := [leaving 1000] };
     portState s.chip 0 = 2 ∧ s.chip.boot.undervolt = false ∧ chooseFrame s.chip 0 = some (leaving 1000) ∧ capsOff s.chip = true ∧
      ∀ r, r < 4 → tget (fun _ => 0) (getPort s.chip 0).owed r = 0) ∧
    (let s := portIs { frames := [leaving (-1), leaving 1000] };
     (getPort fronthaulS.chip 0).frames.find? (fun f => f.queue == 5 && decide (f.limit < (nowNs fronthaulS.chip : Int))) = none ∧
      (getPort s.chip 0).frames.find? (fun f => f.queue == 5 && decide (f.limit < (nowNs s.chip : Int))) = some (leaving (-1)) ∧
      ∀ r, r < 4 → tget (fun _ => 0) (getPort s.chip 0).owed r = 0) ∧
    (let s := fronthaulS;
     let h := portShape s.chip 0 0;
     ptpSends s.chip 0 77 = false ∧ portState s.chip 0 = 2 ∧ (fget s.chip aPTP_CTL 15 8).testBit 0 = true ∧
      (List.range 16).any (fun m => ptpSends s.chip 0 m && colour h (portBucket s.chip 0 0) (ptpLen m + h.ovh) != 0) = true) := by decide +kernel

theorem witness_ShapersAndPorts :
    (fbit upS.chip (aFH 0 0) 0 = false ∧ fhPowered upS.chip = true ∧ portState upS.chip 0 ≠ 2 ∧ (getPort upS.chip 0).frames = []) ∧
    (fbit (portAt 2).chip (aFH 0 0) 0 = true ∧ portState (portAt 2).chip 0 = 2) ∧
    (fbit (portAt 1).chip (aFH 0 0) 0 = true ∧ fhPowered (portAt 1).chip = true ∧ portState (portAt 1).chip 0 = 1) ∧
    (fbit (portAt 3).chip (aFH 0 0) 0 = true ∧ fhPowered (portAt 3).chip = true ∧ portState (portAt 3).chip 0 = 3) := by decide +kernel

theorem witness_TimeBasesAndServo :
    (baseFree steered.chip 0 = false ∧ baseFree based.chip 1 = true ∧ trigsOff based.chip = true ∧ 3 ≤ stageNow based.chip) ∧
    (((2 ^ 34 * 7 + 5 - 7 * 2 ^ 34 : Nat) : Int) = (tbGet based.chip 1 : Int) + (0xFFFFFFFFFFFFFFF9#64).toInt * 2 ^ 34 ∧
      ((tvMod - 1 : Nat) : Int) = (tbGet (mod' based (fun c => { c with time := { c.time with tb := [(1, tvMod - 1 - 2 ^ 34)] } })).chip 1 : Int) +
        (1#64).toInt * 2 ^ 34) ∧
    (servoState (servoAt 2 1).chip = 2 ∧ servoState (servoAt 3 1).chip = 3 ∧ servoState (servoAt 0 1).chip ≠ 2 ∧
      servoState (servoAt 0 1).chip ≠ 3 ∧ fget (servoAt 0 1).chip aPTP_STATUS 11 8 = 1 ∧ fget (servoAt 0 2).chip aPTP_STATUS 11 8 ≠ 1) := by
  decide +kernel

theorem witness_TriggersAndStamps :
    (let s := trigger 1 100 5;
     let k := aTT_CTL 3;
     let armed := fun (w : Word) => fset s.chip k 63 41 (bitsOf w.toNat 63 41);
     bitOf (0#64).toNat 63 = false ∧ ttTarget (armed (BitVec.ofNat 64 (fields [(1, 63), (2, 60)]))) 3 < ttNow (armed (BitVec.ofNat 64 (fields [(1, 63), (2, 60)]))) 3 ∧
      ttNow (armed (BitVec.ofNat 64 (fields [(1, 63), (3, 60)]))) 3 ≤ ttTarget (armed (BitVec.ofNat 64 (fields [(1, 63), (3, 60)]))) 3) ∧
    (fbit upS.chip (aTT_CTL 3) 63 = false ∧ ttNow (trigger 0 (10 ^ 12) 5).chip 3 < ttTarget (trigger 0 (10 ^ 12) 5).chip 3) ∧
    ([0, 1].all (fun per =>
      let s := trigger per 100 5
      fbit s.chip (aTT_CTL 3) 63 && decide (ttTarget s.chip 3 ≤ ttNow s.chip 3) && fget s.chip (aTT_CTL 3) 59 41 == 0 &&
        fbit s.chip (aTT_CTL 3) 62 == decide (per = 1) && decide (ttNow s.chip 3 + ttPeriod s.chip 3 < tvMod))) = true ∧
    ([0, 1].all (fun full =>
      let s := capture full
      fbit s.chip (aTC_CTL 3) 63 && fget s.chip (aTC_CTL 3) 60 58 == 3 && fget s.chip (aTC_CTL 3) 57 54 == 1 &&
        fbit s.chip (aTC_CTL 3) 44 == decide (full = 1))) = true := by decide +kernel

/-- A queue manager that is not ready has no queues. -/
theorem no_queues {s : Chip} (f : List Byte → Bool) (h : qmReady s = false) : queuesWhere s f = [] := by
  unfold queuesWhere; rw [h]; rfl

theorem witness_PartitionsAreMade :
    ((List.range 6).all (fun n => !partReady (partAt n).chip 1 [] ) = true ∧
      partReady (mod' (partAt 3) (fun c => fsetb c aPART_CMD_STATUS 0 true)).chip 1 [1, 2, 3, 4, 5] = false) ∧
    (partReady (partAt 0).chip 1 [1, 2, 3, 4, 5] = false ∧ partReady (partAt 1).chip 1 [0] = false ∧ partReady (partAt 3).chip 1 [1, 2] = false ∧
      partReady (partAt 3).chip 1 [1] = false ∧ partReady (partAt 3).chip 1 [2] = false ∧ partReady (partAt 4).chip 1 [1, 2, 5] = false ∧
      partReady (partAt 4).chip 1 [3] = false ∧ partReady (partAt 4).chip 1 [5] = false ∧ partReady (partAt 4).chip 1 [1, 2, 3] = false) ∧
    (let s := partAt 3;
     let g := tileGroup 3;
     partReady s.chip 1 [1, 2, 3, 4, 5] = true ∧ g < 36 ∧ (2 ^ g).testBit g = true ∧ groupFree s.chip g = false ∧
      (heldGroups s.chip 1).testBit g = true ∧ (heldGroups s.chip 1).testBit 20 = false ∧ groupFree s.chip 20 = true) ∧
    (let s := mod' phaseS (fun c => modPart (fset c (aPART_STATUS 0) 3 0 3) 0 id);
     let g := tileGroup 4;
     partReady s.chip 0 [1, 2, 3, 4, 5] = true ∧ fbit s.chip aSTRIKE_CTL 0 = false ∧ (heldGroups s.chip 0).testBit g = true ∧
      groupHard s.chip g = true) ∧
    (partReady (partAt 0).chip 1 [0] = true ∧ (bitsBelow 36 (2 ^ 20)).all (groupFree (partAt 1).chip) = true ∧
      partReady (partAt 1).chip 1 [1, 2, 3, 4, 5] = true ∧ partState (partAt 1).chip 1 = 1 ∧
      movePending (partAt 1).chip 1 (2 ^ tileGroup 3) = false ∧ partState (partAt 3).chip 1 ≠ 1 ∧
      movePending (partAt 3).chip 1 (2 ^ tileGroup 3) = false ∧
      strikeOf (partAt 3).chip 1 < ((partAt 3).chip.radio.number + quenchLead (partAt 3).chip : Nat) ∧
      (∀ g, g < 36 → (2 ^ tileGroup 3).testBit g = true → (heldGroups (partAt 3).chip 1).testBit g = true)) ∧
    (let s := partOver 2 [2, 0, 1, 0, 3, 0xFF];
     let h := hearthRead s.chip 1 0x2002000 4;
     let b := hearthRead h.1 1 (0x2002000 + 4) 2;
     partReady s.chip 1 [1, 2, 3] = true ∧ h.2.2 = 0 ∧ bNat h.2.1 0 2 = 2 ∧ bNat h.2.1 2 1 = 1 ∧ b.2.2 = 0 ∧
      mapTilesOk (mapTiles s.chip 1) (b.2.1.map (·.toNat)) = true) ∧
    (allQuiet (partAt 4 (fun x => { x with moves := [leavingGroup] })).chip = true) := by decide +kernel

/-- The fields of a program are opaque: a program of this form, were they so, would be accepted. -/
theorem witness_PartitionsRunAndAreSaved :
    (let s := partOver 2 (List.replicate 64 0#8);
     partReady s.chip 1 [1, 2] = true ∧ (hearthRead s.chip 1 0x2002000 64).2.2 = 0 ∧ progCode s.chip 1 ⟨0x2002000, 1, 0, 0, 2, false⟩ = 0 ∧
      (hearthRead s.chip 1 0x180000000000 64).2.2 ≠ 0) ∧
    (partReady (partAt 2).chip 1 [2] = true ∧ partReady (partAt 3).chip 1 [3] = true ∧ 3 ∈ partTiles (partAt 3).chip 1 ∧
      90 ∉ partTiles (partAt 3).chip 1 ∧ partReady (partAt 5).chip 1 [5] = true ∧ partReady (partAt 5).chip 1 [1, 2, 5] = true) ∧
    (partState (partAt 4).chip 1 = 4 ∧ (getPart (partAt 4).chip 1).freezing = false ∧ partDrained (partAt 4).chip 1 = true) ∧
    (let s := mod' (partAt 4) (fun c => { c with qm := { c.qm with
       cached := [(5, subCtx 2 3 4)], xfers := [(5, [{ slot := 3, engine := 2, d := copyDesc 0x2012300 4 0x80 }])] } });
     partState s.chip 1 = 4 ∧ (getPart s.chip 1).freezing = false ∧ partXfers s.chip 1 ≠ [] ∧ partDrained s.chip 1 = false) ∧
    ((getPart (partAt 5).chip 1).saving = none ∧ (getPart (partAt 5 (fun x => { x with saving := some 0x2002000 })).chip 1).saving = some 0x2002000) ∧
    (let s := restorable;
     let h := hearthRead s.chip 1 0x2002000 4096;
     partReady s.chip 1 [1] = true ∧ h.2.2 = 0 ∧ bNat h.2.1 24 8 = 0 ∧ (getPart s.chip 1).prog = none ∧
      s.chip.images = [imageOf saveable.chip 1] ∧ imageOk s.chip 1 (imageOf saveable.chip 1) h.2.1 = true) ∧
    (let s := partOver 1 [1];
     bNat (hearthRead s.chip 1 0x2002000 4096).2.1 24 8 = 0 ∧ s.chip.images = [] ∧ partReady s.chip 1 [1] = true) ∧
    (qmReady upS.chip = false ∧ ∀ q, q < 16 → controller upS.chip q ≠ 3 ∨ partState upS.chip q ≠ 3) := by decide +kernel

theorem witness_GrantsAndRegulators :
    (let old := barGet grantedS.chip (aGRANT 0);
     setBits old 62 62 (bitsOf old 62 62) = old ∧ bitOf old 63 = true ∧ bitOf (barGet grantedS.chip (aGRANT 5)) 63 = false) ∧
    (let s := mod' grantedS withPart;
     let v := fields [(1, 63), (1, 58), (32, 32), (2, 0)];
     let bad := fields [(1, 63), (1, 58), (32, 32), (0, 0)];
     grantBad s.chip 0 v = false ∧ grantBad s.chip 5 v = false ∧ grantBad s.chip 5 bad = true ∧ grantBad s.chip 0 bad = true ∧ bitOf v 63 = true ∧
      setBits v 62 62 (bitsOf (barGet s.chip (aGRANT 0)) 62 62) ≠ barGet s.chip (aGRANT 0) ∧
      setBits bad 62 62 (bitsOf (barGet s.chip (aGRANT 5)) 62 62) ≠ barGet s.chip (aGRANT 5)) ∧
    (let s := (mod' grantedS withPart).chip;
     let above := fun (v : Nat) => decide (memCap s < slotSum s 0 3 1 (bitsOf v 63 32) (memCap s)) || decide (fabCap s < slotSum s 1 3 1 (bitsOf v 31 0) (fabCap s));
     above (fields [(5, 32), (7, 0)]) = false ∧ above (2 ^ 64 - 2 ^ 33 + 7) = true) ∧
    ((0, 3, 1) ∉ (getPart (partAt 3).chip 1).heldReq ∧
      (let s := partAt 3 (fun x => { x with heldReq := [(0, 3, 1)] });
       (0, 3, 1) ∈ (getPart s.chip 1).heldReq ∧ bwNow s.chip 1 0 = 0xFFFFFFFF) ∧
      (let s := tokens [(0, 3, 1)];
       (0, 3, 1) ∈ (getPart s.chip 1).heldReq ∧ bwNow s.chip 1 0 = 5 ∧ 1 ≤ bwTokens s.chip 1 0 3) ∧
      (let s := regulated [(0, 3, 4000000000)] 5;
       (0, 3, 4000000000) ∈ (getPart s.chip 1).heldReq ∧ bwNow s.chip 1 0 = 5 ∧ bwTokens s.chip 1 0 3 < 4000000000 ∧ borrows s.chip 1 0 = true)) := by
  decide +kernel

theorem witness_Mailboxes :
    (haspIdle (mailbox 2).chip 3 = true ∧ [1, 0x30, 0xF0, 0xF1, 0x8001].all (fun t => haspCode (mailbox 2).chip 3 true t 8 == 0) = true ∧
      [2, 0x31, 0x32, 0x40, 0x50, 0xF0, 0xF1, 0x8001].all (fun t => haspCode (mailbox 2).chip 3 false t 12 == 0) = true ∧
      [1, 0x30].all (fun t => haspCode (mailbox 12).chip 3 true t 8 != 0) = true ∧ haspCode (mailbox 2).chip 3 false 0x32 57 ≠ 0) ∧
    hearthMay (mailbox 2).chip 3 true = true ∧
    (haspCode toldToVacate.chip 3 true 0x11 4 = 0 ∧
      (List.range 16).find? (fun q => controller toldToVacate.chip q == 3 && (getPart toldToVacate.chip q).moves.any (fun m => m.nseq == 7)) = some 1 ∧
      leavingGroup ∈ (getPart toldToVacate.chip 1).moves ∧ 3 ∈ tilesOfGroups leavingGroup.groups) := by decide +kernel

/-- One more than the highest offset of a register array. -/
def span : List (Nat × Nat) → Nat
  | [] => 1
  | d :: l => d.1 * (d.2 - 1) + span l

theorem dimsHit_span : ∀ (l : List (Nat × Nat)) (off : Nat), dimsHit l off = true → off < span l
  | [], off, h => by simp only [dimsHit, beq_iff_eq] at h; simp only [span]; omega
  | d :: l, off, h => by
    simp only [dimsHit, Bool.and_eq_true, decide_eq_true_eq] at h
    have h2 := dimsHit_span l _ h.2
    have h1 : d.1 * (off / d.1) ≤ d.1 * (d.2 - 1) := Nat.mul_le_mul_left _ (by omega)
    have := Nat.div_add_mod off d.1
    simp only [span]; omega

theorem rowHit_span {a : Nat} {r : RegRow} (h : rowHit a r = true) : a < r.base + span r.dims := by
  simp only [rowHit, Bool.and_eq_true, decide_eq_true_eq] at h
  have := dimsHit_span _ _ h.2
  omega

/-- The Ward entries are 0 at reset. -/
theorem ward_reset (a : Nat) (h : 0x00C20000 ≤ a) (h' : a < 0x00E00000) : regReset a = 0#64 := by
  have ha : a % barSpan = a := Nat.mod_eq_of_lt (by unfold barSpan; omega)
  have hr : rowsAt a = rowsFabric := by
    unfold rowsAt
    rw [if_neg (by omega), if_neg (by omega), if_neg (by omega), if_neg (by omega), if_neg (by omega), if_neg (by omega), if_pos (by omega)]
  unfold regReset regRow
  rw [ha, hr]
  split
  · next r hf =>
    have hz : ∀ r ∈ rowsFabric, r.base + span r.dims ≤ 0x00C20000 ∨ r.reset = 0 := by decide
    rcases hz r (List.mem_of_find?_eq_some hf) with hb | hb
    · have := rowHit_span (List.find?_some hf); omega
    · rw [hb]
  · rfl

theorem tget_none {α : Type} (d : Nat → α) (k : Nat) : ∀ t : Tab α, (∀ x ∈ t, x.1 ≠ k) → tget d t k = d k
  | [], _ => rfl
  | x :: r, h => by
    rw [tget, if_neg (fun e => h x (List.mem_cons_self ..) e.symm)]
    exact tget_none d k r (fun y hy => h y (List.mem_cons_of_mem _ hy))

/-- No Ward entry but entry 3 has been written. -/
def onlyWard3 (s : Chip) : Bool := s.bar.all (fun x => decide (x.1 < 0x00C20000) || decide (0x00C30000 ≤ x.1) || x.1 == aFW_A 3 || x.1 == aFW_B 3)

theorem ward_zero {s : Chip} {w : Nat} (h : onlyWard3 s = true) (hw : w < 4096) (h3 : w ≠ 3) : barGet s (aFW_A w) = 0 := by
  unfold barGet
  rw [tget_none, ward_reset]
  · rfl
  · unfold aFW_A; omega
  · unfold aFW_A; omega
  · intro x hx e
    have hh := List.all_eq_true.1 h x hx
    simp only [Bool.or_eq_true, decide_eq_true_eq, beq_iff_eq, aFW_A, aFW_B] at hh e
    omega

/-- The Ward check where only entry 3 may admit: what that entry gives. -/
theorem wardCheck_three {s : Chip} {r : FabReq} (h : onlyWard3 s = true) : wardCheck s r =
    (if wardMatch s 3 r then (if wardAddr s (fget s (aFW_A 3) 61 58) r then (0, fget s (aFW_A 3) 61 58) else (0x3021, 16)) else (0x3010, 16)) := by
  have hf : (List.range 4096).filter (fun w => wardMatch s w r) = if wardMatch s 3 r then [3] else [] := by
    have hc : (List.range 4096).filter (fun w => wardMatch s w r) = (List.range 4096).filter (fun w => w == 3 && wardMatch s 3 r) := by
      refine List.filter_congr (fun w hw => ?_)
      by_cases h3 : w = 3
      · subst h3; simp
      · have hz := ward_zero h (List.mem_range.1 hw) h3
        simp [wardMatch, hz, h3, bitsOf]
    rw [hc]
    cases hm : wardMatch s 3 r
    · simp
    · simp only [Bool.and_true]
      rw [List.filter_beq, List.nodup_range.count, if_pos (List.mem_range.2 (by omega))]
      rfl
  unfold wardCheck
  rw [hf]
  cases wardMatch s 3 r <;> simp <;> cases wardAddr s (fget s (aFW_A 3) 61 58) r <;> rfl

/-- Where only entry 3 has been written and it is not the partition's own, there is none. -/
theorem ownWard_three {s : Chip} {p : Nat} (h : onlyWard3 s = true) (h3 : bitsOf (barGet s (aFW_A 3)) 47 32 ≠ devId s) : ownWard s p = none := by
  unfold ownWard
  rw [List.find?_eq_none]
  intro w hw
  by_cases h' : w = 3
  · subst h'; simp [h3]
  · simp [ward_zero h (List.mem_range.1 hw) h', bitsOf]

theorem witness_FabricLinks :
    (fbit upS.chip (aFL_CTL 9) 0 = false ∧ linkPowered upS.chip 9 = true ∧ linkIsUp upS.chip 9 = false ∧ linkState upS.chip 9 = 0 ∧
      linkIsUp twoLinks.chip 9 = true ∧ fbit twoLinks.chip (aFL_CTL 9) 0 = true ∧ linkPowered twoLinks.chip 9 = true) ∧
    ([1, 4].all (fun n =>
      let s := links [(9, n)] upS
      fbit s.chip (aFL_CTL 9) 0 && linkPowered s.chip 9 && linkState s.chip 9 == n && fget s.chip (aFL_STATUS 9) 40 32 == 0)) = true ∧
    (tget (fun _ => 0) twoLinks.chip.fab.retries 9 < 7 ∧
      7 ≤ tget (fun _ => 0) (fabIs (fun f => { f with retries := [(9, 7)] }) twoLinks).chip.fab.retries 9) ∧
    (let s := linkField 9 31 28 3 twoLinks;
     linkIsUp s.chip 9 = true ∧ (fget s.chip (aFL_STATUS 9) 40 32).testBit 5 = false ∧ fget s.chip (aFL_STATUS 9) 31 28 ≠ 0xF ∧
      (List.range 9).filter (fun x => x != fget s.chip (aFL_STATUS 9) 31 28 && !(fget s.chip (aFL_STATUS 9) 40 32).testBit x) ≠ []) ∧
    (let s := linkField 9 31 28 0xF twoLinks;
     (fget s.chip (aFL_STATUS 9) 40 32).testBit 5 = false ∧ fget s.chip (aFL_STATUS 9) 31 28 = 0xF ∧
      4 ≤ 9 - wlCount (Nat.lor (fget s.chip (aFL_STATUS 9) 40 32) (2 ^ 5)) ∧ linkState s.chip 9 = 2) ∧
    (let s := mod' twoLinks (fun c => fsetb c (aFL_CTL 9) 1 true);
     linkState s.chip 9 ≠ 0 ∧ fbit s.chip (aFL_CTL 9) 1 = true ∧ (List.range 2).find? (fun j => !tmem s.chip.fab.fibres (2 * (9 / 8) + j)) = some 0) := by
  decide +kernel

theorem witness_RoutesChange :
    nobodyWaits routed.chip = true ∧ linkIsUp routed.chip 9 = true ∧ nextLink (setLink routed.chip 9 4) 9 = some 7 ∧ mapEntry routed.chip 0 = 9 ∧
      mapEntry routed.chip 1 ≠ 9 ∧ mapEntry routed.chip 24 = bitsOf (BitVec.ofNat 64 (barGet routed.chip (aFAB_LINKMAP 3))).toNat 4 0 ∧
      request 12 5 9 ∈ routed.chip.fab.reqs ∧ (request 12 5 9).epoch = fget routed.chip aFAB_STATUS 47 40 ∧ 12 ≠ devId routed.chip := by decide +kernel

theorem witness_RequestsArrive_checks :
    (wardCheck (warded fabS).chip (arriving 0 6 [])).1 ≠ 0 ∧ wardCheck (warded fabS).chip (arriving 0 5 []) = (0, 1) ∧
      wardCheck (warded fabS).chip (arriving 1 5 (List.replicate 16 7#8)) = (0, 1) := by
  have h : onlyWard3 (warded fabS).chip = true := by decide +kernel
  rw [wardCheck_three h, wardCheck_three h, wardCheck_three h]
  decide +kernel

theorem witness_RequestsArrive :
    (fabServes upS.chip 11 = false ∧ fabServes (warded fabS).chip 11 = true ∧ (warded fabS).chip.fab.reorder = [] ∧ (warded fabS).chip.fab.hot = [] ∧
      (warded fabS).chip.fab.refused = [] ∧ (arriving 0 5 []).seqNo = tget (fun _ => 0) (warded fabS).chip.fab.expect 11) ∧
    onlyWard3 (warded fabS).chip = true ∧ wardMatch (warded fabS).chip 3 (arriving 0 6 []) = false ∧
    (let s := warded fabS;
     let a := (arriving 0 5 []).addr;
     let r := arriving 1 5 (List.replicate 16 7#8);
     wardMatch s.chip 3 (arriving 0 5 []) = true ∧ wardMatch s.chip 3 r = true ∧ fget s.chip (aFW_A 3) 61 58 = 1 ∧
      wardAddr s.chip 1 (arriving 0 5 []) = true ∧ wardAddr s.chip 1 r = true ∧ bitOf a 47 = true ∧ physOf s.chip 1 (bitsOf a 39 32) = some 3 ∧
      tileOpen s.chip 3 = true ∧ inBanks (bitsOf a 21 0) (reqBytes (arriving 0 5 [])) = true ∧ inBanks (bitsOf a 21 0) (reqBytes r) = true ∧
      tileQuiet s.chip 3 = true ∧ wordsClean s 3 (bitsOf a 21 0) 16 = true ∧ bitsOf a 21 0 % 8 = 0) ∧
    (let s := fabIs (fun f => { f with hot := [hotUpdate] }) (warded fabS);
     nextSource upS.chip 3 = none ∧ s.chip.fab.hot = [hotUpdate] ∧ s.chip.fab.reorder = [] ∧ nobodyWaits s.chip = true) := by decide +kernel

theorem witness_AnswersArrive :
    (nobodyWaits fabS.chip = true ∧ fabS.chip.fab.reqs.find? (fun r => r.dest == 11 && r.seqNo == 5) = none) ∧
    (nobodyWaits awaiting.chip = true ∧ awaiting.chip.fab.reqs = [request 11 5 9] ∧ awaiting.chip.fab.waiting = [] ∧
      (request 11 5 9).rd = some 4 ∧ (request 11 5 9).kind = 0 ∧ (request 11 5 9).operand = 8 ∧ (request 11 5 9).op = 0 ∧
      (request 11 5 9).covered = false ∧ (request 11 5 9).owner.part < 16 ∧ tmem (getStrand awaiting.chip 3 2).busy (codeS 4) = true) := by decide +kernel

theorem witness_JobsStreamsAndTime :
    (nobodyWaits (warded fabS).chip = true ∧ (warded fabS).chip.fab.waiting = [] ∧
      (readJob (jobOver []).chip 1 (fget (jobOver []).chip (aFJ_IMAGE 1) 47 0)).2 = none ∧ nobodyWaits (jobOver []).chip = true) ∧
    (let s := jobOver jobImage;
     ((readJob s.chip 1 (fget s.chip (aFJ_IMAGE 1) 47 0)).2).map (·.nchips) = some 2 ∧ nobodyWaits s.chip = true) ∧
    (let s := mod' (warded fabS) (fun c => fset c (aFW_A 3) 63 62 1);
     fget (warded fabS).chip (aFW_A 3) 63 62 ≠ 1 ∧ fget s.chip (aFW_A 3) 63 62 = 1 ∧ actTimeCome s.chip 3 = true) ∧
    (let s := fabIs (fun f => { f with ops := [multicast], reqs := [{ request 11 5 9 with op := 3 }] }) fabS;
     fabS.chip.fab.ops.find? (fun o => o.id == 3 && o.kind == 2) = none ∧ s.chip.fab.ops.find? (fun o => o.id == 3 && o.kind == 2) = some multicast ∧
      multicast.receivers.any (fun x => x.1 == 1 && x.2.2) = true) ∧
    (let s := fabIs (fun f => { f with gathers := [gathered] }) fabS;
     fabS.chip.fab.gathers = [] ∧ s.chip.fab.gathers = [gathered] ∧ (rankDev s.chip 1 1).1 = 11 ∧ accepts s.chip 11 = true) ∧
    (fbit upS.chip aFAB_TIME 0 = false ∧ fbit (timed true).chip aFAB_TIME 0 = true ∧ linkIsUp (timed true).chip 9 = true ∧
      capsOff (timed true).chip = true ∧ trigsOff (timed true).chip = true ∧ (timed true).chip.fab.timeDone = true ∧
      (timed false).chip.fab.timeDone = false ∧ linkIsUp (timed false).chip 9 = true ∧
      ((2 ^ 50 + 7 * 2 ^ 34 : Nat) : Int) = (tbGet (timed false).chip 1 : Int) - (-7) * 2 ^ 34) := by decide +kernel

theorem witness_JobsStreamsAndTime_ward : ownWard (jobOver jobImage).chip 1 = none :=
  ownWard_three (by decide +kernel) (by decide +kernel)

theorem witness_RecordsReduce :
    (nobodyWaits groupsS.chip = true ∧ (groupRanks groupsS.chip 1 0).length = 2 ∧ (groupRanks groupsS.chip 1 1).length = 1 ∧
      groupsS.chip.fab.reductions = [] ∧ recOfBytes ((recBytes reduced).map (·.1)) 0 = some reduced ∧ reduced.empty = false ∧ reduced.tag.kind ≤ 2) ∧
    (physOf groupsS.chip 1 0 = some 3 ∧ tileOpen groupsS.chip 3 = true ∧ redWait groupsS.chip (keyOf 1) = none ∧
      stripeFits headOf'.ddata reduced.rows = true ∧ headOf'.cnt < 64) ∧
    (let s := fabIs (fun f => { f with reductions := [reducing] }) groupsS;
     s.chip.fab.reductions.find? (fun y => y.key == keyOf 0 && !y.ended) = some reducing ∧ (keyOf 0).phase ≠ 1 ∧ redWait s.chip (keyOf 0) = none ∧
      nobodyWaits s.chip = true ∧ stripeFits reducing.head.ddata reducing.shape.rows = true) := by decide +kernel

theorem witness_ResetsAndBoot :
    (upS.chip.boot.pwrgood = true ∧ (bootIs (fun b => { b with pwrgood := false }) upS).chip.boot.pwrgood = false ∧ alive upS.chip = true ∧
      upS.chip.ras.tripped = false ∧ alive (bootIs (fun b => { b with off := true }) upS).chip = false) ∧
    (alive State.reset.chip = true ∧ State.reset.chip.boot.perst = false ∧ State.reset.chip.ras.tripped = false ∧ stageNow State.reset.chip = 0 ∧
      State.reset.chip.boot.early = []) ∧
    (hearthRuns State.reset.chip = false ∧ hearthRuns hearthS.chip = true ∧ hearthS.chip.boot.hearth = some (9, 1)) ∧
    (((hearthS.chip.boot.hearth.map (·.2)) == some 1 || Nat.lor (fget hearthS.chip aSEC_STATUS 39 36) (2 ^ 1) == 0xF) = true ∧
      ((hearthS.chip.boot.hearth.map (·.2)) == some 2 || Nat.lor (fget hearthS.chip aSEC_STATUS 39 36) (2 ^ 2) == 0xF) = false) ∧
    (upS.chip.boot.load = none ∧ (inStage 1 upS).chip.boot.load = none ∧ stageNow (inStage 1 upS).chip = 1) ∧
    (let s := loading paramBlock (inStage 2 upS);
     s.chip.boot.load = some ⟨0x1000, 24⟩ ∧ mread s.chip.mem.host 0x1000 24 = paramBlock ∧ bNat paramBlock 0 1 = 6 ∧
      blockCode s.chip 24 paramBlock ≠ 0 ∧ hostShut s.chip = false) := by decide +kernel

/-- Whether an image is accepted rests on the keys' hashes and on the signature, which are opaque: one that meets them passes, and
it is a Hearth image. -/
theorem witness_ResetsAndBoot_image (hk : sha3 ((hearthImage.drop 48).take 1312) = (Config.keyHash 2).take 32)
    (hs : Config.sigOk 0 ((hearthImage.drop 48).take 3732 ++ sha3 (hearthImage.take 48)) = true) :
    imageCode (inStage 2 upS).chip hearthImage.length hearthImage = 0 ∧ bNat hearthImage 0 1 = 1 := by
  have h1 : bNat hearthImage 1 1 = 2 := by decide +kernel
  refine ⟨?_, by decide +kernel⟩
  simp only [imageCode, h1, hk, hs, bne_self_eq_false, Bool.or_false]
  rw [if_neg (by decide +kernel), if_neg (by decide +kernel), if_neg (by decide +kernel), if_neg (by decide +kernel), if_neg (by decide +kernel)]
  rfl

theorem witness_AttestationAndHostLink :
    (alive State.reset.chip = true ∧ stageNow State.reset.chip = 0 ∧ alive upS.chip = true ∧ stageNow upS.chip ≠ 0 ∧ upS.chip.boot.hearth = none ∧
      hearthS.chip.boot.hearth ≠ none ∧ stageNow hearthS.chip ≠ 0 ∧ hearthS.chip.boot.sessionKey = none) ∧
    (sessionS.chip.boot.session ≠ none ∧ sessionS.chip.boot.sessionKey = none ∧ (List.replicate 1088 1#8).length = 1088 ∧ (List.replicate 32 1#8).length = 32) ∧
    (alive keyedS.chip = true ∧ stageNow keyedS.chip ≠ 0 ∧ keyedS.chip.boot.sessionKey = some [7#8, 8#8] ∧
      tget (fun _ => []) keyedS.chip.boot.ideKeys (ideKey 0 0 0) ≠ []) ∧
    (bitOf (1#64).toNat 0 = true ∧ fbit upS.chip aHOST_BIAS 63 = false ∧ upS.chip.mem.flip = none ∧
      (mod' upS (fun c => { c with mem := { c.mem with flip := some (5, true) } })).chip.mem.flip = some (5, true) ∧ tmem upS.chip.boot.insecure 1 = false) ∧
    (stageNow State.reset.chip < 3 ∧ 3 ≤ stageNow upS.chip ∧ (List.range 32).any (fun k => (sensor upS.chip k).isSome) = true ∧ upS.chip.boot.perst = false) := by
  decide +kernel

/-- Whether a key is accepted rests on the session's cryptography, which is opaque: a payload that opens a key of stream 0 does. -/
theorem witness_AttestationAndHostLink_keys : ([7#8] : List (BitVec 8)).length ≤ 8184 ∧ ideOk 0 0 0 = true ∧ ideOk 1 1 1 = true := by decide

theorem witness_TestsErrorsAndHealth :
    (upS.chip.ras.wanted = [] ∧ temperMay State.reset.chip 5 = false ∧ temperCan (inStage 6 upS).chip 5 = true ∧ stageNow (inStage 6 upS).chip = 6 ∧
      temperCan (inStage 5 upS).chip 5 = true ∧ stageNow (inStage 5 upS).chip ≠ 6 ∧ (inStage 5 upS).chip.ras.wanted = [] ∧
      (∀ p, p < 16 → (heldGroups (inStage 5 upS).chip p).testBit 5 = false) ∧
      (∀ p, p < 16 → (heldGroups (inStage 6 upS).chip p).testBit 5 = false)) ∧
    (upS.chip.ras.tests.find? (fun x => x.group == 5 && !x.back) = none ∧
      (testing 5 (inStage 6 upS)).chip.ras.tests.find? (fun x => x.group == 5 && !x.back) = some ⟨5, 16, [], false⟩ ∧
      (∀ k, k ∈ groupTiles 5 → tileHeld (testing 5 (inStage 6 upS)).chip k = false) ∧
      failingTiles (testing 5 (inStage 6 upS)).chip 5 1 ≠ [] ∧
      ((groupTiles 5).any (fun k => tileEnabled (testing 5 (inStage 6 upS)).chip k && !tileFenced (testing 5 (inStage 6 upS)).chip k &&
        !(failingTiles (testing 5 (inStage 6 upS)).chip 5 1).contains k)) = true) ∧
    (hearthRuns State.reset.chip = false ∧ hearthRuns upS.chip = true) := by decide +kernel

theorem witness_PowerAndPins :
    ((∀ k, k < 50 → (0x3FFFFFFFFFFFF#64).toNat.testBit k = fbit upS.chip aPWR_DOMAIN k) ∧ upS.chip.ras.tripped = false) ∧
    (let only := fun (s : State) (d : Nat) => (List.range 50).all (fun k => k == d || (BitVec.ofNat 64 (0x3FFFFFFFFFFFF ^^^ (2 ^ d))).toNat.testBit k == fbit s.chip aPWR_DOMAIN k) &&
        !s.chip.ras.tripped && !s.chip.ras.dead.testBit d && (decide (36 ≤ d) || groupEnabled s.chip d) && !(BitVec.ofNat 64 (0x3FFFFFFFFFFFF ^^^ (2 ^ d))).toNat.testBit d;
     only upS 47 = true ∧ fbit upS.chip aPWR_DOMAIN 47 = true ∧ mayOff upS.chip 47 = false ∧ only upS 5 = true ∧ mayOff upS.chip 5 = true) ∧
    (let s := domain 5 false upS;
     (∀ k, k < 50 → k ≠ 5 → (0x3FFFFFFFFFFFF#64).toNat.testBit k = fbit s.chip aPWR_DOMAIN k) ∧ fbit s.chip aPWR_DOMAIN 5 = false ∧
      groupEnabled s.chip 5 = true) ∧
    (let s := rasIs (fun r => { r with rising := 2 ^ 42 }) (links [(9, 1)] upS);
     upS.chip.ras.rising.testBit 42 = false ∧ s.chip.ras.rising.testBit 42 = true ∧ fbit s.chip aPWR_DOMAIN 42 = true ∧
      fbit upS.chip (aFL_CTL 1) 0 = false ∧ fbit s.chip (aFL_CTL 9) 0 = true ∧ allQuiet upS.chip = true) ∧
    (alive capped.chip = true ∧ capped.chip.ras.tripped = false ∧ powerLimit capped.chip + 100 < 1000 ∧ 700 ≤ powerLimit capped.chip ∧
      3 ∈ partTiles capped.chip 1 ∧ tileEnabled capped.chip 3 = true) ∧
    (upS.chip.ras.below < 100 ∧ stepped.chip.ras.steps = [powerStep, ⟨[], true, 900, none⟩] ∧ 100 ≤ stepped.chip.ras.below ∧
      stepped.chip.ras.brake = false ∧ fbit stepped.chip aPWR_STATUS 46 = false ∧ upS.chip.ras.above < 1000 ∧ 1000 ≤ noSteps.chip.ras.above ∧
      noStepLeft noSteps.chip = true) ∧
    (let t := fun (a : Int) => fset (fset (fset (fset upS.chip aTHERM_TEMP 63 48 (wrap 16 a)) aTHERM_TEMP 47 32 (wrap 16 100)) aTHERM_TEMP 31 16 (wrap 16 100)) aTHERM_TEMP 15 0 (wrap 16 100);
     (fget upS.chip aTHERM_CFG 31 16 : Int) ≤ junction (t 2500) ∧ junction (t 100) < (fget upS.chip aTHERM_CFG 31 16 : Int) ∧
      junction (t 100) < (fget upS.chip aTHERM_CFG 15 0 : Int) - 48) ∧
    ((rasIs (fun r => { r with brake := true }) upS).chip.ras.brake = true ∧ State.reset.chip.ras.brake = false ∧ stageNow State.reset.chip = 0 ∧
      upS.chip.ras.brake = false ∧ hearthRuns upS.chip = true ∧ domainOn upS.chip 49 = true) := by decide +kernel

theorem witness_Observation :
    (let s := watching;
     twf (fun _ => (0 : Nat)) s.chip.ctrLive = true ∧ (getWatch s.chip 5).came = [] ∧ (getWatch s.chip 6).came ≠ [] ∧ s.chip.obs.results = [] ∧
      fbit upS.chip aTW_CTL 0 = false ∧ s.chip.taps.find? (fun x => x.id == 9) = none ∧
      s.chip.taps.find? (fun x => x.id == 1) = some (piece 1 5) ∧ s.chip.taps.find? (fun x => x.id == 3) = some (piece 3 900) ∧
      watchTakes s.chip (piece 1 5) false = true ∧ watchTakes s.chip (piece 3 900) false = false ∧
      getWatch s.chip 5 = { cfg := (getWatch s.chip 5).cfg, seq := (getWatch s.chip 5).seq }) ∧
    ((let s := mod' watching (fun c => fsetb c aTW_CTL 0 false);
      (getWatch s.chip 6).came ≠ [] ∧ s.chip.obs.results = [] ∧ fbit s.chip aTW_CTL 0 = false)) ∧
    (fbit upS.chip aTR_CTL 0 = false ∧
      ([2, 5].all (fun n =>
        let s := tracing n [] upS
        fbit s.chip aTR_CTL 0 && debugPowered s.chip && (fget s.chip aTR_CTL 63 48).testBit 9 && s.chip.obs.dropping.isNone &&
          decide (s.chip.obs.fifo.length < 512) && traceState s.chip == n)) = true) ∧
    (traceState upS.chip ≠ 1 ∧ traceState (tracing 1 [] upS).chip = 1 ∧ fbit (tracing 1 [] upS).chip aTR_CTL 2 = false ∧
      traceState (tracing 3 [] upS).chip = 3) ∧
    (let s := obsIs (fun o => { o with pre := [traced], post := [traced] }) (tracing 4 [] (mod' upS (fun c => barSet c aTR_DRAIN (2 ^ 61 + 0x40000))));
     traceState s.chip = 4 ∧ barGet s.chip aTR_DRAIN / 2 ^ 60 = 2 ∧ s.chip.boot.undervolt = false ∧ fbit s.chip (aDLOG_CTL 0) 0 = false ∧
      s.chip.mem.dlogHeld = []) ∧
    (let s := obsIs (fun o => { o with fifo := [traced, traced], pre := [traced] }) (tracing 1 [] upS);
     s.chip.obs.fifo = [traced, traced] ∧ traceState s.chip = 1 ∧ s.chip.obs.post = [] ∧ s.chip.obs.trigNext = false ∧ bitOf (bNat traced 9 1) 0 = false ∧
      s.chip.obs.dropping = none ∧ s.chip.obs.pre.length < fget s.chip aTR_CTL 47 31) ∧
    (fbit (mod' upS (fun c => fsetb c aSNAP_STATUS 0 true)).chip aSNAP_STATUS 0 = true ∧ fbit upS.chip aSNAP_STATUS 0 = false ∧
      3 ≤ stageNow upS.chip ∧ stageNow upS.chip ≤ 6 ∧ stageNow State.reset.chip < 3 ∧ upS.chip.obs.shadow = none ∧
      (obsIs (fun o => { o with shadow := some [1#8, 2#8] }) upS).chip.obs.shadow = some [1#8, 2#8]) := by decide +kernel

/-- A queue of well-formed commands, and the queue after reset. -/
theorem witness_StepKeepsQueueOk :
    wellFormed .epochBump = true ∧ wellFormed .strikeBoundary = true ∧ State.reset.pending = [] := by decide

theorem witness_queueOk : queueOk { State.reset with pending := [.epochBump, .strikeBoundary] } := by
  intro c hc
  simp only [List.mem_cons, List.not_mem_nil, or_false] at hc
  rcases hc with rfl | rfl <;> decide

-- Ill-formed commands --------------------------------------------------------------------------------------

/-- Units that the part does not have. -/
theorem test_ill_formed_units :
    ([.registerWrite 64 0 8 0#64, .registerReadSideEffect 64 0 8, .meshFlitResend 0x240 false, .meshFlitResend 0x40C false, .governorFrame 144 0 0 0 0 0,
      .eccWriteBack 3 32, .scrubLine 144 0, .tileZero 144, .tileHalt 144 true, .strandEnable 3 256, .strandEnable 144 1, .tileGovWrite 144 0#64,
      .fetchLineArrival 144 0, .paneArrival 3 8, .bufferSwap 3 8, .waitSatisfied 3 8, .waitTimeout 144 0, .xldComplete 144, .mmPassComplete 144,
      .fullerOpComplete 144, .dtapComplete 144, .asyncFaultTaken 3 8] : List Instr).all (fun c => !wellFormed c) = true := by decide

theorem test_ill_formed_memory_and_queues :
    ([.channelFence 32, .caParityError 32 true, .memRead 17 0 0 8, .memRead 0 64 0 8, .memWrite 17 0 0 [] false, .patrolScrub 32, .softPpr 32 0, .refresh 32,
      .swageQuery 32 0 0 [], .swageAppend 0 16 0 [], .swagePageComplete 0 24, .swageFence 32, .append 64 0, .writeContext 0 1048576, .qmDoorbell 0 1048576 0,
      .engineAbort 16, .engineEnable 16 true, .descriptorStart 1048576, .contextLost 1048576, .engineFailure 16] : List Instr).all
      (fun c => !wellFormed c) = true := by decide

theorem test_ill_formed_radio_and_time :
    ([.phaseStart 65536, .unmute 256, .codingBlockComplete 2 0, .codingBlockComplete 0 8, .codingHalfFailure 2, .frameReceived 8 (uplink true),
      .egressLateDiscard 0 16, .shaperWrite false 8 0 false 0#64, .shaperWrite true 32 0 false 0#64, .policerWrite 8 false 0#64, .portEnable 8 true,
      .egressRingWrite 0 4 0#64, .timeBaseStep 4 0#64, .tbSecRead 64 0, .timeTriggerArm 16 0#64, .timeOutPulseEnd 2, .timeInEdge 4 true,
      .captureRead 16] : List Instr).all (fun c => !wellFormed c) = true := by decide

theorem test_ill_formed_partitions_and_fabric :
    ([.partCreate 16, .partAdd 1 (2 ^ 36), .partMove 1 0 32 0, .partMove 1 0 2 (2 ^ 32), .grantWrite 256 0#64, .bwSlotWrite 0 64 false 0#64, .vfFlr 0, .vfFlr 64,
      .hello 0 0 0, .hello 64 0 0, .ack 0 2 0, .ack 1 3 0, .haspPop 0 2, .linkEnable 32 true, .wavelengthFail 0 9, .linkmapWrite 4 0#64,
      .jobFence 16, .wardWrite 4096 false 0#64, .reductionTimeout ⟨16, 0, 0, 0, 0⟩] : List Instr).all (fun c => !wellFormed c) = true := by decide

theorem test_ill_formed_rest :
    ([.revoke 4, .getMeasurements false [] 256, .extend false 256 [], .keyGo false 2 0 0, .keyStop false 0 2 0, .ideIntegrityFailure 2, .entdaa 128,
      .setEndpointId 256, .temperSchedule 36, .temperTestComplete 0 16, .parityError 144 true 0 0 0 0, .fatalError 0 0, .fatalError 4 0,
      .domainPowerUpComplete 50, .regulatorFault 50, .counterClose (2 ^ 17), .closeTimeRead 17, .watchWrite 1024, .traceEntry 0 0 0 16 0,
      .ptpMessageTransmit 8 0] : List Instr).all (fun c => !wellFormed c) = true := by decide

/-- A slot of the wrong class, a unit beyond the last, and a field too large for its place. -/
theorem test_ill_formed_slots :
    ([.br (at' 1) 0, .br (at' 0) (2 ^ 21), .scalarAlu (at' 2) ⟨1, 2, 3, 0⟩, .scalarAlu ⟨144, 0, 0, false, 0, true⟩ ⟨1, 2, 3, 0⟩,
      .scalarAlu ⟨3, 8, 0, false, 0, true⟩ ⟨1, 2, 3, 0⟩, .scalarAlu ⟨3, 0, 0, false, 8, true⟩ ⟨1, 2, 3, 0⟩, .scalarAlu (at' 0) ⟨32, 2, 3, 0⟩,
      .scalarAlu (at' 0) ⟨1, 2, 3, 64⟩, .scalarAluImm (at' 0) 0x25 ⟨1, 2, 3⟩, .scalarAluImm (at' 0) 0x21 ⟨1, 2, 2048⟩, .li (at' 0) ⟨1, 65536⟩,
      .wait (at' 0) ⟨64, 0, 0, 0⟩, .scalarLoad (at' 1) 0x47 ⟨1, 2, 0⟩, .send (at' 1) ⟨1, 2, 2048⟩, .mm (at' 3) ⟨1, 2, 32, 0⟩, .mm (at' 2) ⟨1, 2, 0, 0⟩,
      .loop (at' 0) 0 65536, .nop (at' 4)] : List Instr).all (fun c => !wellFormed c) = true := by decide

/-- Commands at the ends of their ranges are well formed. -/
theorem test_well_formed_bounds :
    ([.registerWrite 63 0 8 0#64, .meshFlitResend 0 true, .meshFlitResend 0x40B true, .eccWriteBack 143 31, .strandEnable 143 255, .nop (at' 3),
      .br ⟨143, 7, 0, true, 7, false⟩ (2 ^ 21 - 1), .scalarAlu (at' 1) ⟨31, 31, 31, 63⟩, .mm (at' 3) ⟨31, 31, 31, 63⟩, .memRead 16 63 0 8,
      .append 63 1048575, .phaseStart 65535, .shaperWrite true 31 15 true 0#64, .partMove 15 (2 ^ 36 - 1) 31 (2 ^ 32 - 1), .ack 0 1 0, .haspPop 63 2,
      .wardWrite 4095 true 0#64, .extend true 255 [], .fatalError 3 0, .watchFlush 1023] : List Instr).all wellFormed = true := by decide

-- Results from the spec's own examples and rules -------------------------------------------------------------

/-- SHA3-256 of no bytes, as FIPS 202 gives it. -/
theorem test_sha3_empty : sha3 [] = [0xA7#8, 0xFF#8, 0xC6#8, 0xF8#8, 0xBF#8, 0x1E#8, 0xD7#8, 0x66#8, 0x51#8, 0xC1#8, 0x47#8, 0x56#8, 0xA0#8, 0x61#8, 0xD6#8, 0x62#8, 0xF5#8, 0x80#8, 0xFF#8, 0x4D#8, 0xE4#8, 0x3B#8, 0x49#8, 0xFA#8, 0x82#8, 0xD8#8, 0x0A#8, 0x4B#8, 0x80#8, 0xF8#8, 0x43#8, 0x4A#8] := by decide +kernel

/-- Tile (7, 3) lies in group 9 with (6, 2), (7, 2) and (6, 3) (the example of R31, R32); its window and the last tile's (that of R28). -/
theorem test_tile_places :
    tileGroup 43 = 9 ∧ groupTiles 9 = [30, 31, 42, 43] ∧ aTILE_CTL 43 = 0x022B0000 ∧ aTILE_CTL 143 = 0x028F0000 := by decide +kernel

/-- The order of sums matters (the example below R93): each tie rounds to even, and the other order is exact. -/
theorem test_order_of_sums :
    (fAdd (fAdd 0x3F800000 0x33800000).1 0x33800000).1 = 0x3F800000 ∧ (fAdd 0x3F800000 (fAdd 0x33800000 0x33800000).1).1 = 0x3F800001 := by
  decide +kernel

/-- A block at w = 9 whose largest magnitude is 3,000 (the example of R78, R79). -/
theorem test_block_compression :
    bfpBlock 9 [3000, -2010] = (4, [188, 386], 0) ∧ bfpParts 9 (4, [188, 386]) = ([3008, -2016], 0) := by decide +kernel

/-- The channel and the module byte of an address on a 32-way set (the example of R289, R290). -/
theorem test_channel_of_the_example : channelHash 0 5 0x12345600 = (28, 0x91A200) := by decide +kernel

/-- Slots of partitions 0, 1 and 2 as in the example below R539: 100,000 units more are refused, 61,250 fit. -/
def budgeted : State := mod' (mod' memS (fun c => withPart c)) (fun c =>
  [(0, 120000), (1, 500000), (2, 600000)].foldl (fun c x => barSet c (aBW_SLOT_A x.1 3) (x.2 * 2 ^ 32)) c)
theorem test_budgets :
    memCap budgeted.chip = 1281250 ∧
    fget (after (.bwSlotWrite 3 3 false (BitVec.ofNat 64 (100000 * 2 ^ 32))) budgeted).chip (aPART_STATUS 3) 63 48 = 0x4004 ∧
    fget (after (.bwSlotWrite 3 3 false (BitVec.ofNat 64 (61250 * 2 ^ 32))) budgeted).chip (aBW_SLOT_A 3 3) 63 32 = 61250 := by decide +kernel

/-- The part of the example of R643: group 9 failed, three links on their spares, link 17 at half rate, CE_SCALE 100. -/
def worn : State := mod' (links [(3, 2), (5, 2), (9, 2), (17, 3)] upS) (fun c =>
  let c1 := [3, 5, 9, 17].foldl (fun c l => fset c (aFL_STATUS l) 31 28 0xF) (fset c aHEALTH_CFG 15 0 100)
  (groupTiles 9).foldl (fun c t => fsetb c (aTILE_STATUS t) 1 true) c1)
theorem test_health_score :
    healthScore worn.chip 2400 = 947 ∧ healthScore (mod' worn (fun c => fset c (aMEM_STATUS 12) 7 4 4)).chip 2400 = 940 := by decide +kernel

/-- A shaper of 40 Gb/s gains 40 bytes in a tick of 8 ns, and its peak bucket 50 (the example below R484). -/
theorem test_shaper_tick :
    let s := mod' upS (fun c => setPort (barSet c (aFH 0 0x150) (shapeValue false (fields [(25600, 20), (20480, 0)]))) 0 { shapers := [(5, ⟨0, 0⟩)] })
    portBucket (after .shaperTick s).chip 0 5 = ⟨40 * 4096, 50 * 4096⟩ := by decide +kernel

/-- Scalar arithmetic wraps, and s0 discards what is written to it (R178, R246). -/
theorem test_scalar_arithmetic :
    rdS (strandOf (after (.scalarAlu (at' 0) ⟨10, 3, 5, 1⟩) (running regs)) (at' 0)) 10 = 2 ^ 64 - 2 ∧
    rdS (strandOf (after (.scalarMul (at' 0) ⟨10, 3, 5, 8⟩) (running regs)) (at' 0)) 10 = 35 ∧
    rdS (strandOf (after (.scalarAlu (at' 0) ⟨0, 3, 5, 0⟩) (running regs)) (at' 0)) 0 = 0 := by decide +kernel

/-- Immediates are sign-extended, and a branch of −3 goes back three bundles (R192; the example below R201). -/
theorem test_immediates_and_branches :
    rdS (strandOf (after (.scalarAluImm (at' 0) 0x21 ⟨10, 3, 0x7FF⟩) (running regs)) (at' 0)) 10 = 4 ∧
    (strandOf (after (.br (at' 0) (2 ^ 21 - 3)) (running regs)) (at' 0)).pc = 14 := by decide +kernel

/-- A message of 2,048 bytes to logical tile 9, with the registers of the example below R222. -/
theorem test_send_registers :
    let s := mod' (running { regs with s := [(8, 0x0000090500040000#64), (9, 0x0000080002018000#64)] }) (fun c =>
      modPart c (tilePart c 3) (fun x => { x with map := List.replicate 9 0xFF ++ [56] }))
    ((after (.send (at' 1) ⟨8, 9, 0⟩) s).chip.flights).map (fun f => (f.rcnt, f.raddr, f.laddr, f.lcnt, f.words.length)) =
      [(5, 0x40000, 0x18000, 2, 256)] := by decide +kernel

/-- No command has bits, so no word spells one. -/
theorem test_no_words : decodeTableWord 64 0x1234 = none ∧ decodeTableWord 0 0 = none := by decide

/-- A unit that the part does not have faults, and a step takes the front command first. -/
theorem test_step :
    (match exec (.tileZero 144) State.reset with
      | .fault _ => true
      | _ => false) = true ∧
    (match step { State.reset with pending := [.pwrgoodDeassert, .undervoltage] } with
      | .next t => t.pending == [.undervoltage] && !t.chip.boot.pwrgood
      | _ => false) = true := by decide +kernel

end Sys2Proof.Tests
end

section
/-! SUPPORT. An access that BAR0 refuses (R24): what a write and a read do, and what the refusal leaves unchanged. -/

namespace Sys2Proof.Proofs

open Sys2Proof.Machine

/-- A field that counts is all that differs: every other register and every other part of the block stands. -/
theorem regsOnly_fsat (s : State) (k hi lo n : Nat) : regsOnly [k] s { s with chip := fsat s.chip k hi lo n } := by
  refine ⟨rfl, fun k' hk => ?_⟩
  exact barGet_fset_other s.chip hi lo _ (List.ne_of_not_mem_cons hk)

/-- A refused access finds no register: its size or alignment is wrong, or nothing answers at its address. -/
theorem accessedRow_eq_none {s : Chip} {fn addr size : Nat}
    (h : accessOk addr size = false ∨ barRow s fn (addr / 8 * 8) = none) :
    (if accessOk addr size then barRow s fn (addr / 8 * 8) else none) = none := by
  rcases h with hsize | hrow
  · simp [hsize]
  · simp [hrow]

/-- A refused write is dropped and counted (R24). -/
theorem barWrite_refused {s : Chip} {fn addr size : Nat}
    (h : accessOk addr size = false ∨ barRow s fn (addr / 8 * 8) = none) (data : Word) :
    barWrite s fn addr size data = .next (barRefuse s) := by
  simp only [barWrite, accessedRow_eq_none h]

/-- A refused read answers all ones of its size, and is counted (R24; log 14). -/
theorem barRead_refused {s : Chip} {fn addr size : Nat}
    (h : accessOk addr size = false ∨ barRow s fn (addr / 8 * 8) = none) :
    barRead s fn addr size = answerRead (barRefuse s) (2 ^ (8 * min size 8) - 1) := by
  simp only [barRead, accessedRow_eq_none h]

/-- All ones of up to eight bytes fit the answer. -/
theorem resp_answerRead_allOnes (s : Chip) {size : Nat} (h : size ≤ 8) :
    (answerRead s (2 ^ (8 * min size 8) - 1)).resp.toNat = 2 ^ (8 * size) - 1 := by
  have hpow : 2 ^ (8 * size) ≤ 2 ^ 64 := Nat.pow_le_pow_right (by decide) (by omega)
  have hpos := Nat.two_pow_pos (8 * size)
  rw [Nat.min_eq_left h]
  exact Nat.mod_eq_of_lt (by omega)

/-- An answer to the host changes no register. -/
@[simp] theorem fget_answerRead (s : Chip) (v k hi lo : Nat) : fget (answerRead s v) k hi lo = fget s k hi lo := rfl

/-- A refusal is counted in the low half of RAS_STATUS, up to all ones (R24). -/
theorem fget_barRefuse_count (s : Chip) :
    fget (barRefuse s) aRAS_STATUS 31 0 = min (fget s aRAS_STATUS 31 0 + 1) (2 ^ 32 - 1) :=
  fget_fsat_same s aRAS_STATUS 31 0 1 (by decide) (by decide)

/-- A refusal leaves the high half of RAS_STATUS, where a fatal error is recorded, alone (R637). -/
theorem fget_barRefuse_high (s : Chip) : fget (barRefuse s) aRAS_STATUS 63 32 = fget s aRAS_STATUS 63 32 :=
  fget_fsat_field s aRAS_STATUS 31 0 1 63 32 (by decide) (by decide) (by decide) (by decide)

/-- REGISTER_WRITE of a function is the write of BAR0. -/
theorem exec_registerWrite {s : State} {fn addr size : Nat} {data : Word} {c : Chip} (hfn : fn < 64)
    (h : barWrite s.chip fn addr size data = .next c) :
    exec (.registerWrite fn addr size data) s = .next { s with chip := c } :=
  onChip_next ((if_pos hfn).trans h)

/-- REGISTER_READ_SIDE_EFFECT of a function is the read of BAR0. -/
theorem exec_registerReadSideEffect (s : State) {fn : Nat} (addr size : Nat) (hfn : fn < 64) :
    exec (.registerReadSideEffect fn addr size) s = .next { s with chip := barRead s.chip fn addr size } :=
  onChip_next (onUnit_next hfn s.chip (fun c => barRead c fn addr size))

/-- Settles O25: a refused access finds no register, so it only adds 1 to the count of RAS_STATUS, and a read answers
all ones. -/
theorem refusedAccesses : Obligations.RefusedAccesses := by
  unfold Obligations.RefusedAccesses
  intro s fn addr size data hfn hrefused
  constructor
  · exact ⟨_, exec_registerWrite hfn (barWrite_refused hrefused data), regsOnly_fsat s _ _ _ _,
      fget_barRefuse_count _, fget_barRefuse_high _⟩
  · have hread := exec_registerReadSideEffect s addr size hfn
    rw [barRead_refused hrefused] at hread
    refine ⟨_, hread, ?_, fun hsize => resp_answerRead_allOnes _ hsize, ?_⟩
    · exact regsOnly_fsat { s with chip := { s.chip with resp := _ } } _ _ _ _
    · simpa using fget_barRefuse_count s.chip

end Sys2Proof.Proofs
end

section
/-! SUPPORT. The time bases (R490 to R492): what a step, a frequency, a read and a snapshot of a base do. -/

namespace Sys2Proof.Proofs

open Sys2Proof.Machine

/-- The first change of a list, then the rest. -/
theorem forEach_cons {α : Type} (x : α) (l : List α) (f : Chip → α → Chip) (s : Chip) :
    forEach (x :: l) f s = forEach l f (f s x) := rfl

/-- A change that leaves the state alone for every member of a list leaves it alone for the whole list. -/
theorem forEach_eq_self {α : Type} {f : Chip → α → Chip} {s : Chip} {l : List α} (h : ∀ x ∈ l, f s x = s) :
    forEach l f s = s := by
  induction l with
  | nil => rfl
  | cons x l ih =>
    have hx : f s x = s := h x List.mem_cons_self
    have hl : forEach l f s = s := ih (fun y hy => h y (List.mem_cons_of_mem x hy))
    rw [forEach_cons, hx, hl]

/-- With no trigger armed, a step of a base fires none (R503). -/
theorem stepsOver_trigsOff {old : Chip} (h : trigsOff old = true) (s : Chip) : stepsOver old s = s := by
  refine forEach_eq_self (fun i hi => ?_)
  have hoff : fbit old (aTT_CTL i) 63 = false := by
    simpa using List.all_eq_true.1 h i hi
  simp [hoff]

/-- A step to a value that the base can hold sets the base to it (R491). -/
theorem tbStep_of_eq {s : Chip} {b v : Nat} {d : Int} (h : (v : Int) = (tbGet s b : Int) + d * 2 ^ 34) :
    tbStep s b d = tbSet s b v := by
  have hnonneg : ¬ ((v : Int) < 0) := by omega
  simp only [tbStep, ← h, if_neg hnonneg, Int.toNat_natCast]

/-- A base just set, to a value that it can hold (R489). -/
theorem tbGet_tbSet_same {s : Chip} {b v : Nat} (h : v < tvMod) : tbGet (tbSet s b v) b = v :=
  (tget_tset_same _ _ _ _).trans (Nat.mod_eq_of_lt h)

/-- A base set leaves the other bases alone. -/
theorem tbGet_tbSet_other (s : Chip) {b b' : Nat} (h : b' ≠ b) (v : Nat) : tbGet (tbSet s b v) b' = tbGet s b' :=
  tget_tset_other _ h _ _

/-- A step of a base that is held is recorded alone (R490, R491). -/
theorem writeStep_held {s : Chip} {b : Nat} (h : baseFree s b = false) (data : Word) :
    writeStep s b data = timeCode s 0x8005 := by
  simp [writeStep, h]

/-- A step of a free base with no trigger armed sets the base (R491). -/
theorem writeStep_free {s : Chip} {b v : Nat} {data : Word} (hfree : baseFree s b = true) (htrigs : trigsOff s = true)
    (hv : (v : Int) = (tbGet s b : Int) + data.toInt * 2 ^ 34) : writeStep s b data = tbSet s b v := by
  rw [writeStep, if_pos hfree, stepsOver_trigsOff htrigs, tbStep_of_eq hv]

/-- A frequency for a base that is held is recorded alone (R490, R491). -/
theorem writeFreq_held {s : Chip} {b : Nat} (h : baseFree s b = false) (data : Word) :
    writeFreq s b data = timeCode s 0x8005 := by
  simp [writeFreq, h]

/-- A frequency as it stands in TB_FREQ: cut to ±100 ppm (R491). -/
def heldFreq (data : Word) : Int := max (-429497) (min 429497 (signed 32 data.toNat))

/-- A frequency for a free base sets TB_FREQ (R491). -/
theorem writeFreq_free {s : Chip} {b : Nat} (h : baseFree s b = true) (data : Word) :
    writeFreq s b data = fset s (aTB b 0x18) 31 0 (wrap 32 (heldFreq data)) := if_pos h

/-- A number of 32 bits with a sign is read back from its low 32 bits. -/
theorem signed_wrap_32 {x : Int} (hlo : -2 ^ 31 ≤ x) (hhi : x < 2 ^ 31) : signed 32 (wrap 32 x % 2 ^ 32) = x := by
  unfold signed wrap
  dsimp only
  split <;> omega

/-- TB_FREQ reads back as the frequency that stands (R491). -/
theorem signed_heldFreq (data : Word) : signed 32 (wrap 32 (heldFreq data) % 2 ^ 32) = heldFreq data :=
  signed_wrap_32 (by unfold heldFreq; omega) (by unfold heldFreq; omega)

-- Reads of a base (R23, R24, R492).

/-- Seconds and the register form of nanoseconds fit a register. -/
theorem tvSec_lt (v : Nat) : tvSec v < 2 ^ 64 := Nat.mod_lt _ (by decide)
theorem tvNsf_lt (v : Nat) : tvNsf v < 2 ^ 64 := by
  unfold tvNsf
  omega

/-- TB_NSF of each base is a register. -/
theorem regRow_tbNsf {b : Nat} (hb : b < 4) : (regRow (aTB b 8)).isSome = true := by
  have h : ∀ b < 4, (regRow (aTB b 8)).isSome = true := by decide
  exact h b hb

/-- TB_NSF shows what a read of TB_SEC latched, or else the base as it stands (R492). -/
theorem regShows_tbNsf (s : Chip) {b : Nat} (hb : b < 4) :
    regShows s 0 (aTB b 8) = (s, (tget (fun _ => none) s.latch (aTB b 8)).getD (tvNsf (tbGet s b))) := by
  have hlo : 0x00201000 ≤ aTB b 8 := by unfold aTB; omega
  have hhi : aTB b 8 < 0x00201100 := by unfold aTB; omega
  have hoff : aTB b 8 % 0x40 = 8 := by unfold aTB; omega
  have hbase : (aTB b 8 - 0x00201000) / 0x40 = b := by unfold aTB; omega
  have hhasp : haspSide 0 (aTB b 8) = none := if_neg (by omega)
  have hview : pfView s (aTB b 8) (barGet s (regKey 0 (aTB b 8))) =
      (s, (tget (fun _ => none) s.latch (aTB b 8)).getD (tvNsf (tbGet s ((aTB b 8 - 0x00201000) / 0x40)))) := by
    have hother : ∀ {k : Nat}, k < 0x00201000 ∨ 0x00201100 ≤ k → ¬ ((aTB b 8 == k) = true) := by
      intro k hk
      rw [beq_iff_eq]
      omega
    rw [pfView, if_neg (hother (by decide)), if_neg (hother (by decide)), if_neg (by omega), if_neg (hother (by decide)),
      if_neg (hother (by decide)), if_neg (by omega), if_neg (by omega), if_pos ⟨hlo, hhi, hoff⟩]
  rw [regShows, hhasp]
  exact hview.trans (by rw [hbase])

/-- The physical function finds TB_NSF once the block answers (R604). -/
theorem barRow_tbNsf {s : Chip} {b : Nat} (hb : b < 4) (hstage : 3 ≤ stageNow s) :
    barRow s 0 (aTB b 8) = regRow (aTB b 8) := by
  have hwindow : aTB b 8 < 0x02000000 := by unfold aTB; omega
  simp [barRow, stageAnswers, windowThere, hstage, hwindow]

/-- The answer to a whole read of TB_NSF (R23, R492). -/
theorem barRead_tbNsf {s : Chip} {b : Nat} (hb : b < 4) (hstage : 3 ≤ stageNow s) :
    (barRead s 0 (aTB b 8) 8).resp =
      BitVec.ofNat 64 ((tget (fun _ => none) s.latch (aTB b 8)).getD (tvNsf (tbGet s b))) := by
  obtain ⟨r, hrow⟩ := Option.isSome_iff_exists.1 (regRow_tbNsf hb)
  have haddr : aTB b 8 / 8 * 8 = aTB b 8 := by unfold aTB; omega
  have hok : accessOk (aTB b 8) 8 = true := by
    have : aTB b 8 % 8 = 0 := by unfold aTB; omega
    simp [accessOk, this]
  have hsram : isSramData 0 (aTB b 8) = false := by
    have : aTB b 8 < 0x02000000 := by unfold aTB; omega
    simp [isSramData, this]
  simp [barRead, haddr, hok, barRow_tbNsf hb hstage, hrow, fullRead, hsram, regRead, regShows_tbNsf s hb, answerRead]

-- The snapshot of the bases (R492).

/-- One base captured into its snapshot registers. -/
def snapBase (s : Chip) (b : Nat) : Chip :=
  barSet (barSet s (aTB b 0x20) (tvSec (tbGet s b))) (aTB b 0x28) (tvNsf (tbGet s b))

/-- A snapshot captures the four bases one after the other. -/
theorem snapBases_eq (s : Chip) : snapBases s = forEach (List.range 4) snapBase s := rfl

/-- A register write changes registers alone. -/
theorem barSet_frame (s : Chip) (k v : Nat) : ∃ regs, barSet s k v = { s with bar := regs } := ⟨_, rfl⟩

/-- A capture changes registers alone. -/
theorem snapBase_frame (s : Chip) (b : Nat) : ∃ regs, snapBase s b = { s with bar := regs } := by
  obtain ⟨regs₁, hsec⟩ := barSet_frame s (aTB b 0x20) (tvSec (tbGet s b))
  obtain ⟨regs₂, hnsf⟩ := barSet_frame { s with bar := regs₁ } (aTB b 0x28) (tvNsf (tbGet s b))
  exact ⟨regs₂, by rw [snapBase, hsec, hnsf]⟩

/-- Captures change registers alone. -/
theorem forEach_snapBase_frame (l : List Nat) (s : Chip) :
    ∃ regs, forEach l snapBase s = { s with bar := regs } := by
  induction l generalizing s with
  | nil => exact ⟨s.bar, rfl⟩
  | cons b l ih =>
    obtain ⟨_, hfirst⟩ := snapBase_frame s b
    obtain ⟨regs, hrest⟩ := ih (snapBase s b)
    exact ⟨regs, by rw [forEach_cons, hrest, hfirst]⟩

/-- A capture leaves every register but the two of its base alone. -/
theorem barGet_snapBase_other (s : Chip) {b k : Nat} (hsec : k ≠ aTB b 0x20) (hnsf : k ≠ aTB b 0x28) :
    barGet (snapBase s b) k = barGet s k :=
  (barGet_barSet_other _ _ hnsf).trans (barGet_barSet_other _ _ hsec)

/-- The two registers of a captured base. -/
theorem barGet_snapBase_same (s : Chip) (b : Nat) :
    barGet (snapBase s b) (aTB b 0x20) = tvSec (tbGet s b) ∧ barGet (snapBase s b) (aTB b 0x28) = tvNsf (tbGet s b) := by
  have hne : aTB b 0x20 ≠ aTB b 0x28 := by unfold aTB; omega
  constructor
  · rw [snapBase, barGet_barSet_other _ _ hne, barGet_barSet_same, Nat.mod_eq_of_lt (tvSec_lt _)]
  · rw [snapBase, barGet_barSet_same, Nat.mod_eq_of_lt (tvNsf_lt _)]

/-- Captures leave every register but those of their bases alone. -/
theorem barGet_forEach_snapBase_other {l : List Nat} {k : Nat} (h : ∀ b ∈ l, k ≠ aTB b 0x20 ∧ k ≠ aTB b 0x28) (s : Chip) :
    barGet (forEach l snapBase s) k = barGet s k := by
  induction l generalizing s with
  | nil => rfl
  | cons b l ih =>
    obtain ⟨hsec, hnsf⟩ := h b List.mem_cons_self
    exact (ih (fun c hc => h c (List.mem_cons_of_mem b hc)) (snapBase s b)).trans (barGet_snapBase_other s hsec hnsf)

/-- Registers of different bases are different. -/
theorem aTB_ne {b c off off' : Nat} (h : b ≠ c) (hoff : off < 0x40) (hoff' : off' < 0x40) : aTB b off ≠ aTB c off' := by
  unfold aTB
  omega

/-- Every base captured stands in its two registers. -/
theorem barGet_forEach_snapBase_same {l : List Nat} {b : Nat} (hb : b ∈ l) (s : Chip) :
    barGet (forEach l snapBase s) (aTB b 0x20) = tvSec (tbGet s b) ∧
      barGet (forEach l snapBase s) (aTB b 0x28) = tvNsf (tbGet s b) := by
  induction l generalizing s with
  | nil => cases hb
  | cons c l ih =>
    by_cases hl : b ∈ l
    · exact ih hl (snapBase s c)
    · obtain rfl : b = c := (List.mem_cons.1 hb).resolve_right hl
      have hkept : ∀ off < 0x40,
          barGet (forEach l snapBase (snapBase s b)) (aTB b off) = barGet (snapBase s b) (aTB b off) := by
        intro off hoff
        refine barGet_forEach_snapBase_other (fun d hd => ?_) (snapBase s b)
        have hne : b ≠ d := fun e => hl (e ▸ hd)
        exact ⟨aTB_ne hne hoff (by decide), aTB_ne hne hoff (by decide)⟩
      obtain ⟨hsec, hnsf⟩ := barGet_snapBase_same s b
      exact ⟨(hkept 0x20 (by decide)).trans hsec, (hkept 0x28 (by decide)).trans hnsf⟩

/-- A register that is none of the bases' snapshot registers keeps its value (R492). -/
theorem barGet_snapshot_other (s : Chip) {l : List Nat} {k : Nat} (hk : k ∉ l.flatMap (fun b => [aTB b 0x20, aTB b 0x28])) :
    barGet (forEach l snapBase s) k = barGet s k := by
  refine barGet_forEach_snapBase_other (fun b hb => ?_) s
  have hmem : k ∉ [aTB b 0x20, aTB b 0x28] := fun h => hk (List.mem_flatMap.2 ⟨b, hb, h⟩)
  simpa using hmem

-- The commands.

/-- TIME_BASE_STEP of one of the four bases is the write of its TB_STEP (R491). -/
theorem exec_timeBaseStep (s : State) {base : Nat} (hb : base < 4) (data : Word) :
    exec (.timeBaseStep base data) s = .next { s with chip := writeStep s.chip base data } :=
  onChip_next (onUnit_next hb s.chip (fun c => writeStep c base data))

/-- TIME_BASE_FREQ_WRITE of one of the four bases is the write of its TB_FREQ (R491). -/
theorem exec_timeBaseFreqWrite (s : State) {base : Nat} (hb : base < 4) (data : Word) :
    exec (.timeBaseFreqWrite base data) s = .next { s with chip := writeFreq s.chip base data } :=
  onChip_next (onUnit_next hb s.chip (fun c => writeFreq c base data))

/-- TB_SEC_READ of the physical function latches the rest of the base (R492). -/
theorem exec_tbSecRead_physical (s : State) {base : Nat} (hb : base < 4) :
    exec (.tbSecRead 0 base) s = .next { s with chip := readSec s.chip 0 base } :=
  onChip_next (if_pos ⟨by decide, hb⟩)

/-- TB_SEC_READ of a virtual function is refused: counted, and answered by all ones (R24, R540). -/
theorem exec_tbSecRead_virtual (s : State) {fn base : Nat} (hlo : 1 ≤ fn) (hhi : fn < 64) (hb : base < 4) :
    exec (.tbSecRead fn base) s = .next { s with chip := { barRefuse s.chip with resp := BitVec.allOnes 64 } } := by
  have hfn : (fn == 0) = false := beq_false_of_ne (Nat.ne_of_gt hlo)
  refine onChip_next ((if_pos ⟨hhi, hb⟩).trans ?_)
  simp only [hfn]
  rfl

/-- TIME_SNAPSHOT captures the four bases (R492). -/
theorem exec_timeSnapshot (s : State) :
    exec .timeSnapshot s = .next { s with chip := forEach (List.range 4) snapBase s.chip } :=
  onChip_next (f := cmdTimeSnapshot) (congrArg Host.Outcome.next (snapBases_eq s.chip))

/-- After the physical function's read of TB_SEC, its read of TB_NSF answers with what that read latched (R23, R492). -/
theorem barRead_tbNsf_readSec {s : Chip} {b : Nat} (hb : b < 4) (hstage : 3 ≤ stageNow s) :
    (barRead (readSec s 0 b) 0 (aTB b 8) 8).resp.toNat = tvNsf (tbGet s b) := by
  have hkey : barKey 0 (aTB b 8) = aTB b 8 := by simp [barKey]
  have hlatch : tget (fun _ => none) (readSec s 0 b).latch (aTB b 8) = some (tvNsf (tbGet s b)) := by
    simp only [readSec, hkey]
    exact tget_tset_same _ _ _ _
  have hread := barRead_tbNsf (s := readSec s 0 b) hb hstage
  rw [hlatch, Option.getD_some] at hread
  rw [hread]
  exact Nat.mod_eq_of_lt (tvNsf_lt _)

/-- The clause on the bases, command by command. -/
theorem timeBases : Clauses.TimeBases := by
  intro s base fn data hb
  have hstep := exec_timeBaseStep s hb data
  have hfreq := exec_timeBaseFreqWrite s hb data
  refine ⟨fun hheld => ?_, fun v hfree htrigs hv hlt => ?_, fun hfree => ?_, ?_, fun hlo hhi => ?_, ?_⟩
  · rw [writeStep_held hheld] at hstep
    rw [writeFreq_held hheld] at hfreq
    exact ⟨⟨_, hstep, rfl⟩, ⟨_, hfreq, rfl⟩⟩
  · rw [writeStep_free hfree htrigs hv] at hstep
    exact ⟨_, hstep, tbGet_tbSet_same hlt, fun k hk => tbGet_tbSet_other s.chip hk v, rfl⟩
  · rw [writeFreq_free hfree] at hfreq
    refine ⟨_, hfreq, ⟨rfl, fun k hk => barGet_fset_other s.chip 31 0 _ (List.ne_of_not_mem_cons hk)⟩, ?_⟩
    rw [fget_fset_same s.chip (aTB base 0x18) 31 0 _ (by decide) (by decide)]
    exact signed_heldFreq data
  · refine ⟨_, exec_tbSecRead_physical s hb, Nat.mod_eq_of_lt (tvSec_lt _), rfl, rfl, fun hstage => ?_⟩
    exact ⟨_, exec_registerReadSideEffect _ _ _ (by decide), barRead_tbNsf_readSec hb hstage⟩
  · exact ⟨_, exec_tbSecRead_virtual s hlo hhi hb, rfl, fget_barRefuse_count s.chip,
      rfl, fun k hk => barGet_fset_other s.chip 31 0 _ (List.ne_of_not_mem_cons hk)⟩
  · obtain ⟨hsec, hnsf⟩ := barGet_forEach_snapBase_same (List.mem_range.2 hb) s.chip
    refine ⟨_, exec_timeSnapshot s, hsec, hnsf, ?_, fun k hk => barGet_snapshot_other s.chip hk⟩
    obtain ⟨_, hframe⟩ := forEach_snapBase_frame (List.range 4) s.chip
    rw [hframe]

end Sys2Proof.Proofs
end

section
/-! SUPPORT. The servo's losses (R497, R498, R501): what entering a state of the servo does, and each event. -/

namespace Sys2Proof.Proofs

open Sys2Proof.Machine

/-- Nothing but the time state and registers differs. -/
def timeOnly (s t : Chip) : Prop := ∃ time regs, t = { s with time := time, bar := regs }

theorem timeOnly.trans {s t u : Chip} (hst : timeOnly s t) (htu : timeOnly t u) : timeOnly s u := by
  obtain ⟨_, _, rfl⟩ := hst
  obtain ⟨time, regs, rfl⟩ := htu
  exact ⟨time, regs, rfl⟩

theorem timeOnly_fset (s : Chip) (k hi lo v : Nat) : timeOnly s (fset s k hi lo v) := ⟨s.time, _, rfl⟩
theorem timeOnly_tmMod (s : Chip) (f : TimeS → TimeS) : timeOnly s (tmMod s f) := ⟨_, s.bar, rfl⟩

/-- Entering a state of the servo, and recording its code, changes the time state and registers alone. -/
theorem timeOnly_servoTo (s : Chip) (v code : Nat) : timeOnly s (timeCode (servoTo s v) code) :=
  ((timeOnly_fset s _ _ _ _).trans (timeOnly_fset _ _ _ _ _)).trans ((timeOnly_tmMod _ _).trans (timeOnly_tmMod _ _))

/-- The frame of a command that changes the time state and registers alone. -/
theorem timeOnly.state {s : State} {c : Chip} (h : timeOnly s.chip c) :
    { s with chip := c } = { pending := s.pending, chip := { { s.chip with time := c.time } with bar := c.bar } } := by
  obtain ⟨_, _, rfl⟩ := h
  rfl

/-- Dropping the reference changes its code and registers alone (R497). -/
theorem dropReference_frame (s : Chip) :
    ∃ regs, dropReference s = { s with time := { s.time with lastCode := 0x8004 }, bar := regs } := by
  obtain ⟨regs, h⟩ := barSet_frame s aPTP_STATUS (setBits (barGet s aPTP_STATUS) 11 8 2)
  exact ⟨regs, by rw [dropReference, fset, h]; rfl⟩

/-- A change of the time state, or a code recorded, changes no register. -/
@[simp] theorem fget_tmMod (s : Chip) (f : TimeS → TimeS) (k hi lo : Nat) : fget (tmMod s f) k hi lo = fget s k hi lo := rfl
@[simp] theorem fbit_tmMod (s : Chip) (f : TimeS → TimeS) (k i : Nat) : fbit (tmMod s f) k i = fbit s k i := rfl
@[simp] theorem fget_timeCode (s : Chip) (code k hi lo : Nat) : fget (timeCode s code) k hi lo = fget s k hi lo := rfl
@[simp] theorem fbit_timeCode (s : Chip) (code k i : Nat) : fbit (timeCode s code) k i = fbit s k i := rfl
@[simp] theorem barGet_timeCode (s : Chip) (code k : Nat) : barGet (timeCode s code) k = barGet s k := rfl

/-- The servo is in the state that it has entered (R498). -/
theorem fget_servoTo_state (s : Chip) {v : Nat} (hv : v < 16) : fget (servoTo s v) aPTP_STATUS 3 0 = v := by
  have hset := fget_fset_same s aPTP_STATUS 3 0 v (by decide) (by decide)
  rw [servoTo, fget_tmMod, fsetb, fget_fset_other _ 1 1 _ 3 0 (by decide), hset]
  exact Nat.mod_eq_of_lt hv

/-- LOCKED is 1 in the locked state and in holdover (R498). -/
theorem fbit_servoTo_locked (s : Chip) (v : Nat) : fbit (servoTo s v) aSTRIKE_STATUS 1 = decide (2 ≤ v) := by
  rw [servoTo, fbit_tmMod, fbit_fsetb_same _ _ _ _ (by decide)]

/-- Entering a state changes PTP_STATUS and STRIKE_STATUS alone of the registers. -/
theorem barGet_servoTo_other (s : Chip) (v : Nat) {k : Nat} (hk : k ∉ [aPTP_STATUS, aSTRIKE_STATUS]) :
    barGet (servoTo s v) k = barGet s k := by
  simp only [List.mem_cons, List.not_mem_nil, or_false, not_or] at hk
  obtain ⟨hptp, hstrike⟩ := hk
  exact (barGet_fset_other _ _ _ _ hstrike).trans (barGet_fset_other s _ _ _ hptp)

section
variable {s : State} {f : Chip → Out} {g : Chip → Chip} {n v : Nat}

/-- An event whose condition holds takes effect. -/
theorem onChip_when_eq (hf : f s.chip = .next (when (n == v) s.chip g)) (h : n = v) :
    onChip s f = .next { s with chip := g s.chip } :=
  onChip_next (hf.trans (congrArg Host.Outcome.next (if_pos (beq_iff_eq.2 h))))

/-- An event whose condition does not hold does not occur (log 8). -/
theorem onChip_when_ne (hf : f s.chip = .next (when (n == v) s.chip g)) (h : n ≠ v) : onChip s f = .next s := by
  rw [beq_false_of_ne h, when_false] at hf
  exact onChip_next hf

end

/-- A locked servo that has lost its Sync messages: in holdover, with no port selected (R498, R509). -/
def lostSync (s : Chip) : Chip := fset (timeCode (servoTo s 3) 0x8002) aPTP_STATUS 15 12 0xF

/-- It is in holdover. -/
theorem servoState_lostSync (s : Chip) : servoState (lostSync s) = 3 := by
  rw [servoState, lostSync, fget_fset_field _ _ 15 12 _ 3 0 (by decide) (by decide) (by decide) (by decide),
    fget_timeCode, fget_servoTo_state s (by decide)]

/-- It still counts as locked (R498). -/
theorem fbit_lostSync_locked (s : Chip) : fbit (lostSync s) aSTRIKE_STATUS 1 = true := by
  rw [fbit, lostSync, fget_fset_other _ _ _ _ _ _ (by decide)]
  exact (fbit_timeCode _ _ _ _).trans (fbit_servoTo_locked s 3)

theorem barGet_lostSync_other (s : Chip) {k : Nat} (hk : k ∉ [aPTP_STATUS, aSTRIKE_STATUS]) :
    barGet (lostSync s) k = barGet s k :=
  calc barGet (lostSync s) k
      = barGet (timeCode (servoTo s 3) 0x8002) k := barGet_fset_other _ _ _ _ (List.ne_of_not_mem_cons hk)
    _ = barGet (servoTo s 3) k := barGet_timeCode _ _ k
    _ = barGet s k := barGet_servoTo_other s 3 hk

theorem timeOnly_lostSync (s : Chip) : timeOnly s (lostSync s) :=
  (timeOnly_servoTo s 3 0x8002).trans (timeOnly_fset _ _ _ _ _)

/-- SYNC_TIMEOUT takes a locked servo to holdover (R498). -/
theorem exec_syncTimeout_locked {s : State} (h : servoState s.chip = 2) :
    exec .syncTimeout s = .next { s with chip := lostSync s.chip } :=
  onChip_when_eq (f := cmdSyncTimeout) rfl h

/-- SYNC_TIMEOUT does nothing to a servo that is not locked. -/
theorem exec_syncTimeout_unlocked {s : State} (h : servoState s.chip ≠ 2) : exec .syncTimeout s = .next s :=
  onChip_when_ne (f := cmdSyncTimeout) rfl h

/-- HOLDOVER_EXPIRY lets a servo in holdover run free (R498, R501). -/
theorem exec_holdoverExpiry_holdover {s : State} (h : servoState s.chip = 3) :
    exec .holdoverExpiry s = .next { s with chip := timeCode (servoTo s.chip 0) 0x8003 } :=
  onChip_when_eq (f := cmdHoldoverExpiry) rfl h

/-- HOLDOVER_EXPIRY does nothing to a servo that is not in holdover. -/
theorem exec_holdoverExpiry_else {s : State} (h : servoState s.chip ≠ 3) : exec .holdoverExpiry s = .next s :=
  onChip_when_ne (f := cmdHoldoverExpiry) rfl h

/-- SYNCE_REFERENCE_LOST drops a good reference (R497). -/
theorem exec_synceReferenceLost_good {s : State} (h : fget s.chip aPTP_STATUS 11 8 = 1) :
    exec .synceReferenceLost s = .next { s with chip := dropReference s.chip } :=
  onChip_when_eq (f := cmdSynceReferenceLost) rfl h

/-- SYNCE_REFERENCE_LOST does nothing without a good reference. -/
theorem exec_synceReferenceLost_else {s : State} (h : fget s.chip aPTP_STATUS 11 8 ≠ 1) :
    exec .synceReferenceLost s = .next s :=
  onChip_when_ne (f := cmdSynceReferenceLost) rfl h

/-- The clause on the servo, event by event. -/
theorem servoEvents : Clauses.ServoEvents := by
  intro s
  refine ⟨exec_syncTimeout_unlocked, fun h => ?_, exec_holdoverExpiry_else, fun h => ?_,
    exec_synceReferenceLost_else, fun h => ?_⟩
  · exact ⟨_, exec_syncTimeout_locked h, servoState_lostSync s.chip, fbit_lostSync_locked s.chip, rfl, rfl,
      (timeOnly_lostSync s.chip).state, fun k hk => barGet_lostSync_other s.chip hk⟩
  · have hstate : servoState (timeCode (servoTo s.chip 0) 0x8003) = 0 :=
      (fget_timeCode _ _ _ _ _).trans (fget_servoTo_state s.chip (by decide))
    have hlock : fbit (timeCode (servoTo s.chip 0) 0x8003) aSTRIKE_STATUS 1 = false :=
      (fbit_timeCode _ _ _ _).trans (fbit_servoTo_locked s.chip 0)
    exact ⟨_, exec_holdoverExpiry_holdover h, hstate, hlock, rfl, rfl, (timeOnly_servoTo s.chip 0 0x8003).state,
      fun k hk => (barGet_timeCode _ _ k).trans (barGet_servoTo_other s.chip 0 hk)⟩
  · have hmark : fget (dropReference s.chip) aPTP_STATUS 11 8 = 2 :=
      (fget_timeCode _ _ _ _ _).trans (fget_fset_same s.chip aPTP_STATUS 11 8 2 (by decide) (by decide))
    refine ⟨_, exec_synceReferenceLost_good h, hmark, rfl, ?_, fun k hk =>
      (barGet_timeCode _ _ k).trans (barGet_fset_other s.chip 11 8 2 (List.ne_of_not_mem_cons hk))⟩
    obtain ⟨_, hframe⟩ := dropReference_frame s.chip
    rw [hframe]

/-- Settles O44: each command of a base and each event of the servo, by what it sets and what it leaves alone. -/
theorem timeBasesAndServo : Obligations.TimeBasesAndServo := ⟨timeBases, servoEvents⟩

end Sys2Proof.Proofs
end

section
/-! SUPPORT. Partition commands (R515, R553): what one that is refused does, what one that ends with a code does, and what
one that takes effect leaves alone. -/

namespace Sys2Proof.Proofs

open Sys2Proof.Machine

-- The registers of a partition are registers of their own.

theorem aPART_STATUS_ne_cmdStatus (p : Nat) : aPART_STATUS p ≠ aPART_CMD_STATUS := by
  unfold aPART_STATUS aPART_CMD_STATUS
  omega

theorem aPART_CTL_ne_cmdStatus (p : Nat) : aPART_CTL p ≠ aPART_CMD_STATUS := by
  unfold aPART_CTL aPART_CMD_STATUS
  omega

theorem aPART_DMAP_ne_cmdStatus (p : Nat) : aPART_DMAP p ≠ aPART_CMD_STATUS := by
  unfold aPART_DMAP aPART_CMD_STATUS
  omega

theorem aPART_CTL_ne_status (p q : Nat) : aPART_CTL p ≠ aPART_STATUS q := by
  unfold aPART_CTL aPART_STATUS
  omega

/-- A partition read after it, or another, has been changed. -/
theorem getPart_modPart (s : Chip) (p q : Nat) (f : Part → Part) :
    getPart (modPart s p f) q = if q = p then f (getPart s p) else getPart s q := getPart_setPart _ _ _ _

theorem getPart_modPart_same (s : Chip) (p : Nat) (f : Part → Part) : getPart (modPart s p f) p = f (getPart s p) :=
  getPart_setPart_same _ _ _

theorem getPart_modPart_other (s : Chip) {p q : Nat} (h : q ≠ p) (f : Part → Part) :
    getPart (modPart s p f) q = getPart s q := (getPart_modPart s p q f).trans (if_neg h)

/-- A field written changes registers alone. -/
theorem fset_frame (s : Chip) (k hi lo v : Nat) : ∃ regs, fset s k hi lo v = { s with bar := regs } := barSet_frame s k _

-- The three ends of a command.

section
variable {p : Nat} {allowed : List Nat} {s : Chip} {f : Chip → Chip × Nat}

/-- A command asks for its state before it does anything (R515). -/
theorem partCommand_eq (hp : p < 16) : partCommand p allowed s f =
    .next (if partBusy s || !allowed.contains (partState s p) then partDone s p 0x4001
      else if (f s).2 == 0 then partDone (f s).1 p 0 else partDone s p (f s).2) := by
  unfold partCommand onPart
  exact onUnit_next hp s _

/-- In a state that does not allow it, or while a command is in progress, a command ends with 0x4001 (R515). -/
theorem partCommand_refused (hp : p < 16) (h : partReady s p allowed = false) :
    partCommand p allowed s f = .next (partDone s p 0x4001) := by
  have hrefuse : (partBusy s || !allowed.contains (partState s p)) = true := by
    simpa [partReady, partBusy, or_iff_not_imp_left] using h
  rw [partCommand_eq hp, if_pos hrefuse]

/-- A command that may run ends with its own code, which is 0 when it takes effect (R515). -/
theorem partCommand_ready (hp : p < 16) (h : partReady s p allowed = true) :
    partCommand p allowed s f =
      .next (if (f s).2 == 0 then partDone (f s).1 p 0 else partDone s p (f s).2) := by
  have hallow : ¬ (partBusy s || !allowed.contains (partState s p)) = true := by
    simpa [partReady, partBusy] using h
  rw [partCommand_eq hp, if_neg hallow]

theorem partCommand_done {c : Chip} (hp : p < 16) (h : partReady s p allowed = true) (hf : f s = (c, 0)) :
    partCommand p allowed s f = .next (partDone c p 0) := by
  rw [partCommand_ready hp h, hf]
  rfl

theorem partCommand_code {c : Chip} {code : Nat} (hp : p < 16) (h : partReady s p allowed = true) (hf : f s = (c, code))
    (hcode : code ≠ 0) : partCommand p allowed s f = .next (partDone s p code) := by
  rw [partCommand_ready hp h, hf, if_neg (by simpa using hcode)]

end

-- A code of the partition class, 0x40 in its high byte, stands in PART_STATUS as well (R553).

section
variable (s : Chip) (p : Nat) {code : Nat}

theorem partDone_class (h : code / 256 = 0x40) : partDone s p code = partCode (fset s aPART_CMD_STATUS 63 48 code) p code :=
  if_pos (beq_iff_eq.2 h)

theorem fget_partDone_cmdStatus (h : code / 256 = 0x40) : fget (partDone s p code) aPART_CMD_STATUS 63 48 = code := by
  rw [partDone_class s p h, partCode, fget_fset_other _ _ _ _ _ _ (aPART_STATUS_ne_cmdStatus p).symm,
    fget_fset_same _ _ _ _ _ (by decide) (by decide)]
  omega

theorem fget_partDone_status (h : code / 256 = 0x40) : fget (partDone s p code) (aPART_STATUS p) 63 48 = code := by
  rw [partDone_class s p h, partCode, fget_fset_same _ _ _ _ _ (by decide) (by decide)]
  omega

/-- A code leaves the partition in its state. -/
theorem partState_partDone (h : code / 256 = 0x40) : partState (partDone s p code) p = partState s p := by
  rw [partState, partDone_class s p h, partCode,
    fget_fset_field _ _ 63 48 _ 3 0 (by decide) (by decide) (by decide) (by decide),
    fget_fset_other _ _ _ _ _ _ (aPART_STATUS_ne_cmdStatus p)]
  rfl

theorem barGet_partDone_other {k : Nat} (h : code / 256 = 0x40) (hk : k ∉ [aPART_CMD_STATUS, aPART_STATUS p]) :
    barGet (partDone s p code) k = barGet s k := by
  simp only [List.mem_cons, List.not_mem_nil, or_false, not_or] at hk
  obtain ⟨hcmd, hstatus⟩ := hk
  rw [partDone_class s p h, partCode, barGet_fset_other _ _ _ _ hstatus, barGet_fset_other _ _ _ _ hcmd]

/-- A code changes registers alone. -/
theorem partDone_frame (h : code / 256 = 0x40) : ∃ regs, partDone s p code = { s with bar := regs } := by
  obtain ⟨regs, hcmd⟩ := fset_frame s aPART_CMD_STATUS 63 48 code
  obtain ⟨regs', hstatus⟩ := fset_frame { s with bar := regs } (aPART_STATUS p) 63 48 code
  exact ⟨regs', by rw [partDone_class s p h, partCode, hcmd, hstatus]⟩

end

/-- A command that ends with a code of its class changes two registers, and nothing else (R515). -/
theorem regsOnly_partDone (s : State) (p : Nat) {code : Nat} (h : code / 256 = 0x40) :
    regsOnly [aPART_CMD_STATUS, aPART_STATUS p] s { s with chip := partDone s.chip p code } := by
  obtain ⟨_, hframe⟩ := partDone_frame s.chip p h
  exact ⟨by rw [hframe], fun k hk => barGet_partDone_other s.chip p h hk⟩

theorem getPart_partDone (s : Chip) (p q : Nat) {code : Nat} (h : code / 256 = 0x40) :
    getPart (partDone s p code) q = getPart s q := by
  obtain ⟨_, hframe⟩ := partDone_frame s p h
  rw [hframe]
  rfl

/-- A command that ends with a code of its class is answered by the code alone (R515). -/
theorem partAnswered_code (s : State) (p : Nat) {code : Nat} (h : code / 256 = 0x40) :
    partAnswered [aPART_STATUS p] s { s with chip := partDone s.chip p code } p code := by
  obtain ⟨_, hframe⟩ := partDone_frame s.chip p h
  exact ⟨fget_partDone_cmdStatus s.chip p h, ⟨by rw [hframe], fun k hk => barGet_partDone_other s.chip p h hk⟩,
    fun q _ => getPart_partDone s.chip p q h⟩

-- Code 0 stands in PART_CMD_STATUS alone.

theorem partDone_zero (s : Chip) (p : Nat) : partDone s p 0 = fset s aPART_CMD_STATUS 63 48 0 := rfl

theorem fget_partDone_zero (s : Chip) (p : Nat) : fget (partDone s p 0) aPART_CMD_STATUS 63 48 = 0 :=
  fget_fset_same s aPART_CMD_STATUS 63 48 0 (by decide) (by decide)

theorem fget_partDone_zero_other (s : Chip) (p : Nat) {k : Nat} (h : k ≠ aPART_CMD_STATUS) (hi lo : Nat) :
    fget (partDone s p 0) k hi lo = fget s k hi lo := fget_fset_other s 63 48 0 hi lo h

theorem fbit_partDone_zero_other (s : Chip) (p : Nat) {k : Nat} (h : k ≠ aPART_CMD_STATUS) (i : Nat) :
    fbit (partDone s p 0) k i = fbit s k i := by
  rw [fbit, fget_partDone_zero_other s p h, ← fbit]

theorem getPart_partDone_zero (s : Chip) (p q : Nat) : getPart (partDone s p 0) q = getPart s q := by
  rw [partDone_zero, fset, getPart_barSet]

/-- A command that has changed the partition's own state and the registers listed, and nothing else, is answered by 0. -/
theorem partAnswered_done {s : State} {p : Nat} {c : Chip} (ks : List Nat)
    (hframe : ∃ regs parts, c = { s.chip with bar := regs, parts := parts })
    (hregs : ∀ k, k ∉ ks → barGet c k = barGet s.chip k) (hparts : ∀ q, q ≠ p → getPart c q = getPart s.chip q) :
    partAnswered ks s { s with chip := partDone c p 0 } p 0 := by
  refine ⟨fget_partDone_zero c p, ⟨?_, fun k hk => ?_⟩, fun q hq => (getPart_partDone_zero c p q).trans (hparts q hq)⟩
  · obtain ⟨_, hdone⟩ := fset_frame c aPART_CMD_STATUS 63 48 0
    obtain ⟨_, _, rfl⟩ := hframe
    rw [partDone_zero, hdone]
  · rw [partDone_zero, barGet_fset_other c 63 48 0 (List.ne_of_not_mem_cons hk)]
    exact hregs k (List.not_mem_of_not_mem_cons hk)

/-- A command that has changed the partition's own state alone is answered by 0. -/
theorem partAnswered_modPart (s : State) (p : Nat) (f : Part → Part) :
    partAnswered [] s { s with chip := partDone (modPart s.chip p f) p 0 } p 0 :=
  partAnswered_done [] ⟨_, _, rfl⟩ (fun _ _ => rfl) (fun _ hq => getPart_modPart_other s.chip hq f)

-- Commands that the state refuses (R515).

/-- The partition commands with the states that allow them (R515). -/
def partCommands (p a b e n : Nat) (w : Word) : List (Instr × List Nat) :=
  [(.partCreate p, [0]), (.partDestroy p, [1, 2, 5]), (.partAdd p a, [1, 2, 3, 4, 5]),
    (.partMove p a b e, [1, 2, 3, 4, 5]), (.partMap p w, [1, 2, 3]), (.partLoad p w, [1, 2]), (.partStart p, [2]),
    (.partStop p, [3]), (.partFreeze p, [3]), (.partSave p n w, [5]), (.partRestore p w, [1]), (.partThaw p, [5]),
    (.partFlip p, [1, 2, 3, 4, 5]), (.partCancel p a, [1, 2, 3, 4, 5])]

/-- Each of them asks for its states before it does anything. -/
theorem exec_partCommands (p a b e n : Nat) (w : Word) :
    ∀ x ∈ partCommands p a b e n w, ∃ f, ∀ s, exec x.1 s = onChip s (fun st => partCommand p x.2 st f) := by
  simp only [partCommands, List.forall_mem_cons]
  exact ⟨⟨_, fun _ => rfl⟩, ⟨_, fun _ => rfl⟩, ⟨_, fun _ => rfl⟩, ⟨_, fun _ => rfl⟩, ⟨_, fun _ => rfl⟩, ⟨_, fun _ => rfl⟩,
    ⟨_, fun _ => rfl⟩, ⟨_, fun _ => rfl⟩, ⟨_, fun _ => rfl⟩, ⟨_, fun _ => rfl⟩, ⟨_, fun _ => rfl⟩, ⟨_, fun _ => rfl⟩,
    ⟨_, fun _ => rfl⟩, ⟨_, fun _ => rfl⟩, List.forall_mem_nil _⟩

/-- The clause on commands that the state refuses. -/
theorem partitionCommandsRefused : Clauses.PartitionCommandsRefused := by
  intro s p a b e n w hp c states hmem hnot
  obtain ⟨f, hexec⟩ := exec_partCommands p a b e n w _ hmem
  exact ⟨_, (hexec s).trans (onChip_next (partCommand_refused hp hnot)), regsOnly_partDone s p rfl,
    fget_partDone_cmdStatus s.chip p rfl, fget_partDone_status s.chip p rfl, partState_partDone s.chip p rfl⟩

end Sys2Proof.Proofs
end

section
/-! SUPPORT. ADD and MOVE (R514 to R516, R521, R522): their checks one by one, and which code a MOVE ends with. -/

namespace Sys2Proof.Proofs

open Sys2Proof.Machine

theorem mem_bitsBelow {n x g : Nat} : g ∈ bitsBelow n x ↔ g < n ∧ x.testBit g = true := by
  simp [bitsBelow]

-- The least code of several checks (R27).

theorem leastCode_zero_cons (r : List Nat) : leastCode (0 :: r) = leastCode r := rfl

/-- The least code is one of the codes, unless there is none. -/
theorem leastCode_eq_zero_or_mem (l : List Nat) : leastCode l = 0 ∨ leastCode l ∈ l := by
  induction l with
  | nil => exact .inl rfl
  | cons c r ih =>
    have hrest : leastCode r = 0 ∨ leastCode r ∈ c :: r := ih.imp_right (List.mem_cons_of_mem c)
    simp only [leastCode, beq_iff_eq]
    split
    case isTrue => exact hrest
    case isFalse =>
      split
      case isTrue => exact .inr List.mem_cons_self
      case isFalse =>
        rcases min_choice c (leastCode r) with hmin | hmin <;> rw [hmin]
        · exact .inr List.mem_cons_self
        · exact hrest

/-- A code that no later check undercuts is the least. -/
theorem leastCode_cons_of_le {c : Nat} {r : List Nat} (hc : c ≠ 0) (h : ∀ x ∈ r, x = 0 ∨ c ≤ x) :
    leastCode (c :: r) = c := by
  have hrest : leastCode r = 0 ∨ c ≤ leastCode r := (leastCode_eq_zero_or_mem r).elim .inl (h _)
  simp only [leastCode, beq_iff_eq, if_neg hc]
  rcases hrest with hzero | hle
  · rw [if_pos hzero]
  · rw [if_neg (by omega), Nat.min_eq_left hle]

-- ADD.

/-- ADD of groups of which one is not free ends with 0x4002 (R516). -/
theorem cmdPartAdd_taken {s : Chip} {p groups g : Nat} (hp : p < 16) (hready : partReady s p [1, 2, 3, 4, 5] = true)
    (hstrike : p ≠ 0 ∨ fbit s aSTRIKE_CTL 0 = false) (hg : g < 36) (hbit : groups.testBit g = true)
    (htaken : groupFree s g = false) : cmdPartAdd p groups s = .next (partDone s p 0x4002) := by
  have hmay : ¬ (p == 0 && fbit s aSTRIKE_CTL 0) = true := by
    rcases hstrike with h | h <;> simp [h]
  have hnot : ¬ (bitsBelow 36 groups).all (groupFree s) = true := fun hall => by
    simpa [htaken] using List.all_eq_true.1 hall g (mem_bitsBelow.2 ⟨hg, hbit⟩)
  refine partCommand_code hp hready (c := s) (code := 0x4002) ?_ (by decide)
  rw [if_neg hmay, if_pos (by simp [hnot])]

/-- ADD of free groups has them join at the next boundary (R515). -/
theorem cmdPartAdd_free {s : Chip} {p groups : Nat} (hp : p < 16) (hpos : 1 ≤ p)
    (hready : partReady s p [1, 2, 3, 4, 5] = true) (hgroups : groups < 2 ^ 36)
    (hfree : (bitsBelow 36 groups).all (groupFree s) = true) :
    cmdPartAdd p groups s = .next (partDone (modPart s p (fun x => { x with joining := Nat.lor x.joining groups })) p 0) := by
  have hmay : ¬ (p == 0 && fbit s aSTRIKE_CTL 0) = true := by
    simp [Nat.ne_of_gt hpos]
  refine partCommand_done hp hready ?_
  rw [if_neg hmay, if_neg (by simp only [hfree, Bool.not_true, Bool.or_false, decide_eq_true_eq]; omega)]

-- The checks of MOVE.

/-- The states of the two partitions, and the radio's hold on partition 0 (R515, R553). -/
def moveStateCode (s : Chip) (p target : Nat) : Nat :=
  if ((p == 0 || target == 0) && fbit s aSTRIKE_CTL 0) || decide (16 < target) || target == p ||
    (decide (target < 16) && partState s target == 0) then 0x4001 else 0

/-- The groups are the partition's, and none is of partition 0's hard reserve (R516). -/
def moveGroupCode (s : Chip) (p groups : Nat) : Nat :=
  if 2 ^ 36 ≤ groups || !(bitsBelow 36 groups).all (fun g => (heldGroups s p).testBit g && !(p == 0 && groupHard s g))
    then 0x4002 else 0

/-- The pass Strike of a partition that is not idle lies far enough ahead (R521). -/
def moveTimeCode (s : Chip) (p effective : Nat) : Nat :=
  if !(partState s p == 1) && decide (strikeOf s effective < (s.radio.number + quenchLead s : Nat)) then 0x4011 else 0

/-- No Quench of one of the groups is pending (R521). -/
def movePendingCode (s : Chip) (p groups : Nat) : Nat := if movePending s p groups then 0x4012 else 0

def moveCode (s : Chip) (p groups target effective : Nat) : Nat :=
  leastCode [moveStateCode s p target, moveGroupCode s p groups, moveTimeCode s p effective, movePendingCode s p groups]

/-- MOVE by its checks: the least code, or no groups, or groups of an idle partition, or a Quench. -/
theorem cmdPartMove_eq (p groups target effective : Nat) (s : Chip) :
    cmdPartMove p groups target effective s = partCommand p [1, 2, 3, 4, 5] s (fun st =>
      if moveCode st p groups target effective != 0 then (st, moveCode st p groups target effective)
      else if groups == 0 then (st, 0)
      else if partState st p == 1 then (modPart st p (fun x => { x with passing := x.passing ++ [(target, groups)] }), 0)
      else (announce st p .manager groups (strikeOf st effective).toNat target, 0)) := rfl

section
variable {s : Chip} {p groups target effective : Nat}

theorem moveStateCode_eq_zero (hstrike : (p ≠ 0 ∧ target ≠ 0) ∨ fbit s aSTRIKE_CTL 0 = false) (hne : target ≠ p)
    (hto : target = 16 ∨ (target < 16 ∧ partState s target ≠ 0)) : moveStateCode s p target = 0 := by
  have hradio : ((p == 0 || target == 0) && fbit s aSTRIKE_CTL 0) = false := by
    rcases hstrike with ⟨hp, ht⟩ | hoff
    · simp [hp, ht]
    · simp [hoff]
  have hthere : decide (16 < target) = false := decide_eq_false (by omega)
  have hon : (decide (target < 16) && partState s target == 0) = false := by
    rcases hto with ht | ⟨-, hstate⟩
    · simp [ht]
    · simp [hstate]
  rw [moveStateCode, hradio, hthere, beq_false_of_ne hne, hon]
  rfl

theorem moveGroupCode_refused {g : Nat} (hg : g < 36) (hbit : groups.testBit g = true)
    (hnot : (heldGroups s p).testBit g = false ∨ (p = 0 ∧ groupHard s g = true)) : moveGroupCode s p groups = 0x4002 := by
  refine if_pos ?_
  have hno : ((heldGroups s p).testBit g && !(p == 0 && groupHard s g)) = false := by
    rcases hnot with hheld | ⟨hp, hhard⟩
    · simp [hheld]
    · simp [hp, hhard]
  have hsome : ¬ (bitsBelow 36 groups).all (fun g => (heldGroups s p).testBit g && !(p == 0 && groupHard s g)) = true :=
    fun hall => absurd ((List.all_eq_true.1 hall g (mem_bitsBelow.2 ⟨hg, hbit⟩)).symm.trans hno) (by decide)
  simp only [Bool.eq_false_iff.2 hsome, Bool.not_false, Bool.or_true]

theorem moveGroupCode_eq_zero (hpos : 1 ≤ p) (hgroups : groups < 2 ^ 36)
    (hheld : ∀ g, g < 36 → groups.testBit g = true → (heldGroups s p).testBit g = true) : moveGroupCode s p groups = 0 := by
  refine if_neg ?_
  have hall : (bitsBelow 36 groups).all (fun g => (heldGroups s p).testBit g && !(p == 0 && groupHard s g)) = true := by
    refine List.all_eq_true.2 (fun g hg => ?_)
    obtain ⟨hlt, hbit⟩ := mem_bitsBelow.1 hg
    simp [hheld g hlt hbit, Nat.ne_of_gt hpos]
  simp only [hall, Bool.not_true, Bool.or_false, decide_eq_true_eq]
  omega

theorem moveTimeCode_idle (h : partState s p = 1) : moveTimeCode s p effective = 0 := if_neg (by simp [h])

theorem moveTimeCode_late (h : partState s p ≠ 1) (hlate : strikeOf s effective < (s.radio.number + quenchLead s : Nat)) :
    moveTimeCode s p effective = 0x4011 := if_pos (by simp only [decide_eq_true hlate, Bool.and_true]; simpa using h)

theorem moveTimeCode_cases : moveTimeCode s p effective = 0 ∨ moveTimeCode s p effective = 0x4011 := by
  unfold moveTimeCode
  split
  · exact .inr rfl
  · exact .inl rfl

theorem movePendingCode_eq_zero (h : movePending s p groups = false) : movePendingCode s p groups = 0 :=
  if_neg (by simp [h])

theorem movePendingCode_cases : movePendingCode s p groups = 0 ∨ movePendingCode s p groups = 0x4012 := by
  unfold movePendingCode
  split
  · exact .inr rfl
  · exact .inl rfl

/-- A MOVE whose groups are refused ends with 0x4002, whatever its time and what is pending (R27, R516). -/
theorem moveCode_groups (hstate : moveStateCode s p target = 0) (hgroup : moveGroupCode s p groups = 0x4002) :
    moveCode s p groups target effective = 0x4002 := by
  rw [moveCode, hstate, hgroup, leastCode_zero_cons]
  refine leastCode_cons_of_le (by decide) ?_
  have htime := moveTimeCode_cases (s := s) (p := p) (effective := effective)
  have hpend := movePendingCode_cases (s := s) (p := p) (groups := groups)
  simp only [List.forall_mem_cons, List.not_mem_nil, false_implies, implies_true, and_true]
  omega

/-- A MOVE of groups that may go, with nothing pending, ends with what its time gives. -/
theorem moveCode_time (hstate : moveStateCode s p target = 0) (hgroup : moveGroupCode s p groups = 0)
    (hpend : movePendingCode s p groups = 0) : moveCode s p groups target effective = moveTimeCode s p effective := by
  rw [moveCode, hstate, hgroup, hpend, leastCode_zero_cons, leastCode_zero_cons]
  rcases moveTimeCode_cases (s := s) (p := p) (effective := effective) with h | h <;> rw [h] <;> rfl

/-- A MOVE with a code ends with it. -/
theorem cmdPartMove_code {code : Nat} (hp : p < 16) (hready : partReady s p [1, 2, 3, 4, 5] = true)
    (hcode : moveCode s p groups target effective = code) (hne : code ≠ 0) :
    cmdPartMove p groups target effective s = .next (partDone s p code) := by
  rw [cmdPartMove_eq]
  refine partCommand_code hp hready (c := s) ?_ hne
  rw [hcode, if_pos (by simpa using hne)]

/-- A MOVE out of an idle partition has its groups pass at the next boundary with no notice (R522). -/
theorem cmdPartMove_idle (hp : p < 16) (hready : partReady s p [1, 2, 3, 4, 5] = true)
    (hcode : moveCode s p groups target effective = 0) (hgroups : groups ≠ 0) (hidle : partState s p = 1) :
    cmdPartMove p groups target effective s =
      .next (partDone (modPart s p (fun x => { x with passing := x.passing ++ [(target, groups)] })) p 0) := by
  rw [cmdPartMove_eq]
  refine partCommand_done hp hready ?_
  rw [hcode, if_neg (by decide), if_neg (by simpa using hgroups), if_pos (by simpa using hidle)]

end

/-- The clause on groups that are refused. -/
theorem groupsAreRefused : Clauses.GroupsAreRefused := by
  intro s p groups target effective g hp hgroups hready hradio
  have hanswer : ∀ {c : Instr} {cmd : Chip → Out}, exec c s = onChip s cmd →
      cmd s.chip = .next (partDone s.chip p 0x4002) →
      ∃ t, exec c s = .next t ∧ partAnswered [aPART_STATUS p] s t p 0x4002 ∧ getPart t.chip p = getPart s.chip p :=
    fun hexec hcmd => ⟨_, hexec.trans (onChip_next hcmd), partAnswered_code s p rfl, getPart_partDone s.chip p p rfl⟩
  constructor
  · rintro ⟨k, hk, hbit, htaken⟩
    exact hanswer (cmd := cmdPartAdd p groups) rfl (cmdPartAdd_taken hp hready hradio hk hbit htaken)
  · intro hne htarget hto hg hbit hnot
    have hstrike : (p ≠ 0 ∧ target ≠ 0) ∨ fbit s.chip aSTRIKE_CTL 0 = false :=
      and_or_right.2 ⟨hradio, htarget⟩
    have hcode := moveCode_groups (effective := effective) (moveStateCode_eq_zero hstrike hne hto)
      (moveGroupCode_refused hg hbit hnot)
    exact hanswer (cmd := cmdPartMove p groups target effective) rfl (cmdPartMove_code hp hready hcode (by decide))

end Sys2Proof.Proofs
end

section
/-! SUPPORT. CANCEL (R515, R528): the moves that it leaves, and that its notices leave them alone. -/

namespace Sys2Proof.Proofs

open Sys2Proof.Machine

-- Bits of a bitmap removed.

/-- The bits below `n` of a bitmap that another does not hold. -/
def dropBelow (n x gs : Nat) : Nat := (bitsBelow n x).foldl (fun a g => if gs.testBit g then a else a + 2 ^ g) 0

theorem dropBits_eq (x gs : Nat) : dropBits x gs = dropBelow 36 x gs := rfl

/-- The next bit: left out where the first bitmap has it not or the second has it. -/
theorem dropBelow_succ (n x gs : Nat) :
    dropBelow (n + 1) x gs = if x.testBit n ∧ gs.testBit n = false then dropBelow n x gs + 2 ^ n else dropBelow n x gs := by
  have hbits : bitsBelow (n + 1) x = bitsBelow n x ++ if x.testBit n then [n] else [] := by
    simp [bitsBelow, List.range_succ, List.filter_append, List.filter_cons]
  rw [dropBelow, hbits, List.foldl_append]
  cases x.testBit n <;> cases hgs : gs.testBit n <;> simp [dropBelow, hgs]

theorem dropBelow_lt (n x gs : Nat) : dropBelow n x gs < 2 ^ n := by
  induction n with
  | zero => exact Nat.one_pos
  | succ n ih =>
    rw [dropBelow_succ, pow_succ]
    split <;> omega

/-- A bit that the second bitmap has is removed. -/
theorem testBit_dropBelow {gs g : Nat} (h : gs.testBit g = true) (n x : Nat) : (dropBelow n x gs).testBit g = false := by
  induction n with
  | zero => exact Nat.zero_testBit g
  | succ n ih =>
    rw [dropBelow_succ]
    split
    case isFalse => exact ih
    case isTrue hadd =>
      have hne : g ≠ n := fun e => by simp [e ▸ h] at hadd
      rcases Nat.lt_or_gt_of_ne hne with hlt | hgt
      · rw [Nat.add_comm, Nat.testBit_two_pow_add_gt hlt, ih]
      · refine Nat.testBit_lt_two_pow ?_
        have hlow := dropBelow_lt n x gs
        have hpow : 2 ^ (n + 1) ≤ 2 ^ g := Nat.pow_le_pow_right (by decide) hgt
        rw [pow_succ] at hpow
        omega

/-- The moves of a partition that CANCEL of some groups leaves: the radio's, and those of other groups (R515, R528). -/
def movesLeft (gs : Nat) (l : List Move) : List Move :=
  (l.map (fun m => if m.origin == .radio then m else { m with groups := dropBits m.groups gs })).filter
    (fun m => m.groups != 0)

/-- A move is the radio's, or of none of the groups. -/
def clearOf (gs : Nat) (m : Move) : Prop :=
  m.origin = .radio ∨ ∀ g, g < 36 → gs.testBit g = true → m.groups.testBit g = false

theorem clearOf_of_mem_movesLeft {gs : Nat} {l : List Move} {m : Move} (h : m ∈ movesLeft gs l) : clearOf gs m := by
  obtain ⟨old, -, rfl⟩ := List.mem_map.1 (List.mem_filter.1 h).1
  split
  case isTrue hradio => exact .inl (by simpa using hradio)
  case isFalse => exact .inr (fun g _ hg => testBit_dropBelow hg 36 old.groups)

-- What leaves the moves and the strands alone.

/-- The moves of every partition and the strands are what they were. -/
def movesKept (s t : Chip) : Prop := (∀ q, (getPart t q).moves = (getPart s q).moves) ∧ t.strands = s.strands

theorem movesKept.refl (s : Chip) : movesKept s s := ⟨fun _ => rfl, rfl⟩

theorem movesKept.trans {s t u : Chip} (hst : movesKept s t) (htu : movesKept t u) : movesKept s u :=
  ⟨fun q => (htu.1 q).trans (hst.1 q), htu.2.trans hst.2⟩

/-- Where the strands are the same, none waits after if none waited before. -/
theorem allQuiet_of_strands {s t : Chip} (h : t.strands = s.strands) (hq : allQuiet s = true) : allQuiet t = true := by
  unfold allQuiet tileQuiet getStrand at hq ⊢
  rw [h]
  exact hq

theorem movesKept.allQuiet {s t : Chip} (h : movesKept s t) (hq : allQuiet s = true) : allQuiet t = true :=
  allQuiet_of_strands h.2 hq

/-- Changes that each keep the moves, as long as no strand waits, keep them one after the other. -/
theorem movesKept_forEach {α : Type} {f : Chip → α → Chip} (h : ∀ s x, allQuiet s = true → movesKept s (f s x))
    (l : List α) {s : Chip} (hq : allQuiet s = true) : movesKept s (forEach l f s) := by
  induction l generalizing s with
  | nil => exact .refl s
  | cons x l ih =>
    have hx := h s x hq
    exact hx.trans (ih (hx.allQuiet hq))

/-- What changes neither partitions nor strands keeps the moves. -/
theorem movesKept.of_eq {s t : Chip} (hparts : t.parts = s.parts) (hstrands : t.strands = s.strands) : movesKept s t :=
  ⟨fun q => by rw [getPart, hparts, ← getPart], hstrands⟩

theorem movesKept_ite {c : Prop} [Decidable c] {s t u : Chip} (ht : movesKept s t) (hu : movesKept s u) :
    movesKept s (if c then t else u) := by
  split
  · exact ht
  · exact hu

theorem movesKept_fset (s : Chip) (k hi lo v : Nat) : movesKept s (fset s k hi lo v) := .of_eq rfl rfl
theorem movesKept_setTile (s : Chip) (t : Nat) (x : Tile) : movesKept s (setTile s t x) := .of_eq rfl rfl
theorem movesKept_setHasp (s : Chip) (f : Nat) (x : Hasp) : movesKept s (setHasp s f x) := .of_eq rfl rfl
theorem movesKept_noteCE (s : Chip) : movesKept s (noteCE s) := .of_eq rfl rfl
theorem movesKept_ctrBank (s : Chip) (t : Nat) (write : Bool) (lines : Nat) : movesKept s (ctrBank s t write lines) :=
  .of_eq rfl rfl

/-- A change of a partition that leaves its moves. -/
theorem movesKept_modPart (s : Chip) (p : Nat) {f : Part → Part} (h : ∀ x, (f x).moves = x.moves) :
    movesKept s (modPart s p f) := by
  refine ⟨fun q => ?_, rfl⟩
  rw [getPart_modPart]
  split
  case isTrue hq => rw [h, hq]
  case isFalse => rfl

-- Bytes written into the banks (R123, R124).

/-- A read corrects, counts or poisons, in its tile and its registers. -/
theorem movesKept_readWord (s : Chip) (t wi : Nat) : movesKept s (readWord s t wi).1 := by
  unfold readWord
  dsimp only
  split
  case isTrue => exact .refl s
  case isFalse =>
    split
    case isFalse =>
      exact (((movesKept_fset s _ _ _ _).trans (movesKept_fset _ _ _ _ _)).trans (movesKept_fset _ _ _ _ _)).trans
        (movesKept_setTile _ t _)
    case isTrue =>
      split
      case isTrue => exact .refl s
      case isFalse =>
        have hcounted := (movesKept_fset s (aTILE_ECC t) 63 48 _).trans (movesKept_noteCE (fsat s (aTILE_ECC t) 63 48 1))
        exact movesKept_ite (hcounted.trans (movesKept_setTile _ t _)) hcounted

theorem movesKept_writeSome (s : Chip) (t a n : Nat) (e : Elem) : movesKept s (writeSome s t a n e) := by
  refine movesKept_ite (movesKept_setTile s t _) ?_
  have hread := (movesKept_ctrBank s t false 1).trans (movesKept_readWord (ctrBank s t false 1) t (a / 8))
  exact hread.trans (movesKept_setTile _ t _)

theorem movesKept_acArrive (s : Chip) (t n : Nat) : movesKept s (acArrive s t n) := movesKept_setTile s t _

theorem movesKept_putBytes (t n : Nat) (s : Chip) (a : Nat) (bs : List (Byte × Bool)) :
    movesKept s (putBytes t n s a bs) := by
  induction n generalizing s a bs with
  | zero => exact .refl s
  | succ n ih =>
    unfold putBytes
    split
    case isTrue => exact .refl s
    case isFalse => exact (movesKept_writeSome s t a _ _).trans (ih _ _ _)

-- Notices (R212, R523).

/-- A strand that does not wait does not try again. -/
theorem retry_of_wait_none {s : Chip} {t i : Nat} (h : (getStrand s t i).wait = none) : retry s t i = s := by
  rw [retry, h]

/-- With no strand waiting, an arrival makes none go on (R212). -/
theorem retryTile_allQuiet {s : Chip} {t : Nat} (ht : t < 144) (hq : allQuiet s = true) : retryTile s t = s := by
  have hwait : ∀ i < 8, (getStrand s t i).wait = none := fun i hi => by
    have htile : tileQuiet s t = true := List.all_eq_true.1 hq t (List.mem_range.2 ht)
    simpa using List.all_eq_true.1 htile i (List.mem_range.2 hi)
  have hcache : cacheQuiet s t = true := List.all_eq_true.2 (fun i hi => by simp [hwait i (List.mem_range.1 hi)])
  rw [retryTile, forEach_eq_self (fun i hi => retry_of_wait_none (hwait i (List.mem_range.1 hi))), retryCache_quiet s t hcache]

theorem movesKept_retryTile {s : Chip} {t : Nat} (ht : t < 144) (hq : allQuiet s = true) : movesKept s (retryTile s t) := by
  rw [retryTile_allQuiet ht hq]
  exact .refl s

theorem movesKept_noticeTiles (s : Chip) (p : Nat) (bs : List Byte) (hq : allQuiet s = true) :
    movesKept s (noticeTiles s p bs) := by
  unfold noticeTiles
  dsimp only
  split
  case isTrue => exact .refl s
  case isFalse =>
    refine movesKept_forEach (fun st t hst => ?_) _ hq
    split
    case isTrue => exact .refl st
    case isFalse hopen =>
      split
      case isTrue => exact .refl st
      case isFalse =>
        have ht : t < 144 := by
          simp only [tileOpen, Bool.or_eq_true, not_or, Bool.not_eq_true, Bool.not_eq_false', Bool.and_eq_true,
            decide_eq_true_eq] at hopen
          omega
        have hwritten := ((movesKept_putBytes t 65 st (fget st (aPART_CTL p) 31 16 * 64) (Machine.clean bs)).trans
          (movesKept_ctrBank _ t true 1)).trans (movesKept_acArrive _ t (fget st (aPART_CTL p) 37 32))
        exact hwritten.trans (movesKept_retryTile ht (hwritten.allQuiet hst))

theorem movesKept_haspIrq (s : Chip) (f : Nat) (tenant : Bool) : movesKept s (haspIrq s f tenant) :=
  movesKept_ite (.of_eq rfl rfl) (.refl s)

theorem movesKept_haspPush (s : Chip) (f : Nat) (tenant : Bool) (m : Msg) : movesKept s (haspPush s f tenant m) :=
  (movesKept_setHasp s f _).trans (movesKept_haspIrq _ f tenant)

theorem movesKept_haspFlush (f : Nat) (tenant : Bool) (n : Nat) (s : Chip) : movesKept s (haspFlush f tenant n s) := by
  induction n generalizing s with
  | zero => exact .refl s
  | succ n ih =>
    unfold haspFlush
    dsimp only
    generalize (if tenant = true then (getHasp s f).heldTenant else (getHasp s f).heldManager) = held
    cases held with
    | nil => exact .refl s
    | cons m r =>
      exact movesKept_ite (((movesKept_setHasp s f _).trans (movesKept_haspPush _ f tenant m)).trans (ih _)) (.refl s)

theorem movesKept_hearthSend (s : Chip) (f : Nat) (tenant : Bool) (type status : Nat) (payload : List Byte) :
    movesKept s (hearthSend s f tenant type status payload) :=
  (movesKept_setHasp s f _).trans (movesKept_haspFlush f tenant 16 _)

/-- A notice counts itself, and leaves the moves (R523). -/
theorem movesKept_notice (s : Chip) (p kind reason pass ltiles : Nat) (hq : allQuiet s = true) :
    movesKept s (notice s p kind reason pass ltiles) := by
  have hcount : movesKept s (modPart s p (fun x => { x with nseq := (getPart s p).nseq + 1 })) :=
    movesKept_modPart s p (fun _ => rfl)
  exact (hcount.trans (movesKept_noticeTiles _ p _ (hcount.allQuiet hq))).trans (movesKept_hearthSend _ _ _ _ _ _)

-- The command.

/-- What CANCEL takes from a partition before it tells of it. -/
def cancelPart (gs : Nat) (s : Chip) (p : Nat) : Chip :=
  modPart s p (fun x => { x with
    moves := movesLeft gs x.moves
    passing := if partState s p == 0 then x.passing
      else (x.passing.map (fun m => (m.1, dropBits m.2 gs))).filter (fun m => m.2 != 0) })

/-- The rest of CANCEL in a partition is notices and PART_MOVING, which leave the moves. -/
theorem movesKept_cancelIn (gs : Nat) {s : Chip} (p : Nat) (hq : allQuiet s = true) :
    movesKept (cancelPart gs s p) (cancelIn gs 0 s p) := by
  have hpart : allQuiet (cancelPart gs s p) = true := allQuiet_of_strands rfl hq
  change movesKept (cancelPart gs s p) (setMoving (forEach _ _ (cancelPart gs s p)) p)
  exact (movesKept_forEach (fun st m hst => movesKept_notice st p 2 (originCode m.origin) (m.pass % 2 ^ 32)
    (ltilesOf st p (tilesOfGroups (Nat.land m.groups gs))) hst) _ hpart).trans (movesKept_fset _ _ _ _ _)

/-- CANCEL in a partition leaves it with the moves that do not concern it, and the others as they were. -/
theorem moves_cancelIn (gs : Nat) {s : Chip} (p q : Nat) (hq : allQuiet s = true) :
    (getPart (cancelIn gs 0 s p) q).moves =
      if q = p then movesLeft gs (getPart s p).moves else (getPart s q).moves := by
  rw [(movesKept_cancelIn gs p hq).1 q, cancelPart, getPart_modPart]
  split <;> rfl

/-- CANCEL in a list of partitions leaves clear each of them, and what was clear before. -/
theorem clearOf_cancelIn_forEach {gs : Nat} {l : List Nat} {s : Chip} {q : Nat} (hq : allQuiet s = true)
    (h : q ∈ l ∨ ∀ m ∈ (getPart s q).moves, clearOf gs m) :
    ∀ m ∈ (getPart (forEach l (cancelIn gs 0) s) q).moves, clearOf gs m := by
  induction l generalizing s with
  | nil => exact h.resolve_left List.not_mem_nil
  | cons p l ih =>
    refine ih ((movesKept_cancelIn gs p hq).allQuiet (allQuiet_of_strands rfl hq)) ?_
    by_cases hl : q ∈ l
    · exact .inl hl
    · refine .inr (fun m hm => ?_)
      rw [moves_cancelIn gs p q hq] at hm
      split at hm
      case isTrue => exact clearOf_of_mem_movesLeft hm
      case isFalse hne => exact h.resolve_left (by simp [hne, hl]) m hm

end Sys2Proof.Proofs
end

section
/-! SUPPORT. The partition commands that take effect (R515 to R518, R521, R545), and the obligation on them. -/

namespace Sys2Proof.Proofs

open Sys2Proof.Machine

-- CREATE.

/-- A partition just made: idle, with nothing but the groups that are still to pass (R515, R551). -/
def createdPart (s : Chip) (p : Nat) : Chip :=
  setPartState (fsetb (setPart s p { passing := (getPart s p).passing }) (aPART_CTL p) 1 false) p 1

/-- CREATE of a partition other than 0, which is always there, makes it (R515). -/
theorem cmdPartCreate_ready {s : Chip} {p : Nat} (hpos : 1 ≤ p) (hp : p < 16) (hready : partReady s p [0] = true) :
    cmdPartCreate p s = .next (partDone (createdPart s p) p 0) :=
  partCommand_done hp hready (if_neg (by simpa using Nat.ne_of_gt hpos))

theorem getPart_createdPart (s : Chip) (p q : Nat) :
    getPart (createdPart s p) q = if q = p then { passing := (getPart s p).passing } else getPart s q := by
  rw [createdPart, setPartState, fset, getPart_barSet, fsetb, fset, getPart_barSet, getPart_setPart]

theorem partState_createdPart (s : Chip) (p : Nat) : partState (createdPart s p) p = 1 :=
  fget_fset_same _ _ 3 0 1 (by decide) (by decide)

theorem fbit_createdPart_ctl (s : Chip) (p : Nat) : fbit (createdPart s p) (aPART_CTL p) 1 = false := by
  rw [fbit, createdPart, setPartState, fget_fset_other _ _ _ _ _ _ (aPART_CTL_ne_status p p)]
  exact fbit_fsetb_same _ _ _ _ (by decide)

theorem barGet_createdPart_other (s : Chip) {p k : Nat} (hk : k ∉ [aPART_CTL p, aPART_STATUS p]) :
    barGet (createdPart s p) k = barGet s k := by
  simp only [List.mem_cons, List.not_mem_nil, or_false, not_or] at hk
  obtain ⟨hctl, hstatus⟩ := hk
  exact (barGet_fset_other _ _ _ _ hstatus).trans (barGet_fset_other _ _ _ _ hctl)

theorem createdPart_frame (s : Chip) (p : Nat) :
    ∃ regs parts, createdPart s p = { s with bar := regs, parts := parts } := by
  obtain ⟨_, hctl⟩ := fset_frame (setPart s p { passing := (getPart s p).passing }) (aPART_CTL p) 1 1 (b2n false)
  obtain ⟨regs, hstate⟩ := fset_frame (fsetb (setPart s p { passing := (getPart s p).passing }) (aPART_CTL p) 1 false)
    (aPART_STATUS p) 3 0 1
  exact ⟨regs, _, by rw [createdPart, setPartState, hstate, fsetb, hctl, setPart]⟩

-- MAP, FLIP and CANCEL.

/-- MAP of an image that the Hearth can read, and that names different tiles of the partition, waits for the next
boundary (R517, R518). -/
theorem cmdPartMap_good {s : Chip} {p n : Nat} {w : Word} {h b : Chip × List Byte × Nat} (hp : p < 16)
    (hready : partReady s p [1, 2, 3] = true) (hh : hearthRead s p w.toNat 4 = h) (hn : bNat h.2.1 0 2 = n)
    (hb : hearthRead h.1 p (w.toNat + 4) n = b) (hhead : h.2.2 = 0) (hlo : 1 ≤ n) (hhi : n ≤ 144)
    (hversion : bNat h.2.1 2 1 = 1) (hbody : b.2.2 = 0)
    (htiles : mapTilesOk (mapTiles s p) (b.2.1.map (·.toNat)) = true) :
    cmdPartMap p w s = .next (partDone (modPart b.1 p (fun x => { x with nextMap := some (b.2.1.map (·.toNat)) })) p 0) := by
  subst hh hn hb
  refine partCommand_done hp hready ?_
  have hcount : ¬ (bNat (hearthRead s p w.toNat 4).2.1 0 2 == 0 || decide (144 < bNat (hearthRead s p w.toNat 4).2.1 0 2) ||
      bNat (hearthRead s p w.toNat 4).2.1 2 1 != 1) = true := by
    simp only [hversion, bne_self_eq_false, Bool.or_false, Bool.or_eq_true, beq_iff_eq, decide_eq_true_eq]
    omega
  dsimp only
  rw [if_neg (by simp [hhead]), if_neg hcount, if_neg (by simp [hbody]), if_neg (by simp [htiles])]

/-- FLIP exchanges the bitmaps (R545). -/
theorem cmdPartFlip_ready {s : Chip} {p : Nat} (hp : p < 16) (hready : partReady s p [1, 2, 3, 4, 5] = true) :
    cmdPartFlip p s = .next (partDone (fsetb s (aPART_DMAP p) 1 (!fbit s (aPART_DMAP p) 1)) p 0) :=
  partCommand_done hp hready rfl

/-- CANCEL goes through every partition (R515). -/
theorem cmdPartCancel_ready {s : Chip} {p : Nat} (hp : p < 16) (hready : partReady s p [1, 2, 3, 4, 5] = true)
    (groups : Nat) :
    cmdPartCancel p groups s = .next (partDone (forEach (List.range 16) (cancelIn groups 0) s) p 0) :=
  partCommand_done hp hready rfl

/-- The clause on the commands that take effect, command by command. -/
theorem partitionsAreSetUp : Clauses.PartitionsAreSetUp := by
  intro s p groups target effective w hpos hp hgroups
  refine ⟨fun hready => ?_, fun hready hfree => ?_, fun hready hne htarget hto hheld hpend hsome => ?_, fun hready => ?_,
    fun hready => ?_, fun hready hquiet => ?_⟩
  case refine_1 =>
    refine ⟨_, onChip_next (f := cmdPartCreate p) (cmdPartCreate_ready hpos hp hready),
      partAnswered_done _ (createdPart_frame s.chip p) (fun k hk => barGet_createdPart_other s.chip hk) (fun q hq => ?_),
      ?_, ?_, ?_⟩
    · rw [getPart_createdPart, if_neg hq]
    · exact (fget_partDone_zero_other _ p (aPART_STATUS_ne_cmdStatus p) 3 0).trans (partState_createdPart s.chip p)
    · exact (getPart_partDone_zero _ p p).trans ((getPart_createdPart s.chip p p).trans (if_pos rfl))
    · exact (fbit_partDone_zero_other _ p (aPART_CTL_ne_cmdStatus p) 1).trans (fbit_createdPart_ctl s.chip p)
  case refine_2 =>
    exact ⟨_, onChip_next (f := cmdPartAdd p groups) (cmdPartAdd_free hp hpos hready hgroups hfree),
      partAnswered_modPart s p _, (getPart_partDone_zero _ p p).trans (getPart_modPart_same s.chip p _)⟩
  case refine_3 =>
    have hcode : moveCode s.chip p groups target effective = moveTimeCode s.chip p effective :=
      moveCode_time (moveStateCode_eq_zero (.inl ⟨Nat.ne_of_gt hpos, htarget⟩) hne hto)
        (moveGroupCode_eq_zero hpos hgroups hheld) (movePendingCode_eq_zero hpend)
    refine ⟨fun hidle => ?_, fun hbusy hlate => ?_⟩
    · have hzero := hcode.trans (moveTimeCode_idle hidle)
      exact ⟨_, onChip_next (f := cmdPartMove p groups target effective) (cmdPartMove_idle hp hready hzero hsome hidle),
        partAnswered_modPart s p _, (getPart_partDone_zero _ p p).trans (getPart_modPart_same s.chip p _)⟩
    · have hcode := hcode.trans (moveTimeCode_late hbusy hlate)
      exact ⟨_, onChip_next (f := cmdPartMove p groups target effective) (cmdPartMove_code hp hready hcode (by decide)),
        partAnswered_code s p rfl, getPart_partDone s.chip p p rfl⟩
  case refine_4 =>
    intro h n b l hhead hlo hhi hversion hbody htiles
    have hmap := cmdPartMap_good hp hready (w := w) rfl rfl rfl hhead hlo hhi hversion hbody htiles
    have hpart : getPart (partDone (modPart b.1 p (fun x => { x with nextMap := some l })) p 0) p =
        { getPart b.1 p with nextMap := some l } := (getPart_partDone_zero _ p p).trans (getPart_modPart_same b.1 p _)
    refine ⟨_, onChip_next (f := cmdPartMap p w) hmap, fget_partDone_zero _ p, ?_, ?_⟩
    · exact congrArg Part.nextMap hpart
    · exact (congrArg Machine.Part.map hpart).trans rfl
  case refine_5 =>
    refine ⟨_, onChip_next (f := cmdPartFlip p) (cmdPartFlip_ready hp hready),
      partAnswered_done [aPART_DMAP p] ⟨_, _, rfl⟩ (fun k hk => ?_) (fun _ _ => rfl), ?_⟩
    · exact barGet_fset_other s.chip 1 1 _ (List.ne_of_not_mem_cons hk)
    · exact (fbit_partDone_zero_other _ p (aPART_DMAP_ne_cmdStatus p) 1).trans (fbit_fsetb_same _ _ _ _ (by decide))
  case refine_6 =>
    refine ⟨_, onChip_next (f := cmdPartCancel p groups) (cmdPartCancel_ready hp hready groups), fget_partDone_zero _ p,
      fun q m hq hm => ?_⟩
    rw [getPart_partDone_zero] at hm
    exact clearOf_cancelIn_forEach hquiet (.inl (List.mem_range.2 hq)) m hm

/-- Settles O46: a command that its state or its groups refuse changes its code alone, and each command that sets a
partition up does what its rule says. -/
theorem partitionsAreMade : Obligations.PartitionsAreMade :=
  ⟨partitionCommandsRefused, groupsAreRefused, partitionsAreSetUp⟩

end Sys2Proof.Proofs
end

section
/-! SUPPORT. Every command runs on the chip and leaves the queue alone (log 1), and a well-formed one answers a next
state: its units are units that the part has (log 8). -/

namespace Sys2Proof.Proofs

open Sys2Proof.Machine

-- What a command runs.

/-- Every command is an effect on the chip, with the queue as it stands: some always answer a next state, the others ask
for their unit first (log 1, log 8). -/
theorem exec_onChip (c : Instr) :
    (∀ s, ∃ d, exec c s = .next { s with chip := d }) ∨ ∃ f, ∀ s, exec c s = onChip s f := by
  cases c
  case sendArrival | sendAckArrival | sendRefused | memMapWrite | hdmDecoderCommit | hostHdmAccess | qmEnable |
      qmTableReady | qmStopAll | descriptorStart | dmaReadReturn | readBackReturn | completionRecordWrite |
      cqModerationTimeout | contextLost | hostReadTimeout | strikeBoundary | phaseStart | phaseDeadline | planLoad |
      planProofComplete | planReproofComplete | tierReq | strikeEnable | unmute | shaperTick | timeSnapshot |
      syncTimeout | holdoverExpiry | synceReferenceLost | bcycleWrite | epochBump | drainMarkerReturn |
      fabricRequestArrival | fabricAckArrival | fabricReplayTimeout | fabricOpTimeout | hotLineUpdate |
      multicastDetach | pwrgoodAssert | pwrgoodDeassert | perstAssert | perstDeassert | cxlHotReset |
      cxlLinkDownTimeout | pfFlr | romSelftestComplete | watchdogExpiry | imageLoadGo | imageVerify | svnCommit |
      getVersion | getIdentity | getMeasurements | extend | sessionStart | sessionFinish | keyProg | keyGo |
      keyStop | biasFlip | biasFlipComplete | entdaa | setEndpointId | mctpControl | pldmRequest | healthRecompute |
      pwrDomainWrite | powerSample | throttleRelease | throttleExhausted | pwrLimitWrite | thermalSample |
      undervoltage | overvoltage | pwrbrakeAssert | pwrbrakeDeassert | tapInstruction | counterClose |
      tapPieceArrival | twHeadWrite | traceEntry | arm | trigger | drain | traceDrainComplete | trMark |
      snapshotRequest | snapshotComplete | cxlLinkTrained | traceSramWrite =>
    exact .inl (fun _ => ⟨_, rfl⟩)
  all_goals exact .inr ⟨_, fun _ => rfl⟩

/-- A Tongs instruction brings a slot of the bundle of the strand that its site names (R194). -/
theorem exec_of_siteOf {c : Instr} {site : Site} (h : siteOf c = some site) (s : State) :
    exec c s = onChip s (slotCommand site c) := by
  cases c <;> simp only [siteOf, reduceCtorEq, Option.some.injEq] at h <;> subst h <;> rfl

/-- The site of a well-formed Tongs instruction names a slot of a strand that the part has (R190, R191). -/
theorem site_inRange {c : Instr} {site : Site} (h : siteOf c = some site) (hw : wellFormed c = true) :
    site.tile < 144 ∧ site.strand < 8 ∧ site.slot < 4 := by
  cases c <;> simp only [siteOf, reduceCtorEq, Option.some.injEq] at h <;> subst h <;>
    simp [wellFormed, siteOk] at hw <;> omega

-- Outcomes on the chip (log 8).

/-- The outcome is a next state of the chip. -/
def Ends (o : Out) : Prop := ∃ c, o = .next c

@[simp] theorem ends_next (c : Chip) : Ends (.next c) := ⟨c, rfl⟩

theorem ends_ite {p : Prop} [Decidable p] {a b : Out} (ha : p → Ends a) (hb : ¬ p → Ends b) : Ends (if p then a else b) := by
  split
  case isTrue h => exact ha h
  case isFalse h => exact hb h

theorem completes_of_ends {c : Instr} {s : State} {f : Chip → Out} (hexec : exec c s = onChip s f) (h : Ends (f s.chip)) :
    completes c s := by
  obtain ⟨d, hd⟩ := h
  exact ⟨_, hexec.trans (onChip_next hd)⟩

/-- A side that may send is the manager's, or the tenant's of an instance that has one (R549). -/
theorem ends_onSide {f side : Nat} (h : inSide f side = true) (x : Chip) (g : Bool → Chip → Chip) :
    Ends (onSide f side x g) := by
  simp only [inSide, Bool.and_eq_true, decide_eq_true_eq, Bool.or_eq_true] at h
  obtain ⟨hf, hside | ⟨hside, hpos⟩⟩ := h
  · exact ⟨_, if_pos ⟨hside, hf⟩⟩
  · refine ⟨g true x, ?_⟩
    rw [onSide, if_neg (by omega), if_pos hside]
    exact if_pos ⟨hpos, hf⟩

/-- A reply of a side that may send goes through that side (R549, R550). -/
theorem ends_haspReply {f side : Nat} (h : inSide f side = true) (type seqNo status : Nat) (x : Chip) :
    Ends (haspReply f side type seqNo status x) := by
  have hside : side ≠ 0 := by
    rintro rfl
    simp [inSide] at h
  rw [haspReply, if_neg hside]
  exact ends_onSide h x _

-- Writes of BAR0 (R20 to R24): each address of a block names a unit of that block.

theorem ends_partCommand {p : Nat} (hp : p < 16) (allowed : List Nat) (s : Chip) (f : Chip → Chip × Nat) :
    Ends (partCommand p allowed s f) := ⟨_, if_pos hp⟩

theorem ends_partCmd (s : Chip) (v : Nat) : Ends (partCmd s v) := by
  have hp : bitsOf v 59 56 < 16 := bitsOf_lt v 59 56
  unfold partCmd
  dsimp only
  split
  case h_15 => exact ends_next _
  all_goals exact ends_partCommand hp _ _ _

theorem ends_writeHearth (s : Chip) (a : Nat) (r : RegRow) (v : Nat) (h : a < 0x00200000) : Ends (writeHearth s a r v) :=
  ends_ite (fun _ => ends_partCmd s v) fun _ => ends_ite (fun _ => ends_next _) fun _ =>
    ends_ite (fun hgrant => ⟨_, if_pos (by omega)⟩) fun _ => ends_ite (fun _ => ends_next _) fun _ => ends_next _

theorem ends_writeTime (s : Chip) (a : Nat) (r : RegRow) (v : Nat) : Ends (writeTime s a r v) :=
  ends_ite (fun _ => ends_next _) fun _ => ends_ite (fun _ => ends_next _) fun _ =>
    ends_ite (fun htrig => ends_ite (fun _ => ⟨_, if_pos (by omega)⟩) fun _ => ends_ite (fun _ => ends_next _) fun _ => ends_next _)
      fun _ => ends_next _

theorem ends_writeStrike (s : Chip) (a : Nat) (r : RegRow) (v : Nat) (whole : Bool) : Ends (writeStrike s a r v whole) := by
  refine ends_ite (fun _ => ends_next _) fun _ => ends_ite (fun _ => ends_next _) fun _ => ends_ite (fun _ => ends_next _) fun _ =>
    ends_ite (fun _ => ?_) fun _ => ends_ite (fun _ => ends_next _) fun _ => ends_ite (fun _ => ends_writeTime s a r v) fun _ =>
      ends_next _
  exact ends_ite (fun _ => ends_next _) fun _ => ends_next _

theorem ends_writeBellows (s : Chip) (a : Nat) (r : RegRow) (v : Nat) : Ends (writeBellows s a r v) := by
  unfold writeBellows aBW_GLOBAL
  refine ends_ite (fun _ => ends_next _) fun _ => ends_ite (fun _ => ends_next _) fun hpart =>
    ends_ite (fun _ => ends_ite (fun _ => ends_next _) fun _ => ⟨_, if_pos (by omega)⟩) fun _ =>
      ends_ite (fun hslot => ⟨_, if_pos (by omega)⟩) fun _ => ends_next _

theorem ends_qmCommand {fn : Nat} (hfn : fn < 64) (q : Nat) (owned : List Byte → Bool) (s : Chip)
    (f : Chip → List Byte → Chip × Nat) : Ends (qmCommand fn q owned s f) := ⟨_, if_pos hfn⟩

theorem ends_qmCmd (s : Chip) {fn : Nat} (hfn : fn < 64) (v : Nat) : Ends (qmCmd s fn v) := by
  unfold qmCmd
  dsimp only
  split
  case h_10 => exact ends_next _
  all_goals exact ends_qmCommand hfn _ _ _ _

theorem ends_engineWrite (s : Chip) {e : Nat} (he : e < 16) (v : Nat) : Ends (engineWrite s e v) := by
  obtain ⟨c, hc⟩ : Ends (cmdEngineEnable e (bitOf v 0) s) := ⟨_, if_pos he⟩
  rw [engineWrite, hc]
  exact ends_ite (fun _ => ⟨_, if_pos he⟩) fun _ => ends_next _

theorem ends_writeQueues (s : Chip) {fn : Nat} (hfn : fn < 64) (a k : Nat) (r : RegRow) (v : Nat) (whole : Bool) :
    Ends (writeQueues s fn a k r v whole) :=
  ends_ite (fun _ => ends_ite (fun _ => ⟨_, if_pos hfn⟩) fun _ => ends_next _) fun _ =>
    ends_ite (fun _ => ends_qmCmd s hfn v) fun _ => ends_ite (fun _ => ends_next _) fun _ =>
      ends_ite (fun _ => ends_ite (fun _ => ends_next _) fun _ => ends_next _) fun _ => ends_ite (fun _ => ends_next _) fun _ =>
        ends_ite (fun heng => ends_engineWrite s (by omega) v) fun _ => ends_next _

theorem ends_memTrain (s : Chip) : Ends (cmdMemTrain s) := ends_ite (fun _ => ends_next _) fun _ => ends_next _

theorem ends_memCtlWrite (s : Chip) (c v : Nat) : Ends (memCtlWrite s c v) :=
  ends_ite (fun _ => ends_memTrain _) fun _ => ends_next _

theorem ends_swageCtlWrite (s : Chip) {u : Nat} (hu : u < 32) (v : Nat) : Ends (swageCtlWrite s u v) := by
  obtain ⟨c, hc⟩ : Ends (cmdSwageEnable u (bitOf v 0) s) := ⟨_, if_pos hu⟩
  rw [swageCtlWrite, hc]
  exact ends_ite (fun _ => ⟨_, if_pos hu⟩) fun _ => ends_next _

theorem ends_writeMemory (s : Chip) (a : Nat) (r : RegRow) (v : Nat) : Ends (writeMemory s a r v) :=
  ends_ite (fun _ => ends_next _) fun _ => ends_ite (fun _ => ends_next _) fun _ =>
    ends_ite (fun _ => ends_ite (fun _ => ends_memCtlWrite s _ v) fun _ => ends_next _) fun _ =>
      ends_ite (fun hunit => ends_ite (fun _ => ends_swageCtlWrite s (by omega) v) fun _ => ends_next _) fun _ => ends_next _

theorem ends_shaperWrite {fabric : Bool} {port queue : Nat} (h : queue < 16 ∧ port < if fabric then 32 else 8) (isB : Bool)
    (data : Word) (s : Chip) : Ends (cmdShaperWrite fabric port queue isB data s) := ⟨_, if_pos h⟩

theorem ends_writeFabric (s : Chip) (a : Nat) (r : RegRow) (v : Nat) : Ends (writeFabric s a r v) :=
  ends_ite (fun _ => ends_next _) fun _ => ends_ite (fun _ => ends_next _) fun _ => ends_ite (fun _ => ends_next _) fun _ =>
    ends_ite (fun _ => ends_next _) fun _ => ends_ite (fun hlink => ends_ite (fun _ => ends_next _) fun _ =>
      ends_ite (fun hqueue => ends_shaperWrite (by simp only [if_true]; omega) _ _ s) fun _ => ends_next _) fun _ =>
        ends_ite (fun _ => ends_next _) fun _ => ends_next _

theorem ends_writeFronthaul (s : Chip) (a : Nat) (r : RegRow) (v : Nat) : Ends (writeFronthaul s a r v) :=
  ends_ite (fun _ => ends_next _) fun _ => ends_ite (fun _ => ends_next _) fun _ => ends_ite (fun _ => ends_next _) fun hport =>
    ends_ite (fun _ => ends_next _) fun _ =>
      ends_ite (fun hqueue => ends_shaperWrite (by simp only [Bool.false_eq_true, if_false]; omega) _ _ s) fun _ =>
        ends_ite (fun _ => ⟨_, if_pos (by omega)⟩) fun _ =>
          ends_ite (fun _ => ends_ite (fun hring => ⟨_, if_pos (by omega)⟩) fun _ => ends_next _) fun _ => ends_next _

theorem ends_writeCoding (s : Chip) (a : Nat) (r : RegRow) (v : Nat) : Ends (writeCoding s a r v) :=
  ends_ite (fun _ => ends_next _) fun _ => ends_ite (fun hring => ⟨_, if_pos (by omega)⟩) fun _ => ends_next _

theorem ends_writeRas (s : Chip) (a : Nat) (r : RegRow) (v : Nat) : Ends (writeRas s a r v) :=
  ends_ite (fun _ => ends_next _) fun _ => ends_ite (fun _ => ends_next _) fun _ => ends_ite (fun _ => ends_next _) fun _ =>
    ends_ite (fun _ => ends_next _) fun _ => ends_next _

theorem ends_writeTrace (s : Chip) (a : Nat) (r : RegRow) (v : Nat) (whole : Bool) : Ends (writeTrace s a r v whole) := by
  have hwatch : bitsOf v 9 0 < 1024 := bitsOf_lt v 9 0
  exact ends_ite (fun _ => ends_ite (fun _ => ends_next _) fun _ => ends_next _) fun _ => ends_ite (fun _ => ends_next _) fun _ =>
    ends_ite (fun _ => ends_ite (fun _ => ends_next _) fun _ => ends_ite (fun _ => ⟨_, if_pos hwatch⟩) fun _ =>
      ends_ite (fun _ => ⟨_, if_pos hwatch⟩) fun _ => ends_next _) fun _ => ends_ite (fun _ => ends_next _) fun _ =>
        ends_ite (fun _ => ends_next _) fun _ => ends_ite (fun _ => ends_next _) fun _ =>
          ends_ite (fun _ => ends_ite (fun _ => ends_next _) fun _ => ends_ite (fun _ => ends_next _) fun _ =>
            ends_ite (fun _ => ends_next _) fun _ => ends_next _) fun _ => ends_ite (fun _ => ends_next _) fun _ =>
              ends_ite (fun _ => ends_next _) fun _ => ends_next _

theorem ends_writeSecurity (s : Chip) (a : Nat) (r : RegRow) (v : Nat) : Ends (writeSecurity s a r v) :=
  ends_ite (fun _ => ends_next _) fun _ => ends_ite (fun _ => ends_next _) fun _ => ends_next _

theorem ends_writeTile (s : Chip) (a : Nat) (r : RegRow) (v : Nat) (whole : Bool) : Ends (writeTile s a r v whole) :=
  ends_ite (fun _ => ends_next _) fun _ => ends_ite (fun _ => ends_next _) fun htile =>
    ends_ite (fun _ => ⟨_, if_pos (by omega)⟩) fun _ => ends_ite (fun _ => ⟨_, if_pos (by omega)⟩) fun _ => ends_next _

theorem ends_regWrite (s : Chip) {fn : Nat} (hfn : fn < 64) (a : Nat) (r : RegRow) (v : Nat) (whole : Bool) :
    Ends (regWrite s fn a r v whole) := by
  unfold regWrite
  dsimp only
  split
  · exact ends_next _
  · exact ends_ite (fun _ => ends_next _) fun _ => ends_ite (fun h => ends_writeHearth s a r v h) fun _ =>
      ends_ite (fun _ => ends_writeStrike s a r v whole) fun _ => ends_ite (fun _ => ends_writeBellows s a r v) fun _ =>
        ends_ite (fun _ => ends_writeQueues s hfn a _ r v whole) fun _ => ends_ite (fun _ => ends_writeMemory s a r v) fun _ =>
          ends_ite (fun _ => ends_writeFabric s a r v) fun _ => ends_ite (fun _ => ends_writeFronthaul s a r v) fun _ =>
            ends_ite (fun _ => ends_writeCoding s a r v) fun _ => ends_ite (fun _ => ends_writeRas s a r v) fun _ =>
              ends_ite (fun _ => ends_writeTrace s a r v whole) fun _ => ends_ite (fun _ => ends_writeSecurity s a r v) fun _ =>
                ends_writeTile s a r v whole

/-- A write of BAR0 by a function that the part has ends in a next state, whatever its address and size (R24). -/
theorem ends_barWrite (s : Chip) {fn : Nat} (hfn : fn < 64) (addr size : Nat) (data : Word) :
    Ends (barWrite s fn addr size data) := by
  unfold barWrite
  dsimp only
  split
  case h_1 => exact ends_next _
  case h_2 =>
    refine ends_ite (fun _ => ends_regWrite _ hfn _ _ _ _) fun _ => ends_ite (fun _ => ends_next _) fun _ => ?_
    split
    case h_1 => exact ends_regWrite _ hfn _ _ _ _
    case h_2 => exact ends_regWrite _ hfn _ _ _ _

-- The commands (log 8).

/-- A well-formed mesh link is a link of the part (R42). -/
theorem linkOf_ne_none {n : Nat} (h : meshLinkOk n = true) : linkOf n ≠ .none := by
  intro hnone
  unfold meshLinkOk at h
  unfold linkOf tileX tileY at hnone
  dsimp only at hnone
  split_ifs at h hnone <;> grind

theorem ends_meshFlitResend {link : Nat} (h : meshLinkOk link = true) (again : Bool) (s : Chip) :
    Ends (cmdMeshFlitResend link again s) := by
  unfold cmdMeshFlitResend
  split
  case h_1 hnone => exact absurd hnone (linkOf_ne_none h)
  case h_2 => exact ends_next _

/-- A Tongs instruction on a site that the part has answers a next state (R194; log 8). -/
theorem completes_slot {c : Instr} {site : Site} (hsite : siteOf c = some site) (hw : wellFormed c = true) (s : State) :
    completes c s :=
  completes_of_ends (exec_of_siteOf hsite s) ⟨_, if_pos (site_inRange hsite hw)⟩

/-- The other commands: each names its units, which are units of the part. -/
theorem completes_unit {c : Instr} (hsite : siteOf c = none) (h : wellFormed c = true) (s : State) : completes c s := by
  cases c
  case registerReadSideEffect | governorFrame | tileZero | tileZeroComplete | tileFence | tileLogicFault |
      strandReset | tileHalt | strandEnable | tileSramDataRead | tileSramDataWrite | tileGovWrite |
      fetchLineArrival | xldComplete | mvtComplete | pcombComplete | amergeComplete | afinalComplete |
      mmPassComplete | mewComplete | bmvComplete | kstComplete | kldComplete | fullerOpComplete | dtapComplete |
      stapComplete | channelFence | caParityError | memRead | memWrite | memCorrectionWriteBack | patrolScrub |
      softPpr | refresh | swageQuery | swageAppend | swagePageInit | swageContextStart | swageFence | swageEnable |
      append | writeContext | readContext | rewrite | resume | skip | abort | pin | unpin | qmDoorbell |
      engineAbort | engineEnable | engineFailure | codingHalfFailure | frameReceived | ingressSectionWritten |
      egressFrameStart | policerWrite | queueSample | portEnable | portLinkDown | portLinkUp | timeBaseStep |
      timeBaseFreqWrite | timeTriggerArm | timeTriggerFire | timeOutPulseEnd | timeInEdge | captureRead |
      partCreate | partDestroy | partAdd | partMove | partMap | partLoad | partStart | partStop | partFreeze |
      freezeComplete | freezeTimeout | partSave | saveComplete | partRestore | partThaw | partFlip | partCancel |
      grantWrite | grantClearComplete | bellowsHoldRelease | bwDepthWrite | helloAck | vacated | linkEnable |
      linkRetrain | linkUp | linkTrainTimeout | fabricFrameReceived | fibreFail | fabricLinkDown | linkmapWrite |
      wardRefusalReceived | jobImageLoad | jobFence | jobHoldClear | wardWrite | wardActivation |
      versionRecordArrival | reducerRecordArrival | reductionTimeout | gatewayFlushTimeout | fabricTimeExchange |
      revoke | ideIntegrityFailure | temperSchedule | temperTestComplete | domainPowerUpComplete | regulatorFault |
      closeTimeRead | watchWrite | watchFlush | ptpMessageTransmit | opticalCalibrationComplete =>
    exact completes_of_ends rfl ⟨_, if_pos (by simp [wellFormed, inTile, inTenant] at h; omega)⟩
  case bufferSwap | waitSatisfied | waitTimeout | asyncFaultTaken | parityError =>
    exact completes_of_ends rfl ⟨_, if_pos (by simpa [wellFormed, inTile] using h)⟩
  case eccWriteBack | scrubLine =>
    exact completes_of_ends rfl ⟨_, if_pos (by simpa [wellFormed, inTile] using h)⟩
  case swageDescriptorsArrive | swagePageComplete | swageRecordWrite | swageAppendCommit | swagePageInitCommit =>
    exact completes_of_ends rfl ⟨_, if_pos (by simpa [wellFormed] using h)⟩
  case hello | resizeReq | resizeReply | budget | freezeNotice | teardown =>
    exact completes_of_ends rfl ⟨_, if_pos (by simpa [wellFormed, inTenant, Nat.succ_le_iff] using h)⟩
  case ack | nak => exact completes_of_ends rfl (ends_haspReply h _ _ _ _)
  case vendorMessage | haspPop => exact completes_of_ends rfl (ends_onSide h _ _)
  case registerWrite =>
    have hfn := of_decide_eq_true h
    exact completes_of_ends rfl (ends_ite (fun _ => ends_barWrite _ hfn _ _ _) fun hno => absurd hfn hno)
  case meshFlitResend => exact completes_of_ends rfl (ends_meshFlitResend h _ _)
  case portPromotion tile bank order =>
    simp [wellFormed, inTile] at h
    exact completes_of_ends rfl (ends_ite (fun _ => by omega) fun _ => ⟨_, if_pos (by omega)⟩)
  case paneArrival | codingBlockComplete | codeRingWrite | egressLateDiscard | egressRingWrite | tbSecRead | bwSlotWrite |
      wavelengthFail | fatalError =>
    exact completes_of_ends rfl ⟨_, if_pos (by simpa [wellFormed, inTile] using h)⟩
  case shaperWrite fabric port queue isB data =>
    exact completes_of_ends rfl (ends_shaperWrite (by simpa [wellFormed] using h) isB data _)
  case memTrain => exact completes_of_ends rfl (ends_memTrain _)
  case channelTrainingComplete => exact completes_of_ends rfl (ends_ite (fun _ => ends_next _) fun _ => ends_next _)
  case vfFlr fn =>
    simp [wellFormed] at h
    exact completes_of_ends rfl (ends_ite (fun _ => by omega) fun _ => ends_next _)
  case sendArrival | sendAckArrival | sendRefused | memMapWrite | hdmDecoderCommit | hostHdmAccess | qmEnable |
      qmTableReady | qmStopAll | descriptorStart | dmaReadReturn | readBackReturn | completionRecordWrite |
      cqModerationTimeout | contextLost | hostReadTimeout | strikeBoundary | phaseStart | phaseDeadline | planLoad |
      planProofComplete | planReproofComplete | tierReq | strikeEnable | unmute | shaperTick | timeSnapshot |
      syncTimeout | holdoverExpiry | synceReferenceLost | bcycleWrite | epochBump | drainMarkerReturn |
      fabricRequestArrival | fabricAckArrival | fabricReplayTimeout | fabricOpTimeout | hotLineUpdate |
      multicastDetach | pwrgoodAssert | pwrgoodDeassert | perstAssert | perstDeassert | cxlHotReset |
      cxlLinkDownTimeout | pfFlr | romSelftestComplete | watchdogExpiry | imageLoadGo | imageVerify | svnCommit |
      getVersion | getIdentity | getMeasurements | extend | sessionStart | sessionFinish | keyProg | keyGo |
      keyStop | biasFlip | biasFlipComplete | entdaa | setEndpointId | mctpControl | pldmRequest | healthRecompute |
      pwrDomainWrite | powerSample | throttleRelease | throttleExhausted | pwrLimitWrite | thermalSample |
      undervoltage | overvoltage | pwrbrakeAssert | pwrbrakeDeassert | tapInstruction | counterClose |
      tapPieceArrival | twHeadWrite | traceEntry | arm | trigger | drain | traceDrainComplete | trMark |
      snapshotRequest | snapshotComplete | cxlLinkTrained | traceSramWrite =>
    exact ⟨_, rfl⟩
  all_goals exact absurd hsite (by simp [siteOf])

-- The obligations on the queue of commands (log 1, log 8).

/-- Settles O1: by the definition of a step. -/
theorem stepRunsFrontCommand : Obligations.StepRunsFrontCommand := fun _ _ _ => rfl

/-- Settles O3: a command runs on the chip, beside the queue. -/
theorem commandsKeepTheQueue : Obligations.CommandsKeepTheQueue := by
  intro c s t h
  rcases exec_onChip c with hnext | ⟨f, hf⟩
  · obtain ⟨d, hd⟩ := hnext s
    cases hd.symm.trans h
    rfl
  · exact onChip_pending ((hf s).symm.trans h)

/-- Settles O4: the units of a well-formed command are units of the part. -/
theorem wellFormedCommandsComplete : Obligations.WellFormedCommandsComplete := by
  intro c s h
  cases hsite : siteOf c with
  | none => exact completes_unit hsite h s
  | some site => exact completes_slot hsite h s

/-- A step on a queue of well-formed commands answers a next state, whose queue is the rest of it. -/
theorem step_queueOk {s : State} (h : queueOk s) : ∃ t, step s = .next t ∧ t.pending = s.pending.tail := by
  unfold step
  cases hq : s.pending with
  | nil => exact ⟨_, rfl, rfl⟩
  | cons c r =>
    have hc : wellFormed c = true := h c (hq ▸ List.mem_cons_self)
    obtain ⟨t, ht⟩ := wellFormedCommandsComplete c (withPending s r) hc
    exact ⟨t, ht, commandsKeepTheQueue c _ t ht⟩

/-- A queue without its front is still one of well-formed commands. -/
theorem queueOk_of_tail {s t : State} (h : queueOk s) (ht : t.pending = s.pending.tail) : queueOk t :=
  fun c hc => h c (List.mem_of_mem_tail (ht ▸ hc))

/-- Settles O5: the front command completes, and what it leaves is the queue's rest. -/
theorem stepKeepsQueueOk : Obligations.StepKeepsQueueOk := by
  constructor
  · intro s h
    obtain ⟨t, ht, _⟩ := step_queueOk h
    exact ⟨t, ht⟩
  · intro s t h ht
    obtain ⟨u, hu, htail⟩ := step_queueOk h
    cases hu.symm.trans ht
    exact queueOk_of_tail h htail

/-- A run takes a step and runs on. -/
theorem run_succ {M : Host.Core} {s u : M.State} (h : M.step s = .next u) (n : Nat) : M.run (n + 1) s = M.run n u := by
  rw [Host.Core.run, h]

/-- A queue of well-formed commands runs out: each step takes the front command from it. -/
theorem queueRunsOut : Clauses.QueueRunsOut := by
  suffices h : ∀ n s, queueOk s → s.pending.length = n → ∃ t, Host.Core.run Sys2Proof.core n s = .next t ∧ t.pending = [] from
    fun s hs => h _ s hs rfl
  intro n
  induction n with
  | zero => exact fun s _ hn => ⟨s, rfl, List.length_eq_zero_iff.1 hn⟩
  | succ n ih =>
    intro s hs hn
    obtain ⟨u, hu, htail⟩ := step_queueOk hs
    obtain ⟨t, ht, hempty⟩ := ih u (queueOk_of_tail hs htail) (by rw [htail, List.length_tail, hn, Nat.add_sub_cancel])
    exact ⟨t, (run_succ (M := Sys2Proof.core) hu n).trans ht, hempty⟩

/-- Settles O6: the queue at reset is empty, and every step of a queue of well-formed commands takes one from it. -/
theorem queueIsOkAtResetAndRunsOut : Obligations.QueueIsOkAtResetAndRunsOut :=
  ⟨⟨fun _ h => absurd h List.not_mem_nil, rfl⟩, queueRunsOut⟩

-- An idle step (R182, R491; log 1).

/-- Changes of the time bases change nothing else. -/
theorem forEach_tbSet_frame {α : Type} (l : List α) (b : α → Nat) (v : Chip → α → Nat) (s : Chip) :
    ∃ tb, forEach l (fun st x => tbSet st (b x) (v st x)) s = { s with time := { s.time with tb := tb } } := by
  induction l generalizing s with
  | nil => exact ⟨s.time.tb, rfl⟩
  | cons x l ih =>
    obtain ⟨tb, h⟩ := ih (tbSet s (b x) (v s x))
    exact ⟨tb, h⟩

/-- The servo's slewing draws a free value at most. -/
theorem slew_frame (s : Chip) (k : Nat) : ∃ n, (slew s k).2 = { s with freeCtr := n } := by
  unfold slew
  split
  · exact ⟨_, rfl⟩
  · exact ⟨s.freeCtr, rfl⟩

theorem fabSlew_frame (s : Chip) (k : Nat) : ∃ n, (fabSlew s k).2 = { s with freeCtr := n } := by
  unfold fabSlew
  split
  · exact ⟨_, rfl⟩
  · exact ⟨s.freeCtr, rfl⟩

/-- A tile cycle moves the count of cycles, the bases and the free values. -/
theorem tick_frame (s : Chip) :
    ∃ n tb, tick s = { s with cycle := s.cycle + 1, freeCtr := n, time := { s.time with tb := tb } } := by
  obtain ⟨m, hslew⟩ := slew_frame s (stepsIn s.cycle)
  obtain ⟨n, hfab⟩ := fabSlew_frame (slew s (stepsIn s.cycle)).2 (stepsIn s.cycle)
  unfold tick
  dsimp only
  obtain ⟨tb, h⟩ := forEach_tbSet_frame (List.range 4) id
    (fun st i => ((tbGet st i : Int) + tbGain st i (stepsIn s.cycle) +
      [(slew s (stepsIn s.cycle)).1, (fabSlew (slew s (stepsIn s.cycle)).2 (stepsIn s.cycle)).1, 0, 0].getD i 0).toNat)
    { (fabSlew (slew s (stepsIn s.cycle)).2 (stepsIn s.cycle)).2 with cycle := s.cycle + 1 }
  exact ⟨n, tb, h.trans (by rw [hfab, hslew])⟩

/-- Settles O2: an idle step is a tile cycle. -/
theorem idleStepIsOneTileCycle : Obligations.IdleStepIsOneTileCycle := by
  intro s hs
  obtain ⟨n, tb, htick⟩ := tick_frame s.chip
  refine ⟨{ s with chip := tick s.chip }, ?_, hs, ?_⟩
  · rw [step, hs]
  · simp [htick]

end Sys2Proof.Proofs
end

section
/-! SUPPORT. A bundle of one slot as it issues: the strand goes on from the slot's effect, and an effect on the strand
alone leaves everything else as it was. Scalar and predicate results, control, waits and counters (O7 to O10, O12). -/

namespace Sys2Proof.Proofs

open Sys2Proof.Machine

-- What a strand's progress changes.

/-- Nothing but one strand differs. -/
def onlyStrand (t i : Nat) (s u : Chip) : Prop :=
  u = { s with strands := u.strands } ∧
    ∀ k, k ≠ skey t i → tget (fun _ => ({} : Strand)) u.strands k = tget (fun _ => ({} : Strand)) s.strands k

theorem onlyStrand_refl (t i : Nat) (s : Chip) : onlyStrand t i s s := ⟨rfl, fun _ _ => rfl⟩

theorem onlyStrand_trans {t i : Nat} {s u v : Chip} (h : onlyStrand t i s u) (g : onlyStrand t i u v) :
    onlyStrand t i s v := by
  obtain ⟨hu, hk⟩ := h
  obtain ⟨gv, gk⟩ := g
  exact ⟨by rw [gv, hu], fun k n => (gk k n).trans (hk k n)⟩

theorem onlyStrand_setStrand (s : Chip) (t i : Nat) (x : Strand) : onlyStrand t i s (setStrand s t i x) :=
  ⟨rfl, fun k n => by simp [tget_tset_other _ n]⟩

theorem onlyStrand_modStrand (s : Chip) (t i : Nat) (f : Strand → Strand) : onlyStrand t i s (modStrand s t i f) :=
  onlyStrand_setStrand s t i _

/-- The other strands of the tile are as they were. -/
theorem getStrand_of_onlyStrand {t i : Nat} {s u : Chip} (h : onlyStrand t i s u) (hi : i < 8) {j : Nat} (hj : j < 8)
    (n : j ≠ i) : getStrand u t j = getStrand s t j :=
  h.2 _ (fun e => n ((skey_inj hj hi).1 e).2)

theorem getTile_of_onlyStrand {t i : Nat} {s u : Chip} (h : onlyStrand t i s u) (k : Nat) : getTile u k = getTile s k := by
  rw [h.1]; rfl

theorem brought_onlyStrand (s : Chip) (site : Site) (c : Instr) :
    onlyStrand site.tile site.strand s (brought s site c) := onlyStrand_modStrand ..

/-- The strand that takes the bundle of one slot holds that slot alone. -/
theorem getStrand_brought (s : Chip) (site : Site) (c : Instr)
    (h : (getStrand s site.tile site.strand).slots = []) :
    getStrand (brought s site c) site.tile site.strand = { getStrand s site.tile site.strand with slots := [c] } := by
  unfold brought stage
  simp [h]

theorem advance_slots (ctl : Ctl) (y : Strand) (l : List Instr) :
    advance ctl { y with slots := l } = advance ctl y := by cases ctl <;> rfl

@[simp] theorem advance_wait (ctl : Ctl) (y : Strand) : (advance ctl y).wait = none := by cases ctl <;> rfl

-- The strand goes on (R194, R154).

@[simp] theorem getStrand_freeLoopCache (s : Chip) (t i t' j : Nat) :
    getStrand (freeLoopCache s t i) t' j = getStrand s t' j := rfl

/-- The two ways to go on: with the loop cache as it was, or given up. -/
theorem retire_cases (s : Chip) (t i : Nat) (ctl : Ctl) :
    retire s t i ctl = setStrand s t i (advance ctl (getStrand s t i)) ∨
      retire s t i ctl = freeLoopCache (setStrand s t i (advance ctl (getStrand s t i))) t i :=
  (ite_eq_or_eq _ _ _).symm

@[simp] theorem getStrand_retire_same (s : Chip) (t i : Nat) (ctl : Ctl) :
    getStrand (retire s t i ctl) t i = advance ctl (getStrand s t i) := by
  rcases retire_cases s t i ctl with e | e <;> simp [e]

@[simp] theorem retire_strands (s : Chip) (t i : Nat) (ctl : Ctl) :
    (retire s t i ctl).strands = tset (fun _ => {}) (skey t i) (advance ctl (getStrand s t i)) s.strands := by
  rcases retire_cases s t i ctl with e | e <;> rw [e] <;> rfl

theorem retire_eq (s : Chip) (t i : Nat) (ctl : Ctl) :
    retire s t i ctl = { s with strands := (retire s t i ctl).strands, tiles := (retire s t i ctl).tiles } := by
  rcases retire_cases s t i ctl with e | e <;> rw [e] <;> rfl

theorem getTile_freeLoopCache_same (s : Chip) (t i : Nat) :
    getTile (freeLoopCache s t i) t = { getTile s t with lcOwner := (getTile (freeLoopCache s t i) t).lcOwner } := by
  unfold freeLoopCache
  rw [getTile_modTile_same]
  split <;> rfl

theorem getTile_modTile_other (s : Chip) {t k : Nat} (n : k ≠ t) (f : Tile → Tile) :
    getTile (modTile s t f) k = getTile s k := by
  unfold modTile
  rw [getTile_setTile, if_neg n]

theorem getTile_retire_same (s : Chip) (t i : Nat) (ctl : Ctl) :
    getTile (retire s t i ctl) t = { getTile s t with lcOwner := (getTile (retire s t i ctl) t).lcOwner } := by
  rcases retire_cases s t i ctl with e | e <;> rw [e]
  · rfl
  · exact getTile_freeLoopCache_same _ t i

theorem getTile_retire_other (s : Chip) {t k : Nat} (i : Nat) (ctl : Ctl) (n : k ≠ t) :
    getTile (retire s t i ctl) k = getTile s k := by
  rcases retire_cases s t i ctl with e | e <;> rw [e]
  · rfl
  · exact getTile_modTile_other _ n _

theorem retire_strandOnly {s u : Chip} {site : Site} (p : List Instr) (h : onlyStrand site.tile site.strand s u)
    (ctl : Ctl) : strandOnly [] site.tile site.strand ⟨p, s⟩ ⟨p, retire u site.tile site.strand ctl⟩ := by
  obtain ⟨hu, hk⟩ := h
  have hb : (retire u site.tile site.strand ctl).bar = s.bar := by rw [retire_eq, hu]
  have ht : ∀ k, getTile u k = getTile s k := fun k => by rw [hu]; rfl
  refine ⟨?_, fun k _ => ?_, fun k n => ?_, fun k n => ?_, ?_⟩
  · have := retire_eq u site.tile site.strand ctl
    congr 1
    rw [this, hu]
  · simp only [barGet, hb]
  · simp only [retire_strands, tget_tset_other _ n, hk k n]
  · exact (getTile_retire_other u site.strand ctl n).trans (ht k)
  · have := getTile_retire_same u site.tile site.strand ctl
    rwa [ht] at this

-- A bundle of one slot (R194, R195).

/-- What a strand that may take a bundle has: it waits for nothing, holds no slot, and is one of the part. -/
theorem free_of_issues {s : Chip} {site : Site} {c : Instr} (h : issues s site c = true) :
    siteOf c = some site ∧ site.tile < 144 ∧ site.strand < 8 ∧ cacheQuiet s site.tile = true ∧
      (getStrand s site.tile site.strand).wait = none ∧ (getStrand s site.tile site.strand).slots = [] := by
  simp only [issues, sited, strandFree, Bool.and_eq_true, decide_eq_true_eq, List.isEmpty_iff] at h
  obtain ⟨⟨⟨⟨⟨⟨⟨⟨hs, ht⟩, hi⟩, -⟩, hq⟩, -⟩, ⟨⟨-, hw⟩, hsl⟩⟩, -⟩, -⟩ := h
  exact ⟨hs, ht, hi, hq, hw, hsl⟩

/-- No strand of the tile waits for the loop cache once one strand has moved on, or stopped. -/
theorem retryCache_moved {s u : Chip} {t i : Nat} (hq : cacheQuiet s t = true) (hw : (getStrand u t i).wait = none)
    (hu : ∀ j, j < 8 → j ≠ i → getStrand u t j = getStrand s t j) : retryCache u t = u := by
  apply retryCache_quiet
  unfold cacheQuiet at hq ⊢
  rw [List.all_eq_true] at hq ⊢
  intro j hj
  have hj8 : j < 8 := by simpa using hj
  by_cases e : j = i
  · simp [e, hw]
  · rw [hu j hj8 e]
    exact hq j hj

theorem retryCache_retire {s u : Chip} {t i : Nat} (ctl : Ctl) (hq : cacheQuiet s t = true)
    (hu : ∀ j, j < 8 → j ≠ i → getStrand u t j = getStrand s t j) :
    retryCache (retire u t i ctl) t = retire u t i ctl := by
  refine retryCache_moved (i := i) hq (by simp) fun j hj e => ?_
  rw [← hu j hj e]
  unfold getStrand
  rw [retire_strands, tget_tset_other]
  unfold skey; omega

/-- A strand that holds one slot. -/
def holding (x : Strand) (c : Instr) : Strand := { x with slots := [c] }

/-- What the one slot of a bundle does, with the operands of the strand that brings it. -/
def loneRec (s : Chip) (site : Site) (c : Instr) : SlotRec :=
  slotRec (brought s site c) site.tile site.strand (holding (getStrand s site.tile site.strand) c) c

theorem heldRec_brought {s : Chip} {site : Site} {c : Instr} (h : issues s site c = true) :
    heldRec (brought s site c) site c = loneRec s site c := by
  unfold heldRec loneRec holding
  rw [getStrand_brought _ _ _ (free_of_issues h).2.2.2.2.2]

/-- What holds of a slot that executes: its encoding is legal, no precise fault applies, and nothing makes it wait. -/
theorem sound_of_issues {s : Chip} {site : Site} {c : Instr} (h : issues s site c = true) :
    (loneRec s site c).legal = true ∧ (loneRec s site c).faults = [] ∧
      bundleWait (brought s site c) site.tile [loneRec s site c] = none := by
  have hr := heldRec_brought h
  simp only [issues, slotFree, slotSound, hr, Bool.and_eq_true, List.isEmpty_iff, Option.isNone_iff_eq_none] at h
  obtain ⟨-, ⟨⟨⟨⟨-, hleg⟩, hf⟩, -⟩, -⟩, hw⟩ := h
  exact ⟨hleg, hf, hw⟩

/-- Nothing that the slot itself waits for is missing. -/
theorem noWait_of_issues {s : Chip} {site : Site} {c : Instr} (h : issues s site c = true) :
    (loneRec s site c).wait = none := by
  have hw := (sound_of_issues h).2.2
  unfold bundleWait at hw
  split at hw
  · cases hw
  · revert hw
    cases hl : (loneRec s site c).wait <;> simp [List.findSome?, hl]

/-- A bundle of one slot that issues: the slot's effect `u`, from which the strand goes on. -/
theorem exec_issues {s : State} {site : Site} {c : Instr} (h : issues s.chip site c = true) (u : Chip)
    (hu : (loneRec s.chip site c).eff ((loneRec s.chip site c).start (brought s.chip site c)) = u)
    (hq : ∀ j, j < 8 → j ≠ site.strand → getStrand u site.tile j = getStrand s.chip site.tile j) :
    exec c s = .next { s with chip := retire u site.tile site.strand (loneRec s.chip site c).ctl } := by
  obtain ⟨hs, -, -, hc, -, -⟩ := free_of_issues h
  rw [exec_of_siteOf hs]
  unfold onChip
  rw [issue_lone s.chip site c h, heldRec_brought h, hu, retryCache_retire _ hc hq]

/-- The effect reaches one strand alone, and leaves it as `g` makes it of what it was. -/
def ownEffect (t i : Nat) (g : Strand → Strand) (e : Chip → Chip) : Prop :=
  ∀ s, onlyStrand t i s (e s) ∧ getStrand (e s) t i = g (getStrand s t i)

theorem ownEffect_id (t i : Nat) : ownEffect t i id id := fun s => ⟨onlyStrand_refl t i s, rfl⟩

theorem ownEffect_modStrand (t i : Nat) (g : Strand → Strand) : ownEffect t i g (fun s => modStrand s t i g) :=
  fun s => ⟨onlyStrand_modStrand s t i g, getStrand_modStrand_same s t i g⟩

/-- A bundle whose slot reaches its strand alone: the strand is as the slot leaves it and goes on. -/
theorem exec_own {s : State} {site : Site} {c : Instr} (h : issues s.chip site c = true) {g : Strand → Strand}
    (hstart : (loneRec s.chip site c).start = id)
    (heff : ownEffect site.tile site.strand g (loneRec s.chip site c).eff) :
    ∃ t, exec c s = .next t ∧ strandOnly [] site.tile site.strand s t ∧
      strandOf t site = advance (loneRec s.chip site c).ctl (g { strandOf s site with slots := [c] }) := by
  obtain ⟨-, -, hi, -, -, hsl⟩ := free_of_issues h
  obtain ⟨ho, hg⟩ := heff (brought s.chip site c)
  have hos := onlyStrand_trans (brought_onlyStrand s.chip site c) ho
  refine ⟨_, exec_issues h _ (by rw [hstart]; rfl)
    (fun j hj n => getStrand_of_onlyStrand hos hi hj n), retire_strandOnly s.pending hos _, ?_⟩
  simp only [strandOf, getStrand_retire_same, hg, getStrand_brought _ _ _ hsl]

/-- The effect leaves the slots of the bundle to the strand's progress. -/
def keepsSlots (g : Strand → Strand) : Prop := ∀ x l, ∃ l', g { x with slots := l } = { g x with slots := l' }

/-- A bundle of one slot without control: the strand takes the slot's effect and goes on to the next bundle. -/
theorem exec_took {s : State} {site : Site} {c : Instr} (h : issues s.chip site c = true) (g : Strand → Strand)
    (hstart : (loneRec s.chip site c).start = id) (hctl : (loneRec s.chip site c).ctl = .fall) (hk : keepsSlots g)
    (heff : ownEffect site.tile site.strand g (loneRec s.chip site c).eff) :
    ∃ t, exec c s = .next t ∧ tookAndWent [] site s t (g (strandOf s site)) := by
  obtain ⟨t, he, ho, hx⟩ := exec_own h hstart heff
  obtain ⟨l', hl⟩ := hk (strandOf s site) [c]
  exact ⟨t, he, ho, by rw [hx, hctl, hl, advance_slots]⟩

-- Results of one register (R178, R246).

theorem keepsSlots_id : keepsSlots id := fun _ l => ⟨l, rfl⟩

theorem keepsSlots_wrS (rd v : Nat) (pz : Bool) : keepsSlots (fun x => wrS x rd v pz) := fun x l => by
  unfold wrS; split <;> exact ⟨l, rfl⟩

theorem keepsSlots_wrP (pd : Nat) (b pz : Bool) : keepsSlots (fun x => wrP x pd b pz) := fun x l => by
  unfold wrP; split <;> exact ⟨l, rfl⟩

theorem keepsSlots_tookS (rd v : Nat) (pz : Bool) : keepsSlots (fun x => tookS x rd v pz) := fun x l => by
  unfold tookS wrS; split <;> exact ⟨l, rfl⟩

theorem keepsSlots_tookP (pd : Nat) (b pz : Bool) : keepsSlots (fun x => tookP x pd b pz) := fun x l => by
  unfold tookP wrP; split <;> exact ⟨l, rfl⟩

theorem onlyStrand_raiseFlags (s : Chip) (t i fl : Nat) : onlyStrand t i s (raiseFlags s t i fl) :=
  onlyStrand_modStrand ..

theorem wrS_flags (x : Strand) (i v : Nat) (pz : Bool) : (wrS x i v pz).flags = x.flags := by
  unfold wrS; split <;> rfl

theorem wrP_flags (x : Strand) (i : Nat) (b pz : Bool) : (wrP x i b pz).flags = x.flags := by
  unfold wrP; split <;> rfl

theorem ownEffect_putS (t i rd v : Nat) (pz : Bool) :
    ownEffect t i (fun x => tookS x rd v pz) (putS t i rd v pz) := fun s => by
  refine ⟨onlyStrand_trans (onlyStrand_modStrand ..) (onlyStrand_raiseFlags ..), ?_⟩
  simp only [putS, raiseFlags, getStrand_modStrand_same, tookS, wrS_flags]

theorem ownEffect_putP (t i pd : Nat) (b pz : Bool) :
    ownEffect t i (fun x => tookP x pd b pz) (putP t i pd b pz) := fun s => by
  refine ⟨onlyStrand_trans (onlyStrand_modStrand ..) (onlyStrand_raiseFlags ..), ?_⟩
  simp only [putP, raiseFlags, getStrand_modStrand_same, tookP, wrP_flags]

/-- A slot that writes one s register with a value that it has computed. -/
theorem exec_putS {s : State} {site : Site} {c : Instr} (h : issues s.chip site c = true) {rd v : Nat} {pz : Bool}
    (hstart : (loneRec s.chip site c).start = id) (hctl : (loneRec s.chip site c).ctl = .fall)
    (heff : (loneRec s.chip site c).eff = putS site.tile site.strand rd v pz) :
    ∃ t, exec c s = .next t ∧ tookAndWent [] site s t (tookS (strandOf s site) rd v pz) :=
  exec_took h (fun x => tookS x rd v pz) hstart hctl (keepsSlots_tookS rd v pz) (by rw [heff]; exact ownEffect_putS _ _ _ _ _)

/-- A slot that writes one predicate. -/
theorem exec_putP {s : State} {site : Site} {c : Instr} (h : issues s.chip site c = true) {pd : Nat} {b pz : Bool}
    (hstart : (loneRec s.chip site c).start = id) (hctl : (loneRec s.chip site c).ctl = .fall)
    (heff : (loneRec s.chip site c).eff = putP site.tile site.strand pd b pz) :
    ∃ t, exec c s = .next t ∧ tookAndWent [] site s t (tookP (strandOf s site) pd b pz) :=
  exec_took h (fun x => tookP x pd b pz) hstart hctl (keepsSlots_tookP pd b pz) (by rw [heff]; exact ownEffect_putP _ _ _ _ _)

/-- The marks of two sources, as a slot gathers them from their list. -/
theorem any_marks_two (x : Strand) (a b : Nat) : [a, b].any (rdSm x) = (rdSm x a || rdSm x b) := by simp

theorem any_marks_one (x : Strand) (a : Nat) : [a].any (rdSm x) = rdSm x a := by simp

theorem any_marks_three (x : Strand) (a b c : Nat) : [a, b, c].any (rdSm x) = (rdSm x a || rdSm x b || rdSm x c) := by
  simp [Bool.or_assoc]

end Sys2Proof.Proofs
end

section
/-! SUPPORT. Scalar operations, scalar and predicate results (O7, O8). -/

namespace Sys2Proof.Proofs

open Sys2Proof.Machine

-- Two's complement (R246).

/-- A 64-bit word read as a signed number, by its top bit. -/
theorem signed_64 {x : Nat} (h : x < 2 ^ 64) :
    signed 64 x = if x < 2 ^ 63 then (x : Int) else (x : Int) - 2 ^ 64 := by
  unfold signed
  rw [Nat.mod_eq_of_lt h]
  rfl

theorem signed_64_bounds {x : Nat} (h : x < 2 ^ 64) : -2 ^ 63 ≤ signed 64 x ∧ signed 64 x < 2 ^ 63 := by
  rw [signed_64 h]
  split <;> constructor <;> omega

/-- A signed number within 64 bits is what its word is read as. -/
theorem signed_u64 {i : Int} (hlo : -2 ^ 63 ≤ i) (hhi : i < 2 ^ 63) : signed 64 (u64 i) = i := by
  have hu : u64 i < 2 ^ 64 := by unfold u64 wrap; omega
  rw [signed_64 hu]
  unfold u64 wrap at *
  split <;> omega

/-- Shifting a signed number to the right keeps it within its bounds. -/
theorem ediv_bounds {i : Int} (hlo : -2 ^ 63 ≤ i) (hhi : i < 2 ^ 63) (k : Nat) :
    -2 ^ 63 ≤ i / ((2 ^ k : Nat) : Int) ∧ i / ((2 ^ k : Nat) : Int) < 2 ^ 63 := by
  have hk : (1 : Int) ≤ ((2 ^ k : Nat) : Int) := by exact_mod_cast Nat.one_le_two_pow
  constructor
  · rw [Int.le_ediv_iff_mul_le (by omega)]
    nlinarith
  · rw [Int.ediv_lt_iff_lt_mul (by omega)]
    nlinarith

/-- The high half of a product of two signed words is within 64 bits. -/
theorem mul_high_bounds {a b : Int} (ha : -2 ^ 63 ≤ a ∧ a < 2 ^ 63) (hb : -2 ^ 63 ≤ b ∧ b < 2 ^ 63) :
    -2 ^ 63 ≤ a * b / 2 ^ 64 ∧ a * b / 2 ^ 64 < 2 ^ 63 := by
  have hab : |a * b| ≤ 2 ^ 63 * 2 ^ 63 := by
    rw [abs_mul]
    exact mul_le_mul (abs_le.2 ⟨ha.1, ha.2.le⟩) (abs_le.2 ⟨hb.1, hb.2.le⟩) (abs_nonneg b) (by norm_num)
  obtain ⟨h1, h2⟩ := abs_le.1 hab
  constructor
  · rw [Int.le_ediv_iff_mul_le (by norm_num)]; omega
  · rw [Int.ediv_lt_iff_lt_mul (by norm_num)]; omega

/-- Subtraction, by the cases of fn: the kernel is not to weigh `2 ^ 64` one by one. -/
theorem scalarOp_sub {fn : Nat} (h : fn = 1) (a b : Nat) : scalarOp fn a b = (a + 2 ^ 64 - b) % 2 ^ 64 := by
  unfold scalarOp
  split
  case h_2 => rfl
  all_goals simp_all

/-- Settles O8: each operation of R246 as the model computes it, by the bounds of the signed readings. -/
theorem scalarOperations : Obligations.ScalarOperations := by
  intro a b ha hb
  have hsa := signed_64_bounds ha
  have hsb := signed_64_bounds hb
  refine ⟨rfl, ?_, rfl, rfl, rfl, ?_, ?_, ?_, rfl, ?_, rfl, ?_, ?_, rfl, rfl⟩
  · have hsub := scalarOp_sub rfl a b
    omega
  · change a <<< (b % 64) % 2 ^ 64 = _
    rw [Nat.shiftLeft_eq]
  · exact Nat.shiftRight_eq_div_pow ..
  · obtain ⟨hlo, hhi⟩ := ediv_bounds hsa.1 hsa.2 (b % 64)
    change signed 64 (u64 (signed 64 a / ((2 ^ (b % 64) : Nat) : Int))) = _
    rw [signed_u64 hlo hhi]
    norm_cast
  · obtain ⟨hlo, hhi⟩ := mul_high_bounds hsa hsb
    change signed 64 (u64 (signed 64 a * signed 64 b / ((2 ^ 64 : Nat) : Int))) = _
    rw [show ((2 ^ 64 : Nat) : Int) = 2 ^ 64 by norm_num]
    exact signed_u64 hlo hhi
  · change signed 64 (if signed 64 a ≤ signed 64 b then a else b) = _
    rw [apply_ite (signed 64), min_def]
  · change signed 64 (if signed 64 a ≤ signed 64 b then b else a) = _
    rw [apply_ite (signed 64), max_def]

-- Scalar and predicate results.

/-- A slot whose result is marked where one of its sources is. -/
theorem exec_scalar {s : State} {site : Site} {c : Instr} (h : issues s.chip site c = true) {rd v : Nat} {pz : Bool}
    (srcs : List Nat) (hm : srcs.any (rdSm (strandOf s site)) = pz)
    (hstart : (loneRec s.chip site c).start = id) (hctl : (loneRec s.chip site c).ctl = .fall)
    (heff : (loneRec s.chip site c).eff = putS site.tile site.strand rd v (srcs.any (rdSm (strandOf s site)))) :
    ∃ t, exec c s = .next t ∧ tookAndWent [] site s t (tookS (strandOf s site) rd v pz) :=
  exec_putS h hstart hctl (hm ▸ heff)

theorem scalarResults : Clauses.ScalarResults := by
  intro s site x
  refine ⟨fun f h => ?_, fun f h => ?_, fun f h => ?_, fun f h => ?_, fun f h => ?_, fun op f h => ?_,
    fun op f h => ?_, fun f h => ?_, fun f h => ?_, fun f h => ?_⟩
  case refine_1 | refine_2 | refine_4 | refine_5 =>
    exact exec_scalar h [f.ra, f.rb] (any_marks_two x f.ra f.rb) rfl rfl rfl
  case refine_3 =>
    have hfn : 8 = f.fn := by
      have hleg := (sound_of_issues h).1
      simp only [loneRec, slotRec, recScalarMul, aluSlot, scalarSlot, slotOf, Bool.and_eq_true, decide_eq_true_eq] at hleg
      exact Nat.le_antisymm hleg.2.1 hleg.2.2
    have hv : scalarOp f.fn (rdS x f.ra) (rdS x f.rb) = rdS x f.ra * rdS x f.rb % 2 ^ 64 := by rw [← hfn]; rfl
    rw [← hv]
    exact exec_scalar h [f.ra, f.rb] (any_marks_two x f.ra f.rb) rfl rfl rfl
  case refine_6 | refine_7 => exact exec_scalar h [f.ra] (any_marks_one x f.ra) rfl rfl rfl
  case refine_8 => exact exec_putS h rfl rfl rfl
  case refine_9 => exact exec_scalar h [f.rd] (any_marks_one x f.rd) rfl rfl rfl
  case refine_10 => exact exec_putS h rfl rfl rfl

theorem predicateResults : Clauses.PredicateResults := by
  intro s site x
  exact ⟨fun f h => exec_putP h rfl rfl rfl, fun f h => exec_putP h rfl rfl rfl, fun op f h => exec_putP h rfl rfl rfl⟩

/-- Settles O7: the slot writes its one register with the value of R246, and its strand goes on. -/
theorem scalarAndPredicateResults : Obligations.ScalarAndPredicateResults := ⟨scalarResults, predicateResults⟩

end Sys2Proof.Proofs
end

section
/-! SUPPORT. Control flow, waits, counters and special registers (O9, O10). -/

namespace Sys2Proof.Proofs

open Sys2Proof.Machine

/-- A strand that holds no slot and waits for nothing. -/
theorem strand_idle {x : Strand} (hs : x.slots = []) (hw : x.wait = none) : { x with slots := [], wait := none } = x := by
  rw [← hs, ← hw]

/-- Where a bundle's control takes a strand, with the fields that stand. -/
theorem advance_idle (ctl : Ctl) {x : Strand} (hs : x.slots = []) (hw : x.wait = none) :
    advance ctl x = match ctl with
      | .fall => { x with timedOut := false, pc := (fallFrom x.pc x.loops).1, loops := (fallFrom x.pc x.loops).2 }
      | .jump a => { x with timedOut := false, pc := a, loops := jumpTo a x.loops }
      | .enter l => { x with timedOut := false, pc := x.pc + 1, loops := l :: x.loops }
      | .skip len => { x with timedOut := false, pc := (fallFrom (x.pc + len) x.loops).1
                              loops := (fallFrom (x.pc + len) x.loops).2 }
      | .halt => { x with timedOut := false, halted := true }
      | .rfe => { x with timedOut := false, pc := x.fpc.toNat, loops := jumpTo x.fpc.toNat x.loops, handler := false } := by
  cases ctl <;> simp only [advance, hs, hw]

/-- A bundle whose one slot only moves the strand. -/
theorem exec_moves {s : State} {site : Site} {c : Instr} (h : issues s.chip site c = true)
    (hstart : (loneRec s.chip site c).start = id) (heff : (loneRec s.chip site c).eff = id) :
    ∃ t, exec c s = .next t ∧ strandOnly [] site.tile site.strand s t ∧
      strandOf t site = advance (loneRec s.chip site c).ctl (strandOf s site) := by
  obtain ⟨t, he, ho, hx⟩ := exec_own h hstart (g := id) (by rw [heff]; exact ownEffect_id _ _)
  exact ⟨t, he, ho, by rw [hx, id, advance_slots]⟩

theorem mem_faultIf (c : Bool) (code addr : Nat) : faultIf c code addr = [] ↔ c = false := by
  cases c <;> simp [faultIf]

/-- A jump that does not fault goes to an index of the banks (R199). -/
theorem target_of_jump {a : Int} {r : SlotRec} (h : (jumpSlot a r).faults = []) : (a.toNat : Int) = a := by
  simp only [jumpSlot, List.append_eq_nil_iff, mem_faultIf, Bool.or_eq_false_iff, decide_eq_false_iff_not] at h
  omega

theorem jr_rec {x : Strand} {site : Site} {f : FmtR3} (h : (recJr x site f).faults = []) :
    recJr x site f = jumpSlot (rdS x f.ra) (checkS x f.ra (slotOf x site [0] (f.rd == 0 && f.rb == 0 && f.fn == 0))) := by
  unfold recJr at h ⊢
  cases hm : rdSm x f.ra with
  | true => simp [hm, checkS, faultIf] at h
  | false => simp

theorem callClause {s : State} {site : Site} {off : Nat} (h : issues s.chip site (.call site off) = true) :
    ∃ t, exec (.call site off) s = .next t ∧ strandOnly [] site.tile site.strand s t ∧
      ((strandOf t site).pc : Int) = (strandOf s site).pc + signed 21 off ∧
      strandOf t site = { wrS (strandOf s site) 31 ((strandOf s site).pc + 1) false with
        pc := (strandOf t site).pc, loops := jumpTo (strandOf t site).pc (strandOf s site).loops, timedOut := false } := by
  obtain ⟨-, -, -, -, hw, hsl⟩ := free_of_issues h
  obtain ⟨t, he, ho, hx⟩ := exec_own h rfl (g := fun y => wrS y 31 ((strandOf s site).pc + 1) false)
    (ownEffect_modStrand _ _ _)
  have hpc := target_of_jump (sound_of_issues h).2.1
  have hx' : strandOf t site = advance (.jump (target (strandOf s site) off).toNat)
      (wrS (strandOf s site) 31 ((strandOf s site).pc + 1) false) := hx
  refine ⟨t, he, ho, by rw [hx']; exact hpc, ?_⟩
  rw [hx', advance_idle _ (x := wrS (strandOf s site) 31 ((strandOf s site).pc + 1) false) hsl hw]
  rfl

/-- The strand owns its tile's loop cache (R201). -/
def takesCache (s : Chip) (site : Site) : Chip :=
  modTile s site.tile (fun y => { y with lcOwner := some site.strand })

/-- A strand that enters a cached loop keeps the loop cache. -/
theorem retire_enter (s : Chip) (t i a len n : Nat) :
    retire s t i (.enter ⟨a, len, n, true, true⟩) = setStrand s t i (advance (.enter ⟨a, len, n, true, true⟩) (getStrand s t i)) := by
  unfold retire
  exact if_neg (by simp [advance])

theorem loopcClause {s : State} {site : Site} {ra len : Nat} (h : issues s.chip site (.loopc site ra len) = true)
    (hn : rdS (strandOf s site) ra % 2 ^ 16 ≠ 0) :
    ∃ t, exec (.loopc site ra len) s = .next t ∧ strandOnly [] site.tile site.strand s t ∧
      (getTile t.chip site.tile).lcOwner = some site.strand ∧
      strandOf t site = { strandOf s site with
        pc := (strandOf s site).pc + 1, timedOut := false
        loops := ⟨(strandOf s site).pc + 1, len, rdS (strandOf s site) ra % 2 ^ 16, true, true⟩ :: (strandOf s site).loops } := by
  obtain ⟨-, -, hi, -, hw, hsl⟩ := free_of_issues h
  have hen : (rdS (strandOf s site) ra % 2 ^ 16 != 0) = true := by simpa using hn
  have hctl : (loneRec s.chip site (.loopc site ra len)).ctl =
      .enter ⟨(strandOf s site).pc + 1, len, rdS (strandOf s site) ra % 2 ^ 16, true, true⟩ :=
    if_neg (fun e => hn (eq_of_beq e))
  have hx : getStrand (takesCache (brought s.chip site (.loopc site ra len)) site) site.tile site.strand =
      holding (strandOf s site) (.loopc site ra len) := getStrand_brought _ _ _ hsl
  have he := exec_issues h (takesCache (brought s.chip site (.loopc site ra len)) site) (if_pos hen)
    (fun j hj n => getStrand_of_onlyStrand (brought_onlyStrand ..) hi hj n)
  rw [hctl, retire_enter] at he
  refine ⟨_, he, ⟨rfl, fun _ _ => rfl, fun k n => ?_, fun k n => ?_, ?_⟩, ?_, ?_⟩
  · simp only [setStrand_strands, tget_tset_other _ n]
    exact (brought_onlyStrand ..).2 k n
  · rw [getTile_setStrand, takesCache, getTile_modTile_other _ n]
    rfl
  · simp [takesCache, brought]
  · simp [takesCache]
  · simp only [strandOf, getStrand_setStrand_same, hx]
    exact advance_idle (.enter _) hsl hw

/-- Settles O9: the slot's control is what moves the strand; a jump that faults does not issue. -/
theorem controlFlow : Obligations.ControlFlow := by
  intro s site x
  refine ⟨fun h => exec_took h id rfl rfl keepsSlots_id (ownEffect_id _ _),
    fun h => exec_took h id rfl rfl keepsSlots_id (ownEffect_id _ _), fun off h => ?_, fun off h => callClause h,
    fun f h => ?_, fun ra len h => ?_, fun ra len h hn => loopcClause h hn, fun h => ?_, fun h => ?_⟩
  all_goals obtain ⟨-, -, -, -, hw, hsl⟩ := free_of_issues h
  · obtain ⟨t, he, ho, hx⟩ := exec_moves h rfl rfl
    have hpc := target_of_jump (sound_of_issues h).2.1
    have hx' := hx.trans (advance_idle (.jump (target x off).toNat) hsl hw)
    exact ⟨t, he, ho, by rw [hx']; exact hpc, by rw [hx']⟩
  · have hjr := jr_rec (sound_of_issues h).2.1
    have hrec : loneRec s.chip site (.jr site f) = _ := hjr
    obtain ⟨t, he, ho, hx⟩ := exec_moves h (by rw [hrec]; rfl) (by rw [hrec]; rfl)
    rw [hrec] at hx
    exact ⟨t, he, ho, hx.trans (advance_idle (.jump (rdS x f.ra)) hsl hw)⟩
  · obtain ⟨t, he, ho, hx⟩ := exec_moves h rfl rfl
    refine ⟨t, he, ho, hx.trans ?_⟩
    have hctl : (loneRec s.chip site (.loop site ra len)).ctl = if rdS x ra % 2 ^ 16 = 0 then .skip len
        else .enter ⟨x.pc + 1, len, rdS x ra % 2 ^ 16, false, true⟩ := by
      change (if (rdS x ra % 2 ^ 16 == 0) = true then _ else _) = _
      simp only [beq_iff_eq]
      rfl
    rw [hctl]
    split
    · rfl
    · exact advance_idle (.enter _) hsl hw
  · obtain ⟨t, he, ho, hx⟩ := exec_moves h rfl rfl
    exact ⟨t, he, ho, hx.trans (advance_idle .halt hsl hw)⟩
  · obtain ⟨t, he, ho, hx⟩ := exec_moves h rfl rfl
    exact ⟨t, he, ho, hx.trans (advance_idle .rfe hsl hw)⟩

end Sys2Proof.Proofs
end

section
/-! SUPPORT. Effects on a strand and its tile; waits, arrival counters and special registers (O10). -/

namespace Sys2Proof.Proofs

open Sys2Proof.Machine

-- Effects on a strand, its tile and registers.

/-- Nothing but one strand, its tile, the counters and the registers at the keys listed differ. -/
def onlyHome (ks : List Nat) (t i : Nat) (s u : Chip) : Prop :=
  u = { s with bar := u.bar, strands := u.strands, tiles := u.tiles, ctrLive := u.ctrLive } ∧
    (∀ k, k ∉ ks → barGet u k = barGet s k) ∧
    (∀ k, k ≠ skey t i → tget (fun _ => ({} : Strand)) u.strands k = tget (fun _ => ({} : Strand)) s.strands k) ∧
    ∀ k, k ≠ t → getTile u k = getTile s k

theorem onlyHome_refl (ks : List Nat) (t i : Nat) (s : Chip) : onlyHome ks t i s s :=
  ⟨rfl, fun _ _ => rfl, fun _ _ => rfl, fun _ _ => rfl⟩

theorem onlyHome_trans {ks : List Nat} {t i : Nat} {s u v : Chip} (h : onlyHome ks t i s u) (g : onlyHome ks t i u v) :
    onlyHome ks t i s v := by
  obtain ⟨hu, hb, hs, ht⟩ := h
  obtain ⟨gv, gb, gs, gt⟩ := g
  exact ⟨by rw [gv, hu], fun k n => (gb k n).trans (hb k n), fun k n => (gs k n).trans (hs k n),
    fun k n => (gt k n).trans (ht k n)⟩

theorem onlyHome_of_onlyStrand {ks : List Nat} {t i : Nat} {s u : Chip} (h : onlyStrand t i s u) :
    onlyHome ks t i s u := by
  obtain ⟨hu, hs⟩ := h
  exact ⟨by rw [hu], fun k _ => by rw [hu]; rfl, hs, fun k _ => by rw [hu]; rfl⟩

theorem onlyHome_setTile (ks : List Nat) (t i : Nat) (s : Chip) (x : Tile) : onlyHome ks t i s (setTile s t x) :=
  ⟨rfl, fun _ _ => rfl, fun _ _ => rfl, fun k n => by rw [getTile_setTile, if_neg n]⟩

theorem onlyHome_modTile (ks : List Nat) (t i : Nat) (s : Chip) (f : Tile → Tile) : onlyHome ks t i s (modTile s t f) :=
  onlyHome_setTile ks t i s _

theorem onlyHome_ctrAdd (ks : List Nat) (t i : Nat) (s : Chip) (p j n : Nat) : onlyHome ks t i s (ctrAdd s p j n) :=
  ⟨rfl, fun _ _ => rfl, fun _ _ => rfl, fun _ _ => rfl⟩

theorem onlyHome_retire (ks : List Nat) (t i : Nat) (s : Chip) (ctl : Ctl) : onlyHome ks t i s (retire s t i ctl) := by
  refine ⟨?_, fun k _ => ?_, fun k n => ?_, fun k n => getTile_retire_other s i ctl n⟩
  · have := retire_eq s t i ctl
    rw [this]
  · have := retire_eq s t i ctl
    rw [this]; rfl
  · simp only [retire_strands, tget_tset_other _ n]

theorem homeOnly_of_onlyHome {ks : List Nat} {t i : Nat} {s : State} {u : Chip} (h : onlyHome ks t i s.chip u) :
    homeOnly ks t i s { s with chip := u } := by
  obtain ⟨hu, hb, hs, ht⟩ := h
  exact ⟨by rw [hu], hb, hs, ht⟩

theorem getStrand_of_onlyHome {ks : List Nat} {t i : Nat} {s u : Chip} (h : onlyHome ks t i s u) (hi : i < 8) {j : Nat}
    (hj : j < 8) (n : j ≠ i) : getStrand u t j = getStrand s t j :=
  h.2.2.1 _ (fun e => n ((skey_inj hj hi).1 e).2)

/-- A bundle of one slot whose effect stays at home: the strand goes on from what the effect leaves. -/
theorem exec_home {ks : List Nat} {s : State} {site : Site} {c : Instr} (h : issues s.chip site c = true)
    (hstart : (loneRec s.chip site c).start = id) (e : Chip → Chip) (heff : (loneRec s.chip site c).eff = e)
    (ho : onlyHome ks site.tile site.strand (brought s.chip site c) (e (brought s.chip site c))) :
    exec c s = .next { s with chip := retire (e (brought s.chip site c)) site.tile site.strand (loneRec s.chip site c).ctl } ∧
      homeOnly ks site.tile site.strand s
        { s with chip := retire (e (brought s.chip site c)) site.tile site.strand (loneRec s.chip site c).ctl } := by
  obtain ⟨-, -, hi, -, -, hsl⟩ := free_of_issues h
  have hos := onlyHome_trans (onlyHome_of_onlyStrand (brought_onlyStrand s.chip site c)) ho
  exact ⟨exec_issues h _ (by rw [hstart, heff]; rfl) (fun j hj n => getStrand_of_onlyHome hos hi hj n),
    homeOnly_of_onlyHome (onlyHome_trans hos (onlyHome_retire ks _ _ _ _))⟩

/-- The strand after a bundle that leaves the strand's own fields alone. -/
theorem strandOf_retire_brought {s : State} {site : Site} {c : Instr} (h : issues s.chip site c = true) {u : Chip}
    (hu : getStrand u site.tile site.strand = getStrand (brought s.chip site c) site.tile site.strand) (ctl : Ctl) :
    strandOf { s with chip := retire u site.tile site.strand ctl } site = advance ctl (strandOf s site) := by
  obtain ⟨-, -, -, -, -, hsl⟩ := free_of_issues h
  simp only [strandOf, getStrand_retire_same, hu, getStrand_brought _ _ _ hsl, advance_slots]

-- Arrival counters (R208 to R213).

theorem acGet_retire (s : Chip) (t i n : Nat) (ctl : Ctl) : acGet (retire s t i ctl) t n = acGet s t n := by
  unfold acGet
  rw [getTile_retire_same]

theorem acGet_acSet_same (s : Chip) (t n : Nat) (v : Int) : acGet (acSet s t n v) t n = v := by
  simp [acGet, acSet]

theorem acGet_acSet_other (s : Chip) (t : Nat) {n m : Nat} (v : Int) (h : m ≠ n) :
    acGet (acSet s t n v) t m = acGet s t m := by
  simp [acGet, acSet, tget_tset_other _ h]

/-- A counter of the strand's own tile that the slot writes with a value that it has computed. -/
theorem exec_acSet {s : State} {site : Site} {c : Instr} (h : issues s.chip site c = true) (n : Nat) (v : Int)
    (hstart : (loneRec s.chip site c).start = id) (hctl : (loneRec s.chip site c).ctl = .fall)
    (heff : (loneRec s.chip site c).eff (brought s.chip site c) = acSet (brought s.chip site c) site.tile n v) :
    ∃ t, exec c s = .next t ∧ homeOnly [] site.tile site.strand s t ∧ strandOf t site = advance .fall (strandOf s site) ∧
      acGet t.chip site.tile n = v ∧ ∀ m, m ≠ n → acGet t.chip site.tile m = acGet s.chip site.tile m := by
  obtain ⟨he, ho⟩ := exec_home (ks := []) h hstart (loneRec s.chip site c).eff rfl
    (by rw [heff]; exact onlyHome_modTile ..)
  rw [heff, hctl] at he ho
  refine ⟨_, he, ho, strandOf_retire_brought h (getStrand_modTile ..) _, ?_, fun m hm => ?_⟩
  · rw [acGet_retire, acGet_acSet_same]
  · rw [acGet_retire, acGet_acSet_other _ _ _ hm]
    rfl

-- Special registers and fences (R182, R578).

/-- A special register reads the same from the strand with its slot brought. -/
theorem specialReg_brought {s : Chip} {site : Site} {c : Instr} (h : issues s site c = true) (n : Nat) :
    specialReg (brought s site c) site.tile site.strand n = specialReg s site.tile site.strand n := by
  unfold specialReg
  rw [getStrand_brought _ _ _ (free_of_issues h).2.2.2.2.2]
  rfl

theorem keepsSlots_writeSpecial (n v : Nat) : keepsSlots (fun x => writeSpecial x n v) := fun x l => by
  unfold writeSpecial
  split_ifs <;> exact ⟨l, rfl⟩

/-- The rank that a fence names: every rank, or one (R578). -/
def fenceRank (x : Strand) (f : FmtW) : Nat := if f.fn == 1 then min (rdS x f.ra) 0xFFFE else 0xFFFF

/-- A fence with nothing open finds no gathered store of its strand, and only ends the granules (R589). -/
theorem fenceStart_closed {s : Chip} {o : FOwner} {rank : Nat} (h : fenceOpen s o rank = false) :
    fenceStart s o rank =
      { s with fab := { s.fab with granules := s.fab.granules.filter (fun g => !(g.owner == o)) } } := by
  have hg : s.fab.gathers.filter (fun g => g.owner == o && (rank == 0xFFFF || g.rank == rank)) = [] := by
    simp only [fenceOpen, Bool.or_eq_false_iff, List.any_eq_false] at h
    obtain ⟨⟨-, hg⟩, -⟩ := h
    exact List.filter_eq_nil_iff.2 hg
  unfold fenceStart
  rw [hg]
  rfl

/-- The ranks that a fence's predicate looks at are all other ranks than its own. -/
theorem fenceFail_all (x : Strand) (f : FmtW) :
    x.fenceFail.all (fun k => fenceRank x f != 0xFFFF && k != fenceRank x f) =
      x.fenceFail.all (fun k => f.fn == 1 && k != min (rdS x f.ra) 0xFFFE) := by
  congr 1
  funext k
  unfold fenceRank
  cases hf : f.fn == 1 with
  | false => simp
  | true =>
    have : min (rdS x f.ra) 0xFFFE ≠ 0xFFFF := by omega
    simp [this]

theorem wfence_start (s : Chip) (site : Site) (f : FmtW) :
    (loneRec s site (.wfence site f)).start = fun u =>
      fenceStart u (strandOwner s site.tile site.strand) (fenceRank (getStrand s site.tile site.strand) f) := rfl

theorem wfence_ctl (s : Chip) (site : Site) (f : FmtW) : (loneRec s site (.wfence site f)).ctl = .fall := by
  unfold loneRec slotRec recWfence
  simp only
  split <;> rfl

theorem wfenceClause {s : State} {site : Site} {f : FmtW} (h : issues s.chip site (.wfence site f) = true) :
    ∃ t, exec (.wfence site f) s = .next t ∧ tookAndWent [] site { s with chip := dropGranules s.chip site } t
      (wrP (strandOf s site) f.pd
        ((strandOf s site).fenceFail.all (fun k => f.fn == 1 && k != min (rdS (strandOf s site) f.ra) 0xFFFE)) false) := by
  obtain ⟨-, -, hi, -, -, hsl⟩ := free_of_issues h
  have hopen : fenceOpen s.chip (strandOwner s.chip site.tile site.strand) (fenceRank (strandOf s site) f) = false := by
    have hw := noWait_of_issues h
    change (if fenceOpen s.chip _ (fenceRank (strandOf s site) f) = true then some (⟨.fence, 0⟩ : Wait) else none) = none at hw
    exact Bool.eq_false_iff.2 (fun e => by cases ite_eq_right_iff.1 hw e)
  have hb : (loneRec s.chip site (.wfence site f)).start (brought s.chip site (.wfence site f)) =
      brought (dropGranules s.chip site) site (.wfence site f) := by
    rw [wfence_start]
    exact fenceStart_closed hopen
  have heff : ownEffect site.tile site.strand (fun y => wrP y f.pd
      (y.fenceFail.all (fun k => fenceRank (strandOf s site) f != 0xFFFF && k != fenceRank (strandOf s site) f)) false)
      (loneRec s.chip site (.wfence site f)).eff := ownEffect_modStrand _ _ _
  obtain ⟨ho, hg⟩ := heff (brought (dropGranules s.chip site) site (.wfence site f))
  have hos := onlyStrand_trans (brought_onlyStrand (dropGranules s.chip site) site (.wfence site f)) ho
  refine ⟨_, exec_issues h _ (by rw [hb]) (fun j hj n => getStrand_of_onlyStrand hos hi hj n),
    retire_strandOnly s.pending hos _, ?_⟩
  have hx := getStrand_brought (dropGranules s.chip site) site (.wfence site f) hsl
  obtain ⟨l, hl⟩ := keepsSlots_wrP f.pd
    ((strandOf s site).fenceFail.all (fun k => fenceRank (strandOf s site) f != 0xFFFF && k != fenceRank (strandOf s site) f))
    false (strandOf s site) [.wfence site f]
  rw [← fenceFail_all, ← advance_slots .fall (wrP _ _ _ _) l]
  simp only [strandOf, getStrand_retire_same, hg, hx, wfence_ctl]
  exact congrArg (advance .fall) hl

/-- Settles O10: each slot's effect is a write of its strand or of one counter of its tile; a fence with nothing open
ends the strand's granules first. -/
theorem countersAndSpecials : Obligations.CountersAndSpecials := by
  intro s site x
  refine ⟨fun f h => exec_took h id rfl rfl keepsSlots_id (ownEffect_id _ _), fun f h => ?_, fun f h => ?_, fun f h => ?_,
    fun f h => ?_, fun f h => ?_, fun f h => ?_, fun f h => wfenceClause h⟩
  · have hpair : pairOk f.ra = true := by
      by_contra hp
      have hf := (sound_of_issues h).2.1
      simp [loneRec, slotRec, recWaitT, hp] at hf
    have hrec : loneRec s.chip site (.waitT site f) = _ := if_pos hpair
    exact exec_took h (fun y => wrP y f.pd (decide (acGet s.chip site.tile f.n ≤ signed 32 (rdS x f.ra))) false)
      (by rw [hrec]; rfl) (by rw [hrec]; rfl) (keepsSlots_wrP _ _ _) (by rw [hrec]; exact ownEffect_modStrand _ _ _)
  · exact exec_acSet h f.n (clampAc (acGet s.chip site.tile f.n + signed 32 (rdS x f.ra))) rfl rfl rfl
  · exact exec_acSet h f.n (signed 32 (rdS x f.ra)) rfl rfl rfl
  · have hv : (loneRec s.chip site (.mfsr site f)).eff = fun st => modStrand st site.tile site.strand
        (fun y => wrS y f.rd ((specialReg s.chip site.tile site.strand f.imm).getD 0) false) := by
      rw [← specialReg_brought h]; rfl
    exact exec_took h (fun y => wrS y f.rd _ false) rfl rfl (keepsSlots_wrS _ _ _) (hv ▸ ownEffect_modStrand _ _ _)
  · exact exec_took h (fun y => writeSpecial y f.imm (rdS x f.ra)) rfl rfl (keepsSlots_writeSpecial _ _)
      (ownEffect_modStrand _ _ _)
  · exact exec_took h (fun y => wrP y f.pd _ false) rfl rfl (keepsSlots_wrP _ _ _) (ownEffect_modStrand _ _ _)

end Sys2Proof.Proofs
end

section
/-! SUPPORT. The Hearth's messages change mailboxes and interrupts alone; an illegal encoding faults (O12). -/

namespace Sys2Proof.Proofs

open Sys2Proof.Machine

-- Registers.

/-- Nothing but registers at the keys listed differ. -/
def onlyBar (ks : List Nat) (s u : Chip) : Prop :=
  u = { s with bar := u.bar } ∧ ∀ k, k ∉ ks → barGet u k = barGet s k

theorem onlyBar_refl (ks : List Nat) (s : Chip) : onlyBar ks s s := ⟨rfl, fun _ _ => rfl⟩

theorem onlyBar_trans {ks : List Nat} {s u v : Chip} (h : onlyBar ks s u) (g : onlyBar ks u v) : onlyBar ks s v := by
  obtain ⟨hu, hb⟩ := h
  obtain ⟨gv, gb⟩ := g
  exact ⟨by rw [gv, hu], fun k n => (gb k n).trans (hb k n)⟩

theorem onlyBar_barSet {ks : List Nat} (s : Chip) {k : Nat} (v : Nat) (h : k ∈ ks) : onlyBar ks s (barSet s k v) :=
  ⟨rfl, fun _ n => barGet_barSet_other s _ (fun e => n (e ▸ h))⟩

theorem onlyBar_fset {ks : List Nat} (s : Chip) {k : Nat} (hi lo v : Nat) (h : k ∈ ks) : onlyBar ks s (fset s k hi lo v) :=
  onlyBar_barSet s _ h

theorem onlyBar_fsetb {ks : List Nat} (s : Chip) {k : Nat} (i : Nat) (b : Bool) (h : k ∈ ks) :
    onlyBar ks s (fsetb s k i b) := onlyBar_fset s _ _ _ h

theorem onlyBar_fsat {ks : List Nat} (s : Chip) {k : Nat} (hi lo n : Nat) (h : k ∈ ks) : onlyBar ks s (fsat s k hi lo n) :=
  onlyBar_fset s _ _ _ h

theorem onlyBar_ite {ks : List Nat} {c : Prop} [Decidable c] {s u v : Chip} (h : onlyBar ks s u) (g : onlyBar ks s v) :
    onlyBar ks s (if c then u else v) := by
  split
  · exact h
  · exact g

theorem strands_of_onlyBar {ks : List Nat} {s u : Chip} (h : onlyBar ks s u) : u.strands = s.strands := by rw [h.1]

theorem tiles_of_onlyBar {ks : List Nat} {s u : Chip} (h : onlyBar ks s u) : u.tiles = s.tiles := by rw [h.1]

theorem onlyHome_of_onlyBar {ks : List Nat} (t i : Nat) {s u : Chip} (h : onlyBar ks s u) : onlyHome ks t i s u := by
  obtain ⟨hu, hb⟩ := h
  exact ⟨by rw [hu], hb, fun _ _ => by rw [hu], fun _ _ => by rw [hu]; rfl⟩

theorem strandOnly_of_onlyHome {ks : List Nat} {t i : Nat} {s : State} {u : Chip} (h : onlyHome ks t i s.chip u)
    (hc : u.ctrLive = s.chip.ctrLive)
    (ht : getTile u t = { getTile s.chip t with lcOwner := (getTile u t).lcOwner }) :
    strandOnly ks t i s { s with chip := u } := by
  obtain ⟨hu, hb, hs, hk⟩ := h
  rw [hc] at hu
  exact ⟨by rw [hu], hb, hs, hk, ht⟩

-- Messages of the Hearth (R547 to R550).

/-- Nothing but the mailboxes and the interrupts differ. -/
def onlyHasp (s u : Chip) : Prop := u = { s with hasp := u.hasp, irqs := u.irqs }

theorem onlyHasp_refl (s : Chip) : onlyHasp s s := rfl

theorem onlyHasp_trans {s u v : Chip} (h : onlyHasp s u) (g : onlyHasp u v) : onlyHasp s v := by
  unfold onlyHasp at *
  rw [g, h]

theorem onlyHasp_setHasp (s : Chip) (f : Nat) (x : Hasp) : onlyHasp s (setHasp s f x) := rfl

theorem onlyHasp_ite {c : Prop} [Decidable c] {s u v : Chip} (h : onlyHasp s u) (g : onlyHasp s v) :
    onlyHasp s (if c then u else v) := by
  split
  · exact h
  · exact g

theorem onlyHasp_haspIrq (s : Chip) (f : Nat) (b : Bool) : onlyHasp s (haspIrq s f b) := by
  simp only [haspIrq]
  split <;> rfl

theorem onlyHasp_haspPush (s : Chip) (f : Nat) (b : Bool) (m : Msg) : onlyHasp s (haspPush s f b m) :=
  onlyHasp_trans (onlyHasp_setHasp _ _ _) (onlyHasp_haspIrq _ _ _)

theorem onlyHasp_haspFlush (f : Nat) (b : Bool) (n : Nat) (s : Chip) : onlyHasp s (haspFlush f b n s) := by
  induction n generalizing s with
  | zero => rfl
  | succ n ih =>
    simp only [haspFlush]
    split
    · rfl
    · exact onlyHasp_ite
        (onlyHasp_trans (onlyHasp_trans (onlyHasp_setHasp _ _ _) (onlyHasp_haspPush _ _ _ _)) (ih _)) (onlyHasp_refl s)

theorem onlyHasp_hearthSend (s : Chip) (f : Nat) (b : Bool) (type status : Nat) (payload : List Byte) :
    onlyHasp s (hearthSend s f b type status payload) :=
  onlyHasp_trans (onlyHasp_setHasp _ _ _) (onlyHasp_haspFlush _ _ _ _)

theorem onlyHasp_toController (s : Chip) (p type status : Nat) (payload : List Byte) :
    onlyHasp s (toController s p type status payload) := onlyHasp_hearthSend _ _ _ _ _ _

theorem barGet_of_onlyHasp {s u : Chip} (h : onlyHasp s u) (k : Nat) : barGet u k = barGet s k := by
  unfold onlyHasp at h; rw [h]; rfl

theorem strands_of_onlyHasp {s u : Chip} (h : onlyHasp s u) : u.strands = s.strands := by
  unfold onlyHasp at h; rw [h]

theorem tiles_of_onlyHasp {s u : Chip} (h : onlyHasp s u) : u.tiles = s.tiles := by
  unfold onlyHasp at h; rw [h]

/-- A fault counted and its code recorded in the partition's status (R553). -/
theorem onlyBar_countedCode (s : Chip) (p code : Nat) :
    onlyBar [aPART_STATUS p] s (partCode (fsat s (aPART_STATUS p) 31 24 1) p code) :=
  onlyBar_trans (onlyBar_fsat s _ _ _ (List.mem_singleton_self _)) (onlyBar_fset _ _ _ _ (List.mem_singleton_self _))

@[simp] theorem faultMsg_strands (s : Chip) (p code lt i fi : Nat) : (faultMsg s p code lt i fi).strands = s.strands := by
  rw [faultMsg, faultSend, strands_of_onlyHasp (onlyHasp_toController _ _ _ _ _)]
  exact strands_of_onlyBar (onlyBar_countedCode s p code)

@[simp] theorem faultMsg_tiles (s : Chip) (p code lt i fi : Nat) : (faultMsg s p code lt i fi).tiles = s.tiles := by
  rw [faultMsg, faultSend, tiles_of_onlyHasp (onlyHasp_toController _ _ _ _ _)]
  exact tiles_of_onlyBar (onlyBar_countedCode s p code)

/-- A fault report changes its partition's status alone of the registers. -/
theorem barGet_faultMsg (s : Chip) (p code lt i fi : Nat) {k : Nat} (h : k ≠ aPART_STATUS p) :
    barGet (faultMsg s p code lt i fi) k = barGet s k := by
  unfold faultMsg faultSend
  rw [barGet_of_onlyHasp (onlyHasp_toController _ _ _ _ _)]
  exact (onlyBar_countedCode s p code).2 k (by simpa using h)

theorem tilePart_lt (s : Chip) (t : Nat) : tilePart s t < 16 := fget_lt s (aTILE_CTL t) 47 44

theorem aTILE_STATUS_ne_aPART_STATUS {p : Nat} (t : Nat) (hp : p < 16) : aTILE_STATUS t ≠ aPART_STATUS p := by
  unfold aTILE_STATUS aPART_STATUS
  omega

-- Faults (R227, R230, R231).

/-- A strand as a fault leaves it before it goes on or stops: its bundle is dropped. -/
def dropped (x : Strand) : Strand := { x with slots := [], wait := none, timedOut := false }

/-- With fmode 1 outside handler state: the strand goes on at fvec (R231). -/
theorem takeFault_handled {s : Chip} {t i : Nat} (code unit slot addr : Nat)
    (hh : (getStrand s t i).handler = false) (hm : (getStrand s t i).fmode = true) :
    takeFault s t i code unit slot addr = setStrand (tileStatus (freeLoopCache s t i) t code) t i
      { dropped (getStrand s t i) with
        fcode := BitVec.ofNat 16 code, finfo := BitVec.ofNat 64 (finfoOf unit slot addr)
        fpc := BitVec.ofNat 18 (getStrand s t i).pc, pc := (getStrand s t i).fvec.toNat, handler := true } := by
  simp only [takeFault, hh, hm, dropped, Bool.not_false, Bool.and_self, if_true, Bool.false_eq_true, if_false]

/-- With fmode 0 outside handler state: the strand is faulted, and the Hearth reports it (R230). -/
theorem takeFault_faulted {s : Chip} {t i : Nat} (code unit slot addr : Nat)
    (hh : (getStrand s t i).handler = false) (hm : (getStrand s t i).fmode = false) :
    ∃ u, (takeFault s t i code unit slot addr = u ∨
        ∃ p lt fi, p < 16 ∧ takeFault s t i code unit slot addr = faultMsg u p 0x4021 lt i fi) ∧
      u = setStrand (tileStatus (freeLoopCache s t i) t code) t i
        { dropped (getStrand s t i) with faulted := some code, fpc := BitVec.ofNat 18 (getStrand s t i).pc } := by
  refine ⟨_, ?_, rfl⟩
  simp only [takeFault, hh, hm, dropped, Bool.false_and, Bool.false_eq_true, if_false]
  by_cases hl : tileHeld s t = true
  · exact .inr ⟨_, _, _, tilePart_lt s t, by rw [if_pos hl]⟩
  · exact .inl (by rw [if_neg hl])

theorem onlyBar_tileStatus (s : Chip) (t code : Nat) : onlyBar [aTILE_STATUS t] s (tileStatus s t code) :=
  onlyBar_fset s _ _ _ (List.mem_singleton_self _)

/-- The register record of a fault's code (R169). -/
theorem fget_tileStatus (s : Chip) (t code : Nat) : fget (tileStatus s t code) (aTILE_STATUS t) 63 48 = code % 2 ^ 16 :=
  fget_fset_same s _ 63 48 code (by omega) (by omega)

/-- A bundle of one illegal slot faults with 0x2090, whatever else is wrong with its predicate (R193, R27). -/
theorem lowestFault_illegal {r : SlotRec} (hl : r.legal = false) (hf : r.faults = []) :
    lowestFault (bundleFaults [r]) = some (0x2090, r.slot, 0) := by
  have hc : clash [r] = none := by simp [clash]
  unfold bundleFaults
  rw [hc]
  have hn : (([r].filter (fun r => r.on && !r.pz)).flatMap (fun r => r.faults.map (fun f => (f.1, r.slot, f.2)))) = [] := by
    rw [List.filter_cons]
    split <;> simp [hf]
  rw [hn]
  cases hp : r.pz <;> simp [hl, hp, lowestFault]

/-- A bundle of one illegal slot, as the strand's try takes it. -/
theorem tryIssue_illegal {s : Chip} {site : Site} {c : Instr} (hp : sited s site c = true)
    (hr : strandReady s site.tile site.strand = true) (hs : (getStrand s site.tile site.strand).slots = [c])
    (hl : (heldRec s site c).legal = false) (hf : (heldRec s site c).faults = []) (hch : (heldRec s site c).checks = []) :
    tryIssue s site.tile site.strand = takeFault s site.tile site.strand 0x2090 0x04 site.slot 0 := by
  simp only [sited, strandReady, Bool.and_eq_true, decide_eq_true_eq, Bool.not_eq_true', List.isEmpty_iff] at hp hr
  obtain ⟨⟨⟨⟨hsite, -⟩, -⟩, hsl⟩, -⟩ := hp
  obtain ⟨⟨⟨⟨⟨hrun, hpend⟩, hhalf⟩, hpc⟩, hfe⟩, hpo⟩ := hr
  have hslot : (heldRec s site c).slot = site.slot := slotRec_slot _ _ _ _ _ _ hsite
  have hrecs : slotRecs s site.tile site.strand = [heldRec s site c] := by
    unfold slotRecs
    simp only [hs]
    exact inOrder_one (heldRec s site c) (by rw [hslot]; exact hsl)
  have hbusy : anyBusy (getStrand s site.tile site.strand)
      (([heldRec s site c].filter (fun r => r.on && !r.pz)).flatMap (·.checks)) = false := by
    rw [List.filter_cons]
    split <;> simp [anyBusy, hch]
  unfold tryIssue
  simp only [hrun, hpend, Bool.not_true, lowestPend, hhalf, hfe, hpo, hrecs, Bool.false_eq_true, if_false,
    if_neg (show ¬ bundleEnd ≤ (getStrand s site.tile site.strand).pc by omega)]
  unfold issue
  simp only [hbusy, Bool.false_eq_true, if_false, lowestFault_illegal hl hf, hslot]

/-- The command that closes a bundle of one slot makes its strand try it, and no other strand of the tile. -/
theorem exec_tries {s : State} {site : Site} {c : Instr} (hp : sited s.chip site c = true) (hl : site.last = true)
    (hf : strandFree s.chip site.tile site.strand = true) (u : Chip)
    (hu : tryIssue (brought s.chip site c) site.tile site.strand = u)
    (hw : (getStrand u site.tile site.strand).wait = none)
    (hk : ∀ k, k ≠ skey site.tile site.strand → tget (fun _ => ({} : Strand)) u.strands k = tget (fun _ => ({} : Strand)) s.chip.strands k) :
    exec c s = .next { s with chip := u } := by
  simp only [sited, strandFree, Bool.and_eq_true, decide_eq_true_eq] at hp hf
  obtain ⟨⟨⟨⟨hsite, ht⟩, hi⟩, hsl⟩, hq⟩ := hp
  obtain ⟨⟨hrun, hwait⟩, -⟩ := hf
  have hretry : retryCache u site.tile = u :=
    retryCache_moved hq hw fun j hj n => hk _ (fun e => n ((skey_inj hj hi).1 e).2)
  rw [exec_of_siteOf hsite]
  unfold onChip slotCommand
  rw [if_pos ⟨ht, hi, hsl⟩]
  simp only [hrun, hwait, beq_self_eq_true, Bool.and_self, hl, if_true]
  change Host.Outcome.next { s with chip := retryCache (tryIssue (brought s.chip site c) site.tile site.strand) site.tile } = _
  rw [hu, hretry]

/-- The parts of the block that a fault's record and its strand's stop leave alone. -/
theorem illegal_frame (s : Chip) (t i : Nat) (x : Strand) (code : Nat) :
    onlyHome [aTILE_STATUS t] t i s (setStrand (tileStatus (freeLoopCache s t i) t code) t i x) := by
  have hc : onlyHome [aTILE_STATUS t] t i s (freeLoopCache s t i) := onlyHome_modTile ..
  exact onlyHome_trans hc (onlyHome_trans (onlyHome_of_onlyBar _ _ (onlyBar_tileStatus ..))
    (onlyHome_of_onlyStrand (onlyStrand_setStrand ..)))

/-- The fault of a strand changes its tile in the owner of the loop cache alone. -/
theorem getTile_illegal (s : Chip) (t i : Nat) (x : Strand) (code : Nat) :
    getTile (setStrand (tileStatus (freeLoopCache s t i) t code) t i x) t =
      { getTile s t with lcOwner := (getTile (freeLoopCache s t i) t).lcOwner } := by
  rw [getTile_setStrand, ← getTile_freeLoopCache_same]
  unfold getTile
  rw [tiles_of_onlyBar (onlyBar_tileStatus (freeLoopCache s t i) t code)]

theorem fget_illegal (s : Chip) (t i : Nat) (x : Strand) {code : Nat} (h : code < 2 ^ 16) :
    fget (setStrand (tileStatus (freeLoopCache s t i) t code) t i x) (aTILE_STATUS t) 63 48 = code := by
  unfold fget
  rw [barGet_setStrand]
  exact (fget_tileStatus _ t code).trans (Nat.mod_eq_of_lt h)

theorem finfoOf_noAddress (unit slot : Nat) : finfoOf unit slot 0 = unit * 2 ^ 40 + slot * 2 ^ 32 := by
  rw [finfoOf, Nat.zero_mod, Nat.add_zero]

/-- Settles O12: the one slot is illegal, so its bundle ends in the fault of R193, which the strand takes by its fmode. -/
theorem illegalEncodingFaults : Obligations.IllegalEncodingFaults := by
  intro s site c x r hp hl hf hr hleg hfau hch hh
  have hfree := hf
  simp only [strandFree, Bool.and_eq_true, decide_eq_true_eq, List.isEmpty_iff] at hfree
  obtain ⟨⟨-, hw⟩, hsl⟩ := hfree
  have hb : getStrand (brought s.chip site c) site.tile site.strand = holding x c := getStrand_brought _ _ _ hsl
  have hready : strandReady (brought s.chip site c) site.tile site.strand = true := by
    unfold strandReady at hr ⊢
    rw [strandRuns_brought, hb]
    exact hr
  have htry := tryIssue_illegal (sited_brought s.chip site c hp) hready (by rw [hb]; rfl) hleg hfau hch
  have hbo := onlyHome_of_onlyStrand (ks := [aTILE_STATUS site.tile]) (brought_onlyStrand s.chip site c)
  constructor
  · intro hm
    rw [takeFault_handled _ _ _ _ (by rw [hb]; exact hh) (by rw [hb]; exact hm), hb,
      finfoOf_noAddress] at htry
    have ho := onlyHome_trans hbo (illegal_frame (brought s.chip site c) site.tile site.strand
      { dropped (holding x c) with
        fcode := 0x2090#16, finfo := BitVec.ofNat 64 (0x04 * 2 ^ 40 + site.slot * 2 ^ 32)
        fpc := BitVec.ofNat 18 x.pc, pc := x.fvec.toNat, handler := true } 0x2090)
    refine ⟨_, exec_tries hp hl hf _ htry (by rw [getStrand_setStrand_same]; rfl) ho.2.2.1, ?_, ?_, ?_⟩
    · refine strandOnly_of_onlyHome ho ?_ ?_
      · rw [setStrand_ctrLive, (onlyBar_tileStatus ..).1]
        rfl
      · rw [getTile_illegal]
        rfl
    · exact fget_illegal _ _ _ _ (by norm_num)
    · simp only [strandOf, getStrand_setStrand_same]
      rfl
  · intro hm
    obtain ⟨u, htake, hu⟩ := takeFault_faulted (s := brought s.chip site c) 0x2090 0x04 site.slot 0 (by rw [hb]; exact hh)
      (by rw [hb]; exact hm)
    rw [hb] at hu
    have ho := onlyHome_trans hbo (hu ▸ illegal_frame (brought s.chip site c) site.tile site.strand
      { dropped (holding x c) with faulted := some 0x2090, fpc := BitVec.ofNat 18 x.pc } 0x2090)
    have hx : getStrand u site.tile site.strand = { dropped x with faulted := some 0x2090, fpc := BitVec.ofNat 18 x.pc } := by
      rw [hu, getStrand_setStrand_same]
      rfl
    have hcode : fget u (aTILE_STATUS site.tile) 63 48 = 0x2090 := by
      rw [hu]
      exact fget_illegal _ _ _ _ (by norm_num)
    have hend : ∃ v, takeFault (brought s.chip site c) site.tile site.strand 0x2090 0x04 site.slot 0 = v ∧
        v.strands = u.strands ∧ barGet v (aTILE_STATUS site.tile) = barGet u (aTILE_STATUS site.tile) := by
      rcases htake with e | ⟨p, lt, fi, hp16, e⟩
      · exact ⟨_, e, rfl, rfl⟩
      · exact ⟨_, e, faultMsg_strands .., barGet_faultMsg _ _ _ _ _ _ (aTILE_STATUS_ne_aPART_STATUS _ hp16)⟩
    obtain ⟨v, hv, hvs, hvb⟩ := hend
    have hvx : getStrand v site.tile site.strand = getStrand u site.tile site.strand := by
      unfold getStrand
      rw [hvs]
    refine ⟨_, exec_tries hp hl hf v (htry.trans hv) (by rw [hvx, hx]; rfl) (fun k n => by rw [hvs]; exact ho.2.2.1 k n),
      ?_, ?_, fun k n => by rw [hvs]; exact ho.2.2.1 k n⟩
    · rw [← hcode]
      unfold fget
      rw [hvb]
    · exact hvx.trans hx

end Sys2Proof.Proofs
end

section
/-! SUPPORT. Queued operations are taken as their slot issues (O16). -/

namespace Sys2Proof.Proofs

open Sys2Proof.Machine

theorem enqueue_eq (t q : Nat) (o : EngOp) (s : Chip) :
    enqueue t q o s = modTile s t (fun y => setQueue y q (queueOf y q ++ [o])) := by
  unfold enqueue
  congr 1
  funext y
  unfold setQueue queueOf
  split_ifs <;> rfl

/-- A slot whose effect is one entry of a queue of its tile, and a write of its own strand. -/
theorem exec_enqueues_and {s : State} {site : Site} {c : Instr} (h : issues s.chip site c = true) (q : Nat) (o : EngOp)
    {g : Strand → Strand} {e : Chip → Chip} (hstart : (loneRec s.chip site c).start = id)
    (hctl : (loneRec s.chip site c).ctl = .fall) (hk : keepsSlots g) (he : ownEffect site.tile site.strand g e)
    (heff : (loneRec s.chip site c).eff = fun st => e (enqueue site.tile q o st)) :
    ∃ t, exec c s = .next t ∧ enqueued q o site s t (g (strandOf s site)) := by
  obtain ⟨-, -, -, -, -, hsl⟩ := free_of_issues h
  obtain ⟨heo, heg⟩ := he (enqueue site.tile q o (brought s.chip site c))
  have htile := heo.1
  have hq : onlyHome [] site.tile site.strand (brought s.chip site c) (enqueue site.tile q o (brought s.chip site c)) := by
    rw [enqueue_eq]
    exact onlyHome_modTile ..
  obtain ⟨hex, ho⟩ := exec_home (ks := []) h hstart _ heff (onlyHome_trans hq (onlyHome_of_onlyStrand heo))
  rw [hctl] at hex ho
  refine ⟨_, hex, ho, ?_, ?_, ?_⟩
  · rw [retire_eq, htile, enqueue_eq]
    rfl
  · have ht := getTile_retire_same (e (enqueue site.tile q o (brought s.chip site c))) site.tile site.strand .fall
    have hqt : getTile (e (enqueue site.tile q o (brought s.chip site c))) site.tile =
        setQueue (getTile s.chip site.tile) q (queueOf (getTile s.chip site.tile) q ++ [o]) := by
      rw [getTile_of_onlyStrand heo, enqueue_eq, getTile_modTile_same]
      rfl
    rwa [hqt] at ht
  · obtain ⟨l, hl⟩ := hk (strandOf s site) [c]
    have hx : getStrand (enqueue site.tile q o (brought s.chip site c)) site.tile site.strand = holding (strandOf s site) c := by
      rw [enqueue_eq]
      exact getStrand_brought _ _ _ hsl
    simp only [strandOf, getStrand_retire_same, heg, hx]
    exact (congrArg (advance .fall) hl).trans (advance_slots _ _ _)

/-- A slot whose effect is one entry of a queue of its tile. -/
theorem exec_enqueues {s : State} {site : Site} {c : Instr} (h : issues s.chip site c = true) (q : Nat) (o : EngOp)
    (hstart : (loneRec s.chip site c).start = id) (hctl : (loneRec s.chip site c).ctl = .fall)
    (heff : (loneRec s.chip site c).eff = enqueue site.tile q o) :
    ∃ t, exec c s = .next t ∧ enqueued q o site s t (strandOf s site) :=
  exec_enqueues_and h q o hstart hctl keepsSlots_id (ownEffect_id _ _) heff

theorem enginesTakeOperations : Clauses.EnginesTakeOperations := by
  intro s site x op three put
  refine ⟨fun f h => ?_, fun f h => ?_, fun f h => ?_, fun f h => ?_, fun f h => ?_, fun f h => ?_, fun f h => ?_,
    fun f h => ?_, fun f h => ?_, fun f h => ?_, fun f h => ?_, fun f h => ?_⟩
  all_goals exact exec_enqueues h _ _ rfl rfl rfl

theorem keepsSlots_busy (r : Nat) (b : Bool) : keepsSlots (fun x => { x with busy := tmark x.busy r b }) :=
  fun _ l => ⟨l, rfl⟩

theorem fullerTakesOperations : Clauses.FullerTakesOperations := by
  intro s site x op own
  refine ⟨fun f h => ?_, fun f h => ?_, fun f h => ?_, fun f h => ?_, fun f h => ?_, fun f h => ?_, fun f h => ?_,
    fun f h => ?_, fun f h => ?_, fun f h => ?_, fun f h => ?_, fun f h => ?_⟩
  case refine_11 =>
    exact exec_enqueues_and h 2 _ rfl rfl (keepsSlots_busy (codeV f.rd) true) (ownEffect_modStrand _ _ _) rfl
  all_goals exact exec_enqueues h _ _ rfl rfl rfl

/-- Settles O16: every queued operation's slot has one effect, its entry in the queue. -/
theorem queuedOperationsAreTaken : Obligations.QueuedOperationsAreTaken := ⟨enginesTakeOperations, fullerTakesOperations⟩

end Sys2Proof.Proofs
end

section
/-! SUPPORT. Vector results and moves between the register files (O15, and the moves of O14). -/

namespace Sys2Proof.Proofs

open Sys2Proof.Machine

-- Packed elements.

theorem packLanes_lt (w : Nat) (l : List Nat) : packLanes w l < 2 ^ (w * l.length) := by
  induction l with
  | nil => simp [packLanes]
  | cons e r ih =>
    have he : e % 2 ^ w < 2 ^ w := Nat.mod_lt _ (Nat.two_pow_pos w)
    simp only [packLanes, List.length_cons]
    calc e % 2 ^ w + 2 ^ w * packLanes w r < 2 ^ w + 2 ^ w * packLanes w r := by omega
      _ = 2 ^ w * (packLanes w r + 1) := by ring
      _ ≤ 2 ^ w * 2 ^ (w * r.length) := Nat.mul_le_mul_left _ ih
      _ = 2 ^ (w * (r.length + 1)) := by rw [← pow_add]; ring_nf

theorem lane_packLanes (w : Nat) (l : List Nat) {j : Nat} (h : j < l.length) :
    lane w (packLanes w l) j = l.getD j 0 % 2 ^ w := by
  induction l generalizing j with
  | nil => simp at h
  | cons e r ih =>
    cases j with
    | zero => simp [lane, packLanes]
    | succ j =>
      have hj : j < r.length := by simpa using h
      have hdiv : packLanes w (e :: r) / 2 ^ w = packLanes w r := by
        rw [packLanes, Nat.add_mul_div_left _ _ (Nat.two_pow_pos w),
          Nat.div_eq_of_lt (Nat.mod_lt _ (Nat.two_pow_pos w)), Nat.zero_add]
      have hpow : 2 ^ (w * (j + 1)) = 2 ^ w * 2 ^ (w * j) := by rw [← pow_add]; ring_nf
      simpa [lane, hpow, ← Nat.div_div_eq_div_mul, hdiv] using ih hj

-- Registers of a strand.

@[simp] theorem rdV_advance (ctl : Ctl) (x : Strand) (i : Nat) : rdV (advance ctl x) i = rdV x i := by cases ctl <;> rfl

@[simp] theorem rdVm_advance (ctl : Ctl) (x : Strand) (i : Nat) : rdVm (advance ctl x) i = rdVm x i := by cases ctl <;> rfl

theorem rdV_lt (x : Strand) (i : Nat) : rdV x i < 2 ^ 2048 := BitVec.isLt _

theorem rdVm_lt (x : Strand) (i : Nat) : rdVm x i < 2 ^ 32 := BitVec.isLt _

theorem rdS_lt (x : Strand) (i : Nat) : rdS x i < 2 ^ 64 := by
  unfold rdS
  split
  · exact Nat.two_pow_pos 64
  · exact BitVec.isLt _

theorem rdV_tookV_same (x : Strand) (rd : Nat) (r : VRes) : rdV (tookV x rd r) rd = r.v % 2 ^ 2048 := by
  simp [rdV, tookV, wrV]

theorem rdVm_tookV_same (x : Strand) (rd : Nat) (r : VRes) : rdVm (tookV x rd r) rd = r.m % 2 ^ 32 := by
  simp [rdVm, tookV, wrV]

theorem rdV_tookV_other (x : Strand) {rd k : Nat} (r : VRes) (n : k ≠ rd) : rdV (tookV x rd r) k = rdV x k := by
  simp [rdV, tookV, wrV, tget_tset_other _ n]

theorem rdVm_tookV_other (x : Strand) {rd k : Nat} (r : VRes) (n : k ≠ rd) : rdVm (tookV x rd r) k = rdVm x k := by
  simp [rdVm, tookV, wrV, tget_tset_other _ n]

theorem pc_advance_tookV (x : Strand) (rd : Nat) (r : VRes) : (advance .fall (tookV x rd r)).pc = (advance .fall x).pc := rfl

theorem keepsSlots_tookV (rd : Nat) (r : VRes) : keepsSlots (fun x => tookV x rd r) := fun _ l => ⟨l, rfl⟩

/-- An elementwise result: each unmarked element is what its operation gives. -/
theorem lanesAre_vecMap (x : Strand) (rd : Nat) {w : Nat} (hw : w ∣ 2048) {m : Nat} (hm : m < 2 ^ 32) (pv : Nat)
    (g : Nat → Nat × Nat) (fl : List Nat) :
    lanesAre (advance .fall (tookV x rd { vecMap w m pv g with fl := fl })) x rd w m (fun j => (g j).1) := by
  refine ⟨?_, fun j hj hmark => ?_, fun k n => ?_⟩
  · rw [rdVm_advance, rdVm_tookV_same]
    exact Nat.mod_eq_of_lt hm
  · have hlt := packLanes_lt w (((List.range (2048 / w)).map (fun j => if laneMark w m j then (pv, flPZ) else g j)).map (·.1))
    rw [List.length_map, List.length_map, List.length_range, Nat.mul_div_cancel' hw] at hlt
    rw [rdV_advance, rdV_tookV_same]
    simp only [vecMap, Nat.mod_eq_of_lt hlt]
    rw [lane_packLanes _ _ (by simpa using hj)]
    simp [hj, hmark]
  · rw [rdV_advance, rdVm_advance]
    exact ⟨rdV_tookV_other x _ n, rdVm_tookV_other x _ n⟩

-- A slot that writes one v register (R118, R183).

theorem onlyBar_noteEvents (s : Chip) (gx sa : Nat) : onlyBar [aARITH_EVENTS] s (noteEvents s gx sa) := by
  unfold noteEvents
  exact onlyBar_ite (onlyBar_refl _ s) (onlyBar_trans (onlyBar_fsat s _ _ _ (List.mem_singleton_self _))
    (onlyBar_fsat _ _ _ _ (List.mem_singleton_self _)))

theorem putV_spec (t i rd : Nat) (r : VRes) (s : Chip) :
    onlyHome [aARITH_EVENTS] t i s (putV t i rd r s) ∧ (putV t i rd r s).ctrLive = s.ctrLive ∧
      (putV t i rd r s).tiles = s.tiles ∧ getStrand (putV t i rd r s) t i = tookV (getStrand s t i) rd r := by
  have hs : onlyStrand t i s (raiseFlags (modStrand s t i (fun y => wrV y rd r.v r.m)) t i (allFlags r.fl)) :=
    onlyStrand_trans (onlyStrand_modStrand ..) (onlyStrand_raiseFlags ..)
  have hb := onlyBar_noteEvents (raiseFlags (modStrand s t i (fun y => wrV y rd r.v r.m)) t i (allFlags r.fl)) 0
    (countFlag flSA r.fl)
  refine ⟨onlyHome_trans (onlyHome_of_onlyStrand hs) (onlyHome_of_onlyBar t i hb), ?_, ?_, ?_⟩
  · rw [putV, hb.1, hs.1]
  · rw [putV, hb.1, hs.1]
  · unfold putV getStrand
    rw [strands_of_onlyBar hb]
    change getStrand (raiseFlags _ t i _) t i = _
    simp only [raiseFlags, getStrand_modStrand_same]
    rfl

/-- A slot whose effect is a write of one v register. -/
theorem exec_putV {s : State} {site : Site} {c : Instr} (h : issues s.chip site c = true) {rd : Nat} {r : VRes}
    (hstart : (loneRec s.chip site c).start = id) (hctl : (loneRec s.chip site c).ctl = .fall)
    (heff : (loneRec s.chip site c).eff = putV site.tile site.strand rd r) :
    ∃ t, exec c s = .next t ∧ tookAndWent [aARITH_EVENTS] site s t (tookV (strandOf s site) rd r) := by
  obtain ⟨-, -, -, -, -, hsl⟩ := free_of_issues h
  obtain ⟨ho, hc, ht, hx⟩ := putV_spec site.tile site.strand rd r (brought s.chip site c)
  obtain ⟨hex, -⟩ := exec_home h hstart _ heff ho
  rw [hctl] at hex
  have hos := onlyHome_trans (onlyHome_of_onlyStrand (brought_onlyStrand s.chip site c))
    (onlyHome_trans ho (onlyHome_retire _ site.tile site.strand _ .fall))
  have htile : getTile (putV site.tile site.strand rd r (brought s.chip site c)) site.tile = getTile s.chip site.tile := by
    unfold getTile
    rw [ht]
    rfl
  refine ⟨_, hex, strandOnly_of_onlyHome hos ?_ ?_, ?_⟩
  · rw [retire_eq, hc]
    rfl
  · have := getTile_retire_same (putV site.tile site.strand rd r (brought s.chip site c)) site.tile site.strand .fall
    rwa [htile] at this
  · simp only [strandOf, getStrand_retire_same, hx, getStrand_brought _ _ _ hsl]
    rfl

/-- A slot whose effect is an elementwise result, with flags of its own. -/
theorem exec_vecMapWith {s : State} {site : Site} {c : Instr} (h : issues s.chip site c = true) {rd w m pv : Nat}
    {g : Nat → Nat × Nat} {fl : List Nat}
    (heff : (loneRec s.chip site c).eff = putV site.tile site.strand rd { vecMap w m pv g with fl := fl })
    (hw : w ∣ 2048) (hm : m < 2 ^ 32)
    (hstart : (loneRec s.chip site c).start = id) (hctl : (loneRec s.chip site c).ctl = .fall) :
    ∃ t, exec c s = .next t ∧ strandOnly [aARITH_EVENTS] site.tile site.strand s t ∧
      lanesAre (strandOf t site) (strandOf s site) rd w m (fun j => (g j).1) ∧
      (strandOf t site).pc = (advance .fall (strandOf s site)).pc := by
  obtain ⟨t, he, ho, hx⟩ := exec_putV h hstart hctl heff
  exact ⟨t, he, ho, by rw [hx]; exact lanesAre_vecMap _ rd hw hm pv g fl, by rw [hx]; rfl⟩

/-- A slot whose effect is an elementwise result. -/
theorem exec_vecMap {s : State} {site : Site} {c : Instr} (h : issues s.chip site c = true) {rd w m pv : Nat}
    {g : Nat → Nat × Nat} (heff : (loneRec s.chip site c).eff = putV site.tile site.strand rd (vecMap w m pv g))
    (hw : w ∣ 2048) (hm : m < 2 ^ 32)
    (hstart : (loneRec s.chip site c).start = id) (hctl : (loneRec s.chip site c).ctl = .fall) :
    ∃ t, exec c s = .next t ∧ strandOnly [aARITH_EVENTS] site.tile site.strand s t ∧
      lanesAre (strandOf t site) (strandOf s site) rd w m (fun j => (g j).1) ∧
      (strandOf t site).pc = (advance .fall (strandOf s site)).pc :=
  exec_vecMapWith (fl := (vecMap w m pv g).fl) h heff hw hm hstart hctl

theorem marks_two_lt (x : Strand) (a b : Nat) : rdVm x a ||| rdVm x b < 2 ^ 32 :=
  Nat.or_lt_two_pow (rdVm_lt x a) (rdVm_lt x b)

theorem marks_three_lt (x : Strand) (a b c : Nat) : rdVm x a ||| rdVm x b ||| rdVm x c < 2 ^ 32 :=
  Nat.or_lt_two_pow (marks_two_lt x a b) (rdVm_lt x c)

end Sys2Proof.Proofs
end

section
/-! SUPPORT. Vector arithmetic, conversions, sums and random numbers (O15); moves between the register files. -/

namespace Sys2Proof.Proofs

open Sys2Proof.Machine

theorem vectorElementwise : Clauses.VectorElementwise := by
  intro s site x A B two three post
  have h32 : 32 ∣ 2048 := by norm_num
  refine ⟨fun op f h => ?_, fun f h => ?_, fun op f h => ?_, fun f h => ?_, fun f h => ?_, fun f h => ?_, fun f h => ?_⟩
  · have hrec : (loneRec s.chip site (.vfadd site op f)).eff = putV site.tile site.strand f.rd
        (vecMap 32 (two f) poisonF32 (fun j => if op = 0x20 then fAdd (lane 32 (A f) j) (lane 32 (B f) j)
          else if op = 0x21 then fSub (lane 32 (A f) j) (lane 32 (B f) j)
          else fMul (lane 32 (A f) j) (lane 32 (B f) j))) := by
      change putV _ _ _ (vecMap _ _ _ (fun j => (if (op == 0x20) = true then fAdd else if (op == 0x21) = true then fSub else fMul) _ _)) = _
      by_cases h0 : op = 0x20
      · subst h0; rfl
      · by_cases h1 : op = 0x21
        · subst h1; rfl
        · simp only [beq_iff_eq, h0, h1, if_false]
          rfl
    exact exec_vecMap h hrec h32 (marks_two_lt ..) rfl rfl
  · exact exec_vecMap h rfl h32 (marks_three_lt ..) rfl rfl
  · exact exec_vecMap h rfl h32 (marks_two_lt ..) rfl rfl
  · exact exec_vecMap h rfl h32 (rdVm_lt ..) rfl rfl
  · exact exec_vecMapWith h (w := 32) (m := two f) (pv := poisonF32) (fl := [])
      (g := fun j => (vfcmpOp f.fn (lane 32 (A f) j) (lane 32 (B f) j), 0)) rfl h32 (marks_two_lt ..) rfl rfl
  · exact exec_vecMap h (w := 64) (m := three f) (pv := 0) (g := fun j =>
      ((lane 64 (rdV x f.rd) j &&& lane 64 (A f) j) ||| ((2 ^ 64 - 1 - lane 64 (rdV x f.rd) j) &&& lane 64 (B f) j), 0))
      rfl (by norm_num) (marks_three_lt ..) rfl rfl
  · have hfn : f.fn < 64 := by
      have hl := (sound_of_issues h).1
      simp only [loneRec, slotRec, recVint, vecSlot, slotOf, Bool.and_eq_true, decide_eq_true_eq] at hl
      exact hl.2
    have hw : 8 * 2 ^ (f.fn / 16) ∣ 2048 := by
      have : f.fn / 16 < 4 := by omega
      interval_cases f.fn / 16 <;> norm_num
    exact exec_vecMap h rfl hw (marks_two_lt ..) rfl rfl

/-- A block without marks is marked nowhere. -/
theorem mxBlock_unmarked (c v k : Nat) : (mxBlock c v 0 k).2.1 = false := by
  have hm : ((List.range 32).map (fun j => 32 * k + j)).any (laneMark 32 0) = false := by
    simp [laneMark]
  unfold mxBlock
  simp [hm]

/-- The two blocks of a `vmxq`, with their marks and flags. -/
def mxPair (c v m : Nat) : VRes :=
  ⟨(mxBlock c v m 0).1 + 2 ^ (8 + 32 * elemBits c) * (mxBlock c v m 1).1,
    Nat.lor (if (mxBlock c v m 0).2.1 then markBits 0 (8 + 32 * elemBits c) else 0)
      (if (mxBlock c v m 1).2.1 then markBits (8 + 32 * elemBits c) (8 + 32 * elemBits c) else 0),
    (mxBlock c v m 0).2.2 ++ (mxBlock c v m 1).2.2⟩

theorem mxPair_unmarked (c v : Nat) : (mxPair c v 0).m % 2 ^ 32 = 0 := by
  simp only [mxPair, mxBlock_unmarked, Bool.false_eq_true, if_false]
  rfl

theorem vectorConversions : Clauses.VectorConversions := by
  intro s site x marked src
  refine ⟨fun f h => exec_putV h rfl rfl rfl, fun f h => exec_putV h rfl rfl rfl, fun f h hm => ?_,
    fun f h => exec_putV h rfl rfl rfl, fun f h hfn ha ha' hb => ?_⟩
  · obtain ⟨t, he, ho, hx⟩ := exec_putV h rfl rfl (show (loneRec s.chip site (.vmxq site f)).eff =
      putV site.tile site.strand f.rd (mxPair f.fn (rdV x f.ra) (rdVm x f.ra)) from rfl)
    rw [hm] at hx
    refine ⟨t, he, ho, ?_, ?_⟩
    · rw [hx, rdVm_advance, rdVm_tookV_same, mxPair_unmarked]
    · rw [hx, rdV_advance, rdV_tookV_same]
      rfl
  · have hrec : (loneRec s.chip site (.vrng site f)).eff = putV site.tile site.strand f.rd (vecMap 64 0 0
        (fun j => (rngNat (rdS x f.ra) (rdS x (f.ra + 1)) ((rdS x f.rb + j) % 2 ^ 64), 0))) := by
      have hpz : (rdSm x f.ra || rdSm x (f.ra + 1) || rdSm x f.rb) = false := by simp [ha, ha', hb]
      change putV _ _ _ (if (f.fn == 0) = true then
        vecMap 64 (if (rdSm x f.ra || rdSm x (f.ra + 1) || rdSm x f.rb) = true then 2 ^ 32 - 1 else 0) 0 _ else _) = _
      rw [hpz, hfn]
      simp only [Bool.false_eq_true, if_false, beq_self_eq_true, if_true]
      congr 2
    obtain ⟨t, he, ho, hl, -⟩ := exec_vecMap h hrec (by norm_num) (by norm_num) rfl rfl
    exact ⟨t, he, ho, hl⟩

/-- Settles O15: each slot writes one v register with the packed results of its lanes. -/
theorem vectorArithmetic : Obligations.VectorArithmetic := ⟨vectorElementwise, vectorConversions⟩

end Sys2Proof.Proofs
end

section
/-! SUPPORT. The bytes of the banks: reads and writes of sound words within a word, and scalar memory (O13). -/

namespace Sys2Proof.Proofs

open Sys2Proof.Machine

-- Bytes and numbers.

@[simp] theorem mread_length (m : Tab Byte) (a n : Nat) : (mread m a n).length = n := by
  induction n generalizing a with
  | zero => rfl
  | succ n ih => simp [mread, ih]

@[simp] theorem leBytes_length (n x : Nat) : (leBytes n x).length = n := by
  induction n generalizing x with
  | zero => rfl
  | succ n ih => simp [leBytes, ih]

theorem leNat_leBytes (n x : Nat) : leNat (leBytes n x) = x % 2 ^ (8 * n) := by
  induction n generalizing x with
  | zero => simp [leBytes, leNat, Nat.mod_one]
  | succ n ih =>
    have hp : 2 ^ (8 * (n + 1)) = 256 * 2 ^ (8 * n) := by rw [show 8 * (n + 1) = 8 + 8 * n by ring, pow_add]; norm_num
    simp only [leBytes, leNat, ih, hp, BitVec.toNat_ofNat]
    exact (Nat.mod_mul ..).symm

theorem leNat_lt (l : List Byte) : leNat l < 2 ^ (8 * l.length) := by
  induction l with
  | nil => simp [leNat]
  | cons b r ih =>
    have hb := b.isLt
    have hp : 2 ^ (8 * (r.length + 1)) = 256 * 2 ^ (8 * r.length) := by
      rw [show 8 * (r.length + 1) = 8 + 8 * r.length by ring, pow_add]; norm_num
    simp only [leNat, List.length_cons, hp]
    omega

theorem leNat_mread_lt (m : Tab Byte) (a n : Nat) : leNat (mread m a n) < 2 ^ (8 * n) := by
  simpa using leNat_lt (mread m a n)

theorem leNat_mread_add (m : Tab Byte) (a k n : Nat) :
    leNat (mread m a (k + n)) = leNat (mread m a k) + 2 ^ (8 * k) * leNat (mread m (a + k) n) := by
  induction k generalizing a with
  | zero => simp [mread, leNat]
  | succ k ih =>
    have hp : 2 ^ (8 * (k + 1)) = 256 * 2 ^ (8 * k) := by rw [show 8 * (k + 1) = 8 + 8 * k by ring, pow_add]; norm_num
    rw [show k + 1 + n = k + n + 1 by omega]
    simp only [mread, leNat, ih (a + 1), hp, show a + (k + 1) = a + 1 + k by omega]
    ring

/-- The bytes inside a range, by their place in the number that the range holds. -/
theorem leNat_mread_sub (m : Tab Byte) (w : Nat) {k n N : Nat} (h : k + n ≤ N) :
    leNat (mread m w N) / 2 ^ (8 * k) % 2 ^ (8 * n) = leNat (mread m (w + k) n) := by
  obtain ⟨r, rfl⟩ : ∃ r, N = k + (n + r) := ⟨N - k - n, by omega⟩
  rw [leNat_mread_add, Nat.add_mul_div_left _ _ (Nat.two_pow_pos _), Nat.div_eq_of_lt (leNat_mread_lt ..), Nat.zero_add,
    leNat_mread_add, Nat.add_mul_mod_self_left, Nat.mod_eq_of_lt (leNat_mread_lt ..)]

theorem toNat_mget (m : Tab Byte) (a : Nat) : (mget m a).toNat = leNat (mread m a 1) := by simp [mread, leNat]

theorem mread_congr {m m' : Tab Byte} {a n : Nat} (h : ∀ b, a ≤ b → b < a + n → mget m b = mget m' b) :
    mread m a n = mread m' a n := by
  induction n generalizing a with
  | zero => rfl
  | succ n ih =>
    simp only [mread]
    rw [h a (le_refl _) (by omega), ih (fun b hb hb' => h b (by omega) (by omega))]

theorem mread_mwrite_same (m : Tab Byte) (a : Nat) (l : List Byte) : mread (mwrite m a l) a l.length = l := by
  induction l generalizing m a with
  | nil => rfl
  | cons b r ih =>
    simp only [mwrite, List.length_cons, mread]
    rw [mget_mwrite_below r _ _ _ (by omega), mget_mset, if_pos rfl, ih]

theorem mread_mwrite_apart (m : Tab Byte) (l : List Byte) {a b n : Nat} (h : b + n ≤ a ∨ a + l.length ≤ b) :
    mread (mwrite m a l) b n = mread m b n :=
  mread_congr fun x h1 h2 => by rw [mget_mwrite, if_neg (by omega)]

-- One word of the banks (R123, R124).

/-- A word is read without correction and without poison. -/
def wordSound (y : Tile) (wi : Nat) : Prop := tget (fun _ => 0) y.flaw wi = 0 ∧ tmem y.pz wi = false

theorem wordSound_putWord_same (y : Tile) (wi v : Nat) : wordSound (putWord y wi v false) wi := by
  simp [wordSound, putWord]

theorem wordSound_putWord (y : Tile) {wi wj : Nat} (v : Nat) (h : wordSound y wj) : wordSound (putWord y wi v false) wj := by
  by_cases e : wj = wi
  · exact e ▸ wordSound_putWord_same ..
  · obtain ⟨hf, hp⟩ := h
    simp [wordSound, putWord, tget_tset_other _ e, tmem_tmark, e, hf, hp]

theorem cellWord_putWord_same (y : Tile) (wi v : Nat) : cellWord (putWord y wi v false) wi = v % 2 ^ 64 := by
  have h := mread_mwrite_same y.mem (8 * wi) (leBytes 8 v)
  rw [leBytes_length] at h
  simp only [cellWord, putWord, Bool.false_eq_true, if_false, h, leNat_leBytes]

theorem mget_putWord_apart (y : Tile) (wi v b : Nat) (h : b < 8 * wi ∨ 8 * wi + 8 ≤ b) :
    mget (putWord y wi v false).mem b = mget y.mem b := by
  simp only [putWord, Bool.false_eq_true, if_false, mget_mwrite, leBytes_length]
  rw [if_neg (by omega)]

theorem readWord_sound {s : Chip} {t wi : Nat} (h : wordSound (getTile s t) wi) :
    readWord s t wi = (s, ⟨cellWord (getTile s t) wi, false⟩) := by
  obtain ⟨hf, hp⟩ := h
  simp [readWord, hf, hp]

/-- A read of sound bytes within one word delivers them and changes nothing. -/
theorem readSome_sound {s : Chip} {t a n : Nat} (hfit : a % 8 + n ≤ 8) (h : wordSound (getTile s t) (a / 8)) :
    readSome s t a n = (s, ⟨leNat (mread (getTile s t).mem a n), false⟩) := by
  simp only [readSome, readWord_sound h, cellWord]
  rw [leNat_mread_sub _ _ hfit, Nat.div_add_mod]

-- Changes of one tile's banks.

/-- Nothing but one tile and the counters differ. -/
def onlyTile (t : Nat) (s u : Chip) : Prop :=
  u = { s with tiles := u.tiles, ctrLive := u.ctrLive } ∧ ∀ k, k ≠ t → getTile u k = getTile s k

theorem onlyTile_refl (t : Nat) (s : Chip) : onlyTile t s s := ⟨rfl, fun _ _ => rfl⟩

theorem onlyTile_trans {t : Nat} {s u v : Chip} (h : onlyTile t s u) (g : onlyTile t u v) : onlyTile t s v := by
  obtain ⟨hu, hk⟩ := h
  obtain ⟨gv, gk⟩ := g
  exact ⟨by rw [gv, hu], fun k n => (gk k n).trans (hk k n)⟩

theorem onlyTile_setTile (s : Chip) (t : Nat) (y : Tile) : onlyTile t s (setTile s t y) :=
  ⟨rfl, fun k n => by rw [getTile_setTile, if_neg n]⟩

theorem onlyTile_ctrBank (s : Chip) (t : Nat) (w : Bool) (n : Nat) : onlyTile t s (ctrBank s t w n) := ⟨rfl, fun _ _ => rfl⟩

theorem onlyTile_writeWord (s : Chip) (t wi : Nat) (e : Elem) : onlyTile t s (writeWord s t wi e) := onlyTile_setTile ..

theorem strands_of_onlyTile {t : Nat} {s u : Chip} (h : onlyTile t s u) : u.strands = s.strands := by rw [h.1]

theorem getStrand_of_onlyTile {t : Nat} {s u : Chip} (h : onlyTile t s u) (t' j : Nat) :
    getStrand u t' j = getStrand s t' j := by
  unfold getStrand
  rw [strands_of_onlyTile h]

theorem onlyHome_of_onlyTile {ks : List Nat} {t i : Nat} {s u : Chip} (h : onlyTile t s u) : onlyHome ks t i s u := by
  obtain ⟨hu, hk⟩ := h
  exact ⟨by rw [hu], fun _ _ => by rw [hu]; rfl, fun _ _ => by rw [hu], hk⟩

/-- The banks of the tile hold `v` in `n` bytes from `a` up, what they held elsewhere, and sound words stay sound. -/
def wrote (s u : Chip) (t a n v : Nat) : Prop :=
  (∀ b, b < a ∨ a + n ≤ b → mget (getTile u t).mem b = mget (getTile s t).mem b) ∧
    leNat (mread (getTile u t).mem a n) = v ∧ ∀ wi, wordSound (getTile s t) wi → wordSound (getTile u t) wi

@[simp] theorem getTile_ctrBank (s : Chip) (t : Nat) (w : Bool) (n k : Nat) : getTile (ctrBank s t w n) k = getTile s k := rfl

theorem patch_lt {old lo n v : Nat} (hn : 0 < n) (hfit : lo + n ≤ 8) (h : old < 2 ^ 64) : patch old lo n v < 2 ^ 64 :=
  setBits_lt _ _ _ _ (by omega) (by omega) h

/-- A write of `n` bytes within one sound word. -/
theorem writePart_spec {s : Chip} {t a n v : Nat} (hn : 0 < n) (hfit : a % 8 + n ≤ 8)
    (h : wordSound (getTile s t) (a / 8)) :
    onlyTile t s (writePart s t a n ⟨v, false⟩) ∧ wrote s (writePart s t a n ⟨v, false⟩) t a n (v % 2 ^ (8 * n)) := by
  have hw : writePart s t a n ⟨v, false⟩ =
      writeWord (ctrBank s t false 1) t (a / 8) ⟨patch (cellWord (getTile s t) (a / 8)) (a % 8) n v, false⟩ := by
    have hr := readWord_sound (s := ctrBank s t false 1) (t := t) (wi := a / 8) h
    simp only [writePart, hr, getTile_ctrBank, Bool.or_self]
  have hmem : getTile (writePart s t a n ⟨v, false⟩) t =
      putWord (getTile s t) (a / 8) (patch (cellWord (getTile s t) (a / 8)) (a % 8) n v) false := by
    rw [hw, writeWord, getTile_setTile_same, getTile_ctrBank]
  have hcell : leNat (mread (getTile (writePart s t a n ⟨v, false⟩) t).mem (8 * (a / 8)) 8) =
      patch (cellWord (getTile s t) (a / 8)) (a % 8) n v := by
    rw [hmem]
    exact (cellWord_putWord_same ..).trans (Nat.mod_eq_of_lt (patch_lt hn hfit (leNat_mread_lt _ _ 8)))
  refine ⟨hw ▸ onlyTile_trans (onlyTile_ctrBank ..) (onlyTile_writeWord ..), fun b hb => ?_, ?_, fun wi hs => ?_⟩
  · by_cases hin : 8 * (a / 8) ≤ b ∧ b < 8 * (a / 8) + 8
    · have hk : b = 8 * (a / 8) + (b - 8 * (a / 8)) := by omega
      have hsub : ∀ m : Tab Byte, (mget m b).toNat =
          bitsOf (leNat (mread m (8 * (a / 8)) 8)) (8 * (b - 8 * (a / 8)) + 7) (8 * (b - 8 * (a / 8))) := by
        intro m
        rw [toNat_mget, bitsOf_eq, show 8 * (b - 8 * (a / 8)) + 7 + 1 - 8 * (b - 8 * (a / 8)) = 8 * 1 by omega,
          leNat_mread_sub m (8 * (a / 8)) (by omega), ← hk]
      apply BitVec.eq_of_toNat_eq
      rw [hsub, hsub, hcell, patch, bitsOf_setBits_other _ _ _ _ _ _ (by omega) (by omega) (by omega)]
      rfl
    · rw [hmem]
      exact mget_putWord_apart _ _ _ _ (by omega)
  · have hsame := bitsOf_setBits_same (cellWord (getTile s t) (a / 8)) (8 * (a % 8 + n) - 1) (8 * (a % 8)) v (by omega)
    rw [show 8 * (a % 8 + n) - 1 + 1 - 8 * (a % 8) = 8 * n by omega, bitsOf_eq,
      show 8 * (a % 8 + n) - 1 + 1 - 8 * (a % 8) = 8 * n by omega] at hsame
    have hsub := leNat_mread_sub (getTile (writePart s t a n ⟨v, false⟩) t).mem (8 * (a / 8)) hfit
    rw [Nat.div_add_mod, hcell] at hsub
    exact hsub.symm.trans hsame
  · rw [hmem]
    exact wordSound_putWord _ _ hs

/-- A write of one whole word. -/
theorem writeWord_spec (s : Chip) (t wi v : Nat) :
    onlyTile t s (writeWord s t wi ⟨v, false⟩) ∧ wrote s (writeWord s t wi ⟨v, false⟩) t (8 * wi) 8 (v % 2 ^ 64) := by
  refine ⟨onlyTile_writeWord .., fun b hb => ?_, ?_, fun wj hs => ?_⟩ <;> rw [writeWord, getTile_setTile_same]
  · exact mget_putWord_apart _ _ _ _ hb
  · exact cellWord_putWord_same ..
  · exact wordSound_putWord _ _ hs

/-- A write within one word, whole or of a part of a sound word. -/
theorem writeSome_spec {s : Chip} {t a n v : Nat} (hn : 0 < n) (hfit : a % 8 + n ≤ 8)
    (h : wordSound (getTile s t) (a / 8)) :
    onlyTile t s (writeSome s t a n ⟨v, false⟩) ∧ wrote s (writeSome s t a n ⟨v, false⟩) t a n (v % 2 ^ (8 * n)) := by
  by_cases h8 : n = 8
  · subst h8
    have hw := writeWord_spec s t (a / 8) v
    rwa [show 8 * (a / 8) = a by omega] at hw
  · have hw : writeSome s t a n ⟨v, false⟩ = writePart s t a n ⟨v, false⟩ := by simp [writeSome, h8]
    rw [hw]
    exact writePart_spec hn hfit h

/-- Storing at a stream's release word changes the streams of the tile alone. -/
theorem releasePanes_spec (s : Chip) (t a n : Nat) :
    onlyTile t s (releasePanes s t a n) ∧ (getTile (releasePanes s t a n) t).mem = (getTile s t).mem ∧
      ∀ wi, wordSound (getTile s t) wi → wordSound (getTile (releasePanes s t a n) t) wi := by
  unfold releasePanes
  generalize List.range 8 = l
  induction l generalizing s with
  | nil => exact ⟨onlyTile_refl t s, rfl, fun _ h => h⟩
  | cons k r ih =>
    rw [forEach_cons]
    obtain ⟨ho, hm, hs⟩ := ih (s := _)
    refine ⟨onlyTile_trans ?_ ho, hm.trans ?_, fun wi h => hs wi ?_⟩
    · simp only
      split
      · exact onlyTile_setTile ..
      · exact onlyTile_refl ..
    · simp only
      split
      · rw [getTile_setTile_same]
      · rfl
    · simp only
      split
      · rw [getTile_setTile_same]
        exact h
      · exact h

end Sys2Proof.Proofs
end

section
/-! SUPPORT. Scalar loads, stores and atomics on the banks (O13). -/

namespace Sys2Proof.Proofs

open Sys2Proof.Machine

theorem accessFaults_nil {pz : Bool} {a n al : Nat} (h : accessFaults pz a n al = []) :
    pz = false ∧ a % al = 0 ∧ a + n ≤ bankEnd := by
  cases pz with
  | true => simp [accessFaults] at h
  | false =>
    simp only [accessFaults, Bool.false_eq_true, if_false, List.append_eq_nil_iff, mem_faultIf] at h
    obtain ⟨ha, hb⟩ := h
    refine ⟨rfl, by simpa using ha, ?_⟩
    simpa [inBanks] using hb

theorem wordSound_of_wordsClean {s : State} {tile a n : Nat} (h : wordsClean s tile a n = true) {wi : Nat}
    (hlo : a / 8 ≤ wi) (hhi : wi ≤ (a + n - 1) / 8) : wordSound (getTile s.chip tile) wi := by
  unfold wordsClean at h
  rw [List.all_eq_true] at h
  have hj := h (wi - a / 8) (by simp only [List.mem_range]; omega)
  rw [Nat.add_sub_cancel' hlo] at hj
  simpa [wordSound] using hj

/-- The first word of a clean range. -/
theorem wordSound_first {s : State} {tile a n : Nat} (h : wordsClean s tile a n = true) (hn : 0 < n) :
    wordSound (getTile s.chip tile) (a / 8) :=
  wordSound_of_wordsClean h (le_refl _) (Nat.div_le_div_right (by omega))

/-- An access that is aligned to its size of 1, 2, 4 or 8 bytes lies within one word. -/
theorem within_word {a n : Nat} (hn : n = 1 ∨ n = 2 ∨ n = 4 ∨ n = 8) (h : a % n = 0) : 0 < n ∧ a % 8 + n ≤ 8 := by
  rcases hn with rfl | rfl | rfl | rfl <;> omega

theorem accessSize_cases (op : Nat) : accessSize op = 1 ∨ accessSize op = 2 ∨ accessSize op = 4 ∨ accessSize op = 8 := by
  unfold accessSize
  split <;> decide

/-- A slot that changes its tile's banks, and then takes a result into its own strand. -/
theorem exec_tile {s : State} {site : Site} {c : Instr} (h : issues s.chip site c = true) {g : Strand → Strand}
    (e₁ e₂ : Chip → Chip) (heff : (loneRec s.chip site c).eff (brought s.chip site c) = e₂ (e₁ (brought s.chip site c)))
    (ho : onlyTile site.tile (brought s.chip site c) (e₁ (brought s.chip site c)))
    (hg : ownEffect site.tile site.strand g e₂) (hk : keepsSlots g)
    (hstart : (loneRec s.chip site c).start = id) (hctl : (loneRec s.chip site c).ctl = .fall) :
    ∃ t, exec c s = .next t ∧ homeOnly [] site.tile site.strand s t ∧
      (getTile t.chip site.tile).mem = (getTile (e₁ (brought s.chip site c)) site.tile).mem ∧
      strandOf t site = advance .fall (g (strandOf s site)) := by
  obtain ⟨-, -, -, -, -, hsl⟩ := free_of_issues h
  obtain ⟨ho₂, hx₂⟩ := hg (e₁ (brought s.chip site c))
  obtain ⟨hex, hh⟩ := exec_home (ks := []) h hstart _ rfl
    (heff ▸ onlyHome_trans (onlyHome_of_onlyTile ho) (onlyHome_of_onlyStrand ho₂))
  rw [heff, hctl] at hex hh
  refine ⟨_, hex, hh, ?_, ?_⟩
  · rw [getTile_retire_same, getTile_of_onlyStrand ho₂]
  · obtain ⟨l, hl⟩ := hk (strandOf s site) [c]
    simp only [strandOf, getStrand_retire_same, hx₂, getStrand_of_onlyTile ho, getStrand_brought _ _ _ hsl]
    exact (congrArg (advance .fall) hl).trans (advance_slots _ _ _)

/-- Banks that a bundle leaves as they were. -/
theorem banksKept_of_mem {s t : State} {tile : Nat} (h : (getTile t.chip tile).mem = (getTile s.chip tile).mem) :
    banksKept s t tile 0 0 := fun _ _ => by rw [h]

theorem scalarLoadClause {s : State} {site : Site} {op : Nat} {f : FmtRI}
    (h : issues s.chip site (.scalarLoad site op f) = true)
    (hc : wordsClean s site.tile (addrRI (strandOf s site) f (accessSize op)) (accessSize op) = true) :
    ∃ t, exec (.scalarLoad site op f) s = .next t ∧ homeOnly [] site.tile site.strand s t ∧ banksKept s t site.tile 0 0 ∧
      strandOf t site = advance .fall (wrS (strandOf s site) f.rd
        (extended op (leNat (bankBytes s site.tile (addrRI (strandOf s site) f (accessSize op)) (accessSize op)))) false) := by
  obtain ⟨-, hal, -⟩ := accessFaults_nil (sound_of_issues h).2.1
  obtain ⟨hn, hfit⟩ := within_word (accessSize_cases op) hal
  have hr : readSome (brought s.chip site (.scalarLoad site op f)) site.tile _ _ = _ :=
    readSome_sound hfit (wordSound_first hc hn)
  obtain ⟨t, he, ho, hm, hx⟩ := exec_tile h (fun st => ctrBank st site.tile false 1)
    (fun st => modStrand st site.tile site.strand (fun y => wrS y f.rd (extended op
      (leNat (bankBytes s site.tile (addrRI (strandOf s site) f (accessSize op)) (accessSize op)))) false))
    (by
      change modStrand (ctrBank (readSome _ _ _ _).1 _ _ _) _ _ (fun y => wrS y _ (extended op (readSome _ _ _ _).2.v) (readSome _ _ _ _).2.pz) = _
      rw [hr]
      rfl)
    (onlyTile_ctrBank ..) (ownEffect_modStrand _ _ _) (keepsSlots_wrS _ _ _) rfl rfl
  exact ⟨t, he, ho, banksKept_of_mem hm, hx⟩

/-- A slot that stores within one sound word of its tile, counts the access and releases what it covers. -/
theorem stores_spec {b : Chip} {s : State} {tile a n v : Nat} {e : Chip → Chip} (hb : getTile b tile = getTile s.chip tile)
    (hw : onlyTile tile b (e b) ∧ wrote b (e b) tile a n v) :
    onlyTile tile b (releasePanes (e b) tile a n) ∧
      (∀ x, x < a ∨ a + n ≤ x → mget (getTile (releasePanes (e b) tile a n) tile).mem x = mget (getTile s.chip tile).mem x) ∧
      leNat (mread (getTile (releasePanes (e b) tile a n) tile).mem a n) = v := by
  obtain ⟨ho, hk, hv, -⟩ := hw
  obtain ⟨hro, hrm, -⟩ := releasePanes_spec (e b) tile a n
  refine ⟨onlyTile_trans ho hro, fun x hx => ?_, ?_⟩
  · rw [hrm, hk x hx, hb]
  · rw [hrm, hv]

/-- A counted access is the access. -/
theorem counted_spec {b u : Chip} {tile a n v : Nat} (h : onlyTile tile b u ∧ wrote b u tile a n v) (w : Bool) (k : Nat) :
    onlyTile tile b (ctrBank u tile w k) ∧ wrote b (ctrBank u tile w k) tile a n v :=
  ⟨onlyTile_trans h.1 (onlyTile_ctrBank ..), h.2⟩

theorem leNat_bankBytes_lt (s : State) (tile a n : Nat) : leNat (bankBytes s tile a n) < 2 ^ (8 * n) := leNat_mread_lt ..

/-- What a store within one word does to its tile: the bytes, the count, and the panes that it releases (R124, R369). -/
def storesAt (tile a n v : Nat) (s : Chip) : Chip :=
  releasePanes (ctrBank (writeSome s tile a n ⟨v, false⟩) tile true 1) tile a n

theorem storesAt_spec {b : Chip} {s : State} {tile a n v : Nat} (hb : getTile b tile = getTile s.chip tile) (hn : 0 < n)
    (hfit : a % 8 + n ≤ 8) (hc : wordSound (getTile s.chip tile) (a / 8)) :
    onlyTile tile b (storesAt tile a n v b) ∧
      (∀ x, x < a ∨ a + n ≤ x → mget (getTile (storesAt tile a n v b) tile).mem x = mget (getTile s.chip tile).mem x) ∧
      leNat (mread (getTile (storesAt tile a n v b) tile).mem a n) = v % 2 ^ (8 * n) :=
  stores_spec (e := fun st => ctrBank (writeSome st tile a n ⟨v, false⟩) tile true 1) hb
    (counted_spec (writeSome_spec hn hfit (by rw [hb]; exact hc)) true 1)

theorem addrRI_holding (x : Strand) (c : Instr) (f : FmtRI) (n : Nat) : addrRI (holding x c) f n = addrRI x f n := rfl

theorem rdS_holding (x : Strand) (c : Instr) (i : Nat) : rdS (holding x c) i = rdS x i := rfl

theorem rdSm_holding (x : Strand) (c : Instr) (i : Nat) : rdSm (holding x c) i = rdSm x i := rfl

theorem scalarStore_eff {s : State} {site : Site} {op : Nat} {f : FmtRI} (hm : rdSm (strandOf s site) f.rd = false) :
    (loneRec s.chip site (.scalarStore site op f)).eff =
      storesAt site.tile (addrRI (strandOf s site) f (accessSize op)) (accessSize op)
        (rdS (strandOf s site) f.rd % 2 ^ (8 * accessSize op)) := by
  have hrec : loneRec s.chip site (.scalarStore site op f) = recScalarStore (brought s.chip site (.scalarStore site op f))
      site.tile (holding (strandOf s site) (.scalarStore site op f)) site op f := rfl
  funext st
  simp only [hrec, recScalarStore, storesAt, addrRI_holding, rdS_holding, rdSm_holding, hm]

theorem scalarStoreClause {s : State} {site : Site} {op : Nat} {f : FmtRI}
    (h : issues s.chip site (.scalarStore site op f) = true)
    (hc : wordsClean s site.tile (addrRI (strandOf s site) f (accessSize op)) (accessSize op) = true)
    (hm : rdSm (strandOf s site) f.rd = false) :
    ∃ t, exec (.scalarStore site op f) s = .next t ∧ homeOnly [] site.tile site.strand s t ∧
      banksKept s t site.tile (addrRI (strandOf s site) f (accessSize op)) (accessSize op) ∧
      leNat (bankBytes t site.tile (addrRI (strandOf s site) f (accessSize op)) (accessSize op)) =
        rdS (strandOf s site) f.rd % 2 ^ (8 * accessSize op) ∧
      strandOf t site = advance .fall (strandOf s site) := by
  obtain ⟨-, hal, -⟩ := accessFaults_nil (sound_of_issues h).2.1
  rw [addrRI_holding] at hal
  obtain ⟨hn, hfit⟩ := within_word (accessSize_cases op) hal
  have hmod : rdS (strandOf s site) f.rd % 2 ^ (8 * accessSize op) % 2 ^ (8 * accessSize op) =
      rdS (strandOf s site) f.rd % 2 ^ (8 * accessSize op) := Nat.mod_mod ..
  obtain ⟨hro, hrk, hrv⟩ := storesAt_spec (s := s) (b := brought s.chip site (.scalarStore site op f)) rfl
    (v := rdS (strandOf s site) f.rd % 2 ^ (8 * accessSize op)) hn hfit (wordSound_first hc hn)
  obtain ⟨t, he, ho, hmem, hx⟩ := exec_tile h (storesAt site.tile (addrRI (strandOf s site) f (accessSize op))
      (accessSize op) (rdS (strandOf s site) f.rd % 2 ^ (8 * accessSize op))) id
    (by rw [scalarStore_eff hm, id])
    hro (ownEffect_id _ _) keepsSlots_id rfl rfl
  refine ⟨t, he, ho, fun x hxr => ?_, ?_, hx⟩
  · rw [hmem]
    exact hrk x hxr
  · rw [bankBytes, hmem]
    exact hrv.trans hmod

theorem amoOp_lt (fn : Nat) {a b : Nat} (ha : a < 2 ^ 64) (hb : b < 2 ^ 64) : amoOp fn a b < 2 ^ 64 := by
  unfold amoOp
  split
  · exact hb
  · exact Nat.mod_lt _ (Nat.two_pow_pos 64)
  · exact Nat.and_lt_two_pow _ hb
  · exact Nat.or_lt_two_pow ha hb
  · exact Nat.xor_lt_two_pow ha hb
  · split <;> assumption
  · split <;> assumption
  · exact lt_of_le_of_lt (min_le_left _ _) ha
  · exact max_lt ha hb

theorem amoElem_unmarked (fn a b : Nat) : amoElem fn ⟨a, false⟩ ⟨b, false⟩ = ⟨amoOp fn a b, false⟩ := by
  unfold amoElem
  split
  · next h => rw [eq_of_beq h]; rfl
  · rfl

/-- A slot that writes one sound word of its tile by what the word holds, and returns the word's old value. -/
theorem exec_atomic {s : State} {site : Site} {c : Instr} (h : issues s.chip site c = true) {rd a v : Nat}
    (hal : a % 8 = 0) (e : Chip → Chip)
    (hw : onlyTile site.tile (brought s.chip site c) (e (brought s.chip site c)) ∧
      wrote (brought s.chip site c) (e (brought s.chip site c)) site.tile (8 * (a / 8)) 8 v)
    (heff : (loneRec s.chip site c).eff (brought s.chip site c) =
      putS site.tile site.strand rd (leNat (bankBytes s site.tile a 8)) false
        (releasePanes (e (brought s.chip site c)) site.tile a 8))
    (hstart : (loneRec s.chip site c).start = id) (hctl : (loneRec s.chip site c).ctl = .fall) :
    ∃ t, exec c s = .next t ∧ homeOnly [] site.tile site.strand s t ∧ banksKept s t site.tile a 8 ∧
      leNat (bankBytes t site.tile a 8) = v ∧
      strandOf t site = advance .fall (tookS (strandOf s site) rd (leNat (bankBytes s site.tile a 8)) false) := by
  rw [show 8 * (a / 8) = a by omega] at hw
  obtain ⟨hro, hrk, hrv⟩ := stores_spec (s := s) (b := brought s.chip site c) rfl hw
  obtain ⟨t, he, ho, hmem, hx⟩ := exec_tile h (fun st => releasePanes (e st) site.tile a 8) _ heff hro
    (ownEffect_putS _ _ _ _ _) (keepsSlots_tookS _ _ _) hstart hctl
  refine ⟨t, he, ho, fun x hxr => ?_, ?_, hx⟩
  · rw [hmem]
    exact hrk x hxr
  · rw [bankBytes, hmem]
    exact hrv

/-- The word at an aligned address. -/
theorem cellWord_aligned (s : State) (tile : Nat) {a : Nat} (h : a % 8 = 0) :
    cellWord (getTile s.chip tile) (a / 8) = leNat (bankBytes s tile a 8) := by
  rw [cellWord, bankBytes, show 8 * (a / 8) = a by omega]

theorem readWord_aligned {s : State} {site : Site} {c : Instr} {a : Nat} (hal : a % 8 = 0)
    (hc : wordsClean s site.tile a 8 = true) :
    readWord (brought s.chip site c) site.tile (a / 8) =
      (brought s.chip site c, ⟨leNat (bankBytes s site.tile a 8), false⟩) := by
  rw [← cellWord_aligned s site.tile hal]
  exact readWord_sound (wordSound_first hc (by norm_num))

theorem amoClause {s : State} {site : Site} {f : FmtR3} (h : issues s.chip site (.amo site f) = true)
    (hc : wordsClean s site.tile (rdS (strandOf s site) f.ra) 8 = true) (hm : rdSm (strandOf s site) f.rb = false) :
    ∃ t, exec (.amo site f) s = .next t ∧ homeOnly [] site.tile site.strand s t ∧
      banksKept s t site.tile (rdS (strandOf s site) f.ra) 8 ∧
      leNat (bankBytes t site.tile (rdS (strandOf s site) f.ra) 8) =
        amoOp f.fn (leNat (bankBytes s site.tile (rdS (strandOf s site) f.ra) 8)) (rdS (strandOf s site) f.rb) ∧
      strandOf t site = advance .fall (tookS (strandOf s site) f.rd
        (leNat (bankBytes s site.tile (rdS (strandOf s site) f.ra) 8)) false) := by
  obtain ⟨-, hal, -⟩ := accessFaults_nil (sound_of_issues h).2.1
  have hlt := amoOp_lt f.fn (leNat_bankBytes_lt s site.tile (rdS (strandOf s site) f.ra) 8)
    (rdS_lt (strandOf s site) f.rb)
  have hw := writeWord_spec (brought s.chip site (.amo site f)) site.tile (rdS (strandOf s site) f.ra / 8)
    (amoOp f.fn (leNat (bankBytes s site.tile (rdS (strandOf s site) f.ra) 8)) (rdS (strandOf s site) f.rb))
  rw [Nat.mod_eq_of_lt hlt] at hw
  refine exec_atomic h hal (fun st => ctrBank (ctrBank (writeWord st site.tile (rdS (strandOf s site) f.ra / 8)
    ⟨amoOp f.fn (leNat (bankBytes s site.tile (rdS (strandOf s site) f.ra) 8)) (rdS (strandOf s site) f.rb), false⟩)
    site.tile false 1) site.tile true 1) (counted_spec (counted_spec hw false 1) true 1) ?_ rfl rfl
  have hr := readWord_aligned (c := .amo site f) hal hc
  change putS _ _ _ (readWord _ _ _).2.v (readWord _ _ _).2.pz (releasePanes (ctrBank (ctrBank (writeWord (readWord _ _ _).1
    _ _ (amoElem _ (readWord _ _ _).2 ⟨_, rdSm (strandOf s site) f.rb⟩)) _ _ _) _ _ _) _ _ _) = _
  rw [hr, hm, amoElem_unmarked]
  rfl

theorem casClause {s : State} {site : Site} {f : FmtR3} (h : issues s.chip site (.cas site f) = true)
    (hc : wordsClean s site.tile (rdS (strandOf s site) f.ra) 8 = true) (hm : rdSm (strandOf s site) f.rb = false) :
    ∃ t, exec (.cas site f) s = .next t ∧ homeOnly [] site.tile site.strand s t ∧
      banksKept s t site.tile (rdS (strandOf s site) f.ra) 8 ∧
      leNat (bankBytes t site.tile (rdS (strandOf s site) f.ra) 8) =
        (if leNat (bankBytes s site.tile (rdS (strandOf s site) f.ra) 8) = rdS (strandOf s site) f.rd
          then rdS (strandOf s site) f.rb else leNat (bankBytes s site.tile (rdS (strandOf s site) f.ra) 8)) ∧
      strandOf t site = advance .fall (tookS (strandOf s site) f.rd
        (leNat (bankBytes s site.tile (rdS (strandOf s site) f.ra) 8)) false) := by
  have hf : accessFaults (rdSm (strandOf s site) f.ra) (rdS (strandOf s site) f.ra) 8 8 ++
      faultIf (rdSm (strandOf s site) f.rd) 0x2093 0 = [] := (sound_of_issues h).2.1
  obtain ⟨-, hal, -⟩ := accessFaults_nil (List.append_eq_nil_iff.1 hf).1
  have hr := readWord_aligned (c := .cas site f) hal hc
  by_cases he : leNat (bankBytes s site.tile (rdS (strandOf s site) f.ra) 8) = rdS (strandOf s site) f.rd
  · have hw := writeWord_spec (brought s.chip site (.cas site f)) site.tile (rdS (strandOf s site) f.ra / 8)
      (rdS (strandOf s site) f.rb)
    rw [Nat.mod_eq_of_lt (rdS_lt _ _)] at hw
    rw [if_pos he]
    refine exec_atomic h hal (fun st => ctrBank (ctrBank (writeWord st site.tile (rdS (strandOf s site) f.ra / 8)
      ⟨rdS (strandOf s site) f.rb, false⟩) site.tile true 1) site.tile false 1) (counted_spec (counted_spec hw true 1) false 1) ?_ rfl rfl
    change putS _ _ _ (readWord _ _ (rdS (strandOf s site) f.ra / 8)).2.v (readWord _ _ (rdS (strandOf s site) f.ra / 8)).2.pz (releasePanes (ctrBank
      (if (!(readWord _ _ (rdS (strandOf s site) f.ra / 8)).2.pz && (readWord _ _ (rdS (strandOf s site) f.ra / 8)).2.v == rdS (strandOf s site) f.rd) = true then
        ctrBank (writeWord (readWord _ _ (rdS (strandOf s site) f.ra / 8)).1 _ _ ⟨_, rdSm (strandOf s site) f.rb⟩) _ _ _ else (readWord _ _ (rdS (strandOf s site) f.ra / 8)).1) _ _ _) _ _ _) = _
    rw [hr, hm]
    simp only [Bool.not_false, Bool.true_and, he, beq_self_eq_true, if_true]
    rfl
  · rw [if_neg he]
    refine exec_atomic h hal (fun st => ctrBank st site.tile false 1)
      ⟨onlyTile_ctrBank .., fun _ _ => rfl, cellWord_aligned s site.tile hal, fun _ hs => hs⟩ ?_ rfl rfl
    change putS _ _ _ (readWord _ _ (rdS (strandOf s site) f.ra / 8)).2.v (readWord _ _ (rdS (strandOf s site) f.ra / 8)).2.pz (releasePanes (ctrBank
      (if (!(readWord _ _ (rdS (strandOf s site) f.ra / 8)).2.pz && (readWord _ _ (rdS (strandOf s site) f.ra / 8)).2.v == rdS (strandOf s site) f.rd) = true then
        ctrBank (writeWord (readWord _ _ (rdS (strandOf s site) f.ra / 8)).1 _ _ ⟨_, rdSm (strandOf s site) f.rb⟩) _ _ _ else (readWord _ _ (rdS (strandOf s site) f.ra / 8)).1) _ _ _) _ _ _) = _
    rw [hr]
    simp only [Bool.not_false, Bool.true_and, beq_iff_eq, he, if_false]
    rfl

/-- Settles O13: each access lies within one word, which is sound. -/
theorem scalarMemory : Obligations.ScalarMemory := by
  intro s site x
  exact ⟨fun op f h hc => scalarLoadClause h hc, fun op f h hc hm => scalarStoreClause h hc hm,
    fun f h hc hm => amoClause h hc hm, fun f h hc hm => casClause h hc hm⟩

end Sys2Proof.Proofs
end

section
/-! SUPPORT. Runs of words and of elements in the banks; vector loads and stores, and moves between register files (O14). -/

namespace Sys2Proof.Proofs

open Sys2Proof.Machine

-- Runs of sound words.

/-- An unmarked element. -/
def plain (v : Nat) : Elem := ⟨v, false⟩

theorem readWords_sound {s : Chip} {t wi n : Nat} (h : ∀ j, j < n → wordSound (getTile s t) (wi + j)) :
    readWords s t wi n = (s, (List.range n).map (fun j => plain (cellWord (getTile s t) (wi + j)))) := by
  induction n generalizing wi with
  | zero => rfl
  | succ n ih =>
    have h0 := readWord_sound (s := s) (t := t) (wi := wi) (by simpa using h 0 (by omega))
    have hr := ih (wi := wi + 1) (fun j hj => by rw [show wi + 1 + j = wi + (j + 1) by omega]; exact h (j + 1) (by omega))
    simp only [readWords, h0, hr, List.range_succ_eq_map, List.map_cons, List.map_map, Nat.add_zero, Prod.mk.injEq, true_and]
    refine List.cons_eq_cons.2 ⟨rfl, List.map_congr_left fun j _ => ?_⟩
    simp only [Function.comp, Nat.succ_eq_add_one, show wi + 1 + j = wi + (j + 1) by omega]

theorem packLanes_words (y : Tile) (wi n : Nat) :
    packLanes 64 ((List.range n).map (fun j => cellWord y (wi + j))) = leNat (mread y.mem (8 * wi) (8 * n)) := by
  induction n generalizing wi with
  | zero => rfl
  | succ n ih =>
    have hadd := leNat_mread_add y.mem (8 * wi) 8 (8 * n)
    have hw : cellWord y wi % 2 ^ 64 = leNat (mread y.mem (8 * wi) 8) := Nat.mod_eq_of_lt (leNat_mread_lt _ _ 8)
    rw [List.range_succ_eq_map, List.map_cons, List.map_map, packLanes, show 8 * (n + 1) = 8 + 8 * n by ring, hadd,
      Nat.add_zero, hw]
    have hr := ih (wi + 1)
    rw [show 8 * (wi + 1) = 8 * wi + 8 by ring] at hr
    rw [← hr]
    refine congrArg (fun l => _ + 2 ^ 64 * packLanes 64 l) (List.map_congr_left fun j _ => ?_)
    simp only [Function.comp, Nat.succ_eq_add_one, show wi + 1 + j = wi + (j + 1) by omega]

theorem packLanes_lanes (w v n : Nat) : packLanes w ((List.range n).map (lane w v)) = v % 2 ^ (w * n) := by
  induction n generalizing v with
  | zero => simp [packLanes, Nat.mod_one]
  | succ n ih =>
    have hl : (List.range n).map (lane w v ∘ Nat.succ) = (List.range n).map (lane w (v / 2 ^ w)) := by
      refine List.map_congr_left fun j _ => ?_
      simp only [lane, Function.comp, Nat.succ_eq_add_one, Nat.div_div_eq_div_mul, ← pow_add]
      ring_nf
    rw [List.range_succ_eq_map, List.map_cons, List.map_map, packLanes, hl, ih, show w * (n + 1) = w + w * n by ring, pow_add,
      Nat.mod_mul]
    simp [lane]

/-- Unmarked elements pack without marks. -/
theorem packMarked_plain (w : Nat) (l : List Nat) (fl : List Nat) :
    packMarked w (l.map plain) fl = ⟨packLanes w l, 0, fl⟩ := by
  have hp : ∀ j, ((l.map plain).getD j ⟨0, false⟩).pz = false := by
    intro j
    rw [List.getD_eq_getElem?_getD, List.getElem?_map]
    cases l[j]? <;> rfl
  have hfold : ∀ (r : List Nat) (a : Nat), r.foldl (fun a j => if ((l.map plain).getD j ⟨0, false⟩).pz then
      Nat.lor a (2 ^ (w * j / 64)) else a) a = a := by
    intro r
    induction r with
    | nil => intro a; rfl
    | cons j r ih =>
      intro a
      rw [List.foldl_cons, hp, if_neg (by simp), ih]
  have hv : (l.map plain).map (·.v) = l := by simp [plain, Function.comp_def]
  unfold packMarked
  simp only [hfold, hv]

theorem wrote_trans {s u v : Chip} {t a n m x y : Nat} (h : wrote s u t a n x) (g : wrote u v t (a + n) m y) :
    wrote s v t a (n + m) (x + 2 ^ (8 * n) * y) := by
  obtain ⟨hk, hx, hs⟩ := h
  obtain ⟨gk, gy, gs⟩ := g
  refine ⟨fun b hb => (gk b (by omega)).trans (hk b (by omega)), ?_, fun wi hw => gs wi (hs wi hw)⟩
  rw [leNat_mread_add, gy, ← hx]
  congr 2
  exact mread_congr fun b h1 h2 => gk b (by omega)

/-- Whole words written one after another. -/
theorem writeWords_spec (s : Chip) (t wi : Nat) (l : List Nat) :
    onlyTile t s (writeWords s t wi (l.map plain)) ∧
      wrote s (writeWords s t wi (l.map plain)) t (8 * wi) (8 * l.length) (packLanes 64 l) := by
  induction l generalizing s wi with
  | nil => exact ⟨onlyTile_refl t s, fun _ _ => rfl, rfl, fun _ h => h⟩
  | cons v r ih =>
    obtain ⟨ho, hw⟩ := writeWord_spec s t wi v
    obtain ⟨hro, hrw⟩ := ih (writeWord s t wi (plain v)) (wi + 1)
    have htr := wrote_trans hw (by rw [show 8 * (wi + 1) = 8 * wi + 8 by ring] at hrw; exact hrw)
    rw [show 8 + 8 * r.length = 8 * (v :: r).length by simp only [List.length_cons]; ring] at htr
    exact ⟨onlyTile_trans ho hro, htr⟩

-- Elements written one after another.

theorem readEach_sound {s : Chip} {t n : Nat} {l : List Nat}
    (h : ∀ a ∈ l, a % 8 + n ≤ 8 ∧ wordSound (getTile s t) (a / 8)) :
    readEach t n l s = (s, (l.map (fun a => leNat (mread (getTile s t).mem a n))).map plain) := by
  induction l with
  | nil => rfl
  | cons a r ih =>
    obtain ⟨hfit, hs⟩ := h a (by simp)
    simp only [readEach, readSome_sound hfit hs, ih (fun b hb => h b (by simp [hb]))]
    rfl

theorem writeEach_append (t n : Nat) (l r : List (Nat × Elem)) (s : Chip) :
    writeEach t n (l ++ r) s = writeEach t n r (writeEach t n l s) := by
  induction l generalizing s with
  | nil => rfl
  | cons p l ih => exact ih _

/-- Elements written within sound words: what they do not touch stands, and sound words stay sound. -/
theorem writeEach_kept {t n : Nat} (hn : 0 < n) (l : List (Nat × Nat)) (s : Chip)
    (h : ∀ p ∈ l, p.1 % 8 + n ≤ 8 ∧ wordSound (getTile s t) (p.1 / 8)) :
    onlyTile t s (writeEach t n (l.map (fun p => (p.1, plain p.2))) s) ∧
      (∀ b, (∀ p ∈ l, b < p.1 ∨ p.1 + n ≤ b) →
        mget (getTile (writeEach t n (l.map (fun p => (p.1, plain p.2))) s) t).mem b = mget (getTile s t).mem b) ∧
      ∀ wi, wordSound (getTile s t) wi → wordSound (getTile (writeEach t n (l.map (fun p => (p.1, plain p.2))) s) t) wi := by
  induction l generalizing s with
  | nil => exact ⟨onlyTile_refl t s, fun _ _ => rfl, fun _ hw => hw⟩
  | cons p r ih =>
    obtain ⟨hfit, hs⟩ := h p (by simp)
    obtain ⟨ho, hk, -, hsound⟩ := writeSome_spec (v := p.2) hn hfit hs
    obtain ⟨ro, rk, rs⟩ := ih (writeSome s t p.1 n ⟨p.2, false⟩) (fun q hq => ⟨(h q (by simp [hq])).1,
      hsound _ (h q (by simp [hq])).2⟩)
    exact ⟨onlyTile_trans ho ro, fun b hb => (rk b (fun q hq => hb q (by simp [hq]))).trans (hk b (hb p (by simp))),
      fun wi hw => rs wi (hsound wi hw)⟩

/-- An element that no later one touches is what the banks hold. -/
theorem writeEach_last {t n : Nat} (hn : 0 < n) {l r : List (Nat × Nat)} {a v : Nat} (s : Chip)
    (h : ∀ p ∈ l ++ (a, v) :: r, p.1 % 8 + n ≤ 8 ∧ wordSound (getTile s t) (p.1 / 8))
    (hlast : ∀ p ∈ r, p.1 + n ≤ a ∨ a + n ≤ p.1) :
    leNat (mread (getTile (writeEach t n ((l ++ (a, v) :: r).map (fun p => (p.1, plain p.2))) s) t).mem a n) =
      v % 2 ^ (8 * n) := by
  rw [List.map_append, writeEach_append]
  obtain ⟨-, -, hs⟩ := writeEach_kept hn l s (fun p hp => h p (by simp [hp]))
  generalize writeEach t n (l.map (fun p => (p.1, plain p.2))) s = u at hs ⊢
  obtain ⟨hfit, hsa⟩ := h (a, v) (by simp)
  obtain ⟨-, -, hv, hsound⟩ := writeSome_spec (s := u) (v := v) hn hfit (hs _ hsa)
  obtain ⟨-, rk, -⟩ := writeEach_kept hn r (writeSome u t a n ⟨v, false⟩) (fun q hq => ⟨(h q (by simp [hq])).1,
    hsound _ (hs _ (h q (by simp [hq])).2)⟩)
  rw [← hv]
  exact congrArg leNat (mread_congr fun b h1 h2 => rk b (fun p hp => by have := hlast p hp; omega))

/-- The panes that a list of stores releases. -/
theorem releaseEach_spec (t n : Nat) (l : List Nat) (s : Chip) :
    onlyTile t s (forEach l (fun q a => releasePanes q t a n) s) ∧
      (getTile (forEach l (fun q a => releasePanes q t a n) s) t).mem = (getTile s t).mem := by
  induction l generalizing s with
  | nil => exact ⟨onlyTile_refl t s, rfl⟩
  | cons a r ih =>
    obtain ⟨ho, hm, -⟩ := releasePanes_spec s t a n
    obtain ⟨ro, rm⟩ := ih (releasePanes s t a n)
    rw [forEach_cons]
    exact ⟨onlyTile_trans ho ro, rm.trans hm⟩

-- Vector loads and stores (R255).

theorem wordSound_within {s : State} {tile a n : Nat} (h : wordsClean s tile a n = true) (ha : a % 8 = 0) {j : Nat}
    (hj : 8 * j + 8 ≤ n) : wordSound (getTile s.chip tile) (a / 8 + j) :=
  wordSound_of_wordsClean h (by omega) (by omega)

theorem keepsSlots_wrV (rd v m : Nat) : keepsSlots (fun x => wrV x rd v m) := fun _ l => ⟨l, rfl⟩

/-- Sound words read as one number. -/
theorem packMarked_readWords {s : Chip} {t a n : Nat} (ha : a % 8 = 0)
    (h : ∀ j, j < n → wordSound (getTile s t) (a / 8 + j)) (fl : List Nat) :
    (readWords s t (a / 8) n).1 = s ∧
      packMarked 64 (readWords s t (a / 8) n).2 fl = ⟨leNat (mread (getTile s t).mem a (8 * n)), 0, fl⟩ := by
  have hmap : (List.range n).map (fun j => plain (cellWord (getTile s t) (a / 8 + j))) =
      ((List.range n).map (fun j => cellWord (getTile s t) (a / 8 + j))).map plain := by
    rw [List.map_map]
    rfl
  rw [readWords_sound h, hmap, packMarked_plain, packLanes_words, show 8 * (a / 8) = a by omega]
  exact ⟨rfl, rfl⟩

theorem vldClause {s : State} {site : Site} {f : FmtRI} (h : issues s.chip site (.vld site f) = true)
    (hc : wordsClean s site.tile (addrRI (strandOf s site) f 64) 256 = true) :
    ∃ t, exec (.vld site f) s = .next t ∧ homeOnly [] site.tile site.strand s t ∧ banksKept s t site.tile 0 0 ∧
      strandOf t site = advance .fall
        (wrV (strandOf s site) f.rd (leNat (bankBytes s site.tile (addrRI (strandOf s site) f 64) 256)) 0) := by
  obtain ⟨-, hal, -⟩ := accessFaults_nil (sound_of_issues h).2.1
  rw [addrRI_holding] at hal
  have ha : addrRI (strandOf s site) f 64 % 8 = 0 := by
    have hal' : addrRI (strandOf s site) f 64 % 64 = 0 := hal
    omega
  have hrec : loneRec s.chip site (.vld site f) = recVld (brought s.chip site (.vld site f)) site.tile site.strand
      (holding (strandOf s site) (.vld site f)) site f := rfl
  obtain ⟨hr₁, hr₂⟩ := packMarked_readWords (s := brought s.chip site (.vld site f)) (t := site.tile) (n := 32) ha
    (fun j hj => wordSound_within hc ha (by omega)) []
  obtain ⟨t, he, ho, hm, hx⟩ := exec_tile h (fun st => ctrBank st site.tile false 4)
    (fun st => modStrand st site.tile site.strand (fun y => wrV y f.rd
      (leNat (bankBytes s site.tile (addrRI (strandOf s site) f 64) 256)) 0))
    (by
      simp only [hrec, recVld, addrRI_holding, hr₁, hr₂]
      rfl)
    (onlyTile_ctrBank ..) (ownEffect_modStrand _ _ _) (keepsSlots_wrV _ _ _) rfl rfl
  exact ⟨t, he, ho, banksKept_of_mem hm, hx⟩

/-- The words of an unmarked register. -/
theorem vecWords_unmarked (v : Nat) : vecWords v 0 = ((List.range 32).map (lane 64 v)).map plain := by
  unfold vecWords plain
  rw [List.map_map]
  refine List.map_congr_left fun j _ => ?_
  simp

theorem rdV_holding (x : Strand) (c : Instr) (i : Nat) : rdV (holding x c) i = rdV x i := rfl

theorem rdVm_holding (x : Strand) (c : Instr) (i : Nat) : rdVm (holding x c) i = rdVm x i := rfl

theorem vstClause {s : State} {site : Site} {f : FmtRI} (h : issues s.chip site (.vst site f) = true)
    (hm : rdVm (strandOf s site) f.rd = 0) :
    ∃ t, exec (.vst site f) s = .next t ∧ homeOnly [] site.tile site.strand s t ∧
      banksKept s t site.tile (addrRI (strandOf s site) f 64) 256 ∧
      leNat (bankBytes t site.tile (addrRI (strandOf s site) f 64) 256) = rdV (strandOf s site) f.rd ∧
      strandOf t site = advance .fall (strandOf s site) := by
  obtain ⟨-, hal, -⟩ := accessFaults_nil (sound_of_issues h).2.1
  rw [addrRI_holding] at hal
  have ha : 8 * (addrRI (strandOf s site) f 64 / 8) = addrRI (strandOf s site) f 64 := by
    have hal' : addrRI (strandOf s site) f 64 % 64 = 0 := hal
    omega
  have hrec : loneRec s.chip site (.vst site f) = recVst (brought s.chip site (.vst site f)) site.tile
      (holding (strandOf s site) (.vst site f)) site f := rfl
  have hw := writeWords_spec (brought s.chip site (.vst site f)) site.tile (addrRI (strandOf s site) f 64 / 8)
    ((List.range 32).map (lane 64 (rdV (strandOf s site) f.rd)))
  rw [ha, packLanes_lanes, List.length_map, List.length_range, Nat.mod_eq_of_lt (rdV_lt _ _)] at hw
  obtain ⟨hro, hrk, hrv⟩ := stores_spec (s := s) (b := brought s.chip site (.vst site f)) (e := fun st => ctrBank
    (writeWords st site.tile (addrRI (strandOf s site) f 64 / 8) (((List.range 32).map (lane 64 (rdV (strandOf s site) f.rd))).map plain))
    site.tile true 4) rfl (counted_spec hw true 4)
  obtain ⟨t, he, ho, hmem, hx⟩ := exec_tile h (fun st => releasePanes (ctrBank
      (writeWords st site.tile (addrRI (strandOf s site) f 64 / 8)
        (((List.range 32).map (lane 64 (rdV (strandOf s site) f.rd))).map plain)) site.tile true 4) site.tile
      (addrRI (strandOf s site) f 64) 256) id
    (by simp only [hrec, recVst, addrRI_holding, rdV_holding, rdVm_holding, hm, vecWords_unmarked, id])
    hro (ownEffect_id _ _) keepsSlots_id rfl rfl
  refine ⟨t, he, ho, fun x hxr => ?_, ?_, hx⟩
  · rw [hmem]
    exact hrk x hxr
  · rw [bankBytes, hmem]
    exact hrv

end Sys2Proof.Proofs
end

section
/-! SUPPORT. Strided vector accesses, and moves between the register files (O14). -/

namespace Sys2Proof.Proofs

open Sys2Proof.Machine

/-- The address of element `j` of a strided access. -/
def strideAt (x : Strand) (f : FmtR3) (j : Nat) : Nat := (rdS x f.ra + j * rdS x f.rb) % 2 ^ 64

theorem strideAddrs_eq (x : Strand) (f : FmtR3) :
    strideAddrs x f = (List.range (2048 / (8 * 2 ^ f.fn))).map (strideAt x f) := rfl

theorem strideAddrs_holding (x : Strand) (c : Instr) (f : FmtR3) : strideAddrs (holding x c) f = strideAddrs x f := rfl

theorem elements_eq (k : Nat) : 2048 / (8 * 2 ^ k) = 256 / 2 ^ k := by
  rw [show 2048 = 8 * 256 by norm_num, Nat.mul_div_mul_left _ _ (by norm_num)]

/-- A strided access that does not fault: its operands are unmarked and its elements aligned within the banks. -/
theorem strideFaults_nil {x : Strand} {f : FmtR3} (h : strideFaults x f = []) {j : Nat} (hj : j < 256 / 2 ^ f.fn) :
    strideAt x f j % 2 ^ f.fn = 0 := by
  unfold strideFaults at h
  split at h
  · cases h
  · rw [List.flatMap_eq_nil_iff] at h
    have hmem : strideAt x f j ∈ strideAddrs x f := by
      rw [strideAddrs_eq, elements_eq]
      exact List.mem_map.2 ⟨j, List.mem_range.2 hj, rfl⟩
    exact (accessFaults_nil (h _ hmem)).2.1

theorem pow_cases {k : Nat} (h : k ≤ 3) : 2 ^ k = 1 ∨ 2 ^ k = 2 ∨ 2 ^ k = 4 ∨ 2 ^ k = 8 := by
  interval_cases k <;> simp

theorem fn_of_vlds {s : Chip} {site : Site} {f : FmtR3} (h : issues s site (.vlds site f) = true) : f.fn ≤ 3 := by
  have hl := (sound_of_issues h).1
  simp only [loneRec, slotRec, recVlds, slotOf, Bool.and_eq_true, decide_eq_true_eq] at hl
  exact hl.2

theorem fn_of_vsts {s : Chip} {site : Site} {f : FmtR3} (h : issues s site (.vsts site f) = true) : f.fn ≤ 3 := by
  have hl := (sound_of_issues h).1
  simp only [loneRec, slotRec, recVsts, slotOf, Bool.and_eq_true, decide_eq_true_eq] at hl
  exact hl.2

/-- Each element of a strided access lies within one sound word. -/
theorem stride_sound {s : State} {site : Site} {f : FmtR3} (hfn : f.fn ≤ 3) (hf : strideFaults (strandOf s site) f = [])
    (hc : ∀ j, j < 256 / 2 ^ f.fn → wordsClean s site.tile (strideAt (strandOf s site) f j) (2 ^ f.fn) = true) {j : Nat}
    (hj : j < 256 / 2 ^ f.fn) : strideAt (strandOf s site) f j % 8 + 2 ^ f.fn ≤ 8 ∧
      wordSound (getTile s.chip site.tile) (strideAt (strandOf s site) f j / 8) := by
  obtain ⟨hn, hfit⟩ := within_word (pow_cases hfn) (strideFaults_nil hf hj)
  exact ⟨hfit, wordSound_first (hc j hj) hn⟩

/-- A vector register written with packed unmarked elements. -/
theorem lanesAre_wrV (x : Strand) (rd : Nat) {w : Nat} (hw : w ∣ 2048) (g : Nat → Nat) :
    lanesAre (advance .fall (wrV x rd (packLanes w ((List.range (2048 / w)).map g)) 0)) x rd w 0 g := by
  have hl := lanesAre_vecMap x rd hw (Nat.two_pow_pos 32) 0 (fun j => (g j, 0)) []
  have hv : (vecMap w 0 0 (fun j => (g j, 0))).v = packLanes w ((List.range (2048 / w)).map g) := by
    simp only [vecMap, List.map_map]
    congr 1
    refine List.map_congr_left fun j _ => ?_
    simp [laneMark]
  have hm : (vecMap w 0 0 (fun j => (g j, 0))).m = 0 := rfl
  rw [← hv]
  exact hl

theorem vldsClause {s : State} {site : Site} {f : FmtR3} (h : issues s.chip site (.vlds site f) = true)
    (hc : ∀ j, j < 256 / 2 ^ f.fn → wordsClean s site.tile (strideAt (strandOf s site) f j) (2 ^ f.fn) = true) :
    ∃ t, exec (.vlds site f) s = .next t ∧ homeOnly [] site.tile site.strand s t ∧ banksKept s t site.tile 0 0 ∧
      lanesAre (strandOf t site) (strandOf s site) f.rd (8 * 2 ^ f.fn) 0
        (fun j => leNat (bankBytes s site.tile (strideAt (strandOf s site) f j) (2 ^ f.fn))) ∧
      (strandOf t site).pc = (advance .fall (strandOf s site)).pc := by
  have hf : strideFaults (strandOf s site) f = [] := (sound_of_issues h).2.1
  have hfn := fn_of_vlds h
  have hrec : loneRec s.chip site (.vlds site f) = recVlds (brought s.chip site (.vlds site f)) site.tile site.strand
      (holding (strandOf s site) (.vlds site f)) site f := rfl
  have hr := readEach_sound (s := brought s.chip site (.vlds site f)) (t := site.tile) (n := 2 ^ f.fn)
    (l := strideAddrs (strandOf s site) f) (by
      intro a ha
      rw [strideAddrs_eq, elements_eq] at ha
      obtain ⟨j, hj, rfl⟩ := List.mem_map.1 ha
      exact stride_sound hfn hf hc (List.mem_range.1 hj))
  have hl : (strideAddrs (strandOf s site) f).map (fun a =>
      leNat (mread (getTile (brought s.chip site (.vlds site f)) site.tile).mem a (2 ^ f.fn))) =
      (List.range (2048 / (8 * 2 ^ f.fn))).map
        (fun j => leNat (bankBytes s site.tile (strideAt (strandOf s site) f j) (2 ^ f.fn))) := by
    rw [strideAddrs_eq, List.map_map]
    rfl
  rw [hl] at hr
  obtain ⟨t, he, ho, hm, hx⟩ := exec_tile h
    (fun st => ctrBank st site.tile false (linesOf (strideAddrs (strandOf s site) f)))
    (fun st => modStrand st site.tile site.strand (fun y => wrV y f.rd (packLanes (8 * 2 ^ f.fn)
      ((List.range (2048 / (8 * 2 ^ f.fn))).map
        (fun j => leNat (bankBytes s site.tile (strideAt (strandOf s site) f j) (2 ^ f.fn))))) 0))
    (by
      simp only [hrec, recVlds, strideAddrs_holding, hr, packMarked_plain])
    (onlyTile_ctrBank ..) (ownEffect_modStrand _ _ _) (keepsSlots_wrV _ _ _) rfl rfl
  have hw : 8 * 2 ^ f.fn ∣ 2048 := by
    rcases pow_cases hfn with e | e | e | e <;> rw [e] <;> norm_num
  exact ⟨t, he, ho, banksKept_of_mem hm, by rw [hx]; exact lanesAre_wrV _ _ hw _, by rw [hx]; rfl⟩

/-- The elements that a strided store writes, with their addresses. -/
def strideElems (x : Strand) (f : FmtR3) : List (Nat × Nat) :=
  (List.range (256 / 2 ^ f.fn)).map (fun j => (strideAt x f j, lane (8 * 2 ^ f.fn) (rdV x f.rd) j))

/-- What a strided store does to its tile: the elements in ascending order, the count, and the panes that it releases. -/
def storesEach (x : Strand) (f : FmtR3) (tile : Nat) (s : Chip) : Chip :=
  forEach (strideAddrs x f) (fun q a => releasePanes q tile a (2 ^ f.fn))
    (ctrBank (writeEach tile (2 ^ f.fn) ((strideElems x f).map (fun p => (p.1, plain p.2))) s) tile true
      (linesOf (strideAddrs x f)))

theorem vsts_eff {s : State} {site : Site} {f : FmtR3} (hm : rdVm (strandOf s site) f.rd = 0) :
    (loneRec s.chip site (.vsts site f)).eff = storesEach (strandOf s site) f site.tile := by
  have hrec : loneRec s.chip site (.vsts site f) = recVsts (brought s.chip site (.vsts site f)) site.tile
      (holding (strandOf s site) (.vsts site f)) site f := rfl
  have hzip : (strideAddrs (strandOf s site) f).zip ((List.range (strideAddrs (strandOf s site) f).length).map (fun j =>
      (⟨if laneMark (8 * 2 ^ f.fn) 0 j then 0 else lane (8 * 2 ^ f.fn) (rdV (strandOf s site) f.rd) j,
        laneMark (8 * 2 ^ f.fn) 0 j⟩ : Elem))) = (strideElems (strandOf s site) f).map (fun p => (p.1, plain p.2)) := by
    rw [strideAddrs_eq, List.length_map, List.length_range, List.zip_map', elements_eq, strideElems, List.map_map]
    refine List.map_congr_left fun j _ => ?_
    simp [laneMark, plain]
  funext st
  simp only [hrec, recVsts, strideAddrs_holding, rdV_holding, rdVm_holding, hm, hzip, storesEach]

/-- The elements before one of a strided store, and those after it. -/
theorem strideElems_split (x : Strand) (f : FmtR3) {j : Nat} (hj : j < 256 / 2 ^ f.fn) :
    strideElems x f = (List.range j).map (fun k => (strideAt x f k, lane (8 * 2 ^ f.fn) (rdV x f.rd) k)) ++
      (strideAt x f j, lane (8 * 2 ^ f.fn) (rdV x f.rd) j) ::
      (List.range (256 / 2 ^ f.fn - j - 1)).map
        (fun k => (strideAt x f (j + 1 + k), lane (8 * 2 ^ f.fn) (rdV x f.rd) (j + 1 + k))) := by
  have hr : List.range (256 / 2 ^ f.fn) = List.range j ++ j :: (List.range (256 / 2 ^ f.fn - j - 1)).map (j + 1 + ·) := by
    conv_lhs => rw [show 256 / 2 ^ f.fn = j + 1 + (256 / 2 ^ f.fn - j - 1) by omega, List.range_add, List.range_succ]
    simp
  unfold strideElems
  rw [hr]
  simp only [List.map_append, List.map_cons, List.map_map, Function.comp_def]

/-- Two elements aligned to their size are one or lie apart. -/
theorem apart_of_aligned {n a b : Nat} (ha : a % n = 0) (hb : b % n = 0) (hne : a ≠ b) :
    a + n ≤ b ∨ b + n ≤ a := by
  obtain ⟨x, rfl⟩ := Nat.dvd_of_mod_eq_zero ha
  obtain ⟨y, rfl⟩ := Nat.dvd_of_mod_eq_zero hb
  rcases Nat.lt_or_gt_of_ne (fun e : x = y => hne (by rw [e])) with h | h
  · exact .inl (by nlinarith [Nat.mul_le_mul_left n h])
  · exact .inr (by nlinarith [Nat.mul_le_mul_left n h])

theorem vstsClause {s : State} {site : Site} {f : FmtR3} (h : issues s.chip site (.vsts site f) = true)
    (hm : rdVm (strandOf s site) f.rd = 0)
    (hc : ∀ j, j < 256 / 2 ^ f.fn → wordsClean s site.tile (strideAt (strandOf s site) f j) (2 ^ f.fn) = true) :
    ∃ t, exec (.vsts site f) s = .next t ∧ homeOnly [] site.tile site.strand s t ∧
      (∀ b, (∀ j, j < 256 / 2 ^ f.fn → b < strideAt (strandOf s site) f j ∨ strideAt (strandOf s site) f j + 2 ^ f.fn ≤ b) →
        mget (getTile t.chip site.tile).mem b = mget (getTile s.chip site.tile).mem b) ∧
      (∀ j, j < 256 / 2 ^ f.fn → (∀ k, j < k → k < 256 / 2 ^ f.fn → strideAt (strandOf s site) f k ≠ strideAt (strandOf s site) f j) →
        leNat (bankBytes t site.tile (strideAt (strandOf s site) f j) (2 ^ f.fn)) =
          lane (8 * 2 ^ f.fn) (rdV (strandOf s site) f.rd) j) ∧
      strandOf t site = advance .fall (strandOf s site) := by
  have hf : strideFaults (strandOf s site) f = [] := (sound_of_issues h).2.1
  have hfn := fn_of_vsts h
  have hn : 0 < 2 ^ f.fn := Nat.two_pow_pos _
  have hsound : ∀ p ∈ strideElems (strandOf s site) f, p.1 % 8 + 2 ^ f.fn ≤ 8 ∧
      wordSound (getTile (brought s.chip site (.vsts site f)) site.tile) (p.1 / 8) := by
    intro p hp
    obtain ⟨j, hj, rfl⟩ := List.mem_map.1 hp
    exact stride_sound hfn hf hc (List.mem_range.1 hj)
  obtain ⟨hwo, hwk, -⟩ := writeEach_kept hn _ (brought s.chip site (.vsts site f)) hsound
  obtain ⟨hro, hrm⟩ := releaseEach_spec site.tile (2 ^ f.fn) (strideAddrs (strandOf s site) f)
    (ctrBank (writeEach site.tile (2 ^ f.fn) ((strideElems (strandOf s site) f).map (fun p => (p.1, plain p.2)))
      (brought s.chip site (.vsts site f))) site.tile true (linesOf (strideAddrs (strandOf s site) f)))
  obtain ⟨t, he, ho, hmem, hx⟩ := exec_tile h (storesEach (strandOf s site) f site.tile) id (by rw [vsts_eff hm, id])
    (onlyTile_trans (onlyTile_trans hwo (onlyTile_ctrBank ..)) hro) (ownEffect_id _ _) keepsSlots_id rfl rfl
  rw [storesEach, hrm] at hmem
  refine ⟨t, he, ho, fun b hb => ?_, fun j hj hlast => ?_, hx⟩
  · rw [hmem, getTile_ctrBank, hwk b ?_]
    · rfl
    · intro p hp
      obtain ⟨j, hj, rfl⟩ := List.mem_map.1 hp
      exact hb j (List.mem_range.1 hj)
  · have hsplit := strideElems_split (strandOf s site) f hj
    rw [hsplit] at hsound
    rw [bankBytes, hmem, getTile_ctrBank, hsplit, writeEach_last hn _ hsound]
    · exact Nat.mod_mod ..
    · intro p hp
      obtain ⟨k, hk, rfl⟩ := List.mem_map.1 hp
      have hkr := List.mem_range.1 hk
      exact apart_of_aligned (strideFaults_nil hf (by omega)) (strideFaults_nil hf hj) (hlast _ (by omega) (by omega))

theorem vectorMemory : Clauses.VectorMemory := by
  intro s site x
  exact ⟨fun f h hc => vldClause h hc, fun f h hm => vstClause h hm, fun f h hc => vldsClause h hc,
    fun f h hm hc => vstsClause h hm hc⟩

-- Moves between the register files (R256).

theorem lane_eq_bitsOf (v j : Nat) : lane 64 v j = bitsOf v (64 * j + 63) (64 * j) := by
  rw [bitsOf_eq, show 64 * j + 63 + 1 - 64 * j = 64 by omega]
  rfl

theorem lane_mod {v j n : Nat} (h : 64 * j + 64 ≤ n) : lane 64 (v % 2 ^ n) j = lane 64 v j := by
  obtain ⟨k, rfl⟩ : ∃ k, n = 64 * j + (64 + k) := ⟨n - 64 * j - 64, by omega⟩
  unfold lane
  rw [pow_add, Nat.mod_mul_right_div_self, Nat.mod_mod_of_dvd _ (pow_dvd_pow 2 (by omega))]

theorem testBit_setBits (x j : Nat) (b : Bool) : (setBits x j j (b2n b)).testBit j = b := by
  have h := bitsOf_setBits_same x j j (b2n b) (le_refl _)
  rw [bitsOf_eq, show j + 1 - j = 1 by omega, pow_one] at h
  rw [Nat.testBit_eq_decide_div_mod_eq, h]
  cases b <;> rfl

theorem testBit_mod {x j n : Nat} (h : j < n) : (x % 2 ^ n).testBit j = x.testBit j := by
  rw [Nat.testBit_mod_two_pow, decide_eq_true h, Bool.true_and]

/-- One lane of a v register replaced, with its mark. -/
def withLane (x : Strand) (rd j v : Nat) (pz : Bool) : VRes :=
  ⟨setBits (rdV x rd) (64 * j + 63) (64 * j) v, setBits (rdVm x rd) j j (b2n pz), pzIf pz⟩

theorem mvsvClause {s : State} {site : Site} {f : FmtR3} (h : issues s.chip site (.mvsv site f) = true)
    (hm : rdSm (strandOf s site) f.rb = false) :
    ∃ t, exec (.mvsv site f) s = .next t ∧ strandOnly [aARITH_EVENTS] site.tile site.strand s t ∧
      lane 64 (rdV (strandOf t site) f.rd) (rdS (strandOf s site) f.rb % 32) = rdS (strandOf s site) f.ra ∧
      (∀ j, j < 32 → j ≠ rdS (strandOf s site) f.rb % 32 →
        lane 64 (rdV (strandOf t site) f.rd) j = lane 64 (rdV (strandOf s site) f.rd) j) ∧
      (rdVm (strandOf t site) f.rd).testBit (rdS (strandOf s site) f.rb % 32) = rdSm (strandOf s site) f.ra ∧
      (strandOf t site).pc = (advance .fall (strandOf s site)).pc := by
  have hlt : rdS (strandOf s site) f.rb % 32 < 32 := Nat.mod_lt _ (by norm_num)
  have hrec : loneRec s.chip site (.mvsv site f) = recMvsv site.tile site.strand
      (holding (strandOf s site) (.mvsv site f)) site f := rfl
  have heff : (loneRec s.chip site (.mvsv site f)).eff = putV site.tile site.strand f.rd
      (withLane (strandOf s site) f.rd (rdS (strandOf s site) f.rb % 32) (rdS (strandOf s site) f.ra)
        (rdSm (strandOf s site) f.ra)) := by
    simp only [hrec, recMvsv, rdS_holding, rdSm_holding, rdV_holding, rdVm_holding, hm, Bool.false_eq_true, if_false,
      Bool.false_or]
    rfl
  obtain ⟨t, he, ho, hx⟩ := exec_putV h rfl rfl heff
  refine ⟨t, he, ho, ?_, fun j hj hne => ?_, ?_, by rw [hx]; rfl⟩
  · rw [hx, rdV_advance, rdV_tookV_same, lane_mod (by omega), lane_eq_bitsOf, withLane,
      bitsOf_setBits_same _ _ _ _ (by omega)]
    exact Nat.mod_eq_of_lt (lt_of_lt_of_eq (rdS_lt _ _) (by congr 1; omega))
  · rw [hx, rdV_advance, rdV_tookV_same, lane_mod (by omega), lane_eq_bitsOf, withLane,
      bitsOf_setBits_other _ _ _ _ _ _ (by omega) (by omega) (by omega), lane_eq_bitsOf]
  · rw [hx, rdVm_advance, rdVm_tookV_same, testBit_mod hlt, withLane, testBit_setBits]

theorem lanesAre_congr {y x : Strand} {rd w m : Nat} {g g' : Nat → Nat} (h : lanesAre y x rd w m g)
    (hg : ∀ j, g j % 2 ^ w = g' j % 2 ^ w) : lanesAre y x rd w m g' := by
  obtain ⟨hm, hl, ho⟩ := h
  exact ⟨hm, fun j hj hk => (hl j hj hk).trans (hg j), ho⟩

theorem vbcClause {s : State} {site : Site} {f : FmtR3} (h : issues s.chip site (.vbc site f) = true)
    (hm : rdSm (strandOf s site) f.ra = false) :
    ∃ t, exec (.vbc site f) s = .next t ∧ strandOnly [aARITH_EVENTS] site.tile site.strand s t ∧
      lanesAre (strandOf t site) (strandOf s site) f.rd (2 ^ (8 - f.fn)) 0 (fun _ => rdS (strandOf s site) f.ra) := by
  have hrec : loneRec s.chip site (.vbc site f) = recVbc site.tile site.strand
      (holding (strandOf s site) (.vbc site f)) site f := rfl
  have heff : (loneRec s.chip site (.vbc site f)).eff = putV site.tile site.strand f.rd
      (vecMap (2 ^ (8 - f.fn)) 0 0 (fun _ => (rdS (strandOf s site) f.ra % 2 ^ 2 ^ (8 - f.fn), 0))) := by
    simp only [hrec, recVbc, rdS_holding, rdSm_holding, hm, Bool.false_eq_true, if_false]
  have hw : 2 ^ (8 - f.fn) ∣ 2048 := by
    rw [show 2048 = 2 ^ 11 by norm_num]
    exact pow_dvd_pow 2 (by omega)
  obtain ⟨t, he, ho, hl, -⟩ := exec_vecMap h heff hw (by norm_num) rfl rfl
  exact ⟨t, he, ho, lanesAre_congr hl (fun _ => Nat.mod_mod _ _)⟩

theorem registerMoves : Clauses.RegisterMoves := by
  intro s site x
  exact ⟨fun f h hm => mvsvClause h hm, fun f h => exec_putS h rfl rfl rfl, fun f h hm => vbcClause h hm,
    fun f h => exec_putV h rfl rfl rfl⟩

/-- Settles O14: loads and stores by the bytes of sound words, moves by the lanes of a register. -/
theorem vectorMemoryAndMoves : Obligations.VectorMemoryAndMoves := ⟨vectorMemory, registerMoves⟩

end Sys2Proof.Proofs
end

section
/-! SUPPORT. A register written in two halves (O26). -/

namespace Sys2Proof.Proofs

open Sys2Proof.Machine

/-- Only the last write of a key counts. -/
theorem tset_tset {α : Type} [DecidableEq α] (d : Nat → α) (k : Nat) (v w : α) (t : Tab α) :
    tset d k v (tset d k w t) = tset d k v t := by
  have h : tdel k (tset d k w t) = tdel k t := by
    unfold tset
    split
    · exact tdel_of_no_key k _ (tdel_keys k t)
    · exact tdel_tput k w _ (tdel_keys k t)
  unfold tset at h ⊢
  rw [h]

theorem setHold_setHold (s : Chip) (fn a : Nat) (v w : Option Nat) : setHold (setHold s fn a w) fn a v = setHold s fn a v := by
  simp only [setHold, tset_tset]

theorem setLatch_setLatch (s : Chip) (fn a : Nat) (v w : Option Nat) :
    setLatch (setLatch s fn a w) fn a v = setLatch s fn a v := by
  simp only [setLatch, tset_tset]

theorem setLatch_setHold (s : Chip) (fn a : Nat) (v w : Option Nat) :
    setLatch (setHold s fn a w) fn a v = setHold (setLatch s fn a v) fn a w := rfl

theorem setHold_hold (s : Chip) (fn a : Nat) (v : Option Nat) :
    tget (fun _ => none) (setHold s fn a v).hold (barKey fn a) = v := tget_tset_same _ _ _ _

/-- The first half of a register that answers: it is held, and the read latch is emptied. -/
theorem barWrite_lowHalf {s : Chip} {fn addr : Nat} {r : RegRow} (ha : addr % 8 = 0) (hr : barRow s fn addr = some r)
    {lo : Word} (hlo : lo.toNat < 2 ^ 32) :
    barWrite s fn addr 4 lo = .next (setHold (setLatch s fn addr none) fn addr (some lo.toNat)) := by
  have hok : accessOk addr 4 = true := by simp [accessOk]; omega
  simp only [barWrite, show addr / 8 * 8 = addr by omega, hok, if_true, hr, ha, Nat.mod_eq_of_lt hlo, beq_self_eq_true,
    show (4 == 8) = false by rfl, Bool.false_eq_true, if_false]

/-- A whole write of a register that answers. -/
theorem barWrite_whole {s : Chip} {fn addr : Nat} {r : RegRow} (ha : addr % 8 = 0) (hr : barRow s fn addr = some r)
    (v : Word) : barWrite s fn addr 8 v = regWrite (setHold (setLatch s fn addr none) fn addr none) fn addr r v.toNat true := by
  have hok : accessOk addr 8 = true := by simp [accessOk]; omega
  simp only [barWrite, show addr / 8 * 8 = addr by omega, hok, if_true, hr, beq_self_eq_true]

/-- The second half of a register whose first half is held. -/
theorem barWrite_highHalf {s : Chip} {fn addr : Nat} {r : RegRow} (ha : addr % 8 = 0) (hr : barRow s fn addr = some r)
    {lo : Nat} (hlo : tget (fun _ => none) s.hold (barKey fn addr) = some lo) {hi : Word} (hhi : hi.toNat < 2 ^ 32) :
    barWrite s fn (addr + 4) 4 hi =
      regWrite (setHold (setLatch s fn addr none) fn addr none) fn addr r (hi.toNat * 2 ^ 32 + lo) true := by
  have hok : accessOk (addr + 4) 4 = true := by simp [accessOk]; omega
  have hodd : ((addr + 4) % 8 == 0) = false := by simp; omega
  simp only [barWrite, show (addr + 4) / 8 * 8 = addr by omega, hok, if_true, hr, hodd, hlo, Nat.mod_eq_of_lt hhi,
    show (4 == 8) = false by rfl, Bool.false_eq_true, if_false]

/-- Settles O26: the first half is held, and the second makes the write that the whole value makes. -/
theorem halvesMakeAWhole : Obligations.HalvesMakeAWhole := by
  intro s fn addr lo hi hfn ha hlo hhi
  cases hr : barRow s.chip fn addr with
  | none =>
    have hw := barWrite_refused (s := s.chip) (fn := fn) (addr := addr) (size := 4)
      (.inr (by rwa [show addr / 8 * 8 = addr by omega])) lo
    exact ⟨_, exec_registerWrite hfn hw, fun k hk => barGet_fset_other _ _ _ _ hk, fun h => by simp at h⟩
  | some r =>
    refine ⟨_, exec_registerWrite hfn (barWrite_lowHalf ha hr hlo), fun _ _ => rfl, fun _ => ⟨rfl, fun u hu => ?_⟩⟩
    have hv : (BitVec.ofNat 64 (hi.toNat * 2 ^ 32 + lo.toNat)).toNat = hi.toNat * 2 ^ 32 + lo.toNat := by
      rw [BitVec.toNat_ofNat]
      exact Nat.mod_eq_of_lt (by omega)
    have hwhole := barWrite_whole (s := setHold s.chip fn addr none) ha hr (BitVec.ofNat 64 (hi.toNat * 2 ^ 32 + lo.toNat))
    have hhalf := barWrite_highHalf (s := setHold (setLatch s.chip fn addr none) fn addr (some lo.toNat)) ha hr
      (setHold_hold _ _ _ _) hhi
    rw [setLatch_setHold, setHold_setHold] at hwhole hhalf
    rw [setLatch_setLatch] at hhalf
    rw [hv] at hwhole
    obtain ⟨c, hc, rfl⟩ := onChip_cases hu
    rw [cmdRegisterWrite, if_pos hfn, hwhole] at hc
    exact exec_registerWrite hfn (hhalf.trans hc)

end Sys2Proof.Proofs
end

section
/-! SUPPORT. Frames over parts of the block; flits sent again, governor frames and bank upkeep (O28). -/

namespace Sys2Proof.Proofs

open Sys2Proof.Machine

-- Frames over parts of the block.

/-- `put u s` is `s` with some parts of the block taken from `u`: what `chipOnly` lets differ beside registers. -/
structure Parts (put : Chip → Chip → Chip) : Prop where
  again : ∀ s u v b, { put v { put u s with bar := b } with bar := v.bar } = { put v s with bar := v.bar }
  none : ∀ s b, { put { s with bar := b } s with bar := b } = { s with bar := b }

/-- Nothing but the parts that `put` takes and the registers at the keys listed differ. -/
def within (put : Chip → Chip → Chip) (ks : List Nat) (s u : Chip) : Prop :=
  u = { put u s with bar := u.bar } ∧ ∀ k, k ∉ ks → barGet u k = barGet s k

section
variable {put : Chip → Chip → Chip} {ks : List Nat} {s u v : Chip}

theorem within_bar (hp : Parts put) (h : onlyBar ks s u) : within put ks s u := by
  obtain ⟨hu, hb⟩ := h
  refine ⟨?_, hb⟩
  have hn := hp.none s u.bar
  rw [← hu] at hn
  exact hn.symm

theorem within_refl (hp : Parts put) : within put ks s s := within_bar hp (onlyBar_refl ks s)

theorem within_trans (hp : Parts put) (h : within put ks s u) (g : within put ks u v) : within put ks s v := by
  obtain ⟨hu, hb⟩ := h
  obtain ⟨hv, gb⟩ := g
  refine ⟨?_, fun k n => (gb k n).trans (hb k n)⟩
  rw [hu, hp.again] at hv
  exact hv

theorem within_then (hp : Parts put) (h : within put ks s u) (g : onlyBar ks u v) : within put ks s v :=
  within_trans hp h (within_bar hp g)

theorem within_ite {c : Prop} [Decidable c] (h : within put ks s u) (g : within put ks s v) :
    within put ks s (if c then u else v) := by
  split
  · exact h
  · exact g

theorem within_mono {ks' : List Nat} (hk : ∀ k, k ∈ ks → k ∈ ks') (h : within put ks s u) : within put ks' s u :=
  ⟨h.1, fun k n => h.2 k (fun e => n (hk k e))⟩

theorem chipOnly_of_within {st : State} (h : within put ks st.chip u) : chipOnly ks st { st with chip := u } (put u) := by
  obtain ⟨hu, hb⟩ := h
  exact ⟨congrArg (fun c => ({ st with chip := c } : State)) hu, hb⟩

end

theorem onlyBar_mono {ks ks' : List Nat} {s u : Chip} (hk : ∀ k, k ∈ ks → k ∈ ks') (h : onlyBar ks s u) : onlyBar ks' s u :=
  ⟨h.1, fun k n => h.2 k (fun e => n (hk k e))⟩

theorem regsOnly_of_onlyBar {ks : List Nat} {st : State} {u : Chip} (h : onlyBar ks st.chip u) :
    regsOnly ks st { st with chip := u } := by
  obtain ⟨hu, hb⟩ := h
  exact ⟨congrArg (fun c => ({ st with chip := c } : State)) hu, hb⟩

-- Flits sent again (R42, R48).

/-- The mesh's state. -/
def putMesh (u s : Chip) : Chip := { s with mesh := u.mesh }

theorem parts_mesh : Parts putMesh := ⟨fun _ _ _ _ => rfl, fun _ _ => rfl⟩

theorem within_meshMod (ks : List Nat) (s : Chip) (f : MeshS → MeshS) : within putMesh ks s (meshMod s f) :=
  ⟨rfl, fun _ _ => rfl⟩

/-- The registers that a flit sent again may count in. -/
def flitRegs : List Nat := [aMESH_STATUS, aRAS_LINKMARK]

theorem markLink_within (s : Chip) (n : Nat) (l : Link) : within putMesh flitRegs s (markLink s n l) := by
  have hdue : ∀ st : Chip, within putMesh flitRegs st
      (meshMod (fsat st aRAS_LINKMARK 63 32 1) (fun m => { m with due := m.due ++ [n] })) := fun st =>
    within_trans parts_mesh (within_bar parts_mesh (onlyBar_fsat _ _ _ _ (by simp [flitRegs]))) (within_meshMod ..)
  have hm := within_meshMod flitRegs s (fun m => { m with marked := tmark m.marked n true })
  unfold markLink
  refine within_ite (within_refl parts_mesh) ?_
  cases l with
  | knuckle y => exact within_ite hm (within_trans parts_mesh hm (hdue _))
  | edge x => exact within_trans parts_mesh (within_then parts_mesh hm (onlyBar_fset _ _ _ _ (by simp [flitRegs]))) (hdue _)
  | die t => exact within_then parts_mesh hm (onlyBar_fsat _ _ _ _ (by simp [flitRegs]))
  | none => exact within_then parts_mesh hm (onlyBar_fsat _ _ _ _ (by simp [flitRegs]))

theorem fget_of_barGet {s u : Chip} {k : Nat} (h : barGet u k = barGet s k) (hi lo : Nat) : fget u k hi lo = fget s k hi lo := by
  unfold fget
  rw [h]

/-- A field of a register that a change leaves alone. -/
theorem fget_of_onlyBar {ks : List Nat} {s u : Chip} (h : onlyBar ks s u) {k : Nat} (n : k ∉ ks) (hi lo : Nat) :
    fget u k hi lo = fget s k hi lo := fget_of_barGet (h.2 k n) hi lo

@[simp] theorem fget_meshMod (s : Chip) (f : MeshS → MeshS) (k hi lo : Nat) : fget (meshMod s f) k hi lo = fget s k hi lo := rfl

theorem mesh_of_onlyBar {ks : List Nat} {s u : Chip} (h : onlyBar ks s u) : u.mesh = s.mesh := by rw [h.1]

@[simp] theorem fsat_mesh (s : Chip) (k hi lo n : Nat) : (fsat s k hi lo n).mesh = s.mesh :=
  mesh_of_onlyBar (onlyBar_fsat (ks := [k]) s hi lo n (List.mem_singleton_self k))

@[simp] theorem fset_mesh (s : Chip) (k hi lo v : Nat) : (fset s k hi lo v).mesh = s.mesh :=
  mesh_of_onlyBar (onlyBar_fset (ks := [k]) s hi lo v (List.mem_singleton_self k))

theorem markLink_fails (s : Chip) (n : Nat) (l : Link) : (markLink s n l).mesh.fails = s.mesh.fails := by
  unfold markLink
  split
  · rfl
  · cases l
    case knuckle y =>
      simp only
      split <;> simp [meshMod]
    all_goals simp [meshMod]

/-- A link that is marked stays so, and one that is not gets its mark. -/
theorem markLink_marked (s : Chip) (n : Nat) (l : Link) : tmem (markLink s n l).mesh.marked n = true := by
  unfold markLink
  split
  · next h => exact h
  · cases l
    case knuckle y =>
      simp only
      split <;> simp [meshMod]
    all_goals simp [meshMod]

theorem fget_markLink (s : Chip) (n : Nat) (l : Link) : fget (markLink s n l) aMESH_STATUS 15 0 = fget s aMESH_STATUS 15 0 := by
  have hne : aMESH_STATUS ≠ aRAS_LINKMARK := by decide
  unfold markLink
  split
  · rfl
  · cases l
    case knuckle y =>
      simp only
      split
      · rfl
      · rw [fget_meshMod, fget_fsat_other _ _ _ _ _ _ hne, fget_meshMod]
    case edge x =>
      rw [fget_meshMod, fget_fsat_other _ _ _ _ _ _ hne, fget_fset_field _ _ _ _ _ _ _ (by omega) (by omega) (by omega) (by omega),
        fget_meshMod]
    all_goals rw [fget_fsat_other _ _ _ _ _ _ hne, fget_meshMod]

/-- The times running that a link has failed, with this one. -/
def flitFails (s : Chip) (link : Nat) (again : Bool) : Nat := if again then tget (fun _ => 0) s.mesh.fails link + 1 else 1

/-- A flit sent again, counted and its link marked, before a failure of the die. -/
def flitCounted (s : Chip) (link : Nat) (again : Bool) : Chip :=
  let n := flitFails s link again
  let s1 := fsat s aMESH_STATUS 15 0 1
  let s2 := match linkOf link with
    | .edge _ => fsat s1 aRAS_LINKMARK 31 0 1
    | _ => s1
  let s3 := meshMod s2 (fun m => { m with fails := tset (fun _ => 0) link n m.fails })
  if 2 ≤ n then markLink s3 link (linkOf link) else s3

/-- A flit sent again, by the kind of its link. -/
theorem exec_meshFlitResend {s : State} {link : Nat} (again : Bool) (h : linkOf link ≠ .none) :
    exec (.meshFlitResend link again) s = .next { s with chip := match linkOf link with
      | .die t => if 64 ≤ flitFails s.chip link again then fatal (flitCounted s.chip link again) 2 t
        else flitCounted s.chip link again
      | _ => flitCounted s.chip link again } := by
  change onChip s (cmdMeshFlitResend link again) = _
  unfold onChip cmdMeshFlitResend flitCounted flitFails
  cases hl : linkOf link with
  | none => exact absurd hl h
  | _ => rfl

theorem flitCounted_spec (s : Chip) (link : Nat) (again : Bool) :
    within putMesh flitRegs s (flitCounted s link again) ∧
      fget (flitCounted s link again) aMESH_STATUS 15 0 = min (fget s aMESH_STATUS 15 0 + 1) (2 ^ 16 - 1) ∧
      tget (fun _ => 0) (flitCounted s link again).mesh.fails link = flitFails s link again ∧
      tmem (flitCounted s link again).mesh.marked link = (tmem s.mesh.marked link || decide (2 ≤ flitFails s link again)) := by
  have hne : aMESH_STATUS ≠ aRAS_LINKMARK := by decide
  have hs2 : ∃ s2, (match linkOf link with
        | .edge _ => fsat (fsat s aMESH_STATUS 15 0 1) aRAS_LINKMARK 31 0 1
        | _ => fsat s aMESH_STATUS 15 0 1) = s2 ∧ onlyBar flitRegs s s2 ∧
      fget s2 aMESH_STATUS 15 0 = min (fget s aMESH_STATUS 15 0 + 1) (2 ^ 16 - 1) := by
    have h1 : onlyBar flitRegs s (fsat s aMESH_STATUS 15 0 1) := onlyBar_fsat _ _ _ _ (by simp [flitRegs])
    have h2 := fget_fsat_same s aMESH_STATUS 15 0 1 (by omega) (by omega)
    refine ⟨_, rfl, ?_⟩
    split
    · exact ⟨onlyBar_trans h1 (onlyBar_fsat _ _ _ _ (by simp [flitRegs])), (fget_fsat_other _ _ _ _ _ _ hne).trans h2⟩
    · exact ⟨h1, h2⟩
  obtain ⟨s2, hs2, hbar, hcount⟩ := hs2
  have hmesh := mesh_of_onlyBar hbar
  have hfr := within_trans parts_mesh (within_bar parts_mesh hbar)
    (within_meshMod flitRegs s2 (fun m => { m with fails := tset (fun _ => 0) link (flitFails s link again) m.fails }))
  unfold flitCounted
  simp only [hs2]
  split
  · next h2 =>
    refine ⟨within_trans parts_mesh hfr (markLink_within ..), ?_, ?_, ?_⟩
    · rw [fget_markLink, fget_meshMod, hcount]
    · rw [markLink_fails]
      exact tget_tset_same ..
    · rw [markLink_marked, decide_eq_true h2, Bool.or_true]
  · next h2 =>
    refine ⟨hfr, ?_, tget_tset_same .., ?_⟩
    · rw [fget_meshMod, hcount]
    · rw [decide_eq_false h2, Bool.or_false]
      simp only [meshMod, hmesh]

/-- What a fatal error leaves in the stage and in RAS_STATUS (R601, R637). -/
theorem fatal_regs (s : Chip) (src t : Nat) :
    fget (fatal s src t) aSEC_STATUS 3 0 = 0xF ∧ fbit (fatal s src t) aRAS_STATUS 63 = true ∧
      fget (fatal s src t) aRAS_STATUS 59 56 = src % 16 ∧ fget (fatal s src t) aRAS_STATUS 55 48 = t % 256 := by
  have hne : aSEC_STATUS ≠ aRAS_STATUS := by decide
  unfold fatal
  refine ⟨?_, ?_, ?_, fget_fset_same _ _ 55 48 t (by omega) (by omega)⟩
  · rw [fget_fset_other _ _ _ _ _ _ hne, fget_fset_other _ _ _ _ _ _ hne, fsetb, fget_fset_other _ _ _ _ _ _ hne]
    exact fget_fset_same _ _ 3 0 0xF (by omega) (by omega)
  · unfold fbit
    rw [fget_fset_field _ _ _ _ _ _ _ (by omega) (by omega) (by omega) (by omega),
      fget_fset_field _ _ _ _ _ _ _ (by omega) (by omega) (by omega) (by omega)]
    exact fbit_fsetb_same _ _ 63 true (by omega)
  · rw [fget_fset_field _ _ _ _ _ _ _ (by omega) (by omega) (by omega) (by omega)]
    exact fget_fset_same _ _ 59 56 src (by omega) (by omega)

theorem flitResends : Clauses.FlitResends := by
  intro s link again hl n
  have he := exec_meshFlitResend (s := s) again hl
  obtain ⟨hw, hc, hf, hm⟩ := flitCounted_spec s.chip link again
  refine ⟨fun hcase => ?_, fun tile hn htile => ?_⟩
  · have hu : exec (.meshFlitResend link again) s = .next { s with chip := flitCounted s.chip link again } := by
      rw [he]
      split
      · next t ht =>
        rw [if_neg]
        rcases hcase with h | h
        · exact Nat.not_le.2 h
        · exact absurd ht (h t)
      · rfl
    exact ⟨_, hu, hc, chipOnly_of_within hw, hf, hm⟩
  · rw [htile] at he
    simp only [if_pos (show 64 ≤ flitFails s.chip link again from hn)] at he
    obtain ⟨hstage, hfatal, hsrc, htl⟩ := fatal_regs (flitCounted s.chip link again) 2 tile
    exact ⟨_, he, hstage, hfatal, hsrc, htl⟩

-- Governor frames (R164, R166).

/-- An engine is held back exactly when its cycles would pass what is left. -/
theorem govGrant_lt (left units ready : Nat) : govGrant left units ready < ready ↔ left < units * ready := by
  unfold govGrant
  by_cases h0 : units = 0
  · simp [h0]
  · have hpos : 0 < units := Nat.pos_of_ne_zero h0
    rw [if_neg (by simpa using h0), min_lt_iff, Nat.div_lt_iff_lt_mul hpos, Nat.mul_comm]
    simp

theorem govGrant_eq {left units ready : Nat} (h : units * ready ≤ left) : govGrant left units ready = ready := by
  have hle : govGrant left units ready ≤ ready := by
    unfold govGrant
    split
    · exact le_refl _
    · exact min_le_left _ _
  have hn := (govGrant_lt left units ready).not.2 (by omega)
  omega

/-- Three engines in turn are all granted exactly when together they draw no more than the limit. -/
theorem govGrant_all (all f u a v b : Nat) :
    (govGrant all 25 f < f ∨ govGrant (all - 25 * govGrant all 25 f) u a < a ∨
      govGrant (all - 25 * govGrant all 25 f - u * govGrant (all - 25 * govGrant all 25 f) u a) v b < b) ↔
      all < 25 * f + u * a + v * b := by
  by_cases h1 : 25 * f ≤ all
  · rw [govGrant_eq h1]
    by_cases h2 : u * a ≤ all - 25 * f
    · rw [govGrant_eq h2, govGrant_lt]
      omega
    · have := (govGrant_lt (all - 25 * f) u a).2 (by omega)
      constructor
      · intro _; omega
      · intro _; exact .inr (.inl this)
  · have := (govGrant_lt all 25 f).2 (by omega)
    constructor
    · intro _; omega
    · intro _; exact .inl this

theorem exec_governorFrame {s : State} {tile rf rm rb um ub : Nat} (ht : tile < 144) :
    exec (.governorFrame tile rf rm rb um ub) s = .next { s with chip :=
      (if 4 * fget s.chip (aTILE_GOV tile) 15 8 < 25 * rf + um * rm + ub * rb then fsat s.chip (aTILE_GOV tile) 63 32 1
        else s.chip) } := by
  refine onChip_next (f := cmdGovernorFrame tile rf rm rb um ub) ?_
  unfold cmdGovernorFrame onTile
  rw [onUnit_next ht]
  have hall := govGrant_all (4 * fget s.chip (aTILE_GOV tile) 15 8) rf
  congr 1
  by_cases hb : fbit s.chip (aTILE_GOV tile) 0 = true
  · simp only [hb, if_true]
    have h := hall ub rb um rm
    rw [show 25 * rf + ub * rb + um * rm = 25 * rf + um * rm + ub * rb by omega] at h
    exact if_congr (by rw [← h]; simp only [Bool.or_eq_true, decide_eq_true_eq, or_assoc]) rfl rfl
  · simp only [hb, Bool.false_eq_true, if_false]
    exact if_congr (by rw [← hall um rm ub rb]; simp only [Bool.or_eq_true, decide_eq_true_eq, or_assoc]) rfl rfl

theorem exec_tileGovWrite {s : State} {tile : Nat} (ht : tile < 144) (data : Word) :
    exec (.tileGovWrite tile data) s = .next { s with chip :=
      (if hardReserve s.chip tile then fset s.chip (aTILE_GOV tile) 0 0 (bitsOf data.toNat 0 0)
        else fset (fset s.chip (aTILE_GOV tile) 0 0 (bitsOf data.toNat 0 0)) (aTILE_GOV tile) 15 8
          (max 25 (min 125 (bitsOf data.toNat 15 8)))) } :=
  onChip_next (f := cmdTileGovWrite tile data) (by unfold cmdTileGovWrite onTile; rw [onUnit_next ht])

theorem governorFrames : Clauses.GovernorFrames := by
  intro s tile ht
  have hk : aTILE_GOV tile ∈ [aTILE_GOV tile] := List.mem_singleton_self _
  refine ⟨fun rf rm rb um ub => ⟨_, exec_governorFrame ht, ?_, fun hle => ?_, fun hlt => ?_⟩,
    fun data => ⟨_, exec_tileGovWrite ht data, ?_, ?_, ?_, ?_⟩⟩
  · exact regsOnly_of_onlyBar (onlyBar_ite (onlyBar_fsat _ _ _ _ hk) (onlyBar_refl _ _))
  · rw [if_neg (by omega)]
  · rw [if_pos hlt]
    exact fget_fsat_same _ _ _ _ _ (by omega) (by omega)
  · exact regsOnly_of_onlyBar (onlyBar_ite (onlyBar_fset _ _ _ _ hk)
      (onlyBar_trans (onlyBar_fset _ _ _ _ hk) (onlyBar_fset _ _ _ _ hk)))
  all_goals simp only
  · have h0 : fget (fset s.chip (aTILE_GOV tile) 0 0 (bitsOf data.toNat 0 0)) (aTILE_GOV tile) 0 0 = data.toNat % 2 := by
      rw [fget_fset_same _ _ _ _ _ (by omega) (by omega), bitsOf_eq]
      omega
    split
    · exact h0
    · rw [fget_fset_field _ _ _ _ _ _ _ (by omega) (by omega) (by omega) (by omega), h0]
  · have h0 : fget (fset s.chip (aTILE_GOV tile) 0 0 (bitsOf data.toNat 0 0)) (aTILE_GOV tile) 63 32 =
        fget s.chip (aTILE_GOV tile) 63 32 := fget_fset_field _ _ _ _ _ _ _ (by omega) (by omega) (by omega) (by omega)
    split
    · exact h0
    · rw [fget_fset_field _ _ _ _ _ _ _ (by omega) (by omega) (by omega) (by omega), h0]
  · split
    · exact fget_fset_field _ _ _ _ _ _ _ (by omega) (by omega) (by omega) (by omega)
    · rw [fget_fset_same _ _ _ _ _ (by omega) (by omega)]
      exact Nat.mod_eq_of_lt (by omega)

-- Bank upkeep (R123, R126, R128).

/-- The tiles. -/
def putTiles (u s : Chip) : Chip := { s with tiles := u.tiles }

theorem parts_tiles : Parts putTiles := ⟨fun _ _ _ _ => rfl, fun _ _ => rfl⟩

theorem within_setTile (ks : List Nat) (s : Chip) (t : Nat) (y : Tile) : within putTiles ks s (setTile s t y) :=
  ⟨rfl, fun _ _ => rfl⟩

theorem getTile_of_onlyBar {ks : List Nat} {s u : Chip} (h : onlyBar ks s u) (k : Nat) : getTile u k = getTile s k := by
  unfold getTile
  rw [tiles_of_onlyBar h]

theorem tileOnly_setTile (s : State) (tile : Nat) (y : Tile) : tileOnly tile s { s with chip := setTile s.chip tile y } :=
  ⟨rfl, fun k n => by rw [getTile_setTile, if_neg n]⟩

theorem eccWriteBackClause {s : State} {tile bank w : Nat} (ht : tile < 144) (hb : bank < 32)
    (hw : (getTile s.chip tile).wbq.find? (fun v => wordBank v == bank) = some w) :
    ∃ t, exec (.eccWriteBack tile bank) s = .next t ∧ tileOnly tile s t ∧
      getTile t.chip tile = { getTile s.chip tile with
        wbq := (getTile s.chip tile).wbq.erase w, flaw := tset (fun _ => 0) w 0 (getTile s.chip tile).flaw } := by
  refine ⟨_, onChip_next (f := cmdEccWriteBack tile bank) ((onBank_next ht hb _ _).trans (by simp only [hw])),
    tileOnly_setTile .., getTile_setTile_same ..⟩

/-- The scrubber has gone past one line of a bank (R126). -/
def linePassed (s : Chip) (tile bank : Nat) : Chip :=
  modTile s tile (fun y => { y with
    scrub := tset (fun _ => 0) bank (tget (fun _ => 0) (getTile s tile).scrub bank + 1) y.scrub })

theorem scrubLineClause {s : State} {tile bank : Nat} (ht : tile < 144) (hb : bank < 32)
    (hon : fbit s.chip (aTILE_CTL tile) 3 = true) (hp : tilePowered s.chip tile = true)
    (hc : wordsClean s tile (bank * 0x18000 + tget (fun _ => 0) (getTile s.chip tile).scrub bank % 1536 * 64) 64 = true) :
    ∃ t, exec (.scrubLine tile bank) s = .next t ∧ banksKept s t tile 0 0 ∧
      chipOnly [aTILE_ECC tile] s t (fun c => { c with tiles := t.chip.tiles }) ∧
      getTile t.chip tile = { getTile s.chip tile with
        scrub := tset (fun _ => 0) bank (tget (fun _ => 0) (getTile s.chip tile).scrub bank + 1) (getTile s.chip tile).scrub } ∧
      ∀ k, k ≠ tile → getTile t.chip k = getTile s.chip k := by
  have hr := readWords_sound (s := s.chip) (t := tile) (n := 8)
    (wi := bank * 0x3000 + tget (fun _ => 0) (getTile s.chip tile).scrub bank % 1536 * 8)
    (fun j hj => wordSound_of_wordsClean hc (by omega) (by omega))
  have hcmd : cmdScrubLine tile bank s.chip = .next (fsat (linePassed s.chip tile bank) (aTILE_ECC tile) 15 0
      (scrubPasses (getTile (linePassed s.chip tile bank) tile) - scrubPasses (getTile s.chip tile))) := by
    refine (onBank_next ht hb _ _).trans ?_
    simp only [hon, hp, Bool.not_true, Bool.or_self, Bool.false_eq_true, if_false, hr]
    rfl
  have hbar : onlyBar [aTILE_ECC tile] (linePassed s.chip tile bank)
      (fsat (linePassed s.chip tile bank) (aTILE_ECC tile) 15 0
        (scrubPasses (getTile (linePassed s.chip tile bank) tile) - scrubPasses (getTile s.chip tile))) :=
    onlyBar_fsat _ 15 0 _ (List.mem_singleton_self _)
  refine ⟨_, onChip_next (f := cmdScrubLine tile bank) hcmd, fun a _ => ?_,
    chipOnly_of_within (within_then parts_tiles (within_setTile _ _ _ _) hbar), ?_, fun k hk => ?_⟩
  · rw [getTile_of_onlyBar hbar, linePassed, getTile_modTile_same]
  · rw [getTile_of_onlyBar hbar, linePassed, getTile_modTile_same]
  · rw [getTile_of_onlyBar hbar, linePassed, getTile_modTile_other _ hk]

theorem bankUpkeep : Clauses.BankUpkeep := by
  intro s tile bank ht hb y n
  refine ⟨fun w hw => eccWriteBackClause ht hb hw, fun hon hp hc => scrubLineClause ht hb hon hp hc, fun order h1 h6 => ?_⟩
  have hcmd : cmdPortPromotion tile bank order s.chip = .next (fsat s.chip (aTILE_STATUS tile) 15 8 1) := by
    unfold cmdPortPromotion
    rw [if_neg (by omega)]
    exact onBank_next ht hb _ _
  exact ⟨_, onChip_next (f := cmdPortPromotion tile bank order) hcmd, regsOnly_fsat s _ 15 8 1, fget_fsat_same _ _ _ _ _ (by omega) (by omega),
    fget_fsat_field _ _ _ _ _ _ _ (by omega) (by omega) (by omega) (by omega)⟩

/-- Settles O28: what each of these commands counts, and that nothing else moves. -/
theorem meshGovernorAndBankUpkeep : Obligations.MeshGovernorAndBankUpkeep := ⟨flitResends, governorFrames, bankUpkeep⟩

end Sys2Proof.Proofs
end

section
/-! SUPPORT. Zeroing, fencing, resetting, halting and starting tiles and strands (O29). -/

namespace Sys2Proof.Proofs

open Sys2Proof.Machine

-- Strands that nothing wakes.

/-- With no strand of the tile waiting, none goes on. -/
theorem retryTile_quiet {s : Chip} {t : Nat} (h : tileQuiet s t = true) : retryTile s t = s := by
  have hwait : ∀ i < 8, (getStrand s t i).wait = none := fun i hi => by
    simpa using List.all_eq_true.1 h i (List.mem_range.2 hi)
  have hcache : cacheQuiet s t = true := List.all_eq_true.2 (fun i hi => by simp [hwait i (List.mem_range.1 hi)])
  rw [retryTile, forEach_eq_self (fun i hi => retry_of_wait_none (hwait i (List.mem_range.1 hi))), retryCache_quiet s t hcache]

theorem startStrand_stale {s : Chip} {t i : Nat} (h : (getStrand s t i).fresh = false) : startStrand s t i = s := by
  simp [startStrand, h]

theorem wakeTile_quiet {s : Chip} {t : Nat} (hq : tileQuiet s t = true) (hf : ∀ i, i < 8 → (getStrand s t i).fresh = false) :
    wakeTile s t = s := by
  rw [wakeTile, startStrands, forEach_eq_self (fun i hi => startStrand_stale (hf i (List.mem_range.1 hi))), retryTile_quiet hq]

theorem getStrand_of_strands {s u : Chip} (h : u.strands = s.strands) (t i : Nat) : getStrand u t i = getStrand s t i := by
  unfold getStrand
  rw [h]

theorem tileQuiet_of_strands {s u : Chip} (h : u.strands = s.strands) (t : Nat) : tileQuiet u t = tileQuiet s t := by
  unfold tileQuiet getStrand
  rw [h]

-- Zeroing (R172).

theorem fbit_modTile (s : Chip) (t : Nat) (f : Tile → Tile) (k i : Nat) : fbit (modTile s t f) k i = fbit s k i := rfl

theorem tileZeroClause {s : State} {tile : Nat} (ht : tile < 144) (hp : tilePowered s.chip tile = true)
    (hen : tileEnabled s.chip tile = true) :
    ∃ t, exec (.tileZero tile) s = .next t ∧ fbit t.chip (aTILE_STATUS tile) 2 = false ∧
      (getTile t.chip tile).zeroing = true ∧ banksKept s t tile 0 0 ∧
      chipOnly [aTILE_STATUS tile] s t (fun c => { c with tiles := t.chip.tiles }) := by
  have hbar := onlyBar_fsetb (ks := [aTILE_STATUS tile]) s.chip 2 false (List.mem_singleton_self _)
  have hcmd : cmdTileZero tile s.chip =
      .next (modTile (fsetb s.chip (aTILE_STATUS tile) 2 false) tile (fun y => { y with zeroing := true })) := by
    unfold cmdTileZero onTile
    rw [onUnit_next ht]
    simp only [hp, hen, Bool.not_true, Bool.or_self, Bool.false_eq_true, if_false]
  refine ⟨_, onChip_next (f := cmdTileZero tile) hcmd, ?_, ?_, fun a _ => ?_,
    chipOnly_of_within (within_trans parts_tiles (within_bar parts_tiles hbar) (within_setTile _ _ _ _))⟩
  · rw [fbit_modTile, fbit_fsetb_same _ _ 2 false (by omega)]
  · rw [getTile_modTile_same]
  · rw [getTile_modTile_same, getTile_of_onlyBar hbar]

theorem tileZeroCompleteClause {s : State} {tile : Nat} (ht : tile < 144) (hz : (getTile s.chip tile).zeroing = true)
    (hq : tileQuiet s.chip tile = true) (hf : ∀ i, i < 8 → (getStrand s.chip tile i).fresh = false) :
    ∃ t, exec (.tileZeroComplete tile) s = .next t ∧ fbit t.chip (aTILE_STATUS tile) 2 = true ∧
      (getTile t.chip tile).zeroing = false ∧ (∀ a, mget (getTile t.chip tile).mem a = 0#8) ∧
      (∀ w, tmem (getTile t.chip tile).pz w = false) ∧ t.chip.strands = s.chip.strands ∧
      chipOnly [aTILE_STATUS tile] s t (fun c => { c with tiles := t.chip.tiles }) := by
  have hbar := onlyBar_fsetb (ks := [aTILE_STATUS tile]) (modTile s.chip tile zeroBanks) 2 true (List.mem_singleton_self _)
  have hstr : (fsetb (modTile s.chip tile zeroBanks) (aTILE_STATUS tile) 2 true).strands = s.chip.strands :=
    (strands_of_onlyBar hbar).trans rfl
  have hcmd : cmdTileZeroComplete tile s.chip = .next (fsetb (modTile s.chip tile zeroBanks) (aTILE_STATUS tile) 2 true) := by
    unfold cmdTileZeroComplete onTile
    rw [onUnit_next ht]
    simp only [hz, Bool.not_true, Bool.false_eq_true, if_false]
    rw [wakeTile_quiet ((tileQuiet_of_strands hstr tile).trans hq) (fun i hi => by rw [getStrand_of_strands hstr]; exact hf i hi)]
  have htile : getTile (fsetb (modTile s.chip tile zeroBanks) (aTILE_STATUS tile) 2 true) tile = zeroBanks (getTile s.chip tile) := by
    rw [getTile_of_onlyBar hbar, getTile_modTile_same]
  refine ⟨_, onChip_next (f := cmdTileZeroComplete tile) hcmd, fbit_fsetb_same _ _ 2 true (by omega), ?_, fun a => ?_,
    fun w => ?_, hstr, chipOnly_of_within (within_then parts_tiles (within_setTile _ _ _ _) hbar)⟩
  all_goals rw [htile]; rfl

theorem tilesAreZeroed : Clauses.TilesAreZeroed := fun _ _ ht =>
  ⟨fun hp hen => tileZeroClause ht hp hen, fun hz hq hf => tileZeroCompleteClause ht hz hq hf⟩

-- Fences (R173).

/-- What the notice of a lost tile leaves alone: the strands, the messages, that tile, and the control and status of
every tile. -/
def fenceKept (t : Nat) (s u : Chip) : Prop :=
  u.strands = s.strands ∧ u.flights = s.flights ∧ getTile u t = getTile s t ∧
    (∀ k, barGet u (aTILE_STATUS k) = barGet s (aTILE_STATUS k)) ∧ ∀ k, barGet u (aTILE_CTL k) = barGet s (aTILE_CTL k)

theorem fenceKept_refl (t : Nat) (s : Chip) : fenceKept t s s := ⟨rfl, rfl, rfl, fun _ => rfl, fun _ => rfl⟩

theorem fenceKept_trans {t : Nat} {s u v : Chip} (h : fenceKept t s u) (g : fenceKept t u v) : fenceKept t s v := by
  obtain ⟨h1, h2, h3, h4, h5⟩ := h
  obtain ⟨g1, g2, g3, g4, g5⟩ := g
  exact ⟨g1.trans h1, g2.trans h2, g3.trans h3, fun k => (g4 k).trans (h4 k), fun k => (g5 k).trans (h5 k)⟩

theorem fenceKept_ite {t : Nat} {c : Prop} [Decidable c] {s u v : Chip} (h : fenceKept t s u) (g : fenceKept t s v) :
    fenceKept t s (if c then u else v) := by
  split
  · exact h
  · exact g

theorem fenceKept_onlyBar {ks : List Nat} {t : Nat} {s u : Chip} (h : onlyBar ks s u)
    (hs : ∀ k, aTILE_STATUS k ∉ ks) (hc : ∀ k, aTILE_CTL k ∉ ks) : fenceKept t s u :=
  ⟨strands_of_onlyBar h, by rw [h.1], getTile_of_onlyBar h t, fun k => h.2 _ (hs k), fun k => h.2 _ (hc k)⟩

theorem fenceKept_ecc {t t' : Nat} {s u : Chip} (h : onlyBar [aTILE_ECC t'] s u) : fenceKept t s u :=
  fenceKept_onlyBar h (fun k => by simp only [List.mem_singleton, aTILE_STATUS, aTILE_ECC]; omega)
    (fun k => by simp only [List.mem_singleton, aTILE_CTL, aTILE_ECC]; omega)

theorem fenceKept_onlyHasp {t : Nat} {s u : Chip} (h : onlyHasp s u) : fenceKept t s u := by
  refine ⟨strands_of_onlyHasp h, ?_, ?_, fun k => barGet_of_onlyHasp h _, fun k => barGet_of_onlyHasp h _⟩
  · rw [h]
  · unfold getTile
    rw [tiles_of_onlyHasp h]

theorem fenceKept_setTile {t t' : Nat} (n : t ≠ t') (s : Chip) (y : Tile) : fenceKept t s (setTile s t' y) :=
  ⟨rfl, rfl, by rw [getTile_setTile, if_neg n], fun _ => rfl, fun _ => rfl⟩

theorem fenceKept_modPart (t : Nat) (s : Chip) (p : Nat) (f : Part → Part) : fenceKept t s (modPart s p f) :=
  ⟨rfl, rfl, rfl, fun _ => rfl, fun _ => rfl⟩

theorem fenceKept_readWord {t t' : Nat} (n : t ≠ t') (s : Chip) (wi : Nat) : fenceKept t s (readWord s t' wi).1 := by
  have he : ∀ (s : Chip) (hi lo k : Nat), fenceKept t s (fsat s (aTILE_ECC t') hi lo k) := fun s hi lo k =>
    fenceKept_ecc (onlyBar_fsat s hi lo k (List.mem_singleton_self _))
  have he' : ∀ (s : Chip) (hi lo k : Nat), fenceKept t s (fset s (aTILE_ECC t') hi lo k) := fun s hi lo k =>
    fenceKept_ecc (onlyBar_fset s hi lo k (List.mem_singleton_self _))
  have hce : ∀ s : Chip, fenceKept t s (noteCE s) := fun s => ⟨rfl, rfl, rfl, fun _ => rfl, fun _ => rfl⟩
  unfold readWord
  simp only
  split
  · exact fenceKept_refl t s
  · split
    · split
      · exact fenceKept_refl t s
      · exact fenceKept_ite (fenceKept_trans (fenceKept_trans (he ..) (hce _)) (fenceKept_setTile n _ _))
          (fenceKept_trans (he ..) (hce _))
    · exact fenceKept_trans (fenceKept_trans (fenceKept_trans (he ..) (he' ..)) (he' ..)) (fenceKept_setTile n _ _)

theorem fenceKept_ctrBank (t : Nat) (s : Chip) (t' : Nat) (w : Bool) (k : Nat) : fenceKept t s (ctrBank s t' w k) :=
  ⟨rfl, rfl, rfl, fun _ => rfl, fun _ => rfl⟩

theorem fenceKept_writeSome {t t' : Nat} (n : t ≠ t') (s : Chip) (a k : Nat) (e : Elem) :
    fenceKept t s (writeSome s t' a k e) :=
  fenceKept_ite (fenceKept_setTile n _ _)
    (fenceKept_trans (fenceKept_trans (fenceKept_ctrBank ..) (fenceKept_readWord n _ _)) (fenceKept_setTile n _ _))

theorem fenceKept_putBytes {t t' : Nat} (n : t ≠ t') (k : Nat) (s : Chip) (a : Nat) (bs : List (Byte × Bool)) :
    fenceKept t s (putBytes t' k s a bs) := by
  induction k generalizing s a bs with
  | zero => exact fenceKept_refl t s
  | succ k ih => exact fenceKept_ite (fenceKept_refl t s) (fenceKept_trans (fenceKept_writeSome n _ _ _ _) (ih _ _ _))

theorem tileFenced_of_fenceKept {t : Nat} {s u : Chip} (h : fenceKept t s u) (k : Nat) : tileFenced u k = tileFenced s k := by
  obtain ⟨-, -, -, hs, -⟩ := h
  unfold tileFenced fbit fget
  rw [hs k]

/-- A tile that is open is not the fenced one. -/
theorem tile_ne_of_open {s : Chip} {t t' : Nat} (hf : tileFenced s t = true) (ho : tileOpen s t' = true) : t ≠ t' := by
  rintro rfl
  simp [tileOpen, hf] at ho

theorem fenceKept_noticeTiles {t : Nat} (s : Chip) (p : Nat) (bs : List Byte) (hf : tileFenced s t = true)
    (hq : ∀ k, k < 144 → tileQuiet s k = true) : fenceKept t s (noticeTiles s p bs) := by
  unfold noticeTiles
  simp only
  refine fenceKept_ite (fenceKept_refl t s) ?_
  generalize (getPart s p).map = l
  have hall : ∀ (l : List Nat) (st : Chip), fenceKept t s st → fenceKept t s (forEach l (fun st t' =>
      if t' = 0xFF || !tileOpen st t' || !(tileHeld st t' && tilePart st t' == p) then st
      else
        let a := fget st (aPART_CTL p) 31 16 * 64
        if !inBanks a 64 then st
        else retryTile (acArrive (ctrBank (putBytes t' 65 st a (clean bs)) t' true 1) t' (fget st (aPART_CTL p) 37 32)) t') st) := by
    intro l
    induction l with
    | nil => exact fun st h => h
    | cons t' r ih =>
      intro st h
      rw [forEach_cons]
      apply ih
      simp only
      split
      · exact h
      · next hcond =>
        have hopen : tileOpen st t' = true := by
          simp only [Bool.or_eq_true, decide_eq_true_eq, Bool.not_eq_true', not_or] at hcond
          exact by simpa using hcond.1.2
        have hn := tile_ne_of_open ((tileFenced_of_fenceKept h t).trans hf) hopen
        have ht' : t' < 144 := by
          simp only [tileOpen, Bool.and_eq_true, decide_eq_true_eq] at hopen
          exact hopen.1.1.1.1.1
        refine fenceKept_ite h ?_
        have hw : fenceKept t st (acArrive (ctrBank (putBytes t' 65 st (fget st (aPART_CTL p) 31 16 * 64) (clean bs)) t' true 1) t'
            (fget st (aPART_CTL p) 37 32)) :=
          fenceKept_trans (fenceKept_trans (fenceKept_putBytes hn _ _ _ _) (fenceKept_ctrBank ..)) (fenceKept_setTile hn _ _)
        have hsw := fenceKept_trans h hw
        rw [retryTile_quiet ((tileQuiet_of_strands hsw.1 t').trans (hq t' ht'))]
        exact hsw
  exact hall l s (fenceKept_refl t s)

theorem fenceKept_notice {t : Nat} (s : Chip) (p kind reason pass ltiles : Nat) (hf : tileFenced s t = true)
    (hq : ∀ k, k < 144 → tileQuiet s k = true) : fenceKept t s (notice s p kind reason pass ltiles) :=
  fenceKept_trans (fenceKept_modPart t s p _) (fenceKept_trans (fenceKept_noticeTiles _ p _ hf hq)
    (fenceKept_onlyHasp (onlyHasp_toController _ _ _ _ _)))

theorem fenceKept_faultMsg (t : Nat) (s : Chip) {p : Nat} (hp : p < 16) (code lt i fi : Nat) :
    fenceKept t s (faultMsg s p code lt i fi) :=
  fenceKept_trans (fenceKept_onlyBar (onlyBar_countedCode s p code)
      (fun k => by simpa using aTILE_STATUS_ne_aPART_STATUS k hp)
      (fun k => by simp only [List.mem_singleton, aTILE_CTL, aPART_STATUS]; omega))
    (fenceKept_onlyHasp (onlyHasp_toController _ _ _ _ _))

theorem fenceKept_rdMod (t : Nat) (s : Chip) (f : Radio → Radio) : fenceKept t s (rdMod s f) :=
  ⟨rfl, rfl, rfl, fun _ => rfl, fun _ => rfl⟩

theorem fenceKept_tileLost (s : Chip) {t : Nat} (hf : tileFenced s t = true) (hq : ∀ k, k < 144 → tileQuiet s k = true) :
    fenceKept t s (tileLost s t) := by
  unfold tileLost
  refine fenceKept_ite (fenceKept_refl t s) ?_
  simp only
  split
  · exact fenceKept_refl t s
  · next l hl =>
    have hm := fenceKept_trans (fenceKept_notice s (tilePart s t) 3 4 0 (2 ^ l) hf hq)
      (fenceKept_faultMsg t _ (tilePart_lt s t) 0x4020 l 0xFF 0)
    refine fenceKept_trans (fenceKept_trans hm ?_) (fenceKept_modPart ..)
    exact fenceKept_ite (fenceKept_ite (fenceKept_refl ..) (fenceKept_rdMod ..)) (fenceKept_refl ..)

/-- Only the messages of other tiles, and those that have arrived, go on. -/
def flightsLeft (s : Chip) (t : Nat) : Chip := { s with flights := s.flights.filter (fun f => !(f.src == t && !f.arrived)) }

/-- The tile with FENCED set, before its engines are emptied and its partition learns of it. -/
def fenceSet (s : Chip) (t : Nat) : Chip := fsetb (fsetb s (aTILE_CTL t) 4 true) (aTILE_STATUS t) 1 true

/-- The fenced tile with its engines emptied. -/
def fenced (s : Chip) (t : Nat) : Chip := flightsLeft (modTile (fenceSet s t) t emptyEngines) t

theorem fbit_flightsLeft (s : Chip) (t k i : Nat) : fbit (flightsLeft s t) k i = fbit s k i := rfl

theorem getTile_flightsLeft (s : Chip) (t k : Nat) : getTile (flightsLeft s t) k = getTile s k := rfl

theorem strands_flightsLeft (s : Chip) (t : Nat) : (flightsLeft s t).strands = s.strands := rfl

theorem strands_modTile (s : Chip) (t : Nat) (f : Tile → Tile) : (modTile s t f).strands = s.strands := rfl

theorem fenceTile_open {s : Chip} {t : Nat} (h : tileFenced s t = false) : fenceTile s t = tileLost (fenced s t) t := by
  unfold fenceTile
  rw [if_neg (by simp [h])]
  rfl

theorem onlyBar_fenceSet (s : Chip) (t : Nat) : onlyBar [aTILE_CTL t, aTILE_STATUS t] s (fenceSet s t) :=
  onlyBar_trans (onlyBar_fsetb _ _ _ (by simp)) (onlyBar_fsetb _ _ _ (by simp))

theorem fenced_spec (s : Chip) (t : Nat) :
    tileFenced (fenced s t) t = true ∧ fbit (fenced s t) (aTILE_CTL t) 4 = true ∧ (fenced s t).strands = s.strands ∧
      getTile (fenced s t) t = emptyEngines (getTile s t) ∧ ∀ f ∈ (fenced s t).flights, f.src = t → f.arrived = true := by
  have hne : aTILE_CTL t ≠ aTILE_STATUS t := by unfold aTILE_CTL aTILE_STATUS; omega
  have hbar := onlyBar_fenceSet s t
  refine ⟨?_, ?_, ?_, ?_, fun f hf hsrc => ?_⟩
  · rw [tileFenced, fenced, fbit_flightsLeft, fbit_modTile, fenceSet, fbit_fsetb_same _ _ 1 true (by omega)]
  · rw [fenced, fbit_flightsLeft, fbit_modTile, fenceSet, fbit_fsetb_other _ 1 4 true hne, fbit_fsetb_same _ _ 4 true (by omega)]
  · rw [fenced, strands_flightsLeft, strands_modTile, strands_of_onlyBar hbar]
  · rw [fenced, getTile_flightsLeft, getTile_modTile_same, getTile_of_onlyBar hbar]
  · obtain ⟨-, hkeep⟩ := List.mem_filter.1 hf
    simpa [hsrc] using hkeep

theorem fencesStopATile : Clauses.FencesStopATile := by
  intro s tile c ht hc
  have hexec : exec c s = .next { s with chip := fenceTile s.chip tile } := by
    rcases hc with rfl | rfl
    · exact onChip_next (f := cmdTileFence tile) (by unfold cmdTileFence onTile; rw [onUnit_next ht])
    · exact onChip_next (f := cmdTileLogicFault tile) (by unfold cmdTileLogicFault onTile; rw [onUnit_next ht])
  refine ⟨fun hf => ?_, fun hf hq => ?_⟩
  · rw [hexec, fenceTile, if_pos hf]
  · rw [fenceTile_open hf] at hexec
    obtain ⟨hfen, hctl, hstr, htile, hfl⟩ := fenced_spec s.chip tile
    have hk := fenceKept_tileLost (fenced s.chip tile) hfen (fun k hk => (tileQuiet_of_strands hstr k).trans (hq k hk))
    have hfen' : tileFenced (tileLost (fenced s.chip tile) tile) tile = true :=
      (tileFenced_of_fenceKept hk tile).trans hfen
    obtain ⟨-, hflights, hkt, hst, hct⟩ := hk
    refine ⟨_, hexec, hfen', fun i => ?_, ?_, ?_, fun q => ?_, ?_, ?_, fun f hf' => ?_⟩
    · simp [strandRuns, hfen']
    · unfold fbit fget at hctl ⊢
      rwa [hct]
    · rw [hkt, htile]; rfl
    · rw [hkt, htile]
      unfold queueOf emptyEngines
      split_ifs <;> rfl
    · rw [hkt, htile]; rfl
    · rw [hkt, htile]; rfl
    · exact hfl f (by rwa [← hflights])

end Sys2Proof.Proofs
end

section
/-! SUPPORT. Resets, halts and starts of strands (O29). -/

namespace Sys2Proof.Proofs

open Sys2Proof.Machine

-- Resets (R186).

/-- A strand as a reset leaves it: only the Hearth's hold stays. -/
def resetStrand (x : Strand) : Strand := { ({} : Strand) with fresh := true, held := x.held }

/-- Strands of a tile reset one after another: those of the list are as at reset, the others and all else as before. -/
theorem forEach_resetStrand (t : Nat) (l : List Nat) (s : Chip) :
    (∀ k, tget (fun _ => ({} : Strand)) (forEach l (fun st i => modStrand st t i resetStrand) s).strands k =
      if k ∈ l.map (skey t) then resetStrand (tget (fun _ => ({} : Strand)) s.strands k)
      else tget (fun _ => ({} : Strand)) s.strands k) ∧
      forEach l (fun st i => modStrand st t i resetStrand) s =
        { s with strands := (forEach l (fun st i => modStrand st t i resetStrand) s).strands } := by
  induction l generalizing s with
  | nil => exact ⟨fun k => by simp [forEach], rfl⟩
  | cons i r ih =>
    obtain ⟨hk, hf⟩ := ih (modStrand s t i resetStrand)
    rw [forEach_cons]
    refine ⟨fun k => ?_, hf⟩
    rw [hk]
    have hset : tget (fun _ => ({} : Strand)) (modStrand s t i resetStrand).strands k =
        if k = skey t i then resetStrand (tget (fun _ => ({} : Strand)) s.strands k)
        else tget (fun _ => ({} : Strand)) s.strands k := by
      simp only [modStrand, setStrand_strands, tget_tset, getStrand]
      split
      · next e => rw [e]
      · rfl
    rw [hset]
    by_cases e : k = skey t i
    · simp only [e, if_true, List.map_cons, List.mem_cons, true_or]
      split <;> rfl
    · simp only [e, if_false, List.map_cons, List.mem_cons, false_or]

theorem cutSends_frame (t : Nat) (l : List Flight) (s : Chip) :
    (cutSends t l s).1 = { s with freeCtr := (cutSends t l s).1.freeCtr } := by
  induction l generalizing s with
  | nil => rfl
  | cons f r ih =>
    have hfree : (if f.src == t && !f.arrived then freeBelow s (f.words.length / 8 + 1) else (0, s)).2 =
        { s with freeCtr := (if f.src == t && !f.arrived then freeBelow s (f.words.length / 8 + 1) else (0, s)).2.freeCtr } := by
      split <;> rfl
    have hr := ih (if f.src == t && !f.arrived then freeBelow s (f.words.length / 8 + 1) else (0, s)).2
    rw [hfree] at hr
    have hcut : (cutSends t (f :: r) s).1 =
        (cutSends t r (if f.src == t && !f.arrived then freeBelow s (f.words.length / 8 + 1) else (0, s)).2).1 := by
      simp only [cutSends]
      split_ifs <;> rfl
    rw [hcut, hfree]
    exact hr

theorem dropStream_off {s : Chip} {t k : Nat} (h : (tget (fun _ => ({} : Stream)) (getTile s t).streams k).on = false) :
    dropStream s t k = s := by
  simp [dropStream, h]

/-- A tile as a reset of its strands leaves it. -/
def resetTile (y : Tile) : Tile := { emptyEngines y with ac := [], c := [], cm := [], lcOwner := none }

/-- What a reset does after its strands: sends are cut, and the tile's own part is emptied. -/
theorem cutSends_modTile (t : Nat) (f : Tile → Tile) (l : List Flight) (u : Chip) :
    ∃ n fl, modTile { (cutSends t l u).1 with flights := (cutSends t l u).2 } t f =
      setTile { u with freeCtr := n, flights := fl } t (f (getTile u t)) := by
  obtain ⟨n, hcut⟩ : ∃ n, (cutSends t l u).1 = { u with freeCtr := n } := ⟨_, cutSends_frame t l u⟩
  rw [hcut]
  exact ⟨_, _, rfl⟩

theorem resetStrands_eq {s : Chip} {t : Nat}
    (h : ∀ k, k < 8 → (tget (fun _ => ({} : Stream)) (getTile s t).streams k).on = false) :
    ∃ str n fl, (∀ k, tget (fun _ => ({} : Strand)) str k =
        if k ∈ (List.range 8).map (skey t) then resetStrand (tget (fun _ => ({} : Strand)) s.strands k)
        else tget (fun _ => ({} : Strand)) s.strands k) ∧
      resetStrands s t = setTile { s with strands := str, freeCtr := n, flights := fl } t (resetTile (getTile s t)) := by
  have hdrop : forEach (List.range 8) (fun st k => dropStream st t k) s = s :=
    forEach_eq_self (fun k hk => dropStream_off (h k (List.mem_range.1 hk)))
  obtain ⟨hk, hstr⟩ := forEach_resetStrand t (List.range 8) s
  have hu : ∃ u, u = forEach (List.range 8) (fun st i => modStrand st t i resetStrand) s ∧
      resetStrands s t = modTile { (cutSends t u.flights u).1 with flights := (cutSends t u.flights u).2 } t resetTile := by
    refine ⟨_, rfl, ?_⟩
    unfold resetStrands
    simp only [hdrop]
    rfl
  obtain ⟨u, hdef, hreset⟩ := hu
  rw [← hdef] at hk hstr
  obtain ⟨n, fl, hmod⟩ := cutSends_modTile t resetTile u.flights u
  refine ⟨u.strands, n, fl, hk, ?_⟩
  rw [hreset, hmod]
  obtain ⟨str, hstr⟩ : ∃ str, u = { s with strands := str } := ⟨_, hstr⟩
  rw [hstr]
  rfl

theorem strandResets : Clauses.StrandResets := by
  intro s tile ht hoff
  obtain ⟨str, n, fl, hk, hu⟩ := resetStrands_eq hoff
  have hexec : exec (.strandReset tile) s = .next { s with chip := resetStrands s.chip tile } :=
    onChip_next (f := cmdStrandReset tile) (by unfold cmdStrandReset onTile; rw [onUnit_next ht])
  have htile : getTile (resetStrands s.chip tile) tile = resetTile (getTile s.chip tile) := by
    rw [hu, getTile_setTile_same]
  have hother : ∀ k, k ≠ tile → getTile (resetStrands s.chip tile) k = getTile s.chip k := fun k hne => by
    rw [hu, getTile_setTile, if_neg hne]
    rfl
  have hstr : (resetStrands s.chip tile).strands = str := by rw [hu]; rfl
  generalize resetStrands s.chip tile = u at *
  refine ⟨_, hexec, fun i hi => ?_, fun m => ?_, fun q => ?_, ?_, ?_, fun k hne => ?_, fun k hne => ?_⟩
  · unfold getStrand
    rw [hstr]
    refine (hk (skey tile i)).trans (if_pos ?_)
    exact List.mem_map.2 ⟨i, List.mem_range.2 hi, rfl⟩
  · simp only [acGet, htile]
    rfl
  · simp only [htile]
    unfold queueOf resetTile emptyEngines
    split_ifs <;> rfl
  · simp only [htile]
    rfl
  · simp only [htile]
    rfl
  · rw [hstr]
    refine (hk k).trans (if_neg fun hmem => ?_)
    obtain ⟨i, hi, rfl⟩ := List.mem_map.1 hmem
    have := List.mem_range.1 hi
    unfold skey at hne
    omega
  · exact hother k hne

-- Strands start and stop (R184, R185).

/-- A strand that a start finds fresh, running and with a legal entry word goes on at that word. -/
theorem startStrand_starts {s : Chip} {t i : Nat} (hfresh : (getStrand s t i).fresh = true) (hrun : strandRuns s t i = true)
    (ho : tileOpen s t = true) (hw : wordSound (getTile s t) i) (he : cellWord (getTile s t) i < 196608) :
    getStrand (startStrand s t i) t i = { getStrand s t i with fresh := false, pc := cellWord (getTile s t) i } ∧
      (∀ k, k ≠ skey t i → tget (fun _ => ({} : Strand)) (startStrand s t i).strands k = tget (fun _ => ({} : Strand)) s.strands k) ∧
      ∀ k, barGet (startStrand s t i) k = barGet s k := by
  have hstart : startStrand s t i = modStrand (modStrand (ctrBank s t false 1) t i (fun y => { y with fresh := false })) t i
      (fun y => { y with pc := cellWord (getTile s t) i }) := by
    simp only [startStrand]
    rw [hfresh, hrun, ho, readWord_sound (s := ctrBank s t false 1) hw]
    simp only [Bool.not_true, Bool.or_self, Bool.false_eq_true, if_false, getTile_ctrBank]
    exact if_neg (Nat.not_le.2 he)
  rw [hstart]
  refine ⟨?_, fun k hk => ?_, fun k => rfl⟩
  · rw [getStrand_modStrand_same, getStrand_modStrand_same]
    rfl
  · simp only [modStrand, setStrand_strands, tget_tset, if_neg hk]
    rfl

/-- Where at most one strand of a list is fresh, a start of them all is a start of that one. -/
theorem forEach_startStrand {t i : Nat} (l : List Nat) {s : Chip} (hd : l.Nodup) (hi : i ∈ l) (hl : ∀ j ∈ l, j < 8)
    (hstale : ∀ j, j ∈ l → j ≠ i → (getStrand s t j).fresh = false)
    (hkeep : ∀ j, j ∈ l → j ≠ i → getStrand (startStrand s t i) t j = getStrand s t j) :
    forEach l (fun st j => startStrand st t j) s = startStrand s t i := by
  induction l with
  | nil => exact absurd hi (List.not_mem_nil)
  | cons j r ih =>
    obtain ⟨hj, hr⟩ := List.nodup_cons.1 hd
    rw [forEach_cons]
    by_cases e : j = i
    · subst e
      refine forEach_eq_self (fun k hk => startStrand_stale ?_)
      have hne : k ≠ j := fun e => hj (e ▸ hk)
      rw [hkeep k (List.mem_cons_of_mem _ hk) hne]
      exact hstale k (List.mem_cons_of_mem _ hk) hne
    · rw [startStrand_stale (hstale j List.mem_cons_self e)]
      refine ih hr ((List.mem_cons.1 hi).resolve_left (Ne.symm e)) (fun k hk => hl k (List.mem_cons_of_mem _ hk))
        (fun k hk => hstale k (List.mem_cons_of_mem _ hk)) (fun k hk => hkeep k (List.mem_cons_of_mem _ hk))

/-- A tile that is let go with one fresh strand: that strand starts, and nothing waits to be retried. -/
theorem wakeTile_starts {s : Chip} {t i : Nat} (hi : i < 8) (hq : tileQuiet s t = true)
    (hfresh : (getStrand s t i).fresh = true) (hrun : strandRuns s t i = true)
    (ho : tileOpen s t = true) (hw : wordSound (getTile s t) i) (he : cellWord (getTile s t) i < 196608)
    (hstale : ∀ j, j < 8 → j ≠ i → (getStrand s t j).fresh = false) :
    getStrand (wakeTile s t) t i = { getStrand s t i with fresh := false, pc := cellWord (getTile s t) i } ∧
      ∀ k, barGet (wakeTile s t) k = barGet s k := by
  obtain ⟨hown, hother, hbar⟩ := startStrand_starts hfresh hrun ho hw he
  have hkeep : ∀ j, j < 8 → j ≠ i → getStrand (startStrand s t i) t j = getStrand s t j := fun j _ hne =>
    hother (skey t j) (by unfold skey; omega)
  have hquiet : tileQuiet (startStrand s t i) t = true := by
    refine List.all_eq_true.2 fun j hj => ?_
    have hwait := List.all_eq_true.1 hq j hj
    by_cases e : j = i
    · subst e
      rw [hown]
      exact hwait
    · rw [hkeep j (List.mem_range.1 hj) e]
      exact hwait
  have hwake : wakeTile s t = startStrand s t i := by
    rw [wakeTile, startStrands, forEach_startStrand (List.range 8) List.nodup_range (List.mem_range.2 hi)
      (fun j hj => List.mem_range.1 hj) (fun j hj => hstale j (List.mem_range.1 hj))
      (fun j hj => hkeep j (List.mem_range.1 hj)), retryTile_quiet hquiet]
  rw [hwake]
  exact ⟨hown, hbar⟩

theorem domainOn_of_onlyBar {ks : List Nat} {s u : Chip} (h : onlyBar ks s u) (n : aPWR_DOMAIN ∉ ks) (d : Nat) :
    domainOn u d = domainOn s d := by
  unfold domainOn fbit
  rw [fget_of_onlyBar h n, show u.ras = s.ras by rw [h.1]]

theorem fbit_of_barGet {s u : Chip} {k : Nat} (h : barGet u k = barGet s k) (i : Nat) : fbit u k i = fbit s k i := by
  unfold fbit
  rw [fget_of_barGet h]

/-- What a strand needs to run besides its tile's control register. -/
def mayRun (s : Chip) (t i : Nat) : Bool :=
  let x := getStrand s t i
  !x.halted && !x.held && x.faulted == none && !tileFenced s t && tilePowered s t && tileEnabled s t

theorem strandRuns_eq (s : Chip) (t i : Nat) :
    strandRuns s t i = ((fget s (aTILE_CTL t) 39 32).testBit i && !fbit s (aTILE_CTL t) 1 && mayRun s t i) := by
  simp only [strandRuns, mayRun, Bool.and_assoc]

/-- A tile's control register bears neither on its being open nor on what else its strands need to run. -/
theorem open_of_tileCtl {s u : Chip} {t : Nat} (ht : t < 144) (h : onlyBar [aTILE_CTL t] s u) :
    tileOpen u t = tileOpen s t ∧ ∀ i, mayRun u t i = mayRun s t i := by
  have hst : aTILE_STATUS t ∉ [aTILE_CTL t] := by simp [aTILE_STATUS, aTILE_CTL]
  have hpw : aPWR_DOMAIN ∉ [aTILE_CTL t] := by
    simp only [List.mem_singleton, aPWR_DOMAIN, aTILE_CTL]
    omega
  have hen : 8 + 8 * (t / 64) ∉ [aTILE_CTL t] := by
    simp only [List.mem_singleton, aTILE_CTL]
    omega
  have hp : tilePowered u t = tilePowered s t := domainOn_of_onlyBar h hpw _
  have he : tileEnabled u t = tileEnabled s t := by
    unfold tileEnabled
    rw [h.2 _ hen]
  have hf : tileFenced u t = tileFenced s t := by
    unfold tileFenced fbit
    rw [fget_of_onlyBar h hst]
  constructor
  · unfold tileOpen fbit
    rw [hp, he, hf, fget_of_onlyBar h hst, fget_of_onlyBar h hst]
  · intro i
    unfold mayRun
    rw [hp, he, hf, getStrand_of_strands (strands_of_onlyBar h)]

theorem strandsStartAndStop : Clauses.StrandsStartAndStop := by
  intro s tile ht
  have hhalt : ∀ b, exec (.tileHalt tile b) s = .next { s with chip := haltTile s.chip tile b } := fun b =>
    onChip_next (f := cmdTileHalt tile b) (by unfold cmdTileHalt onTile; rw [onUnit_next ht])
  refine ⟨⟨_, hhalt true, ?_, ?_, ?_⟩, ?_⟩
  · exact regsOnly_of_onlyBar (onlyBar_fsetb _ _ _ (List.mem_singleton_self _))
  · exact fbit_fsetb_same _ _ _ _ (by omega)
  · intro i
    have hb : fbit (haltTile s.chip tile true) (aTILE_CTL tile) 1 = true := fbit_fsetb_same _ _ _ _ (by omega)
    rw [strandRuns_eq, hb]
    simp
  intro i x entry hi hq ho hclean hfresh hh hheld hfl he hstale
  have hmay : mayRun s.chip tile i = true := by
    obtain ⟨⟨⟨⟨⟨-, hen⟩, hpw⟩, hnf⟩, -⟩, -⟩ : ((((_ ∧ _) ∧ _) ∧ _) ∧ _) ∧ _ := by
      simpa only [tileOpen, Bool.and_eq_true] using ho
    change (getStrand s.chip tile i).halted = false at hh
    change (getStrand s.chip tile i).held = false at hheld
    change (getStrand s.chip tile i).faulted = none at hfl
    simp only [mayRun, hh, hheld, hfl, hen, hpw, hnf]
    rfl
  have hwake : ∀ u, onlyBar [aTILE_CTL tile] s.chip u → (fget u (aTILE_CTL tile) 39 32).testBit i = true →
      fbit u (aTILE_CTL tile) 1 = false →
      getStrand (wakeTile u tile) tile i = { x with fresh := false, pc := entry } ∧
        ∀ k, barGet (wakeTile u tile) k = barGet u k := by
    intro u hu hm hb
    obtain ⟨hopen, hrun⟩ := open_of_tileCtl ht hu
    have hstr := strands_of_onlyBar hu
    have hx := getStrand_of_strands hstr tile
    have hw : wordSound (getTile u tile) i := by
      rw [getTile_of_onlyBar hu]
      exact wordSound_of_wordsClean hclean (by omega) (by omega)
    have := wakeTile_starts (s := u) (t := tile) hi (by rw [tileQuiet_of_strands hstr]; exact hq) (by rw [hx]; exact hfresh)
      (by rw [strandRuns_eq, hm, hb, hrun, hmay]; rfl) (by rw [hopen]; exact ho) hw
      (by rw [getTile_of_onlyBar hu]; exact he) (fun j hj hne => by rw [hx]; exact hstale j hj hne)
    rw [hx, getTile_of_onlyBar hu] at this
    exact this
  refine ⟨fun hm => ?_, fun mask hmask hmi hoff => ?_⟩
  · obtain ⟨hown, hbar⟩ := hwake (fsetb s.chip (aTILE_CTL tile) 1 false) (onlyBar_fsetb _ _ _ (List.mem_singleton_self _))
      (by unfold fsetb; rw [fget_fset_field _ _ _ _ _ _ _ (by omega) (by omega) (by omega) (by omega)]; exact hm)
      (fbit_fsetb_same _ _ _ _ (by omega))
    have hlet := hhalt false
    simp only [haltTile, Bool.false_eq_true, if_false] at hlet
    have hb : fbit (wakeTile (fsetb s.chip (aTILE_CTL tile) 1 false) tile) (aTILE_CTL tile) 1 = false := by
      rw [fbit_of_barGet (hbar (aTILE_CTL tile)), fbit_fsetb_same _ _ _ _ (by omega)]
    generalize wakeTile (fsetb s.chip (aTILE_CTL tile) 1 false) tile = u at hlet hb hown
    exact ⟨_, hlet, hb, hown⟩
  · have hexec : exec (.strandEnable tile mask) s = .next
        { s with chip := wakeTile (fset s.chip (aTILE_CTL tile) 39 32 mask) tile } :=
      onChip_next (f := cmdStrandEnable tile mask) (by unfold cmdStrandEnable onTile; rw [onUnit_next ht])
    have hset : fget (fset s.chip (aTILE_CTL tile) 39 32 mask) (aTILE_CTL tile) 39 32 = mask := by
      rw [fget_fset_same _ _ _ _ _ (by omega) (by omega)]
      exact Nat.mod_eq_of_lt hmask
    obtain ⟨hown, hbar⟩ := hwake (fset s.chip (aTILE_CTL tile) 39 32 mask) (onlyBar_fset _ _ _ _ (List.mem_singleton_self _))
      (by rw [hset]; exact hmi)
      (by unfold fbit; rw [fget_fset_field _ _ _ _ _ _ _ (by omega) (by omega) (by omega) (by omega)]; exact hoff)
    rw [← fget_of_barGet (hbar (aTILE_CTL tile))] at hset
    generalize wakeTile (fset s.chip (aTILE_CTL tile) 39 32 mask) tile = u at hexec hset hown
    exact ⟨_, hexec, hset, hown⟩

/-- Settles O29: zeroing, fences, resets, and the starts and stops of strands. -/
theorem tilesAreZeroedFencedAndStarted : Obligations.TilesAreZeroedFencedAndStarted :=
  ⟨tilesAreZeroed, fencesStopATile, strandResets, strandsStartAndStop⟩

end Sys2Proof.Proofs
end

section
/-! SUPPORT. Loops over registers and parts; shapers, policers, samples and the states of a port (O43). -/

namespace Sys2Proof.Proofs

open Sys2Proof.Machine

/-- A member of a list that a loop runs over once, seen alone: what the other members keep stands before and after it. -/
theorem forEach_at {R : Chip → Chip → Prop} (refl : ∀ s, R s s) (trans : ∀ s u v, R s u → R u v → R s v) {α : Type}
    {f : Chip → α → Chip} {l : List α} (hd : l.Nodup) {i : α} (hi : i ∈ l)
    (h : ∀ j ∈ l, j ≠ i → ∀ u, R u (f u j)) (s : Chip) : ∃ u, R s u ∧ R (f u i) (forEach l f s) := by
  induction l generalizing s with
  | nil => exact absurd hi List.not_mem_nil
  | cons j r ih =>
    obtain ⟨hj, hr⟩ := List.nodup_cons.1 hd
    have hrest : ∀ k ∈ r, k ≠ i → ∀ u, R u (f u k) := fun k hk => h k (List.mem_cons_of_mem _ hk)
    rw [forEach_cons]
    by_cases e : j = i
    · subst e
      refine ⟨s, refl s, ?_⟩
      clear ih h hi hd hr
      have keeps : ∀ k ∈ r, ∀ u, R u (f u k) := fun k hk => hrest k hk (fun e => hj (e ▸ hk))
      generalize f s j = v
      clear hrest hj
      induction r generalizing v with
      | nil => exact refl v
      | cons k r ih => exact trans _ _ _ (keeps k List.mem_cons_self v) (ih (fun m hm => keeps m (List.mem_cons_of_mem _ hm)) _)
    · obtain ⟨u, hu, hv⟩ := ih hr ((List.mem_cons.1 hi).resolve_left (Ne.symm e)) hrest (f s j)
      exact ⟨u, trans _ _ _ (h j List.mem_cons_self e s) hu, hv⟩

/-- What every member of a loop keeps, the loop keeps. -/
theorem forEach_keeps {R : Chip → Chip → Prop} (refl : ∀ s, R s s) (trans : ∀ s u v, R s u → R u v → R s v) {α : Type}
    {f : Chip → α → Chip} {l : List α} (h : ∀ j ∈ l, ∀ u, R u (f u j)) (s : Chip) : R s (forEach l f s) := by
  induction l generalizing s with
  | nil => exact refl s
  | cons j r ih =>
    exact trans _ _ _ (h j List.mem_cons_self s) (ih (fun k hk => h k (List.mem_cons_of_mem _ hk)) _)

-- Buckets (R481 to R486).

/-- Two states with the same registers and ports. -/
def samePorts (s u : Chip) : Prop := u.bar = s.bar ∧ u.ports = s.ports

/-- Two states with the same registers and fabric part in which the port has the same part. -/
def samePort (p : Nat) (s u : Chip) : Prop := u.bar = s.bar ∧ u.fab = s.fab ∧ getPort u p = getPort s p

/-- Two states with the same registers, fabric part, policer of the port and bucket of the port's queue. -/
def sameBucket (p q : Nat) (s u : Chip) : Prop :=
  u.bar = s.bar ∧ u.fab = s.fab ∧ (getPort u p).policer = (getPort s p).policer ∧ portBucket u p q = portBucket s p q

theorem samePort_trans (p : Nat) (s u v : Chip) (h : samePort p s u) (g : samePort p u v) : samePort p s v :=
  ⟨g.1.trans h.1, g.2.1.trans h.2.1, g.2.2.trans h.2.2⟩

theorem sameBucket_trans (p q : Nat) (s u v : Chip) (h : sameBucket p q s u) (g : sameBucket p q u v) : sameBucket p q s v :=
  ⟨g.1.trans h.1, g.2.1.trans h.2.1, g.2.2.1.trans h.2.2.1, g.2.2.2.trans h.2.2.2⟩

theorem getPort_modPort (s : Chip) (p k : Nat) (f : FhPort → FhPort) :
    getPort (modPort s p f) k = if k = p then f (getPort s p) else getPort s k := getPort_setPort ..

theorem portBucket_setBucket (s : Chip) (p q p' q' : Nat) (b : Bucket) :
    portBucket (setBucket s p q b) p' q' = if p' = p ∧ q' = q then b else portBucket s p' q' := by
  unfold portBucket setBucket
  rw [getPort_modPort]
  by_cases hp : p' = p
  · subst hp
    simp only [if_true, true_and, tget_tset]
  · simp [hp]

/-- The time at which a bucket came to hold its queue's head is of no account to buckets and policers. -/
theorem noteFull_cases (s0 s : Chip) (p q : Nat) :
    noteFull s0 s p q = s ∨ ∃ g : FhPort → FhPort, noteFull s0 s p q = modPort s p g ∧
      ∀ x, (g x).policer = x.policer ∧ (g x).shapers = x.shapers := by
  unfold noteFull
  split
  · exact .inr ⟨_, rfl, fun _ => ⟨rfl, rfl⟩⟩
  · exact .inl rfl

theorem noteFull_buckets (s0 s : Chip) (p q : Nat) :
    (noteFull s0 s p q).bar = s.bar ∧ (noteFull s0 s p q).fab = s.fab ∧
      (∀ k, (getPort (noteFull s0 s p q) k).policer = (getPort s k).policer) ∧
      (∀ k j, portBucket (noteFull s0 s p q) k j = portBucket s k j) ∧
      ∀ k, k ≠ p → getPort (noteFull s0 s p q) k = getPort s k := by
  obtain h | ⟨g, h, hg⟩ := noteFull_cases s0 s p q
  · rw [h]
    exact ⟨rfl, rfl, fun _ => rfl, fun _ _ => rfl, fun _ _ => rfl⟩
  · rw [h]
    refine ⟨rfl, rfl, fun k => ?_, fun k j => ?_, fun k hk => ?_⟩
    · rw [getPort_modPort]
      split
      · next e => rw [e, (hg _).1]
      · rfl
    · unfold portBucket
      rw [getPort_modPort]
      split
      · next e => rw [e, (hg _).2]
      · rfl
    · rw [getPort_modPort, if_neg hk]

/-- One tick of one shaper of a port. -/
def tickQueue (p : Nat) (v : Chip) (q : Nat) : Chip :=
  noteFull v (setBucket v p q (fill (portShape v p q) (portBucket v p q))) p q

/-- One tick of a port's shapers and policer. -/
def tickPort (st : Chip) (p : Nat) : Chip :=
  let u := forEach (List.range 16) (tickQueue p) st
  modPort u p (fun x => { x with policer := fill (policeShape u p) x.policer })

/-- One tick of one shaper of a fabric link. -/
def tickLink (st : Chip) (k : Nat) : Chip :=
  setLinkBucket st (k / 16) (k % 16) (fill (linkShape st (k / 16) (k % 16)) (linkBucket st (k / 16) (k % 16)))

theorem exec_shaperTick (s : State) : exec .shaperTick s =
    .next { s with chip := forEach (List.range 512) tickLink (forEach (List.range 8) tickPort s.chip) } :=
  onChip_next (f := cmdShaperTick) rfl

theorem tickQueue_spec (p q : Nat) (s : Chip) :
    (tickQueue p s q).bar = s.bar ∧ (tickQueue p s q).fab = s.fab ∧
      (∀ k, (getPort (tickQueue p s q) k).policer = (getPort s k).policer) ∧
      (∀ k j, portBucket (tickQueue p s q) k j =
        if k = p ∧ j = q then fill (portShape s p q) (portBucket s p q) else portBucket s k j) ∧
      ∀ k, k ≠ p → getPort (tickQueue p s q) k = getPort s k := by
  obtain ⟨hb, hf, hp, hk, ho⟩ := noteFull_buckets s (setBucket s p q (fill (portShape s p q) (portBucket s p q))) p q
  refine ⟨hb, hf, fun k => (hp k).trans ?_, fun k j => (hk k j).trans (portBucket_setBucket ..), fun k hne => (ho k hne).trans ?_⟩
  · rw [setBucket, getPort_modPort]
    split
    · next e => rw [e]
    · rfl
  · rw [setBucket, getPort_modPort, if_neg hne]

theorem portShape_of_bar {s u : Chip} (h : u.bar = s.bar) (p q : Nat) : portShape u p q = portShape s p q := by
  unfold portShape barGet
  rw [h]

theorem policeShape_of_bar {s u : Chip} (h : u.bar = s.bar) (p : Nat) : policeShape u p = policeShape s p := by
  unfold policeShape barGet
  rw [h]

theorem linkShape_of_bar {s u : Chip} (h : u.bar = s.bar) (l q : Nat) : linkShape u l q = linkShape s l q := by
  unfold linkShape barGet
  rw [h]

/-- A tick of a port fills each of its buckets once. -/
theorem tickPort_spec (s : Chip) (p : Nat) :
    (tickPort s p).bar = s.bar ∧ (tickPort s p).fab = s.fab ∧ (∀ k, k ≠ p → getPort (tickPort s p) k = getPort s k) ∧
      (getPort (tickPort s p) p).policer = fill (policeShape s p) (getPort s p).policer ∧
      ∀ q, q < 16 → portBucket (tickPort s p) p q = fill (portShape s p q) (portBucket s p q) := by
  obtain ⟨v, hv⟩ : ∃ v, v = forEach (List.range 16) (tickQueue p) s := ⟨_, rfl⟩
  have htick : tickPort s p = modPort v p (fun x => { x with policer := fill (policeShape v p) x.policer }) := by
    rw [hv, tickPort]
  have hall : ∀ k, k ≠ p → samePort k s v := fun k hne => hv ▸
    forEach_keeps (fun _ => ⟨rfl, rfl, rfl⟩) (samePort_trans k)
      (fun j _ u => by obtain ⟨hb, hf, -, -, ho⟩ := tickQueue_spec p j u; exact ⟨hb, hf, ho k hne⟩) s
  have hpol : (getPort v p).policer = (getPort s p).policer := hv ▸
    forEach_keeps (R := fun a b => (getPort b p).policer = (getPort a p).policer) (fun _ => rfl) (fun _ _ _ h g => g.trans h)
      (fun j _ u => (tickQueue_spec p j u).2.2.1 p) s
  have hqueue : ∀ q, q < 16 → portBucket v p q = fill (portShape s p q) (portBucket s p q) := fun q hq => by
    obtain ⟨u, hu, hw⟩ := forEach_at (R := sameBucket p q) (fun _ => ⟨rfl, rfl, rfl, rfl⟩) (sameBucket_trans p q)
      List.nodup_range (List.mem_range.2 hq)
      (fun j _ hne u => by
        obtain ⟨hb, hf, hp, hk, -⟩ := tickQueue_spec p j u
        exact ⟨hb, hf, hp p, (hk p q).trans (if_neg fun e => hne e.2.symm)⟩) s
    obtain ⟨-, -, -, hk, -⟩ := tickQueue_spec p q u
    rw [hv, hw.2.2.2, hk, if_pos ⟨rfl, rfl⟩, hu.2.2.2, portShape_of_bar hu.1]
  obtain ⟨hb, hf, -⟩ := hall (p + 1) (by omega)
  rw [htick]
  refine ⟨hb, hf, fun k hne => ?_, ?_, fun q hq => ?_⟩
  · rw [getPort_modPort, if_neg hne]
    exact (hall k hne).2.2
  · rw [getPort_modPort, if_pos rfl, ← hpol, ← policeShape_of_bar hb]
  · rw [← hqueue q hq, portBucket, getPort_modPort, if_pos rfl, portBucket]

theorem linkBucket_setLinkBucket (s : Chip) (l q l' q' : Nat) (b : Bucket) :
    linkBucket (setLinkBucket s l q b) l' q' = if 16 * l' + q' = 16 * l + q then b else linkBucket s l' q' := by
  unfold linkBucket setLinkBucket
  simp only [tget_tset]

theorem shaperTickClause (s : State) : ∃ t, exec .shaperTick s = .next t ∧ t.chip.bar = s.chip.bar ∧
    (∀ p q, p < 8 → q < 16 → portBucket t.chip p q = fill (portShape s.chip p q) (portBucket s.chip p q)) ∧
    (∀ p, p < 8 → (getPort t.chip p).policer = fill (policeShape s.chip p) (getPort s.chip p).policer) ∧
    ∀ l q, l < 32 → q < 16 → linkBucket t.chip l q = fill (linkShape s.chip l q) (linkBucket s.chip l q) := by
  obtain ⟨hbar1, hfab1⟩ : (forEach (List.range 8) tickPort s.chip).bar = s.chip.bar ∧
      (forEach (List.range 8) tickPort s.chip).fab = s.chip.fab :=
    forEach_keeps (R := fun a b => b.bar = a.bar ∧ b.fab = a.fab) (fun _ => ⟨rfl, rfl⟩)
      (fun _ _ _ h g => ⟨g.1.trans h.1, g.2.trans h.2⟩) (fun j _ u => ⟨(tickPort_spec u j).1, (tickPort_spec u j).2.1⟩) _
  have hports : ∀ p, p < 8 → ∃ u, samePort p s.chip u ∧ samePort p (tickPort u p) (forEach (List.range 8) tickPort s.chip) :=
    fun p hp => forEach_at (fun _ => ⟨rfl, rfl, rfl⟩) (samePort_trans p) List.nodup_range (List.mem_range.2 hp)
      (fun j _ hne u => by obtain ⟨hb, hf, ho, -⟩ := tickPort_spec u j; exact ⟨hb, hf, ho p hne.symm⟩) s.chip
  have hexec := exec_shaperTick s
  generalize forEach (List.range 8) tickPort s.chip = v at hexec hbar1 hfab1 hports
  have hsame : ∀ l, samePorts v (forEach l tickLink v) := fun l =>
    forEach_keeps (fun _ => ⟨rfl, rfl⟩) (fun _ _ _ h g => ⟨g.1.trans h.1, g.2.trans h.2⟩) (fun _ _ _ => ⟨rfl, rfl⟩) v
  obtain ⟨hbar2, hports2⟩ := hsame (List.range 512)
  have hget : ∀ p, getPort (forEach (List.range 512) tickLink v) p = getPort v p := fun p => by
    unfold getPort
    rw [hports2]
  have hlinks : ∀ l q, l < 32 → q < 16 → linkBucket (forEach (List.range 512) tickLink v) l q =
      fill (linkShape v l q) (linkBucket v l q) := fun l q hl hq => by
    obtain ⟨u, hu, hw⟩ := forEach_at (R := fun a b => b.bar = a.bar ∧ linkBucket b l q = linkBucket a l q)
      (fun _ => ⟨rfl, rfl⟩) (fun _ _ _ h g => ⟨g.1.trans h.1, g.2.trans h.2⟩) List.nodup_range
      (List.mem_range.2 (show 16 * l + q < 512 by omega))
      (fun j _ hne u => ⟨rfl, by rw [tickLink, linkBucket_setLinkBucket, if_neg (by omega)]⟩) (f := tickLink) v
    rw [hw.2, tickLink, linkBucket_setLinkBucket, if_pos (by omega), show (16 * l + q) / 16 = l by omega,
      show (16 * l + q) % 16 = q by omega, hu.2, linkShape_of_bar hu.1]
  generalize forEach (List.range 512) tickLink v = w at hexec hbar2 hports2 hget hlinks
  refine ⟨_, hexec, hbar2.trans hbar1, fun p q hp hq => ?_, fun p hp => ?_, fun l q hl hq => ?_⟩
  · obtain ⟨u, ⟨hb, -, hp⟩, -, -, hg⟩ := hports p hp
    change portBucket w p q = _
    unfold portBucket
    rw [hget, hg]
    have := (tickPort_spec u p).2.2.2.2 q hq
    rw [portShape_of_bar hb] at this
    unfold portBucket at this
    rw [this, hp]
  · obtain ⟨u, ⟨hb, -, hp⟩, -, -, hg⟩ := hports p hp
    change (getPort w p).policer = _
    rw [hget, hg, (tickPort_spec u p).2.2.2.1, policeShape_of_bar hb, hp]
  · refine (hlinks l q hl hq).trans ?_
    rw [linkShape_of_bar hbar1]
    unfold linkBucket
    rw [hfab1]

end Sys2Proof.Proofs
end

section
/-! SUPPORT. Shapers, policers, samples and the states of a port (O43). -/

namespace Sys2Proof.Proofs

open Sys2Proof.Machine

def putPorts (u s : Chip) : Chip := { s with ports := u.ports }

theorem parts_ports : Parts putPorts := ⟨fun _ _ _ _ => rfl, fun _ _ => rfl⟩

def putFab (u s : Chip) : Chip := { s with fab := u.fab }

theorem parts_fab : Parts putFab := ⟨fun _ _ _ _ => rfl, fun _ _ => rfl⟩

theorem within_modPort (ks : List Nat) (s : Chip) (p : Nat) (f : FhPort → FhPort) : within putPorts ks s (modPort s p f) :=
  ⟨rfl, fun _ _ => rfl⟩

theorem getPort_of_onlyBar {ks : List Nat} {s u : Chip} (h : onlyBar ks s u) (p : Nat) : getPort u p = getPort s p := by
  unfold getPort
  rw [h.1]

theorem within_noteFull (ks : List Nat) (s0 s : Chip) (p q : Nat) : within putPorts ks s (noteFull s0 s p q) := by
  obtain h | ⟨g, h, -⟩ := noteFull_cases s0 s p q
  · rw [h]
    exact within_refl parts_ports
  · rw [h]
    exact within_modPort ..

theorem shapeValue_lt (isB : Bool) (v : Nat) : shapeValue isB v < 2 ^ 64 := by
  unfold shapeValue
  split
  · exact setBits_lt _ 23 0 _ (by omega) (by omega) (setBits_lt _ 47 24 _ (by omega) (by omega) (setBits_lt _ 53 48 _ (by omega)
      (by omega) (setBits_lt _ 63 63 _ (by omega) (by omega) (by omega))))
  · exact setBits_lt _ 19 0 _ (by omega) (by omega) (setBits_lt _ 39 20 _ (by omega) (by omega) (setBits_lt _ 63 63 _ (by omega)
      (by omega) (by omega)))

/-- The state after a write of a port's shaper. -/
def shaperWritten (s : Chip) (k port queue v : Nat) (isB : Bool) : Chip :=
  let s1 := barSet s k (shapeValue isB v)
  noteFull s (setBucket s1 port queue (resetBucket (portShape s1 port queue) v)) port queue

theorem portShaperClause {s : State} {port queue : Nat} (isB : Bool) (data : Word) (hq : queue < 16) (hp : port < 8) :
    ∃ t, exec (.shaperWrite false port queue isB data) s = .next t ∧
      barGet t.chip (aFH port ((if isB then 0x108 else 0x100) + 16 * queue)) = shapeValue isB data.toNat ∧
      portBucket t.chip port queue = resetBucket (portShape t.chip port queue) data.toNat ∧
      (∀ k, k ≠ queue → portBucket t.chip port k = portBucket s.chip port k) ∧
      chipOnly [aFH port ((if isB then 0x108 else 0x100) + 16 * queue)] s t (fun c => { c with ports := t.chip.ports }) := by
  have hexec : exec (.shaperWrite false port queue isB data) s = .next { s with chip := (
      shaperWritten s.chip (aFH port ((if isB then 0x108 else 0x100) + 16 * queue)) port queue data.toNat isB) } :=
    onChip_next (f := cmdShaperWrite false port queue isB data) (by
      unfold cmdShaperWrite
      exact if_pos ⟨hq, hp⟩)
  generalize aFH port ((if isB then 0x108 else 0x100) + 16 * queue) = key at hexec ⊢
  obtain ⟨s1, hs1⟩ : ∃ s1, s1 = barSet s.chip key (shapeValue isB data.toNat) := ⟨_, rfl⟩
  have hset : within putPorts [key] s.chip s1 := within_bar parts_ports
    (hs1 ▸ onlyBar_barSet _ _ (List.mem_singleton_self _))
  have hw : shaperWritten s.chip key port queue data.toNat isB =
      noteFull s.chip (setBucket s1 port queue (resetBucket (portShape s1 port queue) data.toNat)) port queue := by
    rw [hs1, shaperWritten]
  obtain ⟨hb, -, -, hk, -⟩ := noteFull_buckets s.chip
    (setBucket s1 port queue (resetBucket (portShape s1 port queue) data.toNat)) port queue
  have hwithin := within_trans parts_ports (within_trans parts_ports hset (within_modPort [key] s1 port _))
    (within_noteFull [key] s.chip (setBucket s1 port queue (resetBucket (portShape s1 port queue) data.toNat)) port queue)
  rw [hw] at hexec
  generalize noteFull s.chip _ port queue = u at hexec hb hk hwithin
  replace hb : u.bar = s1.bar := hb
  refine ⟨_, hexec, ?_, ?_, fun k hne => ?_, chipOnly_of_within hwithin⟩
  · change barGet u key = _
    unfold barGet
    rw [hb, hs1]
    exact (barGet_barSet_same ..).trans (Nat.mod_eq_of_lt (shapeValue_lt ..))
  · refine (hk port queue).trans ?_
    rw [portBucket_setBucket, if_pos ⟨rfl, rfl⟩]
    exact congrArg (resetBucket · data.toNat) (portShape_of_bar hb.symm port queue)
  · refine (hk port k).trans ?_
    rw [portBucket_setBucket, if_neg fun e => hne e.2, hs1]
    rfl

theorem linkShaperClause {s : State} {port queue : Nat} (isB : Bool) (data : Word) (hq : queue < 16) (hp : port < 32) :
    ∃ t, exec (.shaperWrite true port queue isB data) s = .next t ∧
      barGet t.chip (if isB then aFL_SHAPE_B port queue else aFL_SHAPE_A port queue) = shapeValue isB data.toNat ∧
      linkBucket t.chip port queue = resetBucket (linkShape t.chip port queue) data.toNat ∧
      chipOnly [if isB then aFL_SHAPE_B port queue else aFL_SHAPE_A port queue] s t (fun c => { c with fab := t.chip.fab }) := by
  generalize hkey : (if isB then aFL_SHAPE_B port queue else aFL_SHAPE_A port queue) = key
  have hexec : exec (.shaperWrite true port queue isB data) s = .next { s with chip := (
      setLinkBucket (barSet s.chip key (shapeValue isB data.toNat)) port queue
        (resetBucket (linkShape (barSet s.chip key (shapeValue isB data.toNat)) port queue) data.toNat)) } :=
    onChip_next (f := cmdShaperWrite true port queue isB data) (by
      unfold cmdShaperWrite
      rw [hkey]
      exact if_pos ⟨hq, hp⟩)
  have hset : onlyBar [key] s.chip (barSet s.chip key (shapeValue isB data.toNat)) :=
    onlyBar_barSet _ _ (List.mem_singleton_self _)
  have hval : barGet (barSet s.chip key (shapeValue isB data.toNat)) key = shapeValue isB data.toNat :=
    (barGet_barSet_same ..).trans (Nat.mod_eq_of_lt (shapeValue_lt ..))
  generalize barSet s.chip key (shapeValue isB data.toNat) = s1 at hexec hset hval
  refine ⟨_, hexec, hval, ?_, chipOnly_of_within (put := putFab) (within_trans parts_fab (within_bar parts_fab hset) ⟨rfl, fun _ _ => rfl⟩)⟩
  exact (linkBucket_setLinkBucket ..).trans (if_pos rfl)

theorem policerClause {s : State} {port : Nat} (isB : Bool) (data : Word) (hp : port < 8) :
    ∃ t, exec (.policerWrite port isB data) s = .next t ∧
      barGet t.chip (aFH port (if isB then 0x308 else 0x300)) = shapeValue isB data.toNat ∧
      (getPort t.chip port).policer = resetBucket (policeShape t.chip port) data.toNat ∧
      chipOnly [aFH port (if isB then 0x308 else 0x300)] s t (fun c => { c with ports := t.chip.ports }) := by
  generalize hkey : aFH port (if isB then 0x308 else 0x300) = key
  have hexec : exec (.policerWrite port isB data) s = .next { s with chip := (
      modPort (barSet s.chip key (shapeValue isB data.toNat)) port (fun x =>
        { x with policer := resetBucket (policeShape (barSet s.chip key (shapeValue isB data.toNat)) port) data.toNat })) } :=
    onChip_next (f := cmdPolicerWrite port isB data) (by
      unfold cmdPolicerWrite onPort
      rw [onUnit_next hp, hkey])
  have hset : onlyBar [key] s.chip (barSet s.chip key (shapeValue isB data.toNat)) :=
    onlyBar_barSet _ _ (List.mem_singleton_self _)
  have hval : barGet (barSet s.chip key (shapeValue isB data.toNat)) key = shapeValue isB data.toNat :=
    (barGet_barSet_same ..).trans (Nat.mod_eq_of_lt (shapeValue_lt ..))
  generalize barSet s.chip key (shapeValue isB data.toNat) = s1 at hexec hset hval
  refine ⟨_, hexec, hval, ?_, chipOnly_of_within (put := putPorts)
    (within_trans parts_ports (within_bar parts_ports hset) (within_modPort ..))⟩
  exact congrArg FhPort.policer ((getPort_modPort ..).trans (if_pos rfl))

-- Queue samples (R487).

theorem onlyBar_putSample (s : Chip) (k depth delay : Nat) : onlyBar [k] s (putSample s k depth delay) := by
  have hk := List.mem_singleton_self k
  exact onlyBar_trans (onlyBar_trans (onlyBar_trans (onlyBar_fset s _ _ _ hk) (onlyBar_fset _ _ _ _ hk))
    (onlyBar_fset _ _ _ _ hk)) (onlyBar_fset _ _ _ _ hk)

theorem putSample_spec (s : Chip) (k depth delay : Nat) :
    fget (putSample s k depth delay) k 15 0 = min depth 0xFFFF ∧ fget (putSample s k depth delay) k 31 16 = min delay 0xFFFF ∧
      fget (putSample s k depth delay) k 47 32 = max (min depth 0xFFFF) (fget s k 47 32) ∧
      fget (putSample s k depth delay) k 63 48 = max (min delay 0xFFFF) (fget s k 63 48) := by
  have hlo := fget_lt s k 47 32
  have hhi := fget_lt s k 63 48
  have other : ∀ (u : Chip) (hi lo v hi' lo' : Nat), lo ≤ hi → hi < 64 → lo' ≤ hi' → (hi' < lo ∨ hi < lo') →
      fget (fset u k hi lo v) k hi' lo' = fget u k hi' lo' := fun u hi lo v hi' lo' h hh h' hd =>
    fget_fset_field _ _ _ _ _ _ _ h hh h' hd
  have same : ∀ (u : Chip) (hi lo v : Nat), lo ≤ hi → hi < 64 → v < 2 ^ (hi + 1 - lo) →
      fget (fset u k hi lo v) k hi lo = v := fun u hi lo v h hh hv => by
    rw [fget_fset_same _ _ _ _ _ h hh, Nat.mod_eq_of_lt hv]
  unfold putSample
  refine ⟨?_, ?_, ?_, ?_⟩
  · rw [other _ 63 48 _ 15 0 (by omega) (by omega) (by omega) (by omega),
      other _ 47 32 _ 15 0 (by omega) (by omega) (by omega) (by omega),
      other _ 31 16 _ 15 0 (by omega) (by omega) (by omega) (by omega), same _ 15 0 _ (by omega) (by omega) (by omega)]
  · rw [other _ 63 48 _ 31 16 (by omega) (by omega) (by omega) (by omega),
      other _ 47 32 _ 31 16 (by omega) (by omega) (by omega) (by omega), same _ 31 16 _ (by omega) (by omega) (by omega)]
  · rw [other _ 63 48 _ 47 32 (by omega) (by omega) (by omega) (by omega), same _ 47 32 _ (by omega) (by omega) (by omega)]
  · rw [same _ 63 48 _ (by omega) (by omega) (by omega)]

/-- The frames that wait in a queue of a port. -/
def queued (s : Chip) (port q : Nat) : List EgFrame := (getPort s port).frames.filter (fun f => f.queue == q)

/-- How long the frame at the head of a queue has waited. -/
def headDelay (s : Chip) (port q : Nat) (fs : List EgFrame) : Nat :=
  match fs with
  | [] => 0
  | f :: _ => if eligible s port f then nowNs s - eligibleSince s port q f else 0

def sampleQueue (port : Nat) (u : Chip) (q : Nat) : Chip :=
  putSample u (aFH port (0x200 + 8 * q)) (((queued u port q).map (·.len)).foldl (· + ·) 0 / 256)
    (headDelay u port q (queued u port q) / 64)

theorem queueSampleClause {s : State} {port queue : Nat} (hq : queue < 16) (hp : port < 8) :
    ∃ t, exec (.queueSample port) s = .next t ∧ regsOnly ((List.range 16).map (fun q => aFH port (0x200 + 8 * q))) s t ∧
      let k := aFH port (0x200 + 8 * queue)
      let fs := (getPort s.chip port).frames.filter (fun f => f.queue == queue)
      fget t.chip k 15 0 = min ((fs.map (·.len)).sum / 256) 0xFFFF ∧ (fs = [] → fget t.chip k 31 16 = 0) ∧
        fget t.chip k 47 32 = max (fget t.chip k 15 0) (fget s.chip k 47 32) ∧
        fget t.chip k 63 48 = max (fget t.chip k 31 16) (fget s.chip k 63 48) := by
  have hexec : exec (.queueSample port) s = .next { s with chip := forEach (List.range 16) (sampleQueue port) s.chip } :=
    onChip_next (f := cmdQueueSample port) (by
      unfold cmdQueueSample onPort
      rw [onUnit_next hp]
      rfl)
  have hall : onlyBar ((List.range 16).map (fun q => aFH port (0x200 + 8 * q))) s.chip
      (forEach (List.range 16) (sampleQueue port) s.chip) :=
    forEach_keeps (R := onlyBar _) (onlyBar_refl _) (fun _ _ _ => onlyBar_trans)
      (fun q hq u => onlyBar_mono (fun k hk => List.mem_map.2 ⟨q, hq, (List.mem_singleton.1 hk).symm⟩) (onlyBar_putSample ..)) _
  obtain ⟨u, hu, hv⟩ := forEach_at (R := onlyBar (((List.range 16).filter (· ≠ queue)).map (fun q => aFH port (0x200 + 8 * q))))
    (onlyBar_refl _) (fun _ _ _ => onlyBar_trans) (f := sampleQueue port) List.nodup_range (List.mem_range.2 hq)
    (fun q hq hne u => onlyBar_mono (fun k hk => List.mem_map.2
      ⟨q, List.mem_filter.2 ⟨hq, decide_eq_true hne⟩, (List.mem_singleton.1 hk).symm⟩) (onlyBar_putSample ..)) s.chip
  have hkey : aFH port (0x200 + 8 * queue) ∉ ((List.range 16).filter (· ≠ queue)).map (fun q => aFH port (0x200 + 8 * q)) := by
    intro hmem
    obtain ⟨q, hq, he⟩ := List.mem_map.1 hmem
    have hne := of_decide_eq_true (List.mem_filter.1 hq).2
    unfold aFH at he
    omega
  have hfs : queued u port queue = queued s.chip port queue := by
    unfold queued
    rw [getPort_of_onlyBar hu]
  obtain ⟨hdepth, hdelay, hdmax, htmax⟩ := putSample_spec u (aFH port (0x200 + 8 * queue))
    (((queued s.chip port queue).map (·.len)).foldl (· + ·) 0 / 256) (headDelay u port queue (queued s.chip port queue) / 64)
  have hget := fget_of_onlyBar hv hkey
  rw [sampleQueue, hfs] at hget
  have hold := fget_of_onlyBar hu hkey
  refine ⟨_, hexec, regsOnly_of_onlyBar hall, ?_⟩
  generalize forEach (List.range 16) (sampleQueue port) s.chip = v at hget
  simp only [hget, hdepth, hdelay, hdmax, htmax, hold]
  refine ⟨by rw [List.sum_eq_foldl]; rfl, fun he => ?_, trivial, trivial⟩
  rw [show queued s.chip port queue = [] from he, headDelay, Nat.zero_div, Nat.zero_min]

theorem shapersRun : Clauses.ShapersRun := fun s _ _ isB data hq =>
  ⟨shaperTickClause s, portShaperClause isB data hq, linkShaperClause isB data hq, policerClause isB data, queueSampleClause hq⟩

-- The states of a port (R488, R507).

theorem within_fset_ports {ks : List Nat} (s : Chip) {k : Nat} (hi lo v : Nat) (h : k ∈ ks) :
    within putPorts ks s (fset s k hi lo v) := within_bar parts_ports (onlyBar_fset s hi lo v h)

theorem onlyBar_portCodes (s : Chip) (p : Nat) (l : List Nat) : onlyBar [aFH p 16, aFH p 8] s (portCodes s p l) := by
  unfold portCodes
  exact onlyBar_ite (onlyBar_refl _ _) (onlyBar_trans (onlyBar_fsat _ _ _ _ (by simp)) (onlyBar_fset _ _ _ _ (by simp)))

theorem portState_portCodes (s : Chip) (p : Nat) (l : List Nat) : portState (portCodes s p l) p = portState s p := by
  unfold portCodes portState
  simp only
  split
  · rfl
  · rw [fget_fset_field _ _ _ _ _ _ _ (by omega) (by omega) (by omega) (by omega), fget_fsat_other _ _ _ _ _ _ (by unfold aFH; omega)]

/-- The codes of a port are counted. -/
theorem fget_portCodes (s : Chip) (p : Nat) (l : List Nat) : fget (portCodes s p l) (aFH p 16) 31 0 =
    min (fget s (aFH p 16) 31 0 + (l.filter (· != 0)).length) (2 ^ 32 - 1) := by
  have hlt := fget_lt s (aFH p 16) 31 0
  unfold portCodes
  simp only
  split
  · next h =>
    rw [beq_iff_eq.1 h]
    omega
  · rw [fget_fset_other _ _ _ _ _ _ (by unfold aFH; omega), fget_fsat_same _ _ _ _ _ (by omega) (by omega)]

theorem within_flushEgress (s : Chip) (p : Nat) : within putPorts [aFH p 16, aFH p 8] s (flushEgress s p) :=
  within_trans parts_ports (within_modPort ..) (within_bar parts_ports (onlyBar_portCodes ..))

theorem getPort_flushEgress (s : Chip) (p : Nat) : getPort (flushEgress s p) p = { getPort s p with frames := [], owed := [] } :=
  (getPort_of_onlyBar (onlyBar_portCodes _ p _) p).trans ((getPort_modPort ..).trans (if_pos rfl))

theorem portState_flushEgress (s : Chip) (p : Nat) : portState (flushEgress s p) p = portState s p :=
  portState_portCodes ..

theorem fget_flushEgress (s : Chip) (p : Nat) : fget (flushEgress s p) (aFH p 16) 31 0 =
    min (fget s (aFH p 16) 31 0 + (getPort s p).frames.length) (2 ^ 32 - 1) := by
  refine (fget_portCodes ..).trans ?_
  rw [show (List.replicate (getPort s p).frames.length 0x8022).filter (· != 0) =
    List.replicate (getPort s p).frames.length 0x8022 from List.filter_eq_self.2 fun a ha => by
      rw [List.eq_of_mem_replicate ha]
      rfl, List.length_replicate]
  rfl

theorem exec_portEnable {s : State} {port : Nat} (hp : port < 8) (on : Bool) :
    exec (.portEnable port on) s = .next { s with chip := portEnable s.chip port on } :=
  onChip_next (f := cmdPortEnable port on) (by
    unfold cmdPortEnable onPort
    rw [onUnit_next hp])

theorem exec_portLinkDown {s : State} {port : Nat} (hp : port < 8) :
    exec (.portLinkDown port) s = .next { s with chip := portDown s.chip port } :=
  onChip_next (f := cmdPortLinkDown port) (by
    unfold cmdPortLinkDown onPort
    rw [onUnit_next hp])

theorem portState_fset (s : Chip) (p v : Nat) (h : v < 16) : portState (fset s (aFH p 8) 3 0 v) p = v := by
  unfold portState
  rw [fget_fset_same _ _ _ _ _ (by omega) (by omega)]
  exact Nat.mod_eq_of_lt h

theorem portOffClause {s : State} {port : Nat} (hp : port < 8) (hon : fbit s.chip (aFH port 0) 0 = true) :
    ∃ t, exec (.portEnable port false) s = .next t ∧ fbit t.chip (aFH port 0) 0 = false ∧
      portState t.chip port = 0 ∧ (getPort t.chip port).frames = [] ∧
      chipOnly [aFH port 0, aFH port 8, aFH port 16] s t (fun c => { c with ports := t.chip.ports }) := by
  have hdo : portEnable s.chip port false =
      fset (flushEgress (fsetb s.chip (aFH port 0) 0 false) port) (aFH port 8) 3 0 0 := by
    unfold portEnable
    rw [hon]
    rfl
  have hw1 := within_bar (ks := [aFH port 0, aFH port 8, aFH port 16]) parts_ports
    (onlyBar_fsetb s.chip 0 false (List.mem_cons_self (a := aFH port 0)))
  have hbit := fbit_fsetb_same s.chip (aFH port 0) 0 false (by omega)
  rw [exec_portEnable hp, hdo]
  generalize fsetb s.chip (aFH port 0) 0 false = s1 at hw1 hbit
  have hw2 := within_flushEgress s1 port
  have hget := getPort_flushEgress s1 port
  have hkeep : fbit (flushEgress s1 port) (aFH port 0) 0 = false := by
    rw [fbit_of_barGet (hw2.2 _ (by simp [aFH]))]
    exact hbit
  generalize flushEgress s1 port = s2 at hw2 hget hkeep
  have hw3 := within_fset_ports (ks := [aFH port 0, aFH port 8, aFH port 16]) s2 (k := aFH port 8) 3 0 0 (by simp)
  refine ⟨_, rfl, ?_, portState_fset _ _ _ (by omega), ?_,
    chipOnly_of_within (within_trans parts_ports hw1 (within_trans parts_ports (within_mono (by simp) hw2) hw3))⟩
  · refine Eq.trans ?_ hkeep
    exact fbit_of_barGet (barGet_fset_other _ _ _ _ (by simp [aFH])) 0
  · change (getPort s2 port).frames = []
    rw [hget]

theorem portDownClause {s : State} {port : Nat} (hp : port < 8) (h : portState s.chip port = 2) :
    ∃ t, exec (.portLinkDown port) s = .next t ∧ portState t.chip port = 3 ∧
      (getPort t.chip port).frames = [] ∧ (getPort t.chip port).sections = (getPort s.chip port).sections ∧
      fget t.chip (aFH port 16) 31 0 = min (fget s.chip (aFH port 16) 31 0 + 1 + (getPort s.chip port).frames.length) (2 ^ 32 - 1) ∧
      chipOnly [aFH port 8, aFH port 16] s t (fun c => { c with ports := t.chip.ports }) := by
  have hdo : portDown s.chip port = flushEgress (portCodes (fset s.chip (aFH port 8) 3 0 3) port [0x8040]) port := by
    unfold portDown
    rw [h]
    rfl
  have hst := portState_fset s.chip port 3 (by omega)
  have hb1 := onlyBar_fset (ks := [aFH port 8, aFH port 16]) s.chip (k := aFH port 8) 3 0 3 (by simp)
  have hold : fget (fset s.chip (aFH port 8) 3 0 3) (aFH port 16) 31 0 = fget s.chip (aFH port 16) 31 0 :=
    fget_fset_other _ _ _ _ _ _ (by simp [aFH])
  rw [exec_portLinkDown hp, hdo]
  generalize fset s.chip (aFH port 8) 3 0 3 = s1 at hst hb1 hold
  have hst2 := portState_portCodes s1 port [0x8040]
  have hb2 := onlyBar_portCodes s1 port [0x8040]
  have hcount := fget_portCodes s1 port [0x8040]
  have hone : ([0x8040].filter (· != 0)).length = 1 := rfl
  rw [hone, hold] at hcount
  generalize portCodes s1 port [0x8040] = s2 at hst2 hb2 hcount
  have hb : onlyBar [aFH port 8, aFH port 16] s.chip s2 := onlyBar_trans hb1 (onlyBar_mono (by simp) hb2)
  have hget := getPort_flushEgress s2 port
  have hfl := fget_flushEgress s2 port
  have hw := within_trans parts_ports (within_bar parts_ports hb) (within_mono (by simp) (within_flushEgress s2 port))
  have hst3 := portState_flushEgress s2 port
  generalize flushEgress s2 port = s3 at hget hfl hw hst3
  refine ⟨_, rfl, (hst3.trans hst2).trans hst, ?_, ?_, ?_, chipOnly_of_within hw⟩
  · exact congrArg FhPort.frames hget
  · rw [show (getPort s3 port).sections = (getPort s2 port).sections by rw [hget], getPort_of_onlyBar hb]
  · refine hfl.trans ?_
    rw [hcount, getPort_of_onlyBar hb]
    omega

theorem portsChange : Clauses.PortsChange := by
  intro s port hp
  refine ⟨fun hoff hpow => ?_, portOffClause hp, fun h => ?_, portDownClause hp, fun hon hpow hst => ?_⟩
  · have hdo : portEnable s.chip port true = fset (fsetb s.chip (aFH port 0) 0 true) (aFH port 8) 3 0 1 := by
      unfold portEnable
      rw [hoff, hpow]
      rfl
    rw [exec_portEnable hp, hdo]
    refine ⟨_, rfl, regsOnly_of_onlyBar (onlyBar_trans (onlyBar_fsetb _ _ _ (by simp)) (onlyBar_fset _ _ _ _ (by simp))), ?_,
      portState_fset _ _ _ (by omega)⟩
    refine (fbit_of_barGet (barGet_fset_other _ _ _ _ (by simp [aFH])) 0).trans ?_
    exact fbit_fsetb_same _ _ _ _ (by omega)
  · rw [exec_portLinkDown hp, portDown, if_pos (by simp [h])]
  · have hup : exec (.portLinkUp port) s = .next { s with chip := fset s.chip (aFH port 8) 3 0 2 } :=
      onChip_next (f := cmdPortLinkUp port) (by
        unfold cmdPortLinkUp onPort when
        rw [onUnit_next hp, if_pos]
        simpa [hon, hpow] using hst)
    exact ⟨_, hup, regsOnly_of_onlyBar (onlyBar_fset _ _ _ _ (by simp)), portState_fset _ _ _ (by omega)⟩

/-- Settles O43: buckets, samples and port states. -/
theorem shapersAndPorts : Obligations.ShapersAndPorts := ⟨shapersRun, portsChange⟩

end Sys2Proof.Proofs
end

section
/-! SUPPORT. Time triggers and capture units (O45). -/

namespace Sys2Proof.Proofs

open Sys2Proof.Machine

-- Triggers (R502, R503).

/-- A time that is a multiple of 2^-16 ns is what its two registers hold. -/
theorem tvOf_tvSec_tvNsf {v : Nat} (h : v < tvMod) (hm : v % 2 ^ 18 = 0) : tvOf (tvSec v) (tvNsf v) = v := by
  unfold tvMod at h
  simp only [tvOf, tvSec, tvNsf, bitsOf_eq]
  omega

theorem tvOf_aligned (sec nsf : Nat) : tvOf sec nsf % 2 ^ 18 = 0 := by
  unfold tvOf
  omega

/-- A trigger without an action does nothing but count (R502). -/
theorem ttActions_quiet {s : Chip} {i : Nat} (h : fget s (aTT_CTL i) 59 41 = 0) : ttActions s i = s := by
  have hfire : fget s (aTT_CTL i) 59 45 = 0 := by unfold fget at h ⊢; simp only [bitsOf_eq] at h ⊢; omega
  have htrace : fbit s (aTT_CTL i) 44 = false := by
    have : fget s (aTT_CTL i) 44 44 = 0 := by unfold fget at h ⊢; simp only [bitsOf_eq] at h ⊢; omega
    rw [fbit, this]
    rfl
  have hout : fget s (aTT_CTL i) 43 42 = 0 := by unfold fget at h ⊢; simp only [bitsOf_eq] at h ⊢; omega
  have hstrike : fbit s (aTT_CTL i) 41 = false := by
    have : fget s (aTT_CTL i) 41 41 = 0 := by unfold fget at h ⊢; simp only [bitsOf_eq] at h ⊢; omega
    rw [fbit, this]
    rfl
  simp only [ttActions, hfire, htrace, hout, hstrike, Nat.zero_testBit, when, Bool.false_eq_true, if_false]
  rw [forEach_eq_self (fun _ _ => rfl), forEach_eq_self (fun _ _ => rfl)]

theorem exec_timeTriggerFire {s : State} {i : Nat} (hi : i < 16) : exec (.timeTriggerFire i) s = .next { s with chip :=
    (if fbit s.chip (aTT_CTL i) 63 && decide (ttTarget s.chip i ≤ ttNow s.chip i) then ttFire s.chip i else s.chip) } :=
  onChip_next (f := cmdTimeTriggerFire i) (by
    unfold cmdTimeTriggerFire onTrigger when
    rw [onUnit_next hi])

theorem armClause {s : State} {i : Nat} (hi : i < 16) (data : Word) :
    ∀ armed, armed = fset s.chip (aTT_CTL i) 63 41 (bitsOf data.toNat 63 41) →
      (bitOf data.toNat 63 = false ∨ ttNow armed i ≤ ttTarget armed i) →
      ∃ t, exec (.timeTriggerArm i data) s = .next t ∧ regsOnly [aTT_CTL i] s t ∧
        fget t.chip (aTT_CTL i) 63 41 = bitsOf data.toNat 63 41 ∧ fget t.chip (aTT_CTL i) 40 0 = fget s.chip (aTT_CTL i) 40 0 := by
  intro armed harm hahead
  have hfield : fget armed (aTT_CTL i) 63 41 = bitsOf data.toNat 63 41 := by
    rw [harm, fget_fset_same _ _ _ _ _ (by omega) (by omega)]
    exact Nat.mod_eq_of_lt (bitsOf_lt _ _ _)
  have hbit : fbit armed (aTT_CTL i) 63 = bitOf data.toNat 63 := by
    have h63 : fget armed (aTT_CTL i) 63 63 = bitsOf data.toNat 63 63 := by
      unfold fget at hfield ⊢
      simp only [bitsOf_eq] at hfield ⊢
      omega
    rw [fbit, h63, bitOf, bitsOf_eq, Nat.testBit_eq_decide_div_mod_eq, Nat.add_sub_cancel_left, pow_one]
    rfl
  have hquiet : (fbit armed (aTT_CTL i) 63 && decide (ttTarget armed i < ttNow armed i)) = false := by
    rw [hbit]
    obtain h | h := hahead
    · rw [h, Bool.false_and]
    · rw [decide_eq_false (by omega), Bool.and_false]
  have hexec : exec (.timeTriggerArm i data) s = .next { s with chip := armed } :=
    onChip_next (f := cmdTimeTriggerArm i data) (by
      unfold cmdTimeTriggerArm onTrigger
      rw [onUnit_next hi]
      simp only [armTrigger]
      rw [← harm, hquiet]
      rfl)
  refine ⟨_, hexec, regsOnly_of_onlyBar (harm ▸ onlyBar_fset _ _ _ _ (List.mem_singleton_self _)), hfield, ?_⟩
  change fget armed _ _ _ = _
  rw [harm, fget_fset_field _ _ _ _ _ _ _ (by omega) (by omega) (by omega) (by omega)]

theorem ttNow_of_fget {s u : Chip} {i : Nat} (hk : fget u (aTT_CTL i) 61 60 = fget s (aTT_CTL i) 61 60)
    (ht : u.time.tb = s.time.tb) : ttNow u i = ttNow s i := by
  unfold ttNow tbGet
  rw [hk, ht]

/-- The state of a trigger that has been counted. -/
theorem fsat_trigger (s : Chip) (i : Nat) :
    (∀ hi lo, lo ≤ hi → 15 < lo → fget (fsat s (aTT_CTL i) 15 0 1) (aTT_CTL i) hi lo = fget s (aTT_CTL i) hi lo) ∧
      ttNow (fsat s (aTT_CTL i) 15 0 1) i = ttNow s i ∧ ttTarget (fsat s (aTT_CTL i) 15 0 1) i = ttTarget s i ∧
      ttPeriod (fsat s (aTT_CTL i) 15 0 1) i = ttPeriod s i := by
  have hfield : ∀ hi lo, lo ≤ hi → 15 < lo → fget (fsat s (aTT_CTL i) 15 0 1) (aTT_CTL i) hi lo = fget s (aTT_CTL i) hi lo :=
    fun hi lo h hlo => fget_fsat_field _ _ _ _ _ _ _ (by omega) (by omega) h (by omega)
  have hb := onlyBar_fsat (ks := [aTT_CTL i]) s 15 0 1 (List.mem_singleton_self _)
  refine ⟨hfield, ttNow_of_fget (hfield 61 60 (by omega) (by omega)) (by rw [hb.1]), ?_, ?_⟩
  · unfold ttTarget
    rw [hb.2 _ (by simp), hb.2 _ (by simp)]
  · unfold ttPeriod
    rw [fget_of_onlyBar hb (by simp)]

def putTime (u s : Chip) : Chip := { s with time := u.time }

theorem parts_time : Parts putTime := ⟨fun _ _ _ _ => rfl, fun _ _ => rfl⟩

theorem within_timeCode (ks : List Nat) (s : Chip) (code : Nat) : within putTime ks s (timeCode s code) := ⟨rfl, fun _ _ => rfl⟩

/-- A periodic trigger's next target as `ttNext` stores it, and the periods passed over. -/
def ttMoved (s : Chip) (i : Nat) : Chip :=
  let n := (ttNow s i - ttTarget s i) / ttPeriod s i
  let t := (ttTarget s i + (n + 1) * ttPeriod s i) % tvMod
  let s1 := barSet (barSet s (aTT_CTL i + 8) (tvSec t)) (aTT_CTL i + 16) (tvNsf t)
  if n == 0 then s1 else timeCode (fsat s1 (aTT_CTL i) 31 16 n) 0x8011

theorem ttMoved_spec {s : Chip} {i : Nat} (hle : ttTarget s i ≤ ttNow s i) (hroom : ttNow s i + ttPeriod s i < tvMod) :
    within putTime [aTT_CTL i, aTT_CTL i + 8, aTT_CTL i + 16] s (ttMoved s i) ∧
      (∀ hi lo, lo ≤ hi → hi < 16 ∨ 31 < lo → fget (ttMoved s i) (aTT_CTL i) hi lo = fget s (aTT_CTL i) hi lo) ∧
      ttNow (ttMoved s i) i = ttNow s i ∧ ttPeriod (ttMoved s i) i = ttPeriod s i ∧
      ttNow s i < ttTarget (ttMoved s i) i ∧ ttTarget (ttMoved s i) i ≤ ttNow s i + ttPeriod s i := by
  have hpos : 0 < ttPeriod s i := by unfold ttPeriod; omega
  have hp18 : ttPeriod s i % 2 ^ 18 = 0 := by unfold ttPeriod; omega
  have ht18 : ttTarget s i % 2 ^ 18 = 0 := tvOf_aligned _ _
  obtain ⟨n, hn⟩ : ∃ n, n = (ttNow s i - ttTarget s i) / ttPeriod s i := ⟨_, rfl⟩
  obtain ⟨v, hv⟩ : ∃ v, v = ttTarget s i + (n + 1) * ttPeriod s i := ⟨_, rfl⟩
  have hdiv := Nat.div_add_mod (ttNow s i - ttTarget s i) (ttPeriod s i)
  have hmod := Nat.mod_lt (ttNow s i - ttTarget s i) hpos
  rw [← hn] at hdiv
  have hsum : v = ttTarget s i + (ttPeriod s i * n + ttPeriod s i) := by rw [hv]; ring
  have hlo : ttNow s i < v := by omega
  have hhi : v ≤ ttNow s i + ttPeriod s i := by omega
  have hv18 : v % 2 ^ 18 = 0 := by
    rw [hv]
    exact Nat.mod_eq_zero_of_dvd (dvd_add (Nat.dvd_of_mod_eq_zero ht18) (Dvd.dvd.mul_left (Nat.dvd_of_mod_eq_zero hp18) _))
  have hvmod : v % tvMod = v := Nat.mod_eq_of_lt (by omega)
  obtain ⟨s1, hs1⟩ : ∃ s1, s1 = barSet (barSet s (aTT_CTL i + 8) (tvSec v)) (aTT_CTL i + 16) (tvNsf v) := ⟨_, rfl⟩
  have hdef : ttMoved s i = if n == 0 then s1 else timeCode (fsat s1 (aTT_CTL i) 31 16 n) 0x8011 := by
    rw [hs1, ← hvmod, hv, hn, ttMoved]
  have hb1 : onlyBar [aTT_CTL i + 8, aTT_CTL i + 16] s s1 := by
    rw [hs1]
    exact onlyBar_trans (onlyBar_barSet _ _ (by simp)) (onlyBar_barSet _ _ (by simp))
  have hsec : barGet s1 (aTT_CTL i + 8) = tvSec v := by
    rw [hs1, barGet_barSet_other _ _ (by omega), barGet_barSet_same, Nat.mod_eq_of_lt (tvSec_lt v)]
  have hnsf : barGet s1 (aTT_CTL i + 16) = tvNsf v := by
    rw [hs1, barGet_barSet_same, Nat.mod_eq_of_lt (tvNsf_lt v)]
  have hcount : within putTime [aTT_CTL i] s1 (ttMoved s i) := by
    rw [hdef]
    exact within_ite (within_refl parts_time) (within_trans parts_time
      (within_bar parts_time (onlyBar_fsat _ _ _ _ (List.mem_singleton_self _))) (within_timeCode ..))
  have hfield : ∀ hi lo, lo ≤ hi → hi < 16 ∨ 31 < lo → fget (ttMoved s i) (aTT_CTL i) hi lo = fget s (aTT_CTL i) hi lo := by
    intro hi lo h hd
    rw [← fget_of_onlyBar hb1 (k := aTT_CTL i) (by simp), hdef]
    split
    · rfl
    · rw [fget_timeCode, fget_fsat_field _ _ _ _ _ _ _ (by omega) (by omega) h (by omega)]
  have htb : (ttMoved s i).time.tb = s.time.tb := by
    rw [hdef]
    split
    · rw [hb1.1]
    · change (fsat s1 _ _ _ _).time.tb = _
      rw [(onlyBar_fsat (ks := [aTT_CTL i]) s1 31 16 n (List.mem_singleton_self _)).1, hb1.1]
  have htarget : ttTarget (ttMoved s i) i = v := by
    unfold ttTarget
    rw [hcount.2 _ (by simp), hcount.2 _ (by simp), hsec, hnsf]
    exact tvOf_tvSec_tvNsf (by omega) hv18
  refine ⟨within_trans parts_time (within_bar parts_time (onlyBar_mono (by simp) hb1)) (within_mono (by simp) hcount), hfield,
    ttNow_of_fget (hfield 61 60 (by omega) (by omega)) htb, ?_, ?_, ?_⟩
  · unfold ttPeriod
    rw [fget_of_barGet (hcount.2 _ (by simp)), fget_of_onlyBar hb1 (by simp)]
  · rw [htarget]
    exact hlo
  · rw [htarget]
    exact hhi

theorem ttNext_cases (s : Chip) (i : Nat) :
    (fbit s (aTT_CTL i) 62 = false → ttNext s i = fsetb s (aTT_CTL i) 63 false) ∧
      (fbit s (aTT_CTL i) 62 = true → ttNext s i = ttMoved s i) := by
  constructor <;> intro h <;>
    simp only [ttNext, ttMoved, h, Bool.not_false, Bool.not_true, Bool.false_eq_true, if_true, if_false]

theorem fireClause {s : State} {i : Nat} (hi : i < 16) (hon : fbit s.chip (aTT_CTL i) 63 = true)
    (hle : ttTarget s.chip i ≤ ttNow s.chip i) (hquiet : fget s.chip (aTT_CTL i) 59 41 = 0) :
    (fbit s.chip (aTT_CTL i) 62 = false → ∃ t, exec (.timeTriggerFire i) s = .next t ∧ regsOnly [aTT_CTL i] s t ∧
      fbit t.chip (aTT_CTL i) 63 = false ∧ countedOne s t (aTT_CTL i) 15 0) ∧
    (fbit s.chip (aTT_CTL i) 62 = true → ttNow s.chip i + ttPeriod s.chip i < tvMod → ∃ t, exec (.timeTriggerFire i) s = .next t ∧
      chipOnly [aTT_CTL i, aTT_CTL i + 8, aTT_CTL i + 16] s t (fun c => { c with time := t.chip.time }) ∧
      fbit t.chip (aTT_CTL i) 63 = true ∧ countedOne s t (aTT_CTL i) 15 0 ∧
      ttNow t.chip i < ttTarget t.chip i ∧ ttTarget t.chip i ≤ ttNow t.chip i + ttPeriod t.chip i) := by
  obtain ⟨hfield, hnow, htarget, hperiod⟩ := fsat_trigger s.chip i
  have hcounted : fget (fsat s.chip (aTT_CTL i) 15 0 1) (aTT_CTL i) 15 0 = min (fget s.chip (aTT_CTL i) 15 0 + 1) (2 ^ 16 - 1) :=
    fget_fsat_same _ _ _ _ _ (by omega) (by omega)
  have hb := onlyBar_fsat (ks := [aTT_CTL i]) s.chip 15 0 1 (List.mem_singleton_self _)
  have hexec : exec (.timeTriggerFire i) s = .next { s with chip := ttNext (fsat s.chip (aTT_CTL i) 15 0 1) i } := by
    rw [exec_timeTriggerFire hi, hon, decide_eq_true hle, Bool.true_and, if_pos rfl, ttFire,
      ttActions_quiet (by rw [hfield 59 41 (by omega) (by omega)]; exact hquiet)]
  have h62 : fbit (fsat s.chip (aTT_CTL i) 15 0 1) (aTT_CTL i) 62 = fbit s.chip (aTT_CTL i) 62 :=
    congrArg (· == 1) (hfield 62 62 (by omega) (by omega))
  have h63 : fbit (fsat s.chip (aTT_CTL i) 15 0 1) (aTT_CTL i) 63 = fbit s.chip (aTT_CTL i) 63 :=
    congrArg (· == 1) (hfield 63 63 (by omega) (by omega))
  generalize fsat s.chip (aTT_CTL i) 15 0 1 = u at *
  obtain ⟨honce, hagain⟩ := ttNext_cases u i
  constructor
  · intro h
    rw [honce (h62.trans h)] at hexec
    refine ⟨_, hexec, regsOnly_of_onlyBar (onlyBar_trans hb (onlyBar_fsetb _ _ _ (List.mem_singleton_self _))),
      fbit_fsetb_same _ _ _ _ (by omega), ?_⟩
    exact (fget_fset_field _ _ _ _ _ _ _ (by omega) (by omega) (by omega) (by omega)).trans hcounted
  · intro h hroom
    rw [hagain (h62.trans h)] at hexec
    obtain ⟨hw, hkeep, hnow2, hperiod2, hahead, hnext⟩ := ttMoved_spec (s := u) (i := i) (by omega) (by omega)
    generalize ttMoved u i = v at *
    refine ⟨_, hexec, chipOnly_of_within (within_trans parts_time (within_bar parts_time (onlyBar_mono (by simp) hb)) hw), ?_, ?_, ?_, ?_⟩
    · refine Eq.trans ?_ (h63.trans hon)
      exact congrArg (· == 1) (hkeep 63 63 (by omega) (by omega))
    · exact (hkeep 15 0 (by omega) (by omega)).trans hcounted
    · change ttNow v i < ttTarget v i
      omega
    · change ttTarget v i ≤ ttNow v i + ttPeriod v i
      omega

theorem triggersFire : Clauses.TriggersFire := by
  intro s i pin data hi hpin
  refine ⟨armClause hi data, fun h => ?_, fireClause hi, ?_⟩
  · rw [exec_timeTriggerFire hi, if_neg]
    obtain h | h := h
    · simp [h]
    · simp [Nat.not_le.2 h]
  · have hexec : exec (.timeOutPulseEnd pin) s = .next { s with chip :=
        (tmMod s.chip (fun t => { t with outs := tset (fun _ => false) pin false t.outs })) } :=
      onChip_next (f := cmdTimeOutPulseEnd pin) (by
        unfold cmdTimeOutPulseEnd
        rw [onUnit_next hpin])
    exact ⟨_, hexec, rfl⟩

-- Stamps (R504, R505).

/-- What a capture unit has, as far as an edge can change it. -/
def sameUnit (j : Nat) (s u : Chip) : Prop :=
  barGet u (aTC_CTL j) = barGet s (aTC_CTL j) ∧ barGet u (aTC_CTL j + 8) = barGet s (aTC_CTL j + 8) ∧
    barGet u (aTC_CTL j + 16) = barGet s (aTC_CTL j + 16) ∧ u.time.tb = s.time.tb ∧
    (s.time.lastCode = 0x8030 → u.time.lastCode = 0x8030)

theorem sameUnit_refl (j : Nat) (s : Chip) : sameUnit j s s := ⟨rfl, rfl, rfl, rfl, id⟩

theorem sameUnit_trans (j : Nat) (s u v : Chip) (h : sameUnit j s u) (g : sameUnit j u v) : sameUnit j s v := by
  obtain ⟨h1, h2, h3, h4, h5⟩ := h
  obtain ⟨g1, g2, g3, g4, g5⟩ := g
  exact ⟨g1.trans h1, g2.trans h2, g3.trans h3, g4.trans h4, fun h => g5 (h5 h)⟩

def captureKeys (j : Nat) : List Nat := [aTC_CTL j, aTC_CTL j + 8, aTC_CTL j + 16]

/-- A capture unit that stamps an event. -/
def stamped (s : Chip) (j v : Nat) : Chip :=
  fsetb (fset (barSet s (aTC_CTL j + 8) (tvSec v)) (aTC_CTL j + 16) 47 0 (tvNsf v)) (aTC_CTL j) 44 true

theorem captureUnit_cases (s : Chip) (j : Nat) (d : Int) :
    (fbit s (aTC_CTL j) 63 = false → captureUnit s j d = s) ∧
      (fbit s (aTC_CTL j) 63 = true → fbit s (aTC_CTL j) 44 = true →
        captureUnit s j d = timeCode (fsat s (aTC_CTL j) 15 0 1) 0x8030) ∧
      (fbit s (aTC_CTL j) 63 = true → fbit s (aTC_CTL j) 44 = false →
        captureUnit s j d = stamped s j (stampAt s (fget s (aTC_CTL j) 62 61) d)) := by
  refine ⟨fun h => ?_, fun h g => ?_, fun h g => ?_⟩ <;>
    simp only [captureUnit, stamped, *, Bool.not_false, Bool.not_true, Bool.false_eq_true, if_true, if_false]

theorem onlyBar_stamped (s : Chip) (j v : Nat) : onlyBar (captureKeys j) s (stamped s j v) :=
  onlyBar_trans (onlyBar_trans (onlyBar_barSet _ _ (by simp [captureKeys])) (onlyBar_fset _ _ _ _ (by simp [captureKeys])))
    (onlyBar_fsetb _ _ _ (by simp [captureKeys]))

/-- A capture unit changes its own registers, and otherwise the last code alone. -/
theorem captureUnit_frame (s : Chip) (j : Nat) (d : Int) :
    within putTime (captureKeys j) s (captureUnit s j d) ∧ (captureUnit s j d).time.tb = s.time.tb ∧
      (s.time.lastCode = 0x8030 → (captureUnit s j d).time.lastCode = 0x8030) := by
  obtain ⟨hoff, hheld, hfree⟩ := captureUnit_cases s j d
  cases hon : fbit s (aTC_CTL j) 63 with
  | false =>
    rw [hoff hon]
    exact ⟨within_refl parts_time, rfl, id⟩
  | true =>
    cases hfull : fbit s (aTC_CTL j) 44 with
    | true =>
      have hb := onlyBar_fsat (ks := captureKeys j) s 15 0 1 (k := aTC_CTL j) (by simp [captureKeys])
      rw [hheld hon hfull]
      generalize fsat s (aTC_CTL j) 15 0 1 = u at hb
      refine ⟨within_trans parts_time (within_bar parts_time hb) (within_timeCode ..), ?_, fun _ => rfl⟩
      change u.time.tb = _
      rw [hb.1]
    | false =>
      have hb := onlyBar_stamped s j (stampAt s (fget s (aTC_CTL j) 62 61) d)
      rw [hfree hon hfull]
      generalize stamped s j _ = u at hb
      refine ⟨within_bar parts_time hb, ?_, fun h => ?_⟩ <;> rw [hb.1]
      exact h

/-- An event at one capture unit of those that a loop runs over. -/
def captureAt (src pin : Nat) (d : Int) (st : Chip) (j : Nat) : Chip :=
  if fget st (aTC_CTL j) 60 58 == src && fget st (aTC_CTL j) 57 54 == pin && true then captureUnit st j d else st

theorem captureAt_frame (src pin : Nat) (d : Int) (s : Chip) (j : Nat) :
    within putTime (captureKeys j) s (captureAt src pin d s j) ∧ (captureAt src pin d s j).time.tb = s.time.tb ∧
      (s.time.lastCode = 0x8030 → (captureAt src pin d s j).time.lastCode = 0x8030) := by
  unfold captureAt
  split
  · exact captureUnit_frame s j d
  · exact ⟨within_refl parts_time, rfl, id⟩

theorem captureAt_other {src pin : Nat} {d : Int} {i j : Nat} (h : j ≠ i) (s : Chip) : sameUnit i s (captureAt src pin d s j) := by
  obtain ⟨⟨-, hk⟩, htb, hc⟩ := captureAt_frame src pin d s j
  refine ⟨hk _ ?_, hk _ ?_, hk _ ?_, htb, hc⟩ <;> simp only [captureKeys, List.mem_cons, List.not_mem_nil, aTC_CTL, or_false] <;> omega

theorem stamped_spec (s : Chip) (j v : Nat) : fbit (stamped s j v) (aTC_CTL j) 44 = true ∧
    barGet (stamped s j v) (aTC_CTL j + 8) = tvSec v ∧ fget (stamped s j v) (aTC_CTL j + 16) 47 0 = tvNsf v := by
  refine ⟨fbit_fsetb_same _ _ _ _ (by omega), ?_, ?_⟩ <;> unfold stamped fsetb
  · rw [barGet_fset_other _ _ _ _ (by omega), barGet_fset_other _ _ _ _ (by omega), barGet_barSet_same, Nat.mod_eq_of_lt (tvSec_lt v)]
  · rw [fget_fset_other _ _ _ _ _ _ (by omega), fget_fset_same _ _ _ _ _ (by omega) (by omega)]
    refine Nat.mod_eq_of_lt ?_
    unfold tvNsf
    omega

/-- The state in which an edge meets the capture units, and the free amount of its stamps. -/
def edgeSeen (s : Chip) (pin : Nat) (rising : Bool) : Nat × Chip :=
  freeBelow (fsetb s aPKG_PINS (4 + pin) rising) (2 ^ 36 + 1)

theorem exec_timeInEdge {s : State} {pin : Nat} (hp : pin < 4) (rising : Bool) :
    exec (.timeInEdge pin rising) s = .next { s with chip := (
      forEach (List.range 16) (captureAt (if rising then 3 else 4) pin (((edgeSeen s.chip pin rising).1 : Int) - 2 ^ 35))
        (edgeSeen s.chip pin rising).2) } :=
  onChip_next (f := cmdTimeInEdge pin rising) (by
    unfold cmdTimeInEdge
    rw [onUnit_next hp]
    rfl)

theorem edgeSeen_spec {s : Chip} {pin : Nat} (hp : pin < 4) (rising : Bool) :
    (edgeSeen s pin rising).1 < 2 ^ 36 + 1 ∧ fbit (edgeSeen s pin rising).2 aPKG_PINS (4 + pin) = rising ∧
      (edgeSeen s pin rising).2.tiles = s.tiles ∧ ∀ j, j < 16 → sameUnit j s (edgeSeen s pin rising).2 := by
  have hb := onlyBar_fsetb (ks := [aPKG_PINS]) s (4 + pin) rising (List.mem_singleton_self _)
  have hbit := fbit_fsetb_same s aPKG_PINS (4 + pin) rising (by omega)
  unfold edgeSeen freeBelow
  generalize fsetb s aPKG_PINS (4 + pin) rising = u at hb hbit
  have htiles := tiles_of_onlyBar hb
  refine ⟨Nat.mod_lt _ (by omega), hbit, htiles, fun j hj => ?_⟩
  have hne : ∀ n, n ≤ 16 → aTC_CTL j + n ∉ [aPKG_PINS] := fun n hn => by
    simp only [List.mem_singleton, aTC_CTL, aPKG_PINS]
    omega
  refine ⟨hb.2 _ (hne 0 (by omega)), hb.2 _ (hne 8 (by omega)), hb.2 _ (hne 16 (by omega)), ?_, fun h => ?_⟩
  · change u.time.tb = _
    rw [hb.1]
  · change u.time.lastCode = _
    rw [hb.1]
    exact h

theorem stampsAreTaken : Clauses.StampsAreTaken := by
  intro s pin unit rising hp hu k
  constructor
  · have hexec := exec_timeInEdge (s := s) hp rising
    obtain ⟨hd, hpin, htiles, hsame⟩ := edgeSeen_spec (s := s.chip) hp rising
    generalize hsrc : (if rising then 3 else 4) = src at hexec ⊢
    obtain ⟨d, hdd⟩ : ∃ d : Int, d = ((edgeSeen s.chip pin rising).1 : Int) - 2 ^ 35 := ⟨_, rfl⟩
    rw [← hdd] at hexec
    have hdlo : -(2 ^ 35) ≤ d := by omega
    have hdhi : d ≤ 2 ^ 35 := by omega
    generalize (edgeSeen s.chip pin rising).2 = u at *
    obtain ⟨hkp, hkt, hktb⟩ : barGet (forEach (List.range 16) (captureAt src pin d) u) aPKG_PINS = barGet u aPKG_PINS ∧
        (forEach (List.range 16) (captureAt src pin d) u).tiles = u.tiles ∧
        (forEach (List.range 16) (captureAt src pin d) u).time.tb = u.time.tb :=
      forEach_keeps (R := fun a b => barGet b aPKG_PINS = barGet a aPKG_PINS ∧ b.tiles = a.tiles ∧ b.time.tb = a.time.tb)
        (fun _ => ⟨rfl, rfl, rfl⟩) (fun _ _ _ h g => ⟨g.1.trans h.1, g.2.1.trans h.2.1, g.2.2.trans h.2.2⟩)
        (fun j hj v => by
          obtain ⟨⟨hf, hb⟩, htb, -⟩ := captureAt_frame src pin d v j
          refine ⟨hb _ ?_, by rw [hf]; rfl, htb⟩
          have := List.mem_range.1 hj
          simp only [captureKeys, List.mem_cons, List.not_mem_nil, aTC_CTL, aPKG_PINS, or_false]
          omega) u
    obtain ⟨w, hw, hv⟩ := forEach_at (sameUnit_refl unit) (sameUnit_trans unit) (f := captureAt src pin d) List.nodup_range
      (List.mem_range.2 hu) (fun j _ hne v => captureAt_other hne v) u
    generalize forEach (List.range 16) (captureAt src pin d) u = v at *
    obtain ⟨hw0, hw8, hw16, hwtb, hwc⟩ := sameUnit_trans unit _ _ _ (hsame unit hu) hw
    obtain ⟨hv0, hv8, hv16, hvtb, hvc⟩ := hv
    have hat : fbit s.chip k 63 = true → fget s.chip k 60 58 = src → fget s.chip k 57 54 = pin →
        captureAt src pin d w unit = captureUnit w unit d ∧ fbit w k 63 = true ∧ fbit w k 44 = fbit s.chip k 44 := by
      intro hon h1 h2
      refine ⟨if_pos ?_, (fbit_of_barGet hw0 63).trans hon, fbit_of_barGet hw0 44⟩
      rw [fget_of_barGet hw0, fget_of_barGet hw0, h1, h2]
      simp
    obtain ⟨-, hheld, hfree⟩ := captureUnit_cases w unit d
    refine ⟨_, hexec, (fbit_of_barGet hkp _).trans hpin, ?_, hkt.trans htiles, fun hon h1 h2 hempty => ?_, fun hon h1 h2 hfull => ?_⟩
    · exact hktb.trans (hsame unit hu).2.2.2.1
    · obtain ⟨hcap, hwon, hwfull⟩ := hat hon h1 h2
      have hstamp : stampAt w (fget w k 62 61) d = stampAt s.chip (fget s.chip k 62 61) d := by
        unfold stampAt tbGet
        rw [hwtb, fget_of_barGet hw0]
      obtain ⟨hs44, hs8, hs16⟩ := stamped_spec w unit (stampAt w (fget w k 62 61) d)
      rw [hcap, hfree hwon (hwfull.trans hempty)] at hv0 hv8 hv16
      refine ⟨(fbit_of_barGet hv0 44).trans hs44, d, hdlo, hdhi, ?_, ?_⟩ <;> rw [← hstamp]
      · exact hv8.trans hs8
      · exact (fget_of_barGet hv16 47 0).trans hs16
    · obtain ⟨hcap, hwon, hwfull⟩ := hat hon h1 h2
      rw [hcap, hheld hwon (hwfull.trans hfull)] at hv0 hv8 hv16 hvc
      have hb := onlyBar_fsat (ks := [aTC_CTL unit]) w 15 0 1 (List.mem_singleton_self _)
      refine ⟨?_, (hv8.trans (hb.2 _ (by simp))).trans hw8, (hv16.trans (hb.2 _ (by simp))).trans hw16, hvc rfl⟩
      unfold countedOne
      rw [← fget_of_barGet hw0, fget_of_barGet hv0, fget_timeCode]
      exact fget_fsat_same _ _ _ _ _ (by omega) (by omega)
  · have hexec : exec (.captureRead unit) s = .next { s with chip := readCapture s.chip unit } :=
      onChip_next (f := cmdCaptureRead unit) (by
        unfold cmdCaptureRead
        rw [onUnit_next hu])
    have hw : within (fun u s => { s with resp := u.resp }) [k] s.chip (readCapture s.chip unit) := by
      have hp : Parts (fun u s : Chip => { s with resp := u.resp }) := ⟨fun _ _ _ _ => rfl, fun _ _ => rfl⟩
      exact within_then hp (u := { s.chip with resp := BitVec.ofNat 64 (barGet s.chip (k + 16)) }) ⟨rfl, fun _ _ => rfl⟩
        (onlyBar_fsetb _ _ _ (List.mem_singleton_self _))
    refine ⟨_, hexec, ?_, fbit_fsetb_same _ _ _ _ (by omega), chipOnly_of_within hw, ?_⟩
    · change (BitVec.ofNat 64 (barGet s.chip (k + 16))).toNat = _
      rw [BitVec.toNat_ofNat, Nat.mod_eq_of_lt (barGet_lt _ _)]
    · exact fget_fset_field _ _ _ _ _ _ _ (by omega) (by omega) (by omega) (by omega)

/-- Settles O45: triggers by their cases, and each capture unit seen alone in the loop over them. -/
theorem triggersAndStamps : Obligations.TriggersAndStamps := ⟨triggersFire, stampsAreTaken⟩

end Sys2Proof.Proofs
end

section
/-! SUPPORT. What device memory's accesses leave alone; the grant table and the bandwidth regulators (O48). -/

namespace Sys2Proof.Proofs

open Sys2Proof.Machine

/-- Nothing but counters, the modules, their channels' registers and the count of corrected errors differ. -/
def memOnly (s u : Chip) : Prop :=
  u = { s with
    bar := u.bar, ctrLive := u.ctrLive, ras := u.ras
    mem := { s.mem with chans := u.mem.chans, dram := u.mem.dram, dpz := u.mem.dpz, dflaw := u.mem.dflaw } } ∧
    ∀ k, k < 0x00800000 → barGet u k = barGet s k

theorem memOnly_refl (s : Chip) : memOnly s s := ⟨rfl, fun _ _ => rfl⟩

theorem memOnly_trans {s u v : Chip} (h : memOnly s u) (g : memOnly u v) : memOnly s v := by
  obtain ⟨hu, hb⟩ := h
  obtain ⟨hv, hc⟩ := g
  refine ⟨?_, fun k hk => (hc k hk).trans (hb k hk)⟩
  rw [hv, hu]

theorem memOnly_ite {c : Prop} [Decidable c] {s u v : Chip} (h : memOnly s u) (g : memOnly s v) :
    memOnly s (if c then u else v) := by
  split
  · exact h
  · exact g

theorem memOnly_of_onlyBar {ks : List Nat} {s u : Chip} (hk : ∀ k ∈ ks, 0x00800000 ≤ k) (h : onlyBar ks s u) : memOnly s u := by
  obtain ⟨hu, hb⟩ := h
  refine ⟨?_, fun k hlt => hb k fun hm => absurd (hk k hm) (by omega)⟩
  rw [hu]

theorem memOnly_memLog (s : Chip) (c mb code : Nat) : memOnly s (memLog s c mb code) :=
  memOnly_of_onlyBar (ks := [aMEM_ERRLOG c]) (by simp only [List.mem_singleton, forall_eq, aMEM_ERRLOG]; omega)
    (onlyBar_trans (onlyBar_fset _ _ _ _ (List.mem_singleton_self _)) (onlyBar_fset _ _ _ _ (List.mem_singleton_self _)))

theorem memOnly_putBurst (s : Chip) (c mb : Nat) (bs : List Byte) (pz : Bool) : memOnly s (putBurst s c mb bs pz) :=
  ⟨rfl, fun _ _ => rfl⟩

theorem memOnly_ctrAdd (s : Chip) (p i n : Nat) : memOnly s (ctrAdd s p i n) := ⟨rfl, fun _ _ => rfl⟩

theorem memOnly_modChan (s : Chip) (c : Nat) (f : Chan → Chan) : memOnly s (modChan s c f) := ⟨rfl, fun _ _ => rfl⟩

theorem memOnly_noteCE (s : Chip) : memOnly s (noteCE s) := ⟨rfl, fun _ _ => rfl⟩

theorem memOnly_eccCount (s : Chip) (c hi lo n : Nat) : memOnly s (fsat s (aMEM_ECC c) hi lo n) :=
  memOnly_of_onlyBar (ks := [aMEM_ECC c]) (by simp only [List.mem_singleton, forall_eq, aMEM_ECC]; omega)
    (onlyBar_fsat _ _ _ _ (List.mem_singleton_self _))

theorem memOnly_failChannel (s : Chip) (c : Nat) : memOnly s (failChannel s c) :=
  memOnly_of_onlyBar (ks := [aMEM_STATUS c, aSWAGE_STATUS c])
    (by simp only [List.mem_cons, List.not_mem_nil, or_false, forall_eq_or_imp, forall_eq, aMEM_STATUS, aSWAGE_STATUS]; omega)
    (onlyBar_trans (onlyBar_fset _ _ _ _ (by simp)) (onlyBar_fset _ _ _ _ (by simp)))

theorem memOnly_uncorrectable (s : Chip) (c mb : Nat) : memOnly s (uncorrectable s c mb) := by
  have h := memOnly_trans (memOnly_trans (memOnly_trans (memOnly_putBurst s c mb (List.replicate 64 0#8) true)
    (memOnly_memLog _ c mb 0x2001)) (memOnly_eccCount _ c 47 32 1)) (memOnly_modChan _ c (fun x =>
      { x with uncorr := ((s.cycle :: (getChan s c).uncorr).filter (fun t => decide (s.cycle < t + 700000000))).take 16 }))
  unfold uncorrectable
  exact memOnly_ite (memOnly_trans h (memOnly_failChannel _ _)) h

theorem memOnly_readBurst (s : Chip) (p c mb : Nat) : memOnly s (readBurst s p c mb).1 := by
  simp only [readBurst]
  split_ifs
  · exact memOnly_memLog ..
  · exact memOnly_ctrAdd ..
  · exact memOnly_trans (memOnly_trans (memOnly_trans (memOnly_ctrAdd ..) (memOnly_eccCount ..)) (memOnly_noteCE _)) (memOnly_modChan ..)
  · exact memOnly_trans (memOnly_ctrAdd ..) (memOnly_uncorrectable ..)

theorem memOnly_writeBurst (s : Chip) (p c mb o : Nat) (bs : List MByte) : memOnly s (writeBurst s p c mb o bs).1 := by
  simp only [writeBurst]
  split_ifs
  · exact memOnly_memLog ..
  · exact memOnly_trans (memOnly_putBurst ..) (memOnly_ctrAdd ..)
  · exact memOnly_trans (memOnly_trans (memOnly_readBurst ..) (memOnly_putBurst ..)) (memOnly_ctrAdd ..)

theorem memOnly_devReadGo (p n : Nat) (s : Chip) (a len : Nat) : memOnly s (devReadGo p n s a len).1 := by
  induction n generalizing s a len with
  | zero => exact memOnly_refl s
  | succ n ih =>
    simp only [devReadGo]
    split
    · exact memOnly_refl s
    · split
      · exact memOnly_trans (memOnly_readBurst ..) (ih ..)
      · exact memOnly_refl s
      · exact memOnly_refl s

theorem memOnly_devWriteGo (p n : Nat) (s : Chip) (a : Nat) (bs : List MByte) : memOnly s (devWriteGo p n s a bs).1 := by
  induction n generalizing s a bs with
  | zero => exact memOnly_refl s
  | succ n ih =>
    simp only [devWriteGo]
    split
    · exact memOnly_refl s
    · split
      · exact memOnly_trans (memOnly_writeBurst ..) (ih ..)
      · exact memOnly_refl s
      · exact memOnly_refl s

theorem memOnly_zeroRange (n a : Nat) (s : Chip) : memOnly s (zeroRange n a s) := by
  induction n generalizing a s with
  | zero => exact memOnly_refl s
  | succ n ih => exact memOnly_trans (memOnly_devWriteGo ..) (ih ..)

theorem memOnly_clearRanges (s : Chip) (l : List (Nat × Nat × Nat)) : memOnly s (clearRanges s l) :=
  forEach_keeps memOnly_refl (fun _ _ _ => memOnly_trans) (fun _ _ _ => memOnly_zeroRange ..) s

/-- A change of parts besides the registers, before and after which registers are written. -/
theorem chipOnly_of_change {ks : List Nat} {st : State} {u w : Chip} {f : Chip → Chip}
    (hf : ∀ c b, f { c with bar := b } = { f c with bar := b }) (hb : onlyBar ks st.chip u) (hw : onlyBar ks (f u) w) :
    chipOnly ks st { st with chip := w } f := by
  obtain ⟨hu, hbk⟩ := hb
  obtain ⟨hwf, hwk⟩ := hw
  have hfu : f u = { f st.chip with bar := u.bar } := by
    refine Eq.trans (congrArg f hu) ?_
    rw [hf]
  refine ⟨?_, fun k hk => ?_⟩
  · have : w = { f st.chip with bar := w.bar } := by
      refine hwf.trans ?_
      rw [hfu]
    exact congrArg (fun c => ({ st with chip := c } : State)) this
  · refine (hwk k hk).trans (Eq.trans ?_ (hbk k hk))
    unfold barGet
    rw [hfu]

-- Grants (R519, R520, R533).

theorem aGRANT_lt {g : Nat} (h : g < 256) : aGRANT g < 0x00800000 := by
  unfold aGRANT
  omega

/-- What a write of a grant's entry does that is not the same entry again. -/
def grantStored (s : Chip) (g v : Nat) : Chip :=
  if bitOf v 63 && grantBad s g v then partCode s (bitsOf v 61 58) 0x4003
  else barSet (dropGrant s g) (aGRANT g) (setBits v 62 62 (bitsOf (barGet (dropGrant s g) (aGRANT g)) 62 62))

theorem exec_grantWrite {s : State} {g : Nat} (hg : g < 256) (data : Word) {v : Nat} (hv : v = setBits data.toNat 29 22 0) :
    (setBits v 62 62 (bitsOf (barGet s.chip (aGRANT g)) 62 62) = barGet s.chip (aGRANT g) → exec (.grantWrite g data) s = .next s) ∧
      (setBits v 62 62 (bitsOf (barGet s.chip (aGRANT g)) 62 62) ≠ barGet s.chip (aGRANT g) →
        exec (.grantWrite g data) s = .next { s with chip := grantStored s.chip g v }) := by
  have hexec : exec (.grantWrite g data) s = .next { s with chip :=
      (if setBits v 62 62 (bitsOf (barGet s.chip (aGRANT g)) 62 62) == barGet s.chip (aGRANT g) then s.chip
      else grantStored s.chip g v) } :=
    onChip_next (f := cmdGrantWrite g data) (by
      unfold cmdGrantWrite
      rw [onUnit_next hg, hv]
      rfl)
  constructor <;> intro h <;> rw [hexec]
  · rw [if_pos (beq_iff_eq.2 h)]
  · rw [if_neg (by simpa using h)]

theorem grantsChange : Clauses.GrantsChange := by
  intro s g data hg k old v
  obtain ⟨hsame, hother⟩ := exec_grantWrite (s := s) hg data (v := v) rfl
  have hv : ∀ x, setBits v 62 62 x < 2 ^ 64 := fun x =>
    setBits_lt _ _ _ _ (by omega) (by omega) (setBits_lt _ _ _ _ (by omega) (by omega) data.isLt)
  have hok : bitOf v 63 = false ∨ grantBad s.chip g v = false → (bitOf v 63 && grantBad s.chip g v) = false := by
    rintro (h | h) <;> simp [h]
  refine ⟨hsame, fun hne h1 h2 => ?_, fun hne hgood hoff => ?_, fun hne hgood hon => ?_, ?_⟩
  · refine ⟨_, hother hne, ?_⟩
    rw [grantStored, h1, h2, Bool.and_self, if_pos rfl]
    refine ⟨regsOnly_of_onlyBar (onlyBar_fset _ _ _ _ (List.mem_singleton_self _)), ?_⟩
    exact (fget_fset_same _ _ _ _ _ (by omega) (by omega)).trans rfl
  · have hdrop : dropGrant s.chip g = s.chip := by
      unfold dropGrant
      exact if_pos (by rw [show bitOf (barGet s.chip (aGRANT g)) 63 = false from hoff]; rfl)
    refine ⟨_, hother hne, ?_⟩
    rw [grantStored, hok hgood, hdrop, if_neg Bool.false_ne_true]
    refine ⟨regsOnly_of_onlyBar (onlyBar_barSet _ _ (List.mem_singleton_self _)), ?_⟩
    exact (barGet_barSet_same ..).trans (Nat.mod_eq_of_lt (hv _))
  · obtain ⟨u, hu⟩ : ∃ u, u = fsetb (fsetb s.chip k 63 false) k 62 true := ⟨_, rfl⟩
    have hb : onlyBar [k] s.chip u := by
      rw [hu]
      exact onlyBar_trans (onlyBar_fsetb _ _ _ (List.mem_singleton_self _)) (onlyBar_fsetb _ _ _ (List.mem_singleton_self _))
    have h62 : bitsOf (barGet u k) 62 62 = 1 := by
      rw [hu]
      exact fget_fset_same _ _ _ _ _ (by omega) (by omega)
    have hdrop : dropGrant s.chip g = { u with mem := { u.mem with clearing := u.mem.clearing ++ [(g, grantBase old, grantSize old)] } } := by
      unfold dropGrant
      refine (if_neg (by rw [show bitOf (barGet s.chip (aGRANT g)) 63 = true from hon]; decide)).trans ?_
      rw [hu]
    have hst : grantStored s.chip g v =
        barSet { u with mem := { u.mem with clearing := u.mem.clearing ++ [(g, grantBase old, grantSize old)] } } k (setBits v 62 62 1) := by
      rw [grantStored, hok hgood, hdrop, if_neg Bool.false_ne_true]
      have hw : ∀ w : Chip, barGet w k = barGet u k → barSet w (aGRANT g) (setBits v 62 62 (bitsOf (barGet w (aGRANT g)) 62 62)) =
          barSet w k (setBits v 62 62 1) := fun w hw => by
        rw [hw, h62]
      exact hw _ rfl
    rw [hother hne, hst]
    exact ⟨_, rfl, (barGet_barSet_same ..).trans (Nat.mod_eq_of_lt (hv _)),
      chipOnly_of_change (fun _ _ => rfl) hb (onlyBar_barSet _ _ (List.mem_singleton_self _))⟩
  · have hexec : exec (.grantClearComplete g) s = .next { s with chip := (
        fsetb { clearRanges s.chip (s.chip.mem.clearing.filter (fun c => c.1 == g)) with
          mem := { (clearRanges s.chip (s.chip.mem.clearing.filter (fun c => c.1 == g))).mem with
            clearing := (clearRanges s.chip (s.chip.mem.clearing.filter (fun c => c.1 == g))).mem.clearing.filter (fun c => c.1 != g) } }
          (aGRANT g) 62 false) } :=
      onChip_next (f := cmdGrantClearComplete g) (by
        unfold cmdGrantClearComplete
        rw [onUnit_next hg])
    obtain ⟨hf, hb⟩ := memOnly_clearRanges s.chip (s.chip.mem.clearing.filter (fun c => c.1 == g))
    generalize clearRanges s.chip (s.chip.mem.clearing.filter (fun c => c.1 == g)) = u at *
    obtain ⟨w, hw⟩ : ∃ w, w = { u with mem := { u.mem with clearing := u.mem.clearing.filter (fun c => c.1 != g) } } := ⟨_, rfl⟩
    rw [← hw] at hexec
    have hbit := fbit_fsetb_same w (aGRANT g) 62 false (by omega)
    have hfield : fget (fsetb w (aGRANT g) 62 false) (aGRANT g) 61 0 = fget w (aGRANT g) 61 0 :=
      fget_fset_field _ _ _ _ _ _ _ (by omega) (by omega) (by omega) (by omega)
    have hz := onlyBar_fsetb (ks := [aGRANT g]) w 62 false (List.mem_singleton_self _)
    generalize fsetb w (aGRANT g) 62 false = z at *
    have hwk : barGet w (aGRANT g) = barGet s.chip (aGRANT g) := by
      rw [hw]
      exact hb _ (aGRANT_lt hg)
    refine ⟨_, hexec, hbit, hfield.trans (fget_of_barGet hwk 61 0), ?_, ?_, ?_⟩
    · change z.mem.clearing = _
      rw [hz.1, hw, hf]
    · change z.tiles = _
      rw [hz.1, hw, hf]
    · change z.strands = _
      rw [hz.1, hw, hf]

end Sys2Proof.Proofs
end

section
/-! SUPPORT. The bandwidth regulators (O48). -/

namespace Sys2Proof.Proofs

open Sys2Proof.Machine

def putParts (u s : Chip) : Chip := { s with parts := u.parts }

theorem parts_parts : Parts putParts := ⟨fun _ _ _ _ => rfl, fun _ _ => rfl⟩

theorem within_modPart (ks : List Nat) (s : Chip) (p : Nat) (f : Part → Part) : within putParts ks s (modPart s p f) :=
  ⟨rfl, fun _ _ => rfl⟩

theorem getPart_of_onlyBar {ks : List Nat} {s u : Chip} (h : onlyBar ks s u) (p : Nat) : getPart u p = getPart s p := by
  unfold getPart
  rw [h.1]

/-- The sum of a slot's budgets passes the memory's or the fabric's capacity (R536). -/
def slotAbove (s : Chip) (slot p v : Nat) : Bool :=
  decide (memCap s < slotSum s 0 slot p (bitsOf v 63 32) (memCap s)) ||
    decide (fabCap s < slotSum s 1 slot p (bitsOf v 31 0) (fabCap s))

theorem exec_bwSlotWrite {s : State} {p slot : Nat} (hp : p < 16) (hs : slot < 64) (isB : Bool) (data : Word) :
    exec (.bwSlotWrite p slot isB data) s = .next { s with chip := (
      if p == 0 then s.chip
      else if isB then fset s.chip (aBW_SLOT_B p slot) 31 0 data.toNat
      else if slotAbove s.chip slot p data.toNat then partCode s.chip p 0x4004
      else barSet s.chip (aBW_SLOT_A p slot) data.toNat) } :=
  onChip_next (f := cmdBwSlotWrite p slot isB data) (by
    unfold cmdBwSlotWrite
    exact if_pos ⟨hp, hs⟩)

theorem slotClause {s : State} {p slot : Nat} (hp : p < 16) (hs : slot < 64) (data : Word) (h1 : 1 ≤ p) :
    (slotAbove s.chip slot p data.toNat = false → ∃ t, exec (.bwSlotWrite p slot false data) s = .next t ∧
      regsOnly [aBW_SLOT_A p slot] s t ∧ barGet t.chip (aBW_SLOT_A p slot) = data.toNat) ∧
    (slotAbove s.chip slot p data.toNat = true → ∃ t, exec (.bwSlotWrite p slot false data) s = .next t ∧
      regsOnly [aPART_STATUS p] s t ∧ fget t.chip (aPART_STATUS p) 63 48 = 0x4004) ∧
    ∃ t, exec (.bwSlotWrite p slot true data) s = .next t ∧ regsOnly [aBW_SLOT_B p slot] s t ∧
      fget t.chip (aBW_SLOT_B p slot) 31 0 = bitsOf data.toNat 31 0 := by
  have hp0 : (p == 0) = false := by simpa using (show p ≠ 0 by omega)
  refine ⟨fun h => ⟨_, exec_bwSlotWrite hp hs false data, ?_⟩, fun h => ⟨_, exec_bwSlotWrite hp hs false data, ?_⟩,
    ⟨_, exec_bwSlotWrite hp hs true data, ?_⟩⟩ <;> simp only [hp0, Bool.false_eq_true, if_false, if_true]
  · rw [h, if_neg Bool.false_ne_true]
    exact ⟨regsOnly_of_onlyBar (onlyBar_barSet _ _ (List.mem_singleton_self _)),
      (barGet_barSet_same ..).trans (Nat.mod_eq_of_lt data.isLt)⟩
  · rw [h, if_pos rfl]
    exact ⟨regsOnly_of_onlyBar (onlyBar_fset _ _ _ _ (List.mem_singleton_self _)),
      (fget_fset_same _ _ _ _ _ (by omega) (by omega)).trans rfl⟩
  · refine ⟨regsOnly_of_onlyBar (onlyBar_fset _ _ _ _ (List.mem_singleton_self _)), ?_⟩
    refine (fget_fset_same _ _ _ _ _ (by omega) (by omega)).trans ?_
    rw [bitsOf_eq, pow_zero, Nat.div_one]

/-- A partition's used tokens after its depth has changed. -/
def usedCut (old new : Nat) (x : Part) : Part :=
  { x with
    usedMem := cutUsed old new x.usedMem
    usedFab := cutUsed old new x.usedFab
    usedMesh := (List.range 144).foldl (fun m t =>
      tset (fun _ => 0) t (if tget (fun _ => 0) x.usedMesh t == 0 then 0 else cutUsed old new (tget (fun _ => 0) x.usedMesh t)) m)
      x.usedMesh }

theorem bwUsed_of_part {s : Chip} {p : Nat} {x : Part} (h : getPart s p = x) (tile : Nat) :
    bwUsed s p 0 tile = x.usedMem ∧ bwUsed s p 1 tile = x.usedFab ∧
      ∀ r, 2 ≤ r → bwUsed s p r tile = tget (fun _ => 0) x.usedMesh tile := by
  subst h
  refine ⟨rfl, rfl, fun r hr => ?_⟩
  unfold bwUsed
  simp only [beq_iff_eq]
  rw [if_neg (by omega), if_neg (by omega)]

theorem depthClause {s : State} {p : Nat} (tile : Nat) (hp : p < 16) (data : Word) :
    ∃ t, exec (.bwDepthWrite p data) s = .next t ∧ bwDepth t.chip p = 256 * max 0x40 (bitsOf data.toNat 39 16) ∧
      fget t.chip (aBW_CTL p) 3 1 = bitsOf data.toNat 3 1 ∧ chipOnly [aBW_CTL p] s t (fun c => { c with parts := t.chip.parts }) ∧
      ∀ r, r < 2 → bwTokens t.chip p r tile = min (bwDepth t.chip p) (bwTokens s.chip p r tile) := by
  obtain ⟨u, hu⟩ : ∃ u, u = fset (fset s.chip (aBW_CTL p) 39 16 (max 0x40 (bitsOf data.toNat 39 16))) (aBW_CTL p) 3 1
      (bitsOf data.toNat 3 1) := ⟨_, rfl⟩
  have hb : onlyBar [aBW_CTL p] s.chip u := by
    rw [hu]
    exact onlyBar_trans (onlyBar_fset _ _ _ _ (List.mem_singleton_self _)) (onlyBar_fset _ _ _ _ (List.mem_singleton_self _))
  have hlow : fget u (aBW_CTL p) 3 1 = bitsOf data.toNat 3 1 := by
    rw [hu, fget_fset_same _ _ _ _ _ (by omega) (by omega)]
    exact Nat.mod_eq_of_lt (bitsOf_lt ..)
  have hdepth : bwDepth u p = 256 * max 0x40 (bitsOf data.toNat 39 16) := by
    have hlt := bitsOf_lt data.toNat 39 16
    unfold bwDepth
    rw [hu, fget_fset_field _ _ _ _ _ _ _ (by omega) (by omega) (by omega) (by omega),
      fget_fset_same _ _ _ _ _ (by omega) (by omega)]
    omega
  have hexec : exec (.bwDepthWrite p data) s = .next { s with chip := (modPart u p (usedCut (bwDepth s.chip p) (bwDepth u p))) } :=
    onChip_next (f := cmdBwDepthWrite p data) (by
      unfold cmdBwDepthWrite onPart
      rw [onUnit_next hp, hu]
      rfl)
  refine ⟨_, hexec, hdepth, hlow, chipOnly_of_within (put := putParts) (within_trans parts_parts (within_bar parts_parts hb)
    (within_modPart ..)), fun r hr => ?_⟩
  obtain ⟨hmem, hfab, -⟩ := bwUsed_of_part (getPart_modPart_same u p (usedCut (bwDepth s.chip p) (bwDepth u p))) tile
  obtain ⟨hmem0, hfab0, -⟩ := bwUsed_of_part (getPart_of_onlyBar hb p).symm tile
  have hcut : ∀ old new used : Nat, new - cutUsed old new used = min new (old - used) := fun old new used => by
    unfold cutUsed
    omega
  change bwDepth u p - bwUsed (modPart u p _) p r tile = min (bwDepth u p) (bwDepth s.chip p - bwUsed s.chip p r tile)
  rcases (show r = 0 ∨ r = 1 by omega) with rfl | rfl
  · rw [hmem, hmem0]
    exact hcut ..
  · rw [hfab, hfab0]
    exact hcut ..

/-- What becomes of a held request (R539). -/
def heldTried (u : Chip) (p reg tile charge : Nat) (idle : Bool) : Chip :=
  if bwNow u p reg == 0xFFFFFFFF then dropHeld u p (reg, tile, charge)
  else if charge ≤ bwTokens u p reg tile then
    dropHeld (bwSetUsed u p reg tile (bwUsed u p reg tile + charge)) p (reg, tile, charge)
  else if idle && borrows u p reg then
    fsat (modPart (dropHeld u p (reg, tile, charge)) p (fun x => { x with borrow := ((getPart u p).borrow + charge) % 256 }))
      (aBW_STATUS p) 31 0 (((getPart u p).borrow + charge) / 256)
  else u

theorem exec_bellowsHoldRelease {s : State} {p : Nat} (hp : p < 16) (reg tile charge : Nat) (idle : Bool) :
    exec (.bellowsHoldRelease p reg tile charge idle) s = .next { s with chip := (
      if (getPart s.chip p).heldReq.contains (reg, tile, charge) then heldTried s.chip p reg tile charge idle else s.chip) } :=
  onChip_next (f := cmdBellowsHoldRelease p reg tile charge idle) (by
    unfold cmdBellowsHoldRelease onPart when
    rw [onUnit_next hp]
    rfl)

theorem bwUsed_bwSetUsed (s : Chip) (p reg tile v : Nat) : bwUsed (bwSetUsed s p reg tile v) p reg tile = v := by
  unfold bwUsed bwSetUsed
  rw [getPart_modPart_same]
  by_cases h0 : reg = 0
  · simp [h0]
  · by_cases h1 : reg = 1
    · simp [h1]
    · simp [h0, h1]

/-- A held request that is let go leaves the list of held requests and the tokens alone. -/
theorem dropHeld_part (s : Chip) (p : Nat) (r : Nat × Nat × Nat) :
    getPart (dropHeld s p r) p = { getPart s p with heldReq := (getPart s p).heldReq.erase r } := getPart_modPart_same ..

theorem within_dropHeld (ks : List Nat) (s : Chip) (p : Nat) (r : Nat × Nat × Nat) : within putParts ks s (dropHeld s p r) :=
  within_modPart ..

theorem within_bwSetUsed (ks : List Nat) (s : Chip) (p reg tile v : Nat) : within putParts ks s (bwSetUsed s p reg tile v) :=
  within_modPart ..

theorem bwUsed_dropHeld (s : Chip) (p : Nat) (r : Nat × Nat × Nat) (reg tile : Nat) :
    bwUsed (dropHeld s p r) p reg tile = bwUsed s p reg tile := by
  unfold bwUsed
  rw [dropHeld_part]

theorem heldReq_bwSetUsed (s : Chip) (p reg tile v : Nat) :
    (getPart (bwSetUsed s p reg tile v) p).heldReq = (getPart s p).heldReq := by
  unfold bwSetUsed
  rw [getPart_modPart_same]
  split_ifs <;> rfl

theorem heldClause {s : State} {p : Nat} (hp : p < 16) (reg tile charge : Nat) (idle : Bool)
    (hmem : (reg, tile, charge) ∈ (getPart s.chip p).heldReq) :
    (bwNow s.chip p reg = 0xFFFFFFFF → ∃ t, exec (.bellowsHoldRelease p reg tile charge idle) s = .next t ∧
      getPart t.chip p = { getPart s.chip p with heldReq := (getPart s.chip p).heldReq.erase (reg, tile, charge) } ∧
      chipOnly [] s t (fun c => { c with parts := t.chip.parts })) ∧
    (bwNow s.chip p reg ≠ 0xFFFFFFFF → charge ≤ bwTokens s.chip p reg tile → ∃ t,
      exec (.bellowsHoldRelease p reg tile charge idle) s = .next t ∧
      (getPart t.chip p).heldReq = (getPart s.chip p).heldReq.erase (reg, tile, charge) ∧
      bwTokens t.chip p reg tile = bwTokens s.chip p reg tile - charge ∧ chipOnly [] s t (fun c => { c with parts := t.chip.parts })) ∧
    (bwNow s.chip p reg ≠ 0xFFFFFFFF → bwTokens s.chip p reg tile < charge → borrows s.chip p reg = true → ∃ t,
      exec (.bellowsHoldRelease p reg tile charge true) s = .next t ∧
      getPart t.chip p = { getPart s.chip p with
        heldReq := (getPart s.chip p).heldReq.erase (reg, tile, charge), borrow := ((getPart s.chip p).borrow + charge) % 256 } ∧
      fget t.chip (aBW_STATUS p) 31 0 =
        min (fget s.chip (aBW_STATUS p) 31 0 + ((getPart s.chip p).borrow + charge) / 256) (2 ^ 32 - 1)) ∧
    (bwNow s.chip p reg ≠ 0xFFFFFFFF → bwTokens s.chip p reg tile < charge → (idle && borrows s.chip p reg) = false →
      exec (.bellowsHoldRelease p reg tile charge idle) s = .next s) := by
  have hexec : ∀ b, exec (.bellowsHoldRelease p reg tile charge b) s =
      .next { s with chip := heldTried s.chip p reg tile charge b } := fun b => by
    rw [exec_bellowsHoldRelease hp, if_pos (List.contains_iff_mem.2 hmem)]
  have hnow : ∀ {b : Bool}, bwNow s.chip p reg ≠ 0xFFFFFFFF → (bwNow s.chip p reg == 0xFFFFFFFF) = false := fun h => by simpa using h
  refine ⟨fun h => ?_, fun h hfit => ?_, fun h hfew hbor => ?_, fun h hfew hno => ?_⟩
  · have hdo : heldTried s.chip p reg tile charge idle = dropHeld s.chip p (reg, tile, charge) := if_pos (beq_iff_eq.2 h)
    have hx := hexec idle
    rw [hdo] at hx
    exact ⟨_, hx, dropHeld_part .., chipOnly_of_within (within_dropHeld ..)⟩
  · have hdo : heldTried s.chip p reg tile charge idle =
        dropHeld (bwSetUsed s.chip p reg tile (bwUsed s.chip p reg tile + charge)) p (reg, tile, charge) := by
      unfold heldTried
      rw [if_neg (by simpa using h), if_pos hfit]
    have hx := hexec idle
    rw [hdo] at hx
    refine ⟨_, hx, ?_, ?_, chipOnly_of_within (within_trans parts_parts (within_bwSetUsed ..) (within_dropHeld ..))⟩
    · exact (congrArg Part.heldReq (dropHeld_part ..)).trans (congrArg (·.erase (reg, tile, charge)) (heldReq_bwSetUsed ..))
    · have hused : bwUsed (dropHeld (bwSetUsed s.chip p reg tile (bwUsed s.chip p reg tile + charge)) p (reg, tile, charge)) p reg tile =
          bwUsed s.chip p reg tile + charge := by rw [bwUsed_dropHeld, bwUsed_bwSetUsed]
      change bwDepth s.chip p - bwUsed (dropHeld _ p _) p reg tile = bwDepth s.chip p - bwUsed s.chip p reg tile - charge
      rw [hused, Nat.sub_add_eq]
  · have hdo : heldTried s.chip p reg tile charge true =
        fsat (modPart (dropHeld s.chip p (reg, tile, charge)) p
          (fun x => { x with borrow := ((getPart s.chip p).borrow + charge) % 256 }))
          (aBW_STATUS p) 31 0 (((getPart s.chip p).borrow + charge) / 256) := by
      unfold heldTried
      rw [if_neg (by simpa using h), if_neg (by omega), hbor, Bool.and_self, if_pos rfl]
    have hpart := getPart_modPart_same (dropHeld s.chip p (reg, tile, charge)) p
      (fun x => { x with borrow := ((getPart s.chip p).borrow + charge) % 256 })
    rw [dropHeld_part] at hpart
    have hkeep : barGet (modPart (dropHeld s.chip p (reg, tile, charge)) p
      (fun x => { x with borrow := ((getPart s.chip p).borrow + charge) % 256 })) (aBW_STATUS p) = barGet s.chip (aBW_STATUS p) := rfl
    have hx := hexec true
    rw [hdo] at hx
    generalize modPart (dropHeld s.chip p (reg, tile, charge)) p _ = u at hpart hkeep hx
    have hcount := fget_fsat_same u (aBW_STATUS p) 31 0 (((getPart s.chip p).borrow + charge) / 256) (by omega) (by omega)
    have hb := onlyBar_fsat (ks := [aBW_STATUS p]) u 31 0 (((getPart s.chip p).borrow + charge) / 256) (List.mem_singleton_self _)
    generalize fsat u (aBW_STATUS p) 31 0 _ = w at hcount hb hx
    refine ⟨_, hx, (getPart_of_onlyBar hb p).trans hpart, ?_⟩
    rw [← fget_of_barGet hkeep]
    exact hcount
  · rw [hexec, heldTried, if_neg (by simpa using h), if_neg (by omega), if_neg (by simp [hno])]

theorem regulatorsRun : Clauses.RegulatorsRun := by
  intro s p slot reg tile charge idle data hp hslot _ _
  refine ⟨fun b => ?_, fun h1 => slotClause hp hslot data h1, depthClause tile hp data, ?_, fun hno => ?_, heldClause hp reg tile charge idle⟩
  · rw [exec_bwSlotWrite (by omega) hslot, if_pos (beq_self_eq_true 0)]
  · exact ⟨_, onChip_next (f := cmdBcycleWrite data) rfl, rfl⟩
  · rw [exec_bellowsHoldRelease hp, if_neg (by simpa using hno)]

/-- Settles O48: the grant table by the entry it holds, the regulators by what they find. -/
theorem grantsAndRegulators : Obligations.GrantsAndRegulators := ⟨grantsChange, regulatorsRun⟩

end Sys2Proof.Proofs
end

section
/-! SUPPORT. Mailboxes (O49). -/

namespace Sys2Proof.Proofs

open Sys2Proof.Machine

theorem getHasp_setHasp_other (s : Chip) {f k : Nat} (h : k ≠ f) (x : Hasp) : getHasp (setHasp s f x) k = getHasp s k := by
  rw [getHasp_setHasp, if_neg h]

theorem getHasp_of_hasp {s u : Chip} (h : u.hasp = s.hasp) (k : Nat) : getHasp u k = getHasp s k := by
  unfold getHasp
  rw [h]

theorem haspIrq_hasp (s : Chip) (f : Nat) (b : Bool) : (haspIrq s f b).hasp = s.hasp := by
  simp only [haspIrq]
  split <;> rfl

/-- A message in the ring of a side. -/
def inRing (tenant : Bool) (x : Hasp) (m : Msg) : Hasp :=
  if tenant then { x with toTenant := x.toTenant ++ [m] } else { x with toManager := x.toManager ++ [m] }

theorem getHasp_haspPush (s : Chip) (f : Nat) (tenant : Bool) (m : Msg) :
    getHasp (haspPush s f tenant m) f = inRing tenant (getHasp s f) m ∧
      ∀ k, k ≠ f → getHasp (haspPush s f tenant m) k = getHasp s k := by
  have h := getHasp_of_hasp (haspIrq_hasp (setHasp s f (inRing tenant (getHasp s f) m)) f tenant)
  exact ⟨(h f).trans (getHasp_setHasp_same ..), fun k hk => (h k).trans (getHasp_setHasp_other s hk _)⟩

/-- The messages that the Hearth holds for a side. -/
def heldFor (tenant : Bool) (x : Hasp) : List Msg := if tenant then x.heldTenant else x.heldManager

/-- Nothing held: nothing follows. -/
theorem haspFlush_idle {f : Nat} {tenant : Bool} {s : Chip} (h : heldFor tenant (getHasp s f) = []) (n : Nat) :
    haspFlush f tenant n s = s := by
  cases n with
  | zero => rfl
  | succ n =>
    unfold heldFor at h
    simp only [haspFlush, h]

theorem held_of_idle {s : Chip} {f : Nat} (h : haspIdle s f = true) (tenant : Bool) : heldFor tenant (getHasp s f) = [] := by
  simp only [haspIdle, Bool.and_eq_true, List.isEmpty_iff] at h
  cases tenant
  · exact h.2
  · exact h.1

theorem heldFor_inRing (side tenant : Bool) (x : Hasp) (m : Msg) : heldFor side (inRing tenant x m) = heldFor side x := by
  cases side <;> cases tenant <;> rfl

def putHasp (u s : Chip) : Chip := { s with hasp := u.hasp, irqs := u.irqs }

theorem parts_hasp : Parts putHasp := ⟨fun _ _ _ _ => rfl, fun _ _ => rfl⟩

theorem within_of_onlyHasp {ks : List Nat} {s u : Chip} (h : onlyHasp s u) : within putHasp ks s u :=
  ⟨by rw [h]; rfl, fun k _ => barGet_of_onlyHasp h k⟩

-- Messages of a side (R547 to R550).

theorem leastCode_lt {n : Nat} (hn : 0 < n) {l : List Nat} (h : ∀ c ∈ l, c < n) : leastCode l < n := by
  induction l with
  | nil => exact hn
  | cons c r ih =>
    have hc := h c List.mem_cons_self
    have hr := ih fun d hd => h d (List.mem_cons_of_mem _ hd)
    simp only [leastCode]
    split_ifs <;> omega

theorem haspCode_lt (s : Chip) (f : Nat) (tenant : Bool) (type len : Nat) : haspCode s f tenant type len < 2 ^ 16 := by
  have hc : ∀ (b : Prop) [Decidable b] (c : Nat), c < 2 ^ 16 → (if b then c else 0) < 2 ^ 16 := fun b _ c h => by
    split <;> omega
  refine leastCode_lt (by omega) fun c hm => ?_
  simp only [List.mem_cons, List.not_mem_nil, or_false] at hm
  rcases hm with rfl | rfl | rfl <;> exact hc _ _ (by omega)

/-- A refused message leaves its code. -/
theorem haspSend_refused {s : Chip} {f : Nat} {tenant : Bool} {type : Nat} (status : Nat) {payload : List Byte}
    (h : haspCode s f tenant type payload.length ≠ 0) :
    haspSend s f tenant type status payload = fset s (aHASP tenant f + 0xC8) 63 48 (haspCode s f tenant type payload.length) := by
  unfold haspSend
  exact if_pos (by simpa using h)

/-- The message that a side sends next. -/
def nextMsg (s : Chip) (f : Nat) (tenant : Bool) (type status : Nat) (payload : List Byte) : Msg :=
  ⟨type, tget (fun _ => 0) (getHasp s f).seqs (if tenant then 2 else 1), if tenant then 2 else 1, payload.length, status, payload⟩

/-- A side's instance after its sequence number has moved on. -/
def numbered (s : Chip) (f : Nat) (tenant : Bool) : Hasp :=
  let src := if tenant then 2 else 1
  { getHasp s f with seqs := tset (fun _ => 0) src ((tget (fun _ => 0) (getHasp s f).seqs src + 1) % 2 ^ 16) (getHasp s f).seqs }

theorem haspSend_goes {s : Chip} {f : Nat} {tenant : Bool} {type : Nat} (status : Nat) {payload : List Byte}
    (h : haspCode s f tenant type payload.length = 0) :
    ∃ u, onlyBar [aHASP tenant f + 0xC8] s u ∧ fget u (aHASP tenant f + 0xC8) 63 48 = 0 ∧
      u.bar = (fset s (aHASP tenant f + 0xC8) 63 48 0).bar ∧
      haspSend s f tenant type status payload =
        haspRoute (setHasp u f (numbered s f tenant)) f tenant (nextMsg s f tenant type status payload) := by
  obtain ⟨u, hu⟩ : ∃ u, u = fset s (aHASP tenant f + 0xC8) 63 48 0 := ⟨_, rfl⟩
  have hb : onlyBar [aHASP tenant f + 0xC8] s u := hu ▸ onlyBar_fset _ _ _ _ (List.mem_singleton_self _)
  have hg : getHasp u f = getHasp s f := getHasp_of_hasp (by rw [hb.1]) f
  refine ⟨u, hb, ?_, by rw [hu], ?_⟩
  · rw [hu, fget_fset_same _ _ _ _ _ (by omega) (by omega)]
    rfl
  · simp only [haspSend, h]
    rw [← hu, if_neg (by decide), hg]
    rfl

/-- A message that is neither a version's acceptance nor a VACATED stands in the other side's ring. -/
theorem haspRoute_plain {s : Chip} {f : Nat} {tenant : Bool} {m : Msg} (hf : f ≠ 0) (hv : m.type ≠ 0x11)
    (ha : (m.type == 2 && m.status == 0 && !tenant) = false) (hi : haspIdle s f = true) :
    haspRoute s f tenant m = haspPush s f (!tenant) m := by
  have hp := getHasp_haspPush s f (!tenant) m
  have hheld : ∀ side, heldFor side (getHasp (haspPush s f (!tenant) m) f) = [] := fun side => by
    rw [hp.1, heldFor_inRing, held_of_idle hi]
  have hroute : haspRoute s f tenant m = haspFlush f true 16 (haspFlush f false 16 (haspPush s f (!tenant) m)) := by
    simp only [haspRoute, ha, Bool.false_eq_true, if_false]
    rw [if_neg (by simp [hv]), if_neg (by simpa using hf)]
  rw [hroute, haspFlush_idle (hheld false), haspFlush_idle (hheld true)]

/-- A version's acceptance is noted as it stands in the tenant's ring (R549). -/
theorem haspRoute_accepts {s : Chip} {f : Nat} {m : Msg} (hf : f ≠ 0) (ht : m.type = 2) (hs : m.status = 0)
    (hi : haspIdle s f = true) :
    haspRoute s f false m = haspPush (setHasp s f { getHasp s f with
      agreed := true, version := (bNat m.payload 0 1 % 16) * 16 + bNat m.payload 1 1 % 16 }) f true m := by
  obtain ⟨x, hx⟩ : ∃ x, x = { getHasp s f with
    agreed := true, version := (bNat m.payload 0 1 % 16) * 16 + bNat m.payload 1 1 % 16 } := ⟨_, rfl⟩
  have hp := getHasp_haspPush (setHasp s f x) f true m
  have hheld : ∀ side, heldFor side (getHasp (haspPush (setHasp s f x) f true m) f) = [] := fun side => by
    rw [hp.1, heldFor_inRing, getHasp_setHasp_same, hx]
    exact held_of_idle hi side
  have hroute : haspRoute s f false m = haspFlush f true 16 (haspFlush f false 16 (haspPush (setHasp s f x) f true m)) := by
    rw [hx]
    simp only [haspRoute, ht, hs]
    rw [if_neg (by simp), if_neg (by simpa using hf), if_pos (by simp)]
    rfl
  rw [← hx, hroute, haspFlush_idle (hheld false), haspFlush_idle (hheld true)]

theorem sentClause {s : State} {c : Instr} {f : Nat} {tenant : Bool} {type : Nat} (status : Nat) {l : List Byte} (hf : f ≠ 0)
    (hi : haspIdle s.chip f = true) (hv : type ≠ 0x11) (ha : (type == 2 && status == 0 && !tenant) = false)
    (hexec : exec c s = .next { s with chip := haspSend s.chip f tenant type status l }) :
    (haspCode s.chip f tenant type l.length = 0 → ∃ t, exec c s = .next t ∧ haspSent s t f tenant type status l id) ∧
      (haspCode s.chip f tenant type l.length ≠ 0 → ∃ t, exec c s = .next t ∧ regsOnly [aHASP tenant f + 0xC8] s t ∧
        fget t.chip (aHASP tenant f + 0xC8) 63 48 = haspCode s.chip f tenant type l.length) := by
  constructor <;> intro h
  · obtain ⟨u, hb, hcode, -, hsend⟩ := haspSend_goes (tenant := tenant) status h
    have hidle : haspIdle (setHasp u f (numbered s.chip f tenant)) f = true := by
      unfold haspIdle
      rw [getHasp_setHasp_same]
      exact hi
    rw [hsend, haspRoute_plain hf hv ha hidle] at hexec
    obtain ⟨hown, hother⟩ := getHasp_haspPush (setHasp u f (numbered s.chip f tenant)) f (!tenant)
      (nextMsg s.chip f tenant type status l)
    have honly := onlyHasp_trans (onlyHasp_setHasp u f (numbered s.chip f tenant)) (onlyHasp_haspPush _ f (!tenant)
      (nextMsg s.chip f tenant type status l))
    generalize haspPush (setHasp u f (numbered s.chip f tenant)) f (!tenant) _ = v at hexec hown hother honly
    refine ⟨_, hexec, ?_, ?_, chipOnly_of_within (within_trans parts_hasp (within_bar parts_hasp hb) (within_of_onlyHasp honly)),
      fun k hk => ?_⟩
    · refine hown.trans ?_
      rw [getHasp_setHasp_same]
      cases tenant <;> rfl
    · exact (fget_of_barGet (barGet_of_onlyHasp honly _) 63 48).trans hcode
    · refine (hother k hk).trans ((getHasp_setHasp_other u hk _).trans ?_)
      exact getHasp_of_hasp (by rw [hb.1]) k
  · rw [haspSend_refused status h] at hexec
    exact ⟨_, hexec, regsOnly_of_onlyBar (onlyBar_fset _ _ _ _ (List.mem_singleton_self _)),
      (fget_fset_same _ _ _ _ _ (by omega) (by omega)).trans (Nat.mod_eq_of_lt (haspCode_lt ..))⟩

end Sys2Proof.Proofs
end

section
/-! SUPPORT. Mailboxes: the Hearth's messages, pops and VACATED (O49). -/

namespace Sys2Proof.Proofs

open Sys2Proof.Machine

theorem bNat_first {n x : Nat} (rest : List Byte) : bNat (leBytes n x ++ rest) 0 n = x % 2 ^ (8 * n) := by
  unfold bNat
  rw [List.drop_zero, List.take_append_of_le_length (by simp), List.take_of_length_le (by simp), leNat_leBytes]

theorem bNat_second {n k x y : Nat} : bNat (leBytes n x ++ leBytes k y) n k = y % 2 ^ (8 * k) := by
  unfold bNat
  rw [List.drop_append_of_le_length (by simp), List.drop_of_length_le (by simp), List.nil_append,
    List.take_of_length_le (by simp), leNat_leBytes]

theorem acceptClause {s : State} {f a b : Nat} (hf : 1 ≤ f) (h64 : f < 64) (hi : haspIdle s.chip f = true)
    (h : haspCode s.chip f false 2 2 = 0) : ∃ t, exec (.helloAck f a b 0) s = .next t ∧
      haspSent s t f false 2 0 (leBytes 1 a ++ leBytes 1 b) (fun h => { h with agreed := true, version := a % 16 * 16 + b % 16 }) := by
  have hexec : exec (.helloAck f a b 0) s = .next { s with chip := haspSend s.chip f false 2 0 (leBytes 1 a ++ leBytes 1 b) } :=
    onChip_next (f := cmdHelloAck f a b 0) (by
      unfold cmdHelloAck onFn
      rw [onUnit_next h64])
  obtain ⟨u, hb, hcode, -, hsend⟩ := haspSend_goes (tenant := false) (type := 2) 0 (payload := leBytes 1 a ++ leBytes 1 b) h
  obtain ⟨m, hm⟩ : ∃ m, m = nextMsg s.chip f false 2 0 (leBytes 1 a ++ leBytes 1 b) := ⟨_, rfl⟩
  have hidle : haspIdle (setHasp u f (numbered s.chip f false)) f = true := by
    unfold haspIdle
    rw [getHasp_setHasp_same]
    exact hi
  have hva : bNat m.payload 0 1 % 16 = a % 16 := by
    have := bNat_first (n := 1) (x := a) (leBytes 1 b)
    rw [hm, nextMsg, this]
    omega
  have hvb : bNat m.payload 1 1 % 16 = b % 16 := by
    have := bNat_second (n := 1) (k := 1) (x := a) (y := b)
    rw [hm, nextMsg, this]
    omega
  rw [hsend, ← hm, haspRoute_accepts (by omega) (by rw [hm, nextMsg]) (by rw [hm, nextMsg]) hidle, getHasp_setHasp_same, hva, hvb] at hexec
  obtain ⟨x, hx⟩ : ∃ x, x = { numbered s.chip f false with agreed := true, version := a % 16 * 16 + b % 16 } := ⟨_, rfl⟩
  rw [← hx] at hexec
  obtain ⟨hown, hother⟩ := getHasp_haspPush (setHasp (setHasp u f (numbered s.chip f false)) f x) f true m
  have honly := onlyHasp_trans (onlyHasp_trans (onlyHasp_setHasp u f (numbered s.chip f false)) (onlyHasp_setHasp _ f x))
    (onlyHasp_haspPush _ f true m)
  have hnum : ∀ k, k ≠ f → getHasp (setHasp (setHasp u f (numbered s.chip f false)) f x) k = getHasp s.chip k := fun k hk =>
    (getHasp_setHasp_other _ hk _).trans ((getHasp_setHasp_other _ hk _).trans (getHasp_of_hasp (by rw [hb.1]) k))
  rw [getHasp_setHasp_same] at hown
  generalize haspPush (setHasp (setHasp u f (numbered s.chip f false)) f x) f true m = v at hexec hown hother honly
  refine ⟨_, hexec, ?_, ?_, chipOnly_of_within (within_trans parts_hasp (within_bar parts_hasp hb) (within_of_onlyHasp honly)),
    fun k hk => (hother k hk).trans (hnum k hk)⟩
  · refine hown.trans ?_
    rw [hx, hm]
    rfl
  · exact (fget_of_barGet (barGet_of_onlyHasp honly _) 63 48).trans hcode

theorem exec_onTenant {s : State} {c : Instr} {f : Nat} (hf : 1 ≤ f) (h64 : f < 64) {cmd : Chip → Out} {g : Chip → Chip}
    (harm : exec c s = onChip s cmd) (hcmd : ∀ st, cmd st = onTenant f st g) :
    exec c s = .next { s with chip := g s.chip } := by
  rw [harm]
  exact onChip_next (by rw [hcmd, onTenant, if_pos ⟨hf, h64⟩])

theorem exec_onSide {s : State} {c : Instr} {f side : Nat} (hf : 1 ≤ f) (h64 : f < 64) (hs : side = 1 ∨ side = 2) {cmd : Chip → Out}
    {g : Bool → Chip → Chip} (harm : exec c s = onChip s cmd) (hcmd : ∀ st, cmd st = onSide f side st g) :
    exec c s = .next { s with chip := g (decide (side = 2)) s.chip } := by
  rw [harm]
  refine onChip_next ?_
  rw [hcmd, onSide]
  rcases hs with rfl | rfl
  · rw [if_pos ⟨rfl, h64⟩]
    rfl
  · rw [if_neg (by omega), if_pos rfl, onTenant, if_pos ⟨hf, h64⟩]
    rfl

theorem mailboxesCarry : Clauses.MailboxesCarry := by
  intro s f a b v side payload hf h64 hi goes
  have hf0 : f ≠ 0 := by omega
  refine ⟨sentClause 0 hf0 hi (by decide) rfl (exec_onTenant (cmd := cmdHello f a b) hf h64 rfl fun _ => rfl),
    sentClause 0 hf0 hi (by decide) rfl (exec_onTenant (cmd := cmdResizeReq f a b) hf h64 rfl fun _ => rfl),
    sentClause 0 hf0 hi (by decide) rfl (exec_onTenant (cmd := cmdResizeReply f a b v) hf h64 rfl fun _ => rfl),
    sentClause 0 hf0 hi (by decide) rfl (exec_onTenant (cmd := cmdBudget f payload) hf h64 rfl fun _ => rfl),
    sentClause 0 hf0 hi (by decide) rfl (exec_onTenant (cmd := cmdFreezeNotice f a) hf h64 rfl fun _ => rfl),
    sentClause 0 hf0 hi (by decide) rfl (exec_onTenant (cmd := cmdTeardown f false a) hf h64 rfl fun _ => rfl),
    fun hs => ⟨?_, ?_, ?_⟩, acceptClause hf h64 hi⟩
  · exact sentClause 0 hf0 hi (by decide) rfl (exec_onSide (cmd := cmdAck f side a) hf h64 hs rfl fun st =>
      if_neg (by omega))
  · exact sentClause b hf0 hi (by decide) rfl (exec_onSide (cmd := cmdNak f side a b) hf h64 hs rfl fun st =>
      if_neg (by omega))
  · have ht : 0x8000 + a % 0x8000 ≠ 2 := by omega
    exact sentClause 0 hf0 hi (by omega) (by simp [ht]) (exec_onSide (cmd := cmdVendorMessage f side a payload) hf h64 hs rfl
      fun _ => rfl)

-- Messages of the Hearth (R547, R548).

/-- The message that the Hearth sends next to the tenant, and its instance after the number has moved on. -/
def hearthMsg (s : Chip) (f type status : Nat) (payload : List Byte) : Msg :=
  ⟨type, tget (fun _ => 0) (getHasp s f).seqs 0, 0, payload.length, status, payload⟩

def hearthNumbered (s : Chip) (f : Nat) : Hasp :=
  { getHasp s f with seqs := tset (fun _ => 0) 0 ((tget (fun _ => 0) (getHasp s f).seqs 0 + 1) % 2 ^ 16) (getHasp s f).seqs }

theorem hearthSend_goes {s : Chip} {f : Nat} (type status : Nat) (payload : List Byte) (h : hearthMay s f true = true) :
    ∃ u, onlyHasp s u ∧ (∀ k, k ≠ f → getHasp u k = getHasp s k) ∧ getHasp u f = hearthNumbered s f ∧
      hearthSend s f true type status payload = haspPush u f true (hearthMsg s f type status payload) := by
  simp only [hearthMay, Bool.and_eq_true, decide_eq_true_eq, if_true] at h
  obtain ⟨⟨⟨hidle, hagreed⟩, hcount⟩, hring⟩ := h
  have hempty : (getHasp s f).heldTenant = [] := held_of_idle hidle true
  obtain ⟨m, hm⟩ : ∃ m, m = hearthMsg s f type status payload := ⟨_, rfl⟩
  have hsend : hearthSend s f true type status payload =
      haspFlush f true 16 (setHasp s f { hearthNumbered s f with heldTenant := [m] }) := by
    rw [hm]
    simp only [hearthSend, hempty, List.nil_append]
    rfl
  obtain ⟨u, hu⟩ : ∃ u, u = setHasp (setHasp s f { hearthNumbered s f with heldTenant := [m] }) f (hearthNumbered s f) := ⟨_, rfl⟩
  have hget : getHasp u f = hearthNumbered s f := by rw [hu, getHasp_setHasp_same]
  have hflush : haspFlush f true 16 (setHasp s f { hearthNumbered s f with heldTenant := [m] }) =
      haspFlush f true 15 (haspPush u f true m) := by
    have hback : { { hearthNumbered s f with heldTenant := [m] } with heldTenant := [] } = hearthNumbered s f := by
      unfold hearthNumbered
      rw [← hempty]
    rw [haspFlush]
    simp only [getHasp_setHasp_same, if_true]
    rw [if_pos, hback, ← hu]
    simp only [hearthNumbered, hagreed, hcount, hring]
    rfl
  refine ⟨u, ?_, fun k hk => ?_, hget, ?_⟩
  · rw [hu]
    rfl
  · rw [hu, getHasp_setHasp_other _ hk, getHasp_setHasp_other _ hk]
  · rw [hsend, hflush, haspFlush_idle, ← hm]
    rw [(getHasp_haspPush u f true m).1, heldFor_inRing, hget]
    exact hempty

theorem hearthClause {s : State} {c : Instr} {f : Nat} {type status : Nat} {payload : List Byte} (h : hearthMay s.chip f true = true)
    (hexec : exec c s = .next { s with chip := hearthSend s.chip f true type status payload }) :
    ∃ t, exec c s = .next t ∧ hearthSent s t f true type status payload := by
  obtain ⟨u, hu, huk, huf, hsend⟩ := hearthSend_goes type status payload h
  obtain ⟨hown, hother⟩ := getHasp_haspPush u f true (hearthMsg s.chip f type status payload)
  have honly := onlyHasp_trans hu (onlyHasp_haspPush u f true (hearthMsg s.chip f type status payload))
  rw [hsend] at hexec
  generalize haspPush u f true _ = v at hexec hown hother honly
  refine ⟨_, hexec, ?_, chipOnly_of_within (within_of_onlyHasp honly), fun k hk => (hother k hk).trans (huk k hk)⟩
  refine hown.trans ?_
  rw [huf]
  rfl

theorem popClause {s : State} {f : Nat} (tenant : Bool) (hi : haspIdle s.chip f = true) (x : Hasp)
    (hx : x = if tenant then { getHasp s.chip f with toTenant := (getHasp s.chip f).toTenant.drop 1 }
      else { getHasp s.chip f with toManager := (getHasp s.chip f).toManager.drop 1 }) :
    popSide s.chip f tenant = setHasp s.chip f x := by
  have hpop : popSide s.chip f tenant = haspFlush f tenant 16 (setHasp s.chip f x) := by
    rw [hx]
    rfl
  rw [hpop, haspFlush_idle]
  rw [getHasp_setHasp_same, hx]
  have := held_of_idle hi tenant
  cases tenant <;> exact this

theorem setHasp_only (s : State) (f : Nat) (x : Hasp) : getHasp (setHasp s.chip f x) f = x ∧
    chipOnly [] s { s with chip := setHasp s.chip f x } (fun c => { c with hasp := (setHasp s.chip f x).hasp }) ∧
    ∀ k, k ≠ f → getHasp (setHasp s.chip f x) k = getHasp s.chip k :=
  ⟨getHasp_setHasp_same .., ⟨rfl, fun _ _ => rfl⟩, fun _ hk => getHasp_setHasp_other _ hk _⟩

-- VACATED (R525).

/-- What one member of a loop brings about and none undoes, the loop brings about. -/
theorem forEach_reaches {α : Type} {P : Chip → Prop} {f : Chip → α → Chip} {l : List α} {i : α} (hi : i ∈ l) (hat : ∀ s, P (f s i))
    (hkeep : ∀ j s, P s → P (f s j)) (s : Chip) : P (forEach l f s) := by
  induction l generalizing s with
  | nil => exact absurd hi List.not_mem_nil
  | cons j r ih =>
    rw [forEach_cons]
    rcases List.mem_cons.1 hi with rfl | hr
    · exact forEach_keeps (R := fun a b => P a → P b) (fun _ => id) (fun _ _ _ h g p => g (h p)) (fun j _ s => hkeep j s) _ (hat s)
    · exact ih hr _

/-- Every strand of a tile held. -/
def holdTile (s : Chip) (t : Nat) : Chip := forEach (List.range 8) (fun u i => modStrand u t i (fun x => { x with held := true })) s

theorem holdTiles_eq (s : Chip) (gs : Nat) : holdTiles s gs true = forEach (tilesOfGroups gs) holdTile s := rfl

theorem holdTile_keeps {t tile i : Nat} {s : Chip} (h : (getStrand s tile i).held = true) :
    (getStrand (holdTile s t) tile i).held = true := by
  refine forEach_keeps (R := fun a b => (getStrand a tile i).held = true → (getStrand b tile i).held = true)
    (fun _ => id) (fun _ _ _ h g p => g (h p)) (fun j _ s h => ?_) s h
  rw [modStrand, getStrand_setStrand]
  split
  · rfl
  · exact h

theorem holdTile_held {tile i : Nat} (hi : i < 8) (s : Chip) : (getStrand (holdTile s tile) tile i).held = true := by
  refine forEach_reaches (P := fun s => (getStrand s tile i).held = true) (List.mem_range.2 hi) (fun s => ?_) (fun j s h => ?_) s
  · rw [getStrand_modStrand_same]
  · rw [modStrand, getStrand_setStrand]
    split
    · rfl
    · exact h

/-- Every strand of the tiles of some groups is held. -/
theorem holdTiles_held {gs tile i : Nat} (ht : tile ∈ tilesOfGroups gs) (hi : i < 8) (s : Chip) :
    (getStrand (holdTiles s gs true) tile i).held = true := by
  rw [holdTiles_eq]
  exact forEach_reaches (P := fun s => (getStrand s tile i).held = true) ht (holdTile_held hi) (fun _ _ => holdTile_keeps) s

theorem holdTiles_frame (s : Chip) (gs : Nat) : holdTiles s gs true = { s with strands := (holdTiles s gs true).strands } := by
  have htrans : ∀ a b c : Chip, b = { a with strands := b.strands } → c = { b with strands := c.strands } →
      c = { a with strands := c.strands } := fun _ _ _ h g => by rw [g, h]
  rw [holdTiles_eq]
  exact forEach_keeps (R := fun a b => b = { a with strands := b.strands }) (fun _ => rfl) htrans
    (fun _ _ u => forEach_keeps (R := fun a b => b = { a with strands := b.strands }) (fun _ => rfl) htrans (fun _ _ _ => rfl) u) s

theorem mem_tilesOfGroups_or {t g : Nat} {gs : List Nat} (hg : g ∈ gs) (ht : t ∈ tilesOfGroups g) :
    t ∈ tilesOfGroups (gs.foldl (fun a m => Nat.lor a m) 0) := by
  have hbit : ∀ (l : List Nat) (a i : Nat), (a.testBit i = true ∨ ∃ m ∈ l, m.testBit i = true) →
      (l.foldl (fun a m => Nat.lor a m) a).testBit i = true := by
    intro l
    induction l with
    | nil => rintro a i (h | ⟨m, hm, -⟩)
             · exact h
             · exact absurd hm List.not_mem_nil
    | cons b r ih =>
      intro a i h
      refine ih (Nat.lor a b) i ?_
      rcases h with h | ⟨m, hm, hb⟩
      · exact .inl ((Nat.testBit_or a b i).trans (by rw [h, Bool.true_or]))
      · rcases List.mem_cons.1 hm with rfl | hr
        · exact .inl ((Nat.testBit_or a m i).trans (by rw [hb, Bool.or_true]))
        · exact .inr ⟨m, hr, hb⟩
  obtain ⟨i, hi, hti⟩ := List.mem_flatMap.1 ht
  obtain ⟨hlt, hset⟩ := List.mem_filter.1 hi
  exact List.mem_flatMap.2 ⟨i, List.mem_filter.2 ⟨hlt, hbit gs 0 i (.inr ⟨g, hg, hset⟩)⟩, hti⟩

/-- What a VACATED that names a pending reclaim does, before its reply. -/
theorem vacatedAt_found {s : Chip} {f a p : Nat}
    (h : (List.range 16).find? (fun q => controller s q == f && (getPart s q).moves.any (fun m => m.nseq == a)) = some p) :
    ∃ u, vacatedAt s f a = (u, true) ∧ u.bar = s.bar ∧ u.hasp = s.hasp ∧ u.tiles = s.tiles ∧
      (getPart u p).moves = (getPart s p).moves.map (fun m => if m.nseq == a then { m with vacated := true } else m) ∧
      ∀ m tile i, m ∈ (getPart s p).moves → m.nseq = a → tile ∈ tilesOfGroups m.groups → i < 8 → (getStrand u tile i).held = true := by
  obtain ⟨gs, hgs⟩ : ∃ gs, gs = ((getPart s p).moves.filter (fun m => m.nseq == a)).foldl (fun a m => Nat.lor a m.groups) 0 := ⟨_, rfl⟩
  have hframe := holdTiles_frame s gs
  have hheld := fun tile i (ht : tile ∈ tilesOfGroups gs) (hi : i < 8) => holdTiles_held ht hi s
  have hv : vacatedAt s f a = (modPart (holdTiles s gs true) p (fun x =>
      { x with moves := x.moves.map (fun m => if m.nseq == a then { m with vacated := true } else m) }), true) := by
    unfold vacatedAt
    rw [h, hgs]
  generalize holdTiles s gs true = w at hframe hheld hv
  refine ⟨_, hv, ?_, ?_, ?_, ?_, fun m tile i hm hma ht hi => ?_⟩
  · change w.bar = _
    rw [hframe]
  · change w.hasp = _
    rw [hframe]
  · change w.tiles = _
    rw [hframe]
  · rw [getPart_modPart_same, show getPart w p = getPart s p by rw [hframe]; rfl]
  · refine hheld tile i ?_ hi
    rw [hgs, ← List.foldl_map (f := Move.groups) (g := fun a m => Nat.lor a m)]
    exact mem_tilesOfGroups_or (List.mem_map.2 ⟨m, List.mem_filter.2 ⟨hm, by simpa using hma⟩, rfl⟩) ht

theorem vacatedClause {s : State} {f a p : Nat} (hf : 1 ≤ f) (h64 : f < 64) (hcode : haspCode s.chip f true 0x11 4 = 0) (ha : a < 2 ^ 32)
    (hfind : (List.range 16).find? (fun q => controller s.chip q == f && (getPart s.chip q).moves.any (fun m => m.nseq == a)) = some p) :
    ∃ t, exec (.vacated f a) s = .next t ∧
      (∀ m, m ∈ (getPart t.chip p).moves → m.nseq = a → m.vacated = true) ∧
      (∀ m tile i, m ∈ (getPart s.chip p).moves → m.nseq = a → tile ∈ tilesOfGroups m.groups → i < 8 →
        (getStrand t.chip tile i).held = true) ∧
      t.chip.tiles = s.chip.tiles ∧ t.chip.bar = (fset s.chip (aHASP true f + 0xC8) 63 48 0).bar := by
  have hexec : exec (.vacated f a) s = .next { s with chip := haspSend s.chip f true 0x11 0 (leBytes 4 a) } :=
    onChip_next (f := cmdVacated f a) (by
      unfold cmdVacated onFn
      rw [onUnit_next h64, show (f != 0) = true by simp only [bne_iff_ne]; omega])
  obtain ⟨u, hb, -, hbar, hsend⟩ := haspSend_goes (s := s.chip) (f := f) (tenant := true) (type := 0x11) 0
    (payload := leBytes 4 a) hcode
  obtain ⟨w, hw⟩ : ∃ w, w = setHasp u f (numbered s.chip f true) := ⟨_, rfl⟩
  have hparts : ∀ q, getPart w q = getPart s.chip q := fun q => by
    rw [hw, getPart_setHasp]
    exact getPart_of_onlyBar hb q
  have hctl : ∀ q, q < 16 → controller w q = controller s.chip q := fun q hq => by
    have : aPART_CTL q ∉ [aHASP true f + 0xC8] := by
      simp only [List.mem_singleton, aPART_CTL, aHASP, barKey, barSpan, if_true]
      omega
    rw [hw]
    exact fget_of_onlyBar hb this 47 42
  have hfound : (List.range 16).find? (fun q => controller w q == f && (getPart w q).moves.any (fun m => m.nseq == a)) = some p := by
    rw [← hfind]
    refine List.find?_congr fun q hq => ?_
    rw [hparts, hctl q (List.mem_range.1 hq)]
  obtain ⟨v, hv, hvbar, hvhasp, hvtiles, hvmoves, hvheld⟩ := vacatedAt_found hfound
  rw [hparts] at hvmoves
  obtain ⟨m, hm⟩ : ∃ m, m = nextMsg s.chip f true 0x11 0 (leBytes 4 a) := ⟨_, rfl⟩
  have hnum : bNat m.payload 0 4 = a := by
    have := bNat_first (n := 4) (x := a) []
    rw [List.append_nil, Nat.mod_eq_of_lt (by omega)] at this
    rw [hm, nextMsg, this]
  have hroute : haspRoute w f true m = haspFlush f true 16 (haspFlush f false 16 (hearthSend v f (f != 0) 0xF0 0 (leBytes 2 m.seqNo))) := by
    have htype : m.type = 0x11 := by rw [hm, nextMsg]
    simp only [haspRoute, hnum, hv, htype, Bool.not_true, Bool.and_false, Bool.false_eq_true, if_false, if_true, beq_self_eq_true,
      Bool.true_or, Bool.and_self]
  obtain ⟨z, hz, honly⟩ : ∃ z, haspSend s.chip f true 0x11 0 (leBytes 4 a) = z ∧ onlyHasp v z := by
    refine ⟨_, rfl, ?_⟩
    rw [hsend, ← hw, ← hm, hroute]
    exact onlyHasp_trans (onlyHasp_trans (onlyHasp_hearthSend ..) (onlyHasp_haspFlush ..)) (onlyHasp_haspFlush ..)
  rw [hz] at hexec
  refine ⟨_, hexec, fun m hm hma => ?_, fun m tile i hm hma ht hi => ?_, ?_, ?_⟩
  · change m ∈ (getPart z p).moves at hm
    rw [show getPart z p = getPart v p by rw [honly]; rfl, hvmoves] at hm
    obtain ⟨m', -, rfl⟩ := List.mem_map.1 hm
    revert hma
    split
    · exact fun _ => rfl
    · next h => exact fun e => absurd (beq_iff_eq.2 e) h
  · change (getStrand z tile i).held = true
    rw [getStrand_of_strands (strands_of_onlyHasp honly)]
    exact hvheld m tile i (by rw [hparts]; exact hm) hma ht hi
  · refine (tiles_of_onlyHasp honly).trans (hvtiles.trans ?_)
    rw [hw]
    change u.tiles = _
    exact tiles_of_onlyBar hb
  · change z.bar = _
    rw [show z.bar = v.bar by rw [honly], hvbar, hw, ← hbar]
    rfl

theorem mailboxesAnswer : Clauses.MailboxesAnswer := by
  intro s f a b hf h64
  have hside : (f != 0) = true := by simpa using (show f ≠ 0 by omega)
  refine ⟨fun hmay => ⟨?_, ?_, ?_⟩, fun hi => ⟨?_, ?_⟩, fun p => vacatedClause hf h64⟩
  · exact hearthClause hmay (exec_onTenant (cmd := cmdTeardown f true a) hf h64 rfl fun _ => rfl)
  · exact hearthClause hmay (onChip_next (f := cmdAck f 0 a) (by
      unfold cmdAck haspReply onFn
      rw [if_pos rfl, onUnit_next h64, hside]))
  · exact hearthClause hmay (onChip_next (f := cmdNak f 0 a b) (by
      unfold cmdNak haspReply onFn
      rw [if_pos rfl, onUnit_next h64, hside]))
  · have hexec := exec_onSide (s := s) (c := .haspPop f 2) (cmd := cmdHaspPop f 2) hf h64 (.inr rfl) (g := fun t st => popSide st f t) rfl fun _ => rfl
    rw [popClause _ hi _ rfl] at hexec
    exact ⟨_, hexec, setHasp_only ..⟩
  · have hexec := exec_onSide (s := s) (c := .haspPop f 1) (cmd := cmdHaspPop f 1) hf h64 (.inl rfl) (g := fun t st => popSide st f t) rfl fun _ => rfl
    rw [popClause _ hi _ rfl] at hexec
    exact ⟨_, hexec, setHasp_only ..⟩

/-- Settles O49: each side's messages by where they are routed, the Hearth's by its held messages. -/
theorem mailboxes : Obligations.Mailboxes := ⟨mailboxesCarry, mailboxesAnswer⟩

end Sys2Proof.Proofs
end

section
/-! SUPPORT. Swage units (O33). -/

namespace Sys2Proof.Proofs

open Sys2Proof.Machine

def putMem (u s : Chip) : Chip := { s with mem := u.mem }

theorem parts_mem : Parts putMem := ⟨fun _ _ _ _ => rfl, fun _ _ => rfl⟩

theorem within_setUnit (ks : List Nat) (s : Chip) (u : Nat) (x : SwUnit) : within putMem ks s (setUnit s u x) :=
  ⟨rfl, fun _ _ => rfl⟩

theorem getUnit_setUnit (s : Chip) (u : Nat) (x : SwUnit) : getUnit (setUnit s u x) u = x := by
  unfold getUnit setUnit
  simp only [tget_tset, if_true]

theorem mem_of_onlyBar {ks : List Nat} {s u : Chip} (h : onlyBar ks s u) : u.mem = s.mem := by rw [h.1]

theorem getUnit_of_onlyBar {ks : List Nat} {s v : Chip} (h : onlyBar ks s v) (u : Nat) : getUnit v u = getUnit s u := by
  unfold getUnit
  rw [mem_of_onlyBar h]

theorem within_deliver (ks : List Nat) (s : Chip) (l : List MByte) (code : Nat) : within putMem ks s (deliver s l code) :=
  ⟨rfl, fun _ _ => rfl⟩

theorem onlyBar_swLog (s : Chip) (u code : Nat) : onlyBar [aSWAGE_ERR u] s (swLog s u code) :=
  onlyBar_trans (onlyBar_fset _ _ _ _ (List.mem_singleton_self _)) (onlyBar_fsat _ _ _ _ (List.mem_singleton_self _))

theorem fget_swLog (s : Chip) (u code : Nat) : fget (swLog s u code) (aSWAGE_ERR u) 63 48 = code % 2 ^ 16 ∧
    fget (swLog s u code) (aSWAGE_ERR u) 31 0 = min (fget s (aSWAGE_ERR u) 31 0 + 1) (2 ^ 32 - 1) := by
  unfold swLog
  constructor
  · rw [fget_fsat_field _ _ _ _ _ _ _ (by omega) (by omega) (by omega) (by omega)]
    exact fget_fset_same _ _ _ _ _ (by omega) (by omega)
  · rw [fget_fsat_same _ _ _ _ _ (by omega) (by omega), fget_fset_field _ _ _ _ _ _ _ (by omega) (by omega) (by omega) (by omega)]

theorem onlyBar_swCounts (s : Chip) (u : Nat) : onlyBar [aSWAGE_STATUS u] s (swCounts s u) :=
  onlyBar_trans (onlyBar_fset _ _ _ _ (List.mem_singleton_self _)) (onlyBar_fset _ _ _ _ (List.mem_singleton_self _))

theorem fget_swCounts (s : Chip) (u : Nat) : fget (swCounts s u) (aSWAGE_STATUS u) 31 26 = min 32 (getUnit s u).queue.length := by
  unfold swCounts
  rw [fget_fset_field _ _ _ _ _ _ _ (by omega) (by omega) (by omega) (by omega), fget_fset_same _ _ _ _ _ (by omega) (by omega)]
  exact Nat.mod_eq_of_lt (by omega)

/-- The least code of the checks of a record that arrives at a unit's window (R318). -/
def windowCode (s : Chip) (u p : Nat) (bytes : List Byte) : Nat :=
  leastCode (unitCodes s u p ++ recordCodes s u (clean bytes))

theorem swageAccept_cases (s : Chip) (u p sender : Nat) (bytes : List Byte) :
    (windowCode s u p bytes = 0 → swageAccept s u p sender 0 (clean bytes) =
      (swCounts (setUnit s u { getUnit s u with
        queue := (getUnit s u).queue ++ [{ no := (getUnit s u).count, part := p, sender := sender, record := clean bytes }]
        count := (getUnit s u).count + 1 }) u, 0)) ∧
    (windowCode s u p bytes ≠ 0 → swageAccept s u p sender 0 (clean bytes) =
      (swLog (if windowCode s u p bytes == 0x2005 && p < 16 then partCode s p 0x4006 else s) u (windowCode s u p bytes),
        windowCode s u p bytes)) := by
  unfold windowCode
  constructor <;> intro h <;> simp only [swageAccept, beq_self_eq_true, if_true]
  · rw [h]
    rfl
  · rw [if_pos (by simpa using h)]

theorem exec_window {s : State} {u p sender : Nat} {bytes : List Byte} {c : Instr} (hu : u < 32)
    (hc : c = .swageQuery u p sender bytes ∨ c = .swageAppend u p sender bytes ∨ c = .swagePageInit u p sender bytes) :
    exec c s = .next { s with chip :=
      (deliver (swageAccept s.chip u p sender 0 (clean bytes)).1 [] (swageAccept s.chip u p sender 0 (clean bytes)).2) } := by
  have h : ∀ (cmd : Chip → Out), (∀ st, cmd st = windowWrite u p sender bytes st) → onChip s cmd = .next { s with chip :=
      (deliver (swageAccept s.chip u p sender 0 (clean bytes)).1 [] (swageAccept s.chip u p sender 0 (clean bytes)).2) } :=
    fun cmd hcmd => onChip_next (by rw [hcmd, windowWrite, onUnit_next hu])
  rcases hc with rfl | rfl | rfl
  · exact h (cmdSwageQuery u p sender bytes) fun _ => rfl
  · exact h (cmdSwageAppend u p sender bytes) fun _ => rfl
  · exact h (cmdSwagePageInit u p sender bytes) fun _ => rfl

theorem getUnit_deliver (s : Chip) (l : List MByte) (code u : Nat) : getUnit (deliver s l code) u = getUnit s u := rfl

theorem fget_deliver (s : Chip) (l : List MByte) (code k hi lo : Nat) : fget (deliver s l code) k hi lo = fget s k hi lo := rfl

theorem dram_deliver (s : Chip) (l : List MByte) (code : Nat) : (deliver s l code).mem.dram = s.mem.dram := rfl

theorem acceptedClause {s : State} {u : Nat} {c : Instr} {y : SwUnit}
    (hexec : exec c s = .next { s with chip := deliver (swCounts (setUnit s.chip u y) u) [] 0 }) :
    ∃ t, exec c s = .next t ∧ t.chip.mem.outCode = 0 ∧ getUnit t.chip u = y ∧
      chipOnly [aSWAGE_STATUS u] s t (fun d => { d with mem := t.chip.mem }) ∧ t.chip.mem.dram = s.chip.mem.dram ∧
      fget t.chip (aSWAGE_STATUS u) 31 26 = min 32 y.queue.length := by
  obtain ⟨v, hv⟩ : ∃ v, v = setUnit s.chip u y := ⟨_, rfl⟩
  have hw : within putMem [aSWAGE_STATUS u] s.chip v := hv ▸ within_setUnit ..
  have hget : getUnit v u = y := hv ▸ getUnit_setUnit ..
  have hdram : v.mem.dram = s.chip.mem.dram := by rw [hv]; rfl
  rw [← hv] at hexec
  have hb := onlyBar_swCounts v u
  have hcount := fget_swCounts v u
  rw [hget] at hcount
  exact ⟨_, hexec, rfl, (getUnit_deliver ..).trans ((getUnit_of_onlyBar hb u).trans hget),
    chipOnly_of_within (within_trans parts_mem (within_trans parts_mem hw (within_bar parts_mem hb)) (within_deliver ..)),
    (dram_deliver ..).trans ((congrArg MemS.dram (mem_of_onlyBar hb)).trans hdram), (fget_deliver ..).trans hcount⟩

theorem refusedClause {s : State} {u p : Nat} {c : Instr} {code : Nat}
    (hexec : exec c s = .next { s with chip :=
      (deliver (swLog (if code == 0x2005 && p < 16 then partCode s.chip p 0x4006 else s.chip) u code) [] code) }) :
    ∃ t, exec c s = .next t ∧ t.chip.mem.outCode = code ∧ getUnit t.chip u = getUnit s.chip u ∧
      chipOnly [aSWAGE_ERR u, aPART_STATUS p] s t (fun d => { d with mem := t.chip.mem }) ∧ t.chip.mem.dram = s.chip.mem.dram ∧
      fget t.chip (aSWAGE_ERR u) 63 48 = code % 2 ^ 16 ∧ countedOne s t (aSWAGE_ERR u) 31 0 := by
  obtain ⟨v, hv⟩ : ∃ v, v = if code == 0x2005 && p < 16 then partCode s.chip p 0x4006 else s.chip := ⟨_, rfl⟩
  have hb1 : onlyBar [aSWAGE_ERR u, aPART_STATUS p] s.chip v := by
    rw [hv]
    exact onlyBar_ite (onlyBar_fset _ _ _ _ (by simp)) (onlyBar_refl _ _)
  have hkeep : barGet v (aSWAGE_ERR u) = barGet s.chip (aSWAGE_ERR u) := by
    rw [hv]
    split
    · next hp =>
      have hlt : p < 16 := of_decide_eq_true (Bool.and_eq_true_iff.1 hp).2
      exact barGet_fset_other _ _ _ _ (by unfold aSWAGE_ERR aPART_STATUS; omega)
    · rfl
  rw [← hv] at hexec
  have hb := onlyBar_trans hb1 (onlyBar_mono (by simp) (onlyBar_swLog v u code))
  obtain ⟨hlog, hcount⟩ := fget_swLog v u code
  rw [fget_of_barGet hkeep] at hcount
  exact ⟨_, hexec, rfl, (getUnit_deliver ..).trans (getUnit_of_onlyBar hb u),
    chipOnly_of_within (within_trans parts_mem (within_bar parts_mem hb) (within_deliver ..)),
    (dram_deliver ..).trans (congrArg MemS.dram (mem_of_onlyBar hb)), (fget_deliver ..).trans hlog, (fget_deliver ..).trans hcount⟩

theorem swageAccepts : Clauses.SwageAccepts := by
  intro s u p sender bytes c hu hc code x
  obtain ⟨hgood, hbad⟩ := swageAccept_cases s.chip u p sender bytes
  have hexec := exec_window (s := s) hu hc
  constructor <;> intro h
  · rw [hgood h] at hexec
    obtain ⟨t, ht, hcode, hunit, honly, hdram, hcount⟩ := acceptedClause hexec
    refine ⟨t, ht, hcode, hunit, honly, hdram, hcount.trans ?_⟩
    rw [List.length_append, List.length_singleton]
  · rw [hbad h] at hexec
    exact refusedClause hexec

-- Fences and enables (R334, R335).

theorem refuseHeld_spec (s : Chip) (u : Nat) : ∃ v, v = setUnit s u { getUnit s u with queue := (getUnit s u).queue.take 32 } ∧
    onlyBar [aSWAGE_ERR u] v (refuseHeld s u) :=
  ⟨_, rfl, forEach_keeps (onlyBar_refl _) (fun _ _ _ => onlyBar_trans) (fun _ _ v => onlyBar_swLog v u 0x2047) _⟩

theorem onlyBar_unitState (s : Chip) (u : Nat) : onlyBar [aSWAGE_STATUS u] s (unitState s u) := by
  simp only [unitState]
  exact onlyBar_ite (onlyBar_refl _ _) (onlyBar_fset _ _ _ _ (List.mem_singleton_self _))

theorem fget_unitState (s : Chip) (u : Nat) : fget (unitState s u) (aSWAGE_STATUS u) 3 0 =
    if fget s (aSWAGE_STATUS u) 3 0 = 3 then 3 else if fbit s (aSWAGE_CTL u) 1 = true then 2 else b2n (fbit s (aSWAGE_CTL u) 0) := by
  simp only [unitState, beq_iff_eq]
  split
  · assumption
  · rw [fget_fset_same _ _ _ _ _ (by omega) (by omega)]
    refine Nat.mod_eq_of_lt ?_
    unfold b2n
    split_ifs <;> omega

/-- A unit whose control register has been written shows its state. -/
theorem unitShown {st : State} {u : Nat} {v w : Chip} (hb1 : onlyBar [aSWAGE_CTL u] st.chip v)
    (hw : within putMem [aSWAGE_CTL u, aSWAGE_STATUS u, aSWAGE_ERR u] v w)
    (hctl : barGet w (aSWAGE_CTL u) = barGet v (aSWAGE_CTL u)) (hst : barGet w (aSWAGE_STATUS u) = barGet v (aSWAGE_STATUS u)) :
    (∀ i, fbit (unitState w u) (aSWAGE_CTL u) i = fbit v (aSWAGE_CTL u) i) ∧
      fget (unitState w u) (aSWAGE_STATUS u) 3 0 = (if fget st.chip (aSWAGE_STATUS u) 3 0 = 3 then 3
        else if fbit v (aSWAGE_CTL u) 1 = true then 2 else b2n (fbit v (aSWAGE_CTL u) 0)) ∧
      (unitState w u).mem = w.mem ∧
      chipOnly [aSWAGE_CTL u, aSWAGE_STATUS u, aSWAGE_ERR u] st { st with chip := unitState w u }
        (fun d => { d with mem := (unitState w u).mem }) := by
  have hb := onlyBar_unitState w u
  have hstate := fget_unitState w u
  have hkst : barGet v (aSWAGE_STATUS u) = barGet st.chip (aSWAGE_STATUS u) := hb1.2 _ (by simp [aSWAGE_CTL, aSWAGE_STATUS])
  rw [fget_of_barGet (hst.trans hkst), fbit_of_barGet hctl, fbit_of_barGet hctl] at hstate
  generalize unitState w u = z at hb hstate ⊢
  refine ⟨fun i => ?_, hstate, mem_of_onlyBar hb, ?_⟩
  · exact (fbit_of_barGet (hb.2 _ (by simp [aSWAGE_CTL, aSWAGE_STATUS])) i).trans (fbit_of_barGet hctl i)
  · exact chipOnly_of_within (put := putMem) (within_trans parts_mem (within_trans parts_mem
      (within_bar parts_mem (onlyBar_mono (by simp) hb1)) hw) (within_bar parts_mem (onlyBar_mono (by simp) hb)))

theorem refuseHeld_within (s : Chip) (u : Nat) :
    within putMem [aSWAGE_CTL u, aSWAGE_STATUS u, aSWAGE_ERR u] s (refuseHeld s u) ∧
      barGet (refuseHeld s u) (aSWAGE_CTL u) = barGet s (aSWAGE_CTL u) ∧
      barGet (refuseHeld s u) (aSWAGE_STATUS u) = barGet s (aSWAGE_STATUS u) ∧
      (refuseHeld s u).mem.dram = s.mem.dram ∧ (getUnit (refuseHeld s u) u).queue = (getUnit s u).queue.take 32 := by
  obtain ⟨v, hv, hb⟩ := refuseHeld_spec s u
  have hw : within putMem [aSWAGE_CTL u, aSWAGE_STATUS u, aSWAGE_ERR u] s v := hv ▸ within_setUnit ..
  have hget : (getUnit v u).queue = (getUnit s u).queue.take 32 := by rw [hv, getUnit_setUnit]
  have hbar : ∀ k, barGet v k = barGet s k := fun k => by rw [hv]; rfl
  refine ⟨within_trans parts_mem hw (within_bar parts_mem (onlyBar_mono (by simp) hb)), ?_, ?_, ?_, ?_⟩
  · exact (hb.2 _ (by simp [aSWAGE_CTL, aSWAGE_ERR])).trans (hbar _)
  · exact (hb.2 _ (by simp [aSWAGE_STATUS, aSWAGE_ERR])).trans (hbar _)
  · rw [mem_of_onlyBar hb, hv]
    rfl
  · rw [getUnit_of_onlyBar hb, hget]

theorem swageControl : Clauses.SwageControl := by
  intro s u on hu st
  constructor
  · have hexec : exec (.swageFence u) s = .next { s with chip := unitState (refuseHeld (fsetb s.chip (aSWAGE_CTL u) 1 true) u) u } :=
      onChip_next (f := cmdSwageFence u) (by
        unfold cmdSwageFence
        rw [onUnit_next hu])
    have hb := onlyBar_fsetb (ks := [aSWAGE_CTL u]) s.chip 1 true (List.mem_singleton_self _)
    have hbit := fbit_fsetb_same s.chip (aSWAGE_CTL u) 1 true (by omega)
    generalize fsetb s.chip (aSWAGE_CTL u) 1 true = v at hexec hb hbit
    obtain ⟨hw, hctl, hst, hdram, hq⟩ := refuseHeld_within v u
    obtain ⟨hbits, hstate, hmem, honly⟩ := unitShown hb hw hctl hst
    rw [hbit, if_pos rfl] at hstate
    generalize refuseHeld v u = w at *
    generalize unitState w u = z at *
    refine ⟨_, hexec, (hbits 1).trans hbit, hstate, ?_, ?_, honly⟩
    · change z.mem.dram = _
      rw [hmem, hdram, mem_of_onlyBar hb]
    · refine Eq.trans ?_ (hq.trans (by rw [getUnit_of_onlyBar hb]))
      change (getUnit z u).queue = _
      unfold getUnit
      rw [hmem]
  · have hexec : exec (.swageEnable u on) s = .next { s with chip :=
        (unitState (if on then fsetb s.chip (aSWAGE_CTL u) 0 on else refuseHeld (fsetb s.chip (aSWAGE_CTL u) 0 on) u) u) } :=
      onChip_next (f := cmdSwageEnable u on) (by
        unfold cmdSwageEnable
        rw [onUnit_next hu])
    have hb := onlyBar_fsetb (ks := [aSWAGE_CTL u]) s.chip 0 on (List.mem_singleton_self _)
    have hbit := fbit_fsetb_same s.chip (aSWAGE_CTL u) 0 on (by omega)
    have hfence := fbit_fsetb_field s.chip (aSWAGE_CTL u) 0 1 on (by omega) (by omega)
    generalize fsetb s.chip (aSWAGE_CTL u) 0 on = v at hexec hb hbit hfence
    obtain ⟨w, hw, hctl, hst, hdo⟩ : ∃ w, within putMem [aSWAGE_CTL u, aSWAGE_STATUS u, aSWAGE_ERR u] v w ∧
        barGet w (aSWAGE_CTL u) = barGet v (aSWAGE_CTL u) ∧ barGet w (aSWAGE_STATUS u) = barGet v (aSWAGE_STATUS u) ∧
        (if on then v else refuseHeld v u) = w := by
      cases on
      · obtain ⟨hw, hctl, hst, -⟩ := refuseHeld_within v u
        exact ⟨_, hw, hctl, hst, rfl⟩
      · exact ⟨v, within_refl parts_mem, rfl, rfl, rfl⟩
    rw [hdo] at hexec
    obtain ⟨hbits, hstate, -, honly⟩ := unitShown hb hw hctl hst
    rw [hbit, hfence] at hstate
    generalize unitState w u = z at *
    exact ⟨_, hexec, (hbits 0).trans hbit, hstate, honly⟩

/-- Settles O33: records by the least code of their checks, and the state a unit shows. -/
theorem swageUnits : Obligations.SwageUnits := ⟨swageAccepts, swageControl⟩

end Sys2Proof.Proofs
end

section
/-! SUPPORT. Memory channels: training, failures and the map (O31). -/

namespace Sys2Proof.Proofs

open Sys2Proof.Machine

theorem exec_onChan {s : State} {i : Instr} {c : Nat} (hc : c < 32) {cmd : Chip → Out} {g : Chip → Chip}
    (harm : exec i s = onChip s cmd) (hcmd : ∀ st, cmd st = onChan c st g) : exec i s = .next { s with chip := g s.chip } := by
  rw [harm]
  exact onChip_next (by rw [hcmd, onChan, onUnit_next hc])

-- Training (R283, R284, R305).

/-- A present channel starts its training. -/
def trainStart (st : Chip) (c : Nat) : Chip :=
  fset (fsetb (fset (fset st (aMEM_STATUS c) 47 40 ((getChan st c).cap / 16)) (aMEM_STATUS c) 39 36 (getChan st c).ranks)
    (aMEM_STATUS c) 2 true) (aMEM_STATUS c) 7 4 1

def trainOne (st : Chip) (c : Nat) : Chip := if chanPresent st c then trainStart st c else st

theorem exec_memTrain (s : State) : exec .memTrain s = .next { s with chip :=
    (if s.chip.mem.trained then s.chip
    else forEach (List.range 32) trainOne { s.chip with mem := { s.chip.mem with trained := true } }) } := by
  refine onChip_next (f := cmdMemTrain) ?_
  unfold cmdMemTrain
  split <;> rfl

theorem onlyBar_trainStart (s : Chip) (c : Nat) : onlyBar [aMEM_STATUS c] s (trainStart s c) := by
  have h := List.mem_singleton_self (aMEM_STATUS c)
  exact onlyBar_trans (onlyBar_trans (onlyBar_trans (onlyBar_fset _ _ _ _ h) (onlyBar_fset _ _ _ _ h)) (onlyBar_fsetb _ _ _ h))
    (onlyBar_fset _ _ _ _ h)

theorem trainStart_spec (s : Chip) (c : Nat) : chanState (trainStart s c) c = 1 ∧ fbit (trainStart s c) (aMEM_STATUS c) 2 = true ∧
    fget (trainStart s c) (aMEM_STATUS c) 47 40 = (getChan s c).cap / 16 % 256 ∧
    fget (trainStart s c) (aMEM_STATUS c) 39 36 = (getChan s c).ranks % 16 := by
  unfold trainStart fsetb
  refine ⟨?_, ?_, ?_, ?_⟩
  · exact fget_fset_same _ _ _ _ _ (by omega) (by omega)
  · unfold fbit
    rw [fget_fset_field _ _ _ _ _ _ _ (by omega) (by omega) (by omega) (by omega), fget_fset_same _ _ _ _ _ (by omega) (by omega)]
    rfl
  · rw [fget_fset_field _ _ _ _ _ _ _ (by omega) (by omega) (by omega) (by omega),
      fget_fset_field _ _ _ _ _ _ _ (by omega) (by omega) (by omega) (by omega),
      fget_fset_field _ _ _ _ _ _ _ (by omega) (by omega) (by omega) (by omega), fget_fset_same _ _ _ _ _ (by omega) (by omega)]
    rfl
  · rw [fget_fset_field _ _ _ _ _ _ _ (by omega) (by omega) (by omega) (by omega),
      fget_fset_field _ _ _ _ _ _ _ (by omega) (by omega) (by omega) (by omega), fget_fset_same _ _ _ _ _ (by omega) (by omega)]
    rfl

theorem onlyBar_trainOne (s : Chip) (c : Nat) : onlyBar [aMEM_STATUS c] s (trainOne s c) :=
  onlyBar_ite (onlyBar_trainStart ..) (onlyBar_refl _ _)

/-- A register of a list of registers, one for each channel, in a loop over the channels: only its own turn changes it. -/
theorem forEach_channels {f : Chip → Nat → Chip} {key : Nat → List Nat} (hf : ∀ s c, onlyBar (key c) s (f s c)) (s : Chip) :
    onlyBar ((List.range 32).flatMap key) s (forEach (List.range 32) f s) ∧
      ∀ c, c < 32 → ∃ u, onlyBar (((List.range 32).filter (· ≠ c)).flatMap key) s u ∧
        onlyBar (((List.range 32).filter (· ≠ c)).flatMap key) (f u c) (forEach (List.range 32) f s) := by
  refine ⟨forEach_keeps (onlyBar_refl _) (fun _ _ _ => onlyBar_trans) (fun c hc u => ?_) s, fun c hc => ?_⟩
  · exact onlyBar_mono (fun k hk => List.mem_flatMap.2 ⟨c, hc, hk⟩) (hf u c)
  · refine forEach_at (onlyBar_refl _) (fun _ _ _ => onlyBar_trans) List.nodup_range (List.mem_range.2 hc) (fun j hj hne u => ?_) s
    exact onlyBar_mono (fun k hk => List.mem_flatMap.2 ⟨j, List.mem_filter.2 ⟨hj, decide_eq_true hne⟩, hk⟩) (hf u j)

/-- The other channels' status registers are not this channel's. -/
theorem memStatus_apart {c : Nat} : aMEM_STATUS c ∉ ((List.range 32).filter (· ≠ c)).flatMap (fun d => [aMEM_STATUS d]) := by
  intro h
  obtain ⟨d, hd, hk⟩ := List.mem_flatMap.1 h
  have hne := of_decide_eq_true (List.mem_filter.1 hd).2
  have := List.mem_singleton.1 hk
  unfold aMEM_STATUS at this
  omega

theorem chanPresent_of_onlyBar {ks : List Nat} {s u : Chip} (h : onlyBar ks s u) (hp : aPWR_DOMAIN ∉ ks) (c : Nat) :
    chanPresent u c = chanPresent s c ∧ getChan u c = getChan s c := by
  have hg : getChan u c = getChan s c := by
    unfold getChan
    rw [mem_of_onlyBar h]
  refine ⟨?_, hg⟩
  unfold chanPresent groupOn
  rw [hg, domainOn_of_onlyBar h hp]

theorem trainClause {s : State} (h : s.chip.mem.trained = false) : ∃ t, exec .memTrain s = .next t ∧
    t.chip.mem = { s.chip.mem with trained := true } ∧
    chipOnly ((List.range 32).map aMEM_STATUS) s t (fun c => { c with mem := t.chip.mem }) ∧
    ∀ c, c < 32 → if chanPresent s.chip c then chanState t.chip c = 1 ∧ fbit t.chip (aMEM_STATUS c) 2 = true ∧
        fget t.chip (aMEM_STATUS c) 47 40 = (getChan s.chip c).cap / 16 % 256 ∧
        fget t.chip (aMEM_STATUS c) 39 36 = (getChan s.chip c).ranks % 16
      else barGet t.chip (aMEM_STATUS c) = barGet s.chip (aMEM_STATUS c) := by
  have hexec := exec_memTrain s
  rw [h, if_neg Bool.false_ne_true] at hexec
  obtain ⟨u, hu⟩ : ∃ u, u = { s.chip with mem := { s.chip.mem with trained := true } } := ⟨_, rfl⟩
  rw [← hu] at hexec
  obtain ⟨hall, hone⟩ := forEach_channels (key := fun c => [aMEM_STATUS c]) onlyBar_trainOne u
  generalize forEach (List.range 32) trainOne u = v at hexec hall hone
  have hmem : v.mem = { s.chip.mem with trained := true } := by rw [mem_of_onlyBar hall, hu]
  have hw : within putMem ((List.range 32).map aMEM_STATUS) s.chip v := by
    refine within_trans parts_mem (u := u) ⟨by rw [hu]; rfl, fun k _ => by rw [hu]; rfl⟩ (within_bar parts_mem (onlyBar_mono ?_ hall))
    intro k hk
    obtain ⟨c, hc, hkc⟩ := List.mem_flatMap.1 hk
    exact List.mem_map.2 ⟨c, hc, (List.mem_singleton.1 hkc).symm⟩
  have hpres : ∀ c, chanPresent u c = chanPresent s.chip c ∧ getChan u c = getChan s.chip c := fun c => by rw [hu]; exact ⟨rfl, rfl⟩
  have hbar : ∀ k, barGet u k = barGet s.chip k := fun k => by rw [hu]; rfl
  refine ⟨_, hexec, hmem, chipOnly_of_within hw, fun c hc => ?_⟩
  obtain ⟨w, hw1, hw2⟩ := hone c hc
  have hkey : ∀ {c : Nat}, aPWR_DOMAIN ∉ ((List.range 32).filter (· ≠ c)).flatMap (fun d => [aMEM_STATUS d]) := fun hm => by
    obtain ⟨d, hd, hk⟩ := List.mem_flatMap.1 hm
    have hlt := List.mem_range.1 (List.mem_filter.1 hd).1
    have := List.mem_singleton.1 hk
    unfold aPWR_DOMAIN aMEM_STATUS at this
    omega
  obtain ⟨hp, hg⟩ := chanPresent_of_onlyBar hw1 hkey c
  have hkc := hw2.2 _ memStatus_apart
  rw [(hpres c).1] at hp
  rw [(hpres c).2] at hg
  change if chanPresent s.chip c then chanState v c = 1 ∧ _ else barGet v (aMEM_STATUS c) = _
  unfold trainOne at hkc
  split
  · next hon =>
    rw [hp, hon, if_pos rfl] at hkc
    obtain ⟨h1, h2, h3, h4⟩ := trainStart_spec w c
    exact ⟨(fget_of_barGet hkc 7 4).trans h1, (fbit_of_barGet hkc 2).trans h2, (fget_of_barGet hkc 47 40).trans (hg ▸ h3),
      (fget_of_barGet hkc 39 36).trans (hg ▸ h4)⟩
  · next hoff =>
    rw [hp, if_neg hoff] at hkc
    rw [hkc, hw1.2 _ memStatus_apart, hbar]

/-- The end of a channel's training at a common speed: in service, or failed with its Swage unit. -/
def trainEnd (v : Nat) (st : Chip) (c : Nat) : Chip :=
  if chanState st c != 1 then st
  else if trainable st c && decide (v ≤ (getChan st c).best) then fset (fset st (aMEM_STATUS c) 7 4 2) (aMEM_STATUS c) 35 34 v
  else fset (fset st (aMEM_STATUS c) 7 4 3) (aSWAGE_STATUS c) 3 0 3

def channelKeys (c : Nat) : List Nat := [aMEM_STATUS c, aSWAGE_STATUS c]

theorem onlyBar_trainEnd (v : Nat) (s : Chip) (c : Nat) : onlyBar (channelKeys c) s (trainEnd v s c) :=
  onlyBar_ite (onlyBar_refl _ _) (onlyBar_ite
    (onlyBar_trans (onlyBar_fset _ _ _ _ (by simp [channelKeys])) (onlyBar_fset _ _ _ _ (by simp [channelKeys])))
    (onlyBar_trans (onlyBar_fset _ _ _ _ (by simp [channelKeys])) (onlyBar_fset _ _ _ _ (by simp [channelKeys]))))

theorem trainEnd_spec (v : Nat) (s : Chip) (c : Nat) :
    if chanState s c = 1 then
      (if trainable s c = true ∧ v ≤ (getChan s c).best then
        chanState (trainEnd v s c) c = 2 ∧ fget (trainEnd v s c) (aMEM_STATUS c) 35 34 = v % 4
      else chanState (trainEnd v s c) c = 3 ∧ fget (trainEnd v s c) (aSWAGE_STATUS c) 3 0 = 3)
    else barGet (trainEnd v s c) (aMEM_STATUS c) = barGet s (aMEM_STATUS c) := by
  have hne : aMEM_STATUS c ≠ aSWAGE_STATUS c := by
    unfold aMEM_STATUS aSWAGE_STATUS
    omega
  split
  · next h1 =>
    have htrain : trainEnd v s c = if trainable s c && decide (v ≤ (getChan s c).best) then
        fset (fset s (aMEM_STATUS c) 7 4 2) (aMEM_STATUS c) 35 34 v
        else fset (fset s (aMEM_STATUS c) 7 4 3) (aSWAGE_STATUS c) 3 0 3 := if_neg (by simp [h1])
    split
    · next h2 =>
      rw [htrain, if_pos (by simp [h2])]
      unfold chanState
      rw [fget_fset_field _ _ _ _ _ _ _ (by omega) (by omega) (by omega) (by omega), fget_fset_same _ _ _ _ _ (by omega) (by omega),
        fget_fset_same _ _ _ _ _ (by omega) (by omega)]
      exact ⟨rfl, rfl⟩
    · next h2 =>
      rw [htrain, if_neg (by simpa using h2)]
      unfold chanState
      rw [fget_fset_other _ _ _ _ _ _ hne, fget_fset_same _ _ _ _ _ (by omega) (by omega),
        fget_fset_same _ _ _ _ _ (by omega) (by omega)]
      exact ⟨rfl, rfl⟩
  · next h1 =>
    rw [trainEnd, if_pos (by simpa using h1)]

theorem exec_channelTrainingComplete {s : State} (k : Nat) (h : ∃ c, c < 32 ∧ chanState s.chip c = 1) :
    exec (.channelTrainingComplete k) s = .next { s with chip := (
      advanceStage (fsat (forEach (List.range 32) (trainEnd (endSpeed s.chip)) s.chip) aSEC_STATUS 31 24 k)) } := by
  obtain ⟨c, hc, h1⟩ := h
  refine onChip_next (f := cmdChannelTrainingComplete k) ?_
  unfold cmdChannelTrainingComplete
  rw [if_neg]
  · rfl
  · have : (List.range 32).any (fun c => chanState s.chip c == 1) = true :=
      List.any_eq_true.2 ⟨c, List.mem_range.2 hc, by simp [h1]⟩
    simp [this]

theorem onlyBar_advanceStage (s : Chip) : onlyBar [aSEC_STATUS] s (advanceStage s) ∧
    ∀ hi lo, lo ≤ hi → 3 < lo → fget (advanceStage s) aSEC_STATUS hi lo = fget s aSEC_STATUS hi lo := by
  have hstep : ∀ (c : Bool) (u : Chip) (v : Nat), onlyBar [aSEC_STATUS] u (if c then setStage u v else u) ∧
      ∀ hi lo, lo ≤ hi → 3 < lo → fget (if c then setStage u v else u) aSEC_STATUS hi lo = fget u aSEC_STATUS hi lo := by
    intro c u v
    cases c
    · exact ⟨onlyBar_refl _ _, fun _ _ _ _ => rfl⟩
    · exact ⟨onlyBar_fset _ _ _ _ (List.mem_singleton_self _), fun hi lo h hl =>
        fget_fset_field _ _ _ _ _ _ _ (by omega) (by omega) h (by omega)⟩
  simp only [advanceStage]
  obtain ⟨hb1, hf1⟩ := hstep (stageNow s == 4 && memGroupReady s &&
    decide (16 ≤ ((List.range 144).filter (fun t => fbit s (aTILE_STATUS t) 0)).length)) s 5
  generalize (if (stageNow s == 4 && memGroupReady s &&
    decide (16 ≤ ((List.range 144).filter (fun t => fbit s (aTILE_STATUS t) 0)).length)) then setStage s 5 else s) = u at hb1 hf1 ⊢
  obtain ⟨hb2, hf2⟩ := hstep (stageNow u == 5 && (List.range 144).all (fun t => !tileEnabled u t || tileJudged u t)) u 6
  exact ⟨onlyBar_trans hb1 hb2, fun hi lo h hl => (hf2 hi lo h hl).trans (hf1 hi lo h hl)⟩

theorem channelKeys_apart {c k : Nat} (hc : c < 32) (hk : k ∈ channelKeys c) :
    k ∉ ((List.range 32).filter (· ≠ c)).flatMap channelKeys := by
  intro h
  obtain ⟨d, hd, hkd⟩ := List.mem_flatMap.1 h
  have hne := of_decide_eq_true (List.mem_filter.1 hd).2
  have hlt := List.mem_range.1 (List.mem_filter.1 hd).1
  simp only [channelKeys, List.mem_cons, List.not_mem_nil, or_false, aMEM_STATUS, aSWAGE_STATUS] at hk hkd
  omega

theorem trainingEndsClause {s : State} (k : Nat) (h : ∃ c, c < 32 ∧ chanState s.chip c = 1) :
    ∃ t, exec (.channelTrainingComplete k) s = .next t ∧
      chipOnly (aSEC_STATUS :: (List.range 32).map aMEM_STATUS ++ (List.range 32).map aSWAGE_STATUS) s t id ∧
      fget t.chip aSEC_STATUS 31 24 = min (fget s.chip aSEC_STATUS 31 24 + k) 255 ∧
      ∀ c, c < 32 → if chanState s.chip c = 1 then
          (if trainable s.chip c = true ∧ endSpeed s.chip ≤ (getChan s.chip c).best then
            chanState t.chip c = 2 ∧ fget t.chip (aMEM_STATUS c) 35 34 = endSpeed s.chip % 4
          else chanState t.chip c = 3 ∧ fget t.chip (aSWAGE_STATUS c) 3 0 = 3)
        else barGet t.chip (aMEM_STATUS c) = barGet s.chip (aMEM_STATUS c) := by
  have hexec := exec_channelTrainingComplete k h
  generalize endSpeed s.chip = v at hexec ⊢
  obtain ⟨hall, hone⟩ := forEach_channels (onlyBar_trainEnd v) s.chip
  generalize forEach (List.range 32) (trainEnd v) s.chip = u at hexec hall hone
  have hsec : ∀ c, c < 32 → aSEC_STATUS ∉ channelKeys c := fun c hc hm => by
    simp only [channelKeys, List.mem_cons, List.not_mem_nil, or_false, aMEM_STATUS, aSWAGE_STATUS, aSEC_STATUS] at hm
    omega
  have hsecu : barGet u aSEC_STATUS = barGet s.chip aSEC_STATUS := hall.2 _ fun hm => by
    obtain ⟨d, hd, hkd⟩ := List.mem_flatMap.1 hm
    exact hsec d (List.mem_range.1 hd) hkd
  have hcount : fget (fsat u aSEC_STATUS 31 24 k) aSEC_STATUS 31 24 = min (fget s.chip aSEC_STATUS 31 24 + k) 255 := by
    rw [fget_fsat_same _ _ _ _ _ (by omega) (by omega), fget_of_barGet hsecu]
    rfl
  have hb1 := onlyBar_fsat (ks := [aSEC_STATUS]) u 31 24 k (List.mem_singleton_self _)
  generalize fsat u aSEC_STATUS 31 24 k = w at hexec hcount hb1
  obtain ⟨hb2, hkeep⟩ := onlyBar_advanceStage w
  generalize advanceStage w = z at hexec hb2 hkeep
  have hb := onlyBar_trans hb1 hb2
  refine ⟨_, hexec, ?_, (hkeep 31 24 (by omega) (by omega)).trans hcount, fun c hc => ?_⟩
  · refine regsOnly_of_onlyBar (onlyBar_trans (onlyBar_mono (fun k hk => ?_) hall) (onlyBar_mono (ks := [aSEC_STATUS]) (fun k hk => by simp [List.mem_singleton.1 hk]) hb))
    obtain ⟨d, hd, hkd⟩ := List.mem_flatMap.1 hk
    simp only [channelKeys, List.mem_cons, List.not_mem_nil, or_false] at hkd
    simp only [List.cons_append, List.mem_cons, List.mem_append, List.mem_map]
    rcases hkd with rfl | rfl
    · exact .inr (.inl ⟨d, hd, rfl⟩)
    · exact .inr (.inr ⟨d, hd, rfl⟩)
  · obtain ⟨x, hx1, hx2⟩ := hone c hc
    have hst : barGet x (aMEM_STATUS c) = barGet s.chip (aMEM_STATUS c) := hx1.2 _ (channelKeys_apart hc (by simp [channelKeys]))
    have hch : getChan x c = getChan s.chip c := by
      unfold getChan
      rw [mem_of_onlyBar hx1]
    have hz : ∀ key, key ∈ channelKeys c → barGet z key = barGet (trainEnd v x c) key := fun key hk =>
      (hb.2 _ (fun hm => hsec c hc (List.mem_singleton.1 hm ▸ hk))).trans (hx2.2 _ (channelKeys_apart hc hk))
    have hz1 := hz (aMEM_STATUS c) (by simp [channelKeys])
    have hz2 := hz (aSWAGE_STATUS c) (by simp [channelKeys])
    have hspec := trainEnd_spec v x c
    rw [show chanState x c = chanState s.chip c from fget_of_barGet hst 7 4, show trainable x c = trainable s.chip c by
      unfold trainable; rw [hch], hch, ← hz1, hst, ← fget_of_barGet hz1, ← fget_of_barGet hz2,
      show chanState (trainEnd v x c) c = chanState z c from (fget_of_barGet hz1 7 4).symm] at hspec
    exact hspec

theorem channelsAreTrained : Clauses.ChannelsAreTrained := by
  intro s
  refine ⟨fun h => ?_, trainClause, trainingEndsClause⟩
  rw [exec_memTrain, if_pos h]

end Sys2Proof.Proofs
end

section
/-! SUPPORT. Memory channels: failures, the map and upkeep (O31). -/

namespace Sys2Proof.Proofs

open Sys2Proof.Machine

-- Failures (R297, R298, R305).

theorem failChannel_spec (s : Chip) (c : Nat) : onlyBar [aMEM_STATUS c, aSWAGE_STATUS c] s (failChannel s c) ∧
    chanState (failChannel s c) c = 4 ∧ fget (failChannel s c) (aSWAGE_STATUS c) 3 0 = 3 ∧ chanFailed (failChannel s c) c = true := by
  have hst : chanState (failChannel s c) c = 4 := by
    unfold failChannel chanState
    rw [fget_fset_other _ _ _ _ _ _ (by unfold aMEM_STATUS aSWAGE_STATUS; omega), fget_fset_same _ _ _ _ _ (by omega) (by omega)]
    rfl
  refine ⟨onlyBar_trans (onlyBar_fset _ _ _ _ (by simp)) (onlyBar_fset _ _ _ _ (by simp)), hst, ?_, ?_⟩
  · exact (fget_fset_same _ _ _ _ _ (by omega) (by omega)).trans rfl
  · rw [chanFailed, hst]
    rfl

theorem exec_caParityError {s : State} {c : Nat} (hc : c < 32) (again : Bool) : exec (.caParityError c again) s =
    .next { s with chip := (if again && inService s.chip c then failChannel s.chip c else s.chip) } :=
  exec_onChan (cmd := cmdCaParityError c again) hc rfl (g := fun st => when (again && inService st c) st (fun u => failChannel u c))
    fun _ => rfl

theorem channelsFail : Clauses.ChannelsFail := by
  intro s c hc failed
  refine ⟨?_, ?_, fun hs => ?_, exec_onChan (cmd := cmdRefresh c) hc rfl (g := id) fun _ => rfl⟩
  · have hexec : exec (.channelFence c) s = .next { s with chip := failChannel (fsetb s.chip (aMEM_CTL c) 8 true) c } :=
      exec_onChan (cmd := cmdChannelFence c) hc rfl (g := fun st => failChannel (fsetb st (aMEM_CTL c) 8 true) c) fun _ => rfl
    have hb1 := onlyBar_fsetb (ks := [aMEM_CTL c]) s.chip 8 true (List.mem_singleton_self _)
    have hbit := fbit_fsetb_same s.chip (aMEM_CTL c) 8 true (by omega)
    generalize fsetb s.chip (aMEM_CTL c) 8 true = u at hexec hb1 hbit
    obtain ⟨hb2, hfail⟩ := failChannel_spec u c
    generalize failChannel u c = v at hexec hb2 hfail
    refine ⟨_, hexec, regsOnly_of_onlyBar (onlyBar_trans (onlyBar_mono (by simp) hb1) (onlyBar_mono (by simp) hb2)), hfail, ?_⟩
    refine (fbit_of_barGet (hb2.2 _ ?_) 8).trans hbit
    simp only [List.mem_cons, List.not_mem_nil, or_false, aMEM_CTL, aMEM_STATUS, aSWAGE_STATUS]
    omega
  · rw [exec_caParityError hc, Bool.false_and, if_neg Bool.false_ne_true]
  · obtain ⟨hb, hfail⟩ := failChannel_spec s.chip c
    have hexec := exec_caParityError (s := s) hc true
    rw [hs, Bool.and_self, if_pos rfl] at hexec
    generalize failChannel s.chip c = v at hexec hb hfail
    exact ⟨_, hexec, regsOnly_of_onlyBar hb, hfail⟩

-- The map (R285, R303, R309, R310).

/-- The map's fields as a write leaves them, ENABLE as it was. -/
def mapFields (s : Chip) (v : Nat) : Chip :=
  fset (fset (fset s aMEM_MAP 47 40 (bitsOf v 47 40)) aMEM_MAP 33 32 (bitsOf v 33 32)) aMEM_MAP 25 24 (bitsOf v 25 24)

/-- The map with what its members give it. -/
def mapShared (s : Chip) : Chip :=
  let set := (List.range 32).filter (inSet s)
  let cap := match (set.filter (inService s)).map (fun c => (getChan s c).cap * 2 ^ 30) with
    | [] => 0
    | x :: r => r.foldl min x
  { s with mem := { s.mem with cap := cap, lost := set.filter (fun c => !inService s c) } }

/-- A channel shows whether it is a member. -/
def memberShown (st : Chip) (c : Nat) : Chip := fsetb st (aMEM_STATUS c) 3 (inSet st c)

theorem enableMap_eq (s : Chip) : enableMap s = forEach (List.range 32) memberShown (mapShared (fsetb s aMEM_MAP 0 true)) := rfl

theorem onlyBar_mapFields (s : Chip) (v : Nat) : onlyBar [aMEM_MAP] s (mapFields s v) :=
  onlyBar_trans (onlyBar_trans (onlyBar_fset _ _ _ _ (List.mem_singleton_self _)) (onlyBar_fset _ _ _ _ (List.mem_singleton_self _)))
    (onlyBar_fset _ _ _ _ (List.mem_singleton_self _))

theorem mapFields_spec (s : Chip) (v : Nat) : fget (mapFields s v) aMEM_MAP 47 40 = bitsOf v 47 40 ∧
    fget (mapFields s v) aMEM_MAP 33 32 = bitsOf v 33 32 ∧ fget (mapFields s v) aMEM_MAP 25 24 = bitsOf v 25 24 ∧
    fbit (mapFields s v) aMEM_MAP 0 = fbit s aMEM_MAP 0 := by
  have other : ∀ (u : Chip) (hi lo v hi' lo' : Nat), lo ≤ hi → hi < 64 → lo' ≤ hi' → (hi' < lo ∨ hi < lo') →
      fget (fset u aMEM_MAP hi lo v) aMEM_MAP hi' lo' = fget u aMEM_MAP hi' lo' := fun u hi lo v hi' lo' h hh h' hd =>
    fget_fset_field _ _ _ _ _ _ _ h hh h' hd
  have same : ∀ (u : Chip) (hi lo : Nat), lo ≤ hi → hi < 64 →
      fget (fset u aMEM_MAP hi lo (bitsOf v hi lo)) aMEM_MAP hi lo = bitsOf v hi lo := fun u hi lo h hh => by
    rw [fget_fset_same _ _ _ _ _ h hh]
    exact Nat.mod_eq_of_lt (bitsOf_lt ..)
  unfold mapFields fbit
  refine ⟨?_, ?_, ?_, ?_⟩
  · rw [other _ 25 24 _ 47 40 (by omega) (by omega) (by omega) (by omega),
      other _ 33 32 _ 47 40 (by omega) (by omega) (by omega) (by omega), same _ 47 40 (by omega) (by omega)]
  · rw [other _ 25 24 _ 33 32 (by omega) (by omega) (by omega) (by omega), same _ 33 32 (by omega) (by omega)]
  · rw [same _ 25 24 (by omega) (by omega)]
  · rw [other _ 25 24 _ 0 0 (by omega) (by omega) (by omega) (by omega),
      other _ 33 32 _ 0 0 (by omega) (by omega) (by omega) (by omega),
      other _ 47 40 _ 0 0 (by omega) (by omega) (by omega) (by omega)]

theorem foldl_min_le (l : List Nat) (x y : Nat) (h : y = x ∨ y ∈ l) : l.foldl min x ≤ y := by
  induction l generalizing x y with
  | nil =>
    rcases h with rfl | h
    · exact le_refl _
    · exact absurd h List.not_mem_nil
  | cons z r ih =>
    rw [List.foldl_cons]
    have hle : r.foldl min (min x z) ≤ min x z := ih _ _ (.inl rfl)
    rcases h with rfl | h
    · omega
    · rcases List.mem_cons.1 h with rfl | h
      · omega
      · exact ih _ _ (.inr h)

/-- The capacity that the map shares is at most each live member's. -/
theorem mapShared_cap {s : Chip} {c : Nat} (hc : c < 32) (hin : inSet s c = true) (hs : inService s c = true) :
    (mapShared s).mem.cap ≤ (getChan s c).cap * 2 ^ 30 := by
  have hm : (getChan s c).cap * 2 ^ 30 ∈ ((((List.range 32).filter (inSet s)).filter (inService s)).map
      (fun c => (getChan s c).cap * 2 ^ 30)) :=
    List.mem_map.2 ⟨c, List.mem_filter.2 ⟨List.mem_filter.2 ⟨List.mem_range.2 hc, hin⟩, hs⟩, rfl⟩
  unfold mapShared
  simp only
  revert hm
  generalize ((((List.range 32).filter (inSet s)).filter (inService s)).map (fun c => (getChan s c).cap * 2 ^ 30)) = l
  cases l with
  | nil => exact fun h => absurd h List.not_mem_nil
  | cons x r => exact fun h => foldl_min_le r x _ (List.mem_cons.1 h)

theorem inSet_of_map {s u : Chip} (h : barGet u aMEM_MAP = barGet s aMEM_MAP) (c : Nat) : inSet u c = inSet s c := by
  unfold inSet mapFirst mapWays mapW
  rw [fget_of_barGet h, fget_of_barGet h]

theorem aMEM_MAP_apart (l : List Nat) : aMEM_MAP ∉ l.flatMap (fun d => [aMEM_STATUS d]) := by
  intro h
  obtain ⟨d, -, hk⟩ := List.mem_flatMap.1 h
  have := List.mem_singleton.1 hk
  unfold aMEM_MAP aMEM_STATUS at this
  omega

theorem enableMap_spec (s : Chip) :
    within putMem (aMEM_MAP :: (List.range 32).map aMEM_STATUS) s (enableMap s) ∧
      (∀ hi lo, lo ≤ hi → 0 < lo → fget (enableMap s) aMEM_MAP hi lo = fget s aMEM_MAP hi lo) ∧
      fbit (enableMap s) aMEM_MAP 0 = true ∧
      (∀ c, c < 32 → fbit (enableMap s) (aMEM_STATUS c) 3 = inSet (enableMap s) c) ∧
      (∀ c, c < 32 → inSet (enableMap s) c = true → inService s c = true → (enableMap s).mem.cap ≤ (getChan s c).cap * 2 ^ 30) ∧
      ∀ c, c < 32 → (c ∈ (enableMap s).mem.lost ↔ inSet (enableMap s) c = true ∧ inService s c = false) := by
  rw [enableMap_eq]
  have hb1 := onlyBar_fsetb (ks := [aMEM_MAP]) s 0 true (List.mem_singleton_self _)
  have hbit := fbit_fsetb_same s aMEM_MAP 0 true (by omega)
  have hfield : ∀ hi lo, lo ≤ hi → 0 < lo → fget (fsetb s aMEM_MAP 0 true) aMEM_MAP hi lo = fget s aMEM_MAP hi lo := fun hi lo h hl =>
    fget_fset_field _ _ _ _ _ _ _ (by omega) (by omega) h (by omega)
  generalize fsetb s aMEM_MAP 0 true = u at *
  have hserve : ∀ c, inService u c = inService s c := fun c => by
    unfold inService chanState
    rw [fget_of_onlyBar hb1]
    simp only [List.mem_singleton, aMEM_STATUS, aMEM_MAP]
    omega
  have hchan : ∀ c, getChan u c = getChan s c := fun c => by
    unfold getChan
    rw [mem_of_onlyBar hb1]
  have hcap := fun c (hc : c < 32) => mapShared_cap (s := u) hc
  obtain ⟨w, hw⟩ : ∃ w, w = mapShared u := ⟨_, rfl⟩
  have hwbar : ∀ k, barGet w k = barGet u k := fun k => by rw [hw]; rfl
  have hwin : within putMem [aMEM_MAP] u w := by rw [hw]; exact ⟨rfl, fun _ _ => rfl⟩
  have hlost : w.mem.lost = ((List.range 32).filter (inSet u)).filter (fun c => !inService u c) := by rw [hw]; rfl
  rw [← hw] at hcap ⊢
  obtain ⟨hall, hone⟩ := forEach_channels (f := memberShown) (key := fun c => [aMEM_STATUS c])
    (fun s c => onlyBar_fsetb _ _ _ (List.mem_singleton_self _)) w
  generalize forEach (List.range 32) memberShown w = z at hall hone ⊢
  have hmap : barGet z aMEM_MAP = barGet u aMEM_MAP := (hall.2 _ (aMEM_MAP_apart _)).trans (hwbar _)
  have hset : ∀ c, inSet z c = inSet u c := inSet_of_map hmap
  refine ⟨?_, fun hi lo h hl => (fget_of_barGet hmap hi lo).trans (hfield hi lo h hl), (fbit_of_barGet hmap 0).trans hbit,
    fun c hc => ?_, fun c hc h1 h2 => ?_, fun c hc => ?_⟩
  · refine within_trans parts_mem (within_bar parts_mem (onlyBar_mono ?_ hb1))
      (within_trans parts_mem (within_mono ?_ hwin) (within_bar parts_mem (onlyBar_mono ?_ hall)))
    · exact fun k hk => by simp [List.mem_singleton.1 hk]
    · exact fun k hk => by simp [List.mem_singleton.1 hk]
    · intro k hk
      obtain ⟨d, hd, hkd⟩ := List.mem_flatMap.1 hk
      exact List.mem_cons_of_mem _ (List.mem_map.2 ⟨d, hd, (List.mem_singleton.1 hkd).symm⟩)
  · obtain ⟨x, hx1, hx2⟩ := hone c hc
    rw [fbit_of_barGet (hx2.2 _ memStatus_apart), memberShown, fbit_fsetb_same _ _ _ _ (by omega), hset,
      inSet_of_map ((hx1.2 _ (aMEM_MAP_apart _)).trans (hwbar _))]
  · rw [mem_of_onlyBar hall, ← hchan]
    exact hcap c hc (by rw [← hset]; exact h1) (by rw [hserve]; exact h2)
  · rw [mem_of_onlyBar hall, hlost, hset]
    simp only [List.mem_filter, List.mem_range, hc, true_and, hserve, Bool.not_eq_true']

theorem writeMap_cases (s : Chip) (v : Nat) :
    (fbit s aMEM_MAP 0 = true → bitOf v 0 = true → writeMap s v = s) ∧
      (fbit s aMEM_MAP 0 = false → writeMap s v =
        if bitOf v 0 && mapLegal (bitsOf v 33 32) (bitsOf v 25 24) then enableMap (mapFields s v) else mapFields s v) := by
  constructor
  · intro h1 h2
    rw [writeMap, h1, if_pos rfl, h2, if_pos rfl]
  · intro h1
    rw [writeMap, h1, if_neg Bool.false_ne_true]
    rfl

theorem theMapIsEnabled : Clauses.TheMapIsEnabled := by
  intro s data v
  have hexec : exec (.memMapWrite data) s = .next { s with chip := writeMap s.chip v } := onChip_next (f := cmdMemMapWrite data) rfl
  have hbit0 : bitOf v 0 = decide (v % 2 = 1) := by
    rw [bitOf, Nat.testBit_eq_decide_div_mod_eq, pow_zero, Nat.div_one]
  obtain ⟨hsame, hnew⟩ := writeMap_cases s.chip v
  refine ⟨fun h1 h2 => ?_, fun hoff => ?_, ?_⟩
  · rw [hexec, hsame h1 (by rw [hbit0]; exact decide_eq_true h2)]
  · rw [hnew hoff, hbit0] at hexec
    have hb := onlyBar_mapFields s.chip v
    obtain ⟨hsize, hways, hsetf, hen⟩ := mapFields_spec s.chip v
    generalize mapFields s.chip v = u at hexec hb hsize hways hsetf hen
    by_cases hgo : v % 2 = 1 ∧ mapLegal (bitsOf v 33 32) (bitsOf v 25 24) = true
    · obtain ⟨hw, hfield, hon, hshown, hcap, hlost⟩ := enableMap_spec u
      have hserve : ∀ c, inService u c = inService s.chip c := fun c => by
        unfold inService chanState
        rw [fget_of_onlyBar hb]
        simp only [List.mem_singleton, aMEM_STATUS, aMEM_MAP]
        omega
      have hchan : ∀ c, getChan u c = getChan s.chip c := fun c => by
        unfold getChan
        rw [mem_of_onlyBar hb]
      rw [if_pos (by simp [hgo])] at hexec
      generalize enableMap u = z at *
      simp only [hserve, hchan] at hcap hlost
      refine ⟨_, hexec, chipOnly_of_within (within_trans parts_mem (within_bar parts_mem (onlyBar_mono ?_ hb)) hw),
        (hfield 47 40 (by omega) (by omega)).trans hsize, (hfield 33 32 (by omega) (by omega)).trans hways,
        (hfield 25 24 (by omega) (by omega)).trans hsetf, ?_⟩
      · exact fun k hk => by simp [List.mem_singleton.1 hk]
      · rw [if_pos hgo]
        exact ⟨hon, hshown, hcap, hlost⟩
    · rw [if_neg (by simpa using hgo)] at hexec
      refine ⟨_, hexec, chipOnly_of_within (within_bar parts_mem (onlyBar_mono ?_ hb)), hsize, hways, hsetf, ?_⟩
      · exact fun k hk => by simp [List.mem_singleton.1 hk]
      · rw [if_neg hgo]
        exact ⟨hen.trans hoff, mem_of_onlyBar hb⟩
  · have hcommit : exec .hdmDecoderCommit s = .next { s with chip := fsetb s.chip aMEM_HDM 0 true } :=
      onChip_next (f := cmdHdmDecoderCommit) rfl
    exact ⟨_, hcommit, regsOnly_of_onlyBar (onlyBar_fsetb _ _ _ (List.mem_singleton_self _)), fbit_fsetb_same _ _ _ _ (by omega),
      fget_fset_field _ _ _ _ _ _ _ (by omega) (by omega) (by omega) (by omega)⟩

-- Upkeep (R293, R295, R296).

theorem getChan_modChan (s : Chip) (c : Nat) (f : Chan → Chan) : getChan (modChan s c f) c = f (getChan s c) := by
  unfold modChan setChan getChan
  simp only [tget_tset, if_true]

theorem readBurst_sound {s : Chip} {c mb : Nat} (p : Nat) (hf : chanFailed s c = false)
    (h : tget (fun _ => 0) s.mem.dflaw (mbKey c mb / 64) = 0) : readBurst s p c mb = (ctrAdd s p c 64, burstBytes s c mb, 0) := by
  simp only [readBurst, hf, h, Bool.false_eq_true, if_false, beq_self_eq_true, if_true]

theorem writeBackClause {s : State} {c mb : Nat} {r : List Nat} (hc : c < 32) (hfix : (getChan s.chip c).fix = mb :: r)
    (hf : chanFailed s.chip c = false) (h1 : tget (fun _ => 0) s.chip.mem.dflaw (mbKey c mb / 64) = 1) :
    ∃ t, exec (.memCorrectionWriteBack c) s = .next t ∧ t.chip.bar = s.chip.bar ∧ t.chip.mem.dram = s.chip.mem.dram ∧
      (getChan t.chip c).fix = r ∧ tget (fun _ => 0) t.chip.mem.dflaw (mbKey c mb / 64) = 0 := by
  obtain ⟨u, hu⟩ : ∃ u, u = modChan s.chip c (fun x => { x with fix := r }) := ⟨_, rfl⟩
  have hget : getChan u c = { getChan s.chip c with fix := r } := hu ▸ getChan_modChan ..
  have hbar : u.bar = s.chip.bar := by rw [hu]; rfl
  have hdram : u.mem.dram = s.chip.mem.dram := by rw [hu]; rfl
  have hexec : exec (.memCorrectionWriteBack c) s = .next { s with chip := (
      ctrAdd { u with mem := { u.mem with dflaw := tset (fun _ => 0) (mbKey c mb / 64) 0 u.mem.dflaw } } 16 (32 + c) 64) } :=
    onChip_next (f := cmdMemCorrectionWriteBack c) (by
      unfold cmdMemCorrectionWriteBack onChan
      rw [onUnit_next hc, hfix]
      simp only [hf, h1, Bool.false_or, bne_self_eq_false, Bool.false_eq_true, if_false]
      rw [← hu])
  refine ⟨_, hexec, hbar, hdram, ?_, ?_⟩
  · exact congrArg Chan.fix hget
  · exact tget_tset_same (fun _ => 0) (mbKey c mb / 64) 0 u.mem.dflaw

theorem scrubClause {s : State} {c : Nat} (hc : c < 32) (hs : inService s.chip c = true) (hon : fbit s.chip (aMEM_CTL c) 13 = true)
    (hf : chanFailed s.chip c = false) (h0 : tget (fun _ => 0) s.chip.mem.dflaw (mbKey c (64 * (getChan s.chip c).scrubPos) / 64) = 0)
    (hroom : (getChan s.chip c).scrubPos + 1 < (getChan s.chip c).cap * 2 ^ 24) :
    ∃ t, exec (.patrolScrub c) s = .next t ∧ t.chip.bar = s.chip.bar ∧ t.chip.mem.dram = s.chip.mem.dram ∧
      getChan t.chip c = { getChan s.chip c with scrubPos := (getChan s.chip c).scrubPos + 1 } := by
  have hexec : exec (.patrolScrub c) s = .next { s with chip := (
      modChan (ctrAdd s.chip 16 c 64) c (fun x => { x with scrubPos := (getChan s.chip c).scrubPos + 1 })) } :=
    onChip_next (f := cmdPatrolScrub c) (by
      unfold cmdPatrolScrub onChan when
      rw [onUnit_next hc, hs, hon, Bool.and_self, if_pos rfl]
      simp only [readBurst_sound 16 hf h0]
      rw [if_neg (by simpa using hroom)])
  refine ⟨_, hexec, rfl, rfl, ?_⟩
  exact getChan_modChan ..

theorem sparedClause {s : State} {c row : Nat} (hc : c < 32) (hs : inService s.chip c = true)
    (hon : fbit s.chip (aMEM_CTL c) 12 = true) (hnone : rowFlaws s.chip c row = [])
    (hhits : 4 ≤ (tget (fun _ => []) (getChan s.chip c).rowHits row).length) :
    ∃ t, exec (.softPpr c row) s = .next t ∧
      regsOnly [aMEM_STATUS c, aMEM_ERRLOG c] { s with chip := { s.chip with mem := t.chip.mem } } t ∧
      countedOne s t (aMEM_STATUS c) 31 24 ∧ (getChan t.chip c).spared = (getChan s.chip c).spared ++ [row] ∧
      tget (fun _ => []) (getChan t.chip c).rowHits row = [] ∧ t.chip.mem.dram = s.chip.mem.dram := by
  obtain ⟨u, hu⟩ : ∃ u, u = modChan s.chip c (fun x => { x with
    rowHits := tset (fun _ => []) row [] x.rowHits
    fix := x.fix.filter (fun mb => mb / 8192 != row)
    spared := x.spared ++ [row] }) := ⟨_, rfl⟩
  have hget := hu ▸ getChan_modChan s.chip c (fun x => { x with
    rowHits := tset (fun _ => []) row [] x.rowHits
    fix := x.fix.filter (fun mb => mb / 8192 != row)
    spared := x.spared ++ [row] })
  have hexec : exec (.softPpr c row) s = .next { s with chip := (
      fset (fsat u (aMEM_STATUS c) 31 24 1) (aMEM_ERRLOG c) 42 0 (8192 * row)) } :=
    onChip_next (f := cmdSoftPpr c row) (by
      unfold cmdSoftPpr onChan when
      rw [onUnit_next hc]
      simp only [hs, hon, decide_eq_true hhits, hnone, Bool.and_self, if_true]
      rw [show forEach [] _ s.chip = s.chip from rfl, ← hu])
  have hframe : u = { s.chip with mem := u.mem } := by rw [hu]; rfl
  have hdram : u.mem.dram = s.chip.mem.dram := by rw [hu]; rfl
  have hold : barGet u (aMEM_STATUS c) = barGet s.chip (aMEM_STATUS c) := by rw [hu]; rfl
  have hne : aMEM_STATUS c ≠ aMEM_ERRLOG c := by
    unfold aMEM_STATUS aMEM_ERRLOG
    omega
  have hcount : fget (fset (fsat u (aMEM_STATUS c) 31 24 1) (aMEM_ERRLOG c) 42 0 (8192 * row)) (aMEM_STATUS c) 31 24 =
      min (fget s.chip (aMEM_STATUS c) 31 24 + 1) (2 ^ (31 + 1 - 24) - 1) := by
    rw [fget_fset_other _ _ _ _ _ _ hne, fget_fsat_same _ _ _ _ _ (by omega) (by omega), fget_of_barGet hold]
  have hb : onlyBar [aMEM_STATUS c, aMEM_ERRLOG c] u (fset (fsat u (aMEM_STATUS c) 31 24 1) (aMEM_ERRLOG c) 42 0 (8192 * row)) :=
    onlyBar_trans (onlyBar_fsat _ _ _ _ (by simp)) (onlyBar_fset _ _ _ _ (by simp))
  generalize fset (fsat u (aMEM_STATUS c) 31 24 1) (aMEM_ERRLOG c) 42 0 (8192 * row) = z at hexec hcount hb
  have hz := mem_of_onlyBar hb
  have hgz : getChan z c = getChan u c := by
    unfold getChan
    rw [hz]
  refine ⟨_, hexec, ?_, hcount, ?_, ?_, (congrArg MemS.dram hz).trans hdram⟩
  · rw [← hz] at hframe
    exact regsOnly_of_onlyBar (st := { s with chip := { s.chip with mem := z.mem } }) (hframe ▸ hb)
  · exact (congrArg Chan.spared (hgz.trans hget))
  · refine (congrArg (fun x => tget (fun _ => []) (Chan.rowHits x) row) (hgz.trans hget)).trans ?_
    exact tget_tset_same (fun _ => ([] : List Nat)) row [] (getChan s.chip c).rowHits

theorem channelUpkeep : Clauses.ChannelUpkeep := fun _ _ hc =>
  ⟨fun _ _ => writeBackClause hc, scrubClause hc, fun _ => sparedClause hc⟩

/-- Settles O31: training channel by channel, the map by what its write enables. -/
theorem channelsAndTheMap : Obligations.ChannelsAndTheMap := ⟨channelsAreTrained, channelsFail, theMapIsEnabled, channelUpkeep⟩

end Sys2Proof.Proofs
end

section
/-! SUPPORT. Egress rings, frames and PTP messages (O42). -/

namespace Sys2Proof.Proofs

open Sys2Proof.Machine

/-- No capture unit is armed: an event changes nothing (R504). -/
theorem captureEvent_off {s : Chip} (h : capsOff s = true) (src unit : Nat) (more : Chip → Nat → Bool) (d : Int) :
    captureEvent s src unit more d = s := by
  refine forEach_eq_self fun j hj => ?_
  have hoff : fbit s (aTC_CTL j) 63 = false := by simpa using List.all_eq_true.1 h j hj
  split
  · exact (captureUnit_cases s j d).1 hoff
  · rfl

theorem capsOff_of_bar {s u : Chip} (h : u.bar = s.bar) : capsOff u = capsOff s := by
  unfold capsOff fbit fget barGet
  rw [h]

theorem fget_of_bar {s u : Chip} (h : u.bar = s.bar) (k hi lo : Nat) : fget u k hi lo = fget s k hi lo := by
  unfold fget barGet
  rw [h]

theorem captureFrame_off {s u : Chip} (h : capsOff s = true) (hu : u.bar = s.bar) (p : Nat) (ptp : Bool) (m : Nat) (d : Int) :
    captureFrame u p ptp m d = u :=
  captureEvent_off ((capsOff_of_bar hu).trans h) _ _ _ _

/-- Rings to which nothing is owed do not go on. -/
theorem resumeRings_idle {s : Chip} {p : Nat} (h : ∀ r, r < 4 → tget (fun _ => 0) (getPort s p).owed r = 0) : resumeRings s p = s :=
  forEach_eq_self fun r hr => by
    rw [h r (List.mem_range.1 hr)]
    rfl

theorem dropFrame_spec (ks : List Nat) (s : Chip) (p : Nat) (f : EgFrame) :
    within putPorts ks s (dropFrame s p f) ∧ (getPort (dropFrame s p f) p).frames = (getPort s p).frames.erase f ∧
      (getPort (dropFrame s p f) p).owed = (getPort s p).owed ∧ (getPort (dropFrame s p f) p).sent = (getPort s p).sent ∧
      (getPort (dropFrame s p f) p).shapers = (getPort s p).shapers ∧ (getPort (dropFrame s p f) p).txSeq = (getPort s p).txSeq := by
  obtain ⟨u, hu⟩ : ∃ u, u = modPort s p (fun x => { x with frames := x.frames.erase f }) := ⟨_, rfl⟩
  have hw : within putPorts ks s u := hu ▸ within_modPort ..
  have hg : getPort u p = { getPort s p with frames := (getPort s p).frames.erase f } := by
    rw [hu, getPort_modPort, if_pos rfl]
  have hd : getPort (dropFrame s p f) p = { getPort u p with
      headAt := tset (fun _ => 0) f.queue (nowNs u) (getPort u p).headAt
      fullAt := tset (fun _ => 0) f.queue (nowNs u) (getPort u p).fullAt } := by
    rw [dropFrame, ← hu, noteHead, getPort_modPort, if_pos rfl]
  have hdw : within putPorts ks u (dropFrame s p f) := by
    rw [dropFrame, ← hu]
    exact within_modPort ..
  rw [hd, hg]
  exact ⟨within_trans parts_ports hw hdw, rfl, rfl, rfl, rfl, rfl⟩

-- Rings (R476).

/-- A ring register as a write leaves it. -/
def ringSet (s : Chip) (k v : Nat) : Chip :=
  fset (fset (fset (fset (fset s k 63 60 (bitsOf v 63 60)) k 59 56 (max 4 (min 12 (bitsOf v 59 56)))) k 55 48 (bitsOf v 55 48))
    k 43 22 (bitsOf v 43 22 / 8 * 8)) k 21 0 (bitsOf v 21 0 / 32 * 32)

theorem onlyBar_ringSet (s : Chip) (k v : Nat) : onlyBar [k] s (ringSet s k v) := by
  have h := List.mem_singleton_self k
  exact onlyBar_trans (onlyBar_trans (onlyBar_trans (onlyBar_trans (onlyBar_fset _ _ _ _ h) (onlyBar_fset _ _ _ _ h))
    (onlyBar_fset _ _ _ _ h)) (onlyBar_fset _ _ _ _ h)) (onlyBar_fset _ _ _ _ h)

theorem ringSet_spec (s : Chip) (k v : Nat) : fget (ringSet s k v) k 63 60 = bitsOf v 63 60 ∧
    fget (ringSet s k v) k 59 56 = max 4 (min 12 (bitsOf v 59 56)) ∧ fget (ringSet s k v) k 55 48 = bitsOf v 55 48 ∧
    fget (ringSet s k v) k 43 25 = bitsOf v 43 25 ∧ fget (ringSet s k v) k 24 22 = 0 ∧
    fget (ringSet s k v) k 21 5 = bitsOf v 21 5 ∧ fget (ringSet s k v) k 4 0 = 0 := by
  have other : ∀ (u : Chip) (hi lo v hi' lo' : Nat), lo ≤ hi → hi < 64 → lo' ≤ hi' → (hi' < lo ∨ hi < lo') →
      fget (fset u k hi lo v) k hi' lo' = fget u k hi' lo' := fun u hi lo v hi' lo' h hh h' hd =>
    fget_fset_field _ _ _ _ _ _ _ h hh h' hd
  have same : ∀ (u : Chip) (hi lo v : Nat), lo ≤ hi → hi < 64 → v < 2 ^ (hi + 1 - lo) →
      fget (fset u k hi lo v) k hi lo = v := fun u hi lo v h hh hv => by
    rw [fget_fset_same _ _ _ _ _ h hh, Nat.mod_eq_of_lt hv]
  have h43 : fget (ringSet s k v) k 43 22 = bitsOf v 43 22 / 8 * 8 := by
    have hlt := bitsOf_lt v 43 22
    rw [ringSet, other _ 21 0 _ 43 22 (by omega) (by omega) (by omega) (by omega), same _ 43 22 _ (by omega) (by omega) (by omega)]
  have h21 : fget (ringSet s k v) k 21 0 = bitsOf v 21 0 / 32 * 32 := by
    have hlt := bitsOf_lt v 21 0
    rw [ringSet, same _ 21 0 _ (by omega) (by omega) (by omega)]
  unfold fget at h43 h21 ⊢
  simp only [bitsOf_eq] at h43 h21 ⊢
  refine ⟨?_, ?_, ?_, by omega, by omega, by omega, by omega⟩ <;> rw [← bitsOf_eq, ← bitsOf_eq] <;> change fget (ringSet s k v) k _ _ = _ <;>
    unfold ringSet
  · rw [other _ 21 0 _ 63 60 (by omega) (by omega) (by omega) (by omega), other _ 43 22 _ 63 60 (by omega) (by omega) (by omega) (by omega),
      other _ 55 48 _ 63 60 (by omega) (by omega) (by omega) (by omega), other _ 59 56 _ 63 60 (by omega) (by omega) (by omega) (by omega),
      same _ 63 60 _ (by omega) (by omega) (bitsOf_lt ..)]
  · rw [other _ 21 0 _ 59 56 (by omega) (by omega) (by omega) (by omega), other _ 43 22 _ 59 56 (by omega) (by omega) (by omega) (by omega),
      other _ 55 48 _ 59 56 (by omega) (by omega) (by omega) (by omega), same _ 59 56 _ (by omega) (by omega) (by omega)]
  · rw [other _ 21 0 _ 55 48 (by omega) (by omega) (by omega) (by omega), other _ 43 22 _ 55 48 (by omega) (by omega) (by omega) (by omega),
      same _ 55 48 _ (by omega) (by omega) (bitsOf_lt ..)]

/-- A ring at its start. -/
def ringRestart (s : Chip) (p r : Nat) : Chip :=
  modPort s p (fun x => { x with
    heads := tset (fun _ => 0) r 0 x.heads
    owed := tset (fun _ => 0) r 0 x.owed
    stops := tmark x.stops r false })

theorem ringRestart_spec (s : Chip) (p r : Nat) : (ringRestart s p r).bar = s.bar ∧
    tget (fun _ => 0) (getPort (ringRestart s p r) p).heads r = 0 ∧ tmem (getPort (ringRestart s p r) p).stops r = false := by
  refine ⟨rfl, ?_, ?_⟩ <;> rw [ringRestart, getPort_modPort, if_pos rfl]
  · exact tget_tset_same (fun _ => 0) r 0 _
  · simp

theorem ringClause {s : State} {port ring : Nat} (hp : port < 8) (hr : ring < 4) (data : Word) :
    ∃ t, exec (.egressRingWrite port ring data) s = .next t ∧ fget t.chip (aTXRING port ring) 63 60 = bitsOf data.toNat 63 60 ∧
      fget t.chip (aTXRING port ring) 59 56 = max 4 (min 12 (bitsOf data.toNat 59 56)) ∧
      fget t.chip (aTXRING port ring) 55 48 = bitsOf data.toNat 55 48 ∧ fget t.chip (aTXRING port ring) 43 25 = bitsOf data.toNat 43 25 ∧
      fget t.chip (aTXRING port ring) 24 22 = 0 ∧ fget t.chip (aTXRING port ring) 21 5 = bitsOf data.toNat 21 5 ∧
      fget t.chip (aTXRING port ring) 4 0 = 0 ∧ tget (fun _ => 0) (getPort t.chip port).heads ring = 0 ∧
      tmem (getPort t.chip port).stops ring = false ∧
      chipOnly [aTXRING port ring] s t (fun c => { c with ports := t.chip.ports }) := by
  have hexec : exec (.egressRingWrite port ring data) s = .next { s with chip := (
      ringRestart (ringSet s.chip (aTXRING port ring) data.toNat) port ring) } :=
    onChip_next (f := cmdEgressRingWrite port ring data) (by
      unfold cmdEgressRingWrite
      exact if_pos ⟨hp, hr⟩)
  have hb := onlyBar_ringSet s.chip (aTXRING port ring) data.toNat
  have hspec := ringSet_spec s.chip (aTXRING port ring) data.toNat
  generalize ringSet s.chip (aTXRING port ring) data.toNat = u at *
  have hw : within putPorts [aTXRING port ring] s.chip (ringRestart u port ring) :=
    within_trans parts_ports (within_bar parts_ports hb) (within_modPort ..)
  obtain ⟨hbar, hheads, hstops⟩ := ringRestart_spec u port ring
  generalize ringRestart u port ring = w at *
  rw [← fget_of_bar hbar, ← fget_of_bar hbar, ← fget_of_bar hbar, ← fget_of_bar hbar, ← fget_of_bar hbar, ← fget_of_bar hbar,
    ← fget_of_bar hbar] at hspec
  obtain ⟨h1, h2, h3, h4, h5, h6, h7⟩ := hspec
  exact ⟨_, hexec, h1, h2, h3, h4, h5, h6, h7, hheads, hstops, chipOnly_of_within hw⟩

-- Frames (R479 to R482).

theorem mem_chooseFrame {s : Chip} {p : Nat} {f : EgFrame} (h : chooseFrame s p = some f) : f ∈ (getPort s p).frames := by
  have hfold : ∀ (l : List EgFrame) (r : Option EgFrame) (f : EgFrame),
      l.foldl (fun r f => match r with | none => some f | some g => if f.launch < g.launch then some f else some g) r = some f →
      f ∈ l ∨ r = some f := by
    intro l
    induction l with
    | nil => exact fun r f h => .inr h
    | cons x l ih =>
      intro r f h
      rcases ih _ f h with h | h
      · exact .inl (List.mem_cons_of_mem _ h)
      · cases r with
        | none => exact .inl (Option.some.inj h ▸ List.mem_cons_self)
        | some g =>
          simp only at h
          split at h
          · exact .inl (Option.some.inj h ▸ List.mem_cons_self)
          · exact .inr h
  simp only [chooseFrame] at h
  have hm := (hfold _ _ _ h).resolve_right (by simp)
  have hheads : f ∈ (List.range 16).filterMap (fun q => headFrame s p q) := by
    split at hm
    · exact (List.mem_filter.1 hm).1
    · exact (List.mem_filter.1 (List.mem_filter.1 hm).1).1
  obtain ⟨q, -, hq⟩ := List.mem_filterMap.1 hheads
  exact List.mem_of_find?_eq_some hq

/-- A frame on the line: its queue is charged, it is counted, and it leaves the buffer. -/
def frameOut (s : Chip) (p : Nat) (f : EgFrame) : Chip :=
  let s1 := ctrAdd (setBucket s p f.queue (chargeBucket (portShape s p f.queue) (portBucket s p f.queue) (counted s p f))) 0 160 f.len
  dropFrame (modPort s1 p (fun x => { x with
    sent := some f
    txSeq := tset (fun _ => 0) f.eaxc ((tget (fun _ => 0) x.txSeq f.eaxc + 1) % 256) x.txSeq })) p f

theorem frameOut_spec (s : Chip) (p : Nat) (f : EgFrame) :
    frameOut s p f = { s with ports := (frameOut s p f).ports, ctrLive := (frameOut s p f).ctrLive } ∧
      (getPort (frameOut s p f) p).frames = (getPort s p).frames.erase f ∧ (getPort (frameOut s p f) p).sent = some f ∧
      (getPort (frameOut s p f) p).owed = (getPort s p).owed ∧
      portBucket (frameOut s p f) p f.queue = chargeBucket (portShape s p f.queue) (portBucket s p f.queue) (counted s p f) ∧
      tget (fun _ => 0) (getPort (frameOut s p f) p).txSeq f.eaxc = (tget (fun _ => 0) (getPort s p).txSeq f.eaxc + 1) % 256 := by
  obtain ⟨b, hb⟩ : ∃ b, b = chargeBucket (portShape s p f.queue) (portBucket s p f.queue) (counted s p f) := ⟨_, rfl⟩
  obtain ⟨v, hv⟩ : ∃ v, v = setBucket s p f.queue b := ⟨_, rfl⟩
  have hvp : getPort v p = { getPort s p with shapers := tset (fun _ => {}) f.queue b (getPort s p).shapers } := by
    rw [hv, setBucket, getPort_modPort, if_pos rfl]
  have hvf : v = { s with ports := v.ports } := by rw [hv]; rfl
  obtain ⟨w, hw⟩ : ∃ w, w = modPort (ctrAdd v 0 160 f.len) p (fun x => { x with
    sent := some f
    txSeq := tset (fun _ => 0) f.eaxc ((tget (fun _ => 0) x.txSeq f.eaxc + 1) % 256) x.txSeq }) := ⟨_, rfl⟩
  have hwp : getPort w p = { getPort v p with
      sent := some f
      txSeq := tset (fun _ => 0) f.eaxc ((tget (fun _ => 0) (getPort v p).txSeq f.eaxc + 1) % 256) (getPort v p).txSeq } := by
    rw [hw, getPort_modPort, if_pos rfl]
    rfl
  have hwf : w = { v with ports := w.ports, ctrLive := w.ctrLive } := by rw [hw]; rfl
  have hout : frameOut s p f = dropFrame w p f := by rw [hw, hv, hb, frameOut]
  obtain ⟨⟨hd, -⟩, hframes, howed, hsent, hshape, hseq⟩ := dropFrame_spec [] w p f
  have hbar : (dropFrame w p f).bar = w.bar := rfl
  rw [hout]
  generalize dropFrame w p f = z at *
  rw [hwp, hvp] at hframes howed hsent hshape hseq
  refine ⟨?_, hframes, hsent, howed, ?_, ?_⟩
  · rw [hbar] at hd
    rw [hd, hwf, hvf]
    rfl
  · rw [portBucket, hshape, hb]
    exact tget_tset_same (fun _ => ({} : Bucket)) _ _ _
  · rw [hseq]
    exact tget_tset_same (fun _ => 0) _ _ _

theorem frameClause {s : State} {port : Nat} (hp : port < 8) :
    (portState s.chip port ≠ 2 ∨ chooseFrame s.chip port = none → exec (.egressFrameStart port) s = .next s) ∧
    (∀ f, portState s.chip port = 2 → s.chip.boot.undervolt = false → chooseFrame s.chip port = some f →
      capsOff s.chip = true → (∀ r, r < 4 → tget (fun _ => 0) (getPort s.chip port).owed r = 0) →
      ∃ t, exec (.egressFrameStart port) s = .next t ∧ (getPort t.chip port).frames = (getPort s.chip port).frames.erase f ∧
        (getPort t.chip port).sent = some f ∧ t.chip.radio = { s.chip.radio with flowed := true } ∧
        portBucket t.chip port f.queue = chargeBucket (portShape s.chip port f.queue) (portBucket s.chip port f.queue) (counted s.chip port f) ∧
        tget (fun _ => 0) (getPort t.chip port).txSeq f.eaxc = (tget (fun _ => 0) (getPort s.chip port).txSeq f.eaxc + 1) % 256 ∧
        t.chip.bar = s.chip.bar ∧ t.chip.tiles = s.chip.tiles ∧ t.chip.strands = s.chip.strands) := by
  refine ⟨fun h => ?_, fun f h2 hu hf hcap howed => ?_⟩
  · refine onChip_next (c := s.chip) (f := cmdEgressFrameStart port) ?_
    unfold cmdEgressFrameStart onPort
    rw [onUnit_next hp]
    rcases h with h | h
    · simp [h]
    · simp [h]
  · have hexec : exec (.egressFrameStart port) s = .next { s with chip := (
        resumeRings (rdMod (frameOut s.chip port f) (fun r => { r with flowed := true })) port) } :=
      onChip_next (f := cmdEgressFrameStart port) (by
        unfold cmdEgressFrameStart onPort
        rw [onUnit_next hp]
        simp only [h2, hu, hf, bne_self_eq_false, Bool.or_false, Bool.false_eq_true, if_false]
        rw [captureFrame_off hcap]
        · rfl
        · rfl)
    obtain ⟨hw, hframes, hsent, ho, hbucket, hseq⟩ := frameOut_spec s.chip port f
    generalize frameOut s.chip port f = u at *
    have hidle : resumeRings (rdMod u (fun r => { r with flowed := true })) port = rdMod u (fun r => { r with flowed := true }) :=
      resumeRings_idle fun r hr => by
        change tget _ (getPort u port).owed r = 0
        rw [ho]
        exact howed r hr
    rw [hidle] at hexec
    refine ⟨_, hexec, hframes, hsent, ?_, hbucket, hseq, ?_, ?_, ?_⟩ <;> rw [hw] <;> rfl

theorem lateClause {s : State} {port queue : Nat} (hp : port < 8) (hq : queue < 16) :
    let late := (getPort s.chip port).frames.find? (fun f => f.queue == queue && decide (f.limit < (nowNs s.chip : Int)))
    (late = none → exec (.egressLateDiscard port queue) s = .next s) ∧
    ∀ f, late = some f → (∀ r, r < 4 → tget (fun _ => 0) (getPort s.chip port).owed r = 0) →
      ∃ t, exec (.egressLateDiscard port queue) s = .next t ∧ (getPort t.chip port).frames = (getPort s.chip port).frames.erase f ∧
        fget t.chip (aFH port 8) 63 48 = 0x8022 ∧ countedOne s t (aFH port 16) 31 0 ∧
        chipOnly [aFH port 8, aFH port 16] s t (fun c => { c with ports := t.chip.ports }) := by
  intro late
  refine ⟨fun hl => ?_, fun f hl howed => ?_⟩
  · refine onChip_next (c := s.chip) (f := cmdEgressLateDiscard port queue) ?_
    unfold cmdEgressLateDiscard
    rw [if_pos ⟨hp, hq⟩]
    rw [show (getPort s.chip port).frames.find? (fun f => f.queue == queue && decide (f.limit < (nowNs s.chip : Int))) = none from hl]
  · have hexec : exec (.egressLateDiscard port queue) s = .next { s with chip := (
        resumeRings (portCodes (dropFrame s.chip port f) port [0x8022]) port) } :=
      onChip_next (f := cmdEgressLateDiscard port queue) (by
        unfold cmdEgressLateDiscard
        rw [if_pos ⟨hp, hq⟩]
        rw [show (getPort s.chip port).frames.find? (fun f => f.queue == queue && decide (f.limit < (nowNs s.chip : Int))) = some f from hl])
    obtain ⟨hw, hframes, ho, -⟩ := dropFrame_spec [aFH port 8, aFH port 16] s.chip port f
    have hb : (dropFrame s.chip port f).bar = s.chip.bar := rfl
    generalize dropFrame s.chip port f = u at *
    have hcb : onlyBar [aFH port 8, aFH port 16] u (portCodes u port [0x8022]) :=
      onlyBar_mono (by simp) (onlyBar_portCodes u port [0x8022])
    have hcode : fget (portCodes u port [0x8022]) (aFH port 8) 63 48 = 0x8022 :=
      fget_fset_same _ _ _ _ _ (by omega) (by omega)
    have hcount := fget_portCodes u port [0x8022]
    generalize portCodes u port [0x8022] = v at *
    have hport := getPort_of_onlyBar hcb port
    rw [resumeRings_idle (fun r hr => by rw [hport, ho]; exact howed r hr)] at hexec
    refine ⟨_, hexec, (congrArg FhPort.frames hport).trans hframes, hcode, ?_,
      chipOnly_of_within (put := putPorts) (within_trans parts_ports hw (within_bar parts_ports hcb))⟩
    rw [fget_of_bar hb] at hcount
    exact hcount

theorem framesLeave : Clauses.FramesLeave := fun _ _ _ _ data hp hr hq =>
  ⟨ringClause hp hr data, (frameClause hp).1, (frameClause hp).2, lateClause hp hq⟩

-- PTP messages (R494 to R496).

theorem ptpMessagesLeave : Clauses.PtpMessagesLeave := by
  intro s port m hp hcap
  refine ⟨fun h => ?_, fun h2 hu hen hsend hcol => ?_⟩
  · refine onChip_next (c := s.chip) (f := cmdPtpMessageTransmit port m) ?_
    unfold cmdPtpMessageTransmit onPort
    rw [onUnit_next hp]
    rcases h with h | h
    · simp [h]
    · simp [h]
  · obtain ⟨b, hb⟩ : ∃ b, b = chargeBucket (portShape s.chip port 0) (portBucket s.chip port 0) (ptpLen m + (portShape s.chip port 0).ovh) :=
      ⟨_, rfl⟩
    have hexec : exec (.ptpMessageTransmit port m) s = .next { s with chip := (
        ctrAdd (setBucket s.chip port 0 b) 0 160 (ptpLen m)) } :=
      onChip_next (f := cmdPtpMessageTransmit port m) (by
        unfold cmdPtpMessageTransmit onPort
        rw [onUnit_next hp]
        simp only [h2, hu, hen, hsend, ← hb, bne_self_eq_false, Bool.or_false, Bool.not_true, beq_eq_false_iff_ne.2 hcol,
          Bool.false_eq_true, if_false]
        rw [captureFrame_off hcap]
        rfl)
    have hport : getPort (ctrAdd (setBucket s.chip port 0 b) 0 160 (ptpLen m)) port =
        { getPort s.chip port with shapers := tset (fun _ => {}) 0 b (getPort s.chip port).shapers } := by
      change getPort (setBucket s.chip port 0 b) port = _
      rw [setBucket, getPort_modPort, if_pos rfl]
    refine ⟨_, hexec, ?_, tget_tset_same (fun _ => 0) _ _ _, ⟨rfl, fun _ _ => rfl⟩, hport ▸ rfl⟩
    rw [portBucket, hport, hb]
    exact tget_tset_same (fun _ => ({} : Bucket)) _ _ _

/-- Settles O42: egress rings, frames, late discards and PTP messages. -/
theorem framesGoOut : Obligations.FramesGoOut := ⟨framesLeave, ptpMessagesLeave⟩

end Sys2Proof.Proofs
end

section
/-! SUbs ++ leBytes 1 maskORT. Attestation and the host link (O57). -/

namespace Sys2Proof.Proofs

open Sys2Proof.Machine

-- Messages (R614).

theorem drop_leBytes_append (n x : Nat) (rest : List Byte) : (leBytes n x ++ rest).drop n = rest := by
  rw [List.drop_append_of_le_length (by simp), List.drop_of_length_le (by simp), List.nil_append]

theorem bNat_drop (l : List Byte) (o n : Nat) : bNat l o n = bNat (l.drop o) 0 n := by
  unfold bNat
  rw [List.drop_zero]

/-- A message's fields as a reader finds them. -/
theorem attestMsg_fields (code status : Nat) (p : List Byte) :
    bNat (attestMsg code status p) 0 1 = code % 256 ∧ bNat (attestMsg code status p) 1 1 = 0x10 ∧
      bNat (attestMsg code status p) 4 4 = p.length % 2 ^ 32 ∧ (attestMsg code status p).drop 8 = p := by
  have h1 : (attestMsg code status p).drop 1 = leBytes 1 0x10 ++ (leBytes 2 status ++ (leBytes 4 p.length ++ p)) := by
    simp only [attestMsg, List.append_assoc]
    exact drop_leBytes_append ..
  have h4 : (attestMsg code status p).drop 4 = leBytes 4 p.length ++ p := by
    rw [show (4 : Nat) = 1 + (1 + 2) from rfl, ← List.drop_drop, h1, ← List.drop_drop, drop_leBytes_append, drop_leBytes_append]
  refine ⟨?_, ?_, ?_, ?_⟩
  · simp only [attestMsg, List.append_assoc]
    exact bNat_first _
  · rw [bNat_drop, h1]
    exact bNat_first _
  · rw [bNat_drop, h4]
    exact bNat_first _
  · rw [show (8 : Nat) = 4 + 4 from rfl, ← List.drop_drop, h4, drop_leBytes_append]

theorem requestLen_le {code n : Nat} (h : requestLen code = some n) : n ≤ 8185 := by
  unfold requestLen at h
  split at h <;> simp at h <;> omega

/-- A request of a known code and the length that it has is served by its code. -/
theorem serve_known {s : Chip} {m : Bool} {code n : Nat} {p : List Byte} (hc : code < 256) (hn : requestLen code = some n)
    (hp : (if n = 8185 then p.length ≤ 8184 else p.length = n)) :
    serve s m (attestMsg code 0 p) =
      if code = 0x04 ∧ bNat p 0 1 ≠ 6 ∧ bNat p 0 1 ≠ 7 then attestRefuse s m code 0x6010
      else if code = 0x01 then attestGive s m code [0x10#8]
      else if code = 0x02 then attestGive s m code (identityPayload s)
      else if code = 0x03 then giveAnswer s m (quote s (p.take 32) (bNat p 32 1))
      else if code = 0x04 then attestGive (extendM s (bNat p 0 1) (p.drop 1)) m code []
      else if code = 0x10 then sessionStart s m (attestMsg code 0 p)
      else if code = 0x11 then sessionFinish s m (attestMsg code 0 p) p
      else match s.boot.sessionKey with
        | none => attestRefuse s m code 0x6012
        | some key => if code = 0x12 then keyProg s m key p else keyTurn s m code p := by
  obtain ⟨hcode, hversion, hlen, hrest⟩ := attestMsg_fields code 0 p
  have hn' := requestLen_le hn
  have hp32 : p.length % 2 ^ 32 = p.length := Nat.mod_eq_of_lt (by split at hp <;> omega)
  rw [Nat.mod_eq_of_lt hc] at hcode
  rw [hp32] at hlen
  have hfits : (if n == 8185 then decide (8184 < p.length) else p.length != n) = false := by
    by_cases h : n = 8185 <;> simp [h] at hp ⊢ <;> omega
  unfold serve
  simp only [hcode, hversion, hlen, hrest, hn, hfits, bne_self_eq_false, Bool.false_eq_true, if_false, Bool.false_or]
  simp only [beq_iff_eq, Bool.and_eq_true, bne_iff_ne, ne_eq, and_assoc] <;> rfl

-- The hash and the measurement registers (R611).

theorem leBytes_leNat (l : List Byte) : leBytes l.length (leNat l) = l := by
  induction l with
  | nil => rfl
  | cons b r ih =>
    have hb := b.isLt
    simp only [List.length_cons, leBytes, leNat]
    rw [show (b.toNat + 256 * leNat r) / 256 = leNat r by omega, ih]
    congr 1
    apply BitVec.eq_of_toNat_eq
    simp only [BitVec.toNat_ofNat]
    omega

theorem keccak_length {a : List Word} (h : a.length = 25) : (keccak a).length = 25 := by
  have hfold : ∀ (l : List Nat) (b : List Word), b.length = 25 → (l.foldl (fun b rc => shaChi rc (shaRhoPi (shaTheta b))) b).length = 25 := by
    intro l
    induction l with
    | nil => exact fun _ hb => hb
    | cons rc l ih => exact fun b _ => ih _ (by simp [shaChi])
  exact hfold _ _ h

theorem shaAbsorb_length {a : List Word} (h : a.length = 25) (n : Nat) (m : List Byte) : (shaAbsorb n a m).length = 25 := by
  induction n generalizing a m with
  | zero => exact h
  | succ n ih => exact ih (keccak_length (by simp)) _

theorem sha3_length (m : List Byte) : (sha3 m).length = 32 := by
  have h := shaAbsorb_length (a := List.replicate 25 0#64) (by simp) ((shaPad m).length / 136) (shaPad m)
  simp only [sha3, List.length_flatMap]
  generalize shaAbsorb _ _ _ = l at *
  match l, h with
  | a :: b :: c :: d :: r, _ => simp

theorem measureBytes_extendM (s : Chip) (i k : Nat) (d : List Byte) :
    measureBytes (extendM s i d) k = if k = i then sha3 (measureBytes s i ++ d) else measureBytes s k := by
  have hlen := sha3_length (measureBytes s i ++ d)
  obtain ⟨h, hh⟩ : ∃ h, h = sha3 (measureBytes s i ++ d) := ⟨_, rfl⟩
  have hword : ∀ j, j < 4 → leBytes 8 (leNat ((h.drop (8 * j)).take 8) % 2 ^ 64) = (h.drop (8 * j)).take 8 := fun j hj => by
    have hl : ((h.drop (8 * j)).take 8).length = 8 := by simp [hh, hlen]; omega
    have hlt := leNat_lt ((h.drop (8 * j)).take 8)
    rw [hl] at hlt
    have := leBytes_leNat ((h.drop (8 * j)).take 8)
    rwa [hl, ← Nat.mod_eq_of_lt hlt] at this
  have hget : ∀ j, j < 4 → barGet (extendM s i d) (aMEASURE k j) =
      if k = i then leNat ((h.drop (8 * j)).take 8) % 2 ^ 64 else barGet s (aMEASURE k j) := fun j hj => by
    have hkeys : ∀ j', j' < 4 → (aMEASURE k j = aMEASURE i j' ↔ k = i ∧ j = j') := fun j' hj' => by unfold aMEASURE; omega
    unfold extendM
    rw [← hh]
    simp only [forEach, List.range_succ, List.range_zero, List.nil_append, List.cons_append, List.foldl_cons, List.foldl_nil,
      barGet_barSet, hkeys 0 (by omega), hkeys 1 (by omega), hkeys 2 (by omega), hkeys 3 (by omega)]
    by_cases hki : k = i
    · interval_cases j <;> simp [hki]
    · simp [hki]
  have hall : h.drop 24 = (h.drop 24).take 8 := (List.take_of_length_le (by simp [hh, hlen])).symm
  rw [← hh]
  unfold measureBytes
  simp only [List.range_succ, List.range_zero, List.nil_append, List.cons_append, List.flatMap_cons, List.flatMap_nil, List.append_nil]
  rw [hget 0 (by omega), hget 1 (by omega), hget 2 (by omega), hget 3 (by omega)]
  by_cases hki : k = i
  · simp only [hki, if_true]
    rw [hword 0 (by omega), hword 1 (by omega), hword 2 (by omega), hword 3 (by omega)]
    simp only [Nat.mul_zero, Nat.mul_one, Nat.reduceMul, List.drop_zero]
    rw [← hall, show h.drop 24 = (h.drop 16).drop 8 by simp, List.take_append_drop, show h.drop 16 = (h.drop 8).drop 8 by simp,
      List.take_append_drop, List.take_append_drop]
  · simp only [hki, if_false]

-- Requests and their answers (R614, R616).

@[simp] theorem answer1_giveAnswer (s : State) (c : Chip) (m : Bool) (x : List Byte) : answer1 { s with chip := giveAnswer c m x } m = x := by
  cases m <;> rfl

theorem attest_serves {s : Chip} (ha : alive s = true) (hs : stageNow s ≠ 0) {m : Bool} {code : Nat} {p : List Byte}
    {c : Chip} (h : serve s m (attestMsg code 0 p) = c) : attest s m code p = .next c := by
  unfold attest
  simp [ha, hs, h]

theorem refusedWith_attestRefuse (s : State) (m : Bool) (code : Nat) {status : Nat} (h : status < 2 ^ 16) :
    refusedWith s { s with chip := attestRefuse s.chip m code status } m code status := by
  have hcode : fget (secCode s.chip status) aSEC_STATUS 63 48 = status :=
    (fget_fset_same s.chip aSEC_STATUS 63 48 status (by omega) (by omega)).trans (Nat.mod_eq_of_lt h)
  have hb : onlyBar [aSEC_STATUS] s.chip (secCode s.chip status) := onlyBar_fset _ _ _ _ (by simp)
  unfold attestRefuse
  generalize secCode s.chip status = u at *
  obtain ⟨b, rfl⟩ : ∃ b, u = { s.chip with bar := b } := ⟨_, hb.1⟩
  refine ⟨answer1_giveAnswer .., hcode, ?_, hb.2⟩
  cases m <;> rfl

section
variable {s : State} {m : Bool} {bs : List (BitVec 8)} (ha : alive s.chip = true) (hs : stageNow s.chip ≠ 0)
include ha hs

theorem versionClause : ∃ t, exec (.getVersion m) s = .next t ∧ answered s t m (attestMsg 0x81 0 [0x10#8]) :=
  ⟨_, onChip_next (f := cmdGetVersion m) (attest_serves ha hs
    (serve_known (n := 0) (by omega) rfl rfl)), rfl⟩

theorem identityClause : ∃ t, exec (.getIdentity m) s = .next t ∧ answered s t m (attestMsg 0x82 0 (identityPayload s.chip)) :=
  ⟨_, onChip_next (f := cmdGetIdentity m) (attest_serves ha hs
    (serve_known (n := 0) (by omega) rfl rfl)), rfl⟩

theorem measurementsClause {mask : Nat} (hmask : mask < 256) (hb : bs.length = 32) :
    ∃ t, exec (.getMeasurements m bs mask) s = .next t ∧ answered s t m (quote s.chip bs mask) := by
  have hp : (bs ++ leBytes 1 mask).length = 33 := by simp [hb]
  have hmaskAt : bNat (bs ++ leBytes 1 mask) 32 1 = mask := by
    rw [bNat_drop, List.drop_append_of_le_length (by omega), List.drop_of_length_le (by omega), List.nil_append]
    have := bNat_first (n := 1) (x := mask) []
    rw [List.append_nil] at this
    rw [this]
    exact Nat.mod_eq_of_lt hmask
  have htake : (bs ++ leBytes 1 mask).take 32 = bs := by
    rw [List.take_append_of_le_length (by omega), List.take_of_length_le (by omega)]
  have hserve := serve_known (s := s.chip) (m := m) (code := 3) (n := 33) (p := bs ++ leBytes 1 mask) (by omega) rfl (by rw [if_neg (by omega)]; exact hp)
  rw [htake, hmaskAt] at hserve
  exact ⟨_, onChip_next (f := cmdGetMeasurements m bs mask) (attest_serves ha hs hserve), rfl⟩

theorem extendClause {register : Nat} (hb : bs.length = 32) :
    ((register = 6 ∨ register = 7) → ∃ t, exec (.extend m register bs) s = .next t ∧
        answer1 t m = attestMsg 0x84 0 [] ∧ measureBytes t.chip register = sha3 (measureBytes s.chip register ++ bs) ∧
        ∀ k, k < 8 → k ≠ register → measureBytes t.chip k = measureBytes s.chip k) ∧
    (register < 256 → register ≠ 6 → register ≠ 7 → ∃ t, exec (.extend m register bs) s = .next t ∧
        refusedWith s t m 0x04 0x6010) := by
  have hp : (leBytes 1 register ++ bs).length = 33 := by simp [hb]
  have hserve := serve_known (s := s.chip) (m := m) (code := 4) (n := 33) (p := leBytes 1 register ++ bs) (by omega) rfl (by rw [if_neg (by omega)]; exact hp)
  have hreg := bNat_first (n := 1) (x := register) bs
  rw [drop_leBytes_append, hreg] at hserve
  refine ⟨fun hr => ?_, fun hlt h6 h7 => ?_⟩
  · have hmod : register % 2 ^ (8 * 1) = register := Nat.mod_eq_of_lt (by omega)
    rw [hmod, if_neg (by omega)] at hserve
    have hm := fun k => measureBytes_extendM s.chip register k bs
    have hgive : serve s.chip m (attestMsg 4 0 (leBytes 1 register ++ bs)) =
        giveAnswer (extendM s.chip register bs) m (attestMsg 0x84 0 []) := hserve
    clear hserve
    generalize extendM s.chip register bs = u at hm hgive
    refine ⟨_, onChip_next (f := cmdExtend m register bs) (attest_serves ha hs hgive),
      answer1_giveAnswer .., (hm register).trans (if_pos rfl), fun k _ hk => (hm k).trans (if_neg hk)⟩
  · have hmod : register % 2 ^ (8 * 1) = register := Nat.mod_eq_of_lt hlt
    rw [hmod, if_pos ⟨rfl, h6, h7⟩] at hserve
    exact ⟨_, onChip_next (f := cmdExtend m register bs) (attest_serves ha hs hserve),
      refusedWith_attestRefuse _ _ _ (by omega)⟩

theorem sessionStartClause :
    (s.chip.boot.hearth = none → ∃ t, exec (.sessionStart m) s = .next t ∧ refusedWith s t m 0x10 0x6015) ∧
    (s.chip.boot.hearth ≠ none → ∃ t msgs, exec (.sessionStart m) s = .next t ∧ t.chip.boot.session = some msgs ∧
        t.chip.boot.sessionKey = none ∧ msgs = attestMsg 0x10 0 [] ++ answer1 t m ∧ t.chip.bar = s.chip.bar) := by
  have hserve : serve s.chip m (attestMsg 0x10 0 []) = sessionStart s.chip m (attestMsg 0x10 0 []) :=
    serve_known (n := 0) (by omega) rfl rfl
  refine ⟨fun h => ?_, fun h => ?_⟩
  · rw [sessionStart, if_pos (by simp [hasAlias, h])] at hserve
    exact ⟨_, onChip_next (f := cmdSessionStart m) (attest_serves ha hs hserve),
      refusedWith_attestRefuse _ _ _ (by omega)⟩
  · rw [sessionStart, if_neg (by simpa [hasAlias, Option.isSome_iff_ne_none] using h)] at hserve
    obtain ⟨ek, hek⟩ : ∃ ek, ek = crypto 4 1184 (leBytes 8 (Config.freeNat s.chip.freeCtr)) := ⟨_, rfl⟩
    simp only [← hek] at hserve
    obtain ⟨msg, hm⟩ : ∃ msg, msg = attestMsg 0x90 0 (ek ++ signed32 s.chip ek) := ⟨_, rfl⟩
    rw [← hm] at hserve
    refine ⟨_, _, onChip_next (f := cmdSessionStart m) (attest_serves ha hs hserve), ?_, ?_,
      congrArg (attestMsg 0x10 0 [] ++ ·) (answer1_giveAnswer ..).symm, rfl⟩
    · cases m <;> rfl
    · cases m <;> rfl

theorem sessionFinishClause (hb : bs.length = 1088) (hsession : s.chip.boot.session ≠ none) (hkey : s.chip.boot.sessionKey = none) :
    ∃ t key, exec (.sessionFinish m bs) s = .next t ∧ t.chip.boot.sessionKey = some key ∧ answer1 t m = attestMsg 0x91 0 [] := by
  obtain ⟨msgs, hmsgs⟩ := Option.ne_none_iff_exists'.1 hsession
  have hserve : serve s.chip m (attestMsg 0x11 0 bs) = sessionFinish s.chip m (attestMsg 0x11 0 bs) bs :=
    serve_known (n := 1088) (by omega) rfl (by simpa using hb)
  simp only [sessionFinish, hmsgs, hkey] at hserve
  generalize sha3 _ = key at hserve
  refine ⟨_, key, onChip_next (f := cmdSessionFinish m bs) (attest_serves ha hs hserve),
    ?_, answer1_giveAnswer ..⟩
  cases m <;> rfl

theorem noSessionClause {stream dir set : Nat} (hkey : s.chip.boot.sessionKey = none) (hb : bs.length ≤ 8184) :
    (∃ t, exec (.keyProg m bs) s = .next t ∧ refusedWith s t m 0x12 0x6012) ∧
    (∃ t, exec (.keyGo m stream dir set) s = .next t ∧ refusedWith s t m 0x13 0x6012) ∧
    ∃ t, exec (.keyStop m stream dir set) s = .next t ∧ refusedWith s t m 0x14 0x6012 := by
  have hprog := serve_known (s := s.chip) (m := m) (code := 0x12) (n := 8185) (p := bs) (by omega) rfl (by rw [if_pos rfl]; exact hb)
  have hturn : ∀ code, code = 0x13 ∨ code = 0x14 → serve s.chip m (attestMsg code 0 (leBytes 1 stream ++ leBytes 1 dir ++ leBytes 1 set)) =
      attestRefuse s.chip m code 0x6012 := fun code hc => by
    have h := serve_known (s := s.chip) (m := m) (code := code) (n := 3) (p := leBytes 1 stream ++ leBytes 1 dir ++ leBytes 1 set)
      (by omega) (by rcases hc with rfl | rfl <;> rfl) rfl
    simp only [hkey] at h
    rw [h]
    rcases hc with rfl | rfl <;> simp
  simp only [hkey] at hprog
  exact ⟨⟨_, onChip_next (f := cmdKeyProg m bs) (attest_serves ha hs hprog), refusedWith_attestRefuse _ _ _ (by omega)⟩,
    ⟨_, onChip_next (f := cmdKeyGo m stream dir set) (attest_serves ha hs (hturn _ (.inl rfl))), refusedWith_attestRefuse _ _ _ (by omega)⟩,
    ⟨_, onChip_next (f := cmdKeyStop m stream dir set) (attest_serves ha hs (hturn _ (.inr rfl))), refusedWith_attestRefuse _ _ _ (by omega)⟩⟩

theorem keyProgClause {key : List Byte} (hkey : s.chip.boot.sessionKey = some key) (p : List Byte) (hp : p = crypto 6 43 (key ++ bs))
    (hb : bs.length ≤ 8184) (hsig : Config.sigOk 1 (key ++ bs) = true) (hok : ideOk (bNat p 0 1) (bNat p 1 1) (bNat p 2 1) = true) :
    ∃ t, exec (.keyProg m bs) s = .next t ∧ answer1 t m = attestMsg 0x92 0 [] ∧ t.chip.bar = s.chip.bar ∧
      tget (fun _ => []) t.chip.boot.ideKeys (ideKey (bNat p 0 1) (bNat p 1 1) (bNat p 2 1)) = p.drop 3 := by
  have hserve := serve_known (s := s.chip) (m := m) (code := 0x12) (n := 8185) (p := bs) (by omega) rfl (by rw [if_pos rfl]; exact hb)
  simp only [hkey] at hserve
  have hgive : serve s.chip m (attestMsg 0x12 0 bs) = keyProg s.chip m key bs := hserve
  rw [keyProg, ← hp, if_neg (by simp [hsig, hok])] at hgive
  refine ⟨_, onChip_next (f := cmdKeyProg m bs) (attest_serves ha hs hgive), answer1_giveAnswer .., rfl, ?_⟩
  have hset := tget_tset_same (fun _ : Nat => ([] : List Byte)) (ideKey (bNat p 0 1) (bNat p 1 1) (bNat p 2 1)) (p.drop 3) s.chip.boot.ideKeys
  cases m <;> exact hset

omit ha hs in
/-- KEY_GO and KEY_STOP find the key slot that they name. -/
theorem serve_keyTurn {key : List Byte} (hkey : s.chip.boot.sessionKey = some key) {stream dir set : Nat} (h1 : stream < 2) (h2 : dir < 2)
    (h3 : set < 2) {code : Nat} (hc : code = 0x13 ∨ code = 0x14) :
    serve s.chip m (attestMsg code 0 (leBytes 1 stream ++ leBytes 1 dir ++ leBytes 1 set)) =
      if code = 0x13 ∧ tget (fun _ => []) s.chip.boot.ideKeys (ideKey stream dir set) = [] then attestRefuse s.chip m code 0x6013
      else if code = 0x13 then attestGive (keyGo s.chip stream dir set) m code []
      else attestGive (bootMod s.chip (fun b => { b with ideGo := tmark b.ideGo (ideKey stream dir set) false })) m code [] := by
  have h := serve_known (s := s.chip) (m := m) (code := code) (n := 3) (p := leBytes 1 stream ++ leBytes 1 dir ++ leBytes 1 set)
    (by omega) (by rcases hc with rfl | rfl <;> rfl) rfl
  have hf1 : bNat (leBytes 1 stream ++ leBytes 1 dir ++ leBytes 1 set) 0 1 = stream := by
    interval_cases stream <;> interval_cases dir <;> interval_cases set <;> rfl
  have hf2 : bNat (leBytes 1 stream ++ leBytes 1 dir ++ leBytes 1 set) 1 1 = dir := by
    interval_cases stream <;> interval_cases dir <;> interval_cases set <;> rfl
  have hf3 : bNat (leBytes 1 stream ++ leBytes 1 dir ++ leBytes 1 set) 2 1 = set := by
    interval_cases stream <;> interval_cases dir <;> interval_cases set <;> rfl
  have hok : ideOk stream dir set = true := by simp [ideOk, h1, h2, h3]
  have hkeyTurn : serve s.chip m (attestMsg code 0 (leBytes 1 stream ++ leBytes 1 dir ++ leBytes 1 set)) =
      keyTurn s.chip m code (leBytes 1 stream ++ leBytes 1 dir ++ leBytes 1 set) := by
    rw [h]
    simp only [hkey]
    rcases hc with rfl | rfl <;> simp
  rw [hkeyTurn, keyTurn, hf1, hf2, hf3]
  simp only [hok, Bool.not_true, Bool.false_or, Bool.and_eq_true, beq_iff_eq, List.isEmpty_iff]

theorem keyTurnClause {key : List Byte} (hkey : s.chip.boot.sessionKey = some key) {stream dir set : Nat} (h1 : stream < 2) (h2 : dir < 2)
    (h3 : set < 2) :
    (tget (fun _ => []) s.chip.boot.ideKeys (ideKey stream dir set) ≠ [] → ∃ t, exec (.keyGo m stream dir set) s = .next t ∧
      answer1 t m = attestMsg 0x93 0 [] ∧ tmem t.chip.boot.ideGo (ideKey stream dir set) = true) ∧
    ∃ t, exec (.keyStop m stream dir set) s = .next t ∧ answer1 t m = attestMsg 0x94 0 [] ∧
      tmem t.chip.boot.ideGo (ideKey stream dir set) = false := by
  have hgo := serve_keyTurn (m := m) hkey h1 h2 h3 (.inl rfl)
  have hstop := serve_keyTurn (m := m) hkey h1 h2 h3 (.inr rfl)
  have hmark : ∀ b, tmem (tmark s.chip.boot.ideGo (ideKey stream dir set) b) (ideKey stream dir set) = b := fun b => by simp
  refine ⟨fun hne => ?_, ?_⟩
  · rw [if_neg (fun h => hne h.2), if_pos rfl] at hgo
    refine ⟨_, onChip_next (f := cmdKeyGo m stream dir set) (attest_serves ha hs hgo), answer1_giveAnswer .., ?_⟩
    have := hmark true
    cases m <;> exact this
  · rw [if_neg (fun h => absurd h.1 (by omega)), if_neg (by omega)] at hstop
    refine ⟨_, onChip_next (f := cmdKeyStop m stream dir set) (attest_serves ha hs hstop), answer1_giveAnswer .., ?_⟩
    have := hmark false
    cases m <;> exact this

end

theorem attestationAnswers : Clauses.AttestationAnswers := by
  intro s m mask register stream dir set bs ha
  refine ⟨fun h0 => ?_, fun hs hmask => ⟨versionClause ha hs, identityClause ha hs, measurementsClause ha hs hmask,
    fun hb => (extendClause ha hs hb).1, fun hb => (extendClause ha hs hb).2, (sessionStartClause ha hs).1, (sessionStartClause ha hs).2,
    sessionFinishClause ha hs, fun hkey _ _ _ hb => noSessionClause ha hs hkey hb, fun key hkey h1 h2 h3 =>
      ⟨fun p hp hb hsig hok => keyProgClause ha hs hkey p hp hb hsig hok, keyTurnClause ha hs hkey h1 h2 h3⟩⟩⟩
  exact ⟨_, onChip_next (f := cmdGetVersion m) (by simp [cmdGetVersion, attest, ha, h0]; rfl), rfl⟩

theorem fget_fsetb (s : Chip) (k i hi lo : Nat) (b : Bool) (h : lo ≤ hi) (h64 : i < 64) (hd : i < lo ∨ hi < i) :
    fget (fsetb s k i b) k hi lo = fget s k hi lo :=
  fget_fset_field _ _ _ _ _ _ _ (Nat.le_refl i) h64 h (by omega)

theorem tget_tclear {α : Type} (d : Nat → α) {lo hi k : Nat} (t : Tab α) (hlo : lo ≤ k) (hhi : k < hi) : tget d (tclear lo hi t) k = d k := by
  induction t with
  | nil => rfl
  | cons p r ih =>
    by_cases hp : p.1 < lo ∨ hi ≤ p.1
    · rw [show tclear lo hi (p :: r) = p :: tclear lo hi r from List.filter_cons_of_pos (by simpa using hp), tget, if_neg (by omega), ih]
    · rw [show tclear lo hi (p :: r) = tclear lo hi r from List.filter_cons_of_neg (by simpa using hp), ih]

-- The host link (R617, R618, R620, R621, R626, R628).

theorem biasFlipClause {s : State} {data : Word} (h0 : bitOf data.toNat 0 = true) (h63 : fbit s.chip aHOST_BIAS 63 = false) :
    ∃ t, exec (.biasFlip data) s = .next t ∧ fbit t.chip aHOST_BIAS 63 = true ∧
      fget t.chip aHOST_BIAS 47 21 = bitsOf data.toNat 47 21 ∧
      chipOnly [aHOST_BIAS] s t (fun c => { c with mem := { c.mem with flip := some (bitsOf data.toNat 47 21, bitOf data.toNat 1) } }) := by
  have hmem := List.mem_singleton_self aHOST_BIAS
  obtain ⟨u, hu⟩ : ∃ u, u = fset s.chip aHOST_BIAS 47 21 (bitsOf data.toNat 47 21) := ⟨_, rfl⟩
  have hub : onlyBar [aHOST_BIAS] s.chip u := hu ▸ onlyBar_fset _ _ _ _ hmem
  have hpage : fget u aHOST_BIAS 47 21 = bitsOf data.toNat 47 21 := by
    rw [hu, fget_fset_same _ _ _ _ _ (by omega) (by omega)]
    exact Nat.mod_eq_of_lt (bitsOf_lt ..)
  obtain ⟨w, hw⟩ : ∃ w, w = fsetb u aHOST_BIAS 1 (bitOf data.toNat 1) := ⟨_, rfl⟩
  have hwb : onlyBar [aHOST_BIAS] s.chip w := hw ▸ onlyBar_trans hub (onlyBar_fsetb _ _ _ hmem)
  have hwpage : fget w aHOST_BIAS 47 21 = bitsOf data.toNat 47 21 := by
    rw [hw, fget_fsetb _ _ _ _ _ _ (by omega) (by omega) (by omega), hpage]
  obtain ⟨v, hv⟩ : ∃ v, v = fsetb w aHOST_BIAS 63 true := ⟨_, rfl⟩
  have hvb : onlyBar [aHOST_BIAS] s.chip v := hv ▸ onlyBar_trans hwb (onlyBar_fsetb _ _ _ hmem)
  have hbusy : fbit v aHOST_BIAS 63 = true := hv ▸ fbit_fsetb_same _ _ _ _ (by omega)
  have hvpage : fget v aHOST_BIAS 47 21 = bitsOf data.toNat 47 21 := by
    rw [hv, fget_fsetb _ _ _ _ _ _ (by omega) (by omega) (by omega), hwpage]
  have hexec : exec (.biasFlip data) s = .next { s with chip := (
      { v with mem := { w.mem with flip := some (bitsOf data.toNat 47 21, bitOf data.toNat 1) } }) } :=
    onChip_next (f := cmdBiasFlip data) (by
      unfold cmdBiasFlip biasWrite
      simp only [h0, h63, Bool.not_false, Bool.and_self, if_true]
      rw [← hu, ← hw, ← hv])
  rw [mem_of_onlyBar hwb] at hexec
  clear hv
  obtain ⟨b, rfl⟩ : ∃ b, v = { s.chip with bar := b } := ⟨_, hvb.1⟩
  exact ⟨_, hexec, hbusy, hvpage, rfl, hvb.2⟩

theorem biasFlipEndsClause {s : State} : (s.chip.mem.flip = none → exec .biasFlipComplete s = .next s) ∧
    (∀ page dev, s.chip.mem.flip = some (page, dev) → (dev = false ∨ tmem s.chip.boot.insecure 1 = false) → ∃ t,
      exec .biasFlipComplete s = .next t ∧ fbit t.chip aHOST_BIAS 63 = false ∧ tmem t.chip.mem.bias page = dev ∧ t.chip.mem.flip = none ∧
      (∀ k, k ≠ page → tmem t.chip.mem.bias k = tmem s.chip.mem.bias k) ∧ t.chip.mem.dram = s.chip.mem.dram) := by
  refine ⟨fun h => onChip_next (c := s.chip) (f := cmdBiasFlipComplete) (by simp [cmdBiasFlipComplete, h]), fun page dev h hd => ?_⟩
  obtain ⟨v, hv⟩ : ∃ v, v = ({ s.chip with mem := { s.chip.mem with flip := none, bias := tmark s.chip.mem.bias page dev } } : Chip) := ⟨_, rfl⟩
  have hexec : exec .biasFlipComplete s = .next { s with chip := fsetb v aHOST_BIAS 63 false } :=
    onChip_next (f := cmdBiasFlipComplete) (by
      have hno : (dev && tmem s.chip.boot.insecure 1) = false := by rcases hd with hd | hd <;> simp [hd]
      simp [cmdBiasFlipComplete, h, hno, hv])
  have hmem : (fsetb v aHOST_BIAS 63 false).mem = v.mem := mem_of_onlyBar (onlyBar_fsetb (ks := [aHOST_BIAS]) v 63 false (by simp))
  have hbit : fbit (fsetb v aHOST_BIAS 63 false) aHOST_BIAS 63 = false := fbit_fsetb_same _ _ _ _ (by omega)
  generalize fsetb v aHOST_BIAS 63 false = u at *
  refine ⟨_, hexec, hbit, ?_, ?_, fun k hk => ?_, ?_⟩ <;> simp only [hmem, hv]
  · exact tmem_tmark_same ..
  · rw [tmem_tmark, if_neg hk]

theorem secCodeOut (s : State) (f : Chip → Out) {code : Nat} (hc : code < 2 ^ 16) (h : f s.chip = .next (secCode s.chip code)) :
    ∃ t, onChip s f = .next t ∧ regsOnly [aSEC_STATUS] s t ∧ fget t.chip aSEC_STATUS 63 48 = code := by
  refine ⟨_, onChip_next h, regsOnly_of_onlyBar (onlyBar_fset _ _ _ _ (by simp)), ?_⟩
  exact (fget_fset_same s.chip aSEC_STATUS 63 48 code (by omega) (by omega)).trans (Nat.mod_eq_of_lt hc)

theorem integrityClause {s : State} {stream : Nat} (hstream : stream < 2) :
    ∃ t, exec (.ideIntegrityFailure stream) s = .next t ∧ tmem t.chip.boot.insecure stream = true ∧
      fget t.chip aSEC_STATUS 63 48 = 0x6014 ∧ chipOnly [aSEC_STATUS] s t (fun c => { c with boot := t.chip.boot }) ∧
      ∀ k, k < 4 → tget (fun _ => []) t.chip.boot.ideKeys (4 * stream + k) = [] := by
  obtain ⟨b, hb⟩ : ∃ b, b = ({ s.chip.boot with
      insecure := tmark s.chip.boot.insecure stream true
      ideKeys := tclear (4 * stream) (4 * stream + 4) s.chip.boot.ideKeys
      ideGo := tclear (4 * stream) (4 * stream + 4) s.chip.boot.ideGo } : Boot) := ⟨_, rfl⟩
  have hexec : exec (.ideIntegrityFailure stream) s = .next { s with chip := secCode { s.chip with boot := b } 0x6014 } :=
    onChip_next (f := cmdIdeIntegrityFailure stream) (by
      unfold cmdIdeIntegrityFailure
      rw [onUnit_next hstream, hb]
      rfl)
  have hbar : onlyBar [aSEC_STATUS] { s.chip with boot := b } (secCode { s.chip with boot := b } 0x6014) :=
    onlyBar_fset _ _ _ _ (by simp)
  have hcode : fget (secCode { s.chip with boot := b } 0x6014) aSEC_STATUS 63 48 = 0x6014 :=
    fget_fset_same _ aSEC_STATUS 63 48 _ (by omega) (by omega)
  generalize secCode { s.chip with boot := b } 0x6014 = u at *
  obtain ⟨c, rfl⟩ : ∃ c, u = { s.chip with boot := b, bar := c } := ⟨_, hbar.1⟩
  refine ⟨_, hexec, ?_, hcode, ⟨rfl, hbar.2⟩, fun k hk => ?_⟩
  · change tmem b.insecure stream = true
    simp [hb]
  · change tget (fun _ => []) b.ideKeys _ = []
    rw [hb]
    exact tget_tclear _ _ (by omega) (by omega)

theorem hostLinkChanges : Clauses.HostLinkChanges := by
  intro s data stream addr eid code lanes rate hstream v bootIs
  refine ⟨biasFlipClause, biasFlipEndsClause.1, biasFlipEndsClause.2, integrityClause hstream, fun ha => ⟨?_, ?_, ?_, ?_, ?_, ?_, ?_, ?_⟩⟩
  · exact ⟨_, onChip_next (f := cmdEntdaa addr) (by simp only [cmdEntdaa, when, ha, if_true]; rfl), rfl⟩
  · exact ⟨_, onChip_next (f := cmdSetEndpointId eid) (by simp only [cmdSetEndpointId, when, ha, if_true]; rfl), rfl⟩
  · exact ⟨_, onChip_next (f := cmdMctpControl true code) (by simp only [cmdMctpControl, when, ha, if_true]; rfl), rfl⟩
  · exact secCodeOut s (cmdMctpControl false code) (by omega) (by simp [cmdMctpControl, when, ha])
  · exact secCodeOut s (cmdPldmRequest false code) (by omega) (by simp [cmdPldmRequest, when, ha])
  · exact fun h3 => ⟨_, onChip_next (f := cmdPldmRequest true code) (by simp [cmdPldmRequest, when, ha, h3]; rfl), rfl⟩
  · exact fun h3 x hx => ⟨_, onChip_next (f := cmdPldmRequest true code) (by simp [cmdPldmRequest, when, ha, Nat.not_lt.2 h3, hx]; rfl), rfl⟩
  · intro hperst
    refine ⟨⟨_, onChip_next (f := cmdCxlLinkTrained 16 32) (by
      unfold cmdCxlLinkTrained when
      rw [if_pos (by simp [ha, hperst])]
      rfl), rfl⟩, fun hl hr => ?_⟩
    obtain ⟨u, hu⟩ : ∃ u, u = bootMod s.chip (fun b => { b with lanes := lanes, rate := rate }) := ⟨_, rfl⟩
    refine ⟨{ s with chip := rasIrq u }, onChip_next (f := cmdCxlLinkTrained lanes rate) ?_, ?_⟩
    · rcases hl with rfl | rfl <;> rcases hr with rfl | rfl | rfl <;> simp [cmdCxlLinkTrained, when, ha, hperst, hu]
    · unfold rasIrq raiseIrq
      split <;> rw [hu] <;> exact ⟨rfl, rfl⟩

/-- Settles O57: attestation requests are answered, and the host link's controls act. -/
theorem attestationAndHostLink : Obligations.AttestationAndHostLink := ⟨attestationAnswers, hostLinkChanges⟩

end Sys2Proof.Proofs
end

section
/-! SUPPORT. Resets and boot (O56). -/

namespace Sys2Proof.Proofs

open Sys2Proof.Machine

-- Resets (R599, R600).

theorem onlyBar_forEach_barSet {ks : List Nat} (l : List Nat) (v : Nat → Nat) (s : Chip) (h : ∀ k, k ∈ l → k ∈ ks) :
    onlyBar ks s (forEach l (fun st k => barSet st k (v k)) s) := by
  induction l generalizing s with
  | nil => exact onlyBar_refl _ _
  | cons k l ih =>
    exact onlyBar_trans (onlyBar_barSet s (v k) (h k List.mem_cons_self)) (ih _ fun k' hk' => h k' (List.mem_cons_of_mem _ hk'))

/-- A field that ends in bit 36 and holds the fused bits. -/
theorem fget_fuses (s : Chip) (k : Nat) : fget s k 47 36 = 16 * fget s k 47 40 + fget s k 39 36 := by
  unfold fget
  simp only [bitsOf_eq]
  omega

/-- The registers that fuses set. -/
def fuseKeys : List Nat := [0x0, 0x8, 0x10, 0x18, 0x30, aTHERM_CFG, aSEC_STATUS, aMESH_STATUS]

/-- What fuses keep, without the detours of the mesh. -/
def fuseRegs (old s : Chip) : Chip :=
  fset (fset (forEach [0x0, 0x8, 0x10, 0x18, 0x30, aTHERM_CFG] (fun st k => barSet st k (barGet old k)) s) aSEC_STATUS 47 40
    (fget old aSEC_STATUS 47 40)) aSEC_STATUS 39 36 (fget old aSEC_STATUS 39 36)

theorem fuseRegs_spec (old s : Chip) : onlyBar fuseKeys s (fuseRegs old s) ∧
    fget (fuseRegs old s) aSEC_STATUS 3 0 = fget s aSEC_STATUS 3 0 ∧
    fget (fuseRegs old s) aSEC_STATUS 47 36 = fget old aSEC_STATUS 47 36 := by
  obtain ⟨u, hu⟩ : ∃ u, u = forEach [0x0, 0x8, 0x10, 0x18, 0x30, aTHERM_CFG] (fun st k => barSet st k (barGet old k)) s := ⟨_, rfl⟩
  have hub := onlyBar_forEach_barSet (ks := [0x0, 0x8, 0x10, 0x18, 0x30, aTHERM_CFG]) [0x0, 0x8, 0x10, 0x18, 0x30, aTHERM_CFG]
    (barGet old) s fun k hk => hk
  rw [← hu] at hub
  have hstage : fget u aSEC_STATUS 3 0 = fget s aSEC_STATUS 3 0 := fget_of_onlyBar hub (by decide) 3 0
  have hmem : aSEC_STATUS ∈ fuseKeys := by decide
  unfold fuseRegs
  rw [← hu]
  refine ⟨onlyBar_trans (onlyBar_mono (by decide) hub) (onlyBar_trans (onlyBar_fset _ _ _ _ hmem) (onlyBar_fset _ _ _ _ hmem)), ?_, ?_⟩
  · rw [fget_fset_field _ _ _ _ _ _ _ (by omega) (by omega) (by omega) (by omega),
      fget_fset_field _ _ _ _ _ _ _ (by omega) (by omega) (by omega) (by omega), hstage]
  · rw [fget_fuses, fget_fuses, fget_fset_field _ _ _ _ _ _ _ (by omega) (by omega) (by omega) (by omega),
      fget_fset_same _ _ _ _ _ (by omega) (by omega), fget_fset_same _ _ _ _ _ (by omega) (by omega)]
    have h1 := fget_lt old aSEC_STATUS 47 40
    have h2 := fget_lt old aSEC_STATUS 39 36
    rw [Nat.mod_eq_of_lt h1, Nat.mod_eq_of_lt h2]

theorem fuseBar_spec (old s : Chip) : onlyBar fuseKeys s (fuseBar old s) ∧
    fget (fuseBar old s) aSEC_STATUS 3 0 = fget s aSEC_STATUS 3 0 ∧
    fget (fuseBar old s) aSEC_STATUS 47 36 = fget old aSEC_STATUS 47 36 := by
  obtain ⟨hb, h1, h2⟩ := fuseRegs_spec old s
  have hm : aMESH_STATUS ∈ fuseKeys := by decide
  have hsec : aSEC_STATUS ∉ [aMESH_STATUS] := by decide
  have hc : ∃ u, fuseBar old s = u ∧ onlyBar [aMESH_STATUS] (fuseRegs old s) u := by
    unfold fuseBar
    simp only
    split
    · exact ⟨_, rfl, onlyBar_fset _ _ _ _ (by simp)⟩
    · exact ⟨_, rfl, onlyBar_trans (onlyBar_fset _ _ _ _ (by simp)) (onlyBar_fset _ _ _ _ (by simp))⟩
  obtain ⟨u, hu, hub⟩ := hc
  rw [hu]
  exact ⟨onlyBar_trans hb (onlyBar_mono (by decide) hub), (fget_of_onlyBar hub hsec 3 0).trans h1, (fget_of_onlyBar hub hsec 47 36).trans h2⟩

theorem keepBar_spec (old : Chip) (cold : Bool) (s : Chip) : ∃ b r, keepBar old cold s = { s with bar := b, ras := r } ∧
    fget (keepBar old cold s) aSEC_STATUS 3 0 = fget s aSEC_STATUS 3 0 ∧
    fget (keepBar old cold s) aSEC_STATUS 47 36 = fget old aSEC_STATUS 47 36 := by
  obtain ⟨hb, h1, h2⟩ := fuseBar_spec old s
  obtain ⟨u, hu⟩ : ∃ u, u = barSet (fset (fset (fset (fuseBar old s) aPKG_PINS 63 48 (fget old aPKG_PINS 63 48)) aPKG_PINS 7 4
      (fget old aPKG_PINS 7 4)) aPKG_PINS 0 0 (fget old aPKG_PINS 0 0)) aPWR_DOMAIN
      (if cold then 2 ^ 49 - 2 ^ 36 + enabledGroups old else Nat.lor old.ras.wrote (enabledGroups old)) := ⟨_, rfl⟩
  have hub : onlyBar [aPKG_PINS, aPWR_DOMAIN] (fuseBar old s) u := hu ▸
    onlyBar_trans (onlyBar_trans (onlyBar_trans (onlyBar_fset _ _ _ _ (by simp)) (onlyBar_fset _ _ _ _ (by simp)))
      (onlyBar_fset _ _ _ _ (by simp))) (onlyBar_barSet _ _ (by simp))
  have hsec : aSEC_STATUS ∉ [aPKG_PINS, aPWR_DOMAIN] := by decide
  have hk : ∃ r, keepBar old cold s = { u with ras := r } := ⟨_, by unfold keepBar; rw [hu]; rfl⟩
  obtain ⟨r, hk⟩ := hk
  obtain ⟨b, rfl⟩ : ∃ b, u = { s with bar := b } := ⟨_, hub.1.trans (by rw [hb.1])⟩
  rw [hk]
  exact ⟨b, r, rfl, (fget_of_onlyBar hub hsec 3 0).trans h1, (fget_of_onlyBar hub hsec 47 36).trans h2⟩

/-- The parts of a package that a reset leaves as they are at reset. -/
def freshParts (u : Chip) : Prop :=
  u.tiles = [] ∧ u.strands = [] ∧ u.parts = [] ∧ u.qm = {} ∧ u.fab = {} ∧ u.radio = {} ∧ u.hasp = []

theorem resetPackage_spec (s : Chip) (cold keep : Bool) :
    freshParts (resetPackage s cold keep) ∧ stageNow (resetPackage s cold keep) = 0 ∧
      (resetPackage s cold keep).mem.host = s.mem.host ∧
      fget (resetPackage s cold keep) aSEC_STATUS 47 36 = fget s aSEC_STATUS 47 36 ∧ (resetPackage s cold keep).images = s.images ∧
      (resetPackage s cold keep).boot.pwrgood = s.boot.pwrgood ∧ (resetPackage s cold keep).boot.perst = s.boot.perst ∧
      (resetPackage s cold keep).boot.eid = (if cold then none else s.boot.eid) ∧
      (resetPackage s cold keep).boot.lanes = (if keep then s.boot.lanes else 0) ∧
      (resetPackage s cold keep).boot.rate = (if keep then s.boot.rate else 0) := by
  obtain ⟨z, hz, hbar, hparts, hhost, himages, hboot⟩ : ∃ z : Chip,
      resetPackage s cold keep = rasMod (keepBar s cold z) (fun r => { r with brake := s.ras.brake }) ∧ z.bar = ({} : Chip).bar ∧
      freshParts z ∧ z.mem.host = s.mem.host ∧ z.images = s.images ∧
      (z.boot.pwrgood = s.boot.pwrgood ∧ z.boot.perst = s.boot.perst ∧ z.boot.eid = (if cold then none else s.boot.eid) ∧
        z.boot.lanes = (if keep then s.boot.lanes else 0) ∧ z.boot.rate = (if keep then s.boot.rate else 0)) :=
    ⟨_, rfl, rfl, ⟨rfl, rfl, rfl, rfl, rfl, rfl, rfl⟩, rfl, rfl, rfl, rfl, rfl, rfl, rfl⟩
  obtain ⟨b, r, hk, hstage, hfuse⟩ := keepBar_spec s cold z
  have h0 : fget z aSEC_STATUS 3 0 = 0 := by
    rw [fget_of_bar hbar]
    decide
  rw [hk] at hstage hfuse
  rw [hz, hk]
  exact ⟨hparts, hstage.trans h0, hhost, hfuse, himages, hboot⟩

theorem wasReset_resetPackage (st : State) (s : Chip) (cold keep : Bool) (hhost : s.mem.host = st.chip.mem.host)
    (hbar : s.bar = st.chip.bar) (himages : s.images = st.chip.images) :
    wasReset st { st with chip := resetPackage s cold keep } := by
  obtain ⟨⟨h1, h2, h3, h4, h5, h6, h7⟩, hstage, hh, hf, hi, -⟩ := resetPackage_spec s cold keep
  exact ⟨rfl, hstage, h1, h2, h3, h4, h5, h6, h7, hh.trans hhost, hf.trans (fget_of_bar hbar ..), hi.trans himages⟩

theorem pwrgoodDownClause {s : State} (h : s.chip.boot.pwrgood = true) :
    ∃ t, exec .pwrgoodDeassert s = .next t ∧ barGet t.chip aPWR_DOMAIN = 0 ∧
      chipOnly [aPWR_DOMAIN, aSTRIKE_STATUS, aPKG_PINS] s t (fun c => { c with
        boot := { c.boot with pwrgood := false, undervolt := true }, radio := { c.radio with running := false } }) ∧
      fbit t.chip aSTRIKE_STATUS 2 = false ∧ fbit t.chip aPKG_PINS 1 = false := by
  obtain ⟨v, hv⟩ : ∃ v, v = ({ s.chip with
      boot := { s.chip.boot with pwrgood := false, undervolt := true }, radio := { s.chip.radio with running := false } } : Chip) := ⟨_, rfl⟩
  have hexec : exec .pwrgoodDeassert s = .next { s with chip := (
      fsetb (barSet (fsetb v aSTRIKE_STATUS 2 false) aPWR_DOMAIN 0) aPKG_PINS 1 false) } :=
    onChip_next (f := cmdPwrgoodDeassert) (by
      unfold cmdPwrgoodDeassert when
      rw [if_pos h, hv]
      rfl)
  obtain ⟨w, hw⟩ : ∃ w, w = fsetb v aSTRIKE_STATUS 2 false := ⟨_, rfl⟩
  have hw2 : fbit w aSTRIKE_STATUS 2 = false := hw ▸ fbit_fsetb_same _ _ _ _ (by omega)
  have hwb : onlyBar [aPWR_DOMAIN, aSTRIKE_STATUS, aPKG_PINS] v w := hw ▸ onlyBar_fsetb _ _ _ (by simp)
  rw [← hw] at hexec
  clear hw
  obtain ⟨x, hx⟩ : ∃ x, x = barSet w aPWR_DOMAIN 0 := ⟨_, rfl⟩
  have hxb : onlyBar [aPWR_DOMAIN] w x := hx ▸ onlyBar_barSet _ _ (by simp)
  have hx0 : barGet x aPWR_DOMAIN = 0 := by rw [hx, barGet_barSet_same, Nat.zero_mod]
  have hx2 := (fbit_of_barGet (hxb.2 aSTRIKE_STATUS (by decide)) 2).trans hw2
  rw [← hx] at hexec
  clear hx
  have hy1 : fbit (fsetb x aPKG_PINS 1 false) aPKG_PINS 1 = false := fbit_fsetb_same _ _ _ _ (by omega)
  have hyb : onlyBar [aPKG_PINS] x (fsetb x aPKG_PINS 1 false) := onlyBar_fsetb _ _ _ (by simp)
  generalize fsetb x aPKG_PINS 1 false = y at *
  have hall : onlyBar [aPWR_DOMAIN, aSTRIKE_STATUS, aPKG_PINS] v y :=
    onlyBar_trans hwb (onlyBar_trans (onlyBar_mono (by simp) hxb) (onlyBar_mono (by simp) hyb))
  refine ⟨_, hexec, (hyb.2 _ (by decide)).trans hx0, ⟨?_, ?_⟩, (fbit_of_barGet (hyb.2 aSTRIKE_STATUS (by decide)) 2).trans hx2, hy1⟩
  · obtain ⟨b, rfl⟩ : ∃ b, y = { v with bar := b } := ⟨_, hall.1⟩
    rw [hv]
  · intro k hk
    refine (hall.2 k hk).trans ?_
    rw [hv]
    rfl

theorem resetsHappen : Clauses.ResetsHappen := by
  intro s
  have hconv : s.chip.ras.tripped = false → ∀ c keep, c.ras = s.chip.ras → conventional c keep = resetPackage c false keep :=
    fun ht c keep hc => by simp [conventional, hc, ht]
  refine ⟨fun h => ?_, fun h => ?_, pwrgoodDownClause, fun ha ht => ?_, fun ha => ?_, ?_⟩
  · exact onChip_next (c := s.chip) (f := cmdPwrgoodAssert) (by simp [cmdPwrgoodAssert, when, h])
  · obtain ⟨-, -, -, -, -, hp, -, he, -⟩ := resetPackage_spec (bootMod s.chip (fun b => { b with pwrgood := true })) true false
    have hexec : exec .pwrgoodAssert s = .next { s with chip := (
        resetPackage (bootMod s.chip (fun b => { b with pwrgood := true })) true false) } :=
      onChip_next (f := cmdPwrgoodAssert) (by unfold cmdPwrgoodAssert when; rw [if_pos (by simp [h])])
    have hwas := wasReset_resetPackage s (bootMod s.chip (fun b => { b with pwrgood := true })) true false rfl rfl rfl
    exact ⟨_, hexec, hwas, hp, he⟩
  · obtain ⟨-, -, -, -, -, -, hp, he, -⟩ := resetPackage_spec (bootMod s.chip (fun b => { b with perst := true })) false false
    obtain ⟨-, -, -, -, -, -, -, heF, hlF, -⟩ := resetPackage_spec s.chip false false
    obtain ⟨-, -, -, -, -, -, -, heT, hlT, hrT⟩ := resetPackage_spec s.chip false true
    have hwas := wasReset_resetPackage s (bootMod s.chip (fun b => { b with perst := true })) false false rfl rfl rfl
    have hwasF := wasReset_resetPackage s s.chip false false rfl rfl rfl
    have hwasT := wasReset_resetPackage s s.chip false true rfl rfl rfl
    have hperst : exec .perstAssert s = .next { s with chip := (
        resetPackage (bootMod s.chip (fun b => { b with perst := true })) false false) } :=
      onChip_next (f := cmdPerstAssert) (by unfold cmdPerstAssert; simp only; rw [if_pos ha, hconv ht (bootMod _ _) _ rfl])
    have hhot : exec .cxlHotReset s = .next { s with chip := resetPackage s.chip false false } :=
      onChip_next (f := cmdCxlHotReset) (by unfold cmdCxlHotReset when; rw [if_pos ha]; exact congrArg Host.Outcome.next (hconv ht _ _ rfl))
    have hdown : exec .cxlLinkDownTimeout s = .next { s with chip := resetPackage s.chip false false } :=
      onChip_next (f := cmdCxlLinkDownTimeout) (by unfold cmdCxlLinkDownTimeout when; rw [if_pos ha]; exact congrArg Host.Outcome.next (hconv ht _ _ rfl))
    have hflr : exec .pfFlr s = .next { s with chip := resetPackage s.chip false true } :=
      onChip_next (f := cmdPfFlr) (by unfold cmdPfFlr when; rw [if_pos ha]; exact congrArg Host.Outcome.next (hconv ht _ _ rfl))
    exact ⟨⟨_, hperst, hwas, hp, he⟩, ⟨_, hhot, hwasF, heF, hlF⟩, ⟨_, hdown, hwasF, heF, hlF⟩, ⟨_, hflr, hwasT, heT, hlT, hrT⟩⟩
  · exact ⟨onChip_next (c := s.chip) (f := cmdCxlHotReset) (by simp [cmdCxlHotReset, when, ha]),
      onChip_next (c := s.chip) (f := cmdCxlLinkDownTimeout) (by simp [cmdCxlLinkDownTimeout, when, ha]),
      onChip_next (c := s.chip) (f := cmdPfFlr) (by simp [cmdPfFlr, when, ha])⟩
  · exact ⟨_, onChip_next (f := cmdPerstDeassert) rfl, rfl⟩

-- The boot stages and the measurements (R601, R602, R611).

/-- A measurement register's keys. -/
def measureKeys (i : Nat) : List Nat := (List.range 4).map (aMEASURE i)

theorem onlyBar_extendM (s : Chip) (i : Nat) (d : List Byte) : onlyBar (measureKeys i) s (extendM s i d) := by
  have h : ∀ j, j < 4 → aMEASURE i j ∈ measureKeys i := fun j hj => List.mem_map.2 ⟨j, List.mem_range.2 hj, rfl⟩
  unfold extendM
  simp only [forEach, List.range_succ, List.range_zero, List.nil_append, List.cons_append, List.foldl_cons, List.foldl_nil]
  exact onlyBar_trans (onlyBar_trans (onlyBar_trans (onlyBar_barSet _ _ (h 0 (by omega))) (onlyBar_barSet _ _ (h 1 (by omega))))
    (onlyBar_barSet _ _ (h 2 (by omega)))) (onlyBar_barSet _ _ (h 3 (by omega)))

theorem secStatus_apart (i : Nat) : aSEC_STATUS ∉ measureKeys i := by
  simp only [measureKeys, List.mem_map, List.mem_range, not_exists, not_and]
  intro j _
  unfold aMEASURE aSEC_STATUS
  omega

theorem measureBytes_of_onlyBar {s u : Chip} (h : onlyBar [aSEC_STATUS] s u) (i : Nat) : measureBytes u i = measureBytes s i := by
  unfold measureBytes
  congr 1
  funext j
  rw [h.2 _ (by simp only [List.mem_singleton]; unfold aMEASURE aSEC_STATUS; omega)]

theorem fget_extendM (s : Chip) (i : Nat) (d : List Byte) (hi lo : Nat) :
    fget (extendM s i d) aSEC_STATUS hi lo = fget s aSEC_STATUS hi lo := fget_of_onlyBar (onlyBar_extendM s i d) (secStatus_apart i) hi lo

theorem fuseBytes_extendM (s : Chip) (i : Nat) (d : List Byte) : fuseBytes (extendM s i d) = fuseBytes s := by
  unfold fuseBytes
  rw [fget_extendM, fget_extendM]

theorem onlyBar_sec (s : Chip) (hi lo v : Nat) : onlyBar [aSEC_STATUS] s (fset s aSEC_STATUS hi lo v) := onlyBar_fset _ _ _ _ (by simp)

theorem onlyBar_setStage (s : Chip) (v : Nat) : onlyBar [aSEC_STATUS] s (setStage s v) := onlyBar_sec ..

theorem stageNow_setStage (s : Chip) {v : Nat} (h : v < 16) : stageNow (setStage s v) = v :=
  (fget_fset_same s aSEC_STATUS 3 0 v (by omega) (by omega)).trans (Nat.mod_eq_of_lt h)

theorem fget_setStage (s : Chip) (v hi lo : Nat) (h : lo ≤ hi) (hl : 4 ≤ lo) : fget (setStage s v) aSEC_STATUS hi lo = fget s aSEC_STATUS hi lo :=
  fget_fset_field s aSEC_STATUS 3 0 v hi lo (by omega) (by omega) h (by omega)

theorem onlyBar_secCode (s : Chip) (v : Nat) : onlyBar [aSEC_STATUS] s (secCode s v) := onlyBar_sec ..

theorem fget_secCode_code (s : Chip) {v : Nat} (h : v < 2 ^ 16) : fget (secCode s v) aSEC_STATUS 63 48 = v :=
  (fget_fset_same s aSEC_STATUS 63 48 v (by omega) (by omega)).trans (Nat.mod_eq_of_lt h)

theorem fget_secCode (s : Chip) (v hi lo : Nat) (h : lo ≤ hi) (hh : hi < 48) : fget (secCode s v) aSEC_STATUS hi lo = fget s aSEC_STATUS hi lo :=
  fget_fset_field s aSEC_STATUS 63 48 v hi lo (by omega) (by omega) h (by omega)

theorem onlyBar_failPart (s : Chip) : onlyBar [aSTRIKE_STATUS, aSEC_STATUS]
    { s with radio := { s.radio with running := false }, boot := { s.boot with aer := s.boot.aer + 1 } } (failPart s) := by
  obtain ⟨v, hv⟩ : ∃ v, v = ({ s with radio := { s.radio with running := false }, boot := { s.boot with aer := s.boot.aer + 1 } } : Chip) := ⟨_, rfl⟩
  have h : failPart s = setStage (fsetb v aSTRIKE_STATUS 2 false) 0xF := by
    rw [hv]
    rfl
  rw [h, ← hv]
  exact onlyBar_trans (onlyBar_fsetb _ _ _ (by simp)) (onlyBar_mono (by simp) (onlyBar_setStage _ _))

theorem stageNow_failPart (s : Chip) : stageNow (failPart s) = 0xF := stageNow_setStage _ (by omega)

theorem selftestClause {s : State} {pass : Bool} (ha : alive s.chip = true) (hp : s.chip.boot.perst = false) (ht : s.chip.ras.tripped = false)
    (hs : stageNow s.chip = 0) (hearly : s.chip.boot.early = []) :
    ∃ t, exec (.romSelftestComplete pass) s = .next t ∧ stageNow t.chip = (if pass then 1 else 0xF) ∧
      measureBytes t.chip 3 = sha3 (measureBytes s.chip 3 ++ sha3 (fuseBytes s.chip)) ∧
      regsOnly (aSEC_STATUS :: (List.range 4).map (aMEASURE 3)) s t := by
  have hexec : exec (.romSelftestComplete pass) s = .next { s with chip := setStage (measureFuses s.chip) (if pass then 1 else 0xF) } :=
    onChip_next (f := cmdRomSelftestComplete pass) (by
      have hboot : bootMod s.chip (fun b => { b with early := [] }) = s.chip := by
        rw [show ([] : List (Bool × List Byte)) = s.chip.boot.early from hearly.symm]
        rfl
      unfold cmdRomSelftestComplete when
      rw [if_pos (by simp [ha, hp, ht, hs])]
      simp only [hboot, hearly]
      rfl)
  have hstage := stageNow_setStage (measureFuses s.chip) (v := if pass then 1 else 0xF) (by split <;> omega)
  have hbar := onlyBar_setStage (measureFuses s.chip) (if pass then 1 else 0xF)
  have hm := measureBytes_of_onlyBar hbar 3
  have hme : measureBytes (measureFuses s.chip) 3 = sha3 (measureBytes s.chip 3 ++ sha3 (fuseBytes s.chip)) :=
    (measureBytes_extendM ..).trans (if_pos rfl)
  have hmb : onlyBar (measureKeys 3) s.chip (measureFuses s.chip) := onlyBar_extendM ..
  generalize setStage (measureFuses s.chip) (if pass then 1 else 0xF) = u at *
  exact ⟨_, hexec, hstage, hm.trans hme, regsOnly_of_onlyBar (onlyBar_trans (onlyBar_mono (fun k hk => List.mem_cons_of_mem _ hk) hmb)
    (onlyBar_mono (fun k hk => List.mem_cons.2 (.inl (List.mem_singleton.1 hk))) hbar))⟩

theorem watchdogClause {s : State} (hr : hearthRuns s.chip = true) :
    ∃ t, exec .watchdogExpiry s = .next t ∧ stageNow t.chip = 0xF ∧ fget t.chip aSEC_STATUS 63 48 = 0x6020 ∧
      t.chip.radio.running = false ∧ t.chip.boot.aer = s.chip.boot.aer + 1 ∧ t.chip.mem = s.chip.mem := by
  have hexec : exec .watchdogExpiry s = .next { s with chip := secCode (failPart s.chip) 0x6020 } :=
    onChip_next (f := cmdWatchdogExpiry) (by unfold cmdWatchdogExpiry when; rw [if_pos hr])
  have hstage : stageNow (secCode (failPart s.chip) 0x6020) = 0xF := (fget_secCode (failPart s.chip) 0x6020 3 0 (by omega) (by omega)).trans (stageNow_failPart s.chip)
  have hcode := fget_secCode_code (failPart s.chip) (v := 0x6020) (by omega)
  have hb : onlyBar [aSTRIKE_STATUS, aSEC_STATUS] _ (secCode (failPart s.chip) 0x6020) :=
    onlyBar_trans (onlyBar_failPart s.chip) (onlyBar_mono (by simp) (onlyBar_secCode ..))
  generalize secCode (failPart s.chip) 0x6020 = u at *
  have hrun : u.radio.running = false := by rw [hb.1]
  have haer : u.boot.aer = s.chip.boot.aer + 1 := by rw [hb.1]
  have hmem : u.mem = s.chip.mem := by rw [hb.1]
  exact ⟨_, hexec, hstage, hcode, hrun, haer, hmem⟩

theorem svnCommitClause {s : State} (hr : hearthRuns s.chip = true) (h : Nat × Nat) (hh : s.chip.boot.hearth = some h) (hle : h.1 ≤ 255) :
    ∃ t, exec .svnCommit s = .next t ∧
      fget t.chip aSEC_STATUS 47 40 = max h.1 (fget s.chip aSEC_STATUS 47 40) ∧ stageNow t.chip = stageNow s.chip := by
  obtain ⟨u, hu⟩ : ∃ u, u = fset s.chip aSEC_STATUS 47 40 (max h.1 (fget s.chip aSEC_STATUS 47 40)) := ⟨_, rfl⟩
  have hexec : exec .svnCommit s = .next { s with chip := measureFuses u } :=
    onChip_next (f := cmdSvnCommit) (by simp only [cmdSvnCommit, svnCommit, hh, hr, if_true, hu])
  have hlt := fget_lt s.chip aSEC_STATUS 47 40
  refine ⟨_, hexec, (fget_extendM ..).trans ?_, (fget_extendM ..).trans ?_⟩
  · rw [hu, fget_fset_same _ _ _ _ _ (by omega) (by omega)]
    exact Nat.mod_eq_of_lt (by omega)
  · rw [hu]
    exact fget_fset_field _ _ _ _ _ _ _ (by omega) (by omega) (by omega) (by omega)

theorem revokeClause {s : State} {slot : Nat} (hslot : slot < 4) (hr : hearthRuns s.chip = true) (bad : Bool)
    (hbad : bad = ((s.chip.boot.hearth.map (·.2)) == some slot || Nat.lor (fget s.chip aSEC_STATUS 39 36) (2 ^ slot) == 0xF)) :
    (bad = true → ∃ t, exec (.revoke slot) s = .next t ∧ regsOnly [aSEC_STATUS] s t ∧ fget t.chip aSEC_STATUS 63 48 = 0x6008 ∧
      fget t.chip aSEC_STATUS 39 36 = fget s.chip aSEC_STATUS 39 36) ∧
    (bad = false → ∃ t, exec (.revoke slot) s = .next t ∧ (fget t.chip aSEC_STATUS 39 36).testBit slot = true ∧
      measureBytes t.chip 3 = sha3 (measureBytes s.chip 3 ++ sha3 (fuseBytes t.chip))) := by
  have hexec : exec (.revoke slot) s = .next { s with chip := revokeSlot s.chip slot } :=
    onChip_next (f := cmdRevoke slot) (by unfold cmdRevoke; rw [onUnit_next hslot])
  refine ⟨fun hb => ?_, fun hb => ?_⟩
  · have hrev : revokeSlot s.chip slot = secCode s.chip 0x6008 := by
      unfold revokeSlot
      simp only [hr, Bool.not_true, Bool.false_eq_true, if_false]
      exact if_pos (hbad.symm.trans hb)
    rw [hrev] at hexec
    exact ⟨_, hexec, regsOnly_of_onlyBar (onlyBar_secCode ..), fget_secCode_code _ (by omega), fget_secCode _ _ _ _ (by omega) (by omega)⟩
  · obtain ⟨u, hu⟩ : ∃ u, u = fset s.chip aSEC_STATUS 39 36 (Nat.lor (fget s.chip aSEC_STATUS 39 36) (2 ^ slot)) := ⟨_, rfl⟩
    have hrev : revokeSlot s.chip slot = measureFuses u := by
      unfold revokeSlot
      simp only [hr, Bool.not_true, Bool.false_eq_true, if_false, hu]
      exact if_neg (by rw [← hbad, hb]; exact Bool.false_ne_true)
    rw [hrev] at hexec
    have hbits : fget u aSEC_STATUS 39 36 = Nat.lor (fget s.chip aSEC_STATUS 39 36) (2 ^ slot) := by
      rw [hu, fget_fset_same _ _ _ _ _ (by omega) (by omega)]
      exact Nat.mod_eq_of_lt (Nat.or_lt_two_pow (fget_lt s.chip aSEC_STATUS 39 36) (Nat.pow_lt_pow_right (by omega) hslot))
    have hub : onlyBar [aSEC_STATUS] s.chip u := hu ▸ onlyBar_sec ..
    refine ⟨_, hexec, ?_, ?_⟩
    · rw [show fget (measureFuses u) aSEC_STATUS 39 36 = _ from (fget_extendM ..).trans hbits]
      exact (Nat.testBit_or ..).trans (by simp)
    · rw [show fuseBytes (measureFuses u) = fuseBytes u from fuseBytes_extendM .., ← measureBytes_of_onlyBar hub]
      exact (measureBytes_extendM ..).trans (if_pos rfl)

-- Firmware images (R602, R605 to R608).

theorem imageLoadClause {s : State} :
    (s.chip.boot.load ≠ none → ∃ t, exec .imageLoadGo s = .next t ∧ regsOnly [aSEC_STATUS] s t ∧ fget t.chip aSEC_STATUS 63 48 = 0x6007) ∧
    (s.chip.boot.load = none → stageNow s.chip = 1 → ∃ t, exec .imageLoadGo s = .next t ∧ stageNow t.chip = 2 ∧
      chipOnly [aSEC_STATUS] s t (fun c => { c with boot := { c.boot with
        load := some ⟨barGet s.chip aSEC_FW_ADDR, fget s.chip aSEC_FW_LEN 31 0⟩ } })) := by
  refine ⟨fun h => ?_, fun h h1 => ?_⟩
  · exact secCodeOut s cmdImageLoadGo (by omega) (by
      unfold cmdImageLoadGo loadGo
      rw [if_pos (Option.isSome_iff_ne_none.2 h)])
  · obtain ⟨v, hv⟩ : ∃ v, v = bootMod s.chip (fun b => { b with load := some ⟨barGet s.chip aSEC_FW_ADDR, fget s.chip aSEC_FW_LEN 31 0⟩ }) :=
      ⟨_, rfl⟩
    have hexec : exec .imageLoadGo s = .next { s with chip := setStage v 2 } :=
      onChip_next (f := cmdImageLoadGo) (by
        unfold cmdImageLoadGo loadGo
        rw [if_neg (by simp [h]), if_pos (by simp [h1])]
        simp only [h1, beq_self_eq_true, if_true, hv])
    have hbar := onlyBar_setStage v 2
    have hstage := stageNow_setStage v (v := 2) (by omega)
    generalize setStage v 2 = u at *
    refine ⟨_, hexec, hstage, ⟨?_, fun k hk => (hbar.2 k hk).trans (by rw [hv]; rfl)⟩⟩
    obtain ⟨b, rfl⟩ : ∃ b, u = { v with bar := b } := ⟨_, hbar.1⟩
    rw [hv]
    rfl

theorem typeAllowed_of_bar {s u : Chip} (h : u.bar = s.bar) (t : Nat) : typeAllowed u t = typeAllowed s t := by
  unfold typeAllowed hearthRuns stageNow
  rw [fget_of_bar h, fget_of_bar h]

theorem imageCode_of_bar {s u : Chip} (h : u.bar = s.bar) (n : Nat) (b : List Byte) : imageCode u n b = imageCode s n b := by
  unfold imageCode
  simp only [typeAllowed_of_bar h, fget_of_bar h]

theorem blockCode_of_bar {s u : Chip} (h : u.bar = s.bar) (n : Nat) (b : List Byte) : blockCode u n b = blockCode s n b := by
  unfold blockCode
  rw [typeAllowed_of_bar h]

theorem imageCode_lt (s : Chip) (n : Nat) (b : List Byte) : imageCode s n b < 2 ^ 16 := by
  unfold imageCode
  simp only
  repeat' split
  all_goals omega

theorem blockCode_lt (s : Chip) (n : Nat) (b : List Byte) : blockCode s n b < 2 ^ 16 := by
  unfold blockCode
  repeat' split
  all_goals omega

theorem loadFails_spec (s : Chip) {code : Nat} (hc : code < 2 ^ 16) : onlyBar [aSEC_STATUS] s (loadFails s code) ∧
    fget (loadFails s code) aSEC_STATUS 63 48 = code ∧ stageNow (loadFails s code) = (if stageNow s = 2 then 1 else stageNow s) ∧
    fget (loadFails s code) aSEC_STATUS 21 16 = fget s aSEC_STATUS 21 16 := by
  have hb := onlyBar_secCode s code
  have hcode := fget_secCode_code s hc
  have hstage : stageNow (secCode s code) = stageNow s := fget_secCode _ _ _ _ (by omega) (by omega)
  have hmask : fget (secCode s code) aSEC_STATUS 21 16 = fget s aSEC_STATUS 21 16 := fget_secCode _ _ _ _ (by omega) (by omega)
  unfold loadFails
  generalize secCode s code = u at *
  simp only [hstage, beq_iff_eq]
  split
  · exact ⟨onlyBar_trans hb (onlyBar_setStage ..), (fget_setStage _ _ _ _ (by omega) (by omega)).trans hcode,
      stageNow_setStage _ (by omega), (fget_setStage _ _ _ _ (by omega) (by omega)).trans hmask⟩
  · exact ⟨hb, hcode, hstage, hmask⟩

/-- A refused load ends. -/
theorem loadEnds {s : State} {good : Bool} {v : Chip} {code : Nat} (hc : code < 2 ^ 16) (hv : v.bar = s.chip.bar) (hl : v.boot.load = none)
    (h : cmdImageVerify good s.chip = .next (loadFails v code)) :
    ∃ t, exec (.imageVerify good) s = .next t ∧ t.chip.boot.load = none ∧
      fget t.chip aSEC_STATUS 63 48 = code ∧ stageNow t.chip = (if stageNow s.chip = 2 then 1 else stageNow s.chip) ∧
      fget t.chip aSEC_STATUS 21 16 = fget s.chip aSEC_STATUS 21 16 := by
  obtain ⟨hb, h1, h2, h3⟩ := loadFails_spec v hc
  have hexec : exec (.imageVerify good) s = .next { s with chip := loadFails v code } := onChip_next (f := cmdImageVerify good) h
  generalize loadFails v code = u at *
  have hs : stageNow v = stageNow s.chip := fget_of_bar hv ..
  rw [hs] at h2
  have hload : u.boot.load = none := by
    rw [hb.1]
    exact hl
  have hmask : fget u aSEC_STATUS 21 16 = fget s.chip aSEC_STATUS 21 16 := h3.trans (fget_of_bar hv ..)
  exact ⟨_, hexec, hload, h1, h2, hmask⟩

/-- A signed Hearth image that passed. -/
theorem takeImage_hearth (s : Chip) (b : List Byte) (h1 : bNat b 0 1 = 1) :
    stageNow (takeImage s b) = 3 ∧ (takeImage s b).boot = { s.boot with hearth := some (bNat b 4 4, bNat b 1 1) } ∧
      fbit (takeImage s b) aSEC_STATUS 16 = true ∧ measureBytes (takeImage s b) 0 = sha3 (measureBytes s 0 ++ sha3 (b.take 48)) := by
  obtain ⟨m, hm⟩ : ∃ m, m = markLoaded s 1 := ⟨_, rfl⟩
  have hmb : onlyBar [aSEC_STATUS] s m := hm ▸ onlyBar_sec ..
  have hbit : fbit m aSEC_STATUS 16 = true := by
    have h := fget_fset_same s aSEC_STATUS 21 16 (Nat.lor (fget s aSEC_STATUS 21 16) (2 ^ 0)) (by omega) (by omega)
    have hlt : Nat.lor (fget s aSEC_STATUS 21 16) (2 ^ 0) < 2 ^ 6 := Nat.or_lt_two_pow (fget_lt s aSEC_STATUS 21 16) (by omega)
    rw [show fset s aSEC_STATUS 21 16 (Nat.lor (fget s aSEC_STATUS 21 16) (2 ^ 0)) = m from hm.symm, Nat.mod_eq_of_lt hlt] at h
    have hodd : Nat.lor (fget s aSEC_STATUS 21 16) (2 ^ 0) % 2 = 1 := Nat.or_mod_two_eq_one.2 (.inr rfl)
    have hlow : fget m aSEC_STATUS 16 16 = fget m aSEC_STATUS 21 16 % 2 := by
      unfold fget
      simp only [bitsOf_eq]
      omega
    rw [fbit, hlow, h, hodd]
    rfl
  obtain ⟨e, he⟩ : ∃ e, e = extendM m 0 (sha3 (b.take 48)) := ⟨_, rfl⟩
  have heb : onlyBar (measureKeys 0) m e := he ▸ onlyBar_extendM ..
  have hem : measureBytes e 0 = sha3 (measureBytes s 0 ++ sha3 (b.take 48)) := by
    rw [he, measureBytes_extendM, if_pos rfl, measureBytes_of_onlyBar hmb]
  obtain ⟨f, hf⟩ : ∃ f, f = bootMod e (fun x => { x with hearth := some (bNat b 4 4, bNat b 1 1) }) := ⟨_, rfl⟩
  have htake : takeImage s b = setStage f 3 := by
    unfold takeImage
    simp only [h1, beq_self_eq_true, if_true]
    rw [← hm, ← he, ← hf]
  have hset := onlyBar_setStage f 3
  have hstage := stageNow_setStage f (v := 3) (by omega)
  have hkeep : fbit (setStage f 3) aSEC_STATUS 16 = fbit f aSEC_STATUS 16 := by
    unfold fbit
    rw [fget_setStage _ _ _ _ (by omega) (by omega)]
  rw [htake]
  generalize setStage f 3 = u at *
  have hfb : f.bar = e.bar := by rw [hf]; rfl
  have hboot : f.boot = { s.boot with hearth := some (bNat b 4 4, bNat b 1 1) } := by
    rw [hf, heb.1, hmb.1]
    rfl
  refine ⟨hstage, (by rw [hset.1]; exact hboot), ?_, ?_⟩
  · rw [hkeep, ← hbit, fbit, fbit, fget_of_bar hfb, fget_of_onlyBar heb (secStatus_apart 0)]
  · rw [measureBytes_of_onlyBar hset, ← hem]
    unfold measureBytes barGet
    rw [hfb]

theorem imageVerifyClause {s : State} (l : Load) (hl : s.chip.boot.load = some l) :
    let b := mread s.chip.mem.host l.addr l.len
    let code := if bNat b 0 1 = 6 then blockCode s.chip l.len b else imageCode s.chip l.len b
    let ends := fun (t : State) (c : Nat) => exec (.imageVerify true) s = .next t ∧ t.chip.boot.load = none ∧
      fget t.chip aSEC_STATUS 63 48 = c ∧ stageNow t.chip = (if stageNow s.chip = 2 then 1 else stageNow s.chip) ∧
      fget t.chip aSEC_STATUS 21 16 = fget s.chip aSEC_STATUS 21 16
    (∃ t, exec (.imageVerify false) s = .next t ∧ t.chip.boot.load = none ∧ fget t.chip aSEC_STATUS 63 48 = 0x6006) ∧
    (hostShut s.chip = false →
      (code ≠ 0 → ∃ t, ends t code) ∧
      (code = 0 → bNat b 0 1 = 1 → ∃ t, exec (.imageVerify true) s = .next t ∧ stageNow t.chip = 3 ∧ t.chip.boot.load = none ∧
        t.chip.boot.hearth = some (bNat b 4 4, bNat b 1 1) ∧ fbit t.chip aSEC_STATUS 16 = true ∧
        measureBytes t.chip 0 = sha3 (measureBytes s.chip 0 ++ sha3 (b.take 48)))) := by
  intro b code ends
  obtain ⟨v, hv⟩ : ∃ v, v = bootMod s.chip (fun x => { x with load := none }) := ⟨_, rfl⟩
  have hvb : v.bar = s.chip.bar := hv ▸ rfl
  have hvl : v.boot.load = none := hv ▸ rfl
  obtain ⟨w, hw⟩ : ∃ w, w = ctrAdd v 16 156 l.len := ⟨_, rfl⟩
  have hwb : w.bar = s.chip.bar := hw ▸ hvb
  have hwl : w.boot.load = none := hw ▸ hvl
  have hlt : code < 2 ^ 16 := by
    change (if _ then _ else _) < _
    split
    · exact blockCode_lt ..
    · exact imageCode_lt ..
  have hverify : hostShut s.chip = false → cmdImageVerify true s.chip = .next (
      if code != 0 then loadFails w code else if bNat b 0 1 == 6 then takeBlock w b else takeImage w b) := fun hshut => by
    have hcode : (if bNat b 0 1 == 6 then blockCode w l.len b else imageCode w l.len b) = code := by
      rw [blockCode_of_bar hwb, imageCode_of_bar hwb]
      simp only [beq_iff_eq]
      rfl
    have hshut' : hostShut v = false := hv ▸ hshut
    have hread : hostRead v 16 l.addr l.len = (w, b) := by
      rw [hw, hv]
      rfl
    unfold cmdImageVerify
    simp only [hl, ← hv, Bool.not_true, Bool.false_or, hshut', Bool.false_eq_true, if_false, hread, hcode]
  refine ⟨?_, fun hshut => ⟨fun hne => ?_, fun h0 h1 => ?_⟩⟩
  · obtain ⟨t, h1, h2, h3, -⟩ := loadEnds (good := false) (code := 0x6006) (by omega) hvb hvl (by
      unfold cmdImageVerify
      simp only [hl, ← hv, Bool.not_false, Bool.true_or, if_true])
    exact ⟨t, h1, h2, h3⟩
  · have hh := hverify hshut
    rw [if_pos (by simpa using hne)] at hh
    exact loadEnds hlt hwb hwl hh
  · have hh := hverify hshut
    rw [if_neg (by simp [h0]), if_neg (by simp [h1])] at hh
    obtain ⟨g1, g2, g3, g4⟩ := takeImage_hearth w b h1
    have hexec : exec (.imageVerify true) s = .next { s with chip := takeImage w b } := onChip_next (f := cmdImageVerify true) hh
    generalize takeImage w b = u at *
    refine ⟨_, hexec, g1, by rw [g2]; exact hwl, by rw [g2], g3, g4.trans ?_⟩
    unfold measureBytes barGet
    rw [hwb]

theorem bootAdvances : Clauses.BootAdvances := by
  intro s slot pass hslot
  refine ⟨selftestClause, fun hr => ⟨?_, ?_, ?_⟩, fun hr => ⟨watchdogClause hr, svnCommitClause hr, revokeClause hslot hr⟩,
    imageLoadClause.1, imageLoadClause.2, fun hl => ?_, fun l hl => imageVerifyClause l hl⟩
  · exact onChip_next (c := s.chip) (f := cmdWatchdogExpiry) (by simp [cmdWatchdogExpiry, when, hr])
  · exact onChip_next (c := s.chip) (f := cmdSvnCommit) (by
      unfold cmdSvnCommit svnCommit
      split <;> simp [hr])
  · exact onChip_next (c := s.chip) (f := cmdRevoke slot) (by
      unfold cmdRevoke
      rw [onUnit_next hslot]
      simp [revokeSlot, hr])
  · exact onChip_next (c := s.chip) (f := cmdImageVerify pass) (by simp [cmdImageVerify, hl])

/-- Settles O56: resets, and the boot of the part. -/
theorem resetsAndBoot : Obligations.ResetsAndBoot := ⟨resetsHappen, bootAdvances⟩

end Sys2Proof.Proofs
end

section
/-! SUPPORT. Temper tests, parity and fatal errors, and the health score (O58). -/

namespace Sys2Proof.Proofs

open Sys2Proof.Machine

-- A tile that leaves its pool (R186, R650).

def putClean (u s : Chip) : Chip :=
  { s with freeCtr := u.freeCtr, flights := u.flights, qm := u.qm, tiles := u.tiles, strands := u.strands }

theorem parts_clean : Parts putClean := ⟨fun _ _ _ _ => rfl, fun _ _ => rfl⟩

/-- Nothing changes but the free values, messages, transfers, strands, and the tile `t` with its registers. -/
def cleans (t : Nat) (s u : Chip) : Prop :=
  within putClean [aTILE_CTL t, aTILE_STATUS t] s u ∧ ∀ k, k ≠ t → getTile u k = getTile s k

theorem cleans_refl (t : Nat) (s : Chip) : cleans t s s := ⟨within_refl parts_clean, fun _ _ => rfl⟩

theorem cleans_trans {t : Nat} {s u v : Chip} (h : cleans t s u) (g : cleans t u v) : cleans t s v := by
  obtain ⟨h1, h2⟩ := h
  obtain ⟨g1, g2⟩ := g
  exact ⟨within_trans parts_clean h1 g1, fun k hk => (g2 k hk).trans (h2 k hk)⟩

theorem cleans_ite {t : Nat} {c : Prop} [Decidable c] {s u v : Chip} (h : cleans t s u) (g : cleans t s v) :
    cleans t s (if c then u else v) := by
  split
  · exact h
  · exact g

theorem cleans_bar {t : Nat} {s u : Chip} (h : onlyBar [aTILE_CTL t, aTILE_STATUS t] s u) : cleans t s u :=
  ⟨within_bar parts_clean h, fun k _ => getTile_of_onlyBar h k⟩

theorem cleans_modTile (s : Chip) (t : Nat) (f : Tile → Tile) : cleans t s (modTile s t f) :=
  ⟨⟨rfl, fun _ _ => rfl⟩, fun _ hk => getTile_modTile_other s hk f⟩

theorem cleans_modStrand (s : Chip) (t t' i : Nat) (f : Strand → Strand) : cleans t s (modStrand s t' i f) :=
  ⟨⟨rfl, fun _ _ => rfl⟩, fun _ _ => rfl⟩

theorem cleans_endX (t : Nat) (s : Chip) (q slot code : Nat) : cleans t s (endX s q slot code) := ⟨⟨rfl, fun _ _ => rfl⟩, fun _ _ => rfl⟩

theorem cleans_dropStream (s : Chip) (t k : Nat) : cleans t s (dropStream s t k) := by
  unfold dropStream
  refine cleans_ite (cleans_refl t s) ?_
  have h := cleans_modTile s t (fun z => { z with streams := tset (fun _ => ({} : Stream)) k {} z.streams })
  simp only
  generalize modTile s t _ = u at *
  split
  · exact cleans_trans h (cleans_endX ..)
  · exact h

theorem cleans_forEach {α : Type} {t : Nat} {f : Chip → α → Chip} (h : ∀ u a, cleans t u (f u a)) (l : List α) (s : Chip) :
    cleans t s (forEach l f s) :=
  forEach_keeps (R := cleans t) (cleans_refl t) (fun _ _ _ => cleans_trans) (fun a _ u => h u a) s

theorem cleans_resetStrands (s : Chip) (t : Nat) : cleans t s (resetStrands s t) := by
  unfold resetStrands
  have h1 := cleans_forEach (t := t) (fun u k => cleans_dropStream u t k) (List.range 8) s
  generalize forEach (List.range 8) (fun st k => dropStream st t k) s = s1 at *
  have h2 := cleans_forEach (t := t) (fun u i => cleans_modStrand u t t i (fun x => { ({} : Strand) with fresh := true, held := x.held }))
    (List.range 8) s1
  simp only
  generalize forEach (List.range 8) _ s1 = s2 at *
  have hcut : cleans t s2 { (cutSends t s2.flights s2).1 with flights := (cutSends t s2.flights s2).2 } := by
    have hframe := cutSends_frame t s2.flights s2
    generalize cutSends t s2.flights s2 = c at *
    obtain ⟨c, l⟩ := c
    rw [show c = _ from hframe]
    exact ⟨⟨rfl, fun _ _ => rfl⟩, fun _ _ => rfl⟩
  exact cleans_trans (cleans_trans (cleans_trans h1 h2) hcut) (cleans_modTile ..)

theorem cleans_cleanTile (s : Chip) (t : Nat) : cleans t s (cleanTile s t) := by
  unfold cleanTile
  have h1 := cleans_trans (cleans_resetStrands s t) (cleans_bar (onlyBar_fsetb (ks := [aTILE_CTL t, aTILE_STATUS t]) (resetStrands s t)
    (k := aTILE_CTL t) 1 true (by simp)))
  generalize fsetb (resetStrands s t) (aTILE_CTL t) 1 true = s1 at *
  have h2 := cleans_trans h1 (cleans_forEach (t := t) (fun u i => cleans_modStrand u t t i (fun x => { x with held := false })) (List.range 8) s1)
  simp only
  generalize forEach (List.range 8) _ s1 = s2 at *
  have h3 := cleans_trans h2 (cleans_modTile s2 t (fun y => { ({} : Tile) with
    mem := y.mem, pz := y.pz, flaw := y.flaw, wbq := y.wbq, scrub := y.scrub,
    zeroing := (tilePowered s2 t && tileEnabled s2 t) || y.zeroing }))
  generalize modTile s2 t _ = s3 at *
  exact cleans_ite (cleans_trans h3 (cleans_bar (onlyBar_fsetb _ _ _ (by simp)))) h3

-- Requests (R646, R647).

theorem groupTiles_nodup (g : Nat) : (groupTiles g).Nodup := by
  simp only [groupTiles, List.nodup_cons, List.mem_cons, List.not_mem_nil, or_false, not_or, List.nodup_nil, not_false_eq_true, and_true]
  omega

theorem groupTiles_lt {g k : Nat} (hg : g < 36) (h : k ∈ groupTiles g) : k < 144 := by
  simp only [groupTiles, List.mem_cons, List.not_mem_nil, or_false] at h
  omega

theorem tileStatus_inj {j k : Nat} (h : j ≠ k) : aTILE_STATUS j ≠ aTILE_STATUS k := by unfold aTILE_STATUS; omega

theorem holderOf_none {s : Chip} {g : Nat} (h : ∀ p, p < 16 → (heldGroups s p).testBit g = false) : holderOf s g = none :=
  List.find?_eq_none.2 fun p hp => by simp [h p (List.mem_range.1 hp)]

theorem exec_temperSchedule {s : State} {g : Nat} (hg : g < 36) {c : Chip} (h : temperRequest s.chip g = c) :
    exec (.temperSchedule g) s = .next { s with chip := c } :=
  onChip_next (f := cmdTemperSchedule g) (by unfold cmdTemperSchedule; rw [onUnit_next hg, h])

/-- A group's tiles taken for a test: each untested, the other tiles as they were. -/
theorem testFree_spec (s : Chip) (g : Nat) :
    (testFree s g).ras.tests = s.ras.tests ++ [⟨g, 16, [], false⟩] ∧
      (∀ k, k ∈ groupTiles g → fbit (testFree s g) (aTILE_STATUS k) 0 = false) ∧
      ∀ k, k ∉ groupTiles g → getTile (testFree s g) k = getTile s k := by
  obtain ⟨v, hv⟩ : ∃ v, v = unwant s g := ⟨_, rfl⟩
  obtain ⟨s1, h1⟩ : ∃ s1, s1 = forEach (groupTiles g) cleanTile v := ⟨_, rfl⟩
  have hclean : s1.ras = v.ras ∧ ∀ k, k ∉ groupTiles g → getTile s1 k = getTile v k := by
    rw [h1]
    refine forEach_keeps (R := fun u w => w.ras = u.ras ∧ ∀ k, k ∉ groupTiles g → getTile w k = getTile u k)
      (fun _ => ⟨rfl, fun _ _ => rfl⟩) (fun _ _ _ h g => ⟨g.1.trans h.1, fun k hk => (g.2 k hk).trans (h.2 k hk)⟩) (fun j hj u => ?_) v
    obtain ⟨hw, ht⟩ := cleans_cleanTile u j
    refine ⟨?_, fun k hk => ht k fun e => hk (e ▸ hj)⟩
    rw [hw.1]
    rfl
  obtain ⟨s2, h2⟩ : ∃ s2, s2 = forEach (groupTiles g) (fun u t => fsetb u (aTILE_STATUS t) 0 false) s1 := ⟨_, rfl⟩
  have hbar : s2.ras = s1.ras ∧ ∀ k, getTile s2 k = getTile s1 k := by
    rw [h2]
    exact forEach_keeps (R := fun u w => w.ras = u.ras ∧ ∀ k, getTile w k = getTile u k)
      (fun _ => ⟨rfl, fun _ => rfl⟩) (fun _ _ _ h g => ⟨g.1.trans h.1, fun k => (g.2 k).trans (h.2 k)⟩)
      (f := fun u t => fsetb u (aTILE_STATUS t) 0 false) (fun _ _ _ => ⟨rfl, fun _ => rfl⟩) s1
  have hbit : ∀ k, k ∈ groupTiles g → fbit s2 (aTILE_STATUS k) 0 = false := fun k hk => by
    obtain ⟨u, -, hu⟩ := forEach_at (R := fun u w => barGet w (aTILE_STATUS k) = barGet u (aTILE_STATUS k)) (fun _ => rfl)
      (fun _ _ _ h g => g.trans h) (f := fun u t => fsetb u (aTILE_STATUS t) 0 false) (groupTiles_nodup g) hk
      (fun j _ hj u => barGet_fset_other _ _ _ _ (tileStatus_inj hj.symm)) s1
    rw [← h2] at hu
    rw [fbit_of_barGet hu, fbit_fsetb_same _ _ _ _ (by omega)]
  obtain ⟨w, hw⟩ : ∃ w, w = testFree s g := ⟨_, rfl⟩
  have hfree : w = rasMod s2 (fun r => { r with tests := r.tests ++ [⟨g, 16, [], false⟩] }) := by
    rw [hw, testFree, ← hv, ← h1, ← h2]
  rw [← hw, hfree]
  refine ⟨?_, hbit, fun k hk => ((hbar.2 k).trans (hclean.2 k hk)).trans (by rw [hv]; rfl)⟩
  change s2.ras.tests ++ _ = _
  rw [hbar.1, hclean.1, hv]
  rfl

theorem scheduleClause {s : State} {g : Nat} (hg : g < 36) (hwanted : s.chip.ras.wanted = []) :
    (temperMay s.chip g = false → exec (.temperSchedule g) s = .next s) ∧
    (temperMay s.chip g = true → stageNow s.chip = 6 → (∀ p, p < 16 → (heldGroups s.chip p).testBit g = false) →
      exec (.temperSchedule g) s = .next { s with chip := { s.chip with ras := { s.chip.ras with wanted := [g] } } }) ∧
    (temperCan s.chip g = true → stageNow s.chip ≠ 6 → (∀ p, p < 16 → (heldGroups s.chip p).testBit g = false) → ∃ t,
      exec (.temperSchedule g) s = .next t ∧ t.chip.ras.tests = s.chip.ras.tests ++ [⟨g, 16, [], false⟩] ∧
      (∀ k, k ∈ groupTiles g → fbit t.chip (aTILE_STATUS k) 0 = false) ∧
      ∀ k, k < 144 → k ∉ groupTiles g → getTile t.chip k = getTile s.chip k) := by
  have hwant : want s.chip g = { s.chip with ras := { s.chip.ras with wanted := [g] } } := by
    simp [want, hwanted, rasMod]
  refine ⟨fun h => ?_, fun h h6 hp => ?_, fun h h6 hp => ?_⟩
  · exact exec_temperSchedule (c := s.chip) hg (by simp [temperRequest, when, h])
  · refine exec_temperSchedule hg ?_
    have hholder : holderOf (want s.chip g) g = none := holderOf_none fun p hp' => by rw [hwant]; exact hp p hp'
    simp only [temperRequest, when, h, if_true, h6, beq_self_eq_true, temperAsk, hholder]
    exact hwant
  · have hholder : holderOf (want s.chip g) g = none := holderOf_none fun p hp' => by rw [hwant]; exact hp p hp'
    have hcan : temperCan (want s.chip g) g = true := by rw [hwant]; exact h
    have hmay : temperMay s.chip g = true := by
      unfold temperCan at h
      simp only [Bool.and_eq_true] at h
      exact h.1
    have hreq : temperRequest s.chip g = testFree (want s.chip g) g := by
      simp only [temperRequest, when, hmay, if_true, beq_eq_false_iff_ne.2 h6, Bool.false_eq_true, if_false, temperStart, hcan,
        Bool.not_true, hholder]
    obtain ⟨h1, h2, h3⟩ := testFree_spec (want s.chip g) g
    have hexec := exec_temperSchedule hg hreq
    generalize testFree (want s.chip g) g = u at *
    rw [hwant] at h1 h3
    exact ⟨_, hexec, h1, h2, fun k _ hk => h3 k hk⟩

-- The end of a test (R648).

def putJudged (u s : Chip) : Chip := { s with ras := u.ras, tiles := u.tiles, flights := u.flights }

theorem parts_judged : Parts putJudged := ⟨fun _ _ _ _ => rfl, fun _ _ => rfl⟩

/-- What the verdict on tile `j` leaves as it was. -/
def judged (j : Nat) (s u : Chip) : Prop :=
  within putJudged [aTILE_CTL j, aTILE_STATUS j] s u ∧ fget u (aTILE_CTL j) 47 44 = fget s (aTILE_CTL j) 47 44 ∧
    u.ras.wanted = s.ras.wanted ∧ ∀ k, k ≠ j → tmem u.ras.failed k = tmem s.ras.failed k

theorem tilePart_judged {j : Nat} {s u : Chip} (h : judged j s u) (k : Nat) : tilePart u k = tilePart s k := by
  obtain ⟨⟨-, hb⟩, hp, -⟩ := h
  by_cases hk : k = j
  · rw [hk]
    exact hp
  · exact fget_of_barGet (hb _ (by simp only [List.mem_cons, List.not_mem_nil, or_false, not_or]; unfold aTILE_CTL aTILE_STATUS; omega)) 47 44

theorem tileHeld_judged {j : Nat} {s u : Chip} (h : judged j s u) (k : Nat) : tileHeld u k = tileHeld s k := by
  have hpart := tilePart_judged h k
  obtain ⟨⟨-, hb⟩, -⟩ := h
  have hlt := tilePart_lt s k
  unfold tileHeld
  rw [hpart, fget_of_barGet (hb _ ?_)]
  simp only [List.mem_cons, List.not_mem_nil, or_false, not_or]
  unfold aTILE_CTL aTILE_STATUS aPART_GROUPS
  omega

/-- A tile that no partition holds is fenced without a message. -/
theorem fenceTile_free {s : Chip} {j : Nat} (hf : tileFenced s j = false) (hh : tileHeld s j = false) :
    judged j s (fenceTile s j) ∧ fbit (fenceTile s j) (aTILE_STATUS j) 1 = true ∧ fbit (fenceTile s j) (aTILE_CTL j) 4 = true ∧
      (fenceTile s j).ras = s.ras := by
  obtain ⟨h1, h2, -⟩ := fenced_spec s j
  have hb := onlyBar_fenceSet s j
  have hpart : fget (fenceSet s j) (aTILE_CTL j) 47 44 = fget s (aTILE_CTL j) 47 44 := by
    unfold fenceSet
    rw [fsetb, fget_fset_other _ _ _ _ _ _ (by unfold aTILE_CTL aTILE_STATUS; omega), fget_fsetb _ _ _ _ _ _ (by omega) (by omega) (by omega)]
  have hwithin : within putJudged [aTILE_CTL j, aTILE_STATUS j] s (fenced s j) :=
    within_trans parts_judged (within_bar parts_judged hb) ⟨rfl, fun _ _ => rfl⟩
  have hras : (fenced s j).ras = s.ras := by
    change (fenceSet s j).ras = s.ras
    rw [hb.1]
  have hctl : fget (fenced s j) (aTILE_CTL j) 47 44 = fget s (aTILE_CTL j) 47 44 := hpart
  have hopen := fenceTile_open hf
  generalize fenced s j = u at *
  have hjudged : judged j s u := ⟨hwithin, hctl, by rw [hras], fun k _ => by rw [hras]⟩
  have hlost : tileLost u j = u := by
    unfold tileLost
    rw [if_pos (by rw [tileHeld_judged hjudged j, hh]; rfl)]
  rw [hopen, hlost]
  exact ⟨hjudged, h1, h2, hras⟩

theorem judged_refl (j : Nat) (s : Chip) : judged j s s := ⟨within_refl parts_judged, rfl, rfl, fun _ _ => rfl⟩

theorem judged_trans {j : Nat} {s u v : Chip} (h : judged j s u) (g : judged j u v) : judged j s v := by
  obtain ⟨h1, h2, h3, h4⟩ := h
  obtain ⟨g1, g2, g3, g4⟩ := g
  exact ⟨within_trans parts_judged h1 g1, g2.trans h2, g3.trans h3, fun k hk => (g4 k hk).trans (h4 k hk)⟩

theorem judged_failed (s : Chip) (j : Nat) : judged j s (rasMod s (fun r => { r with failed := tmark r.failed j true })) :=
  ⟨⟨rfl, fun _ _ => rfl⟩, rfl, rfl, fun k hk => by
    change tmem (tmark s.ras.failed j true) k = _
    rw [tmem_tmark, if_neg hk]⟩

theorem judgeTile_spec {s : Chip} {j : Nat} (bad : List Nat) (hh : tileHeld s j = false) :
    judged j s (judgeTile bad s j) ∧
    (tileEnabled s j = true → tileFenced s j = false → j ∉ bad → fbit (judgeTile bad s j) (aTILE_STATUS j) 0 = true) ∧
    (tileEnabled s j = true → tileFenced s j = false → j ∈ bad → fbit (judgeTile bad s j) (aTILE_STATUS j) 1 = true ∧
      fbit (judgeTile bad s j) (aTILE_CTL j) 4 = true ∧ tmem (judgeTile bad s j).ras.failed j = true) := by
  by_cases hen : tileEnabled s j = true
  · have hmark := judged_failed s j
    have hmarked : tmem (rasMod s (fun r => { r with failed := tmark r.failed j true })).ras.failed j = true :=
      tmem_tmark_same s.ras.failed j true
    have hfenced : tileFenced (rasMod s (fun r => { r with failed := tmark r.failed j true })) j = tileFenced s j := rfl
    by_cases hbad : j ∈ bad
    · have hjudge : judgeTile bad s j = fenceTile (rasMod s (fun r => { r with failed := tmark r.failed j true })) j := by
        simp [judgeTile, hen, hbad]
      rw [hjudge]
      generalize rasMod s (fun r => { r with failed := tmark r.failed j true }) = v at *
      by_cases hf : tileFenced s j = true
      · rw [show fenceTile v j = v by unfold fenceTile; rw [if_pos (hfenced.trans hf)]]
        exact ⟨hmark, fun _ h => absurd hf (by simp [h]), fun _ h => absurd hf (by simp [h])⟩
      · have hf' : tileFenced v j = false := hfenced.trans (Bool.eq_false_iff.2 hf)
        obtain ⟨h1, h2, h3, h4⟩ := fenceTile_free hf' ((tileHeld_judged hmark j).trans hh)
        exact ⟨judged_trans hmark h1, fun _ _ h => absurd hbad h, fun _ _ _ => ⟨h2, h3, by rw [h4]; exact hmarked⟩⟩
    · by_cases hf : tileFenced s j = true
      · rw [show judgeTile bad s j = s by simp [judgeTile, hen, hbad, hf]]
        exact ⟨judged_refl j s, fun _ h => absurd hf (by simp [h]), fun _ h => absurd hf (by simp [h])⟩
      · rw [show judgeTile bad s j = fsetb s (aTILE_STATUS j) 0 true by simp [judgeTile, hen, hbad, hf]]
        refine ⟨⟨within_bar parts_judged (onlyBar_fsetb _ _ _ (by simp)), ?_, rfl, fun _ _ => rfl⟩,
          fun _ _ _ => fbit_fsetb_same _ _ _ _ (by omega), fun _ _ h => absurd h hbad⟩
        rw [fsetb, fget_fset_other _ _ _ _ _ _ (by unfold aTILE_CTL aTILE_STATUS; omega)]
  · rw [show judgeTile bad s j = s by simp [judgeTile, hen]]
    exact ⟨judged_refl j s, fun h => absurd h hen, fun h => absurd h hen⟩

/-- What the verdicts on the other tiles of a group leave, where no partition holds the group: `k` as it was. -/
def judgeKept (g k : Nat) (s u : Chip) : Prop :=
  (∀ j, j ∈ groupTiles g → tileHeld s j = false) → (∀ j, j ∈ groupTiles g → tileHeld u j = false) ∧
    u.ras.wanted = s.ras.wanted ∧ tmem u.ras.failed k = tmem s.ras.failed k ∧ barGet u (aTILE_STATUS k) = barGet s (aTILE_STATUS k) ∧
    barGet u (aTILE_CTL k) = barGet s (aTILE_CTL k) ∧ tileEnabled u k = tileEnabled s k

theorem judgeKept_refl (g k : Nat) (s : Chip) : judgeKept g k s s := fun h => ⟨h, rfl, rfl, rfl, rfl, rfl⟩

theorem judgeKept_trans {g k : Nat} (s u v : Chip) (h : judgeKept g k s u) (h' : judgeKept g k u v) : judgeKept g k s v := by
  intro hs
  obtain ⟨hu, h1, h2, h3, h4, h5⟩ := h hs
  obtain ⟨hv, g1, g2, g3, g4, g5⟩ := h' hu
  exact ⟨hv, g1.trans h1, g2.trans h2, g3.trans h3, g4.trans h4, g5.trans h5⟩

theorem judgeKept_judgeTile {g j k : Nat} (bad : List Nat) (hj : j ∈ groupTiles g) (hjk : j ≠ k) (hk : k < 144) (s : Chip) :
    judgeKept g k s (judgeTile bad s j) := by
  intro hs
  have hjudged := (judgeTile_spec bad (hs j hj)).1
  have hheld := fun i => tileHeld_judged hjudged i
  obtain ⟨⟨-, hb⟩, -, hw, hf⟩ := hjudged
  have hkey : ∀ a, a ≠ aTILE_CTL j → a ≠ aTILE_STATUS j → barGet (judgeTile bad s j) a = barGet s a := fun a h1 h2 =>
    hb a (by simp [h1, h2])
  refine ⟨fun i hi => (hheld i).trans (hs i hi), hw, hf k hjk.symm, hkey _ ?_ ?_, hkey _ ?_ ?_, ?_⟩
  · unfold aTILE_CTL aTILE_STATUS; omega
  · unfold aTILE_STATUS; omega
  · unfold aTILE_CTL; omega
  · unfold aTILE_CTL aTILE_STATUS; omega
  · unfold tileEnabled
    rw [hkey _ (by unfold aTILE_CTL; omega) (by unfold aTILE_STATUS; omega)]

theorem mem_failingTiles {s : Chip} {g mask k : Nat} (h : k ∈ failingTiles s g mask) : k ∈ groupTiles g ∧ tileEnabled s k = true := by
  obtain ⟨x, hx, hk⟩ := List.mem_filterMap.1 h
  split at hk
  · next hc =>
    simp only [Bool.and_eq_true] at hc
    rw [← Option.some.inj hk]
    exact ⟨(List.of_mem_zip hx).2, hc.2⟩
  · cases hk

/-- A test of a group of no partition ends with the verdicts on its tiles and the boot stage that follows. -/
theorem testEnds_free (s : Chip) (x : Test) (bad : List Nat) (hpart : x.part = 16) :
    ∃ v, testEnds s x bad = (if stageNow v == 6 then v else temperWaiting v) ∧
      (∀ k, k ≠ aSEC_STATUS → barGet v k = barGet (forEach (groupTiles x.group) (judgeTile bad) s) k) ∧
      v.ras.failed = (forEach (groupTiles x.group) (judgeTile bad) s).ras.failed ∧
      v.ras.wanted = (forEach (groupTiles x.group) (judgeTile bad) s).ras.wanted := by
  obtain ⟨s1, h1⟩ : ∃ s1, s1 = forEach (groupTiles x.group) (judgeTile bad) s := ⟨_, rfl⟩
  obtain ⟨s2, h2, hbar, hf, hw⟩ : ∃ s2, testEnds s x bad =
      (if stageNow (advanceStage s2) == 6 then advanceStage s2 else temperWaiting (advanceStage s2)) ∧ s2.bar = s1.bar ∧
      s2.ras.failed = s1.ras.failed ∧ s2.ras.wanted = s1.ras.wanted := by
    unfold testEnds
    rw [← h1]
    simp only [hpart, Nat.le_refl, if_true]
    refine ⟨_, rfl, ?_⟩
    split <;> exact ⟨rfl, rfl, rfl⟩
  obtain ⟨hb, -⟩ := onlyBar_advanceStage s2
  rw [← h1]
  refine ⟨_, h2, fun k hk => (hb.2 k (by simpa using hk)).trans (by unfold barGet; rw [hbar]), ?_, ?_⟩
  · rw [hb.1]
    exact hf
  · rw [hb.1]
    exact hw

theorem testEndsClause {s : State} {g mask : Nat} (hg : g < 36) (hwanted : s.chip.ras.wanted = []) (x : Test)
    (hx : s.chip.ras.tests.find? (fun x => x.group == g && !x.back) = some x) (hpart : x.part = 16)
    (hheld : ∀ k, k ∈ groupTiles g → tileHeld s.chip k = false) : ∃ t, exec (.temperTestComplete g mask) s = .next t ∧
      (∀ k, k ∈ groupTiles g → tileEnabled s.chip k = true → tileFenced s.chip k = false → k ∉ failingTiles s.chip g mask →
        fbit t.chip (aTILE_STATUS k) 0 = true) ∧
      ∀ k, k ∈ failingTiles s.chip g mask → tileFenced s.chip k = false →
        fbit t.chip (aTILE_STATUS k) 1 = true ∧ fbit t.chip (aTILE_CTL k) 4 = true ∧ tmem t.chip.ras.failed k = true := by
  have hxg : x.group = g := by
    have := List.find?_some hx
    simp only [Bool.and_eq_true, beq_iff_eq] at this
    exact this.1
  obtain ⟨bad, hbad⟩ : ∃ bad, bad = failingTiles s.chip g mask := ⟨_, rfl⟩
  obtain ⟨s1, h1⟩ : ∃ s1, s1 = forEach (groupTiles g) (judgeTile bad) s.chip := ⟨_, rfl⟩
  have hat : ∀ k, k ∈ groupTiles g → ∃ u, judgeKept g k s.chip u ∧ judgeKept g k (judgeTile bad u k) s1 := fun k hk => by
    rw [h1]
    exact forEach_at (judgeKept_refl g k) judgeKept_trans (groupTiles_nodup g) hk
      (fun j hj hjk u => judgeKept_judgeTile bad hj hjk (groupTiles_lt hg hk) u) s.chip
  have hone : ∀ k, k ∈ groupTiles g → tileEnabled s.chip k = true → tileFenced s.chip k = false →
      s1.ras.wanted = [] ∧ (k ∉ bad → fbit s1 (aTILE_STATUS k) 0 = true) ∧
      (k ∈ bad → fbit s1 (aTILE_STATUS k) 1 = true ∧ fbit s1 (aTILE_CTL k) 4 = true ∧ tmem s1.ras.failed k = true) := fun k hk hen hf => by
    obtain ⟨u, hu, hw⟩ := hat k hk
    obtain ⟨hheldu, hwu, -, hsu, -, heu⟩ := hu hheld
    have hfu : tileFenced u k = false := (fbit_of_barGet hsu 1).trans hf
    obtain ⟨hj, hpass, hfail⟩ := judgeTile_spec bad (hheldu k hk)
    obtain ⟨-, hww, hmw, hsw, hcw, -⟩ := hw fun j hj' => (tileHeld_judged hj j).trans (hheldu j hj')
    refine ⟨?_, fun hn => (fbit_of_barGet hsw 0).trans (hpass (heu.trans hen) hfu hn), fun hb => ?_⟩
    · obtain ⟨-, -, hwj, -⟩ := hj
      rw [hww, hwj, hwu, hwanted]
    · obtain ⟨g1, g2, g3⟩ := hfail (heu.trans hen) hfu hb
      exact ⟨(fbit_of_barGet hsw 1).trans g1, (fbit_of_barGet hcw 4).trans g2, hmw.trans g3⟩
  obtain ⟨v, hv, hkeep⟩ := testEnds_free s.chip x bad hpart
  rw [hxg, ← h1] at hkeep
  obtain ⟨hvb, hvf, hvw⟩ := hkeep
  have hexec : exec (.temperTestComplete g mask) s = .next { s with chip := if stageNow v == 6 then v else temperWaiting v } :=
    onChip_next (f := cmdTemperTestComplete g mask) (by
      unfold cmdTemperTestComplete
      rw [onUnit_next hg]
      simp only [hx, ← hbad, hv])
  have hend : s1.ras.wanted = [] → (if stageNow v == 6 then v else temperWaiting v) = v := fun hw => by
    have hwait : temperWaiting v = v := by
      unfold temperWaiting
      rw [hvw, hw]
      rfl
    rw [hwait, ite_self]
  have hbits : ∀ k i, fbit v (aTILE_STATUS k) i = fbit s1 (aTILE_STATUS k) i := fun k i =>
    fbit_of_barGet (hvb _ (by unfold aTILE_STATUS aSEC_STATUS; omega)) i
  have hctl : ∀ k i, fbit v (aTILE_CTL k) i = fbit s1 (aTILE_CTL k) i := fun k i =>
    fbit_of_barGet (hvb _ (by unfold aTILE_CTL aSEC_STATUS; omega)) i
  refine ⟨_, hexec, fun k hk hen hf hn => ?_, fun k hk hf => ?_⟩
  · obtain ⟨hw, hpass, -⟩ := hone k hk hen hf
    have h := (hbits k 0).trans (hpass (hbad ▸ hn))
    rw [← hend hw] at h
    exact h
  · obtain ⟨hkg, hen⟩ := mem_failingTiles hk
    obtain ⟨hw, -, hfail⟩ := hone k hkg hen hf
    obtain ⟨g1, g2, g3⟩ := hfail (hbad ▸ hk)
    have h := And.intro ((hbits k 1).trans g1) (And.intro ((hctl k 4).trans g2) ((congrArg (tmem · k) hvf).trans g3))
    rw [← hend hw] at h
    exact h

theorem parityClause {s : State} {tile strand : Nat} (htile : tile < 144) (hs : strand < 8) (index lane : Nat) :
    (∀ file, ∃ t, exec (.parityError tile true strand file index lane) s = .next t ∧ regsOnly [aRAS_PARITY] s t ∧
      countedOne s t aRAS_PARITY 31 0) ∧
    (0 < index → index < 32 → ∃ t, exec (.parityError tile false strand 0 index lane) s = .next t ∧ countedOne s t aRAS_PARITY 63 32 ∧
      getStrand t.chip tile strand = wrS (getStrand s.chip tile strand) index 0 true ∧ t.chip.tiles = s.chip.tiles ∧
      ∀ k, k ≠ skey tile strand → tget (fun _ => {}) t.chip.strands k = tget (fun _ => {}) s.chip.strands k) := by
  refine ⟨fun file => ?_, fun h0 h32 => ?_⟩
  · refine ⟨_, onChip_next (f := cmdParityError tile true strand file index lane) (by
      unfold cmdParityError onStrand
      rw [if_pos ⟨htile, hs⟩]
      rfl), regsOnly_of_onlyBar (onlyBar_fsat _ _ _ _ (by simp)), ?_⟩
    exact fget_fsat_same _ _ _ _ _ (by omega) (by omega)
  · obtain ⟨u, hu⟩ : ∃ u, u = fsat s.chip aRAS_PARITY 63 32 1 := ⟨_, rfl⟩
    have hub : onlyBar [aRAS_PARITY] s.chip u := hu ▸ onlyBar_fsat _ _ _ _ (by simp)
    have hcount : fget u aRAS_PARITY 63 32 = min (fget s.chip aRAS_PARITY 63 32 + 1) (2 ^ (63 + 1 - 32) - 1) :=
      hu ▸ fget_fsat_same _ _ _ _ _ (by omega) (by omega)
    have hexec : exec (.parityError tile false strand 0 index lane) s = .next { s with chip := (
        modStrand u tile strand (fun x => wrS x index 0 true)) } :=
      onChip_next (f := cmdParityError tile false strand 0 index lane) (by
        unfold cmdParityError onStrand
        rw [if_pos ⟨htile, hs⟩]
        simp only [← hu, Bool.false_eq_true, if_false, poisonLane, beq_self_eq_true, if_true, Nat.mod_eq_of_lt h32])
    have hstr : u.strands = s.chip.strands := by rw [hub.1]
    refine ⟨_, hexec, hcount, ?_, (show u.tiles = _ by rw [hub.1]), fun k hk => ?_⟩
    · rw [← getStrand_of_strands hstr]
      exact getStrand_setStrand_same ..
    · rw [← hstr]
      exact tget_tset_other (fun _ => ({} : Strand)) hk _ _

theorem fatalClause {s : State} {source tile : Nat} (htile : tile < 144) (h1 : 1 ≤ source) (h3 : source ≤ 3) :
    ∃ t, exec (.fatalError source tile) s = .next t ∧ stageNow t.chip = 0xF ∧
      fbit t.chip aRAS_STATUS 63 = true ∧ fget t.chip aRAS_STATUS 59 56 = source ∧
      fget t.chip aRAS_STATUS 55 48 = (if source = 2 then tile else 0xFF) ∧ t.chip.radio.running = false ∧ t.chip.mem = s.chip.mem := by
  have hexec : exec (.fatalError source tile) s = .next { s with chip := fatal s.chip source (if source == 2 then tile else 0xFF) } :=
    onChip_next (f := cmdFatalError source tile) (by unfold cmdFatalError; rw [if_pos ⟨h1, h3⟩])
  obtain ⟨hstage, hbit, hsrc, hat⟩ := fatal_regs s.chip source (if source == 2 then tile else 0xFF)
  have hb : onlyBar [aSTRIKE_STATUS, aSEC_STATUS, aRAS_STATUS] _ (fatal s.chip source (if source == 2 then tile else 0xFF)) :=
    onlyBar_trans (onlyBar_mono (by simp) (onlyBar_failPart s.chip)) (onlyBar_trans (onlyBar_trans (onlyBar_fsetb _ _ _ (by simp))
      (onlyBar_fset _ _ _ _ (by simp))) (onlyBar_fset _ _ _ _ (by simp)))
  generalize fatal s.chip source (if source == 2 then tile else 0xFF) = u at *
  have hrun : u.radio.running = false := by rw [hb.1]
  have hmem : u.mem = s.chip.mem := by rw [hb.1]
  refine ⟨_, hexec, hstage, hbit, hsrc.trans (Nat.mod_eq_of_lt (by omega)), hat.trans ?_, hrun, hmem⟩
  simp only [beq_iff_eq]
  split <;> omega

theorem testsAndErrors : Clauses.TestsAndErrors := by
  intro s g mask tile strand index lane source hg htile hstrand
  refine ⟨fun hwanted => ?_, (parityClause htile hstrand index lane).1, (parityClause htile hstrand index lane).2, fatalClause htile⟩
  obtain ⟨h1, h2, h3⟩ := scheduleClause hg hwanted
  refine ⟨h1, h2, h3, fun h => ?_, testEndsClause hg hwanted⟩
  exact onChip_next (c := s.chip) (f := cmdTemperTestComplete g mask) (by
    unfold cmdTemperTestComplete
    rw [onUnit_next hg]
    simp only [h])

-- The health score (R639 to R642).

theorem healthScore_le (s : Chip) (ce : Nat) : healthScore s ce ≤ 1000 := Nat.sub_le ..

theorem healthState_lt (old : Option Nat) (score force : Nat) : healthState old score force < 4 := by
  unfold healthState
  repeat' split
  all_goals omega

theorem forced_lt (s : Chip) : forced s < 16 := by
  have h : ∀ b : Bool, b2n b ≤ 1 := fun b => by cases b <;> simp [b2n]
  have h1 := h (!knuckleOpen s)
  have h2 := h (fbit s aMEM_MAP 0 && (List.range 32).any (fun c => inSet s c && chanFailed s c))
  have h3 := h (s.radio.running && s.radio.reduced)
  have h4 := h (fbit s aPWR_STATUS 47)
  unfold forced
  omega

theorem length_filter_range (n : Nat) (f : Nat → Bool) : ((List.range n).filter f).length ≤ n :=
  (List.length_filter_le ..).trans (by simp)

theorem failedHalves_lt (s : Chip) : failedHalves s < 4 := by
  unfold failedHalves
  simp only [List.range_succ, List.range_zero, List.nil_append, List.cons_append, List.filter_cons, List.filter_nil]
  split <;> split <;> simp

/-- The fields of HEALTH out of its packed value. -/
theorem health_fields {score st prov f low : Nat} (h1 : score < 1024) (h2 : st < 4) (h3 : prov < 2) (h4 : f < 16) (h5 : low < 2 ^ 47) (s : Chip) :
    fget (barSet s aHEALTH (score * 2 ^ 54 + st * 2 ^ 52 + prov * 2 ^ 51 + f * 2 ^ 47 + low)) aHEALTH 63 54 = score ∧
      fget (barSet s aHEALTH (score * 2 ^ 54 + st * 2 ^ 52 + prov * 2 ^ 51 + f * 2 ^ 47 + low)) aHEALTH 53 52 = st ∧
      fget (barSet s aHEALTH (score * 2 ^ 54 + st * 2 ^ 52 + prov * 2 ^ 51 + f * 2 ^ 47 + low)) aHEALTH 51 51 = prov ∧
      fget (barSet s aHEALTH (score * 2 ^ 54 + st * 2 ^ 52 + prov * 2 ^ 51 + f * 2 ^ 47 + low)) aHEALTH 50 47 = f := by
  unfold fget
  rw [barGet_barSet_same]
  simp only [bitsOf_eq]
  omega

theorem rasIrq_frame (s : Chip) : rasIrq s = { s with irqs := (rasIrq s).irqs } := by
  unfold rasIrq raiseIrq
  split <;> rfl

theorem notified_frame (b : Bool) (v : Chip) : (if b then raiseIbi (rasIrq v) 2 else v) =
    { v with irqs := (if b then raiseIbi (rasIrq v) 2 else v).irqs, ibis := (if b then raiseIbi (rasIrq v) 2 else v).ibis } := by
  obtain ⟨i, hi⟩ : ∃ i, rasIrq v = { v with irqs := i } := ⟨_, rasIrq_frame v⟩
  rw [hi]
  cases b <;> rfl

/-- The score and the state of a recomputation whose counts stand in `c`. -/
def healthParts (s c : Chip) : Nat × Nat :=
  let prov := decide (c.ras.served < 3600)
  let score := healthScore c (if prov then 0 else fget c aHEALTH_CE 63 32)
  (score, if prov then 0 else healthState (if fbit s aHEALTH 51 then none else some (fget s aHEALTH 53 52)) score (forced c))

/-- The counts of HEALTH. -/
def healthCounts (c : Chip) : Nat :=
  min 255 (outTiles c) * 2 ^ 32 + noSpare c * 2 ^ 24 + failedChans c * 2 ^ 16 + detours c * 2 ^ 8 + failedHalves c

theorem healthCounts_lt (c : Chip) : healthCounts c < 2 ^ 47 := by
  have h1 : noSpare c ≤ 32 := length_filter_range ..
  have h2 : failedChans c ≤ 32 := length_filter_range ..
  have h3 : detours c ≤ 24 := length_filter_range ..
  have h4 := failedHalves_lt c
  unfold healthCounts
  omega

theorem healthCompute_cases (s : Chip) : ∃ v, v = barSet (countCE s) aHEALTH ((healthParts s (countCE s)).1 * 2 ^ 54 +
      (healthParts s (countCE s)).2 * 2 ^ 52 + b2n (decide ((countCE s).ras.served < 3600)) * 2 ^ 51 + forced (countCE s) * 2 ^ 47 +
      healthCounts (countCE s)) ∧
    healthCompute s = { v with irqs := (healthCompute s).irqs, ibis := (healthCompute s).ibis } := by
  refine ⟨_, rfl, ?_⟩
  unfold healthCompute
  simp only
  generalize countCE s = c
  rw [show (healthParts s c).1 = healthScore c (if decide (c.ras.served < 3600) = true then 0 else fget c aHEALTH_CE 63 32) from rfl,
    show (healthParts s c).2 = (if decide (c.ras.served < 3600) = true then 0 else
      healthState (if fbit s aHEALTH 51 = true then none else some (fget s aHEALTH 53 52))
        (healthScore c (if decide (c.ras.served < 3600) = true then 0 else fget c aHEALTH_CE 63 32)) (forced c)) from rfl]
  unfold healthCounts
  simp only [← Nat.add_assoc]
  generalize barSet c aHEALTH _ = v
  exact notified_frame _ v

theorem healthIsRecomputed : Clauses.HealthIsRecomputed := by
  intro s
  refine ⟨fun h => onChip_next (c := s.chip) (f := cmdHealthRecompute) (by simp [cmdHealthRecompute, when, h]), fun h => ?_⟩
  intro c prov score old
  obtain ⟨v, hv, hw⟩ := healthCompute_cases s.chip
  have hexec : exec .healthRecompute s = .next { s with chip := healthCompute s.chip } :=
    onChip_next (f := cmdHealthRecompute) (by rw [cmdHealthRecompute, when, if_pos h])
  generalize healthCompute s.chip = w at hexec hw
  have hst : (healthParts s.chip c).2 < 4 := by
    simp only [healthParts]
    split
    · omega
    · exact healthState_lt ..
  have hprov : b2n (decide (c.ras.served < 3600)) < 2 := by cases decide (c.ras.served < 3600) <;> simp [b2n]
  have hscore : (healthParts s.chip c).1 < 1024 := Nat.lt_of_le_of_lt (healthScore_le ..) (by omega : 1000 < 1024)
  have hfields := health_fields hscore hst hprov (forced_lt c) (healthCounts_lt c) c
  rw [← show v = barSet c aHEALTH _ from hv] at hfields
  have hbar : onlyBar [aHEALTH, aHEALTH_CE] { s.chip with ras := c.ras } v :=
    hv ▸ onlyBar_trans (u := c) (onlyBar_barSet _ _ (by simp)) (onlyBar_barSet _ _ (by simp))
  clear hv
  have hvw : w.bar = v.bar := by rw [hw]
  obtain ⟨f1, f2, f3, f4⟩ := hfields
  rw [← fget_of_bar hvw] at f1 f2 f3 f4
  have hbit : fbit w aHEALTH 51 = prov := by
    rw [fbit, f3]
    change (b2n prov == 1) = prov
    cases prov <;> rfl
  have hkeys : ∀ k, k ∉ [aHEALTH, aHEALTH_CE] → barGet w k = barGet s.chip k := fun k hk => by
    have hb := hbar.2 k hk
    unfold barGet at hb ⊢
    rw [hvw]
    exact hb
  have hframe : w = { s.chip with ras := c.ras, irqs := w.irqs, ibis := w.ibis, bar := w.bar } := by
    obtain ⟨b, hb⟩ : ∃ b, v = { s.chip with ras := c.ras, bar := b } := ⟨_, hbar.1⟩
    rw [hw, hb]
  exact ⟨_, hexec, f1, hbit, f2, f4, congrArg (fun x => ({ s with chip := x } : State)) hframe, hkeys⟩

/-- Settles O58: Temper tests, parity and fatal errors, and the health score. -/
theorem testsErrorsAndHealth : Obligations.TestsErrorsAndHealth := ⟨testsAndErrors, healthIsRecomputed⟩

end Sys2Proof.Proofs
end

section
/-! SUPPORT. A job image read through a channel that the part does not have (O54). -/

namespace Sys2Proof.Proofs

open Sys2Proof.Machine

/-- A memory map of 64 ways from channel 64 on (R287, R309: its fields admit it). Channel 66's error counters lie where
Ward entry 1 does, and the job image at 512 lies in a burst of channel 66 that holds a corrected error. -/
def wideMap : State := { pending := [], chip := { ({} : Chip) with
  bar := tset regReset aMEM_MAP (BitVec.ofNat 64 (1 + 2 ^ 24 + 3 * 2 ^ 32)) (tset regReset (aFW_A 1) (BitVec.ofNat 64 (0x3FFFFFFF * 2 ^ 32))
    (tset regReset (aFJ_IMAGE 0) 512#64 (tset regReset (aGRANT 0) (BitVec.ofNat 64 (2 ^ 63 + 1)) [])))
  mem := { ({} : MemS) with cap := 2 ^ 30, dram := [(mbKey 66 0, 1#8), (mbKey 66 8, 1#8)], dflaw := [(mbKey 66 0 / 64, 1)] } } }

theorem ownWard_wideMap : ownWard wideMap.chip 0 = none := by decide +kernel

theorem jobLoad_wideMap : fget (loadJob wideMap.chip 0) (aFJ_STATUS 0) 3 0 = 2 := by decide +kernel

theorem readJob_wideMap : (readJob wideMap.chip 0 (fget wideMap.chip (aFJ_IMAGE 0) 47 0)).2 ≠ none := by decide +kernel

/-- Refutes O54: where MEM_MAP names 64 ways from channel 64, reading the job image counts a corrected error in the
register of Ward entry 1, which then is the slot's own entry, and the slot is pending and not loaded. -/
theorem not_jobsStreamsAndTime : ¬ Obligations.JobsStreamsAndTime := by
  rintro ⟨hjobs, -⟩
  obtain ⟨-, -, -, hload, -⟩ := hjobs wideMap 0 0 0 0 0 0 0 (by omega) (by omega) rfl
  obtain ⟨j, hj⟩ := Option.ne_none_iff_exists'.1 readJob_wideMap
  obtain ⟨t, hexec, -, -, -, hstate⟩ := hload j hj
  have hrun : exec (.jobImageLoad 0) wideMap = .next { wideMap with chip := loadJob wideMap.chip 0 } :=
    onChip_next (f := cmdJobImageLoad 0) (by unfold cmdJobImageLoad onPart; rw [onUnit_next (by omega)])
  have ht : t = { wideMap with chip := loadJob wideMap.chip 0 } := Host.Outcome.next.inj (hexec.symm.trans hrun)
  have h1 := hstate ownWard_wideMap
  rw [ht] at h1
  exact absurd (jobLoad_wideMap.symm.trans h1) (by omega)

end Sys2Proof.Proofs
end

section
/-! SUPPORT. Answers, replays and time-outs at the source of a fabric request (O53). -/

namespace Sys2Proof.Proofs

open Sys2Proof.Machine

-- Strands of which none waits.

theorem mem_tset {α : Type} [DecidableEq α] {d : Nat → α} {k : Nat} {v : α} {t : Tab α} {x : Nat × α} (h : x ∈ tset d k v t) :
    x = (k, v) ∨ x ∈ t := by
  have hdel : ∀ t : Tab α, x ∈ tdel k t → x ∈ t := by
    intro t
    induction t with
    | nil => exact id
    | cons y r ih =>
      intro h
      simp only [tdel] at h
      split at h
      · exact List.mem_cons_of_mem _ (ih h)
      · rcases List.mem_cons.1 h with h | h
        · exact h ▸ List.mem_cons_self
        · exact List.mem_cons_of_mem _ (ih h)
  have hput : ∀ t : Tab α, x ∈ tput k v t → x = (k, v) ∨ x ∈ t := by
    intro t
    induction t with
    | nil => exact fun h => .inl (List.mem_singleton.1 h)
    | cons y r ih =>
      intro h
      simp only [tput] at h
      split at h
      · exact (List.mem_cons.1 h).imp_right id
      · rcases List.mem_cons.1 h with h | h
        · exact .inr (h ▸ List.mem_cons_self)
        · exact (ih h).imp_right (List.mem_cons_of_mem _)
  unfold tset at h
  split at h
  · exact .inr (hdel t h)
  · exact (hput _ h).imp_right (hdel t)

theorem mem_of_tget_ne {α : Type} {d : Nat → α} {t : Tab α} {k : Nat} (h : tget d t k ≠ d k) : (k, tget d t k) ∈ t := by
  induction t with
  | nil => exact absurd rfl h
  | cons y r ih =>
    simp only [tget] at h ⊢
    split
    · next e => simp [e]
    · next e =>
      rw [if_neg e] at h
      exact List.mem_cons_of_mem _ (ih h)

theorem wait_of_nobodyWaits {s : Chip} (h : nobodyWaits s = true) (t i : Nat) : (getStrand s t i).wait = none := by
  by_cases hd : getStrand s t i = ({} : Strand)
  · rw [hd]
  · have := List.all_eq_true.1 h _ (mem_of_tget_ne (d := fun _ => ({} : Strand)) hd)
    exact of_decide_eq_true this

theorem nobodyWaits_setStrand {s : Chip} (h : nobodyWaits s = true) (t i : Nat) {x : Strand} (hx : x.wait = none) :
    nobodyWaits (setStrand s t i x) = true := by
  refine List.all_eq_true.2 fun y hy => decide_eq_true ?_
  rcases mem_tset (show y ∈ tset (fun _ => ({} : Strand)) (skey t i) x s.strands from hy) with rfl | hy
  · exact hx
  · exact of_decide_eq_true (List.all_eq_true.1 h y hy)

theorem nobodyWaits_of_strands {s u : Chip} (h : nobodyWaits s = true) (hs : u.strands = s.strands) : nobodyWaits u = true := by
  unfold nobodyWaits
  rw [hs]
  exact h

theorem tilesWaiting_nobody {s : Chip} (h : nobodyWaits s = true) (k : WaitKind) : tilesWaiting s k = [] := by
  have hnil : s.strands.filter (fun x => decide (x.2.wait.map (·.kind) = some k)) = [] :=
    List.filter_eq_nil_iff.2 fun x hx => by
      have := of_decide_eq_true (List.all_eq_true.1 h x hx)
      simp [this]
  unfold tilesWaiting
  rw [hnil]
  rfl

theorem retryTile_nobody {s : Chip} (h : nobodyWaits s = true) (t : Nat) : retryTile s t = s :=
  retryTile_quiet (List.all_eq_true.2 fun i _ => decide_eq_true (wait_of_nobodyWaits h t i))

theorem endFences_nobody {s : Chip} (h : nobodyWaits s = true) : endFences s = s := by
  unfold endFences
  rw [tilesWaiting_nobody h]
  rfl

/-- What an answer leaves, where no strand waits: the requests, and the registers of the fabric. -/
structure AnsKept (s u : Chip) : Prop where
  keep : nobodyWaits s = true → nobodyWaits u = true ∧ u.fab.reqs = s.fab.reqs ∧ u.fab.waiting = s.fab.waiting ∧
    ∀ k, 0x00C00000 ≤ k → k < 0x00E00000 → barGet u k = barGet s k

theorem ansKept_refl (s : Chip) : AnsKept s s := ⟨fun h => ⟨h, rfl, rfl, fun _ _ _ => rfl⟩⟩

theorem ansKept_trans {s u v : Chip} (h : AnsKept s u) (g : AnsKept u v) : AnsKept s v := by
  refine ⟨fun hs => ?_⟩
  obtain ⟨hu, h1, h2, h3⟩ := h.keep hs
  obtain ⟨hv, g1, g2, g3⟩ := g.keep hu
  exact ⟨hv, g1.trans h1, g2.trans h2, fun k ha hb => (g3 k ha hb).trans (h3 k ha hb)⟩

theorem ansKept_ite {c : Prop} [Decidable c] {s u v : Chip} (h : AnsKept s u) (g : AnsKept s v) : AnsKept s (if c then u else v) := by
  split
  · exact h
  · exact g

/-- The strands, the requests and the registers stay. -/
theorem ansKept_same {s u : Chip} (hs : u.strands = s.strands) (hr : u.fab.reqs = s.fab.reqs) (hw : u.fab.waiting = s.fab.waiting)
    (hb : u.bar = s.bar) : AnsKept s u :=
  ⟨fun h => ⟨nobodyWaits_of_strands h hs, hr, hw, fun k _ _ => by unfold barGet; rw [hb]⟩⟩

theorem ansKept_fabMod (s : Chip) {f : Fab → Fab} (hr : ∀ x, (f x).reqs = x.reqs) (hw : ∀ x, (f x).waiting = x.waiting) :
    AnsKept s (fabMod s f) := ansKept_same rfl (hr _) (hw _) rfl

theorem ansKept_onlyBar {ks : List Nat} {s u : Chip} (h : onlyBar ks s u) (hk : ∀ k, k ∈ ks → k < 0x00C00000 ∨ 0x00E00000 ≤ k) :
    AnsKept s u := ⟨fun hq => ⟨nobodyWaits_of_strands hq (strands_of_onlyBar h), by rw [h.1], by rw [h.1], fun k h1 h2 =>
      h.2 k fun hm => by have := hk k hm; omega⟩⟩

theorem ansKept_modStrand (s : Chip) (t i : Nat) {f : Strand → Strand} (hf : ∀ x, x.wait = none → (f x).wait = none) :
    AnsKept s (modStrand s t i f) :=
  ⟨fun h => ⟨nobodyWaits_setStrand h t i (hf _ (wait_of_nobodyWaits h t i)), rfl, rfl, fun _ _ _ => rfl⟩⟩

theorem ansKept_retryTile (s : Chip) (t : Nat) : AnsKept s (retryTile s t) := ⟨fun h => by
  rw [retryTile_nobody h]
  exact (ansKept_refl s).keep h⟩

theorem ansKept_setTile (s : Chip) (t : Nat) (y : Tile) : AnsKept s (setTile s t y) := ansKept_same rfl rfl rfl rfl

theorem ansKept_readWord (s : Chip) (t wi : Nat) : AnsKept s (readWord s t wi).1 := by
  have hecc : ∀ k, k ∈ [aTILE_ECC t] → k < 0x00C00000 ∨ 0x00E00000 ≤ k := fun k hk => by
    rw [List.mem_singleton.1 hk]
    unfold aTILE_ECC
    omega
  have he : ∀ (s : Chip) (hi lo k : Nat), AnsKept s (fsat s (aTILE_ECC t) hi lo k) := fun s hi lo k =>
    ansKept_onlyBar (onlyBar_fsat s hi lo k (List.mem_singleton_self _)) hecc
  have he' : ∀ (s : Chip) (hi lo k : Nat), AnsKept s (fset s (aTILE_ECC t) hi lo k) := fun s hi lo k =>
    ansKept_onlyBar (onlyBar_fset s hi lo k (List.mem_singleton_self _)) hecc
  have hce : ∀ s : Chip, AnsKept s (noteCE s) := fun s => ansKept_same rfl rfl rfl rfl
  unfold readWord
  simp only
  split
  · exact ansKept_refl s
  · split
    · split
      · exact ansKept_refl s
      · exact ansKept_ite (ansKept_trans (ansKept_trans (he ..) (hce _)) (ansKept_setTile ..)) (ansKept_trans (he ..) (hce _))
    · exact ansKept_trans (ansKept_trans (ansKept_trans (he ..) (he' ..)) (he' ..)) (ansKept_setTile ..)

theorem ansKept_ctrBank (s : Chip) (t : Nat) (w : Bool) (k : Nat) : AnsKept s (ctrBank s t w k) := ansKept_same rfl rfl rfl rfl

theorem ansKept_writeSome (s : Chip) (t a k : Nat) (e : Elem) : AnsKept s (writeSome s t a k e) :=
  ansKept_ite (ansKept_setTile ..) (ansKept_trans (ansKept_trans (ansKept_ctrBank s t false 1) (ansKept_readWord ..)) (ansKept_setTile ..))

theorem ansKept_putBytes (t k : Nat) (s : Chip) (a : Nat) (bs : List (Byte × Bool)) : AnsKept s (putBytes t k s a bs) := by
  induction k generalizing s a bs with
  | zero => exact ansKept_refl s
  | succ k ih => exact ansKept_ite (ansKept_refl s) (ansKept_trans (ansKept_writeSome ..) (ih _ _ _))

theorem ansKept_storeMarked (s : Chip) (t a : Nat) (bs : List (Byte × Bool)) : AnsKept s (storeMarked s t a bs) :=
  ansKept_trans (ansKept_putBytes ..) (ansKept_ctrBank ..)

-- Answers (R574).

theorem wait_wrS (x : Strand) (i v : Nat) (pz : Bool) : (wrS x i v pz).wait = x.wait := by
  unfold wrS
  split <;> rfl

theorem ansKept_giveReg (s : Chip) (o : FOwner) (rd v : Nat) (pz : Bool) : AnsKept s (giveReg s o rd v pz) := by
  unfold giveReg
  split
  · exact ansKept_refl s
  · split
    · exact ansKept_trans (ansKept_modStrand s _ _ (f := fun x => wrS { x with busy := tmark x.busy (codeS rd) false } rd
        (if pz then 0 else v) pz) fun x hx => (wait_wrS ..).trans hx) (ansKept_retryTile ..)
    · exact ansKept_refl s

theorem ansKept_failFence (s : Chip) (o : FOwner) (rank : Nat) : AnsKept s (failFence s o rank) := by
  unfold failFence
  split
  · exact ansKept_refl s
  · exact ansKept_modStrand s _ _ (f := fun x => { x with fenceFail := if x.fenceFail.contains rank then x.fenceFail else rank :: x.fenceFail })
      fun _ hx => hx

theorem ansKept_postFault (s : Chip) (t i : Nat) (f : AFault) : AnsKept s (postFault s t i f) :=
  ansKept_modStrand s t i (f := fun x => { x with pend := x.pend ++ [f] }) fun _ hx => hx

theorem ansKept_endOp (s : Chip) (o : FOp) : AnsKept s (endOp s o) := by
  have h1 : AnsKept s (fabMod s (fun f => { f with ops := f.ops.filter (fun x => x.id != o.id) })) := ansKept_same rfl rfl rfl rfl
  unfold endOp
  simp only
  generalize fabMod s _ = u at *
  split
  · exact h1
  · next t i ho =>
    have hstatus : AnsKept u (tileStatus u t o.code) := ansKept_onlyBar (onlyBar_fset (ks := [aTILE_STATUS t]) _ _ _ _ (by simp)) fun k hk => by
      rw [List.mem_singleton.1 hk]
      unfold aTILE_STATUS
      omega
    split
    · exact ansKept_trans h1 (ansKept_trans hstatus (ansKept_trans (ansKept_postFault ..) (ansKept_retryTile ..)))
    · split
      · exact ansKept_trans h1 (ansKept_trans (ansKept_setTile ..) (ansKept_retryTile ..))
      · exact h1

theorem ansKept_opPart (s : Chip) (r : FReq) (value marks code : Nat) : AnsKept s (opPart s r value marks code) := by
  unfold opPart
  split
  · exact ansKept_refl s
  · next o ho =>
    have h1 : AnsKept s (if o.kind == 1 && code == 0 then
        (match ownerStrand o.owner with
          | none => s
          | some (t, _) => storeMarked s t (o.laddr + r.off) (withMarks (leBytes r.operand value) marks))
      else s) := by
      refine ansKept_ite ?_ (ansKept_refl s)
      split
      · exact ansKept_refl s
      · exact ansKept_storeMarked ..
    simp only
    refine ansKept_ite (ansKept_trans h1 (ansKept_trans (ansKept_fabMod _ ?_ ?_) (ansKept_endOp ..))) (ansKept_trans h1 (ansKept_fabMod _ ?_ ?_))
    all_goals exact fun _ => rfl

theorem ansKept_dmaFabricError (s : Chip) (q slot code : Nat) : AnsKept s (dmaFabricError s q slot code) := by
  unfold dmaFabricError
  split
  · exact ansKept_refl s
  · split
    · unfold failX stopX endX
      refine ansKept_ite (ansKept_ite ?_ ?_) ?_ <;> exact ansKept_same rfl rfl rfl rfl
    · exact ansKept_same rfl rfl rfl rfl

theorem ansKept_keepGranule (s : Chip) (r : FReq) (data : List Byte) (marks : Nat) : AnsKept s (keepGranule s r data marks) :=
  ansKept_same rfl rfl rfl rfl

theorem ansKept_answer (s : Chip) (r : FReq) (value marks code : Nat) : AnsKept s (answer s r value marks code) := by
  unfold answer
  simp only
  have h1 : AnsKept s (match r.rd with
    | none => s
    | some rd =>
      if r.operand == 256 && r.kind == 0 then
        giveReg (if code == 0 then keepGranule s r (leBytes 256 value) marks else s) r.owner rd (value / 2 ^ (8 * r.off) % 2 ^ 64)
          (markAt marks r.off || code != 0)
      else giveReg s r.owner rd value (marks != 0 || code != 0)) := by
    split
    · exact ansKept_refl s
    · exact ansKept_ite (ansKept_trans (ansKept_ite (ansKept_keepGranule ..) (ansKept_refl s)) (ansKept_giveReg ..)) (ansKept_giveReg ..)
  have h2 : ∀ u, AnsKept u (if r.covered && (marks != 0 || code != 0 || r.poison != 0) then failFence u r.owner r.rank else u) := fun u =>
    ansKept_ite (ansKept_failFence ..) (ansKept_refl u)
  have h3 : ∀ u, AnsKept u (if r.op != 0 then opPart u r value marks code else u) := fun u =>
    ansKept_ite (ansKept_opPart ..) (ansKept_refl u)
  have h4 : ∀ u, AnsKept u (if r.owner.tile == 0xFFF && code != 0 then dmaFabricError u r.owner.strand r.off code else u) := fun u =>
    ansKept_ite (ansKept_dmaFabricError ..) (ansKept_refl u)
  exact ansKept_trans (ansKept_trans (ansKept_trans h1 (h2 _)) (h3 _)) (h4 _)

theorem ansKept_answers (l : List FReq) (code : Nat) (s : Chip) : AnsKept s (forEach l (fun st r => answer st r 0 0 code) s) :=
  forEach_keeps (R := AnsKept) ansKept_refl (fun _ _ _ => ansKept_trans) (fun r _ u => ansKept_answer u r 0 0 code) s

theorem fabDrain_idle {s : Chip} (h : s.fab.waiting = []) (n : Nat) : fabDrain n s = s := by
  cases n with
  | zero => rfl
  | succ n => simp [fabDrain, h]

/-- A job's requests fail: those to the ranks `hit` leave, and the registers of the fabric stay. -/
theorem failReqs_spec {s : Chip} (hq : nobodyWaits s = true) (hw : s.fab.waiting = []) (p : Nat) (hit : Nat → Bool) (code : Nat) :
    nobodyWaits (failReqs s p hit code) = true ∧
      (failReqs s p hit code).fab.reqs = s.fab.reqs.filter (fun r => !(r.owner.part == p && hit r.rank)) ∧
      ∀ k, 0x00C00000 ≤ k → k < 0x00E00000 → barGet (failReqs s p hit code) k = barGet s k := by
  obtain ⟨u, hu⟩ : ∃ u, u = fabMod s (fun f => { f with
    reqs := f.reqs.filter (fun r => !(r.owner.part == p && hit r.rank))
    waiting := f.waiting.filter (fun r => !(r.owner.part == p && hit r.rank))
    gathers := f.gathers.filter (fun g => !(g.part == p && hit g.rank)) }) := ⟨_, rfl⟩
  have huq : nobodyWaits u = true := hu ▸ hq
  have huw : u.fab.waiting = [] := by
    rw [hu]
    change s.fab.waiting.filter _ = []
    rw [hw]
    rfl
  have hur : u.fab.reqs = s.fab.reqs.filter (fun r => !(r.owner.part == p && hit r.rank)) := by
    rw [hu]
    rfl
  have hub : ∀ k, barGet u k = barGet s k := fun k => by
    rw [hu]
    rfl
  obtain ⟨v, hv⟩ : ∃ v, v = forEach ((s.fab.reqs ++ s.fab.waiting).filter (fun r => r.owner.part == p && hit r.rank) ++ gatherReqs s p hit)
    (fun st r => answer st r 0 0 code) u := ⟨_, rfl⟩
  obtain ⟨hvq, hvr, hvw, hvb⟩ := (hv ▸ ansKept_answers _ code u : AnsKept u v).keep huq
  have hfail : failReqs s p hit code = v := by
    unfold failReqs
    simp only
    rw [← hu, ← hv, fabDrain_idle (hvw.trans huw), endFences_nobody hvq]
  rw [hfail]
  exact ⟨hvq, hvr.trans hur, fun k h1 h2 => (hvb k h1 h2).trans (hub k)⟩

-- The clauses.

theorem ackLostClause {s : State} {a : FabAck} (h : s.chip.fab.reqs.find? (fun r => r.dest == a.dest && r.seqNo == a.seqNo) = none) :
    exec (.fabricAckArrival a) s = .next s :=
  onChip_next (c := s.chip) (f := cmdFabricAckArrival a) (by simp only [cmdFabricAckArrival, h])

theorem ackClause {s : State} {a : FabAck} (hq : nobodyWaits s.chip = true) (r : FReq) (rd : Nat) (hreqs : s.chip.fab.reqs = [r])
    (hwaiting : s.chip.fab.waiting = []) (hdest : r.dest = a.dest) (hseq : r.seqNo = a.seqNo) (hrd : r.rd = some rd)
    (hkind : r.kind = 0) (hop8 : r.operand = 8) (hop : r.op = 0) (hcov : r.covered = false) (htile : r.owner.tile < 144)
    (hstrand : r.owner.strand < 8) (hbusy : tmem (getStrand s.chip r.owner.tile r.owner.strand).busy (codeS rd) = true)
    (hcode : a.code ≠ 0x3010) :
    let x := getStrand s.chip r.owner.tile r.owner.strand
    let bad := a.poison != 0 || a.code != 0
    ∃ t, exec (.fabricAckArrival a) s = .next t ∧ t.chip.fab.reqs = [] ∧
      getStrand t.chip r.owner.tile r.owner.strand =
        wrS { x with busy := tmark x.busy (codeS rd) false } rd (if bad then 0 else a.value) bad ∧
      t.chip.tiles = s.chip.tiles ∧ t.chip.bar = s.chip.bar ∧
      ∀ k, k ≠ skey r.owner.tile r.owner.strand → tget (fun _ => {}) t.chip.strands k = tget (fun _ => {}) s.chip.strands k := by
  intro x bad
  obtain ⟨u, hu⟩ : ∃ u, u = fabMod (rxCount s.chip r.owner.part r.dest r.addr (32 + 8)) (fun f => { f with reqs := [] }) := ⟨_, rfl⟩
  have hrx : ∀ n, rxCount s.chip r.owner.part r.dest r.addr n = { s.chip with ctrLive := (rxCount s.chip r.owner.part r.dest r.addr n).ctrLive } := fun n => by
    unfold rxCount
    split <;> rfl
  have huframe : u.fab.reqs = [] ∧ u.fab.waiting = [] ∧ u.strands = s.chip.strands ∧ u.tiles = s.chip.tiles ∧ u.bar = s.chip.bar := by
    rw [hu, hrx]
    exact ⟨rfl, hwaiting, rfl, rfl, rfl⟩
  obtain ⟨hur, huw, hus, hut, hub⟩ := huframe
  have hx : getStrand u r.owner.tile r.owner.strand = x := getStrand_of_strands hus ..
  have huq := nobodyWaits_of_strands hq hus
  obtain ⟨v, hv⟩ : ∃ v, v = modStrand u r.owner.tile r.owner.strand (fun x =>
    wrS { x with busy := tmark x.busy (codeS rd) false } rd (if bad then 0 else a.value) bad) := ⟨_, rfl⟩
  have hvq : nobodyWaits v = true := hv ▸ nobodyWaits_setStrand huq _ _ ((wait_wrS ..).trans (wait_of_nobodyWaits huq ..))
  have hdrop : dropReq (rxCount s.chip r.owner.part r.dest r.addr (32 + 8)) r = u := by
    have hX := hrx (32 + 8)
    obtain ⟨X, hXeq⟩ : ∃ X, X = rxCount s.chip r.owner.part r.dest r.addr (32 + 8) := ⟨_, rfl⟩
    rw [← hXeq] at hX hu ⊢
    have hXr : X.fab.reqs = [r] := by rw [hX]; exact hreqs
    have hfilter : X.fab.reqs.filter (fun x => !(x.dest == r.dest && x.seqNo == r.seqNo)) = [] := by simp [hXr]
    have hmod : fabMod X (fun f => { f with reqs := f.reqs.filter (fun x => !(x.dest == r.dest && x.seqNo == r.seqNo)) }) = u := by
      rw [hu]
      unfold fabMod
      simp only [hfilter]
    rw [dropReq, hmod, fabDrain_idle huw]
  have hanswer : answer u r a.value a.poison a.code = v := by
    have howner : ownerStrand r.owner = some (r.owner.tile, r.owner.strand) := if_pos ⟨htile, hstrand⟩
    have hbusyU : tmem (getStrand u r.owner.tile r.owner.strand).busy (codeS rd) = true := by
      rw [hx]
      exact hbusy
    have hgive : giveReg u r.owner rd a.value (a.poison != 0 || a.code != 0) = v := by
      unfold giveReg
      simp only [howner, hbusyU, if_true]
      rw [show modStrand u r.owner.tile r.owner.strand _ = v from hv.symm, retryTile_nobody hvq]
    have htile' : (r.owner.tile == 0xFFF) = false := by simp; omega
    unfold answer
    simp [hrd, hop8, hcov, hop, htile', hgive]
  have hexec : exec (.fabricAckArrival a) s = .next { s with chip := v } :=
    onChip_next (f := cmdFabricAckArrival a) (by
      unfold cmdFabricAckArrival
      have hfind : s.chip.fab.reqs.find? (fun r => r.dest == a.dest && r.seqNo == a.seqNo) = some r := by
        simp [hreqs, hdest, hseq]
      rw [hfind]
      simp only [hkind, hop8, beq_self_eq_true, if_true, hdrop, hanswer, endFences_nobody hvq, beq_eq_false_iff_ne.2 hcode,
        Bool.false_eq_true, if_false])
  rw [hv] at hexec
  refine ⟨_, hexec, hur, ?_, hut, hub, fun k hk => ?_⟩
  · refine (getStrand_setStrand_same ..).trans ?_
    rw [hx]
  · rw [← hus]
    exact tget_tset_other (fun _ => ({} : Strand)) hk _ _

theorem timeoutIdleClause {s : State} {dest q : Nat} (h : s.chip.fab.reqs.find? (fun r => r.dest == dest && r.seqNo == q) = none) :
    exec (.fabricReplayTimeout dest q) s = .next s ∧ exec (.fabricOpTimeout dest q) s = .next s :=
  ⟨onChip_next (c := s.chip) (f := cmdFabricReplayTimeout dest q) (by simp only [cmdFabricReplayTimeout, h]),
    onChip_next (c := s.chip) (f := cmdFabricOpTimeout dest q) (by simp only [cmdFabricOpTimeout, h])⟩

def putCharge (u s : Chip) : Chip := { s with ctrLive := u.ctrLive, parts := u.parts }

theorem parts_charge : Parts putCharge := ⟨fun _ _ _ _ => rfl, fun _ _ => rfl⟩

theorem within_ctrAdd (s : Chip) (p i n : Nat) : within putCharge [] s (ctrAdd s p i n) := ⟨rfl, fun _ _ => rfl⟩

theorem within_modPartCharge (s : Chip) (p : Nat) (f : Part → Part) : within putCharge [] s (modPart s p f) := ⟨rfl, fun _ _ => rfl⟩

theorem withinCharge_bwSetUsed (s : Chip) (p reg tile v : Nat) : within putCharge [] s (bwSetUsed s p reg tile v) := within_modPartCharge ..

/-- The registers that a charge may count in. -/
def bwKeys : List Nat := (List.range 16).map aBW_STATUS

/-- A charge touches the counters, the partition's budget and its BW_STATUS. -/
theorem within_charge (s : Chip) (p reg tile n : Nat) : within putCharge bwKeys s (charge s p reg tile n) := by
  by_cases hp : 16 ≤ p
  · rw [charge, if_pos (by simp [hp])]
    exact within_refl parts_charge
  · have hb : within putCharge bwKeys s (fsat s (aBW_STATUS p) 63 32 1) :=
      within_bar parts_charge (onlyBar_fsat s 63 32 1 (List.mem_map.2 ⟨p, List.mem_range.2 (by omega), rfl⟩))
    unfold charge
    simp only
    generalize fsat s (aBW_STATUS p) 63 32 1 = u at *
    have hc := within_trans parts_charge hb (within_mono (by simp) (within_ctrAdd u p 163 n))
    generalize ctrAdd u p 163 n = v at *
    exact within_ite (within_refl parts_charge) (within_ite (within_mono (by simp) (withinCharge_bwSetUsed ..))
      (within_trans parts_charge hc (within_mono (by simp) (within_modPartCharge ..))))

theorem within_sendPacket (s : Chip) (r : FReq) (l : Nat) : within putCharge bwKeys s (sendPacket s r l) := by
  unfold sendPacket
  exact within_trans parts_charge (within_ite (within_refl parts_charge) (within_mono (ks := []) (by simp) (within_ctrAdd ..))) (within_charge ..)

theorem replayClause {s : State} {dest q : Nat} (r : FReq) (h : s.chip.fab.reqs.find? (fun r => r.dest == dest && r.seqNo == q) = some r) :
    ∃ t, exec (.fabricReplayTimeout dest q) s = .next t ∧ countedOne s t aFAB_ERR 15 0 ∧ t.chip.strands = s.chip.strands ∧
      t.chip.tiles = s.chip.tiles ∧ t.chip.fab.reqs = s.chip.fab.reqs.map (fun x => if x.dest == dest && x.seqNo == q then
        { x with link := fabLink s.chip (devId s.chip) dest r.addr, epoch := fget s.chip aFAB_STATUS 47 40 } else x) := by
  have hexec : exec (.fabricReplayTimeout dest q) s = .next { s with chip := resend s.chip r } :=
    onChip_next (f := cmdFabricReplayTimeout dest q) (by simp only [cmdFabricReplayTimeout, h])
  obtain ⟨hdest, hseq⟩ : r.dest = dest ∧ r.seqNo = q := by
    have := List.find?_some h
    simpa using this
  obtain ⟨u, hu⟩ : ∃ u, u = fsat s.chip aFAB_ERR 15 0 1 := ⟨_, rfl⟩
  have hub : onlyBar [aFAB_ERR] s.chip u := hu ▸ onlyBar_fsat s.chip 15 0 1 (List.mem_singleton_self _)
  have hcount : fget u aFAB_ERR 15 0 = min (fget s.chip aFAB_ERR 15 0 + 1) (2 ^ (15 + 1 - 0) - 1) :=
    hu ▸ fget_fsat_same _ _ _ _ _ (by omega) (by omega)
  obtain ⟨l, hl⟩ : ∃ l, l = fabLink s.chip (devId s.chip) r.dest r.addr := ⟨_, rfl⟩
  obtain ⟨v, hv⟩ : ∃ v, v = sendPacket u r l := ⟨_, rfl⟩
  have hvw := within_sendPacket u r l
  rw [← hv] at hvw
  have hkey : ∀ k, 0x00C00000 ≤ k → k ∉ bwKeys := fun k hk hm => by
    obtain ⟨p, hp, rfl⟩ := List.mem_map.1 hm
    have := List.mem_range.1 hp
    unfold aBW_STATUS at hk
    omega
  have hepoch : fget v aFAB_STATUS 47 40 = fget s.chip aFAB_STATUS 47 40 := by
    rw [fget_of_barGet (hvw.2 _ (hkey _ (by decide))), fget_of_onlyBar hub (by decide)]
  have herr : fget v aFAB_ERR 15 0 = fget u aFAB_ERR 15 0 := fget_of_barGet (hvw.2 _ (hkey _ (by decide))) 15 0
  have hstrands : v.strands = s.chip.strands := by rw [hvw.1, hub.1]; rfl
  have htiles : v.tiles = s.chip.tiles := by rw [hvw.1, hub.1]; rfl
  have hreqs : v.fab.reqs = s.chip.fab.reqs := by rw [hvw.1, hub.1]; rfl
  have hresend : resend s.chip r = fabMod v (fun f => { f with reqs := f.reqs.map (fun x =>
      if x.dest == r.dest && x.seqNo == r.seqNo then { x with link := l, epoch := fget v aFAB_STATUS 47 40 } else x) }) := by
    rw [resend, ← hl, ← hu, ← hv]
  rw [hresend] at hexec
  refine ⟨_, hexec, herr.trans hcount, hstrands, htiles, ?_⟩
  change v.fab.reqs.map _ = _
  rw [hreqs, hepoch, hl, hdest, hseq]

theorem onlyHasp_raiseIrq (s : Chip) (fn vec : Nat) : onlyHasp s (raiseIrq s fn vec) := rfl

/-- What a dead target writes into the slot of the job that lost it, and into the fabric's status. -/
def deadRegs (s : Chip) (p rank : Nat) : Chip :=
  fsetb (fset (fset (jobEvent s p 0x3020) (aFJ_STATUS p) 3 0 5) (aFJ_STATUS p) 47 36 rank) (aFJ_CTL p) 4 true

theorem onlyBar_deadRegs (s : Chip) (p rank : Nat) : onlyBar [aFJ_STATUS p, aFAB_STATUS, aFJ_CTL p] s (deadRegs s p rank) := by
  unfold deadRegs jobEvent fabCode
  exact onlyBar_trans (onlyBar_trans (onlyBar_trans (onlyBar_trans (onlyBar_fset _ _ _ _ (by simp)) (onlyBar_fset _ _ _ _ (by simp)))
    (onlyBar_fset _ _ _ _ (by simp))) (onlyBar_fset _ _ _ _ (by simp))) (onlyBar_fsetb _ _ _ (by simp))

theorem deadRegs_spec (s : Chip) {p : Nat} (hp : p < 16) (rank : Nat) :
    fget (deadRegs s p rank) (aFJ_STATUS p) 3 0 = 5 ∧ fget (deadRegs s p rank) (aFJ_STATUS p) 47 36 = rank % 4096 ∧
      fget (deadRegs s p rank) (aFJ_STATUS p) 63 48 = 0x3020 ∧ fbit (deadRegs s p rank) (aFJ_CTL p) 4 = true := by
  have hctl : aFJ_STATUS p ≠ aFJ_CTL p := by unfold aFJ_STATUS aFJ_CTL; omega
  have hstatus : aFJ_STATUS p ≠ aFAB_STATUS := by unfold aFJ_STATUS aFAB_STATUS; omega
  unfold deadRegs jobEvent fabCode
  refine ⟨?_, ?_, ?_, fbit_fsetb_same _ _ _ _ (by omega)⟩
  · rw [show ∀ u b, fget (fsetb u (aFJ_CTL p) 4 b) (aFJ_STATUS p) 3 0 = fget u (aFJ_STATUS p) 3 0 from
      fun u b => fget_fset_other _ _ _ _ _ _ hctl, fget_fset_field _ _ _ _ _ _ _ (by omega) (by omega) (by omega) (by omega),
      fget_fset_same _ _ _ _ _ (by omega) (by omega)] <;> rfl
  · rw [show ∀ u b, fget (fsetb u (aFJ_CTL p) 4 b) (aFJ_STATUS p) 47 36 = fget u (aFJ_STATUS p) 47 36 from
      fun u b => fget_fset_other _ _ _ _ _ _ hctl, fget_fset_same _ _ _ _ _ (by omega) (by omega)] <;> rfl
  · rw [show ∀ u b, fget (fsetb u (aFJ_CTL p) 4 b) (aFJ_STATUS p) 63 48 = fget u (aFJ_STATUS p) 63 48 from
      fun u b => fget_fset_other _ _ _ _ _ _ hctl, fget_fset_field _ _ _ _ _ _ _ (by omega) (by omega) (by omega) (by omega),
      fget_fset_field _ _ _ _ _ _ _ (by omega) (by omega) (by omega) (by omega), fget_fset_other _ _ _ _ _ _ hstatus,
      fget_fset_same _ _ _ _ _ (by omega) (by omega)] <;> rfl

theorem opTimeoutClause {s : State} {dest q : Nat} (hq : nobodyWaits s.chip = true) (r : FReq)
    (h : s.chip.fab.reqs.find? (fun r => r.dest == dest && r.seqNo == q) = some r) (hp : r.owner.part < 16)
    (hwaiting : s.chip.fab.waiting = []) :
    ∃ t, exec (.fabricOpTimeout dest q) s = .next t ∧
      fget t.chip (aFJ_STATUS r.owner.part) 3 0 = 5 ∧ fget t.chip (aFJ_STATUS r.owner.part) 47 36 = r.rank % 4096 ∧
      fget t.chip (aFJ_STATUS r.owner.part) 63 48 = 0x3020 ∧ fbit t.chip (aFJ_CTL r.owner.part) 4 = true ∧ countedOne s t aFAB_ERR 31 16 ∧
      ∀ x, x ∈ t.chip.fab.reqs → ¬(x.owner.part = r.owner.part ∧ x.rank = r.rank) := by
  have hexec : exec (.fabricOpTimeout dest q) s = .next { s with chip := deadTarget s.chip r } :=
    onChip_next (f := cmdFabricOpTimeout dest q) (by simp only [cmdFabricOpTimeout, h])
  obtain ⟨p, hpp⟩ : ∃ p, p = r.owner.part := ⟨_, rfl⟩
  rw [← hpp] at hp ⊢
  obtain ⟨u, hu⟩ : ∃ u, u = fsat s.chip aFAB_ERR 31 16 1 := ⟨_, rfl⟩
  have hub : onlyBar [aFAB_ERR] s.chip u := hu ▸ onlyBar_fsat s.chip 31 16 1 (List.mem_singleton_self _)
  have hcount : fget u aFAB_ERR 31 16 = min (fget s.chip aFAB_ERR 31 16 + 1) (2 ^ (31 + 1 - 16) - 1) :=
    hu ▸ fget_fsat_same _ _ _ _ _ (by omega) (by omega)
  have huq := nobodyWaits_of_strands hq (strands_of_onlyBar hub)
  have huw : u.fab.waiting = [] := by rw [hub.1]; exact hwaiting
  obtain ⟨hvq, hvr, hvb⟩ := failReqs_spec huq huw p (fun k => k == r.rank) 0x3020
  obtain ⟨v, hv⟩ : ∃ v, v = failReqs u p (fun k => k == r.rank) 0x3020 := ⟨_, rfl⟩
  rw [← hv] at hvq hvr hvb
  obtain ⟨e, he⟩ : ∃ e, e = deadRegs v p r.rank := ⟨_, rfl⟩
  have heb : onlyBar [aFJ_STATUS p, aFAB_STATUS, aFJ_CTL p] v e := he ▸ onlyBar_deadRegs v p r.rank
  obtain ⟨h3, h47, h63, hbit⟩ : fget e (aFJ_STATUS p) 3 0 = 5 ∧ fget e (aFJ_STATUS p) 47 36 = r.rank % 4096 ∧
      fget e (aFJ_STATUS p) 63 48 = 0x3020 ∧ fbit e (aFJ_CTL p) 4 = true := he ▸ deadRegs_spec v hp r.rank
  obtain ⟨w, hw, hweq⟩ : ∃ w, onlyHasp e w ∧ deadTarget s.chip r = forEach (tilesWaiting w .ward) retryTile w := by
    refine ⟨_, ?_, by simp only [deadTarget]; rw [← hpp, ← hu, ← hv]⟩
    rw [he]
    exact onlyHasp_trans (onlyHasp_raiseIrq _ _ _) (onlyHasp_toController _ _ _ _ _)
  have hweq : deadTarget s.chip r = w := by
    rw [hweq, tilesWaiting_nobody (nobodyWaits_of_strands (nobodyWaits_of_strands hvq (strands_of_onlyBar heb)) (strands_of_onlyHasp hw))]
    rfl
  have hbar := barGet_of_onlyHasp hw
  have hreqs : w.fab.reqs = s.chip.fab.reqs.filter (fun x => !(x.owner.part == p && x.rank == r.rank)) := by
    rw [show w.fab = e.fab by unfold onlyHasp at hw; rw [hw], show e.fab = v.fab by rw [heb.1], hvr, show u.fab = s.chip.fab by rw [hub.1]]
  have hkey : aFAB_ERR ∉ [aFJ_STATUS p, aFAB_STATUS, aFJ_CTL p] := by
    simp only [List.mem_cons, List.not_mem_nil, aFAB_ERR, aFJ_STATUS, aFAB_STATUS, aFJ_CTL, or_false, not_or]
    omega
  have herr : barGet w aFAB_ERR = barGet u aFAB_ERR := by
    rw [hbar, heb.2 _ hkey]
    exact hvb _ (by unfold aFAB_ERR; omega) (by unfold aFAB_ERR; omega)
  rw [hweq] at hexec
  refine ⟨_, hexec, (fget_of_barGet (hbar _) _ _).trans h3, (fget_of_barGet (hbar _) _ _).trans h47,
    (fget_of_barGet (hbar _) _ _).trans h63, (fbit_of_barGet (hbar _) _).trans hbit, (fget_of_barGet herr _ _).trans hcount,
    fun x hx hmem => ?_⟩
  rw [show ({ s with chip := w } : State).chip.fab.reqs = w.fab.reqs from rfl, hreqs] at hx
  have := (List.mem_filter.1 hx).2
  simp [hmem.1, hmem.2] at this

/-- Settles O53. -/
theorem answersArrive : Obligations.AnswersArrive := by
  unfold Obligations.AnswersArrive
  intro s dest q a hq
  exact ⟨ackLostClause, fun r rd h1 h2 h3 h4 h5 _ _ => ackClause hq r rd h1 h2 h3 h4 h5, timeoutIdleClause, fun r h => ⟨replayClause r h, opTimeoutClause hq r h⟩⟩

end Sys2Proof.Proofs
end

section
/-! SUPPORT. Fabric requests at their target (O52). -/

namespace Sys2Proof.Proofs

open Sys2Proof.Machine

-- Runs of bytes in the banks.

theorem mread_add (m : Tab Byte) (a k n : Nat) : mread m a (k + n) = mread m a k ++ mread m (a + k) n := by
  induction k generalizing a with
  | zero => simp [mread]
  | succ k ih => rw [show k + 1 + n = k + n + 1 by omega, mread, mread, ih, show a + 1 + k = a + (k + 1) by omega]; rfl

/-- The words of a run are its bytes. -/
theorem flatMap_words (m : Tab Byte) (w n : Nat) : (List.range n).flatMap (fun j => mread m (8 * (w + j)) 8) = mread m (8 * w) (8 * n) := by
  induction n with
  | zero => rfl
  | succ n ih =>
    rw [List.range_succ, List.flatMap_append, ih, show 8 * (n + 1) = 8 * n + 8 by ring, mread_add]
    simp [Nat.mul_add]

theorem take_drop_mread (m : Tab Byte) {b d len N : Nat} (h : d + len ≤ N) : ((mread m b N).drop d).take len = mread m (b + d) len := by
  obtain ⟨r, rfl⟩ : ∃ r, N = d + (len + r) := ⟨N - d - len, by omega⟩
  rw [mread_add, List.drop_append_of_le_length (by simp), List.drop_of_length_le (by simp), List.nil_append, mread_add,
    List.take_append_of_le_length (by simp), List.take_of_length_le (by simp)]

theorem leNat_append (l r : List Byte) : leNat (l ++ r) = leNat l + 2 ^ (8 * l.length) * leNat r := by
  induction l with
  | nil => simp [leNat]
  | cons b l ih => simp only [List.cons_append, leNat, ih, List.length_cons]; ring

theorem eq_of_leNat_eq {l r : List Byte} (hlen : l.length = r.length) (h : leNat l = leNat r) : l = r := by
  rw [← leBytes_leNat l, ← leBytes_leNat r, hlen, h]

theorem marksOf_clean (l : List Byte) : marksOf (l.map (fun b => (b, false))) = 0 := by
  induction l with
  | nil => rfl
  | cons b l ih => simpa [marksOf, b2n] using ih

theorem withMarks_zero (l : List Byte) : withMarks l 0 = l.map (fun b => (b, false)) := by
  induction l with
  | nil => rfl
  | cons b l ih => simpa [withMarks] using ih

/-- A read of clean words delivers their bytes and changes nothing but the counters. -/
theorem readMarked_clean {s : State} {tile a n : Nat} (h : wordsClean s tile a n = true) (hn : 0 < n) :
    readMarked s.chip tile a n = (ctrBank s.chip tile false (lineCount a n), (bankBytes s tile a n).map (fun b => (b, false))) := by
  have hread := readWords_sound (s := s.chip) (t := tile) (wi := a / 8) (n := (a + n - 1) / 8 - a / 8 + 1)
    (fun j hj => wordSound_of_wordsClean h (by omega) (by omega))
  unfold readMarked
  simp only [if_neg (show ¬((n == 0) = true) by simp only [beq_iff_eq]; omega), hread, Prod.mk.injEq, true_and]
  rw [List.flatMap_map, show (fun j => (leBytes 8 (plain (cellWord (getTile s.chip tile) (a / 8 + j))).v).map
      (fun b => (b, (plain (cellWord (getTile s.chip tile) (a / 8 + j))).pz))) =
      fun j => (mread (getTile s.chip tile).mem (8 * (a / 8 + j)) 8).map (fun b => (b, false)) from
    funext fun j => congrArg (List.map _) (by
      have := leBytes_leNat (mread (getTile s.chip tile).mem (8 * (a / 8 + j)) 8)
      rwa [mread_length] at this),
    ← List.map_flatMap, flatMap_words, ← List.map_drop, ← List.map_take, take_drop_mread _ (by omega), show 8 * (a / 8) + a % 8 = a by omega]
  rfl

/-- Whole words of bytes without marks, written one after another. -/
theorem putBytes_words {t n : Nat} (s : Chip) {a : Nat} (l : List Byte) (ha : a % 8 = 0) (hl : l.length % 8 = 0) (hn : l.length ≤ n) :
    onlyTile t s (putBytes t n s a (l.map (fun b => (b, false)))) ∧
      wrote s (putBytes t n s a (l.map (fun b => (b, false)))) t a l.length (leNat l) ∧
      (getTile (putBytes t n s a (l.map (fun b => (b, false)))) t).ac = (getTile s t).ac := by
  have hnil : ∀ u : Chip, onlyTile t u u ∧ wrote u u t a ([] : List Byte).length (leNat []) ∧ (getTile u t).ac = (getTile u t).ac :=
    fun u => ⟨onlyTile_refl t u, ⟨fun _ _ => rfl, rfl, fun _ h => h⟩, rfl⟩
  induction n generalizing s a l with
  | zero =>
    rw [List.length_eq_zero_iff.1 (Nat.le_zero.1 hn)]
    exact hnil s
  | succ n ih =>
    by_cases hempty : l = []
    · subst hempty
      exact hnil s
    have h8 : 8 ≤ l.length := by
      have := List.length_pos_of_ne_nil hempty
      omega
    have hk : min (8 - a % 8) (l.map (fun b => (b, false))).length = 8 := by rw [List.length_map]; omega
    have hvals : ∀ q : List Byte, (q.map (fun b => (b, false))).map (·.1) = q := fun q => by simp [Function.comp_def]
    have hany : ∀ q : List Byte, (q.map (fun b => (b, false))).any (·.2) = false := fun q => by simp
    unfold putBytes
    rw [if_neg (by simp only [List.isEmpty_iff, List.map_eq_nil_iff]; rintro rfl; simp at h8)]
    simp only [hk, ← List.map_take, ← List.map_drop, hvals, hany]
    rw [show writeSome s t a 8 ⟨leNat (l.take 8), false⟩ = writeWord s t (a / 8) ⟨leNat (l.take 8), false⟩ from if_pos rfl]
    obtain ⟨ho, hw⟩ := writeWord_spec s t (a / 8) (leNat (l.take 8))
    have hac : (getTile (writeWord s t (a / 8) ⟨leNat (l.take 8), false⟩) t).ac = (getTile s t).ac := by
      rw [writeWord, getTile_setTile_same]; rfl
    have hlen8 : (l.take 8).length = 8 := by simp [h8]
    rw [show 8 * (a / 8) = a by omega, Nat.mod_eq_of_lt (by simpa [hlen8] using leNat_lt (l.take 8))] at hw
    generalize writeWord s t (a / 8) ⟨leNat (l.take 8), false⟩ = u at *
    obtain ⟨hro, hrw, hrac⟩ := ih u (a := a + 8) (l.drop 8) (by omega) (by rw [List.length_drop]; omega) (by rw [List.length_drop]; omega)
      (fun u => ⟨onlyTile_refl t u, ⟨fun _ _ => rfl, rfl, fun _ h => h⟩, rfl⟩)
    refine ⟨onlyTile_trans ho hro, ?_, hrac.trans hac⟩
    have := wrote_trans hw hrw
    rw [List.length_drop, show 8 + (l.length - 8) = l.length by omega] at this
    have hval := leNat_append (l.take 8) (l.drop 8)
    rw [List.take_append_drop, hlen8] at hval
    rwa [hval]

theorem storeMarked_words (s : Chip) {t a : Nat} (l : List Byte) (ha : a % 8 = 0) (hl : l.length % 8 = 0) :
    onlyTile t s (storeMarked s t a (l.map (fun b => (b, false)))) ∧
      wrote s (storeMarked s t a (l.map (fun b => (b, false)))) t a l.length (leNat l) ∧
      (getTile (storeMarked s t a (l.map (fun b => (b, false)))) t).ac = (getTile s t).ac := by
  obtain ⟨ho, hw, hac⟩ := putBytes_words (t := t) (n := (l.map (fun b => (b, false))).length + 1) s l ha hl (by simp)
  exact ⟨onlyTile_trans ho (onlyTile_ctrBank ..), hw, hac⟩

-- The order of a source's requests (R574).

/-- The only request that waits in its source's order is taken. -/
theorem takeNext_one {n src e : Nat} {u v : Chip} {h : FHeld} (he : tget (fun _ => 0) u.fab.expect src = e)
    (hfind : u.fab.reorder.find? (fun h => h.req.src == src && h.req.seqNo == e) = some h) (htake : takeReq u h = some v)
    (hrest : ∀ x ∈ v.fab.reorder, x.req.src = src → x.req.seqNo = e) :
    takeNext (n + 1) src u = fabMod v (fun f => { f with
      expect := tset (fun _ => 0) src ((e + 1) % 2 ^ 32) f.expect
      reorder := f.reorder.filter (fun x => !(x.req.src == src && x.req.seqNo == e)) }) := by
  have hstop : ∀ (m : Nat) (w : Chip), (∀ x ∈ w.fab.reorder, x.req.src ≠ src) → takeNext m src w = w := by
    intro m w hw
    cases m with
    | zero => rfl
    | succ m =>
      have : w.fab.reorder.find? (fun h => h.req.src == src && h.req.seqNo == tget (fun _ => 0) w.fab.expect src) = none :=
        List.find?_eq_none.2 fun x hx => by simp [hw x hx]
      rw [takeNext]
      simp only [this]
  rw [takeNext]
  simp only [he, hfind, htake]
  refine hstop _ _ fun x hx hsrc => ?_
  obtain ⟨hm, hne⟩ := List.mem_filter.1 hx
  simp [hsrc, hrest x hm hsrc] at hne

/-- A packet is counted in the live counters alone. -/
theorem rxCount_eq (s : Chip) (p src addr n : Nat) : ∃ l, rxCount s p src addr n = { s with ctrLive := l } := by
  unfold rxCount
  split
  · exact ⟨s.ctrLive, rfl⟩
  · exact ⟨_, rfl⟩

/-- A response leaves with its value and code; nothing but the counters and the budgets differs beside it. -/
theorem respond_spec (s : Chip) (p : Nat) (r : FabReq) (value marks code : Nat) :
    (respond s p r value marks code).fab = { s.fab with sent := s.fab.sent ++ [⟨r.src, r.seqNo, value, marks, code⟩] } ∧
      ∃ u, within putCharge bwKeys s u ∧ respond s p r value marks code = { u with fab := (respond s p r value marks code).fab } := by
  obtain ⟨u, hu, hr⟩ : ∃ u, within putCharge bwKeys s u ∧
      respond s p r value marks code = fabMod u (fun f => { f with sent := f.sent ++ [⟨r.src, r.seqNo, value, marks, code⟩] }) := by
    refine ⟨_, ?_, rfl⟩
    have h1 : ∀ i k : Nat, within putCharge bwKeys s (if r.src == devId s then s else ctrAdd s p i k) := fun i k =>
      within_ite (within_refl parts_charge) (within_mono (ks := []) (by simp) (within_ctrAdd ..))
    exact within_ite (within_trans parts_charge (h1 _ _) (within_charge ..)) (h1 _ _)
  have hfab : u.fab = s.fab := by rw [hu.1]; rfl
  rw [hr]
  refine ⟨?_, u, hu, rfl⟩
  rw [← hfab]
  rfl

/-- A request as it stands in its source's order, with what the Ward says of it. -/
def heldReq (s : Chip) (r : FabReq) : FHeld := ⟨r, (wardCheck s r).1, (wardCheck s r).2⟩

/-- The request counted and in its source's order. -/
def queuedReq (s : Chip) (r : FabReq) : Chip :=
  fabMod (rxCount s (wardCheck s r).2 r.src r.addr (32 + r.data.length)) (fun f => { f with reorder := f.reorder ++ [heldReq s r] })

theorem queuedReq_eq (s : Chip) (r : FabReq) :
    ∃ l, queuedReq s r = { s with ctrLive := l, fab := { s.fab with reorder := s.fab.reorder ++ [heldReq s r] } } := by
  obtain ⟨l, hl⟩ := rxCount_eq s (wardCheck s r).2 r.src r.addr (32 + r.data.length)
  exact ⟨l, by rw [queuedReq, hl]; rfl⟩

/-- What the arrival of a request that its source's order admits comes to. -/
theorem requestArrives_taken {s v : Chip} {r : FabReq} (he : tget (fun _ => 0) s.fab.expect r.src = r.seqNo)
    (hre : ∀ h, h ∈ s.fab.reorder → h.req.src ≠ r.src) (htake : takeReq (queuedReq s r) (heldReq s r) = some v)
    (hv : v.fab.reorder = s.fab.reorder ++ [heldReq s r]) :
    requestArrives s r = fabMod v (fun f => { f with
      expect := tset (fun _ => 0) r.src ((r.seqNo + 1) % 2 ^ 32) f.expect
      reorder := f.reorder.filter (fun x => !(x.req.src == r.src && x.req.seqNo == r.seqNo)) }) := by
  obtain ⟨l, hl⟩ := rxCount_eq s (wardCheck s r).2 r.src r.addr (32 + r.data.length)
  have hd : (r.seqNo + 2 ^ 32 - tget (fun _ => 0) s.fab.expect r.src) % 2 ^ 32 = 0 := by rw [he]; omega
  have hfresh : ∀ x ∈ s.fab.reorder, ¬(x.req.src == r.src && x.req.seqNo == r.seqNo) = true := fun x hx => by simp [hre x hx]
  have hnew : s.fab.reorder.any (fun h => h.req.src == r.src && h.req.seqNo == r.seqNo) = false :=
    List.any_eq_false.2 hfresh
  have hqueue : (queuedReq s r).fab.reorder = s.fab.reorder ++ [heldReq s r] ∧ (queuedReq s r).fab.expect = s.fab.expect := by
    obtain ⟨l, hl⟩ := queuedReq_eq s r
    rw [hl]
    exact ⟨rfl, rfl⟩
  have hfind : (queuedReq s r).fab.reorder.find? (fun h => h.req.src == r.src && h.req.seqNo == r.seqNo) = some (heldReq s r) := by
    rw [hqueue.1, List.find?_append, List.find?_eq_none.2 hfresh]
    simp [heldReq]
  have hgo : requestArrives s r = takeNext 257 r.src (queuedReq s r) := by
    have hsame : (rxCount s (wardCheck s r).2 r.src r.addr (32 + r.data.length)).fab = s.fab := by rw [hl]
    unfold requestArrives
    simp only [hd, hsame, hnew, Bool.or_false]
    rw [if_neg (by omega), if_neg (by simp)]
    rfl
  rw [hgo]
  refine takeNext_one (hqueue.2 ▸ he) hfind htake fun x hx hsrc => ?_
  rw [hv] at hx
  rcases List.mem_append.1 hx with hx | hx
  · exact absurd hsrc (hre x hx)
  · rw [List.mem_singleton.1 hx]
    rfl

theorem exec_arrival {s : State} {r : FabReq} (h : fabServes s.chip r.src = true) :
    exec (.fabricRequestArrival r) s = .next { s with chip := requestArrives s.chip r } :=
  onChip_next (f := cmdFabricRequestArrival r) (by simp only [cmdFabricRequestArrival, h, when, if_true])

theorem wardCode_lt (s : Chip) (r : FabReq) : (wardCheck s r).1 < 2 ^ 16 := by
  unfold wardCheck
  simp only
  split
  · exact Nat.two_pow_pos 16
  · simp only
    split <;> omega

/-- A refusal: counted, with its code, and answered (R568). -/
theorem wardDrop_spec {s : Chip} {r : FabReq} {code : Nat} (hcode : code < 2 ^ 16) (h : ∀ x, x ∈ s.fab.refused → x.1 ≠ r.src) :
    fget (wardDrop s r code) aFAB_STATUS 63 48 = code ∧
      fget (wardDrop s r code) aFAB_ERR 63 32 = min (fget s aFAB_ERR 63 32 + 1) (2 ^ (63 + 1 - 32) - 1) ∧
      (wardDrop s r code).fab.sent = s.fab.sent ++ [⟨r.src, r.seqNo, 0, 0, code⟩] ∧
      (wardDrop s r code).fab.reorder = s.fab.reorder ∧ (wardDrop s r code).tiles = s.tiles ∧ (wardDrop s r code).mem = s.mem ∧
      (wardDrop s r code).strands = s.strands := by
  obtain ⟨u, hu⟩ : ∃ u, u = fabCode (fsat s aFAB_ERR 63 32 1) code := ⟨_, rfl⟩
  have hb : onlyBar [aFAB_ERR, aFAB_STATUS] s u := hu ▸ onlyBar_trans (onlyBar_fsat _ _ _ _ (by simp)) (onlyBar_fset _ _ _ _ (by simp))
  have hstatus : fget u aFAB_STATUS 63 48 = code := by
    rw [hu, fabCode, fget_fset_same _ _ _ _ _ (by omega) (by omega), Nat.mod_eq_of_lt hcode]
  have herr : fget u aFAB_ERR 63 32 = min (fget s aFAB_ERR 63 32 + 1) (2 ^ (63 + 1 - 32) - 1) := by
    rw [hu, fabCode, fget_fset_other _ _ _ _ _ _ (by unfold aFAB_ERR aFAB_STATUS; omega), fget_fsat_same _ _ _ _ _ (by omega) (by omega)]
  have hfab : u.fab = s.fab := by rw [hb.1]
  have hfresh : (u.fab.refused.any fun x => x.1 == r.src && x.2.1 == r.job && decide (u.cycle < x.2.2 + 700000)) = false :=
    List.any_eq_false.2 fun x hx => by simp [h x (hfab ▸ hx)]
  obtain ⟨v, hv⟩ : ∃ v, v = fabMod u (fun f => { f with
    refused := f.refused.filter (fun x => !(x.1 == r.src && x.2.1 == r.job)) ++ [(r.src, r.job, u.cycle)] }) := ⟨_, rfl⟩
  have hdrop : wardDrop s r code = respond v 16 r 0 0 code := by
    unfold wardDrop
    simp only [← hu]
    rw [hfresh, if_neg (by simp), ← hv]
  obtain ⟨b, rfl⟩ : ∃ b, u = { s with bar := b } := ⟨_, hb.1⟩
  rw [hdrop, respond, if_neg (by omega)]
  generalize 32 + (if r.kind == 0 then r.operand else if 0x10 ≤ r.kind && r.kind ≤ 0x20 then 8 else 0) = n
  have hkeep : ∀ w, w = (if r.src == devId v then v else ctrAdd v 16 (64 + fabLink v (devId v) r.src r.addr) n) → ∃ l, w = { v with ctrLive := l } := by
    rintro w rfl
    split
    · exact ⟨v.ctrLive, rfl⟩
    · exact ⟨_, rfl⟩
  obtain ⟨w, hw⟩ : ∃ w, w = (if r.src == devId v then v else ctrAdd v 16 (64 + fabLink v (devId v) r.src r.addr) n) := ⟨_, rfl⟩
  rw [← hw]
  obtain ⟨l, rfl⟩ := hkeep w hw
  subst hv
  exact ⟨hstatus, herr, rfl, rfl, rfl, rfl, rfl⟩

theorem wardRefusedClause {s : State} {r : FabReq} (hserve : fabServes s.chip r.src = true) (he : tget (fun _ => 0) s.chip.fab.expect r.src = r.seqNo)
    (hre : ∀ h, h ∈ s.chip.fab.reorder → h.req.src ≠ r.src) (code : Nat) (hcheck : (wardCheck s.chip r).1 = code) (hcode : code ≠ 0)
    (hfresh : ∀ x, x ∈ s.chip.fab.refused → x.1 ≠ r.src) :
    ∃ t, exec (.fabricRequestArrival r) s = .next t ∧ fget t.chip aFAB_STATUS 63 48 = code ∧ countedOne s t aFAB_ERR 63 32 ∧
      t.chip.fab.sent = s.chip.fab.sent ++ [⟨r.src, r.seqNo, 0, 0, code⟩] ∧
      tget (fun _ => 0) t.chip.fab.expect r.src = (r.seqNo + 1) % 2 ^ 32 ∧ t.chip.tiles = s.chip.tiles ∧ t.chip.mem = s.chip.mem ∧
      t.chip.strands = s.chip.strands := by
  obtain ⟨l, hq⟩ := queuedReq_eq s.chip r
  obtain ⟨u, hu⟩ : ∃ u, u = queuedReq s.chip r := ⟨_, rfl⟩
  have htake : takeReq u (heldReq s.chip r) = some (wardDrop u r code) := by
    unfold takeReq heldReq
    simp only [hcheck, bne_iff_ne, ne_eq, hcode, not_false_eq_true, if_true]
  rw [← hu] at hq
  have hfu : u.fab.reorder = s.chip.fab.reorder ++ [heldReq s.chip r] ∧ u.fab.refused = s.chip.fab.refused ∧ u.fab.sent = s.chip.fab.sent ∧
      u.bar = s.chip.bar ∧ u.tiles = s.chip.tiles ∧ u.mem = s.chip.mem ∧ u.strands = s.chip.strands := by
    rw [hq]
    exact ⟨rfl, rfl, rfl, rfl, rfl, rfl, rfl⟩
  obtain ⟨horder, hrefused, hsent, hbar, htiles, hmem, hstrands⟩ := hfu
  obtain ⟨hstatus, herr, hs, ho, ht, hm, hst⟩ := wardDrop_spec (s := u) (r := r) (hcheck ▸ wardCode_lt s.chip r) (by rw [hrefused]; exact hfresh)
  have hgo := requestArrives_taken he hre (hu ▸ htake) (ho.trans horder)
  have hexec := exec_arrival (s := s) hserve
  rw [hgo] at hexec
  generalize wardDrop u r code = v at *
  exact ⟨_, hexec, hstatus, herr.trans (by rw [fget_of_bar hbar]), hs.trans (by rw [hsent]), tget_tset_same _ _ _ _, ht.trans htiles,
    hm.trans hmem, hst.trans hstrands⟩

-- Requests that are applied.

theorem updateLines_tile {r : FabReq} (h : bitOf r.addr 47 = true) : updateLines r = [] := by
  unfold updateLines
  rw [if_pos (by simp [h])]

theorem takeReq_apply {u : Chip} {r : FabReq} {p : Nat} (hlines : updateLines r = []) (hhot : ∀ h, h ∈ u.fab.hot → h.req.src ≠ r.src) :
    takeReq u ⟨r, 0, p⟩ = some (lineDone (applyAck u p r) r) := by
  have hmine : u.fab.hot.filter (fun x => x.req.src == r.src) = [] :=
    List.filter_eq_nil_iff.2 fun x hx => by simp [hhot x hx]
  unfold takeReq
  simp only [hlines, hmine]
  rfl

theorem lineDone_tile {r : FabReq} (s : Chip) (h : updateLines r = []) : lineDone s r = s := by
  unfold lineDone
  rw [h]
  rfl

/-- A request that is applied to a tile: what its source's order, the answer and the tile hold then. -/
theorem exec_applied {s : State} {r : FabReq} {p value marks code : Nat} {v : Chip} (hserve : fabServes s.chip r.src = true)
    (he : tget (fun _ => 0) s.chip.fab.expect r.src = r.seqNo) (hre : ∀ h, h ∈ s.chip.fab.reorder → h.req.src ≠ r.src)
    (hhot : ∀ h, h ∈ s.chip.fab.hot → h.req.src ≠ r.src) (hcheck : wardCheck s.chip r = (0, p)) (h47 : bitOf r.addr 47 = true)
    (happly : applyReq (queuedReq s.chip r) p r = (v, value, marks, code)) (hfab : v.fab = (queuedReq s.chip r).fab) :
    ∃ t, exec (.fabricRequestArrival r) s = .next t ∧ t.chip.tiles = v.tiles ∧ t.chip.strands = v.strands ∧
      t.chip.fab.sent = s.chip.fab.sent ++ [⟨r.src, r.seqNo, value, marks, code⟩] ∧
      tget (fun _ => 0) t.chip.fab.expect r.src = (r.seqNo + 1) % 2 ^ 32 := by
  obtain ⟨l, hq⟩ := queuedReq_eq s.chip r
  obtain ⟨u, hu⟩ : ∃ u, u = queuedReq s.chip r := ⟨_, rfl⟩
  rw [← hu] at happly hfab hq
  have hheld : heldReq s.chip r = ⟨r, 0, p⟩ := by rw [heldReq, hcheck]
  have hfields : u.fab.reorder = s.chip.fab.reorder ++ [heldReq s.chip r] ∧ u.fab.hot = s.chip.fab.hot ∧ u.fab.sent = s.chip.fab.sent := by
    rw [hq]
    exact ⟨rfl, rfl, rfl⟩
  obtain ⟨horder, hhots, hsents⟩ := hfields
  have htake := takeReq_apply (p := p) (updateLines_tile h47) (u := u) (r := r) (hhots ▸ hhot)
  rw [lineDone_tile _ (updateLines_tile h47), applyAck, happly] at htake
  obtain ⟨hsent, w, hw, hrest⟩ := respond_spec v p r value marks code
  simp only at htake
  generalize respond v p r value marks code = x at *
  have hgo := requestArrives_taken (v := x) he hre (by rw [← hu, hheld]; exact htake) (by rw [hsent, hfab]; exact horder)
  have hexec := exec_arrival (s := s) hserve
  rw [hgo] at hexec
  have htiles : x.tiles = v.tiles := by rw [hrest, hw.1]; rfl
  have hstrands : x.strands = v.strands := by rw [hrest, hw.1]; rfl
  have hx : x.fab.sent = s.chip.fab.sent ++ [⟨r.src, r.seqNo, value, marks, code⟩] := by
    rw [hsent]
    change v.fab.sent ++ _ = _
    rw [hfab, hsents]
  exact ⟨_, hexec, htiles, hstrands, hx, tget_tset_same _ _ _ _⟩

theorem loadAppliedClause {s : State} {r : FabReq} (hserve : fabServes s.chip r.src = true)
    (he : tget (fun _ => 0) s.chip.fab.expect r.src = r.seqNo) (hre : ∀ h, h ∈ s.chip.fab.reorder → h.req.src ≠ r.src)
    (hhot : ∀ h, h ∈ s.chip.fab.hot → h.req.src ≠ r.src) (p tile : Nat) (hcheck : wardCheck s.chip r = (0, p)) (h47 : bitOf r.addr 47 = true)
    (hphys : physOf s.chip p (bitsOf r.addr 39 32) = some tile) (hopen : tileOpen s.chip tile = true)
    (hbanks : inBanks (bitsOf r.addr 21 0) (reqBytes r) = true) (hkind : r.kind = 0)
    (hclean : wordsClean s tile (bitsOf r.addr 21 0) r.operand = true) (hn : 0 < r.operand) :
    ∃ t, exec (.fabricRequestArrival r) s = .next t ∧
      t.chip.fab.sent = s.chip.fab.sent ++ [⟨r.src, r.seqNo, leNat (bankBytes s tile (bitsOf r.addr 21 0) r.operand), 0, 0⟩] ∧
      banksKept s t tile 0 0 ∧ t.chip.strands = s.chip.strands ∧ tget (fun _ => 0) t.chip.fab.expect r.src = (r.seqNo + 1) % 2 ^ 32 := by
  obtain ⟨l, hq⟩ := queuedReq_eq s.chip r
  obtain ⟨u, hu⟩ : ∃ u, u = queuedReq s.chip r := ⟨_, rfl⟩
  have hread := readMarked_clean (s := { s with chip := u }) (tile := tile) (a := bitsOf r.addr 21 0) (n := r.operand)
    (by rw [hu, hq]; exact hclean) hn
  have hbytes : bankBytes { s with chip := u } tile (bitsOf r.addr 21 0) r.operand = bankBytes s tile (bitsOf r.addr 21 0) r.operand := by
    rw [hu, hq]; rfl
  rw [hbytes] at hread
  have happly : applyReq u p r = (ctrBank u tile false (lineCount (bitsOf r.addr 21 0) r.operand),
      leNat (bankBytes s tile (bitsOf r.addr 21 0) r.operand), 0, 0) := by
    have hphys' : physOf u p (bitsOf r.addr 39 32) = some tile := by rw [hu, hq]; exact hphys
    have hopen' : tileOpen u tile = true := by rw [hu, hq]; exact hopen
    unfold applyReq applyTile
    simp only [hkind, h47, hphys', hopen', hbanks, hread, marksOf_clean]
    simp [Function.comp_def]
  obtain ⟨t, hexec, htiles, hstrands, hsent, hexpect⟩ := exec_applied (p := p) hserve he hre hhot hcheck h47 (hu ▸ happly) (by rw [← hu]; rfl)
  have hsame : (queuedReq s.chip r).tiles = s.chip.tiles ∧ (queuedReq s.chip r).strands = s.chip.strands := by
    rw [hq]
    exact ⟨rfl, rfl⟩
  refine ⟨t, hexec, hsent, banksKept_of_mem ?_, hstrands.trans hsame.2, hexpect⟩
  unfold getTile
  rw [show t.chip.tiles = s.chip.tiles from htiles.trans hsame.1]

/-- What a put does to its tile (R577): its bytes, and the counter that it names. -/
def putTaken (s : Chip) (t a : Nat) (r : FabReq) : Chip :=
  match r.cnt with
  | some c => retryTile (acArrive (storeMarked s t a (withMarks r.data r.poison)) t c) t
  | none => retryTile (storeMarked s t a (withMarks r.data r.poison)) t

theorem putTaken_spec {u : Chip} {t a : Nat} {r : FabReq} (hpoison : r.poison = 0) (ha : a % 8 = 0) (hlen : r.data.length % 8 = 0)
    (hquiet : tileQuiet u t = true) :
    onlyTile t u (putTaken u t a r) ∧ mread (getTile (putTaken u t a r) t).mem a r.data.length = r.data ∧
      (∀ b, b < a ∨ a + r.data.length ≤ b → mget (getTile (putTaken u t a r) t).mem b = mget (getTile u t).mem b) ∧
      ∀ c, r.cnt = some c → acGet (putTaken u t a r) t c = max (-2147483648) (min 2147483647 (acGet u t c - 1)) := by
  obtain ⟨ho, ⟨hk, hv, -⟩, hac⟩ := storeMarked_words u (t := t) r.data ha hlen
  have hdata : mread (getTile (storeMarked u t a (r.data.map (fun b => (b, false)))) t).mem a r.data.length = r.data :=
    eq_of_leNat_eq (by simp) hv
  unfold putTaken
  rw [hpoison, withMarks_zero]
  generalize storeMarked u t a (r.data.map (fun b => (b, false))) = v at *
  have hq : tileQuiet v t = true := (tileQuiet_of_strands (strands_of_onlyTile ho) t).trans hquiet
  cases hcnt : r.cnt with
  | none =>
    simp only
    rw [retryTile_quiet hq]
    exact ⟨ho, hdata, hk, fun c hc => nomatch hc⟩
  | some c =>
    simp only
    have hset : acArrive v t c = acSet v t c (clampAc (acGet v t c - 1)) := rfl
    rw [hset, retryTile_quiet ((tileQuiet_of_strands (s := v) (u := acSet _ _ _ _) rfl t).trans hq)]
    have hmem : (getTile (acSet v t c (clampAc (acGet v t c - 1))) t).mem = (getTile v t).mem := by
      rw [acSet, modTile, getTile_setTile_same]
    refine ⟨onlyTile_trans ho (onlyTile_setTile ..), by rw [hmem, hdata], fun b hb => by rw [hmem]; exact hk b hb, fun d hd => ?_⟩
    obtain rfl := Option.some.inj hd
    rw [acGet_acSet_same, show acGet v t c = acGet u t c by unfold acGet; rw [hac]]
    rfl

theorem storeAppliedClause {s : State} {r : FabReq} (hserve : fabServes s.chip r.src = true)
    (he : tget (fun _ => 0) s.chip.fab.expect r.src = r.seqNo) (hre : ∀ h, h ∈ s.chip.fab.reorder → h.req.src ≠ r.src)
    (hhot : ∀ h, h ∈ s.chip.fab.hot → h.req.src ≠ r.src) (p tile : Nat) (hcheck : wardCheck s.chip r = (0, p)) (h47 : bitOf r.addr 47 = true)
    (hphys : physOf s.chip p (bitsOf r.addr 39 32) = some tile) (hopen : tileOpen s.chip tile = true)
    (hbanks : inBanks (bitsOf r.addr 21 0) (reqBytes r) = true) (hquiet : tileQuiet s.chip tile = true) (hkind : r.kind = 1)
    (hpoison : r.poison = 0) (ha : bitsOf r.addr 21 0 % 8 = 0) (hlen : r.data.length % 8 = 0) :
    ∃ t, exec (.fabricRequestArrival r) s = .next t ∧ bankBytes t tile (bitsOf r.addr 21 0) r.data.length = r.data ∧
      banksKept s t tile (bitsOf r.addr 21 0) r.data.length ∧ t.chip.strands = s.chip.strands ∧
      (∀ c, r.cnt = some c → acGet t.chip tile c = max (-2147483648) (min 2147483647 (acGet s.chip tile c - 1))) ∧
      t.chip.fab.sent = s.chip.fab.sent ++ [⟨r.src, r.seqNo, 0, 0, 0⟩] := by
  obtain ⟨l, hq⟩ := queuedReq_eq s.chip r
  obtain ⟨u, hu⟩ : ∃ u, u = queuedReq s.chip r := ⟨_, rfl⟩
  have hsame : u.tiles = s.chip.tiles ∧ u.strands = s.chip.strands := by
    rw [hu, hq]
    exact ⟨rfl, rfl⟩
  have happly : applyReq u p r = (putTaken u tile (bitsOf r.addr 21 0) r, 0, 0, 0) := by
    have hphys' : physOf u p (bitsOf r.addr 39 32) = some tile := by rw [hu, hq]; exact hphys
    have hopen' : tileOpen u tile = true := by rw [hu, hq]; exact hopen
    unfold applyReq applyTile
    simp only [hkind, h47, hphys', hopen', hbanks]
    rfl
  obtain ⟨ho, hdata, hk, hac⟩ := putTaken_spec (u := u) (t := tile) hpoison ha hlen ((tileQuiet_of_strands hsame.2 tile).trans hquiet)
  generalize putTaken u tile (bitsOf r.addr 21 0) r = v at *
  obtain ⟨t, hexec, htiles, hstrands, hsent, -⟩ :=
    exec_applied (p := p) hserve he hre hhot hcheck h47 (hu ▸ happly) (by rw [← hu, ho.1])
  have htile : getTile t.chip tile = getTile v tile := by unfold getTile; rw [htiles]
  have htileU : getTile u tile = getTile s.chip tile := by unfold getTile; rw [hsame.1]
  refine ⟨t, hexec, by rw [bankBytes, htile, hdata], fun b hb => by rw [htile, hk b hb, htileU],
    (hstrands.trans (strands_of_onlyTile ho)).trans hsame.2, fun c hc => ?_, hsent⟩
  have := hac c hc
  unfold acGet at this ⊢
  rw [htile, this, htileU]

-- Hot lines (R583).

theorem memOnly_markDirty (s : Chip) (p a : Nat) : memOnly s (markDirty s p a) := by
  unfold markDirty
  refine memOnly_ite ?_ (memOnly_refl s)
  split
  · exact memOnly_refl s
  · exact memOnly_trans (memOnly_devReadGo ..) (memOnly_devWriteGo ..)

theorem fab_of_memOnly {s u : Chip} (h : memOnly s u) : u.fab = s.fab := by rw [h.1]

theorem fab_fset (s : Chip) (k hi lo v : Nat) : (fset s k hi lo v).fab = s.fab := rfl

theorem fab_fsat (s : Chip) (k hi lo v : Nat) : (fsat s k hi lo v).fab = s.fab := rfl

theorem fab_ungranted (s : Chip) (c p : Nat) : (if c == 0x2005 && p < 16 then partCode s p 0x4006 else s).fab = s.fab := by
  split
  · exact fab_fset ..
  · rfl

theorem fab_devWrite (s : Chip) (p fn a : Nat) (bs : List MByte) : (devWrite s p fn a bs).1.fab = s.fab := by
  unfold devWrite
  simp only
  split
  · exact fab_ungranted ..
  · exact fab_of_memOnly (memOnly_trans (memOnly_markDirty ..) (memOnly_devWriteGo ..))

theorem fab_devReadChecked (s : Chip) (p fn a n : Nat) : (devReadChecked s p fn a n).1.fab = s.fab := by
  unfold devReadChecked
  simp only
  split
  · exact fab_ungranted ..
  · exact fab_of_memOnly (memOnly_devReadGo ..)

theorem fab_swageAccept (s : Chip) (u p sender off : Nat) (r : List MByte) : (swageAccept s u p sender off r).1.fab = s.fab := by
  unfold swageAccept
  simp only
  generalize leastCode (unitCodes s u p ++ if off == 0 then recordCodes s u r else [0x2046]) = c
  by_cases hc : (c != 0) = true
  · rw [if_pos hc, swLog, fab_fsat, fab_fset, fab_ungranted]
  · rw [if_neg hc, swCounts, fab_fset, fab_fset]
    rfl

theorem fab_devPort (s : Chip) (p fn sender a : Nat) (bs : List MByte) : (devPort s p fn sender a bs).1.fab = s.fab := by
  unfold devPort
  split
  · exact fab_swageAccept ..
  · exact fab_devWrite ..

theorem fab_charge (s : Chip) (p reg tile n : Nat) : (charge s p reg tile n).fab = s.fab := by
  rw [(within_charge s p reg tile n).1]
  rfl

theorem fab_ite {c : Prop} [Decidable c] {s u v : Chip} (h : u.fab = s.fab) (g : v.fab = s.fab) : (if c then u else v).fab = s.fab := by
  by_cases hc : c
  · rwa [if_pos hc]
  · rwa [if_neg hc]

theorem fab_noteCE (s : Chip) : (noteCE s).fab = s.fab := rfl

theorem fab_setTile (s : Chip) (t : Nat) (x : Tile) : (setTile s t x).fab = s.fab := rfl

theorem fab_readWord (s : Chip) (t wi : Nat) : (readWord s t wi).1.fab = s.fab := by
  unfold readWord
  simp only
  split
  · rfl
  · split
    · split
      · rfl
      · exact fab_ite (by rw [fab_setTile, fab_noteCE, fab_fsat]) (by rw [fab_noteCE, fab_fsat])
    · rw [fab_setTile, fab_fset, fab_fset, fab_fsat]

theorem fab_readMarked (s : Chip) (t a n : Nat) : (readMarked s t a n).1.fab = s.fab := by
  have hwords : ∀ k wi (u : Chip), (readWords u t wi k).1.fab = u.fab := by
    intro k
    induction k with
    | zero => exact fun _ _ => rfl
    | succ k ih => exact fun wi u => (ih _ _).trans (fab_readWord ..)
  exact hwords ..

theorem fab_putBytes (t n : Nat) (s : Chip) (a : Nat) (l : List (Byte × Bool)) : (putBytes t n s a l).fab = s.fab := by
  induction n generalizing s a l with
  | zero => rfl
  | succ n ih =>
    unfold putBytes
    split
    · rfl
    · refine (ih ..).trans ?_
      unfold writeSome
      split
      · rfl
      · exact fab_readWord ..

theorem nobodyWaits_acArrive {s : Chip} (h : nobodyWaits s = true) (t n : Nat) : nobodyWaits (acArrive s t n) = true := h

theorem fab_putTaken {s : Chip} (hq : nobodyWaits s = true) (t a : Nat) (r : FabReq) : (putTaken s t a r).fab = s.fab := by
  have hw := ((ansKept_storeMarked s t a (withMarks r.data r.poison)).keep hq).1
  have hs : (storeMarked s t a (withMarks r.data r.poison)).fab = s.fab := fab_putBytes ..
  unfold putTaken
  split
  · rw [retryTile_nobody (nobodyWaits_acArrive hw ..)]
    exact hs
  · rw [retryTile_nobody hw]
    exact hs

/-- Where no strand waits, a request that is applied changes nothing of the fabric. -/
theorem fab_applyReq {s : Chip} (hq : nobodyWaits s = true) (p : Nat) (r : FabReq) : (applyReq s p r).1.fab = s.fab := by
  unfold applyReq
  split
  · rfl
  split
  · unfold applyTile
    split
    · rfl
    simp only
    split
    · rfl
    split
    · rfl
    split
    · exact fab_readMarked ..
    · exact fab_putTaken hq ..
  · simp only
    split
    · exact (fab_devReadChecked ..).trans (fab_charge ..)
    split
    · exact (fab_devPort ..).trans (fab_charge ..)
    split
    · exact (fab_devReadChecked ..).trans (fab_charge ..)
    · simp only
      split
      · exact (fab_devReadChecked ..).trans (fab_charge ..)
      · exact (fab_devWrite ..).trans ((fab_devReadChecked ..).trans (fab_charge ..))

theorem nextSource_none {s : State} {line : Nat} (h : nextSource s.chip line = none) : exec (.hotLineUpdate line) s = .next s :=
  onChip_next (c := s.chip) (f := cmdHotLineUpdate line) (by simp only [cmdHotLineUpdate, h])

theorem hotUpdateClause {s : State} {line : Nat} {h : HotUp} (hhot : s.chip.fab.hot = [h]) (hline : h.line = line)
    (hre : s.chip.fab.reorder = []) (hq : nobodyWaits s.chip = true) :
    ∃ t a, exec (.hotLineUpdate line) s = .next t ∧ t.chip.fab.hot = [] ∧ tget (fun _ => 0) t.chip.fab.hotLast line = h.req.src ∧
      t.chip.fab.sent = s.chip.fab.sent ++ [a] ∧ a.dest = h.req.src ∧ a.seqNo = h.req.seqNo := by
  have hsource : nextSource s.chip line = some h.req.src := by
    unfold nextSource
    simp [hhot, hline]
  have hfind : s.chip.fab.hot.find? (fun x => x.line == line && x.req.src == h.req.src) = some h := by
    rw [hhot]
    simp [hline]
  obtain ⟨u, hu⟩ : ∃ u, u = fabMod s.chip (fun f => { f with hot := f.hot.erase h, hotLast := tset (fun _ => 0) line h.req.src f.hotLast }) :=
    ⟨_, rfl⟩
  have hexec : exec (.hotLineUpdate line) s = .next { s with chip := takeNext 257 h.req.src (lineDone (applyAck u h.part h.req) h.req) } :=
    onChip_next (f := cmdHotLineUpdate line) (by simp only [cmdHotLineUpdate, hsource, hfind, ← hu])
  have huf : u.fab.hot = [] ∧ tget (fun _ => 0) u.fab.hotLast line = h.req.src ∧ u.fab.sent = s.chip.fab.sent ∧ u.fab.reorder = [] := by
    rw [hu]
    refine ⟨?_, tget_tset_same _ _ _ _, rfl, hre⟩
    change s.chip.fab.hot.erase h = []
    rw [hhot]
    simp
  have happly : (applyReq u h.part h.req).1.fab = u.fab := fab_applyReq (hu ▸ hq) ..
  obtain ⟨hsent, -⟩ := respond_spec (applyReq u h.part h.req).1 h.part h.req (applyReq u h.part h.req).2.1
    (applyReq u h.part h.req).2.2.1 (applyReq u h.part h.req).2.2.2
  rw [applyAck] at hexec
  rw [happly] at hsent
  generalize respond (applyReq u h.part h.req).1 h.part h.req (applyReq u h.part h.req).2.1
    (applyReq u h.part h.req).2.2.1 (applyReq u h.part h.req).2.2.2 = v at *
  have hstop : takeNext 257 h.req.src (lineDone v h.req) = lineDone v h.req := by
    rw [takeNext]
    have : (lineDone v h.req).fab.reorder = [] := by
      change v.fab.reorder = []
      rw [hsent]
      exact huf.2.2.2
    rw [this]
    rfl
  rw [hstop] at hexec
  have hfields : v.fab.hot = [] ∧ tget (fun _ => 0) v.fab.hotLast line = h.req.src ∧
      v.fab.sent = s.chip.fab.sent ++ [⟨h.req.src, h.req.seqNo, (applyReq u h.part h.req).2.1, (applyReq u h.part h.req).2.2.1,
        (applyReq u h.part h.req).2.2.2⟩] := by
    rw [hsent]
    exact ⟨huf.1, huf.2.1, congrArg (· ++ _) huf.2.2.1⟩
  obtain ⟨h1, h2, h3⟩ := hfields
  exact ⟨_, _, hexec, h1, h2, h3, rfl, rfl⟩

/-- Settles O52. -/
theorem requestsArrive : Obligations.RequestsArrive := by
  unfold Obligations.RequestsArrive
  intro s r
  refine ⟨fun h => onChip_next (c := s.chip) (f := cmdFabricRequestArrival r) (by simp [cmdFabricRequestArrival, h, when]),
    fun hserve _ he hre hhot => ⟨fun code => wardRefusedClause hserve he hre code, fun p tile hcheck h47 hphys hopen hbanks hquiet => ⟨?_, ?_⟩⟩,
    fun line h => ⟨nextSource_none, fun hhot hline hre hq => hotUpdateClause hhot hline hre hq⟩⟩
  · exact loadAppliedClause hserve he hre hhot p tile hcheck h47 hphys hopen hbanks
  · exact fun hkind hpoison ha hlen _ => storeAppliedClause hserve he hre hhot p tile hcheck h47 hphys hopen hbanks hquiet hkind hpoison ha hlen

end Sys2Proof.Proofs
end

section
/-! SUPPORT. Accesses of device memory within one sound burst, and those that a partition may not make (O32). -/

namespace Sys2Proof.Proofs

open Sys2Proof.Machine

-- Memories.

theorem mwrite_append (m : Tab Byte) (a : Nat) (l r : List Byte) : mwrite m a (l ++ r) = mwrite (mwrite m a l) (a + l.length) r := by
  induction l generalizing m a with
  | nil => rfl
  | cons b l ih => simp only [List.cons_append, mwrite, ih, List.length_cons, show a + 1 + l.length = a + (l.length + 1) by omega]

theorem getD_mread (m : Tab Byte) {a n i : Nat} (h : i < n) : (mread m a n).getD i 0 = mget m (a + i) := by
  induction n generalizing a i with
  | zero => omega
  | succ n ih =>
    cases i with
    | zero => rfl
    | succ i =>
      rw [mread, List.getD_cons_succ, ih (by omega), show a + 1 + i = a + (i + 1) by omega]

/-- A run of a memory replaced in its middle: only the middle changes. -/
theorem mget_mwrite_middle (m : Tab Byte) {k o N : Nat} (l : List Byte) (x : Nat)
    (hx : x < k + o ∨ k + o + l.length ≤ x) :
    mget (mwrite m k (mread m k o ++ l ++ mread m (k + (o + l.length)) (N - (o + l.length)))) x = mget m x := by
  rw [mwrite_append, mwrite_append, mget_mwrite, List.length_append, mread_length, mread_length]
  by_cases hhi : k + (o + l.length) ≤ x ∧ x < k + (o + l.length) + (N - (o + l.length))
  · rw [if_pos hhi, getD_mread m (by omega), show k + (o + l.length) + (x - (k + (o + l.length))) = x by omega]
  · rw [if_neg hhi, mget_mwrite, if_neg (by omega), mget_mwrite, mread_length]
    by_cases hlo : k ≤ x ∧ x < k + o
    · rw [if_pos hlo, getD_mread m (by omega), show k + (x - k) = x by omega]
    · rw [if_neg hlo]

theorem mread_mwrite_middle (m : Tab Byte) {k o N : Nat} (l : List Byte) :
    mread (mwrite m k (mread m k o ++ l ++ mread m (k + (o + l.length)) (N - (o + l.length)))) (k + o) l.length = l := by
  rw [mwrite_append, mwrite_append, List.length_append, mread_length, mread_mwrite_apart _ _ (by omega), mread_mwrite_same]

-- Sound bursts.

/-- The bytes lie in one burst of a channel in service, which holds no error and is not poisoned. -/
structure SoundAt (s : Chip) (a n c mb : Nat) : Prop where
  pos : 0 < n
  fits : a % 64 + n ≤ 64
  at_ : locate s a = .burst c mb
  off : mb % 64 = a % 64
  serves : chanFailed s c = false
  flaw : tget (fun _ => 0) s.mem.dflaw (mbKey c (mb - mb % 64) / 64) = 0
  unmarked : tmem s.mem.dpz (mbKey c (mb - mb % 64) / 64) = false

theorem soundAt_of_burstSound {s : Chip} {p fn a n c mb : Nat} (h : burstSound s p fn a n c mb = true) :
    SoundAt s a n c mb ∧ devCheck s p fn a n = 0 := by
  simp only [burstSound, Bool.and_eq_true, decide_eq_true_eq, Bool.not_eq_true'] at h
  obtain ⟨⟨⟨⟨⟨⟨⟨h1, h2⟩, h3⟩, h4⟩, h5⟩, h6⟩, h7⟩, h8⟩ := h
  exact ⟨⟨h1, h2, h3, h4, h6, h7, h8⟩, h5⟩

theorem mbKey_start (c mb : Nat) : mbKey c (mb - mb % 64) + mb % 64 = mbKey c mb := by
  unfold mbKey
  have := Nat.mod_le mb 64
  omega

theorem burstBytes_clean {s : Chip} {c mb : Nat} (h : tmem s.mem.dpz (mbKey c mb / 64) = false) :
    burstBytes s c mb = clean (mread s.mem.dram (mbKey c mb) 64) := by
  simp only [burstBytes, clean]
  rw [h]
  rfl

theorem devRead_sound {s : Chip} {a n c mb : Nat} (h : SoundAt s a n c mb) (p : Nat) :
    devRead s p a n = (ctrAdd s p c 64, clean (mread s.mem.dram (mbKey c mb) n), 0) := by
  obtain ⟨hpos, hfit, hat, hoff, hserves, hflaw, hclean⟩ := h
  have hk : min (64 - a % 64) n = n := by omega
  unfold devRead
  rw [show n / 64 + 2 = (n / 64 + 1) + 1 by omega, devReadGo, if_neg (by simp only [beq_iff_eq]; omega)]
  simp only [hat, readBurst_sound p hserves hflaw, burstBytes_clean hclean, hk]
  rw [Nat.sub_self, devReadGo, if_pos (by rfl), List.append_nil, clean, ← List.map_drop, ← List.map_take,
    take_drop_mread _ (by omega), ← hoff, mbKey_start]
  rfl

/-- What a write within one sound burst leaves (R291, R292). -/
structure WroteAt (s u : Chip) (c mb : Nat) (data : List Byte) : Prop where
  frame : u = { s with ctrLive := u.ctrLive, mem := { s.mem with dram := u.mem.dram, dpz := u.mem.dpz, dflaw := u.mem.dflaw } }
  bytes : mread u.mem.dram (mbKey c mb) data.length = data
  others : ∀ k, k < mbKey c mb ∨ mbKey c mb + data.length ≤ k → mget u.mem.dram k = mget s.mem.dram k
  flaw : tget (fun _ => 0) u.mem.dflaw (mbKey c (mb - mb % 64) / 64) = 0
  unmarked : tmem u.mem.dpz (mbKey c (mb - mb % 64) / 64) = false

theorem wroteAt_put {s : Chip} {c mb : Nat} {data : List Byte} (p n : Nat) :
    WroteAt s (ctrAdd (putBurst s c (mb - mb % 64)
      (mread s.mem.dram (mbKey c (mb - mb % 64)) (mb % 64) ++ data ++
        mread s.mem.dram (mbKey c (mb - mb % 64) + (mb % 64 + data.length)) (64 - (mb % 64 + data.length))) false) p n 64) c mb data := by
  have hkey := mbKey_start c mb
  refine ⟨rfl, ?_, fun k hk => ?_, ?_, ?_⟩
  · rw [← hkey]
    exact mread_mwrite_middle _ _
  · exact mget_mwrite_middle _ _ k (by rw [hkey]; exact hk)
  · exact tget_tset_same (fun _ => 0) _ 0 s.mem.dflaw
  · exact tmem_tmark_same s.mem.dpz _ false

theorem wroteAt_ctr {s u : Chip} {c mb : Nat} {data : List Byte} (h : ∃ l, s = { u with ctrLive := l }) {v : Chip} (hv : WroteAt s v c mb data) :
    WroteAt u v c mb data := by
  obtain ⟨l, rfl⟩ := h
  exact ⟨hv.frame, hv.bytes, hv.others, hv.flaw, hv.unmarked⟩

theorem devWrite_sound {s : Chip} {a c mb : Nat} {data : List Byte} (h : SoundAt s a data.length c mb) (p : Nat) :
    ∃ u, devWriteRaw s p a (clean data) = (u, 0) ∧ WroteAt s u c mb data := by
  obtain ⟨hpos, hfit, hat, hoff, hserves, hflaw, hclean⟩ := h
  have hlen : (clean data).length = data.length := List.length_map _
  have hk : min (64 - a % 64) (clean data).length = data.length := by omega
  have hvals : ∀ q : List Byte, (clean q).map (·.1) = q := fun q => by simp [clean, Function.comp_def]
  have hany : ∀ q : List Byte, (clean q).any (·.2) = false := fun q => by simp [clean]
  obtain ⟨u, hu, hw⟩ : ∃ u, writeBurst s p c (mb - mb % 64) (mb % 64) (clean data) = (u, 0) ∧ WroteAt s u c mb data := by
    unfold writeBurst
    simp only [hserves, hlen, hvals, hany, Bool.false_eq_true, if_false]
    by_cases h64 : data.length = 64
    · have h0 : mb % 64 = 0 := by omega
      have := wroteAt_put (s := s) (c := c) (mb := mb) (data := data) p (32 + c)
      rw [h0, h64] at this
      refine ⟨_, by rw [if_pos (by rw [h64]; rfl)], ?_⟩
      rw [h0]
      simpa [mread] using this
    · rw [if_neg (by simpa using h64)]
      simp only [readBurst_sound p hserves hflaw, burstBytes_clean hclean]
      have hover : overlay (clean (mread s.mem.dram (mbKey c (mb - mb % 64)) 64)) (mb % 64) (clean data) =
          clean (mread s.mem.dram (mbKey c (mb - mb % 64)) (mb % 64) ++ data ++
            mread s.mem.dram (mbKey c (mb - mb % 64) + (mb % 64 + data.length)) (64 - (mb % 64 + data.length))) := by
        obtain ⟨r, hr⟩ : ∃ r, 64 = mb % 64 + (data.length + r) := ⟨64 - (mb % 64 + data.length), by omega⟩
        have hpiece : (mread s.mem.dram (mbKey c (mb - mb % 64)) 64).drop (mb % 64 + data.length) =
            mread s.mem.dram (mbKey c (mb - mb % 64) + (mb % 64 + data.length)) (64 - (mb % 64 + data.length)) := by
          rw [← List.take_of_length_le (l := (mread s.mem.dram (mbKey c (mb - mb % 64)) 64).drop (mb % 64 + data.length))
            (i := 64 - (mb % 64 + data.length)) (by simp), take_drop_mread _ (by omega)]
        have hfirst := take_drop_mread s.mem.dram (b := mbKey c (mb - mb % 64)) (d := 0) (len := mb % 64) (N := 64) (by omega)
        rw [List.drop_zero, Nat.add_zero] at hfirst
        unfold overlay
        rw [hlen]
        unfold clean
        rw [← List.map_take, ← List.map_drop, hfirst, hpiece, List.map_append, List.map_append]
      rw [hover]
      simp only [hvals, hany]
      exact ⟨_, rfl, wroteAt_ctr ⟨_, rfl⟩ (wroteAt_put p (32 + c))⟩
  unfold devWriteRaw
  rw [devWriteGo, if_neg (by simp only [List.isEmpty_iff, ← List.length_eq_zero_iff]; omega)]
  simp only [hat, ← hoff]
  rw [List.take_of_length_le (by omega), hu, List.drop_of_length_le (by omega)]
  refine ⟨u, ?_, hw⟩
  have : ∀ (k : Nat) (v : Chip) (b : Nat), devWriteGo p k v b [] = (v, 0) := fun k v b => by cases k <;> rfl
  rw [this]
  rfl

-- The clauses.

theorem devReadChecked_ok {s : Chip} {p fn a n : Nat} (h : devCheck s p fn a n = 0) : devReadChecked s p fn a n = devRead s p a n := by
  simp only [devReadChecked, h, bne_self_eq_false, Bool.false_eq_true, if_false]

theorem devReadChecked_bad {s : Chip} {p fn a n : Nat} (h : devCheck s p fn a n ≠ 0) :
    devReadChecked s p fn a n = (if devCheck s p fn a n == 0x2005 && p < 16 then partCode s p 0x4006 else s,
      List.replicate n (0#8, false), devCheck s p fn a n) := by
  simp only [devReadChecked, bne_iff_ne, ne_eq, h, not_false_eq_true, if_true]

theorem markDirty_off {s : Chip} {p : Nat} (a : Nat) (h : p = 16 ∨ bitOf (barGet s (aPART_DMAP p)) 0 = false) : markDirty s p a = s := by
  unfold markDirty
  rcases h with rfl | h
  · rw [if_neg (by simp)]
  · rw [if_neg (by simp [h])]

theorem devWrite_ok {s : Chip} {p fn a : Nat} {bs : List MByte} (h : devCheck s p fn a bs.length = 0)
    (hd : p = 16 ∨ bitOf (barGet s (aPART_DMAP p)) 0 = false) : devWrite s p fn a bs = devWriteRaw s p a bs := by
  simp only [devWrite, h, bne_self_eq_false, Bool.false_eq_true, if_false, markDirty_off a hd]

theorem devWrite_bad {s : Chip} {p fn a : Nat} {bs : List MByte} (h : devCheck s p fn a bs.length ≠ 0) :
    devWrite s p fn a bs = (if devCheck s p fn a bs.length == 0x2005 && p < 16 then partCode s p 0x4006 else s, devCheck s p fn a bs.length) := by
  simp only [devWrite, bne_iff_ne, ne_eq, h, not_false_eq_true, if_true]

/-- What a sound burst is depends on nothing that a write of it changes. -/
theorem burstSound_wrote {s u : Chip} {p fn a c mb : Nat} {data : List Byte} (h : burstSound s p fn a data.length c mb = true)
    (hu : WroteAt s u c mb data) (out : List MByte) (code : Nat) : burstSound (deliver u out code) p fn a data.length c mb = true := by
  obtain ⟨hframe, -, -, hflaw, hpz⟩ := hu
  obtain ⟨⟨h1, h2, h3, h4, h5, -, -⟩, hcheck⟩ := soundAt_of_burstSound h
  generalize u.ctrLive = l, u.mem.dram = m, u.mem.dpz = z, u.mem.dflaw = f at *
  subst hframe
  simp only [burstSound, Bool.and_eq_true, decide_eq_true_eq, Bool.not_eq_true']
  exact ⟨⟨⟨⟨⟨⟨⟨h1, h2⟩, h3⟩, h4⟩, hcheck⟩, h5⟩, hflaw⟩, hpz⟩

theorem soundReadClause {s : State} {p fn a n c mb : Nat} (hp : p ≤ 16) (h : burstSound s.chip p fn a n c mb = true) :
    ∃ t, exec (.memRead p fn a n) s = .next t ∧
      (t.chip.mem.out = (mread s.chip.mem.dram (mbKey c mb) n).map (fun b => (b, false)) ∧ t.chip.mem.outCode = 0) ∧
      t.chip.bar = s.chip.bar ∧ t.chip.mem.dram = s.chip.mem.dram ∧ t.chip.tiles = s.chip.tiles ∧ t.chip.strands = s.chip.strands := by
  obtain ⟨hs, hcheck⟩ := soundAt_of_burstSound h
  have hexec : exec (.memRead p fn a n) s = .next { s with chip := (
      deliver (ctrAdd s.chip p c 64) (clean (mread s.chip.mem.dram (mbKey c mb) n)) 0) } :=
    onChip_next (f := cmdMemRead p fn a n) (by
      unfold cmdMemRead
      rw [onUnit_next (show p < 17 by omega)]
      simp only [devReadChecked_ok hcheck, devRead_sound hs])
  exact ⟨_, hexec, ⟨rfl, rfl⟩, rfl, rfl, rfl, rfl⟩

theorem modulesKept_wrote {s : State} {u : Chip} {c mb : Nat} {data : List Byte} (h : WroteAt s.chip u c mb data) (out : List MByte) (code : Nat) :
    modulesKept s { s with chip := deliver u out code } c mb data.length := fun k hk => h.others k hk

theorem soundWriteClause {s : State} {p fn a c mb : Nat} {data : List Byte} (hp : p ≤ 16)
    (h : burstSound s.chip p fn a data.length c mb = true) (hd : p = 16 ∨ bitOf (barGet s.chip (aPART_DMAP p)) 0 = false) :
    ∃ t, exec (.memWrite p fn a data false) s = .next t ∧ (t.chip.mem.out = [] ∧ t.chip.mem.outCode = 0) ∧ t.chip.bar = s.chip.bar ∧
      modulesKept s t c mb data.length ∧ mread t.chip.mem.dram (mbKey c mb) data.length = data ∧
      burstSound t.chip p fn a data.length c mb = true := by
  obtain ⟨hs, hcheck⟩ := soundAt_of_burstSound h
  obtain ⟨u, hwrite, hu⟩ := devWrite_sound hs p
  have hexec : exec (.memWrite p fn a data false) s = .next { s with chip := deliver u [] 0 } :=
    onChip_next (f := cmdMemWrite p fn a data false) (by
      unfold cmdMemWrite
      rw [onUnit_next (show p < 17 by omega)]
      simp only [Bool.false_eq_true, if_false]
      rw [show data.map (fun b => (b, false)) = clean data from rfl,
        devWrite_ok (by rw [show (clean data).length = data.length from List.length_map _]; exact hcheck) hd, hwrite])
  have hbar : u.bar = s.chip.bar := by rw [hu.frame]
  exact ⟨_, hexec, ⟨rfl, rfl⟩, hbar, modulesKept_wrote hu _ _, hu.bytes, burstSound_wrote h hu _ _⟩

theorem hdmClause {s : State} {a c mb : Nat} {data : List Byte} (hhit : hdmHit s.chip a data.length = true)
    (hs : SoundAt s.chip a data.length c mb) :
    (∃ t, exec (.hostHdmAccess false a data.length []) s = .next t ∧
      t.chip.mem.out = (mread s.chip.mem.dram (mbKey c mb) data.length).map (fun b => (b, false)) ∧ t.chip.mem.outCode = 0) ∧
    ∃ t, exec (.hostHdmAccess true a 0 data) s = .next t ∧ (t.chip.mem.out = [] ∧ t.chip.mem.outCode = 0) ∧
      modulesKept s t c mb data.length ∧ mread t.chip.mem.dram (mbKey c mb) data.length = data := by
  obtain ⟨u, hwrite, hu⟩ := devWrite_sound hs 16
  have hread : exec (.hostHdmAccess false a data.length []) s = .next { s with chip := (
      deliver (ctrAdd s.chip 16 c 64) (clean (mread s.chip.mem.dram (mbKey c mb) data.length)) 0) } :=
    onChip_next (f := cmdHostHdmAccess false a data.length []) (by
      simp only [cmdHostHdmAccess, hhit, Bool.false_eq_true, if_false, Bool.not_true, devRead_sound hs])
  have hexec : exec (.hostHdmAccess true a 0 data) s = .next { s with chip := deliver u [] 0 } :=
    onChip_next (f := cmdHostHdmAccess true a 0 data) (by
      simp only [cmdHostHdmAccess, hhit, Bool.false_eq_true, if_false, if_true, Bool.not_true, hwrite])
  exact ⟨⟨_, hread, rfl, rfl⟩, _, hexec, ⟨rfl, rfl⟩, modulesKept_wrote hu _ _, hu.bytes⟩

theorem deviceMemoryAccesses : Clauses.DeviceMemoryAccesses := by
  unfold Clauses.DeviceMemoryAccesses
  intro s p fn a n c mb data hp
  exact ⟨fun h => soundReadClause hp h, fun h hd => soundWriteClause hp h hd,
    fun hhit h1 h2 h3 h4 h5 h6 h7 => hdmClause hhit ⟨h1, h2, h3, h4, h5, h6, h7⟩⟩

/-- What an ungranted access leaves of the registers: the partition's code (R520). -/
theorem ungranted_spec (s : Chip) {p : Nat} (hp : p < 16) (c : Nat) :
    onlyBar [aPART_STATUS p] s (if c == 0x2005 && p < 16 then partCode s p 0x4006 else s) ∧
      (c = 0x2005 → fget (if c == 0x2005 && p < 16 then partCode s p 0x4006 else s) (aPART_STATUS p) 63 48 = 0x4006) := by
  refine ⟨onlyBar_ite (onlyBar_fset _ _ _ _ (List.mem_singleton_self _)) (onlyBar_refl _ _), fun hc => ?_⟩
  rw [if_pos (by simp [hc, hp]), partCode, fget_fset_same _ _ _ _ _ (by omega) (by omega)] <;> rfl

/-- A refused access: no byte is delivered, and nothing differs but the registers and what is delivered. -/
theorem refusedAccess {s : State} {u : Chip} {ks : List Nat} (h : onlyBar ks s.chip u) (out : List MByte) (code : Nat) :
    (deliver u out code).mem = { s.chip.mem with out := out, outCode := code } ∧
      chipOnly ks s { s with chip := deliver u out code } (fun c => { c with mem := (deliver u out code).mem }) := by
  obtain ⟨b, rfl⟩ : ∃ b, u = { s.chip with bar := b } := ⟨_, h.1⟩
  exact ⟨rfl, rfl, h.2⟩

theorem forbiddenAccesses : Clauses.ForbiddenAccesses := by
  unfold Clauses.ForbiddenAccesses
  intro s p fn a n data pz hp
  refine ⟨fun hbad => ?_, fun hbad => ?_⟩
  · obtain ⟨hb, hcode⟩ := ungranted_spec s.chip hp (devCheck s.chip p fn a n)
    have hexec : exec (.memRead p fn a n) s = .next { s with chip := (
        deliver (if devCheck s.chip p fn a n == 0x2005 && p < 16 then partCode s.chip p 0x4006 else s.chip)
          (List.replicate n (0#8, false)) (devCheck s.chip p fn a n)) } :=
      onChip_next (f := cmdMemRead p fn a n) (by
        unfold cmdMemRead
        rw [onUnit_next (show p < 17 by omega)]
        simp only [devReadChecked_bad hbad])
    generalize (if devCheck s.chip p fn a n == 0x2005 && p < 16 then partCode s.chip p 0x4006 else s.chip) = u at *
    obtain ⟨hmem, hchip⟩ := refusedAccess hb (List.replicate n (0#8, false)) (devCheck s.chip p fn a n)
    exact ⟨_, hexec, hmem, hchip, hcode⟩
  · obtain ⟨bs, hbs⟩ : ∃ bs : List MByte, bs = data.map (fun b => (if pz then 0#8 else b, pz)) := ⟨_, rfl⟩
    have hlen : bs.length = data.length := by rw [hbs, List.length_map]
    obtain ⟨hb, hcode⟩ := ungranted_spec s.chip hp (devCheck s.chip p fn a data.length)
    have hwrite := devWrite_bad (s := s.chip) (p := p) (fn := fn) (a := a) (bs := bs) (by rw [hlen]; exact hbad)
    rw [hlen] at hwrite
    have hexec : exec (.memWrite p fn a data pz) s = .next { s with chip := (
        deliver (if devCheck s.chip p fn a data.length == 0x2005 && p < 16 then partCode s.chip p 0x4006 else s.chip)
          [] (devCheck s.chip p fn a data.length)) } :=
      onChip_next (f := cmdMemWrite p fn a data pz) (by
        unfold cmdMemWrite
        rw [onUnit_next (show p < 17 by omega)]
        simp only [← hbs, hwrite])
    generalize (if devCheck s.chip p fn a data.length == 0x2005 && p < 16 then partCode s.chip p 0x4006 else s.chip) = u at *
    obtain ⟨hmem, hchip⟩ := refusedAccess hb [] (devCheck s.chip p fn a data.length)
    exact ⟨_, hexec, hmem, hchip, hcode⟩

/-- Settles O32. -/
theorem deviceMemory : Obligations.DeviceMemory := by
  unfold Obligations.DeviceMemory
  exact ⟨deviceMemoryAccesses, forbiddenAccesses⟩

end Sys2Proof.Proofs
end

section
/-! SUPPORT. The banks through the host window, the fetch buffer, and buffer swaps (O30). -/

namespace Sys2Proof.Proofs

open Sys2Proof.Machine

-- The host window (R717).

theorem windowNext_spec (s : Chip) (t : Nat) :
    onlyBar [aTILE_SRAM_ADDR t] s (windowNext s t) ∧
      fget (windowNext s t) (aTILE_SRAM_ADDR t) 21 3 = (fget s (aTILE_SRAM_ADDR t) 21 3 + 1) % 2 ^ 19 :=
  ⟨onlyBar_fset _ _ _ _ (List.mem_singleton_self _), fget_fset_same _ _ _ _ _ (by omega) (by omega)⟩

theorem windowCode_open {s : Chip} {t : Nat} (ho : tileOpen s t = true) (h : fget s (aTILE_SRAM_ADDR t) 21 3 * 8 < 0x300000) :
    Machine.windowCode s t = 0 := by
  unfold Machine.windowCode
  rw [if_pos ho, if_neg (by unfold bankEnd; omega)]
  rfl

theorem windowCode_refused {s : Chip} {t : Nat} (h : tileOpen s t = false ∨ 0x300000 ≤ fget s (aTILE_SRAM_ADDR t) 21 3 * 8) :
    Machine.windowCode s t = if tileOpen s t = true then 0x2080 else if fget s (aTILE_SRAM_ADDR t) 21 3 * 8 < 0x300000 then 0x2081 else 0x2080 := by
  unfold Machine.windowCode
  by_cases ho : tileOpen s t = true
  · rw [if_pos ho, if_pos ho, if_pos (by unfold bankEnd; rw [ho] at h; simpa using h)]
    rfl
  · rw [if_neg ho, if_neg ho]
    by_cases hlt : fget s (aTILE_SRAM_ADDR t) 21 3 * 8 < 0x300000
    · rw [if_neg (by unfold bankEnd; omega), if_pos hlt]
      rfl
    · rw [if_pos (by unfold bankEnd; omega), if_neg hlt]
      rfl

theorem windowRefuse_spec {s : Chip} {t code : Nat} (hcode : code < 2 ^ 16) :
    onlyBar [aRAS_STATUS, aTILE_STATUS t] s (windowRefuse s t code) ∧ fget (windowRefuse s t code) (aTILE_STATUS t) 63 48 = code ∧
      fget (windowRefuse s t code) aRAS_STATUS 31 0 = min (fget s aRAS_STATUS 31 0 + 1) (2 ^ (31 + 1 - 0) - 1) := by
  unfold windowRefuse
  refine ⟨onlyBar_trans (onlyBar_fsat _ _ _ _ (by simp)) (onlyBar_mono (by simp) (onlyBar_tileStatus _ t code)), ?_, ?_⟩
  · rw [fget_tileStatus, Nat.mod_eq_of_lt hcode]
  · rw [tileStatus, fget_fset_other _ _ _ _ _ _ (by unfold aRAS_STATUS aTILE_STATUS; omega), fget_fsat_same _ _ _ _ _ (by omega) (by omega)]

/-- The word that a read delivers is not a register. -/
theorem fget_resp (s : Chip) (d : Word) (k hi lo : Nat) : fget { s with resp := d } k hi lo = fget s k hi lo :=
  fget_of_bar rfl _ _ _

theorem toNat_cellWord (x : Tile) (w : Nat) : (BitVec.ofNat 64 (cellWord x w)).toNat = cellWord x w := by
  have h : cellWord x w < 2 ^ (8 * 8) := leNat_mread_lt x.mem (8 * w) 8
  generalize cellWord x w = n at *
  simp only [BitVec.toNat_ofNat]
  omega

theorem windowReadClause {s : State} {tile : Nat} (ht : tile < 144) (ho : tileOpen s.chip tile = true)
    (hw : fget s.chip (aTILE_SRAM_ADDR tile) 21 3 * 8 < 0x300000)
    (hclean : wordsClean s tile (8 * fget s.chip (aTILE_SRAM_ADDR tile) 21 3) 8 = true) :
    ∃ t, exec (.tileSramDataRead tile) s = .next t ∧
      fget t.chip (aTILE_SRAM_ADDR tile) 21 3 = (fget s.chip (aTILE_SRAM_ADDR tile) 21 3 + 1) % 2 ^ 19 ∧ banksKept s t tile 0 0 ∧
      t.chip.resp.toNat = leNat (bankBytes s tile (8 * fget s.chip (aTILE_SRAM_ADDR tile) 21 3) 8) ∧
      ∀ k, k ≠ aTILE_SRAM_ADDR tile → barGet t.chip k = barGet s.chip k := by
  obtain ⟨w, hwd⟩ : ∃ w, w = fget s.chip (aTILE_SRAM_ADDR tile) 21 3 := ⟨_, rfl⟩
  rw [← hwd] at hw hclean ⊢
  obtain ⟨u, hu⟩ : ∃ u, u = ctrBank s.chip tile false 1 := ⟨_, rfl⟩
  have htile : getTile u tile = getTile s.chip tile := by rw [hu]; rfl
  obtain ⟨n, hn⟩ : ∃ n, n = cellWord (getTile s.chip tile) w := ⟨_, rfl⟩
  have hlt : (BitVec.ofNat 64 n).toNat = n := hn ▸ toNat_cellWord _ _
  have hread : readWord u tile w = (u, plain n) := by
    have hs : wordSound (getTile u tile) w := by
      rw [htile]
      exact wordSound_of_wordsClean hclean (by omega) (by omega)
    rw [readWord_sound hs, htile, ← hn]
    rfl
  obtain ⟨v, hv⟩ : ∃ v, v = windowNext u tile := ⟨_, rfl⟩
  obtain ⟨z, hz⟩ : ∃ z : Chip, z = { v with resp := BitVec.ofNat 64 n } := ⟨_, rfl⟩
  have hexec : exec (.tileSramDataRead tile) s = .next { s with chip := z } :=
    onChip_next (f := cmdTileSramDataRead tile) (by
      unfold cmdTileSramDataRead
      rw [onTile, onUnit_next ht, hz]
      simp only [windowCode_open ho (hwd ▸ hw), bne_self_eq_false, Bool.false_eq_true, if_false, ← hwd, ← hu, hread, plain, ← hv])
  obtain ⟨hb, hmoved⟩ := windowNext_spec u tile
  have hbar : u.bar = s.chip.bar := by rw [hu]; rfl
  rw [fget_of_bar hbar, ← hwd] at hmoved
  rw [← hv] at hb hmoved
  have htv : getTile v tile = getTile s.chip tile := (getTile_of_onlyBar hb tile).trans htile
  have hzbar : z.bar = v.bar := by rw [hz]
  have hztile : getTile z tile = getTile v tile := by rw [hz]; rfl
  have hzresp : z.resp.toNat = n := by rw [hz, hlt]
  have hmem : (getTile z tile).mem = (getTile s.chip tile).mem := by rw [hztile, htv]
  refine ⟨_, hexec, (fget_of_bar hzbar _ _ _).trans hmoved, banksKept_of_mem hmem, hzresp.trans hn, fun k hk => ?_⟩
  have hvk := hb.2 k (by simpa using hk)
  unfold barGet at hvk ⊢
  rw [hzbar, hvk, hbar]

theorem windowWriteClause {s : State} {tile : Nat} (data : Word) (ht : tile < 144) (ho : tileOpen s.chip tile = true)
    (hw : fget s.chip (aTILE_SRAM_ADDR tile) 21 3 * 8 < 0x300000) :
    ∃ t, exec (.tileSramDataWrite tile data) s = .next t ∧
      fget t.chip (aTILE_SRAM_ADDR tile) 21 3 = (fget s.chip (aTILE_SRAM_ADDR tile) 21 3 + 1) % 2 ^ 19 ∧
      banksKept s t tile (8 * fget s.chip (aTILE_SRAM_ADDR tile) 21 3) 8 ∧
      leNat (bankBytes t tile (8 * fget s.chip (aTILE_SRAM_ADDR tile) 21 3) 8) = data.toNat ∧
      ∀ k, k ≠ aTILE_SRAM_ADDR tile → barGet t.chip k = barGet s.chip k := by
  obtain ⟨w, hwd⟩ : ∃ w, w = fget s.chip (aTILE_SRAM_ADDR tile) 21 3 := ⟨_, rfl⟩
  rw [← hwd] at hw ⊢
  obtain ⟨ho', hk, hv, -⟩ := writeWord_spec (ctrBank s.chip tile true 1) tile w data.toNat
  obtain ⟨u, hu⟩ : ∃ u, u = writeWord (ctrBank s.chip tile true 1) tile w ⟨data.toNat, false⟩ := ⟨_, rfl⟩
  have hbar : u.bar = s.chip.bar := by rw [hu]; rfl
  have hexec : exec (.tileSramDataWrite tile data) s = .next { s with chip := windowNext u tile } :=
    onChip_next (f := cmdTileSramDataWrite tile data) (by
      unfold cmdTileSramDataWrite
      rw [onTile, onUnit_next ht]
      simp only [windowCode_open ho (hwd ▸ hw), bne_self_eq_false, Bool.false_eq_true, if_false, ← hwd, ← hu])
  rw [← hu] at ho' hk hv
  obtain ⟨hb, hmoved⟩ := windowNext_spec u tile
  rw [fget_of_bar hbar, ← hwd] at hmoved
  generalize windowNext u tile = v at *
  have htv : getTile v tile = getTile u tile := getTile_of_onlyBar hb tile
  refine ⟨_, hexec, hmoved, fun a ha => ?_, ?_, fun k hk' => ?_⟩
  · change mget (getTile v tile).mem a = _
    rw [htv, hk a ha]
    rfl
  · change leNat (mread (getTile v tile).mem (8 * w) 8) = _
    rw [htv, hv, Nat.mod_eq_of_lt data.isLt]
  · refine (hb.2 k (by simpa using hk')).trans ?_
    unfold barGet
    rw [hbar]

theorem refusedCode_pos (a b : Prop) [Decidable a] [Decidable b] :
    (if a then 0x2080 else if b then 0x2081 else 0x2080) ≠ 0 ∧ (if a then 0x2080 else if b then 0x2081 else 0x2080) < 2 ^ 16 := by
  split
  · omega
  · split <;> omega

theorem windowRefusedClause {s : State} {tile : Nat} (data : Word) (ht : tile < 144)
    (h : tileOpen s.chip tile = false ∨ 0x300000 ≤ fget s.chip (aTILE_SRAM_ADDR tile) 21 3 * 8) :
    let code := if tileOpen s.chip tile = true then 0x2080
      else if fget s.chip (aTILE_SRAM_ADDR tile) 21 3 * 8 < 0x300000 then 0x2081 else 0x2080
    (∃ t, exec (.tileSramDataRead tile) s = .next t ∧ t.chip.resp = BitVec.allOnes 64 ∧
      regsOnly [aRAS_STATUS, aTILE_STATUS tile] { s with chip := { s.chip with resp := BitVec.allOnes 64 } } t ∧
      fget t.chip (aTILE_STATUS tile) 63 48 = code ∧ countedOne s t aRAS_STATUS 31 0) ∧
    ∃ t, exec (.tileSramDataWrite tile data) s = .next t ∧ regsOnly [aRAS_STATUS, aTILE_STATUS tile] s t ∧
      fget t.chip (aTILE_STATUS tile) 63 48 = code ∧ countedOne s t aRAS_STATUS 31 0 := by
  intro code
  have hc : Machine.windowCode s.chip tile = code := windowCode_refused h
  have hpos : code ≠ 0 ∧ code < 2 ^ 16 := refusedCode_pos _ _
  generalize code = code at *
  obtain ⟨hb, hstatus, hcount⟩ := windowRefuse_spec (s := s.chip) (t := tile) hpos.2
  obtain ⟨u, hu⟩ : ∃ u, u = windowRefuse s.chip tile code := ⟨_, rfl⟩
  rw [← hu] at hb hstatus hcount
  have hread : exec (.tileSramDataRead tile) s = .next { s with chip := (
      { u with resp := BitVec.allOnes 64 }) } :=
    onChip_next (f := cmdTileSramDataRead tile) (by
      unfold cmdTileSramDataRead
      rw [onTile, onUnit_next ht]
      simp only [hc, bne_iff_ne, ne_eq, hpos.1, not_false_eq_true, if_true, ← hu])
  have hwrite : exec (.tileSramDataWrite tile data) s = .next { s with chip := u } :=
    onChip_next (f := cmdTileSramDataWrite tile data) (by
      unfold cmdTileSramDataWrite
      rw [onTile, onUnit_next ht]
      simp only [hc, bne_iff_ne, ne_eq, hpos.1, not_false_eq_true, if_true, ← hu])
  refine ⟨⟨_, hread, rfl, ⟨?_, hb.2⟩, (fget_resp ..).trans hstatus, (fget_resp ..).trans hcount⟩, _, hwrite, regsOnly_of_onlyBar hb, hstatus, hcount⟩
  obtain ⟨b, rfl⟩ : ∃ b, u = { s.chip with bar := b } := ⟨_, hb.1⟩
  rfl

theorem windowAccesses : Clauses.WindowAccesses := by
  unfold Clauses.WindowAccesses
  intro s tile data ht
  exact ⟨fun ho hw => ⟨fun hc => windowReadClause ht ho hw hc, windowWriteClause data ht ho hw⟩, windowRefusedClause data ht⟩

-- The fetch buffer (R158).

/-- A pass over a list in which one element alone acts. -/
theorem forEach_only {α : Type} [DecidableEq α] {f : Chip → α → Chip} {s : Chip} {l : List α} {i : α} (hn : l.Nodup) (hi : i ∈ l)
    (hs : ∀ j ∈ l, j ≠ i → f s j = s) (hu : ∀ j ∈ l, j ≠ i → f (f s i) j = f s i) : forEach l f s = f s i := by
  induction l with
  | nil => exact absurd hi List.not_mem_nil
  | cons x l ih =>
    obtain ⟨hx, hl⟩ := List.nodup_cons.1 hn
    rw [forEach_cons]
    by_cases hxi : x = i
    · subst hxi
      exact forEach_eq_self fun j hj => hu j (List.mem_cons_of_mem _ hj) fun h => hx (h ▸ hj)
    · rw [hs x List.mem_cons_self hxi]
      exact ih hl ((List.mem_cons.1 hi).resolve_left fun h => hxi h.symm) (fun j hj => hs j (List.mem_cons_of_mem _ hj))
        (fun j hj => hu j (List.mem_cons_of_mem _ hj))

/-- A bundle without slots only moves its strand on. -/
theorem issue_nil (s : Chip) (t i : Nat) : issue s t i [] = retire s t i .fall := rfl

theorem tryIssue_empty {s : Chip} {t i : Nat} (hruns : strandRuns s t i = true) (hpend : (getStrand s t i).pend = [])
    (hhalf : (tget (fun _ => ({} : Halves)) (getTile s t).halves i).waiting = false) (hpc : (getStrand s t i).pc < bundleEnd)
    (hfetched : fetched (getStrand s t i) (getTile s t) ((getTile s t).lcOwner == some i) = true)
    (hpoison : bundlePoison (getStrand s t i) (getTile s t) ((getTile s t).lcOwner == some i) = false)
    (hslots : (getStrand s t i).slots = []) : tryIssue s t i = retire s t i .fall := by
  have hrecs : slotRecs s t i = [] := by
    simp only [slotRecs, hslots]
    rfl
  unfold tryIssue
  simp only [hruns, hpend, hhalf, hfetched, hpoison, hrecs, lowestPend, Bool.not_true, Bool.false_eq_true, if_false, issue_nil]
  rw [if_neg (by omega)]

theorem advance_fall {x : Strand} (hslots : x.slots = []) (hloops : x.loops = []) :
    advance .fall x = { x with pc := x.pc + 1, wait := none, timedOut := false } := by
  simp only [advance, hloops, fallFrom, ← hslots]

/-- One strand of the tile that waits goes on; no other waits. -/
theorem retryTile_one {s : Chip} {t i : Nat} {x : Strand} (hi : i < 8) (hfetch : (getStrand s t i).wait = some ⟨.fetch, 0⟩)
    (hothers : ∀ j, j < 8 → j ≠ i → (getStrand s t j).wait = none) (htry : tryIssue s t i = setStrand s t i x) (hx : x.wait = none) :
    retryTile s t = setStrand s t i x := by
  have hself : retry s t i = setStrand s t i x := by
    rw [retry, hfetch]
    exact htry
  have hsame : ∀ j, j < 8 → j ≠ i → (getStrand (setStrand s t i x) t j).wait = none := fun j hj hne => by
    rw [getStrand_setStrand, if_neg (by unfold skey; omega)]
    exact hothers j hj hne
  have hrun : forEach (List.range 8) (fun st i => retry st t i) s = setStrand s t i x := by
    rw [forEach_only (i := i) List.nodup_range (List.mem_range.2 hi) (fun j hj hne => retry_of_wait_none (hothers j (List.mem_range.1 hj) hne))
      (fun j hj hne => by rw [hself]; exact retry_of_wait_none (hsame j (List.mem_range.1 hj) hne)), hself]
  rw [retryTile, hrun]
  refine retryCache_quiet _ _ (List.all_eq_true.2 fun j hj => ?_)
  by_cases hji : j = i
  · rw [hji, getStrand_setStrand_same, hx]
    rfl
  · rw [hsame j (List.mem_range.1 hj) hji]
    rfl

theorem fetchPut_new {y : Tile} {line : Nat} (hnew : y.fetch.contains line = false) (hroom : y.fetch.length < 256) :
    fetchPut y line = { y with fetch := y.fetch ++ [line] } := by
  unfold fetchPut
  rw [hnew, if_neg (by simp), if_pos hroom]

theorem fetchClause {s : State} {tile i : Nat} (ht : tile < 144) (hi : i < 8)
    (hwait : (getStrand s.chip tile i).wait = some ⟨.fetch, 0⟩) (hslots : (getStrand s.chip tile i).slots = [])
    (hpend : (getStrand s.chip tile i).pend = [])
    (hhalf : (tget (fun _ => ({} : Halves)) (getTile s.chip tile).halves i).waiting = false) (hruns : strandRuns s.chip tile i = true)
    (ho : tileOpen s.chip tile = true) (hpc : (getStrand s.chip tile i).pc < bundleEnd)
    (hclean : wordsClean s tile (16 * (getStrand s.chip tile i).pc / 64 * 64) 64 = true)
    (hnew : fetched (getStrand s.chip tile i) (getTile s.chip tile) ((getTile s.chip tile).lcOwner == some i) = false)
    (hroom : (getTile s.chip tile).fetch.length < 256) (hloops : (getStrand s.chip tile i).loops = [])
    (hothers : ∀ j, j < 8 → j ≠ i → (getStrand s.chip tile j).wait = none) :
    ∃ t, exec (.fetchLineArrival tile ((getStrand s.chip tile i).pc / 4)) s = .next t ∧ banksKept s t tile 0 0 ∧
      (getTile t.chip tile).fetch = (getTile s.chip tile).fetch ++ [(getStrand s.chip tile i).pc / 4] ∧
      getStrand t.chip tile i = { getStrand s.chip tile i with
        pc := (getStrand s.chip tile i).pc + 1, wait := none, timedOut := false } := by
  obtain ⟨x, hx⟩ : ∃ x, x = getStrand s.chip tile i := ⟨_, rfl⟩
  obtain ⟨y, hy⟩ : ∃ y, y = getTile s.chip tile := ⟨_, rfl⟩
  rw [← hx, ← hy] at hnew
  rw [← hy] at hhalf hroom
  rw [← hx] at hwait hslots hpend hpc hclean hloops ⊢
  have hcontains : y.fetch.contains (x.pc / 4) = false := by
    unfold fetched at hnew
    exact (Bool.or_eq_false_iff.1 hnew).2
  have hsound : ∀ j, j < 8 → wordSound y (8 * (x.pc / 4) + j) := fun j hj => by
    rw [hy]
    exact wordSound_of_wordsClean hclean (by omega) (by omega)
  have hwants : wantsLine s.chip tile (x.pc / 4) = true :=
    List.any_eq_true.2 ⟨i, List.mem_range.2 hi, by simp [← hx, hwait]⟩
  obtain ⟨u, hu⟩ : ∃ u, u = ctrBank s.chip tile false 1 := ⟨_, rfl⟩
  have hread : (readWords u tile (8 * (x.pc / 4)) 8).1 = u := by
    rw [readWords_sound fun j hj => by rw [hu, getTile_ctrBank, ← hy]; exact hsound j hj]
  obtain ⟨v, hv⟩ : ∃ v, v = modTile u tile (fun y => fetchPut y (x.pc / 4)) := ⟨_, rfl⟩
  have hexec : exec (.fetchLineArrival tile (x.pc / 4)) s = .next { s with chip := retryTile v tile } :=
    onChip_next (f := cmdFetchLineArrival tile (x.pc / 4)) (by
      unfold cmdFetchLineArrival
      rw [onTile, onUnit_next ht]
      simp only [hwants, ho, Bool.not_true, Bool.or_self, Bool.false_eq_true, if_false, ← hu, hread, ← hv])
  have hvstrand : ∀ j, getStrand v tile j = getStrand s.chip tile j := fun j => by rw [hv, hu]; rfl
  have hvtile : getTile v tile = { y with fetch := y.fetch ++ [x.pc / 4] } := by
    rw [hv, getTile_modTile_same, hu, getTile_ctrBank, ← hy, fetchPut_new hcontains hroom]
  have hvruns : strandRuns v tile i = true := by
    have : strandRuns v tile i = strandRuns s.chip tile i := by
      unfold strandRuns
      rw [hvstrand, hv, hu]
      rfl
    rw [this, hruns]
  have hcache : fromCache x (y.lcOwner == some i) = false := by simp only [fromCache, hloops]
  have hxv : getStrand v tile i = x := (hvstrand i).trans hx.symm
  obtain ⟨z, hz⟩ : ∃ z : Strand, z = { x with pc := x.pc + 1, wait := none, timedOut := false } := ⟨_, rfl⟩
  have htry : tryIssue v tile i = setStrand v tile i z := by
    have hretire : retire v tile i .fall = setStrand v tile i z := by
      have hadv : advance .fall x = z := (advance_fall hslots hloops).trans hz.symm
      have hnone : x.loops.any (·.cached) = false := by rw [hloops]; rfl
      unfold retire
      simp only [hxv, hnone, hadv, Bool.false_and, Bool.false_eq_true, if_false]
    rw [← hretire]
    refine tryIssue_empty hvruns (hxv ▸ hpend) (by rw [hvtile]; exact hhalf) (hxv ▸ hpc) ?_ ?_ (hxv ▸ hslots)
    · rw [hxv, hvtile]
      simp [fetched]
    · rw [hxv, hvtile]
      obtain ⟨-, h0⟩ := hsound (2 * x.pc - 8 * (x.pc / 4)) (by omega)
      obtain ⟨-, h1⟩ := hsound (2 * x.pc + 1 - 8 * (x.pc / 4)) (by omega)
      rw [show 8 * (x.pc / 4) + (2 * x.pc - 8 * (x.pc / 4)) = 2 * x.pc by omega] at h0
      rw [show 8 * (x.pc / 4) + (2 * x.pc + 1 - 8 * (x.pc / 4)) = 2 * x.pc + 1 by omega] at h1
      simp only [bundlePoison, h0, h1, Bool.or_self, Bool.and_false]
  rw [retryTile_one hi (by rw [hxv]; exact hwait) (fun j hj hne => by rw [hvstrand]; exact hothers j hj hne) htry (by rw [hz])] at hexec
  have htile : getTile (setStrand v tile i z) tile = { y with fetch := y.fetch ++ [x.pc / 4] } := hvtile
  refine ⟨_, hexec, banksKept_of_mem ?_, ?_, (getStrand_setStrand_same _ _ _ _).trans hz⟩
  · rw [htile, ← hy]
  · rw [htile, ← hy]

-- Buffer swaps (R163, R429).

theorem freeBelow_two (s : Chip) : (freeBelow s 2).1 = 0 ∨ (freeBelow s 2).1 = 1 := by
  have : (freeBelow s 2).1 < 2 := Nat.mod_lt _ (by omega)
  omega

/-- The halves of one strand's buffer as they are put. -/
def putHalves (s : Chip) (tile i : Nat) (z : Halves) : Chip :=
  modTile s tile (fun y => { y with halves := tset (fun _ => ({} : Halves)) i z y.halves })

theorem putHalves_spec (s : Chip) (tile i : Nat) (z : Halves) :
    tget (fun _ => ({} : Halves)) (getTile (putHalves s tile i z) tile).halves i = z ∧
      (getTile (putHalves s tile i z) tile).mem = (getTile s tile).mem := by
  unfold putHalves
  rw [getTile_modTile_same]
  exact ⟨tget_tset_same _ _ _ _, rfl⟩

theorem lateSwapClause {s : State} {tile i : Nat} (ht : tile < 144) (hi : i < 8)
    (hw : (tget (fun _ => ({} : Halves)) (getTile s.chip tile).halves i).waiting = true) (hq : tileQuiet s.chip tile = true) :
    ∃ t, exec (.bufferSwap tile i) s = .next t ∧ tileOnly tile s t ∧
      tget (fun _ => ({} : Halves)) (getTile t.chip tile).halves i =
        ⟨!(tget (fun _ => ({} : Halves)) (getTile s.chip tile).halves i).half, false⟩ := by
  obtain ⟨h, hh⟩ : ∃ h, h = tget (fun _ => ({} : Halves)) (getTile s.chip tile).halves i := ⟨_, rfl⟩
  rw [← hh] at hw ⊢
  obtain ⟨u, hu⟩ : ∃ u, u = putHalves s.chip tile i ⟨!h.half, false⟩ := ⟨_, rfl⟩
  have huq : tileQuiet u tile = true := by
    rw [hu]
    exact hq
  have hexec : exec (.bufferSwap tile i) s = .next { s with chip := u } :=
    onChip_next (f := cmdBufferSwap tile i) (by
      unfold cmdBufferSwap
      rw [onStrand_next ht hi]
      simp only [← hh, hw, if_true]
      exact congrArg Host.Outcome.next ((congrArg (retryTile · tile) hu.symm).trans (retryTile_quiet huq)))
  obtain ⟨hz, -⟩ := putHalves_spec s.chip tile i ⟨!h.half, false⟩
  rw [← hu] at hz
  refine ⟨_, hexec, ⟨by rw [hu]; rfl, fun k hk => ?_⟩, hz⟩
  rw [hu]
  exact getTile_modTile_other s.chip hk _

theorem swapClause {s : State} {tile i : Nat} (ht : tile < 144) (hi : i < 8)
    (hw : (tget (fun _ => ({} : Halves)) (getTile s.chip tile).halves i).waiting = false) (ha : tileAnvil s.chip tile = false) :
    ∃ t, exec (.bufferSwap tile i) s = .next t ∧ banksKept s t tile 0 0 ∧
      (tget (fun _ => ({} : Halves)) (getTile t.chip tile).halves i =
          ⟨!(tget (fun _ => ({} : Halves)) (getTile s.chip tile).halves i).half, false⟩ ∧
        t.chip.bar = s.chip.bar ∧ t.chip.strands = s.chip.strands ∨
      tget (fun _ => ({} : Halves)) (getTile t.chip tile).halves i =
          ⟨(tget (fun _ => ({} : Halves)) (getTile s.chip tile).halves i).half, true⟩ ∧
        countedOne s t (aTILE_STATUS tile) 23 16 ∧
        getStrand t.chip tile i = { getStrand s.chip tile i with wait := some ⟨.swap, 0⟩ }) := by
  obtain ⟨h, hh⟩ : ∃ h, h = tget (fun _ => ({} : Halves)) (getTile s.chip tile).halves i := ⟨_, rfl⟩
  rw [← hh] at hw ⊢
  obtain ⟨v, hv⟩ : ∃ v, v = (freeBelow s.chip 2).2 := ⟨_, rfl⟩
  have hvs : v = { s.chip with freeCtr := s.chip.freeCtr + 1 } := hv
  have htile : getTile v tile = getTile s.chip tile := by rw [hvs]; rfl
  rcases freeBelow_two s.chip with h0 | h1
  · obtain ⟨u, hu⟩ : ∃ u, u = putHalves v tile i ⟨!h.half, false⟩ := ⟨_, rfl⟩
    have hexec : exec (.bufferSwap tile i) s = .next { s with chip := u } :=
      onChip_next (f := cmdBufferSwap tile i) (by
        unfold cmdBufferSwap
        rw [onStrand_next ht hi]
        simp only [← hh, hw, h0, Bool.false_eq_true, if_false, beq_self_eq_true, if_true, ← hv]
        exact congrArg Host.Outcome.next hu.symm)
    obtain ⟨hz, hm⟩ := putHalves_spec v tile i ⟨!h.half, false⟩
    rw [← hu] at hz hm
    exact ⟨_, hexec, banksKept_of_mem (by rw [hm, htile]), .inl ⟨hz, by rw [hu, hvs]; rfl, by rw [hu, hvs]; rfl⟩⟩
  · obtain ⟨u, hu⟩ : ∃ u, u = putHalves v tile i ⟨h.half, true⟩ := ⟨_, rfl⟩
    obtain ⟨w, hw'⟩ : ∃ w, w = fsat u (aTILE_STATUS tile) 23 16 1 := ⟨_, rfl⟩
    have hb : onlyBar [aTILE_STATUS tile] u w := hw' ▸ onlyBar_fsat _ _ _ _ (List.mem_singleton_self _)
    have hcount : fget w (aTILE_STATUS tile) 23 16 = min (fget u (aTILE_STATUS tile) 23 16 + 1) (2 ^ (23 + 1 - 16) - 1) :=
      hw' ▸ fget_fsat_same _ _ _ _ _ (by omega) (by omega)
    have hubar : u.bar = s.chip.bar := by rw [hu, hvs]; rfl
    have hustrand : getStrand u tile i = getStrand s.chip tile i := by rw [hu, hvs]; rfl
    have hexec : exec (.bufferSwap tile i) s = .next { s with chip := modStrand w tile i (fun x => { x with wait := some ⟨.swap, 0⟩ }) } :=
      onChip_next (f := cmdBufferSwap tile i) (by
        unfold cmdBufferSwap
        rw [onStrand_next ht hi]
        simp only [← hh, hw, h1, ha, Bool.false_eq_true, if_false, ← hv]
        rw [hw', hu]
        rfl)
    obtain ⟨hz, hm⟩ := putHalves_spec v tile i ⟨h.half, true⟩
    rw [← hu] at hz hm
    have htw : getTile (modStrand w tile i (fun x => { x with wait := some ⟨.swap, 0⟩ })) tile = getTile u tile :=
      (getTile_modStrand ..).trans (getTile_of_onlyBar hb tile)
    rw [fget_of_bar hubar] at hcount
    refine ⟨_, hexec, banksKept_of_mem (by rw [htw, hm, htile]), .inr ⟨by rw [htw, hz], hcount, ?_⟩⟩
    rw [getStrand_modStrand_same, getStrand_of_strands (strands_of_onlyBar hb), hustrand]

theorem fetchAndSwap : Clauses.FetchAndSwap := by
  unfold Clauses.FetchAndSwap
  intro s tile i ht hi
  refine ⟨fun line hline => ?_, fun h1 h2 h3 h4 h5 h6 h7 h8 h9 h10 h11 h12 => fetchClause ht hi h1 h2 h3 h4 h5 h6 h7 h8 h9 h10 h11 h12,
    swapClause ht hi, lateSwapClause ht hi⟩
  exact onChip_next (c := s.chip) (f := cmdFetchLineArrival tile line) (by
    unfold cmdFetchLineArrival
    rw [onTile, onUnit_next ht]
    simp only [hline, Bool.not_false, Bool.true_or, if_true])

/-- Settles O30. -/
theorem windowFetchAndSwap : Obligations.WindowFetchAndSwap := by
  unfold Obligations.WindowFetchAndSwap
  exact ⟨windowAccesses, fetchAndSwap⟩

end Sys2Proof.Proofs
end

section
/-! SUPPORT. Byte fields, queue contexts in the cache, and transfers: what reads of them return after each change. -/

namespace Sys2Proof.Proofs

open Sys2Proof.Machine

-- Fields of byte strings.

@[simp] theorem bSet_length {l : List Byte} {o n : Nat} (v : Nat) (h : o + n ≤ l.length) : (bSet l o n v).length = l.length := by
  simp only [bSet, List.length_append, List.length_take, leBytes_length, List.length_drop]
  omega

theorem bNat_bSet_same {l : List Byte} {o n : Nat} (v : Nat) (h : o + n ≤ l.length) : bNat (bSet l o n v) o n = v % 2 ^ (8 * n) := by
  have ho : (l.take o).length = o := by simp only [List.length_take]; omega
  unfold bNat bSet
  rw [List.append_assoc, List.drop_append_of_le_length (by omega), List.drop_of_length_le (by omega), List.nil_append,
    List.take_append_of_le_length (by simp), List.take_of_length_le (by simp), leNat_leBytes]

/-- A field replaced leaves what stands before it and behind it. -/
theorem slice_bSet {l : List Byte} {o n a b : Nat} (v : Nat) (h : o + n ≤ l.length) (hd : a + b ≤ o ∨ o + n ≤ a) :
    ((bSet l o n v).drop a).take b = (l.drop a).take b := by
  have ho : (l.take o).length = o := by simp only [List.length_take]; omega
  have hon : (l.take o ++ leBytes n v).length = o + n := by simp only [List.length_append, ho, leBytes_length]
  unfold bSet
  rcases hd with hd | hd
  · rw [List.append_assoc, List.drop_append_of_le_length (by omega), List.take_append_of_le_length (by simp only [List.length_drop]; omega),
      List.drop_take, List.take_take, min_eq_left (by omega)]
  · rw [List.drop_append, List.drop_of_length_le (by omega), List.nil_append, hon, List.drop_drop, show o + n + (a - (o + n)) = a by omega]

theorem bNat_bSet_other {l : List Byte} {o n o' n' : Nat} (v : Nat) (h : o + n ≤ l.length) (hd : o' + n' ≤ o ∨ o + n ≤ o') :
    bNat (bSet l o n v) o' n' = bNat l o' n' := by
  unfold bNat
  rw [slice_bSet v h hd]

-- Tables that hold one entry for a key.

theorem find_tput {α : Type} (q : Nat) (c : α) (t : Tab α) : (tput q c (tdel q t)).find? (fun p => p.1 == q) = some (q, c) := by
  have hdel : ∀ t : Tab α, ∀ p ∈ tdel q t, p.1 ≠ q := by
    intro t
    induction t with
    | nil => simp [tdel]
    | cons x r ih =>
      intro p hp
      unfold tdel at hp
      split at hp
      · exact ih p hp
      · rename_i hne
        rcases List.mem_cons.1 hp with rfl | hp
        · exact hne
        · exact ih p hp
  have hput : ∀ t : Tab α, (∀ p ∈ t, p.1 ≠ q) → (tput q c t).find? (fun p => p.1 == q) = some (q, c) := by
    intro t
    induction t with
    | nil => simp [tput]
    | cons x r ih =>
      intro h
      unfold tput
      split
      · simp
      · rw [List.find?_cons_of_neg (by simpa using h x List.mem_cons_self)]
        exact ih fun p hp => h p (List.mem_cons_of_mem _ hp)
  exact hput _ (hdel t)

theorem find_tput_other {α : Type} {q k : Nat} (h : k ≠ q) (c : α) (t : Tab α) :
    (tput q c (tdel q t)).find? (fun p => p.1 == k) = t.find? (fun p => p.1 == k) := by
  have hput : ∀ t : Tab α, (tput q c t).find? (fun p => p.1 == k) = t.find? (fun p => p.1 == k) := by
    intro t
    induction t with
    | nil => simp [tput, Ne.symm h]
    | cons x r ih =>
      unfold tput
      split
      · rw [List.find?_cons_of_neg (by simpa using Ne.symm h)]
      · rw [List.find?_cons, List.find?_cons, ih]
  have hdel : ∀ t : Tab α, (tdel q t).find? (fun p => p.1 == k) = t.find? (fun p => p.1 == k) := by
    intro t
    induction t with
    | nil => rfl
    | cons x r ih =>
      unfold tdel
      split
      · rename_i hx
        rw [ih, List.find?_cons_of_neg (by simpa [hx] using Ne.symm h)]
      · rw [List.find?_cons, List.find?_cons, ih]
  rw [hput, hdel]

-- Contexts and transfers.

def putQm (u s : Chip) : Chip := { s with qm := u.qm }

theorem parts_qm : Parts putQm := ⟨fun _ _ _ _ => rfl, fun _ _ => rfl⟩

theorem within_qmMod (ks : List Nat) (s : Chip) (f : QM → QM) : within putQm ks s (qmMod s f) := ⟨rfl, fun _ _ => rfl⟩

theorem queueOnly_of_within {s : State} {u : Chip} {ks : List Nat} (h : within putQm ks s.chip u) : queueOnly ks s { s with chip := u } :=
  chipOnly_of_within h

/-- The cache holds the queue's context, and the queue's transfers are those listed. -/
structure QueueAt (s : Chip) (q : Nat) (c : List Byte) (xs : List Xfer) : Prop where
  cached : s.qm.cached.find? (fun p => p.1 == q) = some (q, c)
  xfers : xfersOf s q = xs

section
variable {s : Chip} {q : Nat} {c : List Byte} {xs : List Xfer}

theorem QueueAt.peek (h : QueueAt s q c xs) : ctxPeek s q = c := by
  unfold ctxPeek
  rw [h.cached]

theorem QueueAt.of_qm {u : Chip} (h : QueueAt s q c xs) (hu : u.qm = s.qm) : QueueAt u q c xs := by
  refine ⟨by rw [hu]; exact h.cached, ?_⟩
  unfold xfersOf
  rw [hu]
  exact h.xfers

theorem QueueAt.touch (h : QueueAt s q c xs) (d : List Byte) : QueueAt (ctxTouch s q d) q d xs :=
  ⟨find_tput q d s.qm.cached, h.xfers⟩

theorem QueueAt.touch_other (h : QueueAt s q c xs) {k : Nat} (hk : q ≠ k) (d : List Byte) : QueueAt (ctxTouch s k d) q c xs :=
  ⟨(find_tput_other hk d s.qm.cached).trans h.cached, h.xfers⟩

theorem QueueAt.field (h : QueueAt s q c xs) (o n v : Nat) : QueueAt (ctxField s q o n v) q (bSet c o n v) xs := by
  unfold ctxField
  rw [h.peek]
  exact h.touch _

theorem QueueAt.field_other (h : QueueAt s q c xs) {k : Nat} (hk : q ≠ k) (o n v : Nat) : QueueAt (ctxField s k o n v) q c xs :=
  h.touch_other hk _

theorem QueueAt.setXfers (h : QueueAt s q c xs) (l : List Xfer) : QueueAt (setXfers s q l) q c l :=
  ⟨h.cached, tget_tset_same (fun _ => []) q l s.qm.xfers⟩

theorem QueueAt.setXfers_other (h : QueueAt s q c xs) {k : Nat} (hk : q ≠ k) (l : List Xfer) : QueueAt (Machine.setXfers s k l) q c xs :=
  ⟨h.cached, (tget_tset_other (fun _ => []) hk l s.qm.xfers).trans h.xfers⟩

theorem QueueAt.modXfer (h : QueueAt s q c xs) (slot : Nat) (f : Xfer → Xfer) :
    QueueAt (modXfer s q slot f) q c (xs.map (fun x => if x.slot == slot then f x else x)) := by
  unfold Machine.modXfer
  rw [h.xfers]
  exact h.setXfers _

theorem QueueAt.headArrives (h : QueueAt s q c xs) (k : Nat) : QueueAt (headArrives s k) q c xs := ⟨h.cached, h.xfers⟩

theorem QueueAt.setQState (h : QueueAt s q c xs) (v : Nat) : QueueAt (setQState s q v) q (bSet c 28 1 v) xs := h.field _ _ _

theorem QueueAt.load (h : QueueAt s q c xs) : ctxLoad s q = some (ctxTouch s q c, c) := by
  unfold ctxLoad
  rw [if_pos (List.any_eq_true.2 ⟨_, List.mem_of_find?_eq_some h.cached, by simp⟩), h.peek]

theorem within_ctxTouch (ks : List Nat) (s : Chip) (q : Nat) (d : List Byte) : within putQm ks s (ctxTouch s q d) := within_qmMod ..

theorem within_ctxField (ks : List Nat) (s : Chip) (q o n v : Nat) : within putQm ks s (ctxField s q o n v) := ⟨rfl, fun _ _ => rfl⟩

theorem within_setXfers (ks : List Nat) (s : Chip) (q : Nat) (l : List Xfer) : within putQm ks s (Machine.setXfers s q l) := ⟨rfl, fun _ _ => rfl⟩

theorem within_modXfer (ks : List Nat) (s : Chip) (q slot : Nat) (f : Xfer → Xfer) : within putQm ks s (Machine.modXfer s q slot f) :=
  ⟨rfl, fun _ _ => rfl⟩

theorem within_headArrives (ks : List Nat) (s : Chip) (q : Nat) : within putQm ks s (Machine.headArrives s q) := ⟨rfl, fun _ _ => rfl⟩

theorem within_setQState (ks : List Nat) (s : Chip) (q v : Nat) : within putQm ks s (Machine.setQState s q v) := ⟨rfl, fun _ _ => rfl⟩

/-- The transfers before the first that has no record yet leave the queue (R381, R384). -/
theorem QueueAt.settle_stop {x : Xfer} {r : List Xfer} (h : QueueAt s q c (x :: r)) (hx : x.stage ≠ .done ∨ x.stopped = true ∧ x.leave = false) :
    settleQ s q = settleState s q := by
  unfold settleQ
  rw [h.xfers, show (x :: r).length + 1 = r.length + 1 + 1 from rfl, settleGo]
  simp only [h.xfers]
  rw [if_neg]
  rcases hx with hx | ⟨h1, h2⟩
  · simp [hx]
  · simp [h1, h2]

/-- The only transfer, recorded, leaves the queue. -/
theorem QueueAt.settle_done {x : Xfer} (h : QueueAt s q c [x]) (hx : x.stage = .done) (hs : x.stopped = false) :
    settleQ s q = settleState (ctxField (Machine.setXfers s q []) q 20 4 ((x.slot + 1) % 2 ^ 17)) q ∧
      QueueAt (ctxField (Machine.setXfers s q []) q 20 4 ((x.slot + 1) % 2 ^ 17)) q (bSet c 20 4 ((x.slot + 1) % 2 ^ 17)) [] := by
  have hgone := (h.setXfers []).field 20 4 ((x.slot + 1) % 2 ^ 17)
  refine ⟨?_, hgone⟩
  unfold settleQ
  rw [h.xfers, List.length_singleton, settleGo]
  simp only [h.xfers, hx, hs, beq_self_eq_true, Bool.not_false, Bool.true_or, Bool.and_self, if_true]
  rw [settleGo]
  simp only [hgone.xfers]

end

-- A context's fields after one of them changed.

section
variable {c : List Byte} (hc : c.length = 64)
include hc

theorem cState_set28 (v : Nat) : cState (bSet c 28 1 v) = v % 256 := bNat_bSet_same (o := 28) (n := 1) v (by omega)

theorem cState_set20 (v : Nat) : cState (bSet c 20 4 v) = cState c := bNat_bSet_other v (by omega) (by omega)

theorem cState_set24 (v : Nat) : cState (bSet c 24 4 v) = cState c := bNat_bSet_other v (by omega) (by omega)

theorem cHead_set20 {v : Nat} (hv : v < 2 ^ 17) : cHead (bSet c 20 4 v) = v := by
  unfold cHead
  rw [bNat_bSet_same v (by omega)]
  omega

theorem cHead_set24 (v : Nat) : cHead (bSet c 24 4 v) = cHead c := by
  unfold cHead
  rw [bNat_bSet_other v (by omega) (by omega)]

theorem cHead_set28 (v : Nat) : cHead (bSet c 28 1 v) = cHead c := by
  unfold cHead
  rw [bNat_bSet_other v (by omega) (by omega)]

theorem cTail_set24 {v : Nat} (hv : v < 2 ^ 17) : cTail (bSet c 24 4 v) = v := by
  unfold cTail
  rw [bNat_bSet_same v (by omega)]
  omega

theorem cTail_set20 (v : Nat) : cTail (bSet c 20 4 v) = cTail c := by
  unfold cTail
  rw [bNat_bSet_other v (by omega) (by omega)]

theorem cTail_set28 (v : Nat) : cTail (bSet c 28 1 v) = cTail c := by
  unfold cTail
  rw [bNat_bSet_other v (by omega) (by omega)]

end

theorem cHead_lt (c : List Byte) : cHead c < 2 ^ 17 := Nat.mod_lt _ (by omega)

theorem cTail_lt (c : List Byte) : cTail c < 2 ^ 17 := Nat.mod_lt _ (by omega)

end Sys2Proof.Proofs
end

section
/-! SUPPORT. Queue commands, stopped queues, doorbells and the queue manager (O35). -/

namespace Sys2Proof.Proofs

open Sys2Proof.Machine

-- Writes into a ring leave the queue manager alone.

theorem qm_of_memOnly {s u : Chip} (h : memOnly s u) : u.qm = s.qm := by rw [h.1]

theorem qm_of_onlyBar {ks : List Nat} {s u : Chip} (h : onlyBar ks s u) : u.qm = s.qm := by rw [h.1]

theorem qm_fset (s : Chip) (k hi lo v : Nat) : (fset s k hi lo v).qm = s.qm := rfl

theorem qm_fsat (s : Chip) (k hi lo v : Nat) : (fsat s k hi lo v).qm = s.qm := rfl

theorem qm_ite {c : Prop} [Decidable c] {s u v : Chip} (h : u.qm = s.qm) (g : v.qm = s.qm) : (if c then u else v).qm = s.qm := by
  by_cases hc : c
  · rwa [if_pos hc]
  · rwa [if_neg hc]

theorem qm_devWrite (s : Chip) (p fn a : Nat) (bs : List MByte) : (devWrite s p fn a bs).1.qm = s.qm := by
  unfold devWrite
  simp only
  split
  · exact qm_ite (qm_fset ..) rfl
  · exact qm_of_memOnly (memOnly_trans (memOnly_markDirty ..) (memOnly_devWriteGo ..))

theorem qm_hostPut (s : Chip) (a : Nat) (bs : List Byte) : (hostPut s a bs).qm = s.qm := by
  unfold hostPut
  exact qm_ite rfl rfl

theorem qm_logged (s : Chip) (k hi lo v : Nat) (m : MemS) :
    ({ fset s k hi lo v with mem := m } : Chip).qm = s.qm := rfl

theorem qm_dlogPages (f n page : Nat) (s : Chip) : (dlogPages f n page s).1.qm = s.qm := by
  have hpage : ∀ (s : Chip) (page : Nat), (dlogPage s f page).1.qm = s.qm := by
    intro s page
    unfold dlogPage
    simp only
    split
    · rfl
    · split
      · rfl
      · exact (qm_logged ..).trans (qm_hostPut ..)
  induction n generalizing page s with
  | zero => rfl
  | succ n ih =>
    rw [dlogPages]
    split
    · exact (ih ..).trans (hpage ..)
    · exact hpage ..

theorem qm_hostWrite (s : Chip) (p f a : Nat) (bs : List MByte) : (hostWrite s p f a bs).qm = s.qm := by
  unfold hostWrite
  simp only
  generalize poisonLines (bs.length / 64 + 2) a bs = bad
  generalize (if bs.isEmpty = true then 0 else (a + bs.length - 1) / 4096 - a / 4096 + 1) = n
  have h0 : (if (bad == 0) = true then s else fsat s aRAS_POISON 63 32 bad).qm = s.qm := qm_ite rfl (qm_fsat ..)
  generalize (if (bad == 0) = true then s else fsat s aRAS_POISON 63 32 bad) = s0 at *
  have h1 := (qm_dlogPages f n (a / 4096) s0).trans h0
  generalize dlogPages f n (a / 4096) s0 = r at *
  have h2 : (if (s.mem.dlogHeld.any fun h => h.1 == f) = true then r.1 else fsat r.1 (aDLOG_STATUS f) 63 48 1).qm = s.qm :=
    qm_ite h1 ((qm_fsat ..).trans h1)
  generalize (if (s.mem.dlogHeld.any fun h => h.1 == f) = true then r.1 else fsat r.1 (aDLOG_STATUS f) 63 48 1) = s1 at *
  refine qm_ite ((qm_hostPut ..).trans h1) ?_
  have h3 : (if (s.mem.dlogHeld.any fun h => h.1 == f) = true then s1 else partCode s1 (fget s (aFUNC_PART f) 3 0) 0x4042).qm = s.qm :=
    qm_ite h2 ((qm_fset ..).trans h2)
  exact h3

theorem qm_ringWrite (s : Chip) (c : List Byte) (v : Nat) (bs : List Byte) : (ringWrite s c v bs).1.qm = s.qm := by
  unfold ringWrite spaceWrite
  split
  · exact qm_devWrite ..
  · split
    · exact qm_hostWrite ..
    · rfl

-- Commands on a queue whose context the cache holds (R352, R390).

/-- What `queueReady` says. -/
structure Ready (s : Chip) (fn q : Nat) (c : List Byte) : Prop where
  func : fn < 64
  started : qmReady s = true
  inTable : q < 2 ^ 20
  owned : ownedBy fn c = true
  length : c.length = 64
  queue : QueueAt s q c (xfersOf s q)

theorem ready_of_queueReady {s : Chip} {fn q : Nat} {c : List Byte} (h : queueReady s fn q c = true) : Ready s fn q c := by
  simp only [queueReady, Bool.and_eq_true, decide_eq_true_eq] at h
  obtain ⟨⟨⟨⟨⟨h1, h2⟩, h3⟩, h4⟩, h5⟩, h6⟩ := h
  exact ⟨h1, h2, h3, h5, h6, h4, rfl⟩

section
variable {s : State} {fn q : Nat} {c d : List Byte} {xs : List Xfer} {u : Chip}

/-- A command that the function may make gives what its effect gives, with its answer. -/
theorem qmCommand_ready (h : Ready s.chip fn q c) {owned : List Byte → Bool} (ho : owned c = true) {f : Chip → List Byte → Chip × Nat}
    {code : Nat} (hf : f (ctxTouch s.chip q c) c = (u, code)) : qmCommand fn q owned s.chip f = .next (qmResult u fn q code) := by
  unfold qmCommand
  rw [onFn, onUnit_next h.func, if_neg (by simp only [h.started, Bool.not_true, Bool.false_or, decide_eq_true_eq]; have := h.inTable; omega),
    h.queue.load]
  simp only [ho, hf, Bool.not_true, Bool.false_eq_true, if_false]

theorem onlyBar_qmResult (u : Chip) (fn q code : Nat) : onlyBar [kQstatus fn] u (qmResult u fn q code) := by
  unfold qmResult
  exact onlyBar_trans (onlyBar_trans (onlyBar_trans (onlyBar_fset _ _ _ _ (by simp)) (onlyBar_fset _ _ _ _ (by simp)))
    (onlyBar_fset _ _ _ _ (by simp))) (onlyBar_fset _ _ _ _ (by simp))

/-- QM_QSTATUS shows the code and the context's state and indices (R390). -/
theorem qmResult_answer (h : QueueAt u q d xs) {code : Nat} (hcode : code < 2 ^ 16) :
    fget (qmResult u fn q code) (kQstatus fn) 63 48 = code ∧ fget (qmResult u fn q code) (kQstatus fn) 47 44 = cState d % 16 ∧
      fget (qmResult u fn q code) (kQstatus fn) 40 24 = cHead d ∧ fget (qmResult u fn q code) (kQstatus fn) 16 0 = cTail d := by
  unfold qmResult
  simp only [h.peek]
  have hh := cHead_lt d
  have ht := cTail_lt d
  generalize cState d = a, cHead d = b, cTail d = e, kQstatus fn = k at *
  refine ⟨?_, ?_, ?_, ?_⟩
  · rw [fget_fset_field _ _ _ _ _ _ _ (by omega) (by omega) (by omega) (by omega),
      fget_fset_field _ _ _ _ _ _ _ (by omega) (by omega) (by omega) (by omega),
      fget_fset_field _ _ _ _ _ _ _ (by omega) (by omega) (by omega) (by omega), fget_fset_same _ _ _ _ _ (by omega) (by omega)]
    exact Nat.mod_eq_of_lt hcode
  · rw [fget_fset_field _ _ _ _ _ _ _ (by omega) (by omega) (by omega) (by omega),
      fget_fset_field _ _ _ _ _ _ _ (by omega) (by omega) (by omega) (by omega), fget_fset_same _ _ _ _ _ (by omega) (by omega)] <;> rfl
  · rw [fget_fset_field _ _ _ _ _ _ _ (by omega) (by omega) (by omega) (by omega), fget_fset_same _ _ _ _ _ (by omega) (by omega)]
    exact Nat.mod_eq_of_lt hh
  · rw [fget_fset_same _ _ _ _ _ (by omega) (by omega)]
    exact Nat.mod_eq_of_lt ht

/-- The state in which a command ends: the queue, the answer, and what else may differ. -/
structure Answered (s : State) (u : Chip) (fn q code : Nat) (d : List Byte) (xs : List Xfer) (t : State) : Prop where
  queue : QueueAt t.chip q d xs
  answer : queueAnswer t fn code d
  bars : onlyBar [kQstatus fn] u t.chip
  only : ∀ ks, within putQm ks s.chip u → queueOnly (kQstatus fn :: ks) s t

theorem answered (h : QueueAt u q d xs) {code : Nat} (hcode : code < 2 ^ 16) :
    Answered s u fn q code d xs { s with chip := qmResult u fn q code } := by
  have hb := onlyBar_qmResult u fn q code
  have ha := qmResult_answer (fn := fn) h hcode
  generalize qmResult u fn q code = r at *
  exact ⟨h.of_qm (qm_of_onlyBar hb), ha, hb, fun ks hk => queueOnly_of_within
    (within_trans parts_qm (within_mono (fun k => List.mem_cons_of_mem _) hk) (within_bar parts_qm (onlyBar_mono (by simp) hb)))⟩

/-- A command of a queue's owner. -/
theorem exec_queue (h : Ready s.chip fn q c) {i : Instr} {owned : List Byte → Bool} {f : Chip → List Byte → Chip × Nat}
    (hi : exec i s = onChip s (fun x => qmCommand fn q owned x f)) (ho : owned c = true) {code : Nat}
    (hf : f (ctxTouch s.chip q c) c = (u, code)) (hu : QueueAt u q d xs) (hcode : code < 2 ^ 16) :
    ∃ t, exec i s = .next t ∧ Answered s u fn q code d xs t :=
  ⟨_, hi.trans (onChip_next (qmCommand_ready h ho hf)), answered hu hcode⟩

-- Context commands (R350, R352 to R354, R358).

theorem kStage_inj {fn i j : Nat} (h : i ≠ j) : kStage fn i ≠ kStage fn j := by
  unfold kStage barKey aQM_STAGE
  omega

theorem kStage_ne_kQstatus (fn i : Nat) : kStage fn i ≠ kQstatus fn := by
  unfold kStage kQstatus barKey aQM_STAGE aQM_QSTATUS
  omega

/-- The words of a string of 64 bytes are the string. -/
theorem words_of_bytes {c : List Byte} (h : c.length = 64) : (List.range 8).flatMap (fun i => leBytes 8 (bNat c (8 * i) 8)) = c := by
  have hword : ∀ i, i < 8 → leBytes 8 (bNat c (8 * i) 8) = (c.drop (8 * i)).take 8 := fun i hi => by
    have := leBytes_leNat ((c.drop (8 * i)).take 8)
    rwa [show ((c.drop (8 * i)).take 8).length = 8 by simp only [List.length_take, List.length_drop]; omega] at this
  have hrun : ∀ n, n ≤ 8 → (List.range n).flatMap (fun i => leBytes 8 (bNat c (8 * i) 8)) = c.take (8 * n) := by
    intro n
    induction n with
    | zero => exact fun _ => rfl
    | succ n ih =>
      intro hn
      rw [List.range_succ, List.flatMap_append, ih (by omega), List.flatMap_singleton, hword n (by omega),
        show 8 * (n + 1) = 8 * n + 8 by ring, List.take_add]
  rw [hrun 8 (by omega), List.take_of_length_le (by omega)]

/-- The staging registers as a context is put there. -/
theorem putStage_spec (s : Chip) (fn : Nat) (c : List Byte) :
    onlyBar ((List.range 8).map (kStage fn)) s (putStage s (kStage fn) c) ∧
      ∀ i, i < 8 → barGet (putStage s (kStage fn) c) (kStage fn i) = bNat c (8 * i) 8 % 2 ^ 64 := by
  have hrun : ∀ (l : List Nat) (s : Chip), l.Nodup →
      onlyBar (l.map (kStage fn)) s (forEach l (fun st i => barSet st (kStage fn i) (bNat c (8 * i) 8)) s) ∧
      ∀ i, i ∈ l → barGet (forEach l (fun st i => barSet st (kStage fn i) (bNat c (8 * i) 8)) s) (kStage fn i) = bNat c (8 * i) 8 % 2 ^ 64 := by
    intro l
    induction l with
    | nil => exact fun s _ => ⟨onlyBar_refl _ s, fun i hi => absurd hi List.not_mem_nil⟩
    | cons x r ih =>
      intro s hn
      obtain ⟨hx, hr⟩ := List.nodup_cons.1 hn
      rw [forEach_cons]
      obtain ⟨hb, hv⟩ := ih (barSet s (kStage fn x) (bNat c (8 * x) 8)) hr
      refine ⟨onlyBar_trans (onlyBar_barSet _ _ (by simp)) (onlyBar_mono (fun k hk => List.mem_cons_of_mem _ hk) hb), fun i hi => ?_⟩
      rcases List.mem_cons.1 hi with rfl | hi
      · rw [hb.2 _ (fun hm => ?_), barGet_barSet_same]
        obtain ⟨j, hj, hji⟩ := List.mem_map.1 hm
        exact kStage_inj (fun e : j = i => hx (by rwa [← e])) hji
      · exact hv i hi
  obtain ⟨hb, hv⟩ := hrun (List.range 8) s List.nodup_range
  exact ⟨hb, fun i hi => hv i (List.mem_range.2 hi)⟩

theorem readContextClause (h : Ready s.chip fn q c) :
    ∃ t, exec (.readContext fn q) s = .next t ∧ stageBytes t.chip (kStage fn) = c ∧ ctxPeek t.chip q = c ∧ queueAnswer t fn 0 c ∧
      queueOnly (kQstatus fn :: (List.range 8).map (kStage fn)) s t := by
  obtain ⟨v, hv⟩ : ∃ v, v = putStage (ctxTouch s.chip q c) (kStage fn) c := ⟨_, rfl⟩
  obtain ⟨hb, hstage⟩ := putStage_spec (ctxTouch s.chip q c) fn c
  rw [← hv] at hb hstage
  obtain ⟨t, hexec, ht⟩ := exec_queue h (i := .readContext fn q) (u := v) (code := 0) (d := c) (xs := xfersOf s.chip q) rfl
    (by simp [h.owned]) (by rw [hv]) ((h.queue.touch c).of_qm (qm_of_onlyBar hb)) (by omega)
  refine ⟨t, hexec, ?_, ht.queue.peek, ht.answer, ht.only _ (within_trans parts_qm (within_ctxTouch ..) (within_bar parts_qm hb))⟩
  rw [← words_of_bytes h.length]
  unfold stageBytes
  refine List.flatMap_congr fun i hi => ?_
  have hlt : bNat c (8 * i) 8 < 2 ^ (8 * 8) := lt_of_lt_of_le (leNat_lt _) (Nat.pow_le_pow_right (by omega) (Nat.mul_le_mul_left 8 (List.length_take_le _ _)))
  rw [ht.bars.2 _ (by simpa using kStage_ne_kQstatus fn i), hstage i (List.mem_range.1 hi)]
  exact congrArg _ (Nat.mod_eq_of_lt hlt)

theorem pinClause (h : Ready s.chip fn q c) (hq : q ∉ s.chip.qm.pins) (hroom : s.chip.qm.pins.length < 1024) :
    ∃ t, exec (.pin fn q) s = .next t ∧ t.chip.qm.pins = q :: s.chip.qm.pins ∧
      ctxPeek t.chip q = bSet c 11 1 (bNat c 11 1 % 2 + 2) ∧ queueOnly [kQstatus fn] s t := by
  obtain ⟨v, hv⟩ : ∃ v, v = qmMod (ctxPut (ctxTouch s.chip q c) q (bSet c 11 1 (bNat c 11 1 % 2 + 2))) (fun m => { m with pins := q :: m.pins }) :=
    ⟨_, rfl⟩
  have hat : QueueAt v q (bSet c 11 1 (bNat c 11 1 % 2 + 2)) (xfersOf s.chip q) := by
    rw [hv]
    exact ⟨((h.queue.touch c).touch _).cached, h.queue.xfers⟩
  have hpins : v.qm.pins = q :: s.chip.qm.pins := by rw [hv]; rfl
  have hw : within putQm [] s.chip v := by
    rw [hv]
    exact ⟨rfl, fun _ _ => rfl⟩
  obtain ⟨t, hexec, ht⟩ := exec_queue h (i := .pin fn q) (u := v) (code := 0) rfl h.owned (by
    have : (ctxTouch s.chip q c).qm.pins = s.chip.qm.pins := rfl
    simp only [this, List.contains_eq_mem, hq, decide_false, Bool.false_eq_true, if_false]
    rw [if_neg (by omega), hv]) hat (by omega)
  exact ⟨t, hexec, (congrArg QM.pins (qm_of_onlyBar ht.bars)).trans hpins, ht.queue.peek, ht.only [] hw⟩

theorem unpinClause (h : Ready s.chip fn q c) :
    ∃ t, exec (.unpin fn q) s = .next t ∧ q ∉ t.chip.qm.pins ∧ ctxPeek t.chip q = bSet c 11 1 (bNat c 11 1 % 2) ∧
      queueOnly [kQstatus fn] s t := by
  obtain ⟨v, hv⟩ : ∃ v, v = qmMod (ctxPut (ctxTouch s.chip q c) q (bSet c 11 1 (bNat c 11 1 % 2))) (fun m => { m with pins := m.pins.filter (· != q) }) :=
    ⟨_, rfl⟩
  have hat : QueueAt v q (bSet c 11 1 (bNat c 11 1 % 2)) (xfersOf s.chip q) := by
    rw [hv]
    exact ⟨((h.queue.touch c).touch _).cached, h.queue.xfers⟩
  have hpins : v.qm.pins = s.chip.qm.pins.filter (· != q) := by rw [hv]; rfl
  have hw : within putQm [] s.chip v := by
    rw [hv]
    exact ⟨rfl, fun _ _ => rfl⟩
  obtain ⟨t, hexec, ht⟩ := exec_queue h (i := .unpin fn q) (u := v) (code := 0) rfl h.owned (by rw [hv]) hat (by omega)
  refine ⟨t, hexec, fun hm => ?_, ht.queue.peek, ht.only [] hw⟩
  rw [qm_of_onlyBar ht.bars, hpins] at hm
  simpa using (List.mem_filter.1 hm).2

theorem appendRefusedClause (h : Ready s.chip fn q c) (hbad : cKind c ≠ 1 ∨ cState c = 0 ∨ 2 ^ cLog c ≤ ringHeld c) :
    ∃ t, exec (.append fn q) s = .next t ∧ ctxPeek t.chip q = c ∧ queueAnswer t fn 0x1006 c ∧ queueOnly [kQstatus fn] s t := by
  have hcond : (cKind c != 1 || cState c == 0 || decide (4 ≤ cState c) || decide (2 ^ cLog c ≤ ringHeld c)) = true := by
    rcases hbad with h1 | h1 | h1 <;> simp [h1]
  obtain ⟨t, hexec, ht⟩ := exec_queue h (i := .append fn q) (u := ctxTouch s.chip q c) (code := 0x1006) rfl h.owned
    (by simp only [hcond, if_true]) (h.queue.touch c) (by omega)
  exact ⟨t, hexec, ht.queue.peek, ht.answer, ht.only [] (within_ctxTouch ..)⟩

theorem appendClause (h : Ready s.chip fn q c) (hk : cKind c = 1) (hs : cState c = 1 ∨ cState c = 2 ∨ cState c = 3)
    (hroom : ringHeld c < 2 ^ cLog c) (hring : (ringWrite (ctxTouch s.chip q c) c (cTail c) (stageBytes s.chip (kStage fn))).2 = 0) :
    ∃ t d, exec (.append fn q) s = .next t ∧ ctxPeek t.chip q = d ∧ cTail d = (cTail c + 1) % 2 ^ 17 ∧ cHead d = cHead c ∧
      queueAnswer t fn 0 d := by
  have hcond : (cKind c != 1 || cState c == 0 || decide (4 ≤ cState c) || decide (2 ^ cLog c ≤ ringHeld c)) = false := by
    simp only [hk, bne_self_eq_false, Bool.false_or, Bool.or_eq_false_iff, beq_eq_false_iff_ne, decide_eq_false_iff_not]
    exact ⟨⟨by omega, by omega⟩, by omega⟩
  have hstage : stageBytes (ctxTouch s.chip q c) (kStage fn) = stageBytes s.chip (kStage fn) := rfl
  obtain ⟨u, hu⟩ : ∃ u, u = (ringWrite (ctxTouch s.chip q c) c (cTail c) (stageBytes s.chip (kStage fn))).1 := ⟨_, rfl⟩
  have hat : QueueAt u q c (xfersOf s.chip q) := (h.queue.touch c).of_qm (hu ▸ qm_ringWrite ..)
  have hput := hat.field 24 4 ((cTail c + 1) % 2 ^ 17)
  obtain ⟨v, hv⟩ : ∃ v, v = (if unstarted (ctxTouch s.chip q c) q c == 0 then headArrives (ctxField u q 24 4 ((cTail c + 1) % 2 ^ 17)) q
      else ctxField u q 24 4 ((cTail c + 1) % 2 ^ 17)) := ⟨_, rfl⟩
  have hvat : QueueAt v q (bSet c 24 4 ((cTail c + 1) % 2 ^ 17)) (xfersOf s.chip q) := by
    rw [hv]
    split
    · exact hput.headArrives q
    · exact hput
  obtain ⟨t, hexec, ht⟩ := exec_queue h (i := .append fn q) (u := v) (code := 0) rfl h.owned (by
    simp only [hcond, hstage, hring, ← hu, bne_self_eq_false, Bool.false_eq_true, if_false]
    rw [hv]) hvat (by omega)
  exact ⟨t, _, hexec, ht.queue.peek, cTail_set24 h.length (Nat.mod_lt _ (by omega)), cHead_set24 h.length _, ht.answer⟩

theorem stageBytes_length (s : Chip) (key : Nat → Nat) : (stageBytes s key).length = 64 := by
  simp [stageBytes, List.length_flatMap]

theorem writeContextClause {st : List Byte} (h : Ready s.chip fn q c) (hst : st = stageBytes s.chip (kStage fn)) (hfn : fn = 0) (hoff : cState c = 0)
    (hon : cState st = 1) (hok : ctxOk s.chip (bSet (bSet st 11 1 (bNat c 11 1 / 2 % 2 * 2 + bNat st 11 1 % 2)) 28 1 1) = true) :
    ∃ t d, exec (.writeContext fn q) s = .next t ∧ ctxPeek t.chip q = d ∧ d.take 11 = st.take 11 ∧ (d.drop 12).take 16 = (st.drop 12).take 16 ∧
      cState d = 1 ∧ queueAnswer t fn 0 d ∧ queueOnly [kQstatus fn] s t := by
  have hlen : st.length = 64 := hst ▸ stageBytes_length _ _
  obtain ⟨w0, hw0⟩ : ∃ w0, w0 = bSet st 11 1 (bNat c 11 1 / 2 % 2 * 2 + bNat st 11 1 % 2) := ⟨_, rfl⟩
  have hlen0 : w0.length = 64 := by rw [hw0, bSet_length _ (by omega), hlen]
  rw [← hw0] at hok
  have hstage : stageBytes (ctxTouch s.chip q c) (kStage fn) = st := by rw [hst]; rfl
  have hok' : ctxOk (ctxTouch s.chip q c) (bSet w0 28 1 1) = true := hok
  obtain ⟨v, hv⟩ : ∃ v, v = headArrives (ctxPut (ctxTouch s.chip q c) q (bSet w0 28 1 1)) q := ⟨_, rfl⟩
  have hvat : QueueAt v q (bSet w0 28 1 1) (xfersOf s.chip q) := hv ▸ ((h.queue.touch c).touch _).headArrives q
  have hw : within putQm [] s.chip v := by
    rw [hv]
    exact ⟨rfl, fun _ _ => rfl⟩
  obtain ⟨t, hexec, ht⟩ := exec_queue h (i := .writeContext fn q) (u := v) (code := 0) rfl (by simp [h.owned]) (by
    subst hfn
    simp only [hstage, beq_self_eq_true, if_true, hoff, hon, ← hw0]
    rw [if_neg (by simp), if_neg (by simp), show b2n (1 != 0) = 1 from rfl, hok', if_neg (by simp), ← hv]) hvat (by omega)
  refine ⟨t, _, hexec, ht.queue.peek, ?_, ?_, ?_, ht.answer, ht.only [] hw⟩
  · have h1 := slice_bSet (l := w0) (o := 28) (n := 1) (a := 0) (b := 11) 1 (by omega) (by omega)
    have h2 := slice_bSet (l := st) (o := 11) (n := 1) (a := 0) (b := 11) (bNat c 11 1 / 2 % 2 * 2 + bNat st 11 1 % 2) (by omega) (by omega)
    rw [← hw0] at h2
    exact h1.trans h2
  · have h1 := slice_bSet (l := w0) (o := 28) (n := 1) (a := 12) (b := 16) 1 (by omega) (by omega)
    have h2 := slice_bSet (l := st) (o := 11) (n := 1) (a := 12) (b := 16) (bNat c 11 1 / 2 % 2 * 2 + bNat st 11 1 % 2) (by omega) (by omega)
    rw [← hw0] at h2
    exact h1.trans h2
  · exact cState_set28 hlen0 1

end

theorem queueCommands : Clauses.QueueCommands := by
  unfold Clauses.QueueCommands
  intro s fn q c hready
  have h := ready_of_queueReady hready
  exact ⟨readContextClause h, writeContextClause h rfl, appendClause h, appendRefusedClause h, pinClause h, unpinClause h⟩

end Sys2Proof.Proofs
end

section
/-! SUPPORT. Stopped queues, doorbells and the queue manager (O35). -/

namespace Sys2Proof.Proofs

open Sys2Proof.Machine

-- Stopped queues and aborts (R381 to R384).

section
variable {s : State} {fn q : Nat} {c : List Byte} {x : Xfer} {r : List Xfer}

theorem stoppedHead_of {u : Chip} {xs : List Xfer} (h : QueueAt u q c xs) (g : QueueAt s.chip q c xs) : stoppedHead u q = stoppedHead s.chip q := by
  unfold stoppedHead
  rw [h.xfers, g.xfers, h.peek, g.peek]

theorem stopped_spec (h : QueueAt s.chip q c (x :: r)) (hs : stoppedHead s.chip q = some x) :
    cState c = 3 ∧ x.stopped = true ∧ x.stage = .done := by
  unfold stoppedHead at hs
  rw [h.xfers, h.peek] at hs
  by_cases hc : (cState c == 3 && x.stopped && x.stage == .done) = true
  · simpa [and_assoc] using hc
  · simp only at hs
    rw [if_neg hc] at hs
    exact nomatch hs

/-- A change of the transfer at the head leaves the others, whose slots differ. -/
theorem map_head (hr : ∀ y ∈ r, y.slot ≠ x.slot) (f : Xfer → Xfer) :
    (x :: r).map (fun y => if y.slot == x.slot then f y else y) = f x :: r := by
  rw [List.map_cons, beq_self_eq_true, if_pos rfl]
  refine congrArg (f x :: ·) ?_
  refine (List.map_congr_left fun y hy => ?_).trans (List.map_id r)
  rw [if_neg (by simpa using hr y hy)]
  rfl

theorem rewriteClause (h : Ready s.chip fn q c) (hx : xfersOf s.chip q = x :: r) (hs : stoppedHead s.chip q = some x)
    (hr : ∀ y ∈ r, y.slot ≠ x.slot) (d : List Byte) (hd : d = stageBytes s.chip (kStage fn)) (h1 : bNat d 0 6 = bNat x.d 0 6)
    (h2 : bNat d 24 10 = bNat x.d 24 10) (hring : (ringWrite (ctxTouch s.chip q c) c x.slot d).2 = 0) :
    ∃ t, exec (.rewrite fn q) s = .next t ∧ xfersOf t.chip q = { x with d := d } :: r ∧ queueAnswer t fn 0 c := by
  have hq : QueueAt s.chip q c (x :: r) := hx ▸ h.queue
  have hstage : stageBytes (ctxTouch s.chip q c) (kStage fn) = d := by rw [hd]; rfl
  have hhead : stoppedHead (ctxTouch s.chip q c) q = some x := (stoppedHead_of (hq.touch c) hq).trans hs
  obtain ⟨u, hu⟩ : ∃ u, u = (ringWrite (ctxTouch s.chip q c) c x.slot d).1 := ⟨_, rfl⟩
  have hat : QueueAt u q c (x :: r) := (hq.touch c).of_qm (hu ▸ qm_ringWrite ..)
  have hmod := hat.modXfer x.slot (fun y => { y with d := d })
  rw [map_head hr] at hmod
  obtain ⟨t, hexec, ht⟩ := exec_queue h (i := .rewrite fn q) (code := 0) rfl h.owned (by
    simp only [hhead, hstage, h1, h2, beq_self_eq_true, Bool.and_self, Bool.not_true, Bool.false_eq_true, if_false, hring, ← hu]) hmod (by omega)
  exact ⟨t, hexec, ht.queue.xfers, ht.answer⟩

theorem unstop_spec {u : Chip} {xs : List Xfer} (h : QueueAt u q c xs) :
    ∃ d, QueueAt (unstop u q) q d xs ∧ within putQm [] u (unstop u q) := by
  unfold unstop
  split
  · exact ⟨c, h, within_refl parts_qm⟩
  · exact ⟨_, h.setQState _, within_setQState ..⟩

theorem resumeClause (h : Ready s.chip fn q c) (hx : xfersOf s.chip q = x :: r) (hs : stoppedHead s.chip q = some x)
    (hr : ∀ y ∈ r, y.slot ≠ x.slot) :
    ∃ t, exec (.resume fn q) s = .next t ∧ queueOnly [kQstatus fn] s t ∧ xfersOf t.chip q =
      { x with stage := .running, stopped := false, resumed := true, bytes := 0, poisoned := 0, dropped := 0, codes := []
               badBack := false, engine := cEngine c } :: r := by
  have hq : QueueAt s.chip q c (x :: r) := hx ▸ h.queue
  have hhead : stoppedHead (ctxTouch s.chip q c) q = some x := (stoppedHead_of (hq.touch c) hq).trans hs
  obtain ⟨u, hu⟩ : ∃ u, u = modXfer (ctxTouch s.chip q c) q x.slot (fun y => { y with
    stage := .running, stopped := false, resumed := true, bytes := 0, poisoned := 0, dropped := 0, codes := [],
    badBack := false, engine := cEngine c }) := ⟨_, rfl⟩
  have hmod := (hq.touch c).modXfer x.slot (fun y => { y with
    stage := .running, stopped := false, resumed := true, bytes := 0, poisoned := 0, dropped := 0, codes := [],
    badBack := false, engine := cEngine c })
  rw [map_head hr, ← hu] at hmod
  have hw : within putQm [] s.chip u := by
    rw [hu]
    exact ⟨rfl, fun _ _ => rfl⟩
  obtain ⟨d, hat, hwu⟩ := unstop_spec hmod
  obtain ⟨t, hexec, ht⟩ := exec_queue h (i := .resume fn q) (code := 0) rfl h.owned (by
    simp only [hhead]
    rw [← hu]) hat (by omega)
  exact ⟨t, hexec, ht.only [] (within_trans parts_qm hw hwu), ht.queue.xfers⟩

theorem skipClause (h : Ready s.chip fn q c) (hx : xfersOf s.chip q = x :: r) (hs : stoppedHead s.chip q = some x) (hr : r = []) :
    ∃ t, exec (.skip fn q) s = .next t ∧ queueOnly [kQstatus fn] s t ∧ xfersOf t.chip q = [] ∧
      cHead (ctxPeek t.chip q) = (x.slot + 1) % 2 ^ 17 ∧ cState (ctxPeek t.chip q) = 1 := by
  subst hr
  have hq : QueueAt s.chip q c [x] := hx ▸ h.queue
  obtain ⟨hstate, -, hdone⟩ := stopped_spec hq hs
  have hhead : stoppedHead (ctxTouch s.chip q c) q = some x := (stoppedHead_of (hq.touch c) hq).trans hs
  obtain ⟨u, hu⟩ : ∃ u, u = modXfer (ctxTouch s.chip q c) q x.slot (fun y => { y with stopped := false }) := ⟨_, rfl⟩
  have hmod := (hq.touch c).modXfer x.slot (fun y => { y with stopped := false })
  rw [map_head (by simp), ← hu] at hmod
  have hw : within putQm [] s.chip u := by
    rw [hu]
    exact ⟨rfl, fun _ _ => rfl⟩
  obtain ⟨hsettle, hgone⟩ := hmod.settle_done hdone rfl
  obtain ⟨v, hv⟩ : ∃ v, v = ctxField (setXfers u q []) q 20 4 ((x.slot + 1) % 2 ^ 17) := ⟨_, rfl⟩
  have hwv : within putQm [] s.chip v := within_trans parts_qm hw (by
    rw [hv]
    exact ⟨rfl, fun _ _ => rfl⟩)
  have hlt : (x.slot + 1) % 2 ^ 17 < 2 ^ 17 := Nat.mod_lt _ (by omega)
  rw [show ({ x with stopped := false } : Xfer).slot = x.slot from rfl, ← hv] at hgone hsettle
  have hstay : settleState v q = v := by
    unfold settleState
    simp only [hgone.peek, cState_set20 h.length, hstate]
    rfl
  have hunstop : unstop v q = setQState v q 1 := by
    unfold unstop
    rw [hgone.xfers]
    rfl
  obtain ⟨t, hexec, ht⟩ := exec_queue h (i := .skip fn q) (code := 0) rfl h.owned (by
    simp only [hhead]
    rw [← hu, hsettle, hstay, hunstop]) (hgone.setQState 1) (by omega)
  refine ⟨t, hexec, ht.only [] (within_trans parts_qm hwv (within_setQState ..)), ht.queue.xfers, ?_, ?_⟩
  · rw [ht.queue.peek, cHead_set28 (by rw [bSet_length _ (by have := h.length; omega), h.length]), cHead_set20 h.length hlt]
  · rw [ht.queue.peek, cState_set28 (by rw [bSet_length _ (by have := h.length; omega), h.length])]

/-- An abort of a queue whose transfers all run (R383). -/
theorem abortQueue_spec {u : Chip} (h : QueueAt u q c (x :: r)) (hlen : c.length = 64) (hk : cKind c = 1) (hs : cState c = 2)
    (hnone : unstarted u q c = 0) (hrun : ∀ y ∈ x :: r, y.stage = .running ∧ y.next < dCount y.d) :
    ∃ d, QueueAt (abortQueue u q) q d ((x :: r).map (fun y => { y with stage := .readBack, aborted := true, codes := 0x1001 :: y.codes })) ∧
      within putQm [] u (abortQueue u q) := by
  obtain ⟨after, hafter⟩ : ∃ after, after = (x :: r).map (fun y => ({ y with
    stage := .readBack, aborted := true, codes := 0x1001 :: y.codes } : Xfer)) := ⟨_, rfl⟩
  have hmap : (x :: r).map abortXfer = after := by
    rw [hafter]
    refine List.map_congr_left fun y hy => ?_
    obtain ⟨h1, h2⟩ := hrun y hy
    unfold abortXfer
    rw [if_pos (by simp [h1, h2])]
  rw [← hafter]
  have hset := h.setXfers after
  obtain ⟨v, hv⟩ : ∃ v, v = setXfers u q after := ⟨_, rfl⟩
  rw [← hv] at hset
  have hst := hset.setQState 2
  have hstop : settleQ (setQState v q 2) q = settleState (setQState v q 2) q := by
    rw [hafter, List.map_cons] at hst
    exact hst.settle_stop (.inl (by simp))
  have hne : after.isEmpty = false := by rw [hafter]; rfl
  have hsettled : settleState (setQState v q 2) q = setQState (setQState v q 2) q 2 := by
    unfold settleState
    simp only [hst.peek, cState_set28 hlen, hst.xfers, hne]
    rfl
  have hgo : abortQueue u q = setQState (setQState v q 2) q 2 := by
    unfold abortQueue
    simp only [h.peek, hk, hs, hnone, h.xfers, hmap, ← hv, abortRest, show ((1 : Nat) != 1 || (2 : Nat) == 0) = false from rfl,
      show ((2 : Nat) == 4) = false from rfl, Bool.false_eq_true, if_false, hstop, hsettled, (hst.setQState 2).xfers, hne]
  rw [hgo]
  refine ⟨_, hst.setQState 2, ?_⟩
  rw [hv]
  exact ⟨rfl, fun _ _ => rfl⟩

theorem abortClause (h : Ready s.chip fn q c) (hx : xfersOf s.chip q = x :: r) (hk : cKind c = 1) (hs : cState c = 2)
    (hnone : unstarted s.chip q c = 0) (hrun : ∀ y ∈ x :: r, y.stage = .running ∧ y.next < dCount y.d) :
    (∃ t, exec (.abort fn q) s = .next t ∧
      xfersOf t.chip q = (x :: r).map (fun y => { y with stage := .readBack, aborted := true, codes := 0x1001 :: y.codes }) ∧
      queueOnly [kQstatus fn] s t) ∧
    ∀ e, e < 16 → queuesWhere s.chip (fun d => cKind d == 1 && cState d != 0 && cEngine d == e) = [q] →
      ∃ t, exec (.engineAbort e) s = .next t ∧
        xfersOf t.chip q = (x :: r).map (fun y => { y with stage := .readBack, aborted := true, codes := 0x1001 :: y.codes }) ∧
        queueOnly [] s t := by
  have hq : QueueAt s.chip q c (x :: r) := hx ▸ h.queue
  have hnone' : unstarted (ctxTouch s.chip q c) q c = 0 := hnone
  obtain ⟨d, hat, hw⟩ := abortQueue_spec (hq.touch c) h.length hk hs hnone' hrun
  have hwt : within putQm [] s.chip (abortQueue (ctxTouch s.chip q c) q) := within_trans parts_qm (within_ctxTouch ..) hw
  refine ⟨?_, fun e he hwhere => ?_⟩
  · obtain ⟨t, hexec, ht⟩ := exec_queue h (i := .abort fn q) (code := 0) rfl h.owned (by
      rw [hk, hs, if_neg (by simp)]) hat (by omega)
    exact ⟨t, hexec, ht.queue.xfers, ht.only [] hwt⟩
  · have hexec : exec (.engineAbort e) s = .next { s with chip := abortQueue (ctxTouch s.chip q c) q } :=
      onChip_next (f := cmdEngineAbort e) (by
        unfold cmdEngineAbort
        rw [onUnit_next he, hwhere]
        unfold abortAll onQueue
        rw [forEach_cons, h.queue.load]
        rfl)
    exact ⟨_, hexec, hat.xfers, queueOnly_of_within hwt⟩

end

theorem stoppedQueues : Clauses.StoppedQueues := by
  unfold Clauses.StoppedQueues
  intro s fn q c x r hready hx
  have h := ready_of_queueReady hready
  exact ⟨fun hs hr => ⟨rewriteClause h hx hs hr, resumeClause h hx hs hr, skipClause h hx hs⟩, abortClause h hx⟩

-- Doorbells (R354, R373, R388).

theorem doorbells : Clauses.Doorbells := by
  unfold Clauses.Doorbells
  intro s fn q index c
  refine ⟨fun hfn hoff => ?_, fun hready hi hbells hs => ?_⟩
  · exact onChip_next (c := s.chip) (f := cmdQmDoorbell fn q index) (by
      unfold cmdQmDoorbell
      rw [onFn, onUnit_next hfn, hoff]
      rfl)
  · intro n
    have h := ready_of_queueReady hready
    have hdrain : drainBells 256 s.chip = s.chip := by
      rw [drainBells]
      simp only [hbells]
    have htouch := h.queue.touch c
    obtain ⟨u, hu⟩ : ∃ u, u = ctxTouch s.chip q c := ⟨_, rfl⟩
    have hexec : exec (.qmDoorbell fn q index) s = .next { s with chip := doorbell u fn q index c } :=
      onChip_next (f := cmdQmDoorbell fn q index) (by
        unfold cmdQmDoorbell
        rw [onFn, onUnit_next h.func, if_neg (by simp only [h.started, Bool.not_true, Bool.false_or, decide_eq_true_eq]; have := h.inTable; omega)]
        simp only [hdrain, hbells, List.isEmpty_nil, if_true, h.queue.load, Nat.mod_eq_of_lt hi, ← hu])
    have hwu : within putQm [] s.chip u := hu ▸ within_ctxTouch ..
    rw [← hu] at htouch
    have hs' : (!ownedBy fn c || cState c == 0) = false := by simp [h.owned, hs]
    by_cases hk : cKind c = 2
    · have hbell : doorbell u fn q index c = ctxField u q 20 4 index := by
        unfold doorbell
        rw [hs', if_neg (by simp), if_pos (by simp [hk])]
      rw [hbell] at hexec
      exact ⟨_, _, hexec, (htouch.field 20 4 index).peek, queueOnly_of_within (within_trans parts_qm hwu (within_ctxField ..)),
        fun _ => ⟨cHead_set20 h.length hi, cTail_set20 h.length _⟩, fun hne => absurd hk hne, fun hne => absurd hk hne⟩
    · by_cases hbad : 2 ^ cLog c < n ∨ n < (xfersOf u q).length
      · have hbell : doorbell u fn q index c = setQState u q 4 := by
          unfold doorbell
          rw [hs', if_neg (by simp), if_neg (by simp [hk]), if_pos hbad]
        rw [hbell] at hexec
        refine ⟨_, _, hexec, (htouch.setQState 4).peek, queueOnly_of_within (within_trans parts_qm hwu (within_setQState ..)),
          fun he => absurd he hk, fun _ h1 h2 => ?_, fun _ _ => ⟨cState_set28 h.length 4, cTail_set28 h.length 4⟩⟩
        rw [htouch.xfers] at hbad
        omega
      · have hbell : doorbell u fn q index c =
            if unstarted u q c == 0 then headArrives (ctxField u q 24 4 index) q else ctxField u q 24 4 index := by
          unfold doorbell
          rw [hs', if_neg (by simp), if_neg (by simp [hk]), if_neg hbad]
        rw [hbell] at hexec
        have hput := htouch.field 24 4 index
        have hwput := within_trans parts_qm hwu (within_ctxField [] u q 24 4 index)
        obtain ⟨v, hv⟩ : ∃ v, v = (if unstarted u q c == 0 then headArrives (ctxField u q 24 4 index) q else ctxField u q 24 4 index) := ⟨_, rfl⟩
        rw [← hv] at hexec
        have hvat : QueueAt v q (bSet c 24 4 index) (xfersOf s.chip q) ∧ within putQm [] s.chip v := by
          rw [hv]
          split
          · exact ⟨hput.headArrives q, within_trans parts_qm hwput (within_headArrives ..)⟩
          · exact ⟨hput, hwput⟩
        exact ⟨_, _, hexec, hvat.1.peek, queueOnly_of_within hvat.2, fun he => absurd he hk,
          fun _ _ _ => ⟨cTail_set24 h.length hi, cHead_set24 h.length _, cState_set24 h.length _⟩, fun _ hlt => absurd (.inl hlt) hbad⟩

-- The queue manager and its engines (R388, R392).

theorem qmEnableClause {s : State} (h0 : fbit s.chip aQM_CTL 0 = false) (hmap : fbit s.chip aMEM_MAP 0 = true)
    (hfit : fget s.chip aQM_TABLE 47 26 * 2 ^ 26 + 2 ^ 26 ≤ interSize s.chip - hdmSize s.chip) :
    ∃ t, exec .qmEnable s = .next t ∧ fbit t.chip aQM_CTL 0 = true ∧ t.chip.qm = { s.chip.qm with clearing := true } ∧
      queueOnly [aQM_CTL] s t := by
  obtain ⟨u, hu⟩ : ∃ u, u = fsetb s.chip aQM_CTL 0 true := ⟨_, rfl⟩
  have hb : onlyBar [aQM_CTL] s.chip u := hu ▸ onlyBar_fsetb _ _ _ (List.mem_singleton_self _)
  have hbit : fbit u aQM_CTL 0 = true := hu ▸ fbit_fsetb_same _ _ _ _ (by omega)
  have hexec : exec .qmEnable s = .next { s with chip := qmMod u (fun m => { m with clearing := true }) } :=
    onChip_next (f := cmdQmEnable) (by
      simp only [cmdQmEnable, h0, hmap, Bool.false_eq_true, if_false, Bool.true_and, decide_eq_true_eq, hfit, if_true, ← hu])
  have hqm : (qmMod u (fun m => { m with clearing := true })).qm = { s.chip.qm with clearing := true } := by
    rw [← qm_of_onlyBar hb]
    rfl
  exact ⟨_, hexec, hbit, hqm, queueOnly_of_within (within_trans parts_qm (within_bar parts_qm hb) (within_qmMod ..))⟩

theorem tableReadyClause {s : State} (h : s.chip.qm.clearing = true) :
    ∃ t, exec .qmTableReady s = .next t ∧ qmReady t.chip = true ∧ t.chip.qm.cached = [] ∧
      t.chip.qm.xfers = [] ∧ t.chip.qm.pins = [] ∧ t.chip.qm.clearing = false ∧ t.chip.tiles = s.chip.tiles := by
  obtain ⟨u, hu⟩ : ∃ u, u = zeroRange (2 ^ 20) (fget s.chip aQM_TABLE 47 26 * 2 ^ 26) s.chip := exists_eq
  have hm : memOnly s.chip u := hu ▸ memOnly_zeroRange ..
  obtain ⟨v, hv⟩ : ∃ v, v = fsetb u aQM_CTL 2 true := ⟨_, rfl⟩
  have hb : onlyBar [aQM_CTL] u v := hv ▸ onlyBar_fsetb _ _ _ (List.mem_singleton_self _)
  have hbit : fbit v aQM_CTL 2 = true := hv ▸ fbit_fsetb_same _ _ _ _ (by omega)
  have hexec : exec .qmTableReady s = .next { s with chip := (qmMod v (fun m => { m with
      clearing := false, cached := [], lru := [], pins := [], radioPins := [], xfers := [], headAt := []
      retire := [], doorbells := [], unsig := [] })) } :=
    onChip_next (f := cmdQmTableReady) (by
      unfold cmdQmTableReady
      rw [h, when, if_pos rfl, ← hu, ← hv])
  have htiles : v.tiles = s.chip.tiles := by rw [hb.1, hm.1]
  exact ⟨_, hexec, hbit, rfl, rfl, rfl, rfl, htiles⟩

theorem stopAllClause (s : State) (b : Bool) :
    ∃ t, exec (.qmStopAll b) s = .next t ∧ regsOnly [aQM_CTL] s t ∧ fbit t.chip aQM_CTL 1 = b ∧
      fbit t.chip aQM_CTL 0 = fbit s.chip aQM_CTL 0 := by
  obtain ⟨u, hu⟩ : ∃ u, u = fsetb s.chip aQM_CTL 1 b := ⟨_, rfl⟩
  have hb : onlyBar [aQM_CTL] s.chip u := hu ▸ onlyBar_fsetb _ _ _ (List.mem_singleton_self _)
  have hbit : fbit u aQM_CTL 1 = b := hu ▸ fbit_fsetb_same _ _ _ _ (by omega)
  have hother : fbit u aQM_CTL 0 = fbit s.chip aQM_CTL 0 := by
    rw [hu]
    unfold fbit
    rw [fget_fsetb _ _ _ _ _ _ (by omega) (by omega) (by omega)]
  have hexec : exec (.qmStopAll b) s = .next { s with chip := u } := onChip_next (f := cmdQmStopAll b) (by rw [cmdQmStopAll, hu])
  exact ⟨_, hexec, regsOnly_of_onlyBar hb, hbit, hother⟩

theorem engineEnableClause (s : State) {e : Nat} (he : e < 16) (b : Bool) :
    ∃ t, exec (.engineEnable e b) s = .next t ∧ regsOnly [aDMA_ENG_CTL e, aDMA_ENG_STATUS e] s t ∧
      fbit t.chip (aDMA_ENG_CTL e) 0 = b ∧ fget t.chip (aDMA_ENG_STATUS e) 3 0 =
        if fget s.chip (aDMA_ENG_STATUS e) 3 0 = 3 then 3 else b2n b := by
  have hne : aDMA_ENG_STATUS e ≠ aDMA_ENG_CTL e := by unfold aDMA_ENG_STATUS aDMA_ENG_CTL; omega
  obtain ⟨u, hu⟩ : ∃ u, u = fsetb s.chip (aDMA_ENG_CTL e) 0 b := ⟨_, rfl⟩
  have hb : onlyBar [aDMA_ENG_CTL e, aDMA_ENG_STATUS e] s.chip u := hu ▸ onlyBar_fsetb _ _ _ (by simp)
  have hbit : fbit u (aDMA_ENG_CTL e) 0 = b := hu ▸ fbit_fsetb_same _ _ _ _ (by omega)
  have hstatus : fget u (aDMA_ENG_STATUS e) 3 0 = fget s.chip (aDMA_ENG_STATUS e) 3 0 :=
    fget_of_barGet (hu ▸ barGet_fset_other _ _ _ _ hne) _ _
  by_cases h3 : fget s.chip (aDMA_ENG_STATUS e) 3 0 = 3
  · have hexec : exec (.engineEnable e b) s = .next { s with chip := u } :=
      onChip_next (f := cmdEngineEnable e b) (by
        unfold cmdEngineEnable
        rw [onUnit_next he]
        simp only [h3, beq_self_eq_true, if_true, hu])
    exact ⟨_, hexec, regsOnly_of_onlyBar hb, hbit, by rw [if_pos h3]; exact hstatus.trans h3⟩
  · obtain ⟨v, hv⟩ : ∃ v, v = fset u (aDMA_ENG_STATUS e) 3 0 (b2n b) := ⟨_, rfl⟩
    have hvb : onlyBar [aDMA_ENG_CTL e, aDMA_ENG_STATUS e] u v := hv ▸ onlyBar_fset _ _ _ _ (by simp)
    have hvbit : fbit v (aDMA_ENG_CTL e) 0 = b := (fbit_of_barGet (hv ▸ barGet_fset_other _ _ _ _ hne.symm) _).trans hbit
    have hval : fget v (aDMA_ENG_STATUS e) 3 0 = b2n b := by
      rw [hv, fget_fset_same _ _ _ _ _ (by omega) (by omega)]
      cases b <;> rfl
    have hexec : exec (.engineEnable e b) s = .next { s with chip := v } :=
      onChip_next (f := cmdEngineEnable e b) (by
        unfold cmdEngineEnable
        rw [onUnit_next he]
        simp only [beq_iff_eq, h3, if_false, ← hu, ← hv])
    exact ⟨_, hexec, regsOnly_of_onlyBar (onlyBar_trans hb hvb), hvbit, by rw [if_neg h3]; exact hval⟩

theorem queueManagerStarts : Clauses.QueueManagerStarts := by
  unfold Clauses.QueueManagerStarts
  intro s e b he
  exact ⟨qmEnableClause, tableReadyClause, stopAllClause s b, engineEnableClause s he b⟩

/-- Settles O35. -/
theorem queuesAreCommanded : Obligations.QueuesAreCommanded := by
  unfold Obligations.QueuesAreCommanded
  exact ⟨queueCommands, stoppedQueues, doorbells, queueManagerStarts⟩

end Sys2Proof.Proofs
end

section
/-! SUPPORT. Read-backs, completion records, moderation, and the ways a transfer fails (O37). -/

namespace Sys2Proof.Proofs

open Sys2Proof.Machine

-- Records and the host's memory.

theorem recordOf_length (s : Chip) (q : Nat) (x : Xfer) (phase : Bool) : (recordOf s q x phase).length = 64 := by
  simp only [recordOf, List.length_append, leBytes_length]

theorem poisonLines_clean (n a : Nat) (l : List Byte) : poisonLines n a (clean l) = 0 := by
  induction n generalizing a l with
  | zero => rfl
  | succ n ih =>
    rw [poisonLines]
    split
    · rfl
    · simp only
      rw [show (clean l).drop (min (64 - a % 64) (clean l).length) = clean (l.drop (min (64 - a % 64) (clean l).length)) by
          unfold clean; rw [List.map_drop],
        show (clean l).take (min (64 - a % 64) (clean l).length) = clean (l.take (min (64 - a % 64) (clean l).length)) by
          unfold clean; rw [List.map_take], ih]
      rw [show (clean (l.take (min (64 - a % 64) (clean l).length))).any (·.2) = false from by simp only [clean, List.any_map]; exact List.any_eq_false.2 fun _ _ => by simp]
      rfl

theorem dlogPages_off {f : Nat} {s : Chip} (h : fbit s (aDLOG_CTL f) 0 = false) (n page : Nat) : dlogPages f n page s = (s, true) := by
  induction n generalizing page with
  | zero => rfl
  | succ n ih =>
    have hpage : dlogPage s f page = (s, true) := by
      unfold dlogPage
      simp only [h, Bool.not_false, Bool.true_or, if_true]
    rw [dlogPages, hpage]
    exact ih _

/-- A write to host memory that no log records (R347). -/
theorem hostWrite_plain {s : Chip} {f : Nat} (h : fbit s (aDLOG_CTL f) 0 = false) (hheld : s.mem.dlogHeld = []) (p a : Nat) (l : List Byte) :
    hostWrite s p f a (clean l) = hostPut (ctrAdd s p 157 l.length) a l := by
  have hraw : (clean l).map (fun b => if b.2 then 0#8 else b.1) = l := by simp [clean, Function.comp_def]
  have hlen : (clean l).length = l.length := List.length_map _
  unfold hostWrite
  simp only [poisonLines_clean, hraw, hlen, hheld, dlogPages_off h, beq_self_eq_true, if_true, List.any_nil, Bool.not_false, Bool.and_self]

theorem host_hostPut {s : Chip} (h : s.boot.undervolt = false) (a : Nat) (l : List Byte) : (hostPut s a l).mem.host = mwrite s.mem.host a l := by
  unfold hostPut
  rw [h]
  rfl

/-- A record's place in a host ring. -/
theorem ringWrite_host {s : Chip} {k : List Byte} {v : Nat} (hspace : ringSlot k v / 2 ^ 60 = 2) (h : fbit s (aDLOG_CTL (cFunc k)) 0 = false)
    (hheld : s.mem.dlogHeld = []) (hpower : s.boot.undervolt = false) (l : List Byte) :
    (ringWrite s k v l).1.mem.host = mwrite s.mem.host (ringSlot k v % 2 ^ 57) l := by
  unfold ringWrite spaceWrite
  rw [hspace, if_neg (by simp), if_pos (by simp), hostWrite_plain h hheld]
  exact host_hostPut (s := ctrAdd s (cPart k) 157 l.length) hpower _ _

-- What an engine notes (R392).

theorem onlyBar_engineNote (s : Chip) (e q code : Nat) : onlyBar [aDMA_ENG_ERR e] s (engineNote s e q code) := by
  unfold engineNote
  simp only
  exact onlyBar_ite (onlyBar_refl _ _) (onlyBar_trans (onlyBar_trans (onlyBar_fset _ _ _ _ (by simp)) (onlyBar_fset _ _ _ _ (by simp)))
    (onlyBar_fsat _ _ _ _ (by simp)))

theorem engineNote_spec (s : Chip) (e q : Nat) {code : Nat} (h0 : code ≠ 0) (hlt : code < 2 ^ 16) :
    fget (engineNote s e q code) (aDMA_ENG_ERR e) 63 48 = code ∧
      fget (engineNote s e q code) (aDMA_ENG_ERR e) 27 0 = min (fget s (aDMA_ENG_ERR e) 27 0 + 1) (2 ^ (27 + 1 - 0) - 1) := by
  unfold engineNote
  rw [if_neg (by simpa using h0)]
  generalize aDMA_ENG_ERR e = k
  refine ⟨?_, ?_⟩
  · rw [fget_fsat_field _ _ _ _ _ _ _ (by omega) (by omega) (by omega) (by omega),
      fget_fset_field _ _ _ _ _ _ _ (by omega) (by omega) (by omega) (by omega), fget_fset_same _ _ _ _ _ (by omega) (by omega)]
    exact Nat.mod_eq_of_lt hlt
  · rw [fget_fsat_same _ _ _ _ _ (by omega) (by omega), fget_fset_field _ _ _ _ _ _ _ (by omega) (by omega) (by omega) (by omega),
      fget_fset_field _ _ _ _ _ _ _ (by omega) (by omega) (by omega) (by omega)]

theorem dlogOff_engineNote {s : Chip} {f : Nat} (h : fbit s (aDLOG_CTL f) 0 = false) (e q code : Nat) :
    fbit (engineNote s e q code) (aDLOG_CTL f) 0 = false := by
  rw [fbit_of_barGet ((onlyBar_engineNote s e q code).2 _ (by
    simp only [List.mem_singleton, aDLOG_CTL, aDMA_ENG_ERR]
    omega)) 0, h]

theorem drainBells_idle {s : Chip} (h : s.qm.doorbells = []) (n : Nat) : drainBells n s = s := by
  cases n with
  | zero => rfl
  | succ n =>
    rw [drainBells]
    simp only [h]

theorem settleRetire_idle {s : Chip} (h : s.qm.retire = []) : settleRetire s = s := by
  unfold settleRetire
  rw [h]
  rfl

theorem findXfer_only {s : Chip} {q : Nat} {c : List Byte} {x : Xfer} (h : QueueAt s q c [x]) : findXfer s q x.slot = some x := by
  unfold findXfer
  rw [h.xfers, List.find?_cons_of_pos (by simp)]

theorem turnOf_only {s : Chip} {q : Nat} {c : List Byte} {x : Xfer} (h : QueueAt s q c [x]) : turnOf s q x.slot = true := by
  unfold turnOf
  rw [h.xfers]
  simp

/-- A record whose completion queue has no room, or is no completion queue that is on, waits (R373). -/
theorem writeRecord_waits {s : Chip} {q cq : Nat} {c k : List Byte} {x : Xfer} {ks : List Xfer} (h : QueueAt s q c [x]) (hk : QueueAt s cq k ks)
    (hcq : cCq c = cq) (h6 : dFlag x.d 6 = false) (hfull : cKind k ≠ 2 ∨ cState k = 0 ∨ 2 ^ cLog k ≤ ringHeld k) : writeRecord s q x.slot = s := by
  have hcond : (cKind k != 2 || cState k == 0 || decide (2 ^ cLog k ≤ ringHeld k)) = true := by
    rcases hfull with h1 | h1 | h1 <;> simp [h1]
  unfold writeRecord
  simp only [findXfer_only h, turnOf_only h, h.peek, h6, hcq, hk.load]
  by_cases hs : x.stage = .record
  · rw [if_neg (by simp [hs]), if_neg (by simp), if_pos (by simpa using hcond)]
  · rw [if_pos (by simp [hs])]

-- The clauses.

section
variable {s : State} {q cq : Nat} {c k : List Byte} {x : Xfer} {ks : List Xfer}

theorem readBackClause (h : QueueAt s.chip q c [x]) (hk : QueueAt s.chip cq k ks) (hne : q ≠ cq) (hcq : cCq c = cq)
    (hretire : s.chip.qm.retire = []) (hbells : s.chip.qm.doorbells = []) (hstage : x.stage = .readBack)
    (hfence : fenceOpen s.chip ⟨cPart c, 0xFFF, q⟩ 0xFFFF = false) (h7 : dType x.d ≠ 7) (h6 : dFlag x.d 6 = false)
    (hfull : cKind k ≠ 2 ∨ cState k = 0 ∨ 2 ^ cLog k ≤ ringHeld k) (ok : Bool) :
    ∃ t, exec (.readBackReturn q x.slot ok) s = .next t ∧ xfersOf t.chip q =
      [if ok then { x with stage := .record } else { x with stage := .record, badBack := true, codes := 0x1009 :: x.codes }] := by
  obtain ⟨y, hy⟩ : ∃ y : Xfer, y = if ok then { x with stage := .record } else
    { x with stage := .record, badBack := true, codes := 0x1009 :: x.codes } := ⟨_, rfl⟩
  obtain ⟨u, hu⟩ : ∃ u, u = modXfer s.chip q x.slot (fun y => if ok then { y with stage := .record } else
    { y with stage := .record, badBack := true, codes := 0x1009 :: y.codes }) := ⟨_, rfl⟩
  have hmod := h.modXfer x.slot (fun y => if ok then { y with stage := .record } else
    { y with stage := .record, badBack := true, codes := 0x1009 :: y.codes })
  rw [map_head (by simp), ← hu, ← hy] at hmod
  have huk : QueueAt u cq k ks := hu ▸ hk.setXfers_other hne.symm _
  have hslot : y.slot = x.slot ∧ y.d = x.d := by
    rw [hy]
    split <;> exact ⟨rfl, rfl⟩
  have hrec := writeRecord_waits hmod huk hcq (by rw [hslot.2]; exact h6) hfull
  rw [hslot.1] at hrec
  have hqm : u.qm.doorbells = [] ∧ u.qm.retire = [] := by
    rw [hu]
    exact ⟨hbells, hretire⟩
  have hexec : exec (.readBackReturn q x.slot ok) s = .next { s with chip := u } :=
    onChip_next (f := cmdReadBackReturn q x.slot ok) (by
      simp only [cmdReadBackReturn, findXfer_only h, h.peek, hstage, hfence, bne_self_eq_false, Bool.or_self, Bool.false_eq_true, if_false,
        beq_eq_false_iff_ne.2 h7, Bool.false_and, ← hu, hrec, drainBells_idle hqm.1, settleRetire_idle hqm.2])
  exact ⟨_, hexec, hmod.xfers.trans (by rw [hy])⟩

/-- The state in which a record stands in its ring and its transfer has left its queue (R371 to R374). -/
def recordStored (s : Chip) (q cq : Nat) (k : List Byte) (x : Xfer) : Chip :=
  let s1 := engineNote (ctxTouch s cq k) x.engine q (xStatus x)
  let s2 := (ringWrite s1 k (cTail k) (recordOf s1 q x (cTail k / 2 ^ cLog k % 2 == 0))).1
  settleQ (modXfer (ctxField s2 cq 24 4 ((cTail k + 1) % 2 ^ 17)) q x.slot (fun y => { y with stage := .done })) q

/-- A record that may be written is, and its queue may then be signalled (R376). -/
theorem writeRecord_stored {s : Chip} (h : QueueAt s q c [x]) (hk : QueueAt s cq k ks) (hcq : cCq c = cq) (hstage : x.stage = .record)
    (h6 : dFlag x.d 6 = false) (hkind : cKind k = 2) (hon : cState k ≠ 0) (hroom : ringHeld k < 2 ^ cLog k) :
    ∃ n, writeRecord s q x.slot = qmMod (recordStored s q cq k x) (fun m => { m with unsig := tset (fun _ => 0) cq n m.unsig }) ∨
      writeRecord s q x.slot = signalCq (qmMod (recordStored s q cq k x) (fun m => { m with unsig := tset (fun _ => 0) cq n m.unsig })) cq := by
  have hcond : ¬(cKind k != 2 || cState k == 0 || decide (2 ^ cLog k ≤ ringHeld k)) = true := by
    simp only [hkind, bne_self_eq_false, Bool.false_or, Bool.or_eq_true, beq_iff_eq, decide_eq_true_eq, not_or]
    exact ⟨hon, by omega⟩
  refine ⟨tget (fun _ => 0) (recordStored s q cq k x).qm.unsig cq + b2n (dFlag x.d 5), ?_⟩
  unfold writeRecord
  simp only [findXfer_only h, turnOf_only h, h.peek, h6, hcq, hk.load, hstage, bne_self_eq_false, Bool.not_true, Bool.or_self,
    Bool.false_eq_true, if_false, Bool.false_and]
  rw [if_neg (by simpa using hcond)]
  exact (ite_eq_or_eq _ _ _).symm

/-- What a record's writing leaves (R371 to R374). -/
structure Recorded (s u : Chip) (q cq : Nat) (c k : List Byte) (x : Xfer) (ks : List Xfer) : Prop where
  host : u.mem.host = mwrite s.mem.host (ringSlot k (cTail k) % 2 ^ 57) (recordOf s q x (cTail k / 2 ^ cLog k % 2 == 0))
  cqAt : QueueAt u cq (bSet k 24 4 ((cTail k + 1) % 2 ^ 17)) ks
  queue : QueueAt u q (bSet (bSet c 20 4 ((x.slot + 1) % 2 ^ 17)) 28 1 1) []
  idle : u.qm.doorbells = s.qm.doorbells ∧ u.qm.retire = s.qm.retire

theorem recordOf_time {s u : Chip} (h : u.time = s.time) (q : Nat) (x : Xfer) (b : Bool) : recordOf u q x b = recordOf s q x b := by
  unfold recordOf stamp tbNanos tbGet
  rw [h]

/-- The last transfer of an active queue leaves it idle. -/
theorem settled_idle {u : Chip} (h : QueueAt u q c [x]) (hlen : c.length = 64) (hstop : x.stopped = false) (hdone : x.stage = .done)
    (hact : cState c = 2) :
    settleQ u q = setQState (ctxField (setXfers u q []) q 20 4 ((x.slot + 1) % 2 ^ 17)) q 1 := by
  obtain ⟨hsettle, hgone⟩ := h.settle_done hdone hstop
  rw [hsettle]
  unfold settleState
  simp only [hgone.peek, cState_set20 hlen, hact, hgone.xfers]
  rfl

theorem recordStored_spec {s : Chip} (h : QueueAt s q c [x]) (hk : QueueAt s cq k ks) (hne : q ≠ cq) (hlen : c.length = 64)
    (hstop : x.stopped = false) (hspace : ringSlot k (cTail k) / 2 ^ 60 = 2) (hlog : fbit s (aDLOG_CTL (cFunc k)) 0 = false)
    (hheld : s.mem.dlogHeld = []) (hpower : s.boot.undervolt = false) (hact : cState c = 2) :
    Recorded s (recordStored s q cq k x) q cq c k x ks := by
  -- the engine's note
  obtain ⟨s1, hs1⟩ : ∃ s1, s1 = engineNote (ctxTouch s cq k) x.engine q (xStatus x) := exists_eq
  have hb1 : onlyBar [aDMA_ENG_ERR x.engine] (ctxTouch s cq k) s1 := hs1 ▸ onlyBar_engineNote ..
  have hlog1 : fbit s1 (aDLOG_CTL (cFunc k)) 0 = false := hs1 ▸ dlogOff_engineNote (s := ctxTouch s cq k) hlog ..
  have hq1 : QueueAt s1 q c [x] := (h.touch_other hne k).of_qm (qm_of_onlyBar hb1)
  have hk1 : QueueAt s1 cq k ks := (hk.touch k).of_qm (qm_of_onlyBar hb1)
  have hmem1 : s1.mem = s.mem ∧ s1.boot = s.boot ∧ s1.time = s.time ∧ s1.qm.doorbells = s.qm.doorbells ∧ s1.qm.retire = s.qm.retire := by
    rw [hb1.1]
    exact ⟨rfl, rfl, rfl, rfl, rfl⟩
  obtain ⟨hm1, hbt1, htm1, hdb1, hrt1⟩ := hmem1
  obtain ⟨rec, hrec⟩ : ∃ rec, rec = recordOf s q x (cTail k / 2 ^ cLog k % 2 == 0) := exists_eq
  have hrec1 : recordOf s1 q x (cTail k / 2 ^ cLog k % 2 == 0) = rec := (recordOf_time htm1 ..).trans hrec.symm
  -- the ring
  obtain ⟨s2, hs2⟩ : ∃ s2, s2 = (ringWrite s1 k (cTail k) rec).1 := exists_eq
  have hqm2 : s2.qm = s1.qm := hs2 ▸ qm_ringWrite ..
  have hhost2 : s2.mem.host = mwrite s.mem.host (ringSlot k (cTail k) % 2 ^ 57) rec := by
    rw [hs2, ringWrite_host hspace hlog1 (by rw [hm1]; exact hheld) (by rw [hbt1]; exact hpower), hm1]
  -- the completion queue's tail, and the transfer's stage
  obtain ⟨s3, hs3⟩ : ∃ s3, s3 = modXfer (ctxField s2 cq 24 4 ((cTail k + 1) % 2 ^ 17)) q x.slot (fun y => { y with stage := .done }) := exists_eq
  have hq3 := ((hq1.of_qm hqm2).field_other hne 24 4 ((cTail k + 1) % 2 ^ 17)).modXfer x.slot (fun y => { y with stage := .done })
  rw [map_head (by simp), ← hs3] at hq3
  have hk3 : QueueAt s3 cq (bSet k 24 4 ((cTail k + 1) % 2 ^ 17)) ks := hs3 ▸ ((hk1.of_qm hqm2).field ..).setXfers_other hne.symm _
  have hrest3 : s3.mem = s2.mem ∧ s3.qm.doorbells = s2.qm.doorbells ∧ s3.qm.retire = s2.qm.retire := by
    rw [hs3]
    exact ⟨rfl, rfl, rfl⟩
  -- the transfer leaves its queue
  have hgo : recordStored s q cq k x = setQState (ctxField (setXfers s3 q []) q 20 4 ((x.slot + 1) % 2 ^ 17)) q 1 := by
    unfold recordStored
    simp only
    rw [← hs1, hrec1, ← hs2, ← hs3]
    exact settled_idle (x := { x with stage := .done }) hq3 hlen hstop rfl hact
  rw [hgo]
  refine ⟨?_, ((hk3.setXfers_other hne.symm _).field_other hne.symm ..).field_other hne.symm .., ((hq3.setXfers []).field ..).setQState 1, ?_⟩
  · rw [← hrec, ← hhost2, ← hrest3.1]
    rfl
  · rw [← hdb1, ← hrt1, ← hqm2, ← hrest3.2.1, ← hrest3.2.2]
    exact ⟨rfl, rfl⟩

theorem writeRecord_spec {s : Chip} (h : QueueAt s q c [x]) (hk : QueueAt s cq k ks) (hne : q ≠ cq) (hcq : cCq c = cq) (hlen : c.length = 64)
    (hstage : x.stage = .record) (hstop : x.stopped = false) (h6 : dFlag x.d 6 = false) (hkind : cKind k = 2) (hon : cState k ≠ 0)
    (hroom : ringHeld k < 2 ^ cLog k) (hspace : ringSlot k (cTail k) / 2 ^ 60 = 2) (hlog : fbit s (aDLOG_CTL (cFunc k)) 0 = false)
    (hheld : s.mem.dlogHeld = []) (hpower : s.boot.undervolt = false) (hact : cState c = 2) :
    Recorded s (writeRecord s q x.slot) q cq c k x ks := by
  obtain ⟨hhost, hcqAt, hqueue, hidle⟩ := recordStored_spec h hk hne hlen hstop hspace hlog hheld hpower hact
  obtain ⟨n, hgo⟩ := writeRecord_stored h hk hcq hstage h6 hkind hon hroom
  generalize recordStored s q cq k x = u at *
  rcases hgo with hgo | hgo <;> rw [hgo]
  · exact ⟨hhost, ⟨hcqAt.cached, hcqAt.xfers⟩, ⟨hqueue.cached, hqueue.xfers⟩, hidle⟩
  · exact ⟨hhost, ⟨hcqAt.cached, hcqAt.xfers⟩, ⟨hqueue.cached, hqueue.xfers⟩, hidle⟩

theorem recordClause (h : QueueAt s.chip q c [x]) (hk : QueueAt s.chip cq k ks) (hne : q ≠ cq) (hcq : cCq c = cq) (hlen : c.length = 64)
    (hklen : k.length = 64) (hretire : s.chip.qm.retire = []) (hbells : s.chip.qm.doorbells = []) (hstage : x.stage = .record)
    (hstop : x.stopped = false) (h6 : dFlag x.d 6 = false) (hkind : cKind k = 2) (hon : cState k ≠ 0)
    (hroom : ringHeld k < 2 ^ cLog k) (hspace : ringSlot k (cTail k) / 2 ^ 60 = 2) (hlog : fbit s.chip (aDLOG_CTL (cFunc k)) 0 = false)
    (hheld : s.chip.mem.dlogHeld = []) (hpower : s.chip.boot.undervolt = false) (hact : cState c = 2) :
    ∃ t, exec (.completionRecordWrite q x.slot) s = .next t ∧
      mread t.chip.mem.host (ringSlot k (cTail k) % 2 ^ 57) 64 = recordOf s.chip q x (cTail k / 2 ^ cLog k % 2 == 0) ∧
      (∀ a, a < ringSlot k (cTail k) % 2 ^ 57 ∨ ringSlot k (cTail k) % 2 ^ 57 + 64 ≤ a → mget t.chip.mem.host a = mget s.chip.mem.host a) ∧
      cTail (ctxPeek t.chip cq) = (cTail k + 1) % 2 ^ 17 ∧ xfersOf t.chip q = [] ∧
      cHead (ctxPeek t.chip q) = (x.slot + 1) % 2 ^ 17 ∧ cState (ctxPeek t.chip q) = 1 := by
  obtain ⟨hhost, hcqAt, hqueue, hidle⟩ := writeRecord_spec h hk hne hcq hlen hstage hstop h6 hkind hon hroom hspace hlog hheld hpower hact
  obtain ⟨u, hu⟩ : ∃ u, u = writeRecord s.chip q x.slot := ⟨_, rfl⟩
  have hexec : exec (.completionRecordWrite q x.slot) s = .next { s with chip := u } :=
    onChip_next (f := cmdCompletionRecordWrite q x.slot) (by
      rw [cmdCompletionRecordWrite, drainBells_idle (hidle.1.trans hbells), settleRetire_idle (hidle.2.trans hretire), hu])
  rw [← hu] at hhost hcqAt hqueue
  have hrl := recordOf_length s.chip q x (cTail k / 2 ^ cLog k % 2 == 0)
  have hlt : ∀ v : Nat, v % 2 ^ 17 < 2 ^ 17 := fun v => Nat.mod_lt _ (by omega)
  have hlen20 : (bSet c 20 4 ((x.slot + 1) % 2 ^ 17)).length = 64 := by rw [bSet_length _ (by omega), hlen]
  refine ⟨_, hexec, ?_, fun a ha => ?_, ?_, hqueue.xfers, ?_, ?_⟩
  · change mread u.mem.host _ 64 = _
    rw [hhost]
    have := mread_mwrite_same s.chip.mem.host (ringSlot k (cTail k) % 2 ^ 57) (recordOf s.chip q x (cTail k / 2 ^ cLog k % 2 == 0))
    rwa [hrl] at this
  · change mget u.mem.host a = _
    rw [hhost, mget_mwrite, hrl, if_neg (by omega)]
  · rw [hcqAt.peek, cTail_set24 hklen (hlt _)]
  · rw [hqueue.peek, cHead_set28 hlen20, cHead_set20 hlen (hlt _)]
  · rw [hqueue.peek, cState_set28 hlen20]

theorem moderationClause (hk : QueueAt s.chip cq k ks) (hready : qmReady s.chip = true) (hkind : cKind k = 2) (hus : cModUs k ≠ 0)
    (hun : tget (fun _ => 0) s.chip.qm.unsig cq ≠ 0) :
    ∃ t, exec (.cqModerationTimeout cq) s = .next t ∧ t.chip.irqs = s.chip.irqs ++ [(cFunc k, cVector k)] ∧
      tget (fun _ => 0) t.chip.qm.unsig cq = 0 ∧ t.chip.bar = s.chip.bar := by
  have hexec : exec (.cqModerationTimeout cq) s = .next { s with chip := (
      raiseIrq (qmMod s.chip (fun m => { m with unsig := tset (fun _ => 0) cq 0 m.unsig })) (cFunc k) (cVector k)) } :=
    onChip_next (f := cmdCqModerationTimeout cq) (by
      simp only [cmdCqModerationTimeout, hk.peek, hready, hkind, beq_self_eq_true, Bool.and_self, Bool.true_and, signalCq]
      rw [if_pos (by simp [hus, hun])])
  exact ⟨_, hexec, rfl, tget_tset_same (fun _ => 0) cq 0 s.chip.qm.unsig, rfl⟩

theorem failX_ends {u : Chip} (h : QueueAt u q c [x]) (hsr : dSR x.d = false) (code : Nat) :
    QueueAt (failX u q x code) q c [{ x with stage := .readBack, ended := true, codes := code :: x.codes }] ∧
      within putQm [] u (failX u q x code) := by
  have hmod := h.modXfer x.slot (fun y => { y with stage := .readBack, ended := true, codes := code :: y.codes })
  rw [map_head (by simp)] at hmod
  unfold failX
  rw [if_neg (by simp [hsr])]
  exact ⟨hmod, within_modXfer ..⟩

theorem hostTimeoutClause (h : QueueAt s.chip q c [x]) (hstage : x.stage = .running) (hsr : dSR x.d = false) (hsrc : dSrc x.d / 2 ^ 60 = 2)
    (h4 : dType x.d ≠ 4) :
    ∃ t, exec (.hostReadTimeout q x.slot) s = .next t ∧
      xfersOf t.chip q = [{ x with stage := .readBack, ended := true, codes := 0x1008 :: x.codes }] ∧ queueOnly [] s t := by
  obtain ⟨hat, hw⟩ := failX_ends h hsr 0x1008
  have hexec : exec (.hostReadTimeout q x.slot) s = .next { s with chip := failX s.chip q x 0x1008 } :=
    onChip_next (f := cmdHostReadTimeout q x.slot) (by
      simp only [cmdHostReadTimeout, findXfer_only h, hstage, hsrc, beq_self_eq_true, Bool.and_self, Bool.true_and, bne_iff_ne, ne_eq, h4,
        not_false_eq_true, if_true])
  exact ⟨_, hexec, hat.xfers, queueOnly_of_within hw⟩

theorem engineFailureClause (h : QueueAt s.chip q c [x]) (hstage : x.stage = .running) (hsr : dSR x.d = false) (he : x.engine < 16)
    (hall : s.chip.qm.xfers = [(q, [x])]) :
    ∃ t, exec (.engineFailure x.engine) s = .next t ∧ fget t.chip (aDMA_ENG_STATUS x.engine) 3 0 = 3 ∧
      xfersOf t.chip q = [{ x with stage := .readBack, ended := true, codes := 0x100B :: x.codes }] ∧
      queueOnly [aDMA_ENG_STATUS x.engine] s t := by
  obtain ⟨u, hu⟩ : ∃ u, u = fset s.chip (aDMA_ENG_STATUS x.engine) 3 0 3 := ⟨_, rfl⟩
  have hb : onlyBar [aDMA_ENG_STATUS x.engine] s.chip u := hu ▸ onlyBar_fset _ _ _ _ (List.mem_singleton_self _)
  have hfield : fget u (aDMA_ENG_STATUS x.engine) 3 0 = 3 := by
    rw [hu, fget_fset_same _ _ _ _ _ (by omega) (by omega)] <;> rfl
  obtain ⟨hat, hw⟩ := failX_ends (h.of_qm (qm_of_onlyBar hb)) hsr 0x100B
  have hfilter : [x].filter (fun y => y.engine == x.engine && y.stage == .running) = [x] := by simp [hstage]
  have hexec : exec (.engineFailure x.engine) s = .next { s with chip := failX u q x 0x100B } :=
    onChip_next (f := cmdEngineFailure x.engine) (by
      unfold cmdEngineFailure
      rw [onUnit_next he]
      simp only [hall, forEach_cons, hfilter, ← hu]
      rfl)
  exact ⟨_, hexec, (fget_of_barGet (hw.2 _ (by simp)) _ _).trans hfield, hat.xfers,
    queueOnly_of_within (within_trans parts_qm (within_bar parts_qm hb) (within_mono (by simp) hw))⟩

theorem contextLostClause (h : QueueAt s.chip q c [x]) (hlen : c.length = 64) :
    ∃ t, exec (.contextLost q) s = .next t ∧ cState (ctxPeek t.chip q) = 4 ∧
      queueOnly [aDMA_ENG_ERR (cEngine c)] s t ∧ fget t.chip (aDMA_ENG_ERR (cEngine c)) 63 48 = 0x100C ∧
      countedOne s t (aDMA_ENG_ERR (cEngine c)) 27 0 := by
  obtain ⟨u, hu⟩ : ∃ u, u = setQState s.chip q 4 := ⟨_, rfl⟩
  have hat : QueueAt u q (bSet c 28 1 4) [x] := hu ▸ h.setQState 4
  have hw : within putQm [] s.chip u := hu ▸ within_setQState ..
  have hb := onlyBar_engineNote u (cEngine c) q 0x100C
  obtain ⟨hcode, hcount⟩ := engineNote_spec u (cEngine c) q (code := 0x100C) (by omega) (by omega)
  have hexec : exec (.contextLost q) s = .next { s with chip := engineNote u (cEngine c) q 0x100C } :=
    onChip_next (f := cmdContextLost q) (by
      unfold cmdContextLost when
      rw [if_pos (List.any_eq_true.2 ⟨_, List.mem_of_find?_eq_some h.cached, by simp⟩)]
      simp only [h.peek, ← hu])
  generalize engineNote u (cEngine c) q 0x100C = v at *
  refine ⟨_, hexec, ?_, queueOnly_of_within (within_trans parts_qm (within_mono (by simp) hw) (within_bar parts_qm hb)), hcode,
    hcount.trans (by rw [fget_of_barGet (hw.2 _ (by simp))])⟩
  rw [(hat.of_qm (qm_of_onlyBar hb)).peek, cState_set28 hlen]

end

/-- Settles O37. -/
theorem transfersEnd : Obligations.TransfersEnd := by
  unfold Obligations.TransfersEnd
  intro s q cq c k x hlen hklen hne hq hcq hx hretire hbells hc
  have h : QueueAt s.chip q c [x] := ⟨hq, hx⟩
  have hk : QueueAt s.chip cq k (xfersOf s.chip cq) := ⟨hcq, rfl⟩
  refine ⟨fun h1 h2 h3 h4 h5 => ⟨?_, ?_⟩, fun ring hring h1 h2 h3 h4 h5 h6 h7 h8 h9 h10 h11 => ?_, moderationClause hk,
    fun h1 h2 => ⟨hostTimeoutClause h h1 h2, engineFailureClause h h1 h2⟩, fun _ => contextLostClause h hlen⟩
  · exact readBackClause h hk hne hc hretire hbells h1 h2 h3 h4 h5 true
  · exact readBackClause h hk hne hc hretire hbells h1 h2 h3 h4 h5 false
  · subst hring
    exact recordClause h hk hne hc hlen hklen hretire hbells h1 h2 h3 h4 h5 h6 h7 h8 h9 h10 h11

end Sys2Proof.Proofs
end

section
/-! SUPPORT. A descriptor starts, its elements are written, and panes arrive (O36). -/

namespace Sys2Proof.Proofs

open Sys2Proof.Machine

-- What reads of device memory leave.

/-- The banks, the strands and the queue manager are as they were. -/
structure DevKept (s u : Chip) : Prop where
  tiles : u.tiles = s.tiles
  strands : u.strands = s.strands
  qm : u.qm = s.qm

theorem devKept_memOnly {s u : Chip} (h : memOnly s u) : DevKept s u := by
  refine ⟨?_, ?_, ?_⟩ <;> rw [h.1]

theorem devKept_onlyBar {ks : List Nat} {s u : Chip} (h : onlyBar ks s u) : DevKept s u := by
  refine ⟨?_, ?_, ?_⟩ <;> rw [h.1]

theorem devKept_devReadChecked (s : Chip) (p fn a n : Nat) : DevKept s (devReadChecked s p fn a n).1 := by
  by_cases h : devCheck s p fn a n = 0
  · rw [devReadChecked_ok h]
    exact devKept_memOnly (memOnly_devReadGo ..)
  · rw [devReadChecked_bad h]
    exact devKept_onlyBar (ks := [aPART_STATUS p]) (onlyBar_ite (onlyBar_fset _ _ _ _ (by simp)) (onlyBar_refl _ _))

-- A descriptor starts (R355, R356).

section
variable {s : State} {q : Nat} {c : List Byte}

theorem startClause (hlen : c.length = 64) (h : QueueAt s.chip q c []) {m : Chip × List MByte × Nat} {d : List Byte}
    (hm : m = devReadChecked (ctxTouch s.chip q c) (cPart c) (cFunc c) (ringSlot c (nextSlot s.chip q c) % 2 ^ 48) 64) (hd : d = unmark m.2.1)
    (hready : qmReady s.chip = true) (hstop : fbit s.chip aQM_CTL 1 = false) (hq : q < 2 ^ 20) (hsec : fget s.chip aSEC_STATUS 3 0 ≠ 0xF)
    (hkind : cKind c = 1) (hstate : cState c = 1) (hsome : unstarted s.chip q c ≠ 0) (hquiet : (getPart s.chip (cPart c)).quiet = false)
    (hhold : fbit s.chip (aFJ_CTL (cPart c)) 4 = false) (hauto : fbit s.chip (aPART_CTL (cPart c)) 1 = false)
    (hserves : engineServes s.chip (cEngine c) = true) (hcode : m.2.2 = 0) (hmarks : m.2.1.any (·.2) = false)
    (hgood : descCode d (cRadio c) = 0) (h7 : dType d ≠ 7) (hstream : isStream d = false) (h4 : dFlag d 4 = false)
    (hroom : running s.chip (cEngine c) < 32) (hsrc : dSrc d / 2 ^ 60 ≠ 3) (hdst : dDst d / 2 ^ 60 ≠ 3) :
    ∃ t, exec (.descriptorStart q) s = .next t ∧ xfersOf t.chip q = [{ slot := nextSlot s.chip q c, d := d, engine := cEngine c }] ∧
      cState (ctxPeek t.chip q) = 2 ∧ t.chip.tiles = s.chip.tiles ∧ t.chip.strands = s.chip.strands := by
  obtain ⟨u, hu⟩ : ∃ u, u = ctxTouch s.chip q c := exists_eq
  have hut : QueueAt u q c [] := hu ▸ h.touch c
  have hsame : unstarted u q c = unstarted s.chip q c ∧ (getPart u (cPart c)).quiet = false ∧ fbit u (aFJ_CTL (cPart c)) 4 = false ∧
      fbit u (aPART_CTL (cPart c)) 1 = false ∧ engineServes u (cEngine c) = true ∧ nextSlot u q c = nextSlot s.chip q c ∧
      running u (cEngine c) = running s.chip (cEngine c) ∧ u.tiles = s.chip.tiles ∧ u.strands = s.chip.strands := by
    rw [hu]
    exact ⟨rfl, hquiet, hhold, hauto, hserves, rfl, rfl, rfl, rfl⟩
  obtain ⟨hun, hquiet', hhold', hauto', hserves', hslot, hrun, htiles, hstrands⟩ := hsame
  have hk := devKept_devReadChecked u (cPart c) (cFunc c) (ringSlot c (nextSlot s.chip q c) % 2 ^ 48) 64
  rw [← hu] at hm
  rw [← hm] at hk
  have hmat : QueueAt m.1 q c [] := hut.of_qm hk.qm
  obtain ⟨x, hx⟩ : ∃ x : Xfer, x = { slot := nextSlot s.chip q c, d := d, engine := cEngine c } := exists_eq
  obtain ⟨v, hv⟩ : ∃ v, v = setQState (headArrives (setXfers m.1 q [x]) q) q 2 := exists_eq
  have hvat : QueueAt v q (bSet c 28 1 2) [x] := hv ▸ ((hmat.setXfers [x]).headArrives q).setQState 2
  have hvkept : v.tiles = m.1.tiles ∧ v.strands = m.1.strands := by
    rw [hv]
    exact ⟨rfl, rfl⟩
  have hfill : fillCode m.1 c d = 0 := by
    unfold fillCode
    rw [if_pos (by simpa using h7)]
  have hguard : (!qmReady s.chip || fbit s.chip aQM_CTL 1 || decide (2 ^ 20 ≤ q) || fget s.chip aSEC_STATUS 3 0 == 0xF) = false := by
    simp only [hready, hstop, Bool.not_true, Bool.false_or, Bool.or_eq_false_iff, decide_eq_false_iff_not, beq_eq_false_iff_ne]
    exact ⟨by omega, hsec⟩
  have hgo : (cKind c != 1 || !(cState c == 1 || cState c == 2) || unstarted u q c == 0 || (getPart u (cPart c)).quiet ||
      fbit u (aFJ_CTL (cPart c)) 4) = false := by
    simp only [hkind, hstate, hquiet', hhold', hun]
    simpa using hsome
  have hstart : startEngine u c = some (cEngine c) := by
    unfold startEngine
    rw [hauto', if_neg (by simp), if_pos hserves']
  have hcodes : (if m.2.2 != 0 then m.2.2 else if m.2.1.any (·.2) then 0x1003 else leastCode [descCode d (cRadio c), fillCode m.1 c d]) = 0 := by
    rw [hcode, hmarks, hgood, hfill]
    rfl
  have hbusy : streamBusy u c d = false := by
    unfold streamBusy
    rw [hstream, Bool.false_and]
  have hwaits : ((0 : Nat) == 0 && ((dFlag d 3 && !(xfersOf u q).isEmpty) ||
      (dFlag d 4 && decide (tget (fun _ => 0) u.qm.fires (cTrig c) ≤ tget (fun _ => 0) u.qm.headAt q)) ||
      decide (32 ≤ running u (cEngine c)) || streamBusy u c d ||
      (jobCode u (cPart c) == 0x3011 && (dSrc d / 2 ^ 60 == 3 || dDst d / 2 ^ 60 == 3)))) = false := by
    simp only [hut.xfers, h4, hbusy, beq_eq_false_iff_ne.2 hsrc, beq_eq_false_iff_ne.2 hdst, List.isEmpty_nil, Bool.not_true, Bool.and_false,
      Bool.false_and, Bool.or_false, Bool.false_or, hrun, Bool.and_eq_false_iff, decide_eq_false_iff_not]
    exact .inr (by omega)
  have hexec : exec (.descriptorStart q) s = .next { s with chip := v } :=
    onChip_next (f := cmdDescriptorStart q) (by
      unfold cmdDescriptorStart
      rw [hguard, if_neg (by simp), h.load]
      simp only [← hu, hgo, hstart, hslot, ← hm, ← hd, hcodes, Bool.false_eq_true, if_false]
      rw [hwaits, if_neg (by simp)]
      simp only [hmat.xfers, List.nil_append, beq_self_eq_true, if_true, hstream, Bool.false_eq_true, if_false]
      rw [← hx, hv])
  exact ⟨_, hexec, hvat.xfers.trans (by rw [hx]), by rw [hvat.peek, cState_set28 hlen],
    hvkept.1.trans (hk.tiles.trans htiles), hvkept.2.trans (hk.strands.trans hstrands)⟩

/-- The source address and the destination address of an element of a linear copy (R361). -/
def copySrc (d : List Byte) (e : Nat) : Nat := addOff (dSrc d) ((dIndex d e).1 * dESize d + dimOff (dSS d) (dIndex d e))
def copyDst (d : List Byte) (e : Nat) : Nat := addOff (dDst d) ((dIndex d e).1 * dESize d + dimOff (dDS d) (dIndex d e))

/-- The bytes of an element of a linear copy from device memory (R361, R379). -/
theorem copy_read {u : Chip} {d : List Byte} {e ch mb : Nat} (h1 : dType d = 1) (hr : dRefmt d = 0) (hf : dFlag d 1 = false)
    (hspace : copySrc d e / 2 ^ 48 = 0) (hradio : cRadio c = true)
    (hsound : burstSound u (cPart c) (cFunc c) (copySrc d e) (dESize d) ch mb = true) :
    readRowsX c q d (srcOffs d e 0) u = (ctrAdd u (cPart c) ch 64, [clean (mread u.mem.dram (mbKey ch mb) (dESize d))], 0) := by
  obtain ⟨hs, hcheck⟩ := soundAt_of_burstSound hsound
  have hoffs : srcOffs d e 0 = [((dIndex d e).1 * dESize d + dimOff (dSS d) (dIndex d e), dESize d)] := by
    unfold srcOffs
    simp only [h1, hr]
    rfl
  have hlt : copySrc d e < 2 ^ 48 := by omega
  have hside : sideRead u c q (copySrc d e) (dESize d) =
      (ctrAdd u (cPart c) ch 64, clean (mread u.mem.dram (mbKey ch mb) (dESize d)), 0) := by
    unfold sideRead
    have h0 : copySrc d e / 2 ^ 60 = 0 := by omega
    have hbits : bitsOf (copySrc d e) 59 48 = 0 := by
      rw [bitsOf_eq]
      omega
    have hcharge : memCharge u c (copySrc d e) (dESize d) false = u := by
      unfold memCharge
      rw [if_pos hradio]
    simp only [h0, hbits, hcharge, Nat.mod_eq_of_lt hlt, devReadChecked_ok hcheck, devRead_sound hs]
    rfl
  rw [hoffs]
  unfold readRowsX readRowsX
  simp only [hf, ringPieces, Bool.not_false, if_true, readPieces]
  rw [show addOff (dSrc d) ((dIndex d e).1 * dESize d + dimOff (dSS d) (dIndex d e)) = copySrc d e from rfl, hside, List.append_nil]
  rfl

/-- The bytes of an element of a linear copy to a tile, as they are written there. -/
theorem copy_write {u : Chip} {d : List Byte} {e tile slot : Nat} {bs : List Byte} (h1 : dType d = 1) (hr : dRefmt d = 0)
    (hf : dFlag d 2 = false) (hspace : copyDst d e / 2 ^ 60 = 1) (hside : tileSide u (cPart c) (copyDst d e) bs.length = (tile, 0)) :
    writeRowsX c q slot d e [] ((dstOffs d e 0).zip [clean bs]) u =
      (ctrAdd (storeMarked u tile (copyDst d e % 2 ^ 22) (clean bs)) (cPart c) (128 + edgePort u tile)
        (128 * flitsOf (lineCount (copyDst d e % 2 ^ 22) bs.length)), 0) := by
  have hoffs : dstOffs d e 0 = [((dIndex d e).1 * dESize d + dimOff (dDS d) (dIndex d e))] := by
    unfold dstOffs
    simp only [h1, hr, isStream]
    rfl
  have hpieces : dstPieces u d e ((dIndex d e).1 * dESize d + dimOff (dDS d) (dIndex d e)) (clean bs).length = [(copyDst d e, (clean bs).length)] := by
    unfold dstPieces ringPieces
    simp only [h1, hf]
    rfl
  have hlen : (clean bs).length = bs.length := List.length_map _
  have hwrite : sideWrite u c q slot (copyDst d e) (clean bs) =
      (ctrAdd (storeMarked u tile (copyDst d e % 2 ^ 22) (clean bs)) (cPart c) (128 + edgePort u tile)
        (128 * flitsOf (lineCount (copyDst d e % 2 ^ 22) bs.length)), 0) := by
    unfold sideWrite
    simp only [hspace, hlen, hside]
    rfl
  rw [hoffs, List.zip_cons_cons, List.zip_nil_left]
  unfold writeRowsX writeRowsX
  simp only [hpieces, List.any_nil, Bool.or_self, List.any_cons, Bool.and_false, Bool.false_eq_true, if_false]
  rw [if_neg (by simp)]
  unfold writePieces writePieces
  rw [List.take_of_length_le (le_refl _), hwrite]
  rfl

theorem dmaElement_copy {u : Chip} {x : Xfer} {ch mb tile : Nat} (hat : QueueAt u q c [x]) (h1 : dType x.d = 1) (hr : dRefmt x.d = 0)
    (hf1 : dFlag x.d 1 = false) (hf2 : dFlag x.d 2 = false) (hspots : x.spots = []) (hsrc : copySrc x.d x.next / 2 ^ 48 = 0)
    (hdst : copyDst x.d x.next / 2 ^ 60 = 1) (hradio : cRadio c = true)
    (hsound : burstSound u (cPart c) (cFunc c) (copySrc x.d x.next) (dESize x.d) ch mb = true)
    (hside : tileSide u (cPart c) (copyDst x.d x.next) (dESize x.d) = (tile, 0)) :
    ∃ v w spots, v = { u with ctrLive := v.ctrLive } ∧
      w = { storeMarked v tile (copyDst x.d x.next % 2 ^ 22) (clean (mread u.mem.dram (mbKey ch mb) (dESize x.d))) with ctrLive := w.ctrLive } ∧
      dmaElement u q x .good = advanceX w q c { x with next := x.next + 1, bytes := x.bytes + dESize x.d, spots := spots } := by
  obtain ⟨bs, hbs⟩ : ∃ bs, bs = mread u.mem.dram (mbKey ch mb) (dESize x.d) := exists_eq
  have hlen : bs.length = dESize x.d := by rw [hbs, mread_length]
  obtain ⟨v, hv⟩ : ∃ v, v = ctrAdd u (cPart c) ch 64 := exists_eq
  have hread := copy_read (q := q) (e := x.next) h1 hr hf1 hsrc hradio hsound
  rw [← hv, ← hbs] at hread
  have hside' : tileSide v (cPart c) (copyDst x.d x.next) bs.length = (tile, 0) := by
    rw [hv, hlen]
    exact hside
  have hwrite := copy_write (q := q) (slot := x.slot) h1 hr hf2 hdst hside'
  obtain ⟨w, hw⟩ : ∃ w, w = ctrAdd (storeMarked v tile (copyDst x.d x.next % 2 ^ 22) (clean bs)) (cPart c) (128 + edgePort v tile)
    (128 * flitsOf (lineCount (copyDst x.d x.next % 2 ^ 22) bs.length)) := exists_eq
  rw [← hw] at hwrite
  have hnoix : (dType x.d == 2 || dType x.d == 3 || dType x.d == 6) = false := by rw [h1]; rfl
  have hmarks : ([clean bs] : List (List MByte)).any (fun l => l.any (·.2)) = false := by
    rw [List.any_cons, List.any_nil, Bool.or_false]
    simp only [clean, List.any_map]
    exact List.any_eq_false.2 fun _ _ => by simp
  have hre : reformat x.d [clean bs] = [clean bs] := by
    unfold reformat
    rw [if_neg (by simp [h1]), if_pos (by simp [hr])]
  have hn : (([clean bs] : List (List MByte)).map (·.length)).foldl (· + ·) 0 = dESize x.d := by
    simp only [List.map_cons, List.map_nil, List.foldl_cons, List.foldl_nil, Nat.zero_add]
    exact (List.length_map _).trans hlen
  refine ⟨v, w, if dSR x.d || dRefmt x.d != 0 || isStream x.d then [] else
    ((dstOffs x.d x.next 0).flatMap (fun f => (dstPieces u x.d x.next f (dESize x.d)).map (·.1))) ++ [], by rw [hv]; rfl, by rw [← hbs, hw]; rfl, ?_⟩
  unfold dmaElement
  simp only [hat.peek, hnoix, hread, hmarks, hspots, Bool.false_eq_true, if_false, bne_self_eq_false, Bool.or_self, Bool.false_and,
    show ((0 : Nat) == 0x1008) = false from rfl, show ((0 : Nat) == 0x2003) = false from rfl, hre, hwrite, hn, b2n, Nat.add_zero]

/-- The counter of the transfer, when its last element is written (R375). -/
theorem advanceX_copy {u : Chip} {x y : Xfer} (hat : QueueAt u q c [x]) (hslot : y.slot = x.slot) (hd : y.d = x.d) (hlin : isStream x.d = false)
    (hrun : y.stage = .running) (hquiet : allQuiet u = true) :
    ∃ z, QueueAt (advanceX u q c y) q c [z] ∧ z.next = y.next ∧ z.bytes = y.bytes ∧ z.codes = y.codes ∧
      z.stage = (if y.next < dCount x.d then .running else .readBack) ∧ (advanceX u q c y).strands = u.strands ∧
      (∀ k, (getTile (advanceX u q c y) k).mem = (getTile u k).mem) ∧
      ∀ k tile, dCnt x.d = some k → dstTile u c x.d = some tile → y.next = dCount x.d →
        acGet (advanceX u q c y) tile k = max (-2147483648) (min 2147483647 (acGet u tile k - 1)) := by
  have hmod := hat.modXfer x.slot (fun _ => y)
  rw [map_head (by simp), ← hslot] at hmod
  obtain ⟨v, hv⟩ : ∃ v, v = modXfer u q y.slot (fun _ => y) := exists_eq
  rw [← hv] at hmod
  have hvsame : v.tiles = u.tiles ∧ v.strands = u.strands ∧ dstTile v c x.d = dstTile u c x.d := by
    rw [hv]
    exact ⟨rfl, rfl, rfl⟩
  obtain ⟨htiles, hstrands, hdst⟩ := hvsame
  unfold advanceX lastElement
  rw [← hv, hd]
  by_cases hlt : y.next < dCount x.d
  · rw [if_pos (by simp [hlt]), if_pos hlt]
    exact ⟨y, hmod, rfl, rfl, rfl, hrun, hstrands, fun k => by unfold getTile; rw [htiles], fun k tile _ _ he => absurd hlt (by omega)⟩
  · rw [if_neg (by simp [hlt, hlin]), if_neg hlt]
    obtain ⟨z, hz⟩ : ∃ z : Xfer, z = { y with stage := .readBack } := exists_eq
    have hback := hmod.modXfer y.slot (fun y => { y with stage := .readBack })
    rw [map_head (by simp), ← hz] at hback
    obtain ⟨w, hw⟩ : ∃ w, w = modXfer v q y.slot (fun y => { y with stage := .readBack }) := exists_eq
    rw [← hw] at hback
    have hwsame : w.tiles = u.tiles ∧ w.strands = u.strands ∧ dstTile w c x.d = dstTile u c x.d := by
      rw [hw]
      exact ⟨htiles, hstrands, hdst⟩
    obtain ⟨htw, hsw, hdw⟩ := hwsame
    rw [← hw]
    have hfields : z.next = y.next ∧ z.bytes = y.bytes ∧ z.codes = y.codes ∧ z.stage = .readBack := by
      rw [hz]
      exact ⟨rfl, rfl, rfl, rfl⟩
    obtain ⟨hf1, hf2, hf3, hf4⟩ := hfields
    unfold xArrive
    rw [hdw]
    cases ht : dstTile u c x.d with
    | none => exact ⟨z, hback, hf1, hf2, hf3, hf4, hsw, fun k => by unfold getTile; rw [htw], fun k tile _ he => nomatch he⟩
    | some t =>
      cases hn : dCnt x.d with
      | none => exact ⟨z, hback, hf1, hf2, hf3, hf4, hsw, fun k => by unfold getTile; rw [htw], fun k tile he => nomatch he⟩
      | some n =>
        simp only
        have htlt : t < 144 := by
          unfold dstTile at ht
          split at ht
          · unfold physOf at ht
            split at ht
            · split at ht
              · rename_i hcond
                simp only [Bool.and_eq_true, decide_eq_true_eq] at hcond
                obtain rfl := Option.some.inj ht
                exact hcond.1.1
              · exact nomatch ht
            · exact nomatch ht
          · exact nomatch ht
        obtain ⟨a, ha⟩ : ∃ a, a = acArrive w t n := exists_eq
        have haq : allQuiet a = true := by
          have hstr : a.strands = u.strands := by
            rw [ha, ← hsw]
            rfl
          unfold allQuiet at hquiet ⊢
          refine List.all_eq_true.2 fun k hk => ?_
          rw [tileQuiet_of_strands hstr]
          exact List.all_eq_true.1 hquiet k hk
        rw [← ha, retryTile_allQuiet htlt haq, ha]
        refine ⟨z, ⟨hback.cached, hback.xfers⟩, hf1, hf2, hf3, hf4, hsw, fun k => ?_, fun k tile hk htile _ => ?_⟩
        · have hkeep : (getTile (acArrive w t n) k).mem = (getTile w k).mem := by
            change (getTile (setTile w t _) k).mem = _
            rw [getTile_setTile]
            split
            · rename_i hkt
              rw [hkt]
            · rfl
          rw [hkeep]
          unfold getTile
          rw [htw]
        · obtain rfl := Option.some.inj hk
          obtain rfl := Option.some.inj htile
          have hget : acGet w t n = acGet u t n := by
            unfold acGet getTile
            rw [htw]
          exact (acGet_acSet_same w t n _).trans (by rw [hget]; rfl)

theorem elementClause {x : Xfer} {ch mb tile : Nat} (hat : QueueAt s.chip q c [x]) (hstage : x.stage = .running) (hnext : x.next < dCount x.d)
    (hspots : x.spots = []) (hcodes : x.codes = []) (h1 : dType x.d = 1) (hr : dRefmt x.d = 0) (hf1 : dFlag x.d 1 = false)
    (hf2 : dFlag x.d 2 = false) (hsrc : copySrc x.d x.next / 2 ^ 48 = 0) (hdst : copyDst x.d x.next / 2 ^ 60 = 1)
    (hal : copyDst x.d x.next % 8 = 0) (hsize : dESize x.d % 8 = 0)
    (hsound : burstSound s.chip (cPart c) (cFunc c) (copySrc x.d x.next) (dESize x.d) ch mb = true)
    (hside : tileSide s.chip (cPart c) (copyDst x.d x.next) (dESize x.d) = (tile, 0)) (hquiet : allQuiet s.chip = true)
    (hradio : cRadio c = true) (hpower : s.chip.boot.undervolt = false) :
    ∃ t, exec (.dmaReadReturn q x.slot .good) s = .next t ∧ banksKept s t tile (copyDst x.d x.next % 2 ^ 22) (dESize x.d) ∧
      bankBytes t tile (copyDst x.d x.next % 2 ^ 22) (dESize x.d) = mread s.chip.mem.dram (mbKey ch mb) (dESize x.d) ∧
      t.chip.strands = s.chip.strands ∧ (∀ k, k ≠ tile → (getTile t.chip k).mem = (getTile s.chip k).mem) ∧
      (∃ y, xfersOf t.chip q = [y] ∧ y.next = x.next + 1 ∧ y.bytes = x.bytes + dESize x.d ∧ y.codes = [] ∧
        y.stage = if x.next + 1 < dCount x.d then .running else .readBack) ∧
      ∀ k, dCnt x.d = some k → dstTile s.chip c x.d = some tile → x.next + 1 = dCount x.d →
        acGet t.chip tile k = max (-2147483648) (min 2147483647 (acGet s.chip tile k - 1)) := by
  have hlin : isStream x.d = false := by unfold isStream; rw [h1]; rfl
  obtain ⟨bs, hbs⟩ : ∃ bs, bs = mread s.chip.mem.dram (mbKey ch mb) (dESize x.d) := exists_eq
  have hlen : bs.length = dESize x.d := by rw [hbs, mread_length]
  obtain ⟨v, w, spots, hv, hw, hgo⟩ := dmaElement_copy hat h1 hr hf1 hf2 hspots hsrc hdst hradio hsound hside
  rw [← hbs] at hw ⊢
  have hexec : exec (.dmaReadReturn q x.slot .good) s = .next { s with chip := dmaElement s.chip q x .good } :=
    onChip_next (f := cmdDmaReadReturn q x.slot .good) (by
      have hasked : paneAsked s.chip c q x = true := by
        unfold paneAsked
        rw [hlin]
        rfl
      simp only [cmdDmaReadReturn, findXfer_only hat, hat.peek, hstage, hasked, outShut, hpower, bne_self_eq_false, Bool.not_true, Bool.false_and,
        Bool.or_self, Bool.false_or, decide_eq_true_eq]
      rw [if_neg (by omega)])
  obtain ⟨hstore, ⟨hothers, hval, -⟩, hac⟩ := storeMarked_words v (t := tile) (a := copyDst x.d x.next % 2 ^ 22) bs (by omega) (by omega)
  change onlyTile tile v (storeMarked v tile (copyDst x.d x.next % 2 ^ 22) (clean bs)) at hstore
  change ∀ b, _ → mget (getTile (storeMarked v tile (copyDst x.d x.next % 2 ^ 22) (clean bs)) tile).mem b = _ at hothers
  change leNat (mread (getTile (storeMarked v tile (copyDst x.d x.next % 2 ^ 22) (clean bs)) tile).mem _ _) = _ at hval
  change (getTile (storeMarked v tile (copyDst x.d x.next % 2 ^ 22) (clean bs)) tile).ac = _ at hac
  generalize storeMarked v tile (copyDst x.d x.next % 2 ^ 22) (clean bs) = m at *
  have hvs : ∀ k, getTile v k = getTile s.chip k := fun k => by rw [hv]; rfl
  have hwm : (∀ k, getTile w k = getTile m k) ∧ w.strands = m.strands ∧ w.qm = m.qm ∧ dstTile w c x.d = dstTile m c x.d := by
    rw [hw]
    exact ⟨fun _ => rfl, rfl, rfl, rfl⟩
  obtain ⟨hwt, hwst, hwq, hwd⟩ := hwm
  have hms : m.strands = s.chip.strands ∧ m.qm = s.chip.qm ∧ dstTile m c x.d = dstTile s.chip c x.d := by
    rw [hstore.1, hv]
    exact ⟨rfl, rfl, rfl⟩
  obtain ⟨hmst, hmq, hmd⟩ := hms
  have hwq' : QueueAt w q c [x] := hat.of_qm (hwq.trans hmq)
  have hwquiet : allQuiet w = true := by
    unfold allQuiet at hquiet ⊢
    refine List.all_eq_true.2 fun k hk => ?_
    rw [tileQuiet_of_strands (hwst.trans hmst)]
    exact List.all_eq_true.1 hquiet k hk
  obtain ⟨z, hz, hz1, hz2, hz3, hz4, hzs, hzt, hzc⟩ := advanceX_copy (y := { x with
    next := x.next + 1, bytes := x.bytes + dESize x.d, spots := spots }) hwq' rfl rfl hlin hstage hwquiet
  rw [hgo] at hexec
  generalize advanceX w q c { x with next := x.next + 1, bytes := x.bytes + dESize x.d, spots := spots } = r at *
  refine ⟨_, hexec, fun a ha => ?_, ?_, hzs.trans (hwst.trans hmst), fun k hk => ?_, ⟨z, hz.xfers, hz1, hz2, hz3.trans hcodes, hz4⟩,
    fun k hk hd he => ?_⟩
  · change mget (getTile r tile).mem a = _
    rw [hzt, hwt, hothers a (by omega), hvs]
  · change mread (getTile r tile).mem _ _ = bs
    rw [hzt, hwt, ← hlen]
    exact eq_of_leNat_eq (by simp) hval
  · change (getTile r k).mem = _
    rw [hzt, hwt, hstore.2 k hk, hvs]
  · have := hzc k tile hk (hwd.trans (hmd.trans hd)) he
    change acGet r tile k = _
    rw [this]
    unfold acGet
    rw [hwt, hac, hvs]

end

theorem transfersRun : Clauses.TransfersRun := by
  unfold Clauses.TransfersRun
  intro s q c hlen hc
  refine ⟨fun hready hstop hq hsec hkind hstate hx => startClause hlen ⟨hc, hx⟩ rfl rfl hready hstop hq hsec hkind hstate, ?_⟩
  intro x ch mb tile _ hx h1 h2 h3 h4 h5 h6 h7 h8 n i a b h9 h10 h11 h12 h13 h14 h15 h16 h17
  exact elementClause ⟨hc, hx⟩ h1 h2 h3 h4 h5 h6 h7 h8 h9 h10 h11 h12 h13 h14 h15 h16 h17

-- A pane of a stream is whole (R161, R369, R370).

/-- A last pane's counter goes down by one in its tile, where no strand waits (R370). -/
theorem xArrive_spec {s : Chip} {c d : List Byte} {t : Nat} (ht : dstTile s c d = some t) (hquiet : tileQuiet s t = true) :
    (xArrive s c d).strands = s.strands ∧ (xArrive s c d).qm = s.qm ∧ (getTile (xArrive s c d) t).mem = (getTile s t).mem ∧
      (getTile (xArrive s c d) t).streams = (getTile s t).streams ∧
      ∀ n, dCnt d = some n → acGet (xArrive s c d) t n = max (-2147483648) (min 2147483647 (acGet s t n - 1)) := by
  unfold xArrive
  rw [ht]
  cases hn : dCnt d with
  | none => exact ⟨rfl, rfl, rfl, rfl, fun _ h => nomatch h⟩
  | some n =>
    have hq : tileQuiet (acArrive s t n) t = true := hquiet
    simp only [retryTile_quiet hq]
    have hkeep : getTile (acArrive s t n) t = { getTile s t with ac := (getTile (acArrive s t n) t).ac } := by
      unfold acArrive acAdd acSet modTile
      rw [getTile_setTile, if_pos rfl]
    refine ⟨rfl, rfl, by rw [hkeep], by rw [hkeep], fun m hm => ?_⟩
    obtain rfl := Option.some.inj hm
    exact acGet_acSet_same s t n _

theorem panesArrive : Clauses.PanesArrive := by
  unfold Clauses.PanesArrive
  intro s tile k x ht hk y hx hstream hrun hpane hdst hon hwhole hpanes hquiet
  obtain ⟨z, hz⟩ : ∃ z : Stream, z = { y with whole := y.whole + 1, on := !(y.whole + 1 == y.panes) } := exists_eq
  obtain ⟨u, hu⟩ : ∃ u, u = modTile s.chip tile (fun w => { w with streams := tset (fun _ => ({} : Stream)) k z w.streams }) := exists_eq
  have husame : u.strands = s.chip.strands ∧ u.qm = s.chip.qm ∧ dstTile u (ctxPeek s.chip y.queue) x.d = some tile ∧
      ctxPeek u y.queue = ctxPeek s.chip y.queue ∧ acGet u tile = acGet s.chip tile ∧ (getTile u tile).mem = (getTile s.chip tile).mem ∧
      tget (fun _ => ({} : Stream)) (getTile u tile).streams k = z := by
    rw [hu]
    refine ⟨rfl, rfl, hdst, rfl, ?_, ?_, ?_⟩
    · unfold acGet
      rw [getTile_modTile_same]
    · rw [getTile_modTile_same]
    · rw [getTile_modTile_same]
      exact tget_tset_same (fun _ => ({} : Stream)) k z _
  obtain ⟨hus, huq, hud, huc, hua, hum, huz⟩ := husame
  obtain ⟨v, hv⟩ : ∃ v, v = if y.whole + 1 == y.panes then
      xArrive (modXfer u y.queue x.slot (fun w => { w with stage := .readBack })) (ctxPeek u y.queue) x.d else u := exists_eq
  have huquiet : tileQuiet u tile = true := (tileQuiet_of_strands hus tile).trans hquiet
  have hvspec : v.strands = s.chip.strands ∧ (getTile v tile).mem = (getTile s.chip tile).mem ∧
      tget (fun _ => ({} : Stream)) (getTile v tile).streams k = z ∧
      (y.whole + 1 = y.panes → ∀ n, dCnt x.d = some n → acGet v tile n = max (-2147483648) (min 2147483647 (acGet s.chip tile n - 1))) ∧
      (xfersOf v y.queue).map (·.stage) = [if y.whole + 1 = y.panes then .readBack else .running] := by
    have hux : xfersOf u y.queue = [x] := by
      unfold xfersOf at hx ⊢
      rw [huq]
      exact hx
    by_cases hdone : y.whole + 1 = y.panes
    · obtain ⟨w, hw⟩ : ∃ w, w = modXfer u y.queue x.slot (fun w => { w with stage := .readBack }) := exists_eq
      have hwsame : w.strands = u.strands ∧ dstTile w (ctxPeek s.chip y.queue) x.d = some tile ∧ getTile w tile = getTile u tile ∧
          xfersOf w y.queue = [{ x with stage := .readBack }] := by
        rw [hw]
        refine ⟨rfl, hud, rfl, ?_⟩
        unfold modXfer
        rw [hux, map_head (by simp)]
        exact tget_tset_same (fun _ => ([] : List Xfer)) y.queue [{ x with stage := .readBack }] u.qm.xfers
      obtain ⟨hws, hwd, hwt, hwx⟩ := hwsame
      rw [if_pos (by simpa using hdone), huc, ← hw] at hv
      obtain ⟨h1, h2, h3, h4, h5⟩ := xArrive_spec hwd ((tileQuiet_of_strands hws tile).trans huquiet)
      rw [← hv] at h1 h2 h3 h4 h5
      refine ⟨h1.trans (hws.trans hus), h3.trans (by rw [hwt, hum]), by rw [h4, hwt, huz], fun _ n hn => ?_, ?_⟩
      · rw [h5 n hn]
        unfold acGet at hua ⊢
        rw [hwt]
        exact congrArg (fun f : Nat → Int => max (-2147483648) (min 2147483647 (f n - 1))) hua
      · unfold xfersOf at hwx ⊢
        rw [h2, hwx, if_pos hdone]
        rfl
    · rw [if_neg (by simpa using hdone)] at hv
      rw [hv]
      refine ⟨hus, hum, huz, fun h => absurd h hdone, ?_⟩
      rw [hux, if_neg hdone, List.map_singleton, hrun]
  obtain ⟨hvs, hvm, hvz, hva, hvx⟩ := hvspec
  have hexec : exec (.paneArrival tile k) s = .next { s with chip := v } :=
    onChip_next (f := cmdPaneArrival tile k) (by
      unfold cmdPaneArrival
      rw [if_pos ⟨ht, hk⟩]
      have hfind : (xfersOf s.chip y.queue).find? (fun x => isStream x.d && x.stage == .running && paneNo x.d == k &&
          dstTile s.chip (ctxPeek s.chip y.queue) x.d == some tile) = some x := by
        rw [hx]
        exact List.find?_cons_of_pos (by simp [hstream, hrun, hpane, hdst])
      have hguard : (!y.on || decide (x.next < (y.whole + 1) * (paneBytes x.d / 64)) || decide (y.panes ≤ y.whole)) = false := by
        simp only [hon, Bool.not_true, Bool.false_or, Bool.or_eq_false_iff, decide_eq_false_iff_not]
        omega
      refine congrArg Host.Outcome.next ?_
      change (match (xfersOf s.chip y.queue).find? (fun x => isStream x.d && x.stage == .running && paneNo x.d == k &&
          dstTile s.chip (ctxPeek s.chip y.queue) x.d == some tile) with | none => _ | some x => _) = _
      rw [hfind]
      change (if (!y.on || decide (x.next < (y.whole + 1) * (paneBytes x.d / 64)) || decide (y.panes ≤ y.whole)) then _ else _) = _
      rw [hguard, if_neg (by simp)]
      change retryTile (if y.whole + 1 == y.panes then _ else _) tile = _
      rw [← hz, ← hu, ← hv]
      exact retryTile_quiet ((tileQuiet_of_strands hvs tile).trans hquiet))
  refine ⟨_, hexec, fun a _ => by rw [hvm], hvs, ?_, hva, hvx⟩
  have hon' : (!(y.whole + 1 == y.panes)) = decide (y.whole + 1 ≠ y.panes) := by
    rw [Bool.eq_iff_iff]
    simp
  rw [hvz, hz, hon']

/-- Settles O36: a descriptor that starts runs alone on its queue's engine, an element of a copy is one sound read and one whole write, and
the counters go down with the last element or the last pane. -/
theorem transfersRunAndPanesArrive : Obligations.TransfersRunAndPanesArrive := ⟨transfersRun, panesArrive⟩

end Sys2Proof.Proofs
end

section
/-! SUPPORT. Plans and the radio's controls (O38). -/

namespace Sys2Proof.Proofs

open Sys2Proof.Machine

/-- The radio keeps its plans and its state, and PLAN_STATUS stays as it was. -/
structure PlanKept (s u : Chip) : Prop where
  radio : u.radio = { s.radio with claims := u.radio.claims, joining := u.radio.joining }
  status : barGet u aPLAN_STATUS = barGet s aPLAN_STATUS

theorem PlanKept.refl (s : Chip) : PlanKept s s := ⟨rfl, rfl⟩

theorem PlanKept.trans {s u v : Chip} (h : PlanKept s u) (g : PlanKept u v) : PlanKept s v :=
  ⟨g.radio.trans (by rw [h.radio]), g.status.trans h.status⟩

theorem PlanKept.of_same {s u : Chip} (hr : u.radio = s.radio) (hb : u.bar = s.bar) : PlanKept s u :=
  ⟨by rw [hr], by unfold barGet; rw [hb]⟩

theorem PlanKept.of_onlyBar {ks : List Nat} {s u : Chip} (h : onlyBar ks s u) (hk : aPLAN_STATUS ∉ ks) : PlanKept s u :=
  ⟨by rw [h.1], h.2 _ hk⟩

theorem PlanKept.of_memOnly {s u : Chip} (h : memOnly s u) : PlanKept s u :=
  ⟨by rw [h.1], h.2 _ (by decide)⟩

theorem PlanKept.ite {p : Prop} [Decidable p] {s u v : Chip} (h : PlanKept s u) (g : PlanKept s v) : PlanKept s (if p then u else v) := by
  split
  · exact h
  · exact g

theorem PlanKept.forEach {α : Type} {f : Chip → α → Chip} {l : List α} (h : ∀ j ∈ l, ∀ u, PlanKept u (f u j)) (s : Chip) :
    PlanKept s (forEach l f s) :=
  forEach_keeps PlanKept.refl (fun _ _ _ => PlanKept.trans) h s

theorem planKept_devReadChecked (s : Chip) (fn a n : Nat) : PlanKept s (devReadChecked s 0 fn a n).1 := by
  by_cases h : devCheck s 0 fn a n = 0
  · rw [devReadChecked_ok h]
    exact .of_memOnly (memOnly_devReadGo ..)
  · rw [devReadChecked_bad h]
    exact .of_onlyBar (ks := [aPART_STATUS 0]) (onlyBar_ite (onlyBar_fset _ _ _ _ (by simp)) (onlyBar_refl _ _)) (by decide)

theorem planKept_ctxEvict {s u : Chip} (h : ctxEvict s = some u) : PlanKept s u := by
  unfold ctxEvict at h
  split at h
  · obtain rfl := Option.some.inj h
    exact .refl _
  · split at h
    · exact nomatch h
    · obtain rfl := Option.some.inj h
      rename_i q _
      have hw : PlanKept s (devWriteRaw s 16 (ctxAddr s q) (clean (ctxPeek s q))).1 := .of_memOnly (memOnly_devWriteGo ..)
      exact hw.trans ⟨rfl, rfl⟩

theorem planKept_ctxLoad {s : Chip} {q : Nat} {r : Chip × List Byte} (h : ctxLoad s q = some r) : PlanKept s r.1 := by
  unfold ctxLoad at h
  split at h
  · obtain rfl := Option.some.inj h
    exact ⟨rfl, rfl⟩
  · have hmiss : PlanKept s (fsat s aQM_CACHE 31 0 1) :=
      .of_onlyBar (ks := [aQM_CACHE]) (onlyBar_fsat _ _ _ _ (by simp)) (by decide)
    split at h
    · exact nomatch h
    · next u hu =>
      obtain rfl := Option.some.inj h
      have hread : PlanKept u (devRead u 16 (ctxAddr u q) 64).1 := .of_memOnly (memOnly_devReadGo ..)
      exact ((hmiss.trans (planKept_ctxEvict hu)).trans hread).trans ⟨rfl, rfl⟩

theorem planKept_pinRadio (s : Chip) : PlanKept s (pinRadio s) := by
  have hpins : PlanKept s (qmMod s (fun m => { m with radioPins := radioQueues s })) := ⟨rfl, rfl⟩
  refine hpins.trans (.forEach (fun q _ u => ?_) _)
  unfold onQueue
  cases h : ctxLoad u q with
  | none => exact .refl _
  | some r => exact planKept_ctxLoad h

theorem planKept_claimGroups (s : Chip) (p : Plan) : PlanKept s (claimGroups s p) := by
  refine .forEach (fun g _ u => ?_) s
  simp only
  split <;> exact ⟨rfl, rfl⟩

/-- What is done before a plan is in use (R425, R426). -/
theorem planKept_tables (s : Chip) (p : Plan) (l : List Nat) (e : Chip → Nat) (g : Chip → Nat → Nat) :
    PlanKept s (forEach l (fun st j => fset st (aTILE_GOV (g st j)) 15 8 125)
      (fset (pinRadio (claimGroups s p)) aANVIL_ELASTIC 35 0 (e (pinRadio (claimGroups s p))))) := by
  refine (((planKept_claimGroups s p).trans (planKept_pinRadio _)).trans ?_).trans (.forEach (fun j _ u => ?_) _)
  · exact .of_onlyBar (ks := [aANVIL_ELASTIC]) (onlyBar_fset _ _ _ _ (by simp)) (by decide)
  · refine .of_onlyBar (ks := [aTILE_GOV (g u j)]) (onlyBar_fset _ _ _ _ (by simp)) ?_
    simp only [List.mem_singleton, aTILE_GOV, aPLAN_STATUS]
    omega

theorem planKept_closeSet (s : Chip) (c : Nat) : PlanKept s (closeSet s 0 c) := by
  obtain ⟨u, hu⟩ : ∃ u, u = (if fbit s (aCTR_STATUS 0) 1 then fsat s (aCTR_STATUS 0) 31 16 1 else s) := exists_eq
  have hc : PlanKept s u := hu ▸ .ite (.of_onlyBar (ks := [aCTR_STATUS 0]) (onlyBar_fsat _ _ _ _ (by simp)) (by decide)) (.refl s)
  simp only [closeSet, ← hu]
  generalize List.foldl _ (tclear _ _ s.ctrClosed) _ = a
  generalize tclear _ _ s.ctrLive = b
  obtain ⟨v, hv⟩ : ∃ v, v = { u with ctrClosed := a, ctrLive := b } := exists_eq
  have hclosed : PlanKept u v := hv ▸ ⟨rfl, rfl⟩
  rw [← hv]
  refine (hc.trans hclosed).trans (.of_onlyBar (ks := [aCTR_STATUS 0, aCTR_CLOSE_TIME 0]) ?_ (by decide))
  exact onlyBar_trans (onlyBar_trans (onlyBar_trans (onlyBar_trans (onlyBar_fset _ _ _ _ (by simp)) (onlyBar_fset _ _ _ _ (by simp)))
    (onlyBar_fsetb _ _ _ (by simp))) (onlyBar_fsetb _ _ _ (by simp))) (onlyBar_barSet _ _ (by simp))

theorem planKept_setFloor (s : Chip) : PlanKept s (setFloor s) := by
  have hfree : PlanKept s (freeBelow s 1201).2 := ⟨rfl, rfl⟩
  exact hfree.trans (.of_onlyBar (ks := [aPWR_LIMIT]) (onlyBar_fset _ _ _ _ (by simp)) (by decide))

/-- A plan in use (R425). -/
theorem usePlan_spec (s : Chip) (p : Plan) : (usePlan s p).radio.plan = some p ∧ (usePlan s p).radio.nextPlan = none ∧
    (usePlan s p).radio.proving = s.radio.proving ∧ barGet (usePlan s p) aPLAN_STATUS = barGet s aPLAN_STATUS := by
  refine ⟨rfl, rfl, rfl, ?_⟩
  exact barGet_fset_other _ _ _ _ (by decide : aPLAN_STATUS ≠ aSTRIKE_STATUS)

theorem acceptPlan_spec {s : Chip} (p : Plan) (h : s.radio.running = false) : (acceptPlan s p).radio.plan = some p ∧
    (acceptPlan s p).radio.nextPlan = none ∧ (acceptPlan s p).radio.proving = s.radio.proving ∧
    barGet (acceptPlan s p) aPLAN_STATUS = barGet s aPLAN_STATUS := by
  have ht := planKept_tables s p (List.range (hardTop p)) (fun st => elasticGroups st p) placed
  unfold acceptPlan
  rw [h]
  simp only [Bool.false_and, Bool.false_eq_true, if_false]
  generalize forEach (List.range (hardTop p)) (fun st j => fset st (aTILE_GOV (placed st j)) 15 8 125) _ = u at ht ⊢
  obtain ⟨h1, h2, h3, h4⟩ := usePlan_spec u p
  have hk := (planKept_setFloor (usePlan u p)).trans (planKept_closeSet _ 3)
  refine ⟨?_, ?_, ?_, hk.status.trans (h4.trans ht.status)⟩
  · rw [hk.radio]
    exact h1
  · rw [hk.radio]
    exact h2
  · rw [hk.radio]
    exact h3.trans (by rw [ht.radio])

/-- What PLAN_STATUS and RADIO_ERR show of the end of a proof (R423). -/
theorem planResult_spec (s : Chip) {code : Nat} (f : Fit) (h : code < 2 ^ 16) : (planResult s code f).radio = s.radio ∧
    fbit (planResult s code f) aPLAN_STATUS 0 = fbit s aPLAN_STATUS 0 ∧ fget (planResult s code f) aPLAN_STATUS 63 48 = code ∧
    fget (planResult s code f) aPLAN_STATUS 31 28 = f.kind % 16 ∧ (code ≠ 0 → fget (planResult s code f) aRADIO_ERR 63 48 = code) := by
  obtain ⟨u, hu⟩ : ∃ u, u = fset (fset (fset (fset s aPLAN_STATUS 63 48 code) aPLAN_STATUS 47 32 f.strike) aPLAN_STATUS 31 28 f.kind)
    aPLAN_STATUS 27 12 (min f.index 0xFFFF) := exists_eq
  have hbit : fbit u aPLAN_STATUS 0 = fbit s aPLAN_STATUS 0 := by
    unfold fbit
    rw [hu, fget_fset_field _ _ _ _ _ _ _ (by omega) (by omega) (by omega) (by omega),
      fget_fset_field _ _ _ _ _ _ _ (by omega) (by omega) (by omega) (by omega),
      fget_fset_field _ _ _ _ _ _ _ (by omega) (by omega) (by omega) (by omega),
      fget_fset_field _ _ _ _ _ _ _ (by omega) (by omega) (by omega) (by omega)]
  have hcode : fget u aPLAN_STATUS 63 48 = code := by
    rw [hu, fget_fset_field _ _ _ _ _ _ _ (by omega) (by omega) (by omega) (by omega),
      fget_fset_field _ _ _ _ _ _ _ (by omega) (by omega) (by omega) (by omega),
      fget_fset_field _ _ _ _ _ _ _ (by omega) (by omega) (by omega) (by omega), fget_fset_same _ _ _ _ _ (by omega) (by omega)]
    exact Nat.mod_eq_of_lt h
  have hkind : fget u aPLAN_STATUS 31 28 = f.kind % 16 := by
    rw [hu, fget_fset_field _ _ _ _ _ _ _ (by omega) (by omega) (by omega) (by omega), fget_fset_same _ _ _ _ _ (by omega) (by omega)]
    rfl
  have hub : onlyBar [aPLAN_STATUS] s u := hu ▸ onlyBar_trans (onlyBar_trans (onlyBar_trans (onlyBar_fset _ _ _ _ (by simp))
    (onlyBar_fset _ _ _ _ (by simp))) (onlyBar_fset _ _ _ _ (by simp))) (onlyBar_fset _ _ _ _ (by simp))
  obtain ⟨v, hv⟩ : ∃ v, v = if code == 0 then u else radioCode u code := exists_eq
  have hvb : onlyBar [aRADIO_ERR] u v := hv ▸ onlyBar_ite (onlyBar_refl _ _) (onlyBar_fset _ _ _ _ (by simp))
  have hres : planResult s code f = showRadio v := by
    unfold planResult
    simp only [← hu, ← hv]
  have hshow : onlyBar [aSTRIKE_STATUS] v (showRadio v) :=
    onlyBar_trans (onlyBar_trans (onlyBar_trans (onlyBar_fset _ _ _ _ (by simp)) (onlyBar_fset _ _ _ _ (by simp)))
      (onlyBar_fsetb _ _ _ (by simp))) (onlyBar_fsetb _ _ _ (by simp))
  have hbar : barGet (showRadio v) aPLAN_STATUS = barGet u aPLAN_STATUS := (hshow.2 _ (by decide)).trans (hvb.2 _ (by decide))
  rw [hres]
  refine ⟨?_, (fbit_of_barGet hbar 0).trans hbit, (fget_of_barGet hbar ..).trans hcode, (fget_of_barGet hbar ..).trans hkind, fun hne => ?_⟩
  · rw [hshow.1]
    change v.radio = _
    rw [hvb.1]
    change u.radio = _
    rw [hub.1]
  · rw [fget_of_onlyBar hshow (by decide), hv, if_neg (by simpa using hne)]
    exact (fget_fset_same _ _ _ _ _ (by omega) (by omega)).trans (Nat.mod_eq_of_lt h)

end Sys2Proof.Proofs
end

section
/-! Plans are loaded and proved, and the radio's controls (O38). -/

namespace Sys2Proof.Proofs

open Sys2Proof.Machine

-- A plan is loaded (R423).

theorem onlyBar_showRadio (s : Chip) : onlyBar [aSTRIKE_STATUS] s (showRadio s) :=
  onlyBar_trans (onlyBar_trans (onlyBar_trans (onlyBar_fset _ _ _ _ (by simp)) (onlyBar_fset _ _ _ _ (by simp)))
    (onlyBar_fsetb _ _ _ (by simp))) (onlyBar_fsetb _ _ _ (by simp))

theorem planLoadKept {s : State} {data : Word} (h : bitOf data.toNat 0 = false ∨ s.chip.radio.proving ≠ none) :
    ∃ t, exec (.planLoad data) s = .next t ∧ regsOnly [aPLAN_BASE] s t ∧ fget t.chip aPLAN_BASE 47 12 = bitsOf data.toNat 47 12 := by
  have hexec : exec (.planLoad data) s = .next { s with chip := fset s.chip aPLAN_BASE 47 12 (bitsOf data.toNat 47 12) } :=
    onChip_next (f := cmdPlanLoad data) (by
      have hcond : (!bitOf data.toNat 0 || s.chip.radio.proving.isSome) = true := by
        cases h with
        | inl h => rw [h]; rfl
        | inr h => rw [Option.isSome_iff_ne_none.2 h, Bool.or_true]
      unfold cmdPlanLoad
      simp only
      rw [if_pos]
      exact hcond)
  refine ⟨_, hexec, regsOnly_of_onlyBar (onlyBar_fset _ _ _ _ (by simp)), ?_⟩
  exact (fget_fset_same _ _ _ _ _ (by omega) (by omega)).trans (Nat.mod_eq_of_lt (bitsOf_lt ..))

theorem planLoadProves {s : State} {data : Word} (h : bitOf data.toNat 0 = true) (hidle : s.chip.radio.proving = none) :
    ∃ t, exec (.planLoad data) s = .next t ∧ fget t.chip aPLAN_BASE 47 12 = bitsOf data.toNat 47 12 ∧
      fbit t.chip aPLAN_STATUS 0 = true ∧ fget t.chip aSTRIKE_STATUS 11 8 = 4 ∧
      chipOnly [aPLAN_BASE, aPLAN_STATUS, aSTRIKE_STATUS] s t
        (fun c => { c with radio := { c.radio with proving := some (bitsOf data.toNat 47 12 * 4096) } }) := by
  obtain ⟨u, hu⟩ : ∃ u, u = fset s.chip aPLAN_BASE 47 12 (bitsOf data.toNat 47 12) := exists_eq
  obtain ⟨v, hv⟩ : ∃ v, v = fsetb u aPLAN_STATUS 0 true := exists_eq
  obtain ⟨w, hw⟩ : ∃ w, w = rdMod v (fun r => { r with proving := some (bitsOf data.toNat 47 12 * 4096) }) := exists_eq
  have hub : onlyBar [aPLAN_BASE] s.chip u := hu ▸ onlyBar_fset _ _ _ _ (by simp)
  have hvb : onlyBar [aPLAN_STATUS] u v := hv ▸ onlyBar_fsetb _ _ _ (by simp)
  have hwb : w.bar = v.bar := by rw [hw]; rfl
  have hshow := onlyBar_showRadio w
  have hexec : exec (.planLoad data) s = .next { s with chip := showRadio w } :=
    onChip_next (f := cmdPlanLoad data) (by
      have hsame : s.chip.radio = u.radio := by rw [hub.1]
      unfold cmdPlanLoad
      simp only [h, hidle, Option.isSome_none, Bool.not_true, Bool.or_self, Bool.false_eq_true, if_false]
      rw [← hu, ← hv, ← hw])
  have hbase : fget (showRadio w) aPLAN_BASE 47 12 = bitsOf data.toNat 47 12 := by
    rw [fget_of_onlyBar hshow (by decide), fget_of_bar hwb, fget_of_onlyBar hvb (by decide), hu]
    exact (fget_fset_same _ _ _ _ _ (by omega) (by omega)).trans (Nat.mod_eq_of_lt (bitsOf_lt ..))
  have hbusy : fbit (showRadio w) aPLAN_STATUS 0 = true := by
    rw [fbit_of_barGet (hshow.2 _ (by decide))]
    unfold fbit
    rw [fget_of_bar hwb, hv]
    exact fbit_fsetb_same _ _ _ _ (by omega)
  have hstate : fget (showRadio w) aSTRIKE_STATUS 11 8 = 4 := by
    have hp : w.radio.proving.isSome = true := by
      rw [hw]
      rfl
    simp only [showRadio, hp, if_true]
    rw [fget_fsetb _ _ _ _ _ _ (by omega) (by omega) (by omega), fget_fsetb _ _ _ _ _ _ (by omega) (by omega) (by omega),
      fget_fset_field _ _ _ _ _ _ _ (by omega) (by omega) (by omega) (by omega)]
    exact fget_fset_same _ _ _ _ _ (by omega) (by omega)
  refine ⟨_, hexec, hbase, hbusy, hstate, ?_⟩
  refine chipOnly_of_change (u := v) (fun _ _ => rfl) (onlyBar_trans (onlyBar_mono (by simp) hub) (onlyBar_mono (by simp) hvb)) ?_
  rw [hw] at hshow ⊢
  exact onlyBar_mono (by simp) hshow

-- A proof ends (R423, R425, R426).

theorem planProofIdle {s : State} (h : s.chip.radio.proving = none) : exec .planProofComplete s = .next s :=
  onChip_next (f := cmdPlanProofComplete) (by
    unfold cmdPlanProofComplete
    rw [h])

/-- How a proof ends over an image that is read, as the plan or its code. -/
def planEnd (s : Chip) (img : List Byte) : Option Plan × Nat → Chip
  | (none, code) => planResult s code ⟨0, 0, 0, 0⟩
  | (some p, _) =>
    match firstFit ((prove s p).toList ++ (replacementFails s p).toList) with
    | some f => planResult s 0x5003 f
    | none => planResult (extendM (acceptPlan s p) 4 ((img.drop 64).take 8 ++ List.replicate 24 0#8)) 0 ⟨0, 0, 0, 0⟩

section
variable {s : State} {a n : Nat} {u : Chip} {h r : Chip × List MByte × Nat}

/-- What the reads of a plan's image leave. -/
theorem planRead_kept (hu : u = fsetb (rdMod s.chip (fun r => { r with proving := none })) aPLAN_STATUS 0 false)
    (hh : h = devReadChecked u 0 64 a 128) (hr : r = devReadChecked h.1 0 64 a n) :
    r.1.radio.proving = none ∧ r.1.radio.plan = s.chip.radio.plan ∧ r.1.radio.running = s.chip.radio.running ∧ fbit r.1 aPLAN_STATUS 0 = false := by
  have hk : PlanKept u r.1 := by
    rw [hr]
    refine .trans ?_ (planKept_devReadChecked ..)
    rw [hh]
    exact planKept_devReadChecked ..
  have hur : u.radio = { s.chip.radio with proving := none } := by
    rw [hu, (onlyBar_fsetb (ks := [aPLAN_STATUS]) _ 0 false (by simp)).1]
    rfl
  rw [hk.radio, hur]
  refine ⟨rfl, rfl, rfl, (fbit_of_barGet hk.status 0).trans ?_⟩
  rw [hu]
  exact fbit_fsetb_same _ _ _ _ (by omega)

theorem planProof_exec (hp : s.chip.radio.proving = some a)
    (hu : u = fsetb (rdMod s.chip (fun r => { r with proving := none })) aPLAN_STATUS 0 false)
    (hh : h = devReadChecked u 0 64 a 128) (hn : n = bNat (unmark h.2.1) 60 4) (hr : r = devReadChecked h.1 0 64 a n)
    {whole : Bool} (hw : whole = (h.2.2 == 0 && decide (128 ≤ n) && decide (n ≤ 2 ^ 26) && r.2.2 == 0 && !r.2.1.any (·.2) && granted u 0 a n))
    {q : Option Plan × Nat} (hq : q = if whole then readPlan (unmark r.2.1) else (none, 0x5001)) {v : Chip}
    (hv : planEnd r.1 (unmark r.2.1) q = v) : exec .planProofComplete s = .next { s with chip := v } :=
  onChip_next (f := cmdPlanProofComplete) (by
    unfold cmdPlanProofComplete
    simp only [hp, ← hu, ← hh, ← hn, ← hr, ← hw, ← hq, ← hv]
    obtain ⟨o, code⟩ := q
    cases o with
    | none => rfl
    | some p => rfl)

end

/-- A proof ends with this code, and none runs. -/
def proofAnswers (s t : State) (code : Nat) : Prop := exec .planProofComplete s = .next t ∧ t.chip.radio.proving = none ∧
  fbit t.chip aPLAN_STATUS 0 = false ∧ fget t.chip aPLAN_STATUS 63 48 = code

/-- A proof that ends in `planResult` over a state in which it runs no more. -/
theorem proofAnswers_planResult {s : State} {u v : Chip} {code : Nat} {f : Fit} (hcode : code < 2 ^ 16) (hv : v = planResult u code f)
    (hexec : exec .planProofComplete s = .next { s with chip := v }) (hproving : u.radio.proving = none) (hbusy : fbit u aPLAN_STATUS 0 = false) :
    proofAnswers s { s with chip := v } code ∧ v.radio = u.radio ∧ fget v aPLAN_STATUS 31 28 = f.kind % 16 ∧
      (code ≠ 0 → fget v aRADIO_ERR 63 48 = code) := by
  obtain ⟨hrad, hbit, hcode, hkind, herr⟩ := planResult_spec u f hcode
  rw [← hv] at hrad hbit hcode hkind herr
  exact ⟨⟨hexec, (congrArg (·.proving) hrad).trans hproving, hbit.trans hbusy, hcode⟩, hrad, hkind, herr⟩

theorem radio_of_onlyBar {ks : List Nat} {s u : Chip} (h : onlyBar ks s u) : u.radio = s.radio := by rw [h.1]

theorem planEnd_none {s : Chip} {img : List Byte} {code : Nat} : planEnd s img (none, code) = planResult s code ⟨0, 0, 0, 0⟩ := rfl

theorem planEnd_unfit {s : Chip} {img : List Byte} {p : Plan} {n : Nat} {f : Fit} (hf : prove s p = some f) (hidle : s.radio.running = false) :
    planEnd s img (some p, n) = planResult s 0x5003 f := by
  have hrep : replacementFails s p = none := by
    unfold replacementFails
    rw [hidle]
    rfl
  simp only [planEnd, hf, hrep]
  rfl

theorem planEnd_fits {s : Chip} {img : List Byte} {p : Plan} {n : Nat} (hf : prove s p = none) (hidle : s.radio.running = false) :
    planEnd s img (some p, n) = planResult (extendM (acceptPlan s p) 4 ((img.drop 64).take 8 ++ List.replicate 24 0#8)) 0 ⟨0, 0, 0, 0⟩ := by
  have hrep : replacementFails s p = none := by
    unfold replacementFails
    rw [hidle]
    rfl
  simp only [planEnd, hf, hrep]
  rfl

theorem planProofEnds {s : State} {a : Nat} (hp : s.chip.radio.proving = some a) {u : Chip} {h r : Chip × List MByte × Nat} {n : Nat} {whole : Bool}
    (hu : u = fsetb (rdMod s.chip (fun r => { r with proving := none })) aPLAN_STATUS 0 false)
    (hh : h = devReadChecked u 0 64 a 128) (hn : n = bNat (unmark h.2.1) 60 4) (hr : r = devReadChecked h.1 0 64 a n)
    (hw : whole = (h.2.2 == 0 && decide (128 ≤ n) && decide (n ≤ 2 ^ 26) && r.2.2 == 0 && !r.2.1.any (·.2) && granted u 0 a n)) :
    (whole = false → ∃ t, proofAnswers s t 0x5001 ∧ fget t.chip aRADIO_ERR 63 48 = 0x5001 ∧ t.chip.radio.plan = s.chip.radio.plan) ∧
    ∀ p, whole = true → (readPlan (unmark r.2.1)).1 = some p → s.chip.radio.running = false →
      (∀ f, prove r.1 p = some f → ∃ t, proofAnswers s t 0x5003 ∧ fget t.chip aPLAN_STATUS 31 28 = f.kind % 16 ∧
        t.chip.radio.plan = s.chip.radio.plan ∧ fget t.chip aRADIO_ERR 63 48 = 0x5003) ∧
      (prove r.1 p = none → ∃ t, proofAnswers s t 0 ∧ t.chip.radio.plan = some p ∧ t.chip.radio.nextPlan = none) := by
  obtain ⟨hproving, hplan, hrunning, hbusy⟩ := planRead_kept hu hh hr
  have hexec := fun {q} => planProof_exec hp hu hh hn hr hw (q := q)
  refine ⟨fun hbad => ?_, fun p hgood hread hidle => ?_⟩
  · obtain ⟨v, hv⟩ : ∃ v, v = planResult r.1 0x5001 ⟨0, 0, 0, 0⟩ := exists_eq
    obtain ⟨hans, hrad, -, herr⟩ := proofAnswers_planResult (by omega) hv
      (hexec (q := (none, 0x5001)) (by rw [hbad, if_neg (by simp)]) (planEnd_none.trans hv.symm)) hproving hbusy
    exact ⟨_, hans, herr (by omega), (congrArg (·.plan) hrad).trans hplan⟩
  · have hq : (some p, (readPlan (unmark r.2.1)).2) = if whole then readPlan (unmark r.2.1) else (none, 0x5001) := by
      rw [hgood, if_pos rfl]
      exact (Prod.ext hread rfl : readPlan (unmark r.2.1) = (some p, (readPlan (unmark r.2.1)).2)).symm
    refine ⟨fun f hf => ?_, fun hf => ?_⟩
    · obtain ⟨v, hv⟩ : ∃ v, v = planResult r.1 0x5003 f := exists_eq
      obtain ⟨hans, hrad, hkind, herr⟩ := proofAnswers_planResult (by omega) hv
        (hexec hq ((planEnd_unfit hf (hrunning.trans hidle)).trans hv.symm)) hproving hbusy
      exact ⟨_, hans, hkind, (congrArg (·.plan) hrad).trans hplan, herr (by omega)⟩
    · obtain ⟨h1, h2, h3, h4⟩ := acceptPlan_spec p (hrunning.trans hidle)
      have hend := planEnd_fits (img := unmark r.2.1) (n := (readPlan (unmark r.2.1)).2) hf (hrunning.trans hidle)
      generalize acceptPlan r.1 p = u at *
      obtain ⟨w, hw⟩ : ∃ w, w = extendM u 4 (((unmark r.2.1).drop 64).take 8 ++ List.replicate 24 0#8) := exists_eq
      obtain ⟨v, hv⟩ : ∃ v, v = planResult w 0 ⟨0, 0, 0, 0⟩ := exists_eq
      have hext : onlyBar (measureKeys 4) u w := by
        rw [hw]
        exact onlyBar_extendM ..
      have hrw : w.radio = u.radio := radio_of_onlyBar hext
      have hapart : aPLAN_STATUS ∉ measureKeys 4 := by decide
      rw [← hw] at hend
      obtain ⟨hans, hrad, -, -⟩ := proofAnswers_planResult (by omega) hv (hexec hq (hend.trans hv.symm))
        ((congrArg (·.proving) hrw).trans (h3.trans hproving))
        ((fbit_of_barGet (hext.2 _ hapart) 0).trans ((fbit_of_barGet h4 0).trans hbusy))
      exact ⟨_, hans, (congrArg (·.plan) (hrad.trans hrw)).trans h1, (congrArg (·.nextPlan) (hrad.trans hrw)).trans h2⟩

theorem planReproofClause {s : State} {p : Plan} (hp : s.chip.radio.plan = some p) (h : s.chip.radio.reproving = true) :
    ∃ t, exec .planReproofComplete s = .next t ∧ chipOnly [] s t (fun c => { c with radio := { c.radio with
      reproving := false, toReduced := c.radio.toReduced || (reproofFails s.chip p).isSome
      rebind := if (reproofFails s.chip p).isSome then [] else c.radio.rebind } }) :=
  ⟨{ s with chip := rdMod s.chip (fun r => { r with
      reproving := false, toReduced := r.toReduced || (reproofFails s.chip p).isSome
      rebind := if (reproofFails s.chip p).isSome then [] else r.rebind }) }, onChip_next (f := cmdPlanReproofComplete) (by
    unfold cmdPlanReproofComplete
    simp only [hp, h, Bool.not_true, Bool.false_eq_true, if_false]), rfl, fun _ _ => rfl⟩

theorem plansAreProved : Clauses.PlansAreProved := by
  unfold Clauses.PlansAreProved
  exact fun s data => ⟨planLoadKept, planLoadProves, planProofIdle, fun _ hp => planProofEnds hp rfl rfl rfl rfl rfl, fun _ => planReproofClause⟩

-- Tier requests (R432, R433, R459).

/-- TIER_REQ as a write leaves it. -/
def tierStored (s : Chip) (v : Nat) : Chip := fset (fset s aTIER_REQ 63 56 (bitsOf v 63 56)) aTIER_REQ 31 0 (bitsOf v 31 0)

theorem onlyBar_tierStored (s : Chip) (v : Nat) : onlyBar [aTIER_REQ] s (tierStored s v) :=
  onlyBar_trans (onlyBar_fset _ _ _ _ (by simp)) (onlyBar_fset _ _ _ _ (by simp))

theorem tierStored_spec (s : Chip) (v : Nat) : fget (tierStored s v) aTIER_REQ 63 56 = bitsOf v 63 56 ∧
    fget (tierStored s v) aTIER_REQ 31 0 = bitsOf v 31 0 := by
  unfold tierStored
  rw [fget_fset_field _ _ _ _ _ _ _ (by omega) (by omega) (by omega) (by omega), fget_fset_same _ _ _ _ _ (by omega) (by omega),
    fget_fset_same _ _ _ _ _ (by omega) (by omega)]
  exact ⟨Nat.mod_eq_of_lt (bitsOf_lt ..), Nat.mod_eq_of_lt (bitsOf_lt ..)⟩

theorem tierCode_lt (s : Chip) (p : Plan) (target : Nat) (e : Int) : tierCode s p target e < 2 ^ 16 := by
  refine leastCode_lt (by omega) fun c hc => ?_
  simp only [List.mem_cons, List.not_mem_nil, or_false] at hc
  have hif : ∀ (b : Prop) [Decidable b] (v : Nat), v < 2 ^ 16 → (if b then v else 0) < 2 ^ 16 := fun b _ v hv => by split <;> omega
  rcases hc with h | h | h | h | h <;> rw [h] <;> exact hif _ _ (by omega)

theorem tierRefused {s : State} {data : Word} {code : Nat} (hcode : code < 2 ^ 16)
    (hexec : exec (.tierReq data) s = .next { s with chip := radioCode (tierStored s.chip data.toNat) code }) :
    ∃ t, exec (.tierReq data) s = .next t ∧ regsOnly [aTIER_REQ, aRADIO_ERR] s t ∧ fget t.chip aTIER_REQ 63 56 = bitsOf data.toNat 63 56 ∧
      fget t.chip aTIER_REQ 31 0 = bitsOf data.toNat 31 0 ∧ fget t.chip aRADIO_ERR 63 48 = code := by
  have hlog : onlyBar [aRADIO_ERR] (tierStored s.chip data.toNat) (radioCode (tierStored s.chip data.toNat) code) := onlyBar_fset _ _ _ _ (by simp)
  obtain ⟨h1, h2⟩ := tierStored_spec s.chip data.toNat
  refine ⟨_, hexec, regsOnly_of_onlyBar (onlyBar_trans (onlyBar_mono (by simp) (onlyBar_tierStored ..)) (onlyBar_mono (by simp) hlog)),
    (fget_of_onlyBar hlog (by decide) ..).trans h1, (fget_of_onlyBar hlog (by decide) ..).trans h2, ?_⟩
  exact (fget_fset_same _ _ _ _ _ (by omega) (by omega)).trans (Nat.mod_eq_of_lt hcode)

theorem fbit_showRadio (s : Chip) : fbit (showRadio s) aSTRIKE_STATUS 0 = s.radio.request.isSome := by
  unfold showRadio
  simp only [fbit]
  rw [fget_fsetb _ _ _ _ _ _ (by omega) (by omega) (by omega)]
  exact fbit_fsetb_same _ _ _ _ (by omega)

theorem tierTaken (s : Chip) (p : Plan) (target e : Nat) : ∃ q, (takeTier s p target e).radio.request = some q ∧ q.target = target ∧
    q.effective = e ∧ q.taken = false ∧ fbit (takeTier s p target e) aSTRIKE_STATUS 0 = true := by
  have hshow : ∀ u q, (showRadio (rdMod u (fun r => { r with request := some q }))).radio.request = some q ∧
      fbit (showRadio (rdMod u (fun r => { r with request := some q }))) aSTRIKE_STATUS 0 = true := fun u q =>
    ⟨by rw [(onlyBar_showRadio _).1]; rfl, by rw [fbit_showRadio]; rfl⟩
  unfold takeTier
  simp only
  exact ⟨_, (hshow ..).1, rfl, rfl, rfl, (hshow ..).2⟩

theorem tierClauses (s : State) (data : Word) :
    let v := data.toNat
    let s1 := tierStored s.chip v
    let e := strikeOf s1 (bitsOf v 31 0)
    let refused := fun (code : Nat) => ∃ t, exec (.tierReq data) s = .next t ∧ regsOnly [aTIER_REQ, aRADIO_ERR] s t ∧
      fget t.chip aTIER_REQ 63 56 = bitsOf v 63 56 ∧ fget t.chip aTIER_REQ 31 0 = bitsOf v 31 0 ∧
      fget t.chip aRADIO_ERR 63 48 = code
    (s.chip.radio.running = false → refused (if s.chip.radio.request.isSome then 0x5011 else 0x5012)) ∧
    ∀ p, s.chip.radio.plan = some p → s.chip.radio.running = true →
      (tierCode s1 p (bitsOf v 63 56) e ≠ 0 → refused (tierCode s1 p (bitsOf v 63 56) e)) ∧
      (tierCode s1 p (bitsOf v 63 56) e = 0 → ∃ t q, exec (.tierReq data) s = .next t ∧ t.chip.radio.request = some q ∧
        q.target = bitsOf v 63 56 ∧ (q.effective : Int) = max 0 e ∧ q.taken = false ∧ fbit t.chip aSTRIKE_STATUS 0 = true) := by
  intro v s1 e refused
  obtain ⟨u, hu⟩ : ∃ u, u = s1 := exists_eq
  have hrad : u.radio = s.chip.radio := by
    rw [hu]
    change (tierStored s.chip v).radio = _
    rw [(onlyBar_tierStored s.chip v).1]
  have hexec : ∀ {w}, (match u.radio.plan with
      | none => radioCode u (if u.radio.request.isSome then 0x5011 else 0x5012)
      | some p =>
        if !u.radio.running then radioCode u (if u.radio.request.isSome then 0x5011 else 0x5012)
        else if tierCode u p (bitsOf v 63 56) e != 0 then radioCode u (tierCode u p (bitsOf v 63 56) e)
        else takeTier u p (bitsOf v 63 56) e.toNat) = w → exec (.tierReq data) s = .next { s with chip := w } := fun h => by
    refine onChip_next (f := cmdTierReq data) (Eq.trans ?_ (congrArg Host.Outcome.next h))
    rw [hu]
    rfl
  rw [hrad] at hexec
  rw [← hu]
  refine ⟨fun hidle => tierRefused (by split <;> omega) (hexec ?_), fun p hp hrun => ⟨fun hne => tierRefused (tierCode_lt ..) (hexec ?_), fun h0 => ?_⟩⟩
  · rw [show tierStored s.chip data.toNat = u from hu.symm]
    cases s.chip.radio.plan with
    | none => rfl
    | some p => simp only [hidle, Bool.not_false, if_true]
  · rw [show tierStored s.chip data.toNat = u from hu.symm]
    simp only [hp, hrun, Bool.not_true, Bool.false_eq_true, if_false]
    rw [if_pos (by simpa using hne)]
  · obtain ⟨q, h1, h2, h3, h4, h5⟩ := tierTaken u p (bitsOf v 63 56) e.toNat
    refine ⟨_, q, hexec (w := takeTier u p (bitsOf v 63 56) e.toNat) ?_, h1, h2, by rw [h3]; omega, h4, h5⟩
    simp only [hp, hrun, h0, Bool.not_true, Bool.false_eq_true, if_false, bne_self_eq_false]

-- ENABLE (R457, R478).

theorem strikeDisable (s : State) : ∃ t, exec (.strikeEnable false) s = .next t ∧ regsOnly [aSTRIKE_CTL] s t ∧
    fbit t.chip aSTRIKE_CTL 0 = false ∧ fget t.chip aSTRIKE_CTL 63 1 = fget s.chip aSTRIKE_CTL 63 1 :=
  ⟨{ s with chip := fsetb s.chip aSTRIKE_CTL 0 false }, rfl, regsOnly_of_onlyBar (onlyBar_fsetb _ _ _ (by simp)), fbit_fsetb_same _ _ _ _ (by omega),
    fget_fsetb _ _ _ _ _ _ (by omega) (by omega) (by omega)⟩

/-- The first carrier whose lag does not fit. -/
def lagBad (s : Chip) (p : Plan) : Option Nat :=
  (List.range p.carriers.length).find? (fun i => ((p.carriers[i]?).map (fun c => !lagOk s c)).getD false)

theorem lagBad_isNone (s : Chip) (p : Plan) : (lagBad s p).isNone = p.carriers.all (lagOk s) := by
  rw [Bool.eq_iff_iff]
  unfold lagBad
  rw [Option.isNone_iff_eq_none, List.find?_eq_none, List.all_eq_true]
  constructor
  · intro h c hc
    obtain ⟨i, hi, rfl⟩ := List.mem_iff_getElem.1 hc
    simpa [List.getElem?_eq_getElem hi] using h i (List.mem_range.2 hi)
  · intro h i hi
    have hlt := List.mem_range.1 hi
    simpa [List.getElem?_eq_getElem hlt] using h _ (List.getElem_mem hlt)

/-- ENABLE over a plan, by the first carrier whose lag does not fit. -/
def enableOver (s : Chip) : Option Nat → Chip
  | some i => planResult s 0x5003 ⟨7, 0, 0, i⟩
  | none => fsetb (rdMod s (fun r => { r with flowed := false })) aSTRIKE_CTL 0 true

theorem exec_strikeEnable {s : State} {p : Plan} (hoff : fbit s.chip aSTRIKE_CTL 0 = false) (hp : s.chip.radio.plan = some p) :
    exec (.strikeEnable true) s = .next { s with chip := enableOver s.chip (lagBad s.chip p) } :=
  onChip_next (f := cmdStrikeEnable true) (by
    unfold cmdStrikeEnable strikeEnable
    simp only [Bool.not_true, Bool.false_eq_true, if_false, hp, hoff]
    rw [← lagBad]
    cases lagBad s.chip p <;> rfl)

theorem strikeEnableClause {s : State} {p : Plan} (hoff : fbit s.chip aSTRIKE_CTL 0 = false) (hp : s.chip.radio.plan = some p) :
    (p.carriers.all (lagOk s.chip) = true → ∃ t, exec (.strikeEnable true) s = .next t ∧ fbit t.chip aSTRIKE_CTL 0 = true ∧
      chipOnly [aSTRIKE_CTL] s t (fun c => { c with radio := { c.radio with flowed := false } })) ∧
    (p.carriers.all (lagOk s.chip) = false → ∃ t, exec (.strikeEnable true) s = .next t ∧ fbit t.chip aSTRIKE_CTL 0 = false ∧
      fget t.chip aPLAN_STATUS 63 48 = 0x5003 ∧ fget t.chip aPLAN_STATUS 31 28 = 7) := by
  have hexec := exec_strikeEnable hoff hp
  rw [← lagBad_isNone]
  cases hbad : lagBad s.chip p with
  | none =>
    rw [hbad] at hexec
    refine ⟨fun _ => ⟨_, hexec, ?_, ?_⟩, fun h => nomatch h⟩
    · exact fbit_fsetb_same _ aSTRIKE_CTL 0 true (by omega)
    · exact chipOnly_of_change (u := s.chip) (fun _ _ => rfl) (onlyBar_refl _ _) (onlyBar_fsetb _ _ _ (by simp))
  | some i =>
    obtain ⟨-, -, hcode, hkind, -⟩ := planResult_spec s.chip (code := 0x5003) ⟨7, 0, 0, i⟩ (by omega)
    have hkeep : onlyBar [aPLAN_STATUS, aRADIO_ERR, aSTRIKE_STATUS] s.chip (planResult s.chip 0x5003 ⟨7, 0, 0, i⟩) := by
      refine onlyBar_trans ?_ (onlyBar_mono (by simp) (onlyBar_showRadio _))
      refine onlyBar_trans ?_ (onlyBar_fset _ _ _ _ (by simp))
      exact onlyBar_trans (onlyBar_trans (onlyBar_trans (onlyBar_fset _ _ _ _ (by simp)) (onlyBar_fset _ _ _ _ (by simp)))
        (onlyBar_fset _ _ _ _ (by simp))) (onlyBar_fset _ _ _ _ (by simp))
    rw [hbad] at hexec
    have hend : fbit (planResult s.chip 0x5003 ⟨7, 0, 0, i⟩) aSTRIKE_CTL 0 = false := (fbit_of_barGet (hkeep.2 _ (by decide)) 0).trans hoff
    exact ⟨(fun h => nomatch h), fun _ => ⟨_, hexec, hend, hcode, hkind⟩⟩

-- UNMUTE (R446).

/-- The carriers of the ports named. -/
def carriersOf (s : Chip) (ports : Nat) : List Nat :=
  match s.radio.plan with
  | none => []
  | some p => (List.range p.carriers.length).filter (fun i => ((p.carriers[i]?).map (fun (c : Carrier) => ports.testBit c.port)).getD false)

/-- Exactly the bits that the second bitmap lacks stay. -/
theorem testBit_dropBelow_lt {k n : Nat} (hk : k < n) (x gs : Nat) : (dropBelow n x gs).testBit k = (x.testBit k && !gs.testBit k) := by
  induction n with
  | zero => omega
  | succ n ih =>
    have hlow := dropBelow_lt n x gs
    rw [dropBelow_succ]
    rcases Nat.lt_or_ge k n with hlt | hge
    · split
      · rw [Nat.add_comm, Nat.testBit_two_pow_add_gt hlt, ih hlt]
      · exact ih hlt
    · obtain rfl : k = n := by omega
      have hout : (dropBelow k x gs).testBit k = false := Nat.testBit_lt_two_pow hlow
      split
      · next hadd =>
        rw [Nat.add_comm, Nat.testBit_two_pow_add_eq, hout]
        simpa using hadd
      · next hadd =>
        rw [hout]
        cases hx : x.testBit k with
        | false => rfl
        | true => simpa [hx] using hadd

theorem mem_carriersOf {s : Chip} {ports i : Nat} {p : Plan} {c : Carrier} (hp : s.radio.plan = some p) (hc : p.carriers[i]? = some c) :
    i ∈ carriersOf s ports ↔ ports.testBit c.port = true := by
  obtain ⟨hlt, hget⟩ := List.getElem?_eq_some_iff.1 hc
  unfold carriersOf
  rw [hp]
  simp [hlt, hget]

theorem unmuteClause (s : State) (ports : Nat) : ∃ t, exec (.unmute ports) s = .next t ∧
    chipOnly [aRADIO_ERR] s t (fun c => { c with radio := { c.radio with muted := t.chip.radio.muted, maskRun := t.chip.radio.maskRun } }) ∧
    (∀ k, k < 8 → (fget t.chip aRADIO_ERR 15 8).testBit k = ((fget s.chip aRADIO_ERR 15 8).testBit k && !ports.testBit k)) ∧
    fget t.chip aRADIO_ERR 63 16 = fget s.chip aRADIO_ERR 63 16 ∧ fget t.chip aRADIO_ERR 7 0 = fget s.chip aRADIO_ERR 7 0 ∧
    ∀ p i k, s.chip.radio.plan = some p → p.carriers[i]? = some k →
      (i ∈ t.chip.radio.muted ↔ i ∈ s.chip.radio.muted ∧ ports.testBit k.port = false) := by
  obtain ⟨left, hleft⟩ : ∃ left, left = dropBelow 8 (fget s.chip aRADIO_ERR 15 8) ports := exists_eq
  obtain ⟨cs, hcs⟩ : ∃ cs, cs = carriersOf s.chip ports := exists_eq
  obtain ⟨u, hu⟩ : ∃ u, u = fset s.chip aRADIO_ERR 15 8 left := exists_eq
  have hub : onlyBar [aRADIO_ERR] s.chip u := hu ▸ onlyBar_fset _ _ _ _ (by simp)
  obtain ⟨v, hv⟩ : ∃ v, v = rdMod u (fun r => { r with
    muted := r.muted.filter (fun c => !cs.contains c), maskRun := r.maskRun.filter (fun x => !cs.contains x.1) }) := exists_eq
  have hvbar : v.bar = u.bar := by rw [hv]; rfl
  have hvmut : v.radio.muted = s.chip.radio.muted.filter (fun c => !cs.contains c) := by
    rw [hv]
    change u.radio.muted.filter _ = _
    rw [hub.1]
  have hexec : exec (.unmute ports) s = .next { s with chip := v } := by
    refine onChip_next (f := cmdUnmute ports) ?_
    rw [hv, hu, hleft, hcs]
    rfl
  have hbits : fget v aRADIO_ERR 15 8 = left := by
    rw [fget_of_bar hvbar, hu]
    refine (fget_fset_same _ _ _ _ _ (by omega) (by omega)).trans (Nat.mod_eq_of_lt ?_)
    rw [hleft]
    exact dropBelow_lt ..
  refine ⟨_, hexec, ?_, fun k hk => ?_, ?_, ?_, fun p i c hp hc => ?_⟩
  · refine ⟨?_, fun k hk => ?_⟩
    · refine congrArg (fun c => ({ s with chip := c } : State)) ?_
      rw [hv]
      rw [hub.1]
      rfl
    · refine Eq.trans ?_ (hub.2 k hk)
      unfold barGet
      rw [hvbar]
  · rw [hbits, hleft]
    exact testBit_dropBelow_lt hk ..
  · rw [fget_of_bar hvbar, hu]
    exact fget_fset_field _ _ _ _ _ _ _ (by omega) (by omega) (by omega) (by omega)
  · rw [fget_of_bar hvbar, hu]
    exact fget_fset_field _ _ _ _ _ _ _ (by omega) (by omega) (by omega) (by omega)
  · rw [hvmut, List.mem_filter]
    have := mem_carriersOf (ports := ports) hp hc
    rw [← hcs] at this
    simp [this]

theorem radioControls : Clauses.RadioControls := by
  unfold Clauses.RadioControls
  intro s data ports
  refine ⟨tierClauses s data, strikeDisable s, fun p => strikeEnableClause, unmuteClause s ports⟩

/-- Settles O38, clause by clause. -/
theorem plansAndRadioControls : Obligations.PlansAndRadioControls := ⟨plansAreProved, radioControls⟩

end Sys2Proof.Proofs
end

section
/-! SUPPORT. A contribution whose first packet waits (O24). -/

namespace Sys2Proof.Proofs

open Sys2Proof.Machine

/-- A strand of tile 0 whose s2, s3 and s4 describe a contribution of the record at 0x6000 to group 0. -/
def contributor : Strand := { s := [(2, BitVec.ofNat 64 (0x6000 * 2 ^ 22 + 0x7000)), (3, BitVec.ofNat 64 (0x8000 * 2 ^ 22 + 0x9000)),
  (4, BitVec.ofNat 64 (0xFFF * 2 ^ 48))] }

/-- Ranks 0 and 1 of job slot 0 are devices 10 and 11, and a request to device 10 already waits at the source (R574). An
empty record stands at 0x6000. -/
def crowded : State := { pending := [], chip := { ({} : Chip) with
  bar := [(aSEC_STATUS, 4#64), (aFJ_STATUS 0, 3#64), (aPWR_DOMAIN, BitVec.ofNat 64 (2 ^ 50 - 1)), (aTILE_CTL 0, BitVec.ofNat 64 (0xFF * 2 ^ 32)), (aTILE_STATUS 0, 5#64)]
  strands := [(skey 0 0, contributor)]
  tiles := [(0, { mem := [(0x6008, 1#8), (0x600C, 1#8), (0x600D, 1#8), (0x600E, 1#8)], fetch := [0] })]
  fab := { ({} : Fab) with
    jobs := [(0, { nchips := 2, devs := [(10, false), (11, false)], groups := [([0, 1], 0)] })]
    waiting := [{ mkReq ⟨0, 1, 0⟩ 1 0 [] 0 true with dest := 10, op := 7 }] } } }

def crowdedSite : Site := ⟨0, 0, 1, false, 0, true⟩

theorem issues_crowded : issues crowded.chip crowdedSite (.fred crowdedSite ⟨2, 4, 0⟩) = true := by decide +kernel

theorem readRec_crowded : (readRec crowded.chip 0 0x6000 0x7000).2.isSome = true := by decide +kernel

/-- The ranks of the contribution's packets, in the order in which they stand at the source. -/
def packetRanks : Outcome → List Nat
  | .next t => (opRequests crowded t 1).map (·.rank)
  | _ => [0, 1]

theorem packetRanks_crowded : packetRanks (exec (.fred crowdedSite ⟨2, 4, 0⟩) crowded) = [1, 0] := by decide +kernel

/-- Refutes O24: the packet to rank 0 joins the request that waits for its device while the packet to rank 1 is numbered at once
(R574), so a contribution's requests do not stand in the order of the members. -/
theorem not_fabricBulkRequests : ¬ Obligations.FabricBulkRequests := by
  intro h
  obtain ⟨r, hr⟩ := Option.isSome_iff_exists.1 readRec_crowded
  obtain ⟨-, -, -, hred⟩ := h crowded crowdedSite ⟨2, 4, 0⟩ rfl
  obtain ⟨t, hexec, -, -, -, hreqs⟩ := hred r issues_crowded hr
  have hranks := packetRanks_crowded
  rw [hexec] at hranks
  have horder := congrArg (List.map (fun p => p.2.1)) hreqs
  rw [List.map_map, List.map_map] at horder
  have hmembers : packetRanks (.next t) = [0, 1] := horder
  exact absurd (hranks.symm.trans hmembers) (by decide)

end Sys2Proof.Proofs
end

section
/-! SUPPORT. A load of a near rank that a granule serves (O23). -/

namespace Sys2Proof.Proofs

open Sys2Proof.Machine

/-- A strand of tile 0 whose s2 is an address of rank 1. -/
def loader : Strand := { s := [(2, BitVec.ofNat 64 (3 * 2 ^ 60 + 2 ^ 48 + 0x1000))] }

/-- Rank 1 of job slot 0 is the near device 11, and the strand holds a granule of it. -/
def nearGranule : State := { pending := [], chip := { ({} : Chip) with
  bar := [(aSEC_STATUS, 4#64), (aFJ_STATUS 0, 3#64), (aPWR_DOMAIN, BitVec.ofNat 64 (2 ^ 50 - 1)),
    (aTILE_CTL 0, BitVec.ofNat 64 (0xFF * 2 ^ 32)), (aTILE_STATUS 0, 5#64)]
  strands := [(skey 0 0, loader)]
  tiles := [(0, { fetch := [0] })]
  fab := { ({} : Fab) with
    jobs := [(0, { nchips := 2, devs := [(10, false), (11, false)] })]
    granules := [⟨⟨0, 0, 0⟩, 1, 0x1000, [], 0⟩] } } }

theorem issues_nearGranule : issues nearGranule.chip crowdedSite (.fld crowdedSite ⟨4, 2, 0⟩) = true := by decide +kernel

theorem near_nearGranule : (rankDev nearGranule.chip (tilePart nearGranule.chip 0) (faRank (addrRI (strandOf nearGranule crowdedSite) ⟨4, 2, 0⟩ 8))).2 = false ∧
    accepts nearGranule.chip (rankDev nearGranule.chip (tilePart nearGranule.chip 0) (faRank (addrRI (strandOf nearGranule crowdedSite) ⟨4, 2, 0⟩ 8))).1 = true := by
  decide +kernel

/-- How many requests stand at the source. -/
def requestsLeft : Outcome → Nat
  | .next t => t.chip.fab.reqs.length
  | _ => 1

theorem requestsLeft_nearGranule : requestsLeft (exec (.fld crowdedSite ⟨4, 2, 0⟩) nearGranule) = 0 := by decide +kernel

/-- Refutes O23: a granule held for a near rank serves the load, and no request is sent. -/
theorem not_fabricWords : ¬ Obligations.FabricWords := by
  rintro ⟨hwords, -⟩
  obtain ⟨hload, -⟩ := hwords nearGranule crowdedSite
  obtain ⟨t, hexec, -, hsent⟩ := hload ⟨4, 2, 0⟩ issues_nearGranule near_nearGranule
  have hnone := requestsLeft_nearGranule
  rw [hexec] at hnone
  change t.chip.fab.reqs.length = 0 at hnone
  unfold requestSent at hsent
  rw [hsent, List.length_append, List.length_singleton] at hnone
  omega

end Sys2Proof.Proofs
end

section
/-! SUPPORT. Refused operations and asynchronous faults (O21). -/

namespace Sys2Proof.Proofs

open Sys2Proof.Machine

-- The queues of a tile.

theorem queueOf_setQueue (y : Tile) (q : Nat) (l : List EngOp) : queueOf (setQueue y q l) q = l := by
  unfold queueOf setQueue
  split
  · rfl
  · split
    · rfl
    · split
      · rfl
      · split <;> rfl

/-- Nothing but the queues of a tile differs. -/
theorem setQueue_eq (y : Tile) (q : Nat) (l : List EngOp) : setQueue y q l = { y with
    qMat := (setQueue y q l).qMat, qBank := (setQueue y q l).qBank, qFul := (setQueue y q l).qFul
    qComb := (setQueue y q l).qComb, qMov := (setQueue y q l).qMov } := by
  unfold setQueue
  split
  · rfl
  · split
    · rfl
    · split
      · rfl
      · split <;> rfl

theorem getTile_popOp (s : Chip) (t q : Nat) (o : EngOp) :
    getTile (popOp s t q o) t = setQueue (getTile s t) q ((queueOf (getTile s t) q).erase o) := getTile_modTile_same ..

theorem mem_popOp (s : Chip) (t q : Nat) (o : EngOp) : (getTile (popOp s t q o) t).mem = (getTile s t).mem := by
  rw [getTile_popOp, setQueue_eq]

theorem ac_popOp (s : Chip) (t q : Nat) (o : EngOp) : (getTile (popOp s t q o) t).ac = (getTile s t).ac := by
  rw [getTile_popOp, setQueue_eq]

theorem queueOf_popOp (s : Chip) (t q : Nat) (o : EngOp) :
    queueOf (getTile (popOp s t q o) t) q = (queueOf (getTile s t) q).erase o := by
  rw [getTile_popOp, queueOf_setQueue]

/-- What an operation that runs next has (R239, R240). -/
theorem next_of_runs {s : State} {tile q : Nat} {o : EngOp} {k : EngKind} (h : runsNext s tile q o k = true) :
    nextOp (getTile s.chip tile) q = some o ∧ o.kind = k ∧ o.strand < 8 ∧ engineOpen s.chip tile = true ∧ tileQuiet s.chip tile = true := by
  simp only [runsNext, Bool.and_eq_true, decide_eq_true_eq] at h
  obtain ⟨⟨⟨⟨h1, h2⟩, h3⟩, h4⟩, h5⟩ := h
  exact ⟨h1, h2, h3, h4, h5⟩

/-- The command that completes an operation runs the next one of its queue (R240). -/
theorem exec_completes {s : State} {tile q : Nat} {o : EngOp} {k : EngKind} {i : Instr} {f : Chip → EngOp → Chip} (ht : tile < 144)
    (harm : exec i s = onChip s (fun c => completeOp c tile q [k] f)) (h : runsNext s tile q o k = true) {u : Chip} (hu : f s.chip o = u) :
    exec i s = .next { s with chip := u } := by
  obtain ⟨hnext, hkind, -, hopen, -⟩ := next_of_runs h
  have hk : [k].contains o.kind = true := by rw [hkind]; simp
  rw [harm]
  refine onChip_next ?_
  unfold completeOp onTile
  rw [onUnit_next ht]
  simp only [hnext, hopen, hk, Bool.and_self, if_true, hu]

/-- A fault that a strand has pending wakes nobody. -/
theorem tileQuiet_postFault (s : Chip) (t i : Nat) (f : AFault) : tileQuiet (postFault s t i f) t = tileQuiet s t := by
  unfold tileQuiet postFault
  congr 1
  funext j
  rw [modStrand, getStrand_setStrand]
  split
  · next h =>
    have hsame : getStrand s t j = getStrand s t i := by
      unfold getStrand
      rw [h]
    rw [hsame]
  · rfl

-- A refused operation (R115, R117, R228, R240).

/-- The fields of an arithmetic fault's log (R117). -/
theorem fget_arithFault (s : Chip) {code t unit : Nat} (hc : code < 2 ^ 16) (ht : t < 2 ^ 8) (hu : unit < 2 ^ 8) :
    fget (arithFault s code t unit) aARITH_FAULT_LOG 63 32 = code * 2 ^ 16 + t * 2 ^ 8 + unit ∧
      fget (arithFault s code t unit) aARITH_FAULT_LOG 39 32 = unit := by
  obtain ⟨u, hdef⟩ : ∃ u, u = arithFault s code t unit := exists_eq
  have h1 : fget u aARITH_FAULT_LOG 63 48 = code := by
    rw [hdef, arithFault, fget_fsat_field _ _ _ _ _ _ _ (by omega) (by omega) (by omega) (by omega),
      fget_fset_field _ _ _ _ _ _ _ (by omega) (by omega) (by omega) (by omega),
      fget_fset_field _ _ _ _ _ _ _ (by omega) (by omega) (by omega) (by omega), fget_fset_same _ _ _ _ _ (by omega) (by omega)]
    exact Nat.mod_eq_of_lt hc
  have h2 : fget u aARITH_FAULT_LOG 47 40 = t := by
    rw [hdef, arithFault, fget_fsat_field _ _ _ _ _ _ _ (by omega) (by omega) (by omega) (by omega),
      fget_fset_field _ _ _ _ _ _ _ (by omega) (by omega) (by omega) (by omega), fget_fset_same _ _ _ _ _ (by omega) (by omega)]
    exact Nat.mod_eq_of_lt ht
  have h3 : fget u aARITH_FAULT_LOG 39 32 = unit := by
    rw [hdef, arithFault, fget_fsat_field _ _ _ _ _ _ _ (by omega) (by omega) (by omega) (by omega),
      fget_fset_same _ _ _ _ _ (by omega) (by omega)]
    exact Nat.mod_eq_of_lt hu
  rw [← hdef]
  refine ⟨?_, h3⟩
  unfold fget at *
  simp only [bitsOf_eq] at *
  omega

theorem onlyBar_arithFault (s : Chip) (code t unit : Nat) : onlyBar [aARITH_FAULT_LOG] s (arithFault s code t unit) :=
  onlyBar_trans (onlyBar_trans (onlyBar_trans (onlyBar_fset _ _ _ _ (by simp)) (onlyBar_fset _ _ _ _ (by simp))) (onlyBar_fset _ _ _ _ (by simp)))
    (onlyBar_fsat _ _ _ _ (by simp))

theorem refuseOp_spec {s : State} {t q : Nat} {o : EngOp} {unit code : Nat} (hquiet : tileQuiet s.chip t = true) (ho : o.strand < 8) (ht : t < 144)
    (hc : code < 2 ^ 16) (hu : unit ≤ 5) (h7 : 0x7000 ≤ code) {u : Chip} (hdef : u = refuseOp s.chip t q o unit code) :
    (engineOnly [aTILE_STATUS t, aARITH_FAULT_LOG] t s { s with chip := u } ∧ banksKept s { s with chip := u } t 0 0 ∧
      fget u aARITH_FAULT_LOG 39 32 ≤ 5) ∧ opRefused s { s with chip := u } t q o unit code ∧
      fget u aARITH_FAULT_LOG 63 32 = code * 2 ^ 16 + t * 2 ^ 8 + unit := by
  obtain ⟨a, ha⟩ : ∃ a, a = popOp s.chip t q o := exists_eq
  obtain ⟨b, hb⟩ : ∃ b, b = tileStatus (arithFault a code t unit) t code := exists_eq
  have hbar : onlyBar [aTILE_STATUS t, aARITH_FAULT_LOG] a b := by
    rw [hb]
    exact onlyBar_trans (onlyBar_mono (by simp) (onlyBar_arithFault a code t unit)) (onlyBar_mono (by simp) (onlyBar_tileStatus _ t code))
  have hpop : a.strands = s.chip.strands := by
    rw [ha]
    rfl
  have hstr : b.strands = s.chip.strands := (strands_of_onlyBar hbar).trans hpop
  have hu' : u = postFault b t o.strand ⟨code, unit, 0⟩ := by
    have hq : tileQuiet (postFault b t o.strand ⟨code, unit, 0⟩) t = true :=
      (tileQuiet_postFault ..).trans ((tileQuiet_of_strands hstr t).trans hquiet)
    rw [hdef, ← retryTile_quiet hq, hb, ha]
    simp only [refuseOp, if_pos h7]
  have hhome : onlyHome [aTILE_STATUS t, aARITH_FAULT_LOG] t o.strand s.chip u := by
    rw [hu']
    refine onlyHome_trans (onlyHome_trans ?_ (onlyHome_of_onlyBar t o.strand hbar)) (onlyHome_of_onlyStrand (onlyStrand_setStrand ..))
    rw [ha]
    exact onlyHome_modTile ..
  have htile : getTile u t = getTile a t := by
    rw [hu']
    exact getTile_of_onlyBar hbar t
  have hubar : u.bar = b.bar := by
    rw [hu']
    rfl
  have hlog : ∀ hi lo, fget u aARITH_FAULT_LOG hi lo = fget (arithFault a code t unit) aARITH_FAULT_LOG hi lo := fun hi lo => by
    rw [fget_of_bar hubar, hb]
    refine fget_of_onlyBar (onlyBar_tileStatus _ t code) ?_ hi lo
    simp only [List.mem_singleton, aARITH_FAULT_LOG, aTILE_STATUS]
    omega
  obtain ⟨hwide, hlow⟩ := fget_arithFault a hc (t := t) (by omega) (unit := unit) (by omega)
  obtain ⟨heq, hreg, hothers, htiles⟩ := hhome
  refine ⟨⟨⟨?_, hreg, fun k hk => hothers k ?_, htiles⟩, fun k _ => ?_, ?_⟩, ⟨?_, ?_, ?_, ?_⟩, (hlog 63 32).trans hwide⟩
  · have hlive : u.ctrLive = s.chip.ctrLive := by
      rw [hu', postFault, modStrand]
      change b.ctrLive = _
      rw [hbar.1, ha]
      rfl
    rw [hlive] at heq
    exact congrArg (fun c => ({ s with chip := c } : State)) (heq.trans (by rw [heq]))
  · unfold skey
    omega
  · change mget (getTile u t).mem k = _
    rw [htile, ha, mem_popOp]
  · rw [hlog, hlow]
    exact hu
  · change queueOf (getTile u t) q = _
    rw [htile, ha, queueOf_popOp]
  · change acGet u t _ = _
    unfold acGet
    rw [htile, ha, ac_popOp]
  · change fget u _ 63 48 = _
    rw [fget_of_bar hubar, hb, fget_tileStatus]
    exact Nat.mod_eq_of_lt hc
  · change (getStrand u t o.strand).pend = _
    rw [hu', postFault, getStrand_modStrand_same, getStrand_of_strands hstr]

theorem operationsRefused : Clauses.OperationsRefused := by
  unfold Clauses.OperationsRefused
  intro s tile o ht ho quiet
  refine ⟨fun hrun hpair hacc => ?_, fun st hrun hstack hlen => ?_, fun hrun hnodes => ?_⟩
  · obtain ⟨u, hu⟩ : ∃ u, u = refuseOp s.chip tile 0 o 1 0x7006 := exists_eq
    obtain ⟨hkept, href, hlog⟩ := refuseOp_spec (next_of_runs hrun).2.2.2.2 ho ht (by omega) (by omega) (by omega) hu
    have hexec : exec (.mmPassComplete tile) s = .next { s with chip := u } := exec_completes (k := .mm) (f := runMm tile) ht rfl hrun (by
      have hcode : leastCode [
          if mmPair (bitsOf (opW o 0) 57 54) (bitsOf (opW o 0) 53 50) &&
            (tagOf (opW o 2)).kind == kindWanted (bitsOf (opW o 0) 57 54) (bitsOf (opW o 0) 53 50) then 0 else 0x7006,
          passTag (tagOf (opW o 2)) (bitsOf (opW o 0) 35 24 + 1), 0, if o.mode.testBit 1 && decide (1 < 1) then 0x7001 else 0] = 0x7006 := by
        rw [hpair]
        unfold passTag
        simp only [Bool.false_and, Bool.false_eq_true, if_false, Nat.lt_irrefl, decide_false, Bool.and_false]
        split <;> rfl
      rw [hu]
      unfold runMm
      simp only [hacc, pushEnt, List.length_singleton, hcode]
      rfl)
    exact ⟨_, hexec, hkept, href, hlog⟩
  · obtain ⟨u, hu⟩ : ∃ u, u = refuseOp s.chip tile 0 o 1 0x7009 := exists_eq
    obtain ⟨hkept, href, -⟩ := refuseOp_spec (next_of_runs hrun).2.2.2.2 ho ht (by omega) (by omega) (by omega) hu
    have hexec : exec (.mewComplete tile) s = .next { s with chip := u } := exec_completes (k := .mew) (f := runMew tile) ht rfl hrun (by
      rw [hu]
      unfold runMew
      simp only [hstack]
      match st, hlen with
      | [], _ => rfl
      | a :: b :: r, _ => rfl)
    exact ⟨_, hexec, hkept, href⟩
  · obtain ⟨u, hu⟩ : ∃ u, u = refuseOp s.chip tile 1 o 2 0x7001 := exists_eq
    obtain ⟨hkept, href, -⟩ := refuseOp_spec (next_of_runs hrun).2.2.2.2 ho ht (by omega) (by omega) (by omega) hu
    have hexec : exec (.kstComplete tile) s = .next { s with chip := u } := exec_completes (k := .kst) (f := runKst tile) ht rfl hrun (by
      rw [hu]
      unfold runKst
      simp only
      match hn : (getSet (getTile s.chip tile) o.kc).nodes with
      | [] => rw [hn] at hnodes; exact absurd hnodes (by simp)
      | [n] => rw [hn] at hnodes; exact absurd hnodes (by simp)
      | a :: b :: r => rfl)
    exact ⟨_, hexec, hkept, href⟩

-- An asynchronous fault (R228, R230, R231).

theorem lowestPend_spec (l : List AFault) (hne : l ≠ []) : ∃ g, lowestPend l = some g ∧ g ∈ l ∧ ∀ h ∈ l, g.code ≤ h.code := by
  induction l with
  | nil => exact absurd rfl hne
  | cons f r ih =>
    by_cases hr : r = []
    · rw [hr]
      exact ⟨f, rfl, by simp, by simp⟩
    · obtain ⟨g, hg, hmem, hmin⟩ := ih hr
      simp only [lowestPend, hg]
      by_cases hlt : g.code < f.code
      · rw [if_pos hlt]
        refine ⟨g, rfl, List.mem_cons_of_mem _ hmem, fun h hh => ?_⟩
        rcases List.mem_cons.1 hh with rfl | hh
        · omega
        · exact hmin h hh
      · rw [if_neg hlt]
        refine ⟨f, rfl, List.mem_cons_self, fun h hh => ?_⟩
        rcases List.mem_cons.1 hh with rfl | hh
        · omega
        · have := hmin h hh
          omega

theorem lowestPend_eq {l : List AFault} {g : AFault} (hg : g ∈ l) (hmin : ∀ h ∈ l, g.code ≤ h.code) (huniq : ∀ h ∈ l, h.code = g.code → h = g) :
    lowestPend l = some g := by
  obtain ⟨f, hf, hmem, hlow⟩ := lowestPend_spec l (List.ne_nil_of_mem hg)
  rw [hf, huniq f hmem (Nat.le_antisymm (hlow g hg) (hmin f hmem))]

theorem asyncFaultIsTaken : Clauses.AsyncFaultIsTaken := by
  unfold Clauses.AsyncFaultIsTaken
  intro s tile strand g x ht hi hruns hg hmin huniq hcode hunit hfmode hhandler hcache
  obtain ⟨u, hu⟩ : ∃ u, u = modStrand s.chip tile strand (fun x => { x with pend := [] }) := exists_eq
  have hus : onlyStrand tile strand s.chip u := hu ▸ onlyStrand_setStrand ..
  have hux : getStrand u tile strand = { x with pend := [] } := by rw [hu, getStrand_modStrand_same]
  obtain ⟨y, hy⟩ : ∃ y : Strand, y = { dropped { x with pend := [] } with
    fcode := BitVec.ofNat 16 g.code, finfo := BitVec.ofNat 64 (finfoOf g.unit 0xFF g.addr)
    fpc := BitVec.ofNat 18 x.pc, pc := x.fvec.toNat, handler := true } := exists_eq
  obtain ⟨v, hv⟩ : ∃ v, v = setStrand (tileStatus (freeLoopCache u tile strand) tile g.code) tile strand y := exists_eq
  have htake : takePending s.chip tile strand g = v := by
    unfold takePending
    rw [← hu, takeFault_handled _ _ _ _ (by rw [hux]; exact hhandler) (by rw [hux]; exact hfmode), hux, hv, hy]
  have hvx : getStrand v tile strand = y := by rw [hv, getStrand_setStrand_same]
  have hhome : onlyHome [aTILE_STATUS tile] tile strand s.chip v := by
    refine onlyHome_trans (onlyHome_of_onlyStrand hus) ?_
    rw [hv]
    exact illegal_frame ..
  have hwait : y.wait = none := by
    rw [hy]
    rfl
  have hquiet : retryCache v tile = v := retryCache_quiet v tile (List.all_eq_true.2 fun j hj => by
    by_cases hjs : j = strand
    · rw [hjs, hvx, hwait]
      rfl
    · have hsame : getStrand v tile j = getStrand s.chip tile j := by
        have hlt := List.mem_range.1 hj
        exact hhome.2.2.1 _ (fun e => hjs ((skey_inj hlt hi).1 e).2)
      rw [hsame]
      simpa using hcache j hjs)
  have hexec : exec (.asyncFaultTaken tile strand) s = .next { s with chip := v } :=
    onChip_next (f := cmdAsyncFaultTaken tile strand) (by
      unfold cmdAsyncFaultTaken onStrand
      rw [if_pos ⟨ht, hi⟩]
      have hlow : lowestPend (getStrand s.chip tile strand).pend = some g := lowestPend_eq hg hmin huniq
      simp only [hlow, hruns, if_true, htake, hquiet])
  refine ⟨_, hexec, strandOnly_of_onlyHome hhome ?_ ?_, ?_, ?_⟩
  · rw [hv, setStrand_ctrLive, (onlyBar_tileStatus ..).1]
    change u.ctrLive = _
    rw [hus.1]
  · rw [hv, getTile_illegal, getTile_of_onlyStrand hus]
  · rw [hv]
    exact fget_illegal _ _ _ _ hcode
  · change getStrand v tile strand = _
    rw [hvx, hy]
    rfl

/-- Settles O21. -/
theorem operationFaultsReachTheirStrand : Obligations.OperationFaultsReachTheirStrand := ⟨operationsRefused, asyncFaultIsTaken⟩

end Sys2Proof.Proofs
end

section
/-! SUPPORT. Messages between tiles (O22). -/

namespace Sys2Proof.Proofs

open Sys2Proof.Machine

-- What writes of the banks leave of their tile.

/-- Nothing but the cells of the tile's banks, their queue and its fetch buffer differ. -/
def stored (t : Nat) (s u : Chip) : Prop :=
  onlyTile t s u ∧ getTile u t = { getTile s t with
    mem := (getTile u t).mem, pz := (getTile u t).pz, flaw := (getTile u t).flaw, wbq := (getTile u t).wbq, fetch := (getTile u t).fetch }

theorem stored_refl (t : Nat) (s : Chip) : stored t s s := ⟨onlyTile_refl t s, rfl⟩

theorem stored_trans {t : Nat} {s u v : Chip} (h : stored t s u) (g : stored t u v) : stored t s v :=
  ⟨onlyTile_trans h.1 g.1, g.2.trans (by rw [h.2])⟩

theorem stored_writeWord (s : Chip) (t wi : Nat) (e : Elem) : stored t s (writeWord s t wi e) := by
  refine ⟨onlyTile_writeWord s t wi e, ?_⟩
  rw [writeWord, getTile_setTile_same]
  rfl

theorem stored_ctrBank (s : Chip) (t : Nat) (w : Bool) (n : Nat) : stored t s (ctrBank s t w n) := ⟨onlyTile_ctrBank s t w n, rfl⟩

theorem stored_writeWords (s : Chip) (t wi : Nat) (l : List Elem) : stored t s (writeWords s t wi l) := by
  induction l generalizing s wi with
  | nil => exact stored_refl t s
  | cons e r ih => exact stored_trans (stored_writeWord s t wi e) (ih _ _)

-- A message leaves (R216, R217, R222).

theorem faultIf_nil {c : Bool} {code a : Nat} (h : faultIf c code a = []) : c = false := by
  cases c with
  | false => rfl
  | true => exact nomatch h

/-- No fault of a descriptor: what its own checks find is nothing. -/
theorem descFaults_nil {x : Strand} {pairs regs : List Nat} {own : List (Nat × Nat)} (h : descFaults x pairs regs own = []) : own = [] := by
  unfold descFaults at h
  split at h
  · split at h
    · exact nomatch h
    · exact h
  · exact nomatch h

theorem sendOk_of_issues {s : Chip} {site : Site} {f : FmtD} (h : issues s site (.send site f) = true) :
    sendOk (rdS (getStrand s site.tile site.strand) f.sa) (rdS (getStrand s site.tile site.strand) f.sb) = true := by
  have hrec : loneRec s site (.send site f) = recSend (brought s site (.send site f)) site.tile site.strand
      (holding (getStrand s site.tile site.strand) (.send site f)) site f := rfl
  have hf := (sound_of_issues h).2.1
  rw [hrec] at hf
  simp only [recSend] at hf
  obtain ⟨hown, -⟩ := List.append_eq_nil_iff.1 (descFaults_nil hf)
  obtain ⟨hsend, -⟩ := List.append_eq_nil_iff.1 hown
  have hok := faultIf_nil hsend
  rw [Bool.not_eq_false'] at hok
  exact hok

/-- The words of a message, as its strand reads them. -/
theorem sendWords {s : State} {b : Chip} {tile la len : Nat} (hb : getTile b tile = getTile s.chip tile) (hla : la % 8 = 0) (hlen : len % 8 = 0)
    (h : wordsClean s tile la len = true) : readWords b tile (la / 8) (len / 8) =
      (b, (List.range (len / 8)).map (fun j => ⟨leNat (bankBytes s tile (la + 8 * j) 8), false⟩)) := by
  rw [readWords_sound (fun j hj => by rw [hb]; exact wordSound_within h hla (by omega)), hb]
  refine congrArg (Prod.mk b) (List.map_congr_left fun j _ => ?_)
  unfold plain bankBytes cellWord
  rw [show 8 * (la / 8 + j) = la + 8 * j by omega]

/-- What a message's flits and its charge change. -/
theorem within_inject (s : Chip) (src dst n : Nat) (radio : Bool) : within putCharge [] s (inject s src dst n radio) := by
  unfold inject
  refine within_ite (within_refl parts_charge) ?_
  simp only
  exact within_ite (within_ctrAdd ..) (within_trans parts_charge (within_ctrAdd ..) (within_ctrAdd ..))

/-- The chip as a message's flits leave it. -/
def injected (t a fn lines : Nat) (s : Chip) : Chip :=
  let dst := (physOf s (tilePart s t) (bitsOf a 47 40)).getD 0xFF
  let u := inject (ctrBank s t false lines) t dst (flitsOf lines) (fn.testBit 0)
  if fn.testBit 0 || dst == t || !tileHeld s t then u else charge u (tilePart s t) 2 t (128 * flitsOf lines)

theorem within_injected (t a fn lines : Nat) (s : Chip) : within putCharge bwKeys s (injected t a fn lines s) := by
  have hbank : within putCharge bwKeys s (ctrBank s t false lines) := ⟨rfl, fun _ _ => rfl⟩
  have hgo := within_trans parts_charge hbank (within_mono (ks := []) (by simp)
    (within_inject (ctrBank s t false lines) t ((physOf s (tilePart s t) (bitsOf a 47 40)).getD 0xFF) (flitsOf lines) (fn.testBit 0)))
  exact within_ite hgo (within_trans parts_charge hgo (within_charge ..))

/-- The message as it leaves. -/
def sentFlight (t i a b fn : Nat) (words : List Elem) (s : Chip) : Flight :=
  ⟨s.nextId, t, i, (physOf s (tilePart s t) (bitsOf a 47 40)).getD 0xFF, (physOf s (tilePart s t) (bitsOf a 47 40)).isNone,
    bitsOf a 37 32, bitsOf a 21 0, bitsOf b 21 0, bitsOf b 29 24, fn, words, false, false, false⟩

theorem sendGo_eq {t i a b fn : Nat} {s : Chip} {words : List Elem}
    (h : readWords s t (bitsOf b 21 0 / 8) (bitsOf b 44 32 / 8) = (s, words)) :
    sendGo t i a b fn s = { enqueue t 4 { kind := .send, strand := i, w := [s.nextId] } (injected t a fn (lineCount (bitsOf b 21 0) (bitsOf b 44 32)) s) with
      nextId := s.nextId + 1, flights := s.flights ++ [sentFlight t i a b fn words s] } := by
  have hflights : (injected t a fn (lineCount (bitsOf b 21 0) (bitsOf b 44 32)) s).flights = s.flights := by
    rw [(within_injected ..).1]
    rfl
  have habsent : (physOf s (tilePart s t) (bitsOf a 47 40) == none) = (physOf s (tilePart s t) (bitsOf a 47 40)).isNone := by
    cases physOf s (tilePart s t) (bitsOf a 47 40) <;> rfl
  unfold sendGo
  simp only [h, habsent]
  rw [← hflights]
  rfl

theorem sendLeaves : Clauses.SendLeaves := by
  unfold Clauses.SendLeaves
  intro s site f x a b dst h hclean
  obtain ⟨-, -, hi, -, -, hsl⟩ := free_of_issues h
  have hok : sendOk a b = true := sendOk_of_issues h
  simp only [sendOk, Bool.and_eq_true, decide_eq_true_eq, beq_iff_eq] at hok
  obtain ⟨⟨⟨⟨-, hlen⟩, -⟩, hla⟩, -⟩ := hok.1
  obtain ⟨st, hst⟩ : ∃ st, st = brought s.chip site (.send site f) := exists_eq
  have hown : onlyStrand site.tile site.strand s.chip st := hst ▸ brought_onlyStrand ..
  have htile : ∀ k, getTile st k = getTile s.chip k := getTile_of_onlyStrand hown
  obtain ⟨words, hwords⟩ : ∃ words, words = (List.range (bitsOf b 44 32 / 8)).map (fun j =>
    (⟨leNat (bankBytes s site.tile (bitsOf b 21 0 + 8 * j) 8), false⟩ : Elem)) := exists_eq
  have hread := sendWords (b := st) (htile site.tile) hla hlen hclean
  rw [← hwords] at hread
  obtain ⟨v, hv⟩ : ∃ v, v = injected site.tile a f.fn (lineCount (bitsOf b 21 0) (bitsOf b 44 32)) st := exists_eq
  have hvw := within_injected site.tile a f.fn (lineCount (bitsOf b 21 0) (bitsOf b 44 32)) st
  rw [← hv] at hvw
  have hvsame : v.strands = st.strands ∧ v.tiles = st.tiles := by
    rw [hvw.1]
    exact ⟨rfl, rfl⟩
  obtain ⟨hvs, hvt⟩ := hvsame
  obtain ⟨o, ho⟩ : ∃ o : EngOp, o = { kind := .send, strand := site.strand, w := [s.chip.nextId] } := exists_eq
  obtain ⟨u, hu⟩ : ∃ u, u = { enqueue site.tile 4 o v with
    nextId := s.chip.nextId + 1, flights := s.chip.flights ++ [sentFlight site.tile site.strand a b f.fn words s.chip] } := exists_eq
  have hstsame : st.nextId = s.chip.nextId ∧ st.flights = s.chip.flights ∧
      sentFlight site.tile site.strand a b f.fn words st = sentFlight site.tile site.strand a b f.fn words s.chip := by
    rw [hown.1]
    exact ⟨rfl, rfl, rfl⟩
  obtain ⟨hid, hfl, hsent⟩ := hstsame
  have heff : (loneRec s.chip site (.send site f)).eff ((loneRec s.chip site (.send site f)).start (brought s.chip site (.send site f))) = u := by
    change sendGo site.tile site.strand a b f.fn (brought s.chip site (.send site f)) = u
    rw [← hst, sendGo_eq hread, hid, hfl, hsent, ← hv, hu, ho]
  have husame : u.strands = st.strands ∧ (∀ k, k ≠ site.tile → getTile u k = getTile s.chip k) ∧
      (getTile u site.tile).qMov = (getTile s.chip site.tile).qMov ++ [o] ∧ (getTile u site.tile).mem = (getTile s.chip site.tile).mem ∧
      u.bar = v.bar ∧ u.nextId = s.chip.nextId + 1 ∧
      u.flights = s.chip.flights ++ [sentFlight site.tile site.strand a b f.fn words s.chip] := by
    have hvtile : ∀ k, getTile v k = getTile s.chip k := fun k => by
      rw [← htile]
      unfold getTile
      rw [hvt]
    have hq : ∀ k, getTile u k = getTile (enqueue site.tile 4 o v) k := fun k => by rw [hu]; rfl
    refine ⟨by rw [hu]; exact hvs, fun k hk => ?_, ?_, ?_, by rw [hu]; rfl, by rw [hu], by rw [hu]⟩
    · rw [hq, enqueue, getTile_modTile_other _ hk, hvtile]
    · rw [hq, enqueue, getTile_modTile_same, hvtile]
      rfl
    · rw [hq, enqueue, getTile_modTile_same, hvtile]
      rfl
  obtain ⟨hus, hut, huq, hum, hub, hun, huf⟩ := husame
  have hexec := exec_issues h u heff fun j hj hne => by
    rw [getStrand_of_strands hus]
    exact getStrand_of_onlyStrand hown hi hj hne
  rw [show (loneRec s.chip site (.send site f)).ctl = .fall from rfl] at hexec
  have hret := retire_eq u site.tile site.strand .fall
  have hrt := getTile_retire_same u site.tile site.strand .fall
  have hrx := strandOf_retire_brought h (u := u) (by rw [← hst]; exact getStrand_of_strands hus ..) .fall
  have hrs := retire_strands u site.tile site.strand .fall
  have hro : ∀ k, k ≠ site.tile → getTile (retire u site.tile site.strand .fall) k = getTile s.chip k := fun k hk =>
    (getTile_retire_other u site.strand .fall hk).trans (hut k hk)
  obtain ⟨r, hr⟩ : ∃ r, r = retire u site.tile site.strand .fall := exists_eq
  rw [← hr] at hexec hret hrt hrx hrs hro
  refine ⟨_, hexec, ?_, hrx, ?_, ?_, hro, fun k _ => ?_, fun k hk => ?_, fun k hk => ?_⟩
  · rw [hret]
    exact hun
  · rw [hret, ← hwords]
    exact huf
  · rw [hrt, ← ho]
    exact huq
  · rw [hrt]
    exact congrArg (mget · k) hum
  · rw [hrs, tget_tset_other _ hk, hus]
    exact hown.2 k hk
  · have hbar : barGet r k = barGet v k := by
      unfold barGet
      rw [hret]
      exact congrArg (fun l => (tget regReset l k).toNat) hub
    refine hbar.trans ((hvw.2 k hk).trans ?_)
    rw [hown.1]
    rfl

-- A message ends (R218, R220 to R222).

/-- Elements without marks, within a word each. -/
theorem words_plain {ws : List Elem} (h : ∀ w ∈ ws, w.pz = false ∧ w.v < 2 ^ 64) : (ws.map (·.v)).map plain = ws := by
  rw [List.map_map]
  refine (List.map_congr_left fun w hw => ?_).trans (List.map_id ws)
  obtain ⟨hpz, -⟩ := h w hw
  change (⟨w.v, false⟩ : Elem) = w
  rw [← hpz]

theorem sendArrives {s : State} {id : Nat} {f : Flight} (hfind : findFlight s.chip id = some f)
    (hq1 : tileQuiet s.chip f.src = true)
    (hq2 : tileQuiet s.chip f.dst = true) (hcut : f.cut = false) (hnew : f.arrived = false) (hearly : earlierSend s.chip f = false)
    (hcode : sendCode s.chip f = 0) (hal : f.raddr % 8 = 0) (hwords : ∀ w ∈ f.words, w.pz = false ∧ w.v < 2 ^ 64) :
    ∃ t, exec (.sendArrival id) s = .next t ∧ banksKept s t f.dst f.raddr (8 * f.words.length) ∧
      (∀ j, j < f.words.length → leNat (bankBytes t f.dst (f.raddr + 8 * j) 8) = (f.words.getD j ⟨0, false⟩).v) ∧
      acGet t.chip f.dst f.rcnt = (if f.fn.testBit 1 then acGet s.chip f.dst f.rcnt
        else max (-2147483648) (min 2147483647 (acGet s.chip f.dst f.rcnt - 1))) ∧
      (∀ n, n ≠ f.rcnt → acGet t.chip f.dst n = acGet s.chip f.dst n) ∧ t.chip.bar = s.chip.bar ∧
      t.chip.strands = s.chip.strands ∧
      (∀ k, k ≠ f.dst → k ≠ f.src → getTile t.chip k = getTile s.chip k) ∧
      t.chip.flights = if f.fn.testBit 2 then s.chip.flights.filter (fun g => g.id != id)
        else s.chip.flights.map (fun g => if g.id == id then { g with arrived := true } else g) := by
  obtain ⟨a, ha⟩ : ∃ a, a = ctrBank (writeWords s.chip f.dst (f.raddr / 8) f.words) f.dst true (lineCount f.raddr (8 * f.words.length)) := exists_eq
  have hst : stored f.dst s.chip a := ha ▸ stored_trans (stored_writeWords ..) (stored_ctrBank ..)
  have hwrote : wrote s.chip a f.dst f.raddr (8 * f.words.length) (packLanes 64 (f.words.map (·.v))) := by
    obtain ⟨-, hw⟩ := writeWords_spec s.chip f.dst (f.raddr / 8) (f.words.map (·.v))
    rw [words_plain hwords, List.length_map, show 8 * (f.raddr / 8) = f.raddr by omega] at hw
    rw [ha]
    exact hw
  obtain ⟨b, hb⟩ : ∃ b, b = popSend a f.src id := exists_eq
  have hbt : ∀ k, (getTile b k).mem = (getTile a k).mem ∧ (getTile b k).ac = (getTile a k).ac ∧ (k ≠ f.src → getTile b k = getTile a k) := fun k => by
    by_cases hk : k = f.src
    · rw [hb, hk, popSend, getTile_modTile_same]
      exact ⟨rfl, rfl, fun h => absurd rfl h⟩
    · rw [hb, popSend, getTile_modTile_other _ hk]
      exact ⟨rfl, rfl, fun _ => rfl⟩
  obtain ⟨c, hc⟩ : ∃ c, c = if f.fn.testBit 1 then b else acArrive b f.dst f.rcnt := exists_eq
  have hct : ∀ k, (getTile c k).mem = (getTile b k).mem ∧ (k ≠ f.dst → getTile c k = getTile b k) := fun k => by
    rw [hc]
    split
    · exact ⟨rfl, fun _ => rfl⟩
    · unfold acArrive acAdd acSet
      by_cases hk : k = f.dst
      · rw [hk, getTile_modTile_same]
        exact ⟨rfl, fun h => absurd rfl h⟩
      · rw [getTile_modTile_other _ hk]
        exact ⟨rfl, fun _ => rfl⟩
  have hbac : ∀ n, acGet b f.dst n = acGet s.chip f.dst n := fun n => by
    unfold acGet
    rw [(hbt f.dst).2.1, hst.2]
  have hcac : acGet c f.dst f.rcnt = (if f.fn.testBit 1 then acGet s.chip f.dst f.rcnt
        else max (-2147483648) (min 2147483647 (acGet s.chip f.dst f.rcnt - 1))) ∧
      ∀ n, n ≠ f.rcnt → acGet c f.dst n = acGet s.chip f.dst n := by
    rw [hc]
    split
    · exact ⟨hbac _, fun n _ => hbac n⟩
    · refine ⟨(acGet_acSet_same ..).trans ?_, fun n hn => (acGet_acSet_other _ _ _ hn).trans (hbac n)⟩
      rw [hbac]
      rfl
  have hcsame : c.strands = s.chip.strands ∧ c.bar = s.chip.bar ∧ c.flights = s.chip.flights := by
    have hcb : c.strands = b.strands ∧ c.bar = b.bar ∧ c.flights = b.flights := by
      rw [hc]
      split <;> exact ⟨rfl, rfl, rfl⟩
    have hba : b.strands = a.strands ∧ b.bar = a.bar ∧ b.flights = a.flights := by
      rw [hb]
      exact ⟨rfl, rfl, rfl⟩
    rw [hcb.1, hcb.2.1, hcb.2.2, hba.1, hba.2.1, hba.2.2, hst.1.1]
    exact ⟨rfl, rfl, rfl⟩
  obtain ⟨v, hv⟩ : ∃ v, v = if f.fn.testBit 2 then dropFlight c id
    else setFlight (inject c f.dst f.src 1 (f.fn.testBit 0)) id (fun g => { g with arrived := true }) := exists_eq
  have hi := (within_inject c f.dst f.src 1 (f.fn.testBit 0)).1
  have hib : (inject c f.dst f.src 1 (f.fn.testBit 0)).bar = c.bar := by
    unfold inject
    split
    · rfl
    · simp only
      split <;> rfl
  have hvsame : v.strands = c.strands ∧ v.bar = c.bar ∧ v.tiles = c.tiles ∧ v.flights = if f.fn.testBit 2 then c.flights.filter (fun g => g.id != id)
        else c.flights.map (fun g => if g.id == id then { g with arrived := true } else g) := by
    rw [hv]
    split
    · exact ⟨rfl, rfl, rfl, rfl⟩
    · refine ⟨?_, hib, ?_, ?_⟩
      · change (inject c f.dst f.src 1 (f.fn.testBit 0)).strands = _
        rw [hi]
        rfl
      · change (inject c f.dst f.src 1 (f.fn.testBit 0)).tiles = _
        rw [hi]
        rfl
      · change (inject c f.dst f.src 1 (f.fn.testBit 0)).flights.map _ = _
        rw [hi]
        rfl
  obtain ⟨hvs, hvb, hvt, hvf⟩ := hvsame
  have hvstr : v.strands = s.chip.strands := hvs.trans hcsame.1
  have hvtile : ∀ k, getTile v k = getTile c k := fun k => by
    unfold getTile
    rw [hvt]
  have hexec : exec (.sendArrival id) s = .next { s with chip := v } :=
    onChip_next (f := cmdSendArrival id) (by
      unfold cmdSendArrival
      simp only [hfind, hnew, hearly, hcode, hcut, Bool.false_or, bne_self_eq_false, Bool.false_eq_true, if_false]
      rw [← ha, ← hb, ← hc, ← hv, retryTile_quiet ((tileQuiet_of_strands hvstr f.dst).trans hq2),
        retryTile_quiet ((tileQuiet_of_strands hvstr f.src).trans hq1)])
  have hmem : (getTile v f.dst).mem = (getTile a f.dst).mem := by rw [hvtile, (hct f.dst).1, (hbt f.dst).1]
  have hvac : ∀ n, acGet v f.dst n = acGet c f.dst n := fun n => by
    unfold acGet
    rw [hvtile]
  obtain ⟨hkeep, hval, -⟩ := hwrote
  refine ⟨_, hexec, fun k hk => ?_, fun j hj => ?_, (hvac _).trans hcac.1, fun n hn => (hvac n).trans (hcac.2 n hn), hvb.trans hcsame.2.1,
    hvstr, fun k hkd hks => ?_, ?_⟩
  · rw [hmem]
    exact hkeep k hk
  · change leNat (mread (getTile v f.dst).mem _ 8) = _
    rw [hmem, ← leNat_mread_sub _ f.raddr (N := 8 * f.words.length) (by omega), hval]
    have hlane := lane_packLanes 64 (f.words.map (·.v)) (j := j) (by simpa using hj)
    unfold lane at hlane
    rw [show 8 * (8 * j) = 64 * j by omega, show 8 * 8 = 64 from rfl, hlane]
    have hlt := (hwords _ (List.getElem_mem hj)).2
    simp only [List.getD_eq_getElem?_getD, List.getElem?_map, List.getElem?_eq_getElem hj, Option.map_some, Option.getD_some]
    exact Nat.mod_eq_of_lt hlt
  · change getTile v k = _
    rw [hvtile, (hct k).2 hkd, (hbt k).2.2 hks, hst.1.2 k hkd]
  · change v.flights = _
    rw [hvf, hcsame.2.2]

theorem sendAcknowledged {s : State} {id : Nat} {f : Flight} (hfind : findFlight s.chip id = some f) (harr : f.arrived = true) (hack : f.acked = false)
    (hpath : tileDie f.src = tileDie f.dst ∨ knuckleOpen s.chip = true) :
    ∃ t, exec (.sendAckArrival id) s = .next t ∧ t.chip.flights = s.chip.flights.filter (fun g => g.id != id) ∧
      tileOnly f.src { s with chip := { s.chip with flights := s.chip.flights.filter (fun g => g.id != id) } } t ∧
      acGet t.chip f.src f.lcnt = max (-2147483648) (min 2147483647 (acGet s.chip f.src f.lcnt - 1)) := by
  have hexec : exec (.sendAckArrival id) s = .next { s with chip := dropFlight (acArrive s.chip f.src f.lcnt) id } :=
    onChip_next (f := cmdSendAckArrival id) (by
      have hopen : (!f.arrived || (tileDie f.src != tileDie f.dst && !knuckleOpen s.chip)) = false := by
        rcases hpath with h | h
        · simp [harr, h]
        · simp [harr, h]
      unfold cmdSendAckArrival
      simp only [hfind, hopen, hack, Bool.false_eq_true, if_false])
  refine ⟨_, hexec, rfl, ⟨rfl, fun k hk => ?_⟩, ?_⟩
  · change getTile (acArrive s.chip f.src f.lcnt) k = getTile s.chip k
    exact getTile_modTile_other _ hk _
  · exact acGet_acSet_same s.chip f.src f.lcnt _

theorem sendCode_lt (s : Chip) (f : Flight) : sendCode s f < 2 ^ 16 := by
  refine leastCode_lt (by omega) fun c hc => ?_
  simp only [List.mem_cons, List.not_mem_nil, or_false] at hc
  rcases hc with h | h <;> rw [h] <;> split <;> omega

theorem sendRefusedClause {s : State} {id : Nat} {f : Flight} (hfind : findFlight s.chip id = some f) (hq : tileQuiet s.chip f.src = true)
    (hcut : f.cut = false) (hnew : f.arrived = false) (hack : f.acked = false) (hcode : sendCode s.chip f ≠ 0) :
    ∃ t, exec (.sendRefused id) s = .next t ∧ t.chip.flights = s.chip.flights.filter (fun g => g.id != id) ∧
      fget t.chip (aTILE_STATUS f.src) 63 48 = sendCode s.chip f ∧
      (getStrand t.chip f.src f.strand).pend = (getStrand s.chip f.src f.strand).pend ++ [⟨sendCode s.chip f, 0x05, f.laddr⟩] ∧
      (∀ k n, mget (getTile t.chip k).mem n = mget (getTile s.chip k).mem n) ∧ ∀ k n, acGet t.chip k n = acGet s.chip k n := by
  obtain ⟨a, ha⟩ : ∃ a, a = dropFlight (popSend s.chip f.src id) id := exists_eq
  have hasame : a.strands = s.chip.strands ∧ a.flights = s.chip.flights.filter (fun g => g.id != id) ∧
      ∀ k, (getTile a k).mem = (getTile s.chip k).mem ∧ (getTile a k).ac = (getTile s.chip k).ac := by
    rw [ha]
    refine ⟨rfl, rfl, fun k => ?_⟩
    change (getTile (popSend s.chip f.src id) k).mem = _ ∧ (getTile (popSend s.chip f.src id) k).ac = _
    by_cases hk : k = f.src
    · rw [hk, popSend, getTile_modTile_same]
      exact ⟨rfl, rfl⟩
    · rw [popSend, getTile_modTile_other _ hk]
      exact ⟨rfl, rfl⟩
  obtain ⟨has, haf, hat⟩ := hasame
  obtain ⟨b, hb⟩ : ∃ b, b = tileStatus a f.src (sendCode s.chip f) := exists_eq
  have hbar : onlyBar [aTILE_STATUS f.src] a b := hb ▸ onlyBar_tileStatus ..
  have hbs : b.strands = s.chip.strands := (strands_of_onlyBar hbar).trans has
  obtain ⟨v, hv⟩ : ∃ v, v = postFault b f.src f.strand ⟨sendCode s.chip f, 0x05, f.laddr⟩ := exists_eq
  have hvq : tileQuiet v f.src = true := by
    rw [hv, tileQuiet_postFault, tileQuiet_of_strands hbs]
    exact hq
  have hexec : exec (.sendRefused id) s = .next { s with chip := v } :=
    onChip_next (f := cmdSendRefused id) (by
      have hne : (sendCode s.chip f == 0) = false := by simpa using hcode
      unfold cmdSendRefused
      simp only [hfind, hnew, hne, hcut, hack, Bool.false_eq_true, if_false, Bool.or_self]
      rw [← ha, ← hb, ← hv, retryTile_quiet hvq])
  have hvt : ∀ k, getTile v k = getTile a k := fun k => by
    rw [hv]
    exact getTile_of_onlyBar hbar k
  have hvbar : v.bar = b.bar := by
    rw [hv]
    rfl
  refine ⟨_, hexec, ?_, ?_, ?_, fun k n => ?_, fun k n => ?_⟩
  · change v.flights = _
    rw [hv]
    change b.flights = _
    rw [hbar.1]
    exact haf
  · change fget v _ 63 48 = _
    rw [fget_of_bar hvbar, hb, fget_tileStatus]
    exact Nat.mod_eq_of_lt (sendCode_lt ..)
  · change (getStrand v f.src f.strand).pend = _
    rw [hv, postFault, getStrand_modStrand_same, getStrand_of_strands hbs]
  · change mget (getTile v k).mem n = _
    rw [hvt, (hat k).1]
  · change acGet v k n = _
    unfold acGet
    rw [hvt, (hat k).2]

theorem sendEnds : Clauses.SendEnds := by
  unfold Clauses.SendEnds
  intro s id f hfind _ _ _ hq1 hq2 hcut rest
  exact ⟨fun hnew _ => sendArrives hfind hq1 hq2 hcut hnew, sendAcknowledged hfind, sendRefusedClause hfind hq1 hcut⟩

/-- Settles O22. -/
theorem messagesBetweenTiles : Obligations.MessagesBetweenTiles := ⟨sendLeaves, sendEnds⟩

end Sys2Proof.Proofs
end

section
/-! SUPPORT. Strike boundaries, phase starts and phase deadlines (O39). -/

namespace Sys2Proof.Proofs

open Sys2Proof.Machine

-- Partitions that nothing waits for at a boundary.

/-- No plan, map, start, save or restore of the partition waits for a boundary. -/
structure PartCalm (x : Part) : Prop where
  moves : x.moves = []
  passing : x.passing = []
  joining : x.joining = 0
  nextMap : x.nextMap = none
  starting : x.starting = false
  freezing : x.freezing = false
  thawing : x.thawing = false

/-- From calm partitions to calm partitions, with nothing but partitions changed. -/
def partsCalm (s u : Chip) : Prop :=
  (∀ p, PartCalm (getPart s p)) → within putParts [] s u ∧ ∀ p, PartCalm (getPart u p)

theorem partsCalm_refl (s : Chip) : partsCalm s s := fun h => ⟨within_refl parts_parts, h⟩

theorem partsCalm_trans {s u v : Chip} (h : partsCalm s u) (g : partsCalm u v) : partsCalm s v := fun hs => by
  obtain ⟨hu, hcu⟩ := h hs
  obtain ⟨hv, hcv⟩ := g hcu
  exact ⟨within_trans parts_parts hu hv, hcv⟩

theorem partsCalm_forEach {α : Type} {f : Chip → α → Chip} {l : List α} (h : ∀ j ∈ l, ∀ u, partsCalm u (f u j)) (s : Chip) :
    partsCalm s (forEach l f s) :=
  forEach_keeps partsCalm_refl (fun _ _ _ => partsCalm_trans) h s

theorem partsCalm_modPart (s : Chip) (p : Nat) {f : Part → Part} (hf : ∀ x, PartCalm x → PartCalm (f x)) : partsCalm s (modPart s p f) := fun h => by
  refine ⟨within_modPart .., fun k => ?_⟩
  rw [getPart_modPart]
  split
  · exact hf _ (h _)
  · exact h k

/-- With calm partitions no group changes hands at a boundary (R525). -/
theorem partsCalm_quenchBoundary (s : Chip) (n : Nat) : partsCalm s (quenchBoundary s n) := by
  have hvacated : partsCalm s (forEach (List.range 16) vacatedAbsent s) := partsCalm_forEach (fun p _ u h => by
    have hkeep : vacatedAbsent u p = u := by
      unfold vacatedAbsent
      rw [(h p).moves]
      rfl
    rw [hkeep]
    exact partsCalm_refl u h) s
  have hmoves : ∀ v, partsCalm v (forEach (List.range 16) (fun st p =>
      forEach ((getPart st p).moves.filter (fun m => decide (m.pass ≤ n))) (fun u m => takeMove u p m) st) v) :=
    partsCalm_forEach fun p _ u h => by
      simp only [(h p).moves]
      exact partsCalm_refl u h
  unfold quenchBoundary
  refine partsCalm_trans (partsCalm_trans hvacated (hmoves _)) (partsCalm_forEach (fun p _ u h => ?_) _)
  simp only [(h p).passing]
  exact partsCalm_modPart u p (f := fun x => { x with passing := [] }) (fun x hx => ⟨hx.moves, rfl, hx.joining, hx.nextMap, hx.starting, hx.freezing, hx.thawing⟩) h

theorem partsCalm_joinBoundary (s : Chip) (p : Nat) : partsCalm s (joinBoundary s p) := fun h => by
  unfold joinBoundary
  simp only [(h p).joining, (h p).nextMap, beq_self_eq_true, Bool.true_or, if_true]
  exact partsCalm_modPart s p (fun x hx => ⟨hx.moves, hx.passing, rfl, rfl, hx.starting, hx.freezing, hx.thawing⟩) h

theorem partsCalm_runBoundary (n : Nat) (s : Chip) (p : Nat) : partsCalm s (runBoundary n s p) := fun h => by
  unfold runBoundary
  simp only [(h p).starting, (h p).freezing, (h p).thawing, Bool.or_self, Bool.false_eq_true, if_false]
  exact partsCalm_modPart s p (fun x hx => ⟨hx.moves, hx.passing, hx.joining, hx.nextMap, rfl, rfl, rfl⟩) h

/-- With no channel lost no budget is scaled (R538). -/
theorem scaleSlot_whole {s : Chip} (h : ∀ c, c < 32 → chanState s c ≠ 4) (slot : Nat) : scaleSlot s slot = s := by
  have hnone : (List.range 32).any (fun c => chanState s c == 4) = false :=
    List.any_eq_false.2 fun c hc => by simpa using h c (List.mem_range.1 hc)
  unfold scaleSlot
  rw [hnone]
  simp

theorem partsCalm_gainTokens (s : Chip) (p : Nat) : partsCalm s (gainTokens s p) := by
  have hused : ∀ (x : Part) (a b : Nat) (c : List (Nat × Nat)), PartCalm x → PartCalm { x with usedMem := a, usedFab := b, usedMesh := c } :=
    fun x a b c hx => ⟨hx.moves, hx.passing, hx.joining, hx.nextMap, hx.starting, hx.freezing, hx.thawing⟩
  unfold gainTokens
  exact partsCalm_modPart s p fun x hx => hused x _ _ _ hx

theorem partsCalm_bellowsBoundary {s : Chip} (n : Nat) (hcycle : s.radio.nextBcycle = none) (hchan : ∀ c, c < 32 → chanState s c ≠ 4) :
    partsCalm s (bellowsBoundary s n) := fun h => by
  have hgain : partsCalm s (forEach (List.range 16) gainTokens s) := partsCalm_forEach (fun p _ u => partsCalm_gainTokens u p) s
  obtain ⟨u, hu⟩ : ∃ u, u = forEach (List.range 16) gainTokens s := exists_eq
  rw [← hu] at hgain
  obtain ⟨hframe, hcalm⟩ := hgain h
  have hucycle : u.radio.nextBcycle = none := by
    rw [hframe.1]
    exact hcycle
  have huchan : ∀ c, c < 32 → chanState u c ≠ 4 := fun c hc => by
    have : chanState u c = chanState s c := fget_of_barGet (hframe.2 _ (by simp)) 7 4
    rw [this]
    exact hchan c hc
  have hbud : ∀ (x : Part) (a b c : Nat), PartCalm x → PartCalm { x with budMem := a, budFab := b, budMesh := c } :=
    fun x a b c hx => ⟨hx.moves, hx.passing, hx.joining, hx.nextMap, hx.starting, hx.freezing, hx.thawing⟩
  unfold bellowsBoundary
  simp only [← hu, hucycle]
  rw [forEach_eq_self (fun j _ => scaleSlot_whole huchan j)]
  refine partsCalm_trans (fun _ => ⟨hframe, hcalm⟩) (partsCalm_forEach (fun p _ v => partsCalm_modPart v p
    (fun x hx => hbud x _ _ _ hx)) u) h

-- A calm boundary (R412, R413, R457).

/-- What a calm boundary finds of the radio. -/
structure RadioCalm (r : Radio) : Prop where
  plan : r.plan = none
  nextPlan : r.nextPlan = none
  pendingStep : r.pendingStep = none
  request : r.request = none
  toReduced : r.toReduced = false
  toLoad : r.toLoad = []
  joining : r.joining = 0
  rebind : r.rebind = []
  nextBcycle : r.nextBcycle = none

/-- What is calm before a boundary. -/
structure Calm (s : Chip) : Prop where
  stage : stageNow s ≠ 0xF
  radio : RadioCalm s.radio
  parts : ∀ p, PartCalm (getPart s p)
  tests : s.ras.tests = []
  wanted : s.ras.wanted = []
  due : s.mesh.due = []
  auto : ∀ p, p < 17 → fbit s (aCTR_AUTO p) 0 = false
  chans : ∀ c, c < 32 → chanState s c ≠ 4

theorem calm_of_boundaryCalm {s : Chip} (h : boundaryCalm s = true) : Calm s := by
  simp only [boundaryCalm, Bool.and_eq_true, decide_eq_true_eq, List.isEmpty_iff] at h
  obtain ⟨⟨⟨⟨⟨⟨⟨hstage, hradio⟩, hparts⟩, htests⟩, hwanted⟩, hdue⟩, hauto⟩, hchans⟩ := h
  refine ⟨hstage, ?_, fun p => ?_, htests, hwanted, hdue, fun p hp => ?_, fun c hc => ?_⟩
  · rw [hradio]
    exact ⟨rfl, rfl, rfl, rfl, rfl, rfl, rfl, rfl, rfl⟩
  · unfold getPart
    rw [hparts]
    exact ⟨rfl, rfl, rfl, rfl, rfl, rfl, rfl⟩
  · simpa using List.all_eq_true.1 hauto p (List.mem_range.2 hp)
  · simpa using List.all_eq_true.1 hchans c (List.mem_range.2 hc)

def putRadioMesh (u s : Chip) : Chip := { s with radio := u.radio, mesh := u.mesh }

theorem parts_radioMesh : Parts putRadioMesh := ⟨fun _ _ _ _ => rfl, fun _ _ => rfl⟩

theorem within_rdMod (ks : List Nat) (s : Chip) (f : Radio → Radio) : within putRadioMesh ks s (rdMod s f) := ⟨rfl, fun _ _ => rfl⟩

/-- The radio's part of a boundary, to the loss of tiles (R412, R457). -/
def radioFront (s : Chip) : Chip :=
  let s1 := stepBoundary s
  let n := s1.radio.number
  let s2 := meshBoundary (fset s1 aSTRIKE_STATUS 63 32 n)
  let s3 := enableBoundary (returnTests (claimBoundary (loadJoined s2)))
  let s4 := startupBoundary (replaceBoundary s3 n)
  let s5 := if s4.radio.toReduced then enterReduced (rdMod s4 (fun r => { r with toReduced := false })) else s4
  lossBoundary (tierBoundary s5 n)

theorem meshBoundary_calm {s : Chip} (hdue : s.mesh.due = []) (hplan : s.radio.plan = none) :
    within putRadioMesh [] s (meshBoundary s) ∧ (meshBoundary s).radio = s.radio := by
  have hreprove : ∀ u : Chip, u.radio = s.radio → within putRadioMesh [] s u → within putRadioMesh [] s (reprove u) ∧ (reprove u).radio = s.radio :=
    fun u hr hu => by
      refine ⟨within_trans parts_radioMesh hu (within_rdMod ..), ?_⟩
      change ({ u.radio with reproving := u.radio.reproving || (u.radio.plan.isSome && u.radio.running && !u.radio.reduced) } : Radio) = s.radio
      rw [hr, hplan]
      simp
  unfold meshBoundary
  simp only [hdue]
  split
  · exact hreprove _ rfl ⟨rfl, fun _ _ => rfl⟩
  · exact ⟨⟨rfl, fun _ _ => rfl⟩, rfl⟩

theorem radioFront_calm {s : Chip} (h : Calm s) : within putRadioMesh [aSTRIKE_STATUS] s (radioFront s) ∧
    (radioFront s).radio.number = s.radio.number + 1 ∧ (radioFront s).radio.running = false ∧ (radioFront s).radio.plan = none ∧
    (radioFront s).radio.rebind = [] ∧ (radioFront s).radio.nextBcycle = none ∧
    fget (radioFront s) aSTRIKE_STATUS 63 32 = (s.radio.number + 1) % 2 ^ 32 := by
  obtain ⟨u, hu⟩ : ∃ u, u = fset (rdMod s (fun r => { r with number := r.number + 1 })) aSTRIKE_STATUS 63 32 (s.radio.number + 1) := exists_eq
  have huw : within putRadioMesh [aSTRIKE_STATUS] s u := hu ▸ within_then parts_radioMesh (within_rdMod ..) (onlyBar_fset _ _ _ _ (by simp))
  have hur : u.radio = { s.radio with number := s.radio.number + 1 } := by
    rw [hu, (onlyBar_fset (ks := [aSTRIKE_STATUS]) _ 63 32 _ (by simp)).1]
    rfl
  have huo : u.mesh.due = [] ∧ u.ras.tests = [] := by
    rw [hu, (onlyBar_fset (ks := [aSTRIKE_STATUS]) _ 63 32 _ (by simp)).1]
    exact ⟨h.due, h.tests⟩
  have hunum : fget u aSTRIKE_STATUS 63 32 = (s.radio.number + 1) % 2 ^ 32 := by
    rw [hu]
    exact fget_fset_same _ _ _ _ _ (by omega) (by omega)
  obtain ⟨m, hm⟩ : ∃ m, m = meshBoundary u := exists_eq
  obtain ⟨hmw, hmr⟩ : within putRadioMesh [] u m ∧ m.radio = u.radio := hm ▸ meshBoundary_calm huo.1 (by rw [hur]; exact h.radio.plan)
  have hmr' := hmr.trans hur
  have hmtests : m.ras.tests = [] := by
    rw [hmw.1]
    exact huo.2
  obtain ⟨a, ha⟩ : ∃ a, a = rdMod m (fun r => { r with joining := 0, claims := dropBits r.claims 0, running := false }) := exists_eq
  have har : a.radio = { s.radio with
      number := s.radio.number + 1, joining := 0, claims := dropBits s.radio.claims 0, running := false } := by
    rw [ha]
    change ({ m.radio with joining := 0, claims := dropBits m.radio.claims 0, running := false } : Radio) = _
    rw [hmr']
  have hload : loadJoined m = m := by
    have hnone : m.radio.toLoad = [] := by
      rw [hmr']
      exact h.radio.toLoad
    unfold loadJoined
    rw [hnone]
    rfl
  have hclaim : claimBoundary m = rdMod m (fun r => { r with joining := 0, claims := dropBits r.claims 0 }) := by
    have hnone : m.radio.joining = 0 := by
      rw [hmr']
      exact h.radio.joining
    unfold claimBoundary joinAnvil
    simp only [hnone, beq_self_eq_true, if_true]
  have hreturn : returnTests (rdMod m (fun r => { r with joining := 0, claims := dropBits r.claims 0 })) =
      rdMod m (fun r => { r with joining := 0, claims := dropBits r.claims 0 }) := by
    unfold returnTests
    rw [show (rdMod m (fun r => { r with joining := 0, claims := dropBits r.claims 0 })).ras.tests = [] from hmtests]
    rfl
  have henable : enableBoundary (rdMod m (fun r => { r with joining := 0, claims := dropBits r.claims 0 })) = a := by
    have hnone : (rdMod m (fun r => { r with joining := 0, claims := dropBits r.claims 0 })).radio.plan = none := by
      change m.radio.plan = none
      rw [hmr']
      exact h.radio.plan
    unfold enableBoundary
    simp only [hnone, Option.isSome_none, Bool.and_false, Bool.false_and]
    rw [ha]
    rfl
  have hstep : stepBoundary s = rdMod s (fun r => { r with number := r.number + 1 }) := by
    unfold stepBoundary
    rw [h.radio.pendingStep]
  have hplan : a.radio.plan = none ∧ a.radio.nextPlan = none ∧ a.radio.toReduced = false ∧ a.radio.request = none := by
    rw [har]
    exact ⟨h.radio.plan, h.radio.nextPlan, h.radio.toReduced, h.radio.request⟩
  obtain ⟨hp1, hp2, hp3, hp4⟩ := hplan
  have hreplace : ∀ n, startupBoundary (replaceBoundary a n) = a := fun n => by
    unfold replaceBoundary startupBoundary
    simp only [hp1, hp2]
  have htier : ∀ n, tierBoundary a n = a := fun n => by
    unfold tierBoundary
    simp only [hp4]
  have hfront : radioFront s = rdMod a (fun r => { r with lostNow := [] }) := by
    unfold radioFront
    simp only [hstep]
    rw [show (rdMod s (fun r => { r with number := r.number + 1 })).radio.number = s.radio.number + 1 from rfl, ← hu, ← hm, hload, hclaim, hreturn,
      henable, hreplace]
    simp only [hp3, Bool.false_eq_true, if_false]
    rw [htier]
    unfold lossBoundary
    simp only [hp1]
  have haw : within putRadioMesh [] m a := ha ▸ within_rdMod ..
  have hall : within putRadioMesh [aSTRIKE_STATUS] s (radioFront s) := by
    rw [hfront]
    exact within_trans parts_radioMesh (within_trans parts_radioMesh (within_trans parts_radioMesh huw (within_mono (by simp) hmw))
      (within_mono (by simp) haw)) (within_rdMod ..)
  have hregs : fget (radioFront s) aSTRIKE_STATUS 63 32 = fget u aSTRIKE_STATUS 63 32 := by
    rw [hfront]
    refine Eq.trans (fget_of_barGet ?_ 63 32) (fget_of_barGet (hmw.2 _ (by simp)) 63 32)
    exact haw.2 _ (by simp)
  have hfr : (radioFront s).radio = { a.radio with lostNow := [] } := by
    rw [hfront]
    rfl
  rw [hfr, har]
  exact ⟨hall, rfl, rfl, h.radio.plan, h.radio.rebind, h.radio.nextBcycle, hregs.trans hunum⟩

/-- A calm boundary: the next Strike has begun, and nothing else has (R412, R413, R457). -/
theorem strikeBoundary_calm {s : Chip} (h : Calm s) : ∃ u, strikeBoundary s = u ∧
    u = { s with bar := u.bar, radio := u.radio, mesh := u.mesh, parts := u.parts } ∧ (∀ k, k ≠ aSTRIKE_STATUS → barGet u k = barGet s k) ∧
    u.radio.number = s.radio.number + 1 ∧ u.radio.running = false ∧ fget u aSTRIKE_STATUS 63 32 = (s.radio.number + 1) % 2 ^ 32 := by
  obtain ⟨hfw, hnum, hrun, hplan, hrebind, hcycle, hreg⟩ := radioFront_calm h
  obtain ⟨a, ha⟩ : ∃ a, a = radioFront s := exists_eq
  rw [← ha] at hfw hnum hrun hplan hrebind hcycle hreg
  obtain ⟨n, hn⟩ : ∃ n, n = (stepBoundary s).radio.number := exists_eq
  have hparts : ∀ p, PartCalm (getPart a p) := fun p => by
    have : getPart a p = getPart s p := by
      rw [hfw.1]
      rfl
    rw [this]
    exact h.parts p
  obtain ⟨b, hb⟩ : ∃ b, b = forEach (List.range 16) (runBoundary n) (forEach (List.range 16) joinBoundary (quenchBoundary a n)) := exists_eq
  have hab : partsCalm a b := by
    rw [hb]
    exact partsCalm_trans (partsCalm_trans (partsCalm_quenchBoundary a n) (partsCalm_forEach (fun p _ u => partsCalm_joinBoundary u p) _))
      (partsCalm_forEach (fun p _ u => partsCalm_runBoundary n u p) _)
  obtain ⟨hbw, hbc⟩ := hab hparts
  have hbr : b.radio = a.radio := by rw [hbw.1]; rfl
  have hchan : ∀ c, c < 32 → chanState b c ≠ 4 := fun c hc => by
    have hkeep : chanState b c = chanState s c := by
      refine fget_of_barGet ((hbw.2 _ (by simp)).trans (hfw.2 _ ?_)) 7 4
      simp only [List.mem_singleton, aMEM_STATUS, aSTRIKE_STATUS]
      omega
    rw [hkeep]
    exact h.chans c hc
  obtain ⟨c, hc⟩ : ∃ c, c = bellowsBoundary b n := exists_eq
  obtain ⟨hcw, -⟩ : within putParts [] b c ∧ ∀ p, PartCalm (getPart c p) := hc ▸ partsCalm_bellowsBoundary n (by rw [hbr]; exact hcycle) hchan hbc
  have hcr : c.radio = a.radio := by
    rw [hcw.1]
    exact hbr
  have hring : rebindRings c = c := by
    unfold rebindRings
    rw [hcr, hrebind]
    simp
  have hchecks : radioChecks c n = c := by
    unfold radioChecks
    rw [hcr, hplan]
  have hclose : autoClose s c n = c := forEach_eq_self fun p hp => by
    have hoff : fbit c (aCTR_AUTO p) 0 = false := by
      have hkeep : barGet c (aCTR_AUTO p) = barGet s (aCTR_AUTO p) := by
        refine (hcw.2 _ (by simp)).trans ((hbw.2 _ (by simp)).trans (hfw.2 _ ?_))
        simp only [List.mem_singleton, aCTR_AUTO, aSTRIKE_STATUS]
        omega
      exact (fbit_of_barGet hkeep 0).trans (h.auto p (List.mem_range.1 hp))
    rw [hoff]
    simp
  have hrun' : strikeBoundary s = showRadio c := by
    unfold strikeBoundary when
    rw [if_pos (by simpa using h.stage)]
    simp only
    rw [← hn]
    have hfront : a = radioFront s := ha
    unfold radioFront at hfront
    simp only at hfront
    rw [← hn] at hfront
    rw [← hfront, ← hb, ← hc, hring, hchecks, hclose]
  have hshow := onlyBar_showRadio c
  have hsr := radio_of_onlyBar hshow
  have hframe : showRadio c = { s with
      bar := (showRadio c).bar, radio := (showRadio c).radio, mesh := (showRadio c).mesh, parts := (showRadio c).parts } := by
    have hca : c = { s with bar := c.bar, radio := c.radio, mesh := c.mesh, parts := c.parts } := by
      rw [hcw.1, hbw.1, hfw.1]
      rfl
    rw [hshow.1]
    generalize (showRadio c).bar = r
    rw [hca]
  refine ⟨_, hrun', hframe, fun k hk => ?_, ?_, ?_, ?_⟩
  · exact (hshow.2 k (by simpa using hk)).trans ((hcw.2 k (by simp)).trans ((hbw.2 k (by simp)).trans (hfw.2 k (by simpa using hk))))
  · rw [hsr, hcr, hnum]
  · rw [hsr, hcr, hrun]
  · have hkeep : fget (showRadio c) aSTRIKE_STATUS 63 32 = fget c aSTRIKE_STATUS 63 32 := by
      unfold showRadio
      simp only
      rw [fget_fsetb _ _ _ _ _ _ (by omega) (by omega) (by omega), fget_fsetb _ _ _ _ _ _ (by omega) (by omega) (by omega),
        fget_fset_field _ _ _ _ _ _ _ (by omega) (by omega) (by omega) (by omega),
        fget_fset_field _ _ _ _ _ _ _ (by omega) (by omega) (by omega) (by omega)]
    rw [hkeep, fget_of_barGet (hcw.2 _ (by simp)), fget_of_barGet (hbw.2 _ (by simp)), hreg]

end Sys2Proof.Proofs
end

section
/-! Strike boundaries, phase starts and phase deadlines (O39). -/

namespace Sys2Proof.Proofs

open Sys2Proof.Machine

/-- No time trigger fires where neither its target nor its base moved (R502). -/
theorem stepsOver_still {s u : Chip} (ht : u.time = s.time) (hk : ∀ i, i < 16 → barGet u (aTT_CTL i) = barGet s (aTT_CTL i) ∧
    barGet u (aTT_CTL i + 8) = barGet s (aTT_CTL i + 8) ∧ barGet u (aTT_CTL i + 16) = barGet s (aTT_CTL i + 16)) : stepsOver s u = u :=
  forEach_eq_self fun i hi => by
    obtain ⟨h1, h2, h3⟩ := hk i (List.mem_range.1 hi)
    have hnow : ttNow u i = ttNow s i := by
      unfold ttNow tbGet
      rw [ht, fget_of_barGet h1]
    have htarget : ttTarget u i = ttTarget s i := by
      unfold ttTarget
      rw [h2, h3]
    rw [hnow, htarget, if_neg]
    simp only [Bool.and_eq_true, decide_eq_true_eq, not_and]
    omega

theorem temperBoundary_idle {s : Chip} (h : s.ras.wanted = []) : temperBoundary s = s := by
  unfold temperBoundary when temperWaiting
  rw [h]
  exact (ite_eq_or_eq _ _ _).elim id id

theorem strikeFailed {s : State} (h : fget s.chip aSEC_STATUS 3 0 = 0xF) : exec .strikeBoundary s = .next s := by
  have hstage : (stageNow s.chip != 0xF) = false := by
    rw [show stageNow s.chip = 0xF from h]
    rfl
  exact onChip_next (c := s.chip) (f := cmdStrikeBoundary) (by
    unfold cmdStrikeBoundary strikeBoundary temperBoundary when
    simp only [hstage, Bool.false_eq_true, if_false]
    rw [stepsOver_still rfl (fun _ _ => ⟨rfl, rfl, rfl⟩)])

theorem strikeCalm {s : State} (h : boundaryCalm s.chip = true) : ∃ t, exec .strikeBoundary s = .next t ∧ t.chip.radio.number = s.chip.radio.number + 1 ∧
    fget t.chip aSTRIKE_STATUS 63 32 = (s.chip.radio.number + 1) % 2 ^ 32 ∧ t.chip.radio.running = false ∧
    t.chip.tiles = s.chip.tiles ∧ t.chip.strands = s.chip.strands ∧ t.chip.mem = s.chip.mem := by
  have hcalm := calm_of_boundaryCalm h
  obtain ⟨u, hu, hframe, hbar, hnum, hrun, hreg⟩ := strikeBoundary_calm hcalm
  have hsame : u.time = s.chip.time ∧ u.ras.wanted = [] ∧ u.tiles = s.chip.tiles ∧ u.strands = s.chip.strands ∧ u.mem = s.chip.mem := by
    rw [hframe]
    exact ⟨rfl, hcalm.wanted, rfl, rfl, rfl⟩
  obtain ⟨htime, hwanted, htiles, hstrands, hmem⟩ := hsame
  have hapart : ∀ i d, i < 16 → d < 24 → aTT_CTL i + d ≠ aSTRIKE_STATUS := fun i d _ _ => by
    unfold aTT_CTL aSTRIKE_STATUS
    omega
  have hexec : exec .strikeBoundary s = .next { s with chip := u } :=
    onChip_next (f := cmdStrikeBoundary) (by
      unfold cmdStrikeBoundary
      rw [hu, temperBoundary_idle hwanted, stepsOver_still htime]
      exact fun i hi => ⟨hbar _ (hapart i 0 hi (by omega)), hbar _ (hapart i 8 hi (by omega)), hbar _ (hapart i 16 hi (by omega))⟩)
  exact ⟨_, hexec, hnum, hreg, hrun, htiles, hstrands, hmem⟩

-- Phases (R427, R428, R438).

theorem phaseStartClause {s : State} {k tile : Nat} {ph : Phase} (h : phaseHere s.chip k = some (ph, tile)) (hcnt : ph.startCnt < 63)
    (htrig : ∀ b, 1 ≤ b → b < 16 → ph.trig.testBit b = false) (hfed : fedByPorts s.chip tile ph.startCnt = false)
    (hquiet : tileQuiet s.chip tile = true) :
    ∃ t, exec (.phaseStart k) s = .next t ∧ tileOnly tile s t ∧ acGet t.chip tile 63 = 1 ∧
      acGet t.chip tile ph.startCnt = max (-2147483648) (min 2147483647 (acGet s.chip tile ph.startCnt - 1)) ∧
      ∀ n, n < 63 → n ≠ ph.startCnt → acGet t.chip tile n = acGet s.chip tile n := by
  obtain ⟨a, ha⟩ : ∃ a, a = acSet s.chip tile 63 1 := exists_eq
  obtain ⟨u, hu⟩ : ∃ u, u = acArrive a tile ph.startCnt := exists_eq
  have hsame : u.strands = s.chip.strands ∧ fedByPorts u tile ph.startCnt = false := by
    rw [hu, ha]
    exact ⟨rfl, hfed⟩
  obtain ⟨hstr, hfed'⟩ := hsame
  have hlines : (List.range 16).filter (fun k => k != 0 && ph.trig.testBit k) = [] := List.filter_eq_nil_iff.2 fun b hb => by
    have hlt := List.mem_range.1 hb
    by_cases h0 : b = 0
    · simp [h0]
    · simp [htrig b (by omega) hlt]
  have hexec : exec (.phaseStart k) s = .next { s with chip := u } :=
    onChip_next (f := cmdPhaseStart k) (by
      unfold cmdPhaseStart
      simp only [h, ← ha, ← hu, hfed', Bool.and_false, Bool.false_eq_true, if_false, hlines]
      rw [retryTile_quiet ((tileQuiet_of_strands hstr tile).trans hquiet)]
      rfl)
  have hget : ∀ n, n ≠ 63 → acGet a tile n = acGet s.chip tile n := fun n hn => ha ▸ acGet_acSet_other _ _ _ hn
  refine ⟨_, hexec, ⟨?_, fun j hj => ?_⟩, ?_, ?_, fun n hn hne => ?_⟩
  · rw [hu, ha]
    rfl
  · change getTile u j = _
    rw [hu, acArrive, acAdd, acSet, getTile_modTile_other _ hj, ha, acSet, getTile_modTile_other _ hj]
  · change acGet u tile 63 = 1
    rw [hu]
    refine (acGet_acSet_other _ _ _ (by omega)).trans ?_
    rw [ha]
    exact acGet_acSet_same ..
  · change acGet u tile ph.startCnt = _
    rw [hu]
    refine (acGet_acSet_same ..).trans ?_
    rw [hget _ (by omega)]
    rfl
  · change acGet u tile n = _
    rw [hu]
    exact (acGet_acSet_other _ _ _ hne).trans (hget n (by omega))

theorem radioLose_spec (s : Chip) (l : Nat) : radioLose s l = { s with radio := (radioLose s l).radio } ∧
    (radioLose s l).radio.number = s.radio.number := by
  unfold radioLose
  split <;> exact ⟨rfl, rfl⟩

theorem phaseLateClause {s : State} {k tile : Nat} {ph : Phase} (h : phaseHere s.chip k = some (ph, tile)) (hlate : 0 < acGet s.chip tile 63) :
    ∃ t, exec (.phaseDeadline k) s = .next t ∧ chipOnly [aRADIO_ERR] s t (fun c => { c with radio := t.chip.radio }) ∧
      countedOne s t aRADIO_ERR 47 32 ∧ fget t.chip aRADIO_ERR 63 48 = 0x5030 ∧ t.chip.radio.number = s.chip.radio.number := by
  obtain ⟨u, hu⟩ : ∃ u, u = fsat (radioCode s.chip 0x5030) aRADIO_ERR 47 32 1 := exists_eq
  have hub : onlyBar [aRADIO_ERR] s.chip u := hu ▸ onlyBar_trans (onlyBar_fset _ _ _ _ (by simp)) (onlyBar_fsat _ _ _ _ (by simp))
  have hcount : fget u aRADIO_ERR 47 32 = min (fget s.chip aRADIO_ERR 47 32 + 1) (2 ^ (47 + 1 - 32) - 1) := by
    rw [hu, fget_fsat_same _ _ _ _ _ (by omega) (by omega), radioCode, fget_fset_field _ _ _ _ _ _ _ (by omega) (by omega) (by omega) (by omega)]
  have hcode : fget u aRADIO_ERR 63 48 = 0x5030 := by
    rw [hu, fget_fsat_field _ _ _ _ _ _ _ (by omega) (by omega) (by omega) (by omega)]
    exact fget_fset_same _ _ _ _ _ (by omega) (by omega)
  have hlate' : ∃ v, lateReport s.chip tile 0x5030 = v ∧ v = { u with radio := v.radio } ∧ v.radio.number = u.radio.number := by
    refine ⟨_, rfl, ?_⟩
    unfold lateReport
    simp only [← hu]
    split
    · exact ⟨rfl, rfl⟩
    · split
      · exact radioLose_spec _ _
      · exact ⟨rfl, rfl⟩
  obtain ⟨v, hv, hvu, hvn⟩ := hlate'
  have hexec : exec (.phaseDeadline k) s = .next { s with chip := v } :=
    onChip_next (f := cmdPhaseDeadline k) (by
      unfold cmdPhaseDeadline
      simp only [h, hlate, if_true, hv])
  have hvb : v.bar = u.bar := by rw [hvu]
  refine ⟨_, hexec, ⟨?_, fun k hk => ?_⟩, ?_, ?_, ?_⟩
  · refine congrArg (fun c => ({ s with chip := c } : State)) ?_
    rw [hvu, hub.1]
  · refine Eq.trans ?_ (hub.2 k hk)
    unfold barGet
    rw [hvb]
  · exact (fget_of_bar hvb ..).trans hcount
  · exact (fget_of_bar hvb ..).trans hcode
  · rw [hvn, hub.1]

/-- Settles O39. -/
theorem strikesBegin : Obligations.StrikesBegin := by
  unfold Obligations.StrikesBegin
  refine fun s k => ⟨strikeFailed, strikeCalm, fun h => ⟨?_, ?_⟩, fun ph tile h => ⟨phaseStartClause h, fun hdone => ?_, phaseLateClause h⟩⟩
  · exact onChip_next (c := s.chip) (f := cmdPhaseStart k) (by unfold cmdPhaseStart; rw [h])
  · exact onChip_next (c := s.chip) (f := cmdPhaseDeadline k) (by unfold cmdPhaseDeadline; rw [h])
  · exact onChip_next (c := s.chip) (f := cmdPhaseDeadline k) (by
      unfold cmdPhaseDeadline
      simp only [h]
      rw [if_neg (by omega)])

end Sys2Proof.Proofs
end

section
/-! SUPPORT. Fabric links: training, wear and loss (O50). -/

namespace Sys2Proof.Proofs

open Sys2Proof.Machine

-- The registers that a link's events touch.

theorem linkKeys (l : Nat) : aFL_STATUS l ≠ aFAB_STATUS ∧ aFL_ERR l ≠ aFAB_STATUS ∧ aFL_CTL l ≠ aFAB_STATUS ∧ aFAB_CTL ≠ aFAB_STATUS ∧
    aFL_ERR l ≠ aFL_STATUS l ∧ aFL_CTL l ≠ aFL_STATUS l ∧ aFAB_CTL ≠ aFL_STATUS l ∧ aFAB_CTL ≠ aFL_ERR l := by
  unfold aFL_STATUS aFL_ERR aFL_CTL aFAB_STATUS aFAB_CTL
  omega

theorem linkState_of {s u : Chip} {l : Nat} (h : fget u (aFL_STATUS l) 47 44 = fget s (aFL_STATUS l) 47 44) :
    linkState u l = linkState s l := h

theorem linkIsUp_of {s u : Chip} {l : Nat} (h : linkState u l = linkState s l) : linkIsUp u l = linkIsUp s l := by
  unfold linkIsUp
  rw [h]

-- The counts of links in FAB_STATUS.

theorem onlyBar_countLinks (s : Chip) {ks : List Nat} (h : aFAB_STATUS ∈ ks) : onlyBar ks s (countLinks s) :=
  onlyBar_trans (onlyBar_trans (onlyBar_trans (onlyBar_fset s _ _ _ h) (onlyBar_fset _ _ _ _ h)) (onlyBar_fset _ _ _ _ h))
    (onlyBar_fset _ _ _ _ h)

theorem fget_countLinks (s : Chip) {k : Nat} (h : k ≠ aFAB_STATUS) (hi lo : Nat) : fget (countLinks s) k hi lo = fget s k hi lo :=
  fget_of_onlyBar (onlyBar_countLinks s (List.mem_singleton_self _)) (fun e => h (List.mem_singleton.1 e)) hi lo

-- A link's state.

theorem onlyBar_setLink (s : Chip) (l st : Nat) {ks : List Nat} (h : aFL_STATUS l ∈ ks) (g : aFAB_STATUS ∈ ks) :
    onlyBar ks s (setLink s l st) :=
  onlyBar_trans (onlyBar_fset s _ _ _ h) (onlyBar_countLinks _ g)

theorem linkState_setLink (s : Chip) (l : Nat) {st : Nat} (h : st < 16) : linkState (setLink s l st) l = st := by
  unfold linkState setLink
  rw [fget_countLinks _ (linkKeys l).1, fget_fset_same _ _ _ _ _ (by omega) (by omega)]
  omega

/-- The other fields of the link's status. -/
theorem fget_setLink_field (s : Chip) (l st : Nat) {hi lo : Nat} (h : lo ≤ hi) (hd : hi < 44 ∨ 47 < lo) :
    fget (setLink s l st) (aFL_STATUS l) hi lo = fget s (aFL_STATUS l) hi lo := by
  unfold setLink
  rw [fget_countLinks _ (linkKeys l).1, fget_fset_field _ _ _ _ _ _ _ (by omega) (by omega) h hd]

/-- A register of another name. -/
theorem fget_setLink_other (s : Chip) (l st : Nat) {k : Nat} (h : k ≠ aFL_STATUS l) (g : k ≠ aFAB_STATUS) (hi lo : Nat) :
    fget (setLink s l st) k hi lo = fget s k hi lo := by
  unfold setLink
  rw [fget_countLinks _ g, fget_fset_other _ _ _ _ _ _ h]

theorem fab_of_onlyBar {ks : List Nat} {s u : Chip} (h : onlyBar ks s u) : u.fab = s.fab := by rw [h.1]

theorem irqs_of_onlyBar {ks : List Nat} {s u : Chip} (h : onlyBar ks s u) : u.irqs = s.irqs := by rw [h.1]

theorem fab_setLink (s : Chip) (l st : Nat) : (setLink s l st).fab = s.fab :=
  fab_of_onlyBar (onlyBar_setLink s l st (ks := [aFL_STATUS l, aFAB_STATUS]) (by simp) (by simp))

theorem irqs_setLink (s : Chip) (l st : Nat) : (setLink s l st).irqs = s.irqs :=
  irqs_of_onlyBar (onlyBar_setLink s l st (ks := [aFL_STATUS l, aFAB_STATUS]) (by simp) (by simp))

-- A link's reported code.

/-- The two records of the code, before the interrupt. -/
def codeNoted (s : Chip) (l code : Nat) : Chip := fset (fset s (aFL_STATUS l) 63 48 code) aFAB_STATUS 63 48 code

theorem linkEvent_eq (s : Chip) (l code : Nat) :
    linkEvent s l code = raiseIrq (codeNoted s l code) 0 (fget (fset s (aFL_STATUS l) 63 48 code) aFAB_CTL 15 4) := by
  simp only [linkEvent, fabEvent, fabCode, codeNoted]

theorem fget_linkEvent (s : Chip) (l code k hi lo : Nat) : fget (linkEvent s l code) k hi lo = fget (codeNoted s l code) k hi lo := by
  rw [linkEvent_eq]
  exact fget_of_barGet (barGet_raiseIrq _ _ _ _) hi lo

theorem onlyBar_codeNoted (s : Chip) (l code : Nat) : onlyBar [aFL_STATUS l, aFAB_STATUS] s (codeNoted s l code) :=
  onlyBar_trans (onlyBar_fset s _ _ _ (by simp)) (onlyBar_fset _ _ _ _ (by simp))

theorem fab_linkEvent (s : Chip) (l code : Nat) : (linkEvent s l code).fab = s.fab := by
  rw [linkEvent_eq, raiseIrq, fab_of_onlyBar (onlyBar_codeNoted s l code)]

theorem irqs_linkEvent (s : Chip) (l code : Nat) : (linkEvent s l code).irqs = s.irqs ++ [(0, fget s aFAB_CTL 15 4)] := by
  obtain ⟨-, -, -, -, -, -, hfs, -⟩ := linkKeys l
  rw [linkEvent_eq, raiseIrq, irqs_of_onlyBar (onlyBar_codeNoted s l code), fget_fset_other _ _ _ _ _ _ hfs]

theorem fget_linkEvent_code (s : Chip) (l code : Nat) : fget (linkEvent s l code) (aFL_STATUS l) 63 48 = code % 2 ^ 16 := by
  rw [fget_linkEvent, codeNoted, fget_fset_other _ _ _ _ _ _ (linkKeys l).1, fget_fset_same _ _ _ _ _ (by omega) (by omega)]

theorem fget_linkEvent_field (s : Chip) (l code : Nat) {hi lo : Nat} (h : lo ≤ hi) (hd : hi < 48) :
    fget (linkEvent s l code) (aFL_STATUS l) hi lo = fget s (aFL_STATUS l) hi lo := by
  rw [fget_linkEvent, codeNoted, fget_fset_other _ _ _ _ _ _ (linkKeys l).1,
    fget_fset_field _ _ _ _ _ _ _ (by omega) (by omega) h (.inl hd)]

theorem fget_linkEvent_other (s : Chip) (l code : Nat) {k : Nat} (h : k ≠ aFL_STATUS l) (g : k ≠ aFAB_STATUS) (hi lo : Nat) :
    fget (linkEvent s l code) k hi lo = fget s k hi lo := by
  rw [fget_linkEvent, codeNoted, fget_fset_other _ _ _ _ _ _ g, fget_fset_other _ _ _ _ _ _ h]

theorem fget_linkEvent_fabric (s : Chip) (l code : Nat) : fget (linkEvent s l code) aFAB_STATUS 63 48 = code % 2 ^ 16 := by
  rw [fget_linkEvent, codeNoted, fget_fset_same _ _ _ _ _ (by omega) (by omega)]

theorem linkState_linkEvent (s : Chip) (l code : Nat) : linkState (linkEvent s l code) l = linkState s l :=
  fget_linkEvent_field s l code (by omega) (by omega)

/-- A link whose state and code change together. -/
theorem linkEvent_setLink (s : Chip) (l : Nat) {st code : Nat} (hst : st < 16) (hcode : code < 2 ^ 16) :
    linkState (linkEvent (setLink s l st) l code) l = st ∧ fget (linkEvent (setLink s l st) l code) (aFL_STATUS l) 63 48 = code ∧
      ∀ hi lo, lo ≤ hi → hi < 44 → fget (linkEvent (setLink s l st) l code) (aFL_STATUS l) hi lo = fget s (aFL_STATUS l) hi lo :=
  ⟨(linkState_linkEvent _ _ _).trans (linkState_setLink s l hst),
    (fget_linkEvent_code _ _ _).trans (Nat.mod_eq_of_lt hcode),
    fun hi lo h g => (fget_linkEvent_field _ _ _ h (by omega)).trans (fget_setLink_field s l st h (.inl g))⟩

-- A link that trains again.

theorem retrainLink_spec (s : Chip) (l : Nat) : linkState (retrainLink s l) l = 1 ∧
    fget (retrainLink s l) (aFL_ERR l) 15 0 = min (fget s (aFL_ERR l) 15 0 + 1) (2 ^ 16 - 1) ∧
    (∀ hi lo, lo ≤ hi → hi < 44 ∨ 47 < lo → fget (retrainLink s l) (aFL_STATUS l) hi lo = fget s (aFL_STATUS l) hi lo) ∧
    onlyBar [aFL_ERR l, aFL_STATUS l, aFAB_STATUS] s (retrainLink s l) := by
  obtain ⟨-, he, -, -, hes, -⟩ := linkKeys l
  have hb : onlyBar [aFL_ERR l, aFL_STATUS l, aFAB_STATUS] s (retrainLink s l) :=
    onlyBar_trans (onlyBar_fsat s _ _ _ (by simp)) (onlyBar_setLink _ l 1 (by simp) (by simp))
  refine ⟨linkState_setLink _ l (by omega), ?_, fun hi lo h hd => ?_, hb⟩
  · exact (fget_setLink_other _ l 1 hes he _ _).trans (fget_fsat_same _ _ _ _ _ (by omega) (by omega))
  · exact (fget_setLink_field _ l 1 h hd).trans (fget_fsat_other _ _ _ _ _ _ (Ne.symm hes))

-- Commands of a link.

theorem linkCmd {f : Chip → Out} {g : Chip → Chip} {s : State} {l : Nat} (hl : l < 32) (hf : f s.chip = onLink l s.chip g) :
    onChip s f = .next { s with chip := g s.chip } :=
  onChip_next (hf.trans (onUnit_next hl _ _))

theorem exec_linkEnable (s : State) {l : Nat} (hl : l < 32) (on : Bool) :
    exec (.linkEnable l on) s = .next { s with chip := linkEnable s.chip l on } :=
  linkCmd (f := cmdLinkEnable l on) (g := fun st => linkEnable st l on) hl rfl

theorem exec_linkRetrain (s : State) {l : Nat} (hl : l < 32) :
    exec (.linkRetrain l) s = .next { s with chip := linkRetrain s.chip l } :=
  linkCmd (f := cmdLinkRetrain l) (g := fun st => linkRetrain st l) hl rfl

theorem domainOn_fsetb {s : Chip} {k : Nat} (h : aPWR_DOMAIN ≠ k) (i : Nat) (b : Bool) (d : Nat) :
    domainOn (fsetb s k i b) d = domainOn s d := by
  unfold domainOn
  rw [fbit_fsetb_other _ _ _ _ h]
  rfl

theorem linkEnable_on {s : Chip} {l : Nat} (hoff : fbit s (aFL_CTL l) 0 = false) (hp : linkPowered s l = true) :
    onlyBar [aFL_CTL l, aFL_STATUS l, aFAB_STATUS] s (linkEnable s l true) ∧ fbit (linkEnable s l true) (aFL_CTL l) 0 = true ∧
      linkState (linkEnable s l true) l = 1 := by
  obtain ⟨-, -, hc, -, -, hcs, -⟩ := linkKeys l
  have h : linkEnable s l true = setLink (fsetb s (aFL_CTL l) 0 true) l 1 := by
    unfold linkEnable
    simp [hoff, hp, trainLink]
  rw [h]
  refine ⟨onlyBar_trans (onlyBar_fsetb s _ _ (by simp)) (onlyBar_setLink _ l 1 (by simp) (by simp)), ?_,
    linkState_setLink _ l (by omega)⟩
  exact (congrArg (· == 1) (fget_setLink_other _ l 1 hcs hc 0 0)).trans (fbit_fsetb_same _ _ _ _ (by omega))

theorem linkEnable_off {s : Chip} {l : Nat} (hup : linkIsUp s l = false) :
    onlyBar [aFL_CTL l, aFL_STATUS l, aFAB_STATUS] s (linkEnable s l false) ∧ fbit (linkEnable s l false) (aFL_CTL l) 0 = false ∧
      linkState (linkEnable s l false) l = 0 := by
  obtain ⟨-, -, hc, -, -, hcs, -⟩ := linkKeys l
  have hb := onlyBar_fsetb (ks := [aFL_CTL l, aFL_STATUS l, aFAB_STATUS]) s 0 false (List.mem_cons_self (a := aFL_CTL l))
  have hbit : fbit (fsetb s (aFL_CTL l) 0 false) (aFL_CTL l) 0 = false := fbit_fsetb_same _ _ _ _ (by omega)
  have hst : linkState (fsetb s (aFL_CTL l) 0 false) l = linkState s l := fget_fset_other _ _ _ _ _ _ (Ne.symm hcs)
  by_cases h0 : linkState s l = 0
  · have h : linkEnable s l false = fsetb s (aFL_CTL l) 0 false := by
      unfold linkEnable
      simp [h0]
    rw [h]
    exact ⟨hb, hbit, hst.trans h0⟩
  · have h : linkEnable s l false = setLink (fsetb s (aFL_CTL l) 0 false) l 0 := by
      unfold linkEnable dropLink
      simp [h0, linkIsUp_of hst, hup]
    rw [h]
    refine ⟨onlyBar_trans hb (onlyBar_setLink _ l 0 (by simp) (by simp)), ?_, linkState_setLink _ l (by omega)⟩
    exact (congrArg (· == 1) (fget_setLink_other _ l 0 hcs hc 0 0)).trans hbit

-- Training ends.

/-- A link that can end its training. -/
def linkTrains (s : Chip) (l : Nat) : Prop :=
  fbit s (aFL_CTL l) 0 = true ∧ linkPowered s l = true ∧ (linkState s l = 1 ∨ linkState s l = 4)

theorem when_linkTrains {s : Chip} {l : Nat} (h : linkTrains s l) (f : Chip → Chip) :
    when (fbit s (aFL_CTL l) 0 && linkPowered s l && (linkState s l == 1 || linkState s l == 4)) s f = f s := by
  obtain ⟨hc, hp, hst⟩ := h
  unfold when
  rw [if_pos (by simp [hc, hp, hst])]

theorem exec_linkUp {s : State} {l : Nat} (hl : l < 32) (h : linkTrains s.chip l) (failed major minor : Nat) :
    exec (.linkUp l failed major minor) s = .next { s with chip := linkTrained s.chip l failed major minor } :=
  (linkCmd (f := cmdLinkUp l failed major minor) hl rfl).trans (by rw [when_linkTrains h])

theorem exec_linkTrainTimeout {s : State} {l : Nat} (hl : l < 32) (h : linkTrains s.chip l) :
    exec (.linkTrainTimeout l) s =
      .next { s with chip := linkEvent (setLink (fsat s.chip (aFL_ERR l) 15 0 1) l 4) l 0x3001 } :=
  (linkCmd (f := cmdLinkTrainTimeout l) hl rfl).trans (by rw [when_linkTrains h])

/-- The wavelengths that do not work after a training. -/
def badAfter (s : Chip) (l failed : Nat) : Nat := Nat.lor (fget s (aFL_STATUS l) 40 32) (failed % 2 ^ 9)

theorem badAfter_lt (s : Chip) (l failed : Nat) : badAfter s l failed < 2 ^ 9 :=
  Nat.or_lt_two_pow (fget_lt s _ 40 32) (Nat.mod_lt _ (by omega))

theorem fget_marked (s : Chip) (l : Nat) {bad : Nat} (h : bad < 2 ^ 9) :
    fget (fset s (aFL_STATUS l) 40 32 bad) (aFL_STATUS l) 40 32 = bad :=
  (fget_fset_same _ _ _ _ _ (by omega) (by omega)).trans (Nat.mod_eq_of_lt h)

/-- The link's status with the wavelengths, the spare and the version of a training. -/
def agreedLink (s : Chip) (l failed minor : Nat) : Chip :=
  let k := aFL_STATUS l
  let bad := badAfter s l failed
  let s1 := fset s k 40 32 bad
  fset (if bad == 0 then s1 else fset s1 k 31 28 0xF) k 23 16 (0x10 + min 0 minor)

theorem agreedLink_spec (s : Chip) (l failed minor : Nat) :
    fget (agreedLink s l failed minor) (aFL_STATUS l) 40 32 = badAfter s l failed ∧ onlyBar [aFL_STATUS l] s (agreedLink s l failed minor) := by
  have hk : aFL_STATUS l ∈ [aFL_STATUS l] := List.mem_singleton_self _
  have h1 := fget_marked s l (badAfter_lt s l failed)
  have hb1 := onlyBar_fset s 40 32 (badAfter s l failed) hk
  unfold agreedLink
  dsimp only
  generalize fset s (aFL_STATUS l) 40 32 (badAfter s l failed) = s1 at *
  refine ⟨(fget_fset_field _ _ _ _ _ _ _ (by omega) (by omega) (by omega) (by omega)).trans ?_,
    onlyBar_trans (onlyBar_trans hb1 (onlyBar_ite (onlyBar_refl _ _) (onlyBar_fset _ _ _ _ hk))) (onlyBar_fset _ _ _ _ hk)⟩
  split
  · exact h1
  · exact (fget_fset_field _ _ _ _ _ _ _ (by omega) (by omega) (by omega) (by omega)).trans h1

/-- The link as it begins its service: no retry counted, not moved. -/
def freshLink (l : Nat) (f : Fab) : Fab := { f with retries := tset (fun _ => 0) l 0 f.retries, moved := tmark f.moved l false }

theorem freshLink_eq (l : Nat) :
    freshLink l = fun f => { f with retries := tset (fun _ => 0) l 0 f.retries, moved := tmark f.moved l false } := rfl

theorem reqs_freshLink (l : Nat) (f : Fab) : (freshLink l f).reqs = f.reqs := rfl

/-- The link before its rate is chosen. -/
def trainedLink (s : Chip) (l failed minor : Nat) : Chip :=
  let s3 := fabMod (agreedLink s l failed minor) (freshLink l)
  if tmem s.fab.moved l then linkEvent s3 l 0x3007 else s3

theorem trainedLink_spec (s : Chip) (l failed minor : Nat) :
    fget (trainedLink s l failed minor) (aFL_STATUS l) 40 32 = badAfter s l failed ∧
      (trainedLink s l failed minor).fab.reqs = s.fab.reqs := by
  obtain ⟨hbad, hb⟩ := agreedLink_spec s l failed minor
  obtain ⟨b, hbe⟩ : ∃ b, b = fabMod (agreedLink s l failed minor) (freshLink l) := exists_eq
  have hf : b.fab.reqs = s.fab.reqs := by rw [hbe, fabMod, reqs_freshLink, fab_of_onlyBar hb]
  have hg : fget b (aFL_STATUS l) 40 32 = badAfter s l failed := by rw [hbe, fget_of_barGet (barGet_fabMod _ _ _), hbad]
  have hu : trainedLink s l failed minor = if tmem s.fab.moved l then linkEvent b l 0x3007 else b := by
    simp only [trainedLink, hbe]
  rw [hu]
  split
  · exact ⟨(fget_linkEvent_field b l _ (by omega) (by omega)).trans hg, (congrArg Fab.reqs (fab_linkEvent b l _)).trans hf⟩
  · exact ⟨hg, hf⟩

theorem linkTrained_eq (s : Chip) (l failed major minor : Nat) : linkTrained s l failed major minor =
    if major != 1 then linkEvent (setLink (fset s (aFL_STATUS l) 40 32 (badAfter s l failed)) l 4) l 0x3004
    else if 9 - wlCount (badAfter s l failed) < 4 then
      linkEvent (setLink (fset s (aFL_STATUS l) 40 32 (badAfter s l failed)) l 4) l 0x3001
    else if 8 ≤ 9 - wlCount (badAfter s l failed) then setLink (trainedLink s l failed minor) l 2
    else linkEvent (setLink (trainedLink s l failed minor) l 3) l 0x3003 := by
  simp only [linkTrained, trainedLink, agreedLink, badAfter, freshLink_eq] <;> rfl

theorem linkTrained_spec (s : Chip) (l failed major minor : Nat) :
    let bad := badAfter s l failed
    let state := if major ≠ 1 ∨ 9 - wlCount bad < 4 then 4 else if 8 ≤ 9 - wlCount bad then 2 else 3
    let u := linkTrained s l failed major minor
    linkState u l = state ∧ fget u (aFL_STATUS l) 40 32 = bad ∧ u.fab.reqs = s.fab.reqs ∧
      (major ≠ 1 → fget u (aFL_STATUS l) 63 48 = 0x3004) ∧
      (major = 1 → 9 - wlCount bad < 4 → fget u (aFL_STATUS l) 63 48 = 0x3001) ∧
      (state = 3 → fget u (aFL_STATUS l) 63 48 = 0x3003) := by
  intro bad state u
  have hmark := fget_marked s l (badAfter_lt s l failed)
  obtain ⟨htrain, hreqs⟩ := trainedLink_spec s l failed minor
  have hkept (code : Nat) : (linkEvent (setLink (fset s (aFL_STATUS l) 40 32 bad) l 4) l code).fab.reqs = s.fab.reqs := by
    rw [fab_linkEvent, fab_setLink, fab_of_onlyBar (onlyBar_fset s 40 32 bad (List.mem_singleton_self (aFL_STATUS l)))]
  have hkept3 : (linkEvent (setLink (trainedLink s l failed minor) l 3) l 0x3003).fab.reqs = s.fab.reqs := by
    rw [fab_linkEvent, fab_setLink, hreqs]
  by_cases hm : major ≠ 1
  · obtain ⟨hst, hcode, hf⟩ := linkEvent_setLink (fset s (aFL_STATUS l) 40 32 bad) l (st := 4) (code := 0x3004) (by omega) (by omega)
    have hu : u = linkEvent (setLink (fset s (aFL_STATUS l) 40 32 bad) l 4) l 0x3004 := by
      unfold u
      rw [linkTrained_eq, if_pos (bne_iff_ne.2 hm)]
    have hs : state = 4 := if_pos (.inl hm)
    rw [hu, hs]
    exact ⟨hst, (hf 40 32 (by omega) (by omega)).trans hmark, hkept _,
      fun _ => hcode, fun e => absurd e hm, fun e => nomatch e⟩
  · by_cases hg : 9 - wlCount bad < 4
    · obtain ⟨hst, hcode, hf⟩ := linkEvent_setLink (fset s (aFL_STATUS l) 40 32 bad) l (st := 4) (code := 0x3001) (by omega) (by omega)
      have hu : u = linkEvent (setLink (fset s (aFL_STATUS l) 40 32 bad) l 4) l 0x3001 := by
        unfold u
        rw [linkTrained_eq, if_neg (fun e => hm (bne_iff_ne.1 e)), if_pos hg]
      have hs : state = 4 := if_pos (.inr hg)
      rw [hu, hs]
      exact ⟨hst, (hf 40 32 (by omega) (by omega)).trans hmark, hkept _,
        fun e => absurd e hm, fun _ _ => hcode, fun e => nomatch e⟩
    · have hs : state = if 8 ≤ 9 - wlCount bad then 2 else 3 := if_neg (not_or.2 ⟨hm, hg⟩)
      by_cases h8 : 8 ≤ 9 - wlCount bad
      · have hu : u = setLink (trainedLink s l failed minor) l 2 := by
          unfold u
          rw [linkTrained_eq, if_neg (fun e => hm (bne_iff_ne.1 e)), if_neg hg, if_pos h8]
        rw [if_pos h8] at hs
        rw [hu, hs]
        exact ⟨linkState_setLink _ l (by omega), (fget_setLink_field _ l 2 (by omega) (by omega)).trans htrain,
          (congrArg Fab.reqs (fab_setLink _ l 2)).trans hreqs, fun e => absurd e hm, fun _ e => absurd e hg, fun e => nomatch e⟩
      · obtain ⟨hst, hcode, hf⟩ := linkEvent_setLink (trainedLink s l failed minor) l (st := 3) (code := 0x3003) (by omega) (by omega)
        have hu : u = linkEvent (setLink (trainedLink s l failed minor) l 3) l 0x3003 := by
          unfold u
          rw [linkTrained_eq, if_neg (fun e => hm (bne_iff_ne.1 e)), if_neg hg, if_neg h8]
        rw [if_neg h8] at hs
        rw [hu, hs]
        exact ⟨hst, (hf 40 32 (by omega) (by omega)).trans htrain,
          hkept3,
          fun e => absurd e hm, fun _ e => absurd e hg, fun _ => hcode⟩

theorem linksTrain : Clauses.LinksTrain := by
  intro s l failed major minor hl
  obtain ⟨hs, he, hc, hfc, hes, hcs, hfs, hfe⟩ := linkKeys l
  refine ⟨fun hoff hp => ?_, fun hup => ?_, fun hon hp => ?_, fun ht => ?_, fun ht => ?_⟩
  · obtain ⟨hb, hbit, hst⟩ := linkEnable_on hoff hp
    exact ⟨_, exec_linkEnable s hl true, regsOnly_of_onlyBar hb, hbit, hst⟩
  · obtain ⟨hb, hbit, hst⟩ := linkEnable_off hup
    exact ⟨_, exec_linkEnable s hl false, regsOnly_of_onlyBar hb, hbit, hst⟩
  · obtain ⟨hst, hcount, -, hb⟩ := retrainLink_spec s.chip l
    have hexec := exec_linkRetrain s hl
    rw [linkRetrain, hon, hp, Bool.and_self, if_pos rfl] at hexec
    exact ⟨_, hexec, regsOnly_of_onlyBar hb, hst, hcount⟩
  · exact ⟨_, exec_linkUp hl ht failed major minor, linkTrained_spec s.chip l failed major minor⟩
  · obtain ⟨hst, hcode, -⟩ := linkEvent_setLink (fsat s.chip (aFL_ERR l) 15 0 1) l (st := 4) (code := 0x3001) (by omega) (by omega)
    refine ⟨_, exec_linkTrainTimeout hl ht, hst, hcode, fget_linkEvent_fabric _ l _, ?_, ?_⟩
    · exact (fget_linkEvent_other _ l _ hes he _ _).trans ((fget_setLink_other _ l 4 hes he _ _).trans
        (fget_fsat_same _ _ _ _ _ (by omega) (by omega)))
    · dsimp only
      rw [irqs_linkEvent, irqs_setLink, fget_setLink_other _ l 4 hfs hfc, fget_fsat_other _ _ _ _ _ _ hfe,
        irqs_of_onlyBar (onlyBar_fsat s.chip 15 0 1 (List.mem_singleton_self (aFL_ERR l)))]

end Sys2Proof.Proofs
end

section
/-! SUPPORT. Fabric links: frames, wavelengths, fibres and the spare (O50). -/

namespace Sys2Proof.Proofs

open Sys2Proof.Machine

-- Frames.

/-- The retries in a row of a link, as they are set. -/
def retried (l n : Nat) (s : Chip) : Chip := fabMod s (fun f => { f with retries := tset (fun _ => 0) l n f.retries })

theorem retries_retried (l n : Nat) (s : Chip) : tget (fun _ => 0) (retried l n s).fab.retries l = n :=
  tget_tset_same _ _ _ _

theorem fget_retried (l n : Nat) (s : Chip) (k hi lo : Nat) : fget (retried l n s) k hi lo = fget s k hi lo := rfl

/-- A frame whose check fails, before the link's retries are judged. -/
def badFrame (l : Nat) (s : Chip) : Chip := fabCode (noteCE (fsat s (aFL_ERR l) 47 32 1)) 0x3005

theorem fget_noteCE (s : Chip) (k hi lo : Nat) : fget (noteCE s) k hi lo = fget s k hi lo := rfl

theorem fget_badFrame_other (l : Nat) (s : Chip) {k : Nat} (h : k ≠ aFAB_STATUS) (g : k ≠ aFL_ERR l) (hi lo : Nat) :
    fget (badFrame l s) k hi lo = fget s k hi lo := by
  rw [badFrame, fabCode, fget_fset_other _ _ _ _ _ _ h, fget_noteCE, fget_fsat_other s _ _ _ _ _ g]

theorem badFrame_spec (l : Nat) (s : Chip) : fget (badFrame l s) aFAB_STATUS 63 48 = 0x3005 ∧
    fget (badFrame l s) (aFL_ERR l) 47 32 = min (fget s (aFL_ERR l) 47 32 + 1) (2 ^ 16 - 1) ∧
    fget (badFrame l s) (aFL_ERR l) 15 0 = fget s (aFL_ERR l) 15 0 ∧ linkState (badFrame l s) l = linkState s l := by
  obtain ⟨hs, he, -, -, hes, -⟩ := linkKeys l
  refine ⟨?_, ?_, ?_, fget_badFrame_other l s hs (Ne.symm hes) _ _⟩
  · rw [badFrame, fabCode, fget_fset_same _ _ _ _ _ (by omega) (by omega)] <;> rfl
  · rw [badFrame, fabCode, fget_fset_other _ _ _ _ _ _ he, fget_noteCE, fget_fsat_same s _ _ _ _ (by omega) (by omega)]
  · rw [badFrame, fabCode, fget_fset_other _ _ _ _ _ _ he, fget_noteCE,
      fget_fsat_field s _ _ _ _ _ _ (by omega) (by omega) (by omega) (by omega)]

/-- What a frame does to a link that is up (R559). -/
def frameSeen (l : Nat) (check : FrameCheck) (s : Chip) : Chip :=
  match check with
  | .clean => retried l 0 s
  | .corrected => retried l 0 (fsat s (aFL_ERR l) 63 48 1)
  | .retryRequest n => fsat s (aFL_ERR l) 47 32 (min n 512)
  | .crcBad =>
    let n := tget (fun _ => 0) s.fab.retries l + 1
    if n < 8 then retried l n (badFrame l s) else retrainLink (linkEvent (retried l 0 (badFrame l s)) l 0x3006) l

theorem cmdFabricFrameReceived_eq (l : Nat) (check : FrameCheck) (s : Chip) :
    cmdFabricFrameReceived l check s = onLink l s (fun x => when (linkIsUp x l) x (frameSeen l check)) := by
  cases check <;> rfl

theorem exec_fabricFrameReceived (s : State) {l : Nat} (hl : l < 32) (check : FrameCheck) :
    exec (.fabricFrameReceived l check) s = .next { s with chip := when (linkIsUp s.chip l) s.chip (frameSeen l check) } :=
  linkCmd (f := cmdFabricFrameReceived l check) (g := fun x => when (linkIsUp x l) x (frameSeen l check)) hl
    (cmdFabricFrameReceived_eq l check s.chip)

theorem frameSeen_crcBad_few {l : Nat} {s : Chip} (h : tget (fun _ => 0) s.fab.retries l < 7) :
    frameSeen l .crcBad s = retried l (tget (fun _ => 0) s.fab.retries l + 1) (badFrame l s) := by
  simp only [frameSeen]
  rw [if_pos (by omega)]

theorem frameSeen_crcBad_many {l : Nat} {s : Chip} (h : 7 ≤ tget (fun _ => 0) s.fab.retries l) :
    frameSeen l .crcBad s = retrainLink (linkEvent (retried l 0 (badFrame l s)) l 0x3006) l := by
  simp only [frameSeen]
  rw [if_neg (by omega)]

-- Wavelengths.

theorem exec_wavelengthFail (s : State) {l w : Nat} (hl : l < 32) (hw : w < 9) :
    exec (.wavelengthFail l w) s = .next { s with
      chip := when (linkIsUp s.chip l && !(fget s.chip (aFL_STATUS l) 40 32).testBit w) s.chip (fun st => failWavelength st l w) } :=
  onChip_next (f := cmdWavelengthFail l w) (by
    unfold cmdWavelengthFail
    rw [if_pos ⟨hl, hw⟩])

/-- The wavelengths that do not work once `w` has failed. -/
def badWith (s : Chip) (l w : Nat) : Nat := Nat.lor (fget s (aFL_STATUS l) 40 32) (2 ^ w)

theorem badWith_lt (s : Chip) (l : Nat) {w : Nat} (hw : w < 9) : badWith s l w < 2 ^ 9 :=
  Nat.or_lt_two_pow (fget_lt s _ 40 32) (Nat.pow_lt_pow_right (by omega) hw)

/-- The spare replaces the wavelength. -/
theorem failWavelength_spare {s : Chip} {l w : Nat} (hw : w < 9) (h : fget s (aFL_STATUS l) 31 28 ≠ 0xF) :
    onlyBar [aFL_STATUS l, aFAB_STATUS] s (failWavelength s l w) ∧
      fget (failWavelength s l w) (aFL_STATUS l) 40 32 = badWith s l w ∧
      fget (failWavelength s l w) (aFL_STATUS l) 31 28 = 0xF ∧ linkState (failWavelength s l w) l = linkState s l := by
  have hmark := fget_marked s l (badWith_lt s l hw)
  have hb := onlyBar_fset (ks := [aFL_STATUS l, aFAB_STATUS]) s 40 32 (badWith s l w) (List.mem_cons_self (a := aFL_STATUS l))
  have hst : linkState (fset s (aFL_STATUS l) 40 32 (badWith s l w)) l = linkState s l :=
    fget_fset_field _ _ _ _ _ _ _ (by omega) (by omega) (by omega) (by omega)
  have hu : failWavelength s l w =
      countLinks (fset (fset s (aFL_STATUS l) 40 32 (badWith s l w)) (aFL_STATUS l) 31 28 0xF) := by
    simp only [failWavelength, badWith]
    rw [if_pos (bne_iff_ne.2 h)]
  rw [hu]
  generalize fset s (aFL_STATUS l) 40 32 (badWith s l w) = v at *
  have hk := (linkKeys l).1
  refine ⟨onlyBar_trans hb (onlyBar_trans (onlyBar_fset _ _ _ _ (by simp)) (onlyBar_countLinks _ (by simp))), ?_, ?_, ?_⟩
  · exact (fget_countLinks _ hk _ _).trans ((fget_fset_field _ _ _ _ _ _ _ (by omega) (by omega) (by omega) (by omega)).trans hmark)
  · exact (fget_countLinks _ hk _ _).trans (fget_fset_same _ _ _ _ _ (by omega) (by omega))
  · exact (fget_countLinks _ hk _ _).trans ((fget_fset_field _ _ _ _ _ _ _ (by omega) (by omega) (by omega) (by omega)).trans hst)

/-- With no spare a link at full rate goes on at half rate. -/
theorem failWavelength_half {s : Chip} {l w : Nat} (hw : w < 9) (h : fget s (aFL_STATUS l) 31 28 = 0xF)
    (hgood : 4 ≤ 9 - wlCount (badWith s l w)) (hfull : linkState s l = 2) :
    linkState (failWavelength s l w) l = 3 ∧ fget (failWavelength s l w) (aFL_STATUS l) 63 48 = 0x3003 ∧
      fget (failWavelength s l w) (aFL_STATUS l) 40 32 = badWith s l w := by
  have hu : failWavelength s l w = linkEvent (setLink (fset s (aFL_STATUS l) 40 32 (badWith s l w)) l 3) l 0x3003 := by
    simp only [failWavelength, ← badWith.eq_1]
    rw [if_neg (fun e => bne_iff_ne.1 e h), if_neg (Nat.not_lt.2 hgood), if_pos (beq_iff_eq.2 hfull)]
  obtain ⟨hst, hcode, hf⟩ := linkEvent_setLink (fset s (aFL_STATUS l) 40 32 (badWith s l w)) l (st := 3) (code := 0x3003) (by omega) (by omega)
  rw [hu]
  exact ⟨hst, hcode, (hf 40 32 (by omega) (by omega)).trans (fget_marked s l (badWith_lt s l hw))⟩

-- The spare after a calibration.

theorem exec_opticalCalibrationComplete (s : State) {l : Nat} (hl : l < 32) :
    exec (.opticalCalibrationComplete l) s =
      .next { s with chip := when (linkIsUp s.chip l && fget s.chip (aFL_STATUS l) 31 28 != 0xF) s.chip (fun st =>
        let ws := (List.range 9).filter (fun w => w != fget s.chip (aFL_STATUS l) 31 28 && !(fget st (aFL_STATUS l) 40 32).testBit w)
        let r := freeBelow st ws.length
        fset r.2 (aFL_STATUS l) 31 28 (ws.getD r.1 (fget s.chip (aFL_STATUS l) 31 28))) } :=
  linkCmd (f := cmdOpticalCalibrationComplete l) (g := fun s0 =>
    let k := aFL_STATUS l
    let spare := fget s0 k 31 28
    when (linkIsUp s0 l && spare != 0xF) s0 (fun st =>
      let ws := (List.range 9).filter (fun w => w != spare && !(fget st k 40 32).testBit w)
      let r := freeBelow st ws.length
      fset r.2 k 31 28 (ws.getD r.1 spare))) hl rfl

theorem getD_mem_of_lt {ws : List Nat} {i d : Nat} (h : i < ws.length) : ws.getD i d ∈ ws := by
  rw [List.getD_eq_getElem _ _ h]
  exact List.getElem_mem h

-- Fibres.

theorem exec_fibreFail (s : State) {l : Nat} (hl : l < 32) (b : Bool) :
    exec (.fibreFail l b) s = .next { s with chip := when (linkState s.chip l != 0) s.chip (fun st => failFibre st l b) } :=
  linkCmd (f := cmdFibreFail l b) (g := fun s0 => when (linkState s0 l != 0) s0 (fun st => failFibre st l b)) hl rfl

/-- The spare fibre that the link moves to. -/
def onSpareFibre (s : Chip) (l i : Nat) : Chip :=
  fabMod s (fun f => { f with fibres := tmark f.fibres (2 * (l / 8) + i) true, moved := tmark f.moved l true })

theorem onSpareFibre_fab (s : Chip) (l i : Nat) : (onSpareFibre s l i).fab =
    { s.fab with fibres := tmark s.fab.fibres (2 * (l / 8) + i) true, moved := tmark s.fab.moved l true } := rfl

theorem fab_onSpareFibre (s : Chip) (l i : Nat) :
    tmem (onSpareFibre s l i).fab.fibres (2 * (l / 8) + i) = true ∧ (onSpareFibre s l i).fab.reqs = s.fab.reqs :=
  ⟨by rw [onSpareFibre_fab, tmem_tmark_same], by rw [onSpareFibre_fab]⟩

theorem failFibre_spare {s : Chip} {l i : Nat} (hc : fbit s (aFL_CTL l) 1 = true)
    (hi : (List.range 2).find? (fun j => !tmem s.fab.fibres (2 * (l / 8) + j)) = some i) :
    failFibre s l true = retrainLink (fset (onSpareFibre s l i) (aFL_STATUS l) 27 24 (i + 1)) l := by
  simp only [failFibre, hi, hc, Bool.and_self, if_pos, onSpareFibre]

/-- A frame that passes its check, or that is corrected. -/
theorem goodFrames {s : State} {l : Nat} (hl : l < 32) (hup : linkIsUp s.chip l = true) :
    exec (.fabricFrameReceived l .clean) s = .next { s with chip := retried l 0 s.chip } ∧
      exec (.fabricFrameReceived l .corrected) s = .next { s with chip := retried l 0 (fsat s.chip (aFL_ERR l) 63 48 1) } := by
  have hf (c : FrameCheck) : exec (.fabricFrameReceived l c) s = .next { s with chip := frameSeen l c s.chip } := by
    rw [exec_fabricFrameReceived s hl c, hup, when, if_pos rfl]
  exact ⟨by rw [hf, frameSeen], by rw [hf, frameSeen]⟩

/-- A frame whose check fails. -/
theorem badFrames {s : State} {l : Nat} (hl : l < 32) (hup : linkIsUp s.chip l = true) :
    exec (.fabricFrameReceived l .crcBad) s = .next { s with
      chip := if tget (fun _ => 0) s.chip.fab.retries l < 7 then retried l (tget (fun _ => 0) s.chip.fab.retries l + 1) (badFrame l s.chip)
        else retrainLink (linkEvent (retried l 0 (badFrame l s.chip)) l 0x3006) l } := by
  rw [exec_fabricFrameReceived s hl, hup, when, if_pos rfl]
  split
  · next h => rw [frameSeen_crcBad_few h]
  · next h => rw [frameSeen_crcBad_many (Nat.not_lt.1 h)]

/-- A retry is counted while fewer than eight stand in a row. -/
theorem retryCounted (s : Chip) (l : Nat) :
    let u := retried l (tget (fun _ => 0) s.fab.retries l + 1) (badFrame l s)
    fget u (aFL_ERR l) 47 32 = min (fget s (aFL_ERR l) 47 32 + 1) (2 ^ 16 - 1) ∧
      tget (fun _ => 0) u.fab.retries l = tget (fun _ => 0) s.fab.retries l + 1 ∧
      linkState u l = linkState s l ∧ fget u aFAB_STATUS 63 48 = 0x3005 := by
  obtain ⟨hcode, hcount, -, hst⟩ := badFrame_spec l s
  obtain ⟨b, hb⟩ : ∃ b, b = badFrame l s := exists_eq
  rw [← hb] at hcode hcount hst ⊢
  exact ⟨(fget_retried l _ b _ 47 32).trans hcount, retries_retried l _ b, (fget_retried l _ b _ 47 44).trans hst,
    (fget_retried l _ b _ 63 48).trans hcode⟩

/-- The eighth retry in a row starts a training. -/
theorem eighthRetry (s : Chip) (l : Nat) :
    let u := retrainLink (linkEvent (retried l 0 (badFrame l s)) l 0x3006) l
    linkState u l = 1 ∧ fget u (aFL_STATUS l) 63 48 = 0x3006 ∧
      fget u (aFL_ERR l) 15 0 = min (fget s (aFL_ERR l) 15 0 + 1) (2 ^ 16 - 1) := by
  obtain ⟨-, he, -, -, hes, -⟩ := linkKeys l
  obtain ⟨-, -, herr, -⟩ := badFrame_spec l s
  have herr' : fget (linkEvent (retried l 0 (badFrame l s)) l 0x3006) (aFL_ERR l) 15 0 = fget s (aFL_ERR l) 15 0 := by
    rw [fget_linkEvent_other _ l _ hes he, fget_retried, herr]
  have hcode := fget_linkEvent_code (retried l 0 (badFrame l s)) l 0x3006
  obtain ⟨x, hx⟩ : ∃ x, x = linkEvent (retried l 0 (badFrame l s)) l 0x3006 := exists_eq
  rw [← hx] at herr' hcode ⊢
  obtain ⟨hst, hcount, hfield, -⟩ := retrainLink_spec x l
  exact ⟨hst, (hfield 63 48 (by omega) (by omega)).trans hcode, hcount.trans (by rw [herr'])⟩

theorem corrected_spec (s : Chip) (l : Nat) :
    let u := retried l 0 (fsat s (aFL_ERR l) 63 48 1)
    fget u (aFL_ERR l) 63 48 = min (fget s (aFL_ERR l) 63 48 + 1) (2 ^ 16 - 1) ∧ u.fab.reqs = s.fab.reqs ∧
      tget (fun _ => 0) u.fab.retries l = 0 := by
  have hcount : fget (fsat s (aFL_ERR l) 63 48 1) (aFL_ERR l) 63 48 = min (fget s (aFL_ERR l) 63 48 + 1) (2 ^ 16 - 1) :=
    fget_fsat_same s _ _ _ _ (by omega) (by omega)
  have hfab := fab_of_onlyBar (onlyBar_fsat s 63 48 1 (List.mem_singleton_self (aFL_ERR l)))
  obtain ⟨b, hb⟩ : ∃ b, b = fsat s (aFL_ERR l) 63 48 1 := exists_eq
  rw [← hb] at hcount hfab ⊢
  refine ⟨(fget_retried l 0 b _ 63 48).trans hcount, ?_, retries_retried l 0 b⟩
  simp only [retried, fabMod_fab, hfab]

/-- A wavelength that still worked fails on a link that is up. -/
theorem workingWavelengthFails {s : State} {l w : Nat} (hl : l < 32) (hw : w < 9) (hup : linkIsUp s.chip l = true)
    (hgood : (fget s.chip (aFL_STATUS l) 40 32).testBit w = false) :
    exec (.wavelengthFail l w) s = .next { s with chip := failWavelength s.chip l w } := by
  rw [exec_wavelengthFail s hl hw, hup, hgood, Bool.not_false, Bool.and_self, when, if_pos rfl]

/-- A calibration makes a displaced wavelength the new spare. -/
theorem calibrationMoves {s : State} {l : Nat} (hl : l < 32) (hup : linkIsUp s.chip l = true) {ws : List Nat}
    (hws : ws = (List.range 9).filter (fun x => x != fget s.chip (aFL_STATUS l) 31 28 && !(fget s.chip (aFL_STATUS l) 40 32).testBit x))
    (hne : ws ≠ []) (hspare : fget s.chip (aFL_STATUS l) 31 28 ≠ 0xF) :
    ∃ t, exec (.opticalCalibrationComplete l) s = .next t ∧ fget t.chip (aFL_STATUS l) 31 28 ∈ ws ∧
      chipOnly [aFL_STATUS l] s t (fun c => { c with freeCtr := t.chip.freeCtr }) ∧ linkState t.chip l = linkState s.chip l := by
  have ho := exec_opticalCalibrationComplete s hl
  simp only [hup, bne_iff_ne.2 hspare, Bool.and_self, when, if_true, ← hws] at ho
  have hmem : ws.getD (freeBelow s.chip ws.length).1 (fget s.chip (aFL_STATUS l) 31 28) ∈ ws :=
    getD_mem_of_lt (Nat.mod_lt _ (List.length_pos_iff.2 hne))
  have hsub : ∀ x ∈ ws, x < 9 := fun x hx => List.mem_range.1 (List.mem_filter.1 (hws ▸ hx)).1
  generalize ws.getD (freeBelow s.chip ws.length).1 (fget s.chip (aFL_STATUS l) 31 28) = v at *
  have hv := hsub v hmem
  have hfield : fget (freeBelow s.chip ws.length).2 (aFL_STATUS l) 47 44 = fget s.chip (aFL_STATUS l) 47 44 := rfl
  have hframe : (freeBelow s.chip ws.length).2 = { s.chip with freeCtr := (freeBelow s.chip ws.length).2.freeCtr } := rfl
  have hbar (k : Nat) : barGet (freeBelow s.chip ws.length).2 k = barGet s.chip k := rfl
  generalize (freeBelow s.chip ws.length).2 = x at *
  have hb := onlyBar_fset x 31 28 v (List.mem_singleton_self (aFL_STATUS l))
  refine ⟨_, ho, ?_, ⟨?_, fun k n => (hb.2 k n).trans (hbar k)⟩, ?_⟩
  · rw [fget_fset_same _ _ _ _ _ (by omega) (by omega), Nat.mod_eq_of_lt (by omega)]
    exact hmem
  · rw [hframe]
    rfl
  · exact (fget_fset_field _ _ _ _ _ _ _ (by omega) (by omega) (by omega) (by omega)).trans hfield

/-- A fibre's spare takes its links over, and they train again. -/
theorem spareFibre_spec (s : Chip) (l : Nat) {i : Nat} (hi : i < 2) :
    let u := retrainLink (fset (onSpareFibre s l i) (aFL_STATUS l) 27 24 (i + 1)) l
    linkState u l = 1 ∧ tmem u.fab.fibres (2 * (l / 8) + i) = true ∧ fget u (aFL_STATUS l) 27 24 = i + 1 ∧
      fget u (aFL_ERR l) 15 0 = min (fget s (aFL_ERR l) 15 0 + 1) (2 ^ 16 - 1) ∧ u.fab.reqs = s.fab.reqs := by
  obtain ⟨-, -, -, -, hes, -⟩ := linkKeys l
  obtain ⟨hfib, hreqs⟩ := fab_onSpareFibre s l i
  have hbase : fget (onSpareFibre s l i) (aFL_ERR l) 15 0 = fget s (aFL_ERR l) 15 0 :=
    fget_of_barGet (barGet_fabMod _ _ _) _ _
  generalize onSpareFibre s l i = v at *
  have hnum : fget (fset v (aFL_STATUS l) 27 24 (i + 1)) (aFL_STATUS l) 27 24 = i + 1 :=
    (fget_fset_same _ _ _ _ _ (by omega) (by omega)).trans (Nat.mod_eq_of_lt (by omega))
  have herr : fget (fset v (aFL_STATUS l) 27 24 (i + 1)) (aFL_ERR l) 15 0 = fget s (aFL_ERR l) 15 0 :=
    (fget_fset_other _ _ _ _ _ _ hes).trans hbase
  have hfab := fab_of_onlyBar (onlyBar_fset v 27 24 (i + 1) (List.mem_singleton_self (aFL_STATUS l)))
  generalize fset v (aFL_STATUS l) 27 24 (i + 1) = x at *
  obtain ⟨hst, hcount, hfield, hb⟩ := retrainLink_spec x l
  have hfr := (fab_of_onlyBar hb).trans hfab
  rw [← hfr] at hfib hreqs
  exact ⟨hst, hfib, (hfield 27 24 (by omega) (by omega)).trans hnum, hcount.trans (by rw [herr]), hreqs⟩

/-- A link that is not up takes no frame, wavelength failure, loss or calibration. -/
theorem downLinkStays {s : State} {l w : Nat} (hl : l < 32) (hw : w < 9) (hdown : linkIsUp s.chip l = false) (check : FrameCheck) :
    exec (.fabricFrameReceived l check) s = .next s ∧ exec (.wavelengthFail l w) s = .next s ∧
      exec (.fabricLinkDown l) s = .next s ∧ exec (.opticalCalibrationComplete l) s = .next s := by
  have hf := exec_fabricFrameReceived s hl check
  have hx := exec_wavelengthFail s hl hw
  have hd : exec (.fabricLinkDown l) s = .next { s with chip := when (linkIsUp s.chip l) s.chip (fun st => dropLink st l 4) } :=
    linkCmd (f := cmdFabricLinkDown l) (g := fun s0 => when (linkIsUp s0 l) s0 (fun st => dropLink st l 4)) hl rfl
  have ho := exec_opticalCalibrationComplete s hl
  simp only [hdown, Bool.false_and, when, Bool.false_eq_true, if_false] at hf hx hd ho
  exact ⟨hf, hx, hd, ho⟩

theorem linksWear : Clauses.LinksWear := by
  intro s l w check hl hw
  refine ⟨fun hdown => downLinkStays hl hw hdown check, fun hup => ?_, fun h0 b => ?_, fun h0 hc i hi => ?_⟩
  · obtain ⟨hclean, hcorrected⟩ := goodFrames hl hup
    have hbad := badFrames hl hup
    refine ⟨⟨_, hclean, rfl⟩, ⟨_, hcorrected, corrected_spec s.chip l⟩, fun hfew => ?_, fun hmany => ?_, fun hgood hspare => ?_,
      fun hgood hnone hleft hfull => ?_, fun ws hws hne hspare => calibrationMoves hl hup hws hne hspare⟩
    · rw [if_pos hfew] at hbad
      exact ⟨_, hbad, retryCounted s.chip l⟩
    · rw [if_neg (Nat.not_lt.2 hmany)] at hbad
      exact ⟨_, hbad, eighthRetry s.chip l⟩
    · obtain ⟨hb, hrest⟩ := failWavelength_spare hw hspare
      exact ⟨_, workingWavelengthFails hl hw hup hgood, regsOnly_of_onlyBar hb, hrest⟩
    · exact ⟨_, workingWavelengthFails hl hw hup hgood, failWavelength_half hw hnone hleft hfull⟩
  · have hx := exec_fibreFail s hl b
    rw [h0] at hx
    exact hx
  · have hx := exec_fibreFail s hl true
    simp only [bne_iff_ne.2 h0, when, if_true, failFibre_spare hc hi] at hx
    exact ⟨_, hx, spareFibre_spec s.chip l (List.mem_range.1 (List.mem_of_find?_eq_some hi))⟩

/-- Settles O50: training, wear and loss of a link change its own registers and the counts of FAB_STATUS, with the codes
and the rate that the working wavelengths leave. -/
theorem fabricLinks : Obligations.FabricLinks := by
  unfold Obligations.FabricLinks
  exact ⟨linksTrain, linksWear⟩

end Sys2Proof.Proofs
end

section
/-! SUPPORT. A held result wider than 32 bits, drained by an element-wise operation (O17). -/

namespace Sys2Proof.Proofs

open Sys2Proof.Machine

/-- The greater of each element and a word of the banks, drained to the line at 64. -/
def drainMax : EngOp := { kind := .mew, strand := 0, w := [0, 2 ^ 22 + 64], mode := 3 }

/-- One element of a root node of FP32 values, of 33 bits. -/
def wideEntry : StackEnt := ⟨⟨0, 0, 0, 0, 0⟩, 1, 1, [⟨2 ^ 32 + 0x3F800000, false⟩], false⟩

/-- Tile 0 is open, with `drainMax` next in its matrix queue and `wideEntry` on its stack. -/
def wideResult : State := { pending := [], chip := { ({} : Chip) with
  bar := [(aSEC_STATUS, 4#64), (aPWR_DOMAIN, BitVec.ofNat 64 (2 ^ 50 - 1)),
    (aTILE_CTL 0, BitVec.ofNat 64 (0xFF * 2 ^ 32)), (aTILE_STATUS 0, 5#64)]
  tiles := [(0, { partials := [(0, [wideEntry])], qMat := [drainMax] })] } }

theorem runs_wideResult : runsNext wideResult 0 0 drainMax .mew = true := by decide +kernel

/-- What the operation leaves: the greater of the element and the bank's +0. -/
def wideOut : List Elem := (List.range wideEntry.vals.length).map (fun k => (mewOp 3 (wideEntry.vals.getD k ⟨0, false⟩)
  ⟨leNat (bankBytes wideResult 0 (0 + 4 * (k % 1)) 4), false⟩ ⟨leNat (bankBytes wideResult 0 (0 + 4 * (k % 1)) 4), false⟩).1)

theorem wideOut_eq : wideOut = [⟨2 ^ 32 + 0x3F800000, false⟩] := by decide +kernel

theorem clean_wideResult : wordsClean wideResult 0 0 4 = true ∧ ∀ i, i < 1 → ∀ j, j < 1 → wordsClean wideResult 0 (stripeAddr 64 4 i j) 4 = true := by
  decide +kernel

/-- Refutes O17: four bytes of the banks cannot hold a value of 33 bits, which the statement lets a stack hold. -/
theorem not_matrixOperationsRun : ¬ Obligations.MatrixOperationsRun := by
  rintro ⟨-, helem⟩
  obtain ⟨hclean, hstripe⟩ := clean_wideResult
  obtain ⟨-, hdrain⟩ := helem wideResult 0 drainMax wideEntry (by omega) runs_wideResult rfl (by decide) rfl rfl (by decide)
    (fun _ => ⟨by decide, hclean⟩) (fun h => absurd h (by decide))
  obtain ⟨t, -, -, -, -, hout⟩ := hdrain (by decide) (by decide) (by decide)
    (fun v hv => by
      have hv' : v ∈ wideOut := hv
      rw [wideOut_eq, List.mem_singleton] at hv'
      rw [hv'])
    (fun i j hi hj => hstripe i hi j hj)
  have h0 : leNat (bankBytes t 0 (stripeAddr 64 4 0 0) 4) = (wideOut.getD 0 ⟨0, false⟩).v := hout 0 0 (by decide) (by decide)
  have hlt := leNat_bankBytes_lt t 0 (stripeAddr 64 4 0 0) 4
  rw [h0, wideOut_eq] at hlt
  exact absurd hlt (by decide)

end Sys2Proof.Proofs
end

section
/-! SUPPORT. A radix-2 stage whose block ends within a butterfly (O19). -/

namespace Sys2Proof.Proofs

open Sys2Proof.Machine

/-- A radix-2 stage of one sample and span 1, from the stream at 0 to the stream at 128, its twiddles at 64. -/
def shortStage : EngOp := { kind := .fr2, strand := 0, w := [0, 64 * 2 ^ 22 + 128, 0] }

/-- Tile 0 is open, with `shortStage` next in its Fuller queue; the sample after the block's only one is 1. -/
def shortBlock : State := { pending := [], chip := { ({} : Chip) with
  bar := [(aSEC_STATUS, 4#64), (aPWR_DOMAIN, BitVec.ofNat 64 (2 ^ 50 - 1)),
    (aTILE_CTL 0, BitVec.ofNat 64 (0xFF * 2 ^ 32)), (aTILE_STATUS 0, 5#64)]
  tiles := [(0, { mem := [(4, 1#8)], qFul := [shortStage] })] } }

theorem runs_shortBlock : runsNext shortBlock 0 2 shortStage .fr2 = true := by decide +kernel

theorem clean_shortBlock :
    (streamClean shortBlock 0 (fulOf shortStage).a ((fulOf shortStage).n + (fulOf shortStage).taps - 1) &&
      streamClean shortBlock 0 (fulOf shortStage).b (max (fulOf shortStage).n (3 * (fulOf shortStage).span)) &&
      streamClean shortBlock 0 (fulOf shortStage).c (fulOf shortStage).n && streamClean shortBlock 0 (fulOf shortStage).d (fulOf shortStage).n) = true ∧
    streamOk (fulOf shortStage).d (fulOf shortStage).n = true := by decide +kernel

/-- The first byte of the result. -/
def resultByte : Outcome → Nat
  | .next t => leNat (bankBytes t 0 (sampleAddr (fulOf shortStage).d 0) 4)
  | _ => 1

theorem resultByte_shortBlock : resultByte (exec (.fullerOpComplete 0) shortBlock) = 0 := by decide +kernel

/-- The sum that the statement asks for, of samples 0 and 1. -/
def butterflySum : CVal := (writeBack (fulOf shortStage).sat (14 + (fulOf shortStage).shift)
  ((radix2 (fulOf shortStage).n (fulOf shortStage).span (sampleAt shortBlock 0 (fulOf shortStage).a)
    (sampleAt shortBlock 0 (fulOf shortStage).b)).getD 0 ⟨0, 0, false⟩)).1

theorem butterflySum_eq : (ciBits butterflySum).v = 1 := by decide +kernel

/-- Refutes O19: a stage reads the samples of its block alone, so the sample after it counts as 0 in the butterfly. -/
theorem not_fullerRuns : ¬ Obligations.FullerRuns := by
  rintro ⟨hops, -⟩
  obtain ⟨hclean, hinside⟩ := clean_shortBlock
  obtain ⟨-, -, -, hstage, -⟩ := hops shortBlock 0 shortStage (by omega) hclean hinside (by decide)
  obtain ⟨t, hexec, -, -, hstream⟩ := hstage (by decide) runs_shortBlock
  have h0 := hstream 0 (by decide)
  have hnone := resultByte_shortBlock
  rw [hexec] at hnone
  have hsum : leNat (bankBytes t 0 (sampleAddr (fulOf shortStage).d 0) 4) = (ciBits butterflySum).v := h0
  rw [butterflySum_eq] at hsum
  exact absurd (hnone.symm.trans hsum) (by decide)

end Sys2Proof.Proofs
end

section
/-! SUPPORT. Operations that complete, and taps (O20). -/

namespace Sys2Proof.Proofs

open Sys2Proof.Machine

-- What an engine may touch.

/-- Only the strands and the banks of a tile, the registers `ks` and the counts differ. -/
def engineKept (ks : List Nat) (t : Nat) (s u : Chip) : Prop :=
  u = { s with
    bar := u.bar, strands := u.strands, tiles := u.tiles, ctrLive := u.ctrLive, freeCtr := u.freeCtr
    ras := { s.ras with ceNow := u.ras.ceNow } } ∧
    (∀ k, k ∉ ks → barGet u k = barGet s k) ∧
    (∀ k, k / 8 ≠ t → tget (fun _ => ({} : Strand)) u.strands k = tget (fun _ => ({} : Strand)) s.strands k) ∧
    ∀ k, k ≠ t → getTile u k = getTile s k

theorem engineOnly_of_kept {ks : List Nat} {t : Nat} {st : State} {u : Chip} (h : engineKept ks t st.chip u) :
    engineOnly ks t st { st with chip := u } := by
  obtain ⟨hu, hbar, hstrands, htiles⟩ := h
  exact ⟨congrArg (fun c => ({ st with chip := c } : State)) hu, hbar, hstrands, htiles⟩

theorem engineKept_refl (ks : List Nat) (t : Nat) (s : Chip) : engineKept ks t s s :=
  ⟨rfl, fun _ _ => rfl, fun _ _ => rfl, fun _ _ => rfl⟩

theorem engineKept_trans {ks : List Nat} {t : Nat} {s u v : Chip} (h : engineKept ks t s u) (g : engineKept ks t u v) : engineKept ks t s v := by
  obtain ⟨hu, hbar, hstrands, htiles⟩ := h
  obtain ⟨gu, gbar, gstrands, gtiles⟩ := g
  exact ⟨by rw [gu, hu], fun k n => (gbar k n).trans (hbar k n), fun k n => (gstrands k n).trans (hstrands k n),
    fun k n => (gtiles k n).trans (htiles k n)⟩

theorem engineKept_of_onlyTile (ks : List Nat) {t : Nat} {s u : Chip} (h : onlyTile t s u) : engineKept ks t s u := by
  obtain ⟨hu, htiles⟩ := h
  refine ⟨by rw [hu], fun k _ => ?_, fun k _ => ?_, htiles⟩ <;> rw [hu] <;> rfl

theorem engineKept_of_onlyStrand (ks : List Nat) {t i : Nat} {s u : Chip} (hi : i < 8) (h : onlyStrand t i s u) : engineKept ks t s u := by
  obtain ⟨hu, hstrands⟩ := h
  refine ⟨by rw [hu], fun k _ => ?_, fun k hk => hstrands k ?_, fun k _ => ?_⟩
  · rw [hu]; rfl
  · unfold skey
    omega
  · rw [hu]; rfl

-- An operation that completes (R240, R241).

/-- No strand waits for anything, so the completion takes the operation out of its queue and counts, and no more. -/
theorem finishOp_quiet {u : Chip} {t : Nat} (h : tileQuiet u t = true) (q : Nat) (o : EngOp) :
    finishOp u t q o = acArrive (popOp u t q o) t (opCnt o) :=
  retryTile_quiet (s := acArrive (popOp u t q o) t (opCnt o)) (t := t) ((tileQuiet_of_strands (u := acArrive (popOp u t q o) t (opCnt o)) (s := u) rfl t).trans h)

theorem onlyTile_modTile (s : Chip) (t : Nat) (f : Tile → Tile) : onlyTile t s (modTile s t f) := onlyTile_setTile ..

theorem finishOp_spec {u : Chip} {t : Nat} (h : tileQuiet u t = true) (q : Nat) (o : EngOp) :
    onlyTile t u (finishOp u t q o) ∧ (getTile (finishOp u t q o) t).mem = (getTile u t).mem ∧
      queueOf (getTile (finishOp u t q o) t) q = (queueOf (getTile u t) q).erase o ∧
      acGet (finishOp u t q o) t (opCnt o) = clampAc (acGet u t (opCnt o) - 1) := by
  have hv : acArrive (popOp u t q o) t (opCnt o) = acSet (popOp u t q o) t (opCnt o) (clampAc (acGet (popOp u t q o) t (opCnt o) + -1)) := rfl
  have hac : acGet (popOp u t q o) t (opCnt o) = acGet u t (opCnt o) := by
    unfold acGet
    rw [ac_popOp]
  have hqueue : ∀ (y : Tile) (v : Tab Int), queueOf { y with ac := v } q = queueOf y q := fun y v => rfl
  rw [finishOp_quiet h, hv, hac]
  refine ⟨onlyTile_trans (onlyTile_modTile ..) (onlyTile_modTile ..), ?_, ?_, ?_⟩
  · rw [acSet, getTile_modTile_same]
    exact mem_popOp ..
  · rw [acSet, getTile_modTile_same]
    exact (hqueue _ _).trans (queueOf_popOp ..)
  · rw [acGet_acSet_same]
    rfl

/-- The tile's queues and counters as they stand when an operation has used the banks. -/
def sameWork (t : Nat) (s u : Chip) : Prop :=
  (getTile u t).ac = (getTile s t).ac ∧ ∀ q, queueOf (getTile u t) q = queueOf (getTile s t) q

theorem sameWork_of_stored {t : Nat} {s u : Chip} (h : stored t s u) : sameWork t s u := by
  obtain ⟨-, ht⟩ := h
  exact ⟨by rw [ht], fun q => by rw [ht]; rfl⟩

theorem opDone_of_finish {st : State} {u v : Chip} {t q : Nat} {o : EngOp} (hwork : sameWork t st.chip u)
    (hq : queueOf (getTile v t) q = (queueOf (getTile u t) q).erase o) (hc : acGet v t (opCnt o) = clampAc (acGet u t (opCnt o) - 1)) :
    opDone st { st with chip := v } t q o := by
  obtain ⟨hac, hqueues⟩ := hwork
  refine ⟨by rw [hq, hqueues], hc.trans ?_⟩
  have : acGet u t (opCnt o) = acGet st.chip t (opCnt o) := by
    unfold acGet
    rw [hac]
  rw [this]
  rfl

-- Pieces for the collector (R280, R281).

/-- The chip as it stands when a piece has gone to the collector. -/
def tappedFrom (s : Chip) (t w : Nat) (d : TapData) : Chip :=
  { s with taps := s.taps ++ [⟨s.nextId, tileSet s t, w, d⟩], nextId := s.nextId + 1 }

theorem tileSet_of_onlyTile {t : Nat} {s u : Chip} (h : onlyTile t s u) (t' : Nat) : tileSet u t' = tileSet s t' := by
  rw [h.1]
  rfl

theorem sendPiece_of_onlyTile {t : Nat} {s u : Chip} (h : onlyTile t s u) (w : Nat) (d : TapData) :
    onlyTile t (tappedFrom s t w d) (sendPiece u t w d) := by
  have hset := tileSet_of_onlyTile h t
  obtain ⟨hu, ht⟩ := h
  refine ⟨?_, ht⟩
  unfold sendPiece tappedFrom
  rw [hset]
  rw [hu]

/-- Flags wake nobody. -/
theorem tileQuiet_raiseFlags (s : Chip) (t i fl : Nat) : tileQuiet (raiseFlags s t i fl) t = tileQuiet s t := by
  unfold tileQuiet
  congr 1
  funext j
  rw [raiseFlags, modStrand, getStrand_setStrand]
  split
  · next h =>
    have hsame : getStrand s t j = getStrand s t i := by
      unfold getStrand
      rw [h]
    rw [hsame]
  · rfl

/-- A tap that has read sound banks completes; `x` is the chip with the piece sent and the strand's flags raised. -/
theorem tap_completes {s : State} {tile w : Nat} {o : EngOp} {d : TapData} {u x v : Chip} (hquiet : tileQuiet s.chip tile = true)
    (hi : o.strand < 8) (hst : stored tile s.chip u) (hmem : (getTile u tile).mem = (getTile s.chip tile).mem)
    (hxs : onlyStrand tile o.strand (sendPiece u tile w d) x) (hxq : tileQuiet x tile = tileQuiet (sendPiece u tile w d) tile)
    (hv : v = finishOp x tile 4 o) :
    opDone s { s with chip := v } tile 4 o ∧ banksKept s { s with chip := v } tile 0 0 ∧
      v.taps = s.chip.taps ++ [⟨s.chip.nextId, tileSet s.chip tile, w, d⟩] ∧ v.nextId = s.chip.nextId + 1 ∧
      engineKept (engineRegs tile) tile (tappedFrom s.chip tile w d) v := by
  have hsent := sendPiece_of_onlyTile hst.1 w d
  have hxt : getTile x tile = getTile u tile := by
    rw [hxs.1]
    rfl
  have hquiet' : tileQuiet x tile = true :=
    hxq.trans ((tileQuiet_of_strands (s := s.chip) (strands_of_onlyTile hst.1) tile).trans hquiet)
  obtain ⟨ho, hm, hq, hc⟩ := finishOp_spec hquiet' 4 o
  rw [← hv] at ho hm hq hc
  have hkept : engineKept (engineRegs tile) tile (tappedFrom s.chip tile w d) v :=
    engineKept_trans (engineKept_of_onlyTile _ hsent) (engineKept_trans (engineKept_of_onlyStrand _ hi hxs) (engineKept_of_onlyTile _ ho))
  have hwork : sameWork tile s.chip x := by
    obtain ⟨hac, hqs⟩ := sameWork_of_stored hst
    exact ⟨by rw [hxt, hac], fun q => by rw [hxt, hqs]⟩
  refine ⟨opDone_of_finish hwork hq hc, fun a _ => ?_, ?_, ?_, hkept⟩
  · change mget (getTile v tile).mem a = _
    rw [hm, hxt, hmem]
  · rw [hkept.1, tappedFrom]
  · rw [hkept.1, tappedFrom]

/-- The frame of a tap as the statement gives it. -/
theorem engineOnly_of_tap {s : State} {tile w : Nat} {d : TapData} {v : Chip} {ks : List Nat}
    (htaps : v.taps = s.chip.taps ++ [⟨s.chip.nextId, tileSet s.chip tile, w, d⟩]) (hid : v.nextId = s.chip.nextId + 1)
    (h : engineKept ks tile (tappedFrom s.chip tile w d) v) :
    engineOnly ks tile { s with chip := { s.chip with taps := v.taps, nextId := v.nextId } } { s with chip := v } := by
  have he : tappedFrom s.chip tile w d = { s.chip with taps := v.taps, nextId := v.nextId } := by rw [htaps, hid, tappedFrom]
  rw [he] at h
  exact engineOnly_of_kept (st := { s with chip := { s.chip with taps := v.taps, nextId := v.nextId } }) h

-- What a tap reads.

theorem leBytes_cellWord (y : Tile) (wi : Nat) : leBytes 8 (cellWord y wi) = mread y.mem (8 * wi) 8 := by
  have := leBytes_leNat (mread y.mem (8 * wi) 8)
  rwa [mread_length] at this

theorem any_plain (l : List Nat) : (l.map plain).any (·.pz) = false := by
  simp [plain]

/-- A read of clean words delivers their bytes and changes nothing but the counters. -/
theorem bankRead_clean {s : State} {tile a n : Nat} (h : wordsClean s tile a n = true) (hn : 0 < n) :
    bankRead s.chip tile a n = (ctrBank s.chip tile false (lineCount a n), bankBytes s tile a n, false) := by
  have hread := readWords_sound (s := s.chip) (t := tile) (wi := a / 8) (n := (a + n - 1) / 8 - a / 8 + 1)
    (fun j hj => wordSound_of_wordsClean h (by omega) (by omega))
  have hmap : (List.range ((a + n - 1) / 8 - a / 8 + 1)).map (fun j => plain (cellWord (getTile s.chip tile) (a / 8 + j))) =
      ((List.range ((a + n - 1) / 8 - a / 8 + 1)).map (fun j => cellWord (getTile s.chip tile) (a / 8 + j))).map plain := by
    rw [List.map_map]
    rfl
  unfold bankRead
  simp only [if_neg (show ¬((n == 0) = true) by simp only [beq_iff_eq]; omega), hread, hmap, any_plain, Prod.mk.injEq, true_and, and_true]
  rw [wordsBytes, List.flatMap_map, List.flatMap_map, show (fun j => leBytes 8 (plain (cellWord (getTile s.chip tile) (a / 8 + j))).v) =
      fun j => mread (getTile s.chip tile).mem (8 * (a / 8 + j)) 8 from funext fun j => leBytes_cellWord _ _,
    flatMap_words, take_drop_mread _ (by omega), show 8 * (a / 8) + a % 8 = a by omega]
  rfl

/-- A digest of clean banks (R280). -/
theorem digestRuns {s : State} {tile : Nat} {o : EngOp} (ht : tile < 144) (hrun : runsNext s tile 4 o .dtap = true)
    (hclean : wordsClean s tile (bitsOf (opW o 0) 21 0) (bitsOf (opW o 1) 21 0) = true) (hn : 0 < bitsOf (opW o 1) 21 0) :
    ∃ t, exec (.dtapComplete tile) s = .next t ∧ opDone s t tile 4 o ∧ banksKept s t tile 0 0 ∧
      t.chip.taps = s.chip.taps ++ [⟨s.chip.nextId, tileSet s.chip tile, bitsOf (opW o 1) 63 48,
        .digest (bitsOf (opW o 1) 47 24) (bitOf (opW o 1) 23) (bankBytes s tile (bitsOf (opW o 0) 21 0) (bitsOf (opW o 1) 21 0)) false⟩] ∧
      t.chip.nextId = s.chip.nextId + 1 ∧
      engineOnly (engineRegs tile) tile { s with chip := { s.chip with taps := t.chip.taps, nextId := t.chip.nextId } } t := by
  obtain ⟨-, -, hi, -, hquiet⟩ := next_of_runs hrun
  obtain ⟨v, hv⟩ : ∃ v, v = finishOp (sendPiece (ctrBank s.chip tile false (lineCount (bitsOf (opW o 0) 21 0) (bitsOf (opW o 1) 21 0))) tile
    (bitsOf (opW o 1) 63 48) (.digest (bitsOf (opW o 1) 47 24) (bitOf (opW o 1) 23)
      (bankBytes s tile (bitsOf (opW o 0) 21 0) (bitsOf (opW o 1) 21 0)) false)) tile 4 o := exists_eq
  have hexec : exec (.dtapComplete tile) s = .next { s with chip := v } := exec_completes (k := .dtap) (f := runDtap tile) ht rfl hrun (by
    simp only [runDtap, bankRead_clean hclean hn, hv])
  obtain ⟨hdone, hbanks, htaps, hid, hkept⟩ := tap_completes hquiet hi (stored_ctrBank ..) rfl ⟨rfl, fun _ _ => rfl⟩ rfl hv
  exact ⟨_, hexec, hdone, hbanks, htaps, hid, engineOnly_of_tap htaps hid hkept⟩

end Sys2Proof.Proofs
end

section
/-! SUPPORT. Statistics of a piece (O20). -/

namespace Sys2Proof.Proofs

open Sys2Proof.Machine

-- A piece's elements (R113).

/-- Bits above those that an element takes do not reach it. -/
theorem shiftRight_mod (v : Nat) {k w N : Nat} (h : k + w ≤ N) : (v % 2 ^ N) >>> k % 2 ^ w = v >>> k % 2 ^ w := by
  obtain ⟨r, rfl⟩ := Nat.exists_eq_add_of_le h
  rw [Nat.shiftRight_eq_div_pow, Nat.shiftRight_eq_div_pow, add_assoc, pow_add, Nat.mod_mul_right_div_self, pow_add, Nat.mod_mul_right_mod]

/-- The widths of the microscaled formats, and of the others that a tap takes. -/
theorem pieceWidths : (∀ c, c ≤ 9 → isMX c = true → elemBits c = 4 ∨ elemBits c = 6 ∨ elemBits c = 8) ∧
    ∀ c, c ≤ 9 → isMX c = false → elemBits c = 8 ∨ elemBits c = 16 ∨ elemBits c = 32 := by decide

/-- An element and its scale byte lie in the bytes of the canonical layout. -/
theorem element_inside {c n j : Nat} (hc : c ≤ 9) (hj : j < n) :
    (isMX c = true → j / 32 * (8 + 32 * elemBits c) + 8 + j % 32 * elemBits c + elemBits c ≤ 8 * canonBytes c n) ∧
      (isMX c = false → elemBits c * j + elemBits c ≤ 8 * canonBytes c n) := by
  unfold canonBytes
  constructor
  · intro hmx
    rw [hmx, if_pos rfl]
    have hblock : j / 32 < n / 32 ∨ j / 32 = n / 32 ∧ j % 32 < n % 32 := by omega
    unfold cdiv
    rcases pieceWidths.1 c hc hmx with hw | hw | hw <;> rw [hw] <;> split <;> simp only [beq_iff_eq] at * <;> omega
  · intro hmx
    rw [hmx, if_neg (by simp)]
    unfold cdiv
    rcases pieceWidths.2 c hc hmx with hw | hw | hw <;> rw [hw] <;> omega

/-- An element is read from the bytes of its piece alone. -/
theorem pieceElem_mod {c n j : Nat} (hc : c ≤ 9) (hj : j < n) (v : Nat) (pz : Nat → Bool) :
    pieceElem c (v % 2 ^ (8 * canonBytes c n)) pz j = pieceElem c v pz j := by
  obtain ⟨hmx, hplain⟩ := element_inside hc hj
  unfold pieceElem
  cases h : isMX c with
  | true =>
    have hin := hmx h
    have hlow : j / 32 * (8 + 32 * elemBits c) + 8 ≤ 8 * canonBytes c n := by omega
    simp only [if_true]
    rw [shiftRight_mod v hin, show (256 : Nat) = 2 ^ 8 from rfl, shiftRight_mod v hlow]
  | false =>
    simp only [Bool.false_eq_true, if_false]
    rw [shiftRight_mod v (hplain h)]

/-- No element of an unmarked piece is marked. -/
theorem pieceElem_unmarked (c v j : Nat) : (pieceElem c v (fun _ => false) j).2.2 = false := by
  unfold pieceElem
  split <;> rfl

theorem statElem_unmarked (c : Nat) (a : StatAcc) {e : Nat × Nat × Bool} (h : e.2.2 = false) : (statElem c a e).pz = a.pz := by
  unfold statElem
  simp only [h, Bool.false_eq_true, if_false]
  split <;> rfl

theorem statistics_unmarked (c v : Nat) (l : List Nat) (a : StatAcc) :
    (l.foldl (fun st j => statElem c st (pieceElem c v (fun _ => false) j)) a).pz = a.pz := by
  induction l generalizing a with
  | nil => rfl
  | cons j r ih => exact (ih _).trans (statElem_unmarked c a (pieceElem_unmarked c v j))

/-- The statistics of an unmarked piece of `n` elements. -/
def statistics (c n v : Nat) : StatAcc :=
  (List.range n).foldl (fun st j => statElem c st (pieceElem c v (fun _ => false) j)) ⟨0x7F800000, 0xFF800000, 0, 0, 0, false, []⟩

theorem statistics_mod {c n : Nat} (hc : c ≤ 9) (v : Nat) : statistics c n (v % 2 ^ (8 * canonBytes c n)) = statistics c n v := by
  unfold statistics
  refine List.foldl_ext _ _ _ fun a j hj => ?_
  rw [pieceElem_mod hc (List.mem_range.1 hj)]

-- The sound words of a piece.

/-- The words that a statistics tap reads. -/
theorem pieceWords {s : State} {tile a n : Nat} (h : wordsClean s tile a n = true) :
    readWords s.chip tile (a / 8) ((a + n + 7) / 8 - a / 8) =
      (s.chip, ((List.range ((a + n + 7) / 8 - a / 8)).map (fun j => cellWord (getTile s.chip tile) (a / 8 + j))).map plain) := by
  rw [readWords_sound (fun j hj => wordSound_of_wordsClean h (by omega) (by omega)), List.map_map]
  rfl

/-- A piece's bits, with what stands after it in its last word. -/
theorem pieceBits (s : State) (tile a n : Nat) :
    (packLanes 64 ((List.range ((a + n + 7) / 8 - a / 8)).map (fun j => cellWord (getTile s.chip tile) (a / 8 + j))) >>> (8 * (a % 8))) %
      2 ^ (8 * n) = leNat (bankBytes s tile a n) := by
  rw [packLanes_words, Nat.shiftRight_eq_div_pow, leNat_mread_sub _ _ (by omega), show 8 * (a / 8) + a % 8 = a by omega]
  rfl

theorem getD_plain (l : List Nat) (k : Nat) : ((l.map plain).toArray.getD k ⟨0, false⟩).pz = false := by
  rw [Array.getD_eq_getD_getElem?, List.getElem?_toArray, List.getElem?_map]
  cases l[k]? <;> rfl

/-- The piece that a statistics tap sends. -/
def statPiece (o : EngOp) (v : Nat) : TapData :=
  let n := bitsOf (opW o 1) 31 0
  let acc := statistics (bitsOf (opW o 0) 57 54) n v
  .stats (tagOf (opW o 2)) acc.min acc.max acc.nfin acc.nnan acc.ninf
    (tree 0 ((chunks256 (n / 256 + 1) acc.leaves.reverse).map (fun g => (tree 0 g).1))).1.v false

theorem leastCode_zeros : ∀ {l : List Nat}, (∀ c ∈ l, c = 0) → leastCode l = 0
  | [], _ => rfl
  | c :: r, h => by
    rw [leastCode, h c (List.mem_cons_self ..), leastCode_zeros fun x hx => h x (List.mem_cons_of_mem _ hx)]
    rfl

/-- What a statistics tap over sound banks comes to, but for its flags. -/
theorem runStap_clean {s : State} {tile : Nat} {o : EngOp} (hc : bitsOf (opW o 0) 57 54 ≤ 9) (hkind : (tagOf (opW o 2)).kind = 0)
    (htag : passTag (tagOf (opW o 2)) (bitsOf (opW o 1) 31 0) = 0)
    (hclean : wordsClean s tile (bitsOf (opW o 0) 21 0) (canonBytes (bitsOf (opW o 0) 57 54) (bitsOf (opW o 1) 31 0)) = true) :
    ∃ fl, runStap tile s.chip o = finishOp (raiseFlags (sendPiece (ctrBank s.chip tile false
        (lineCount (bitsOf (opW o 0) 21 0) (canonBytes (bitsOf (opW o 0) 57 54) (bitsOf (opW o 1) 31 0)))) tile (bitsOf (opW o 0) 53 38)
      (statPiece o (leNat (bankBytes s tile (bitsOf (opW o 0) 21 0) (canonBytes (bitsOf (opW o 0) 57 54) (bitsOf (opW o 1) 31 0)))))) tile o.strand fl)
      tile 4 o := by
  obtain ⟨a, ha⟩ : ∃ a, a = bitsOf (opW o 0) 21 0 := exists_eq
  obtain ⟨c, hcd⟩ : ∃ c, c = bitsOf (opW o 0) 57 54 := exists_eq
  obtain ⟨n, hn⟩ : ∃ n, n = bitsOf (opW o 1) 31 0 := exists_eq
  rw [← hcd] at hc
  rw [← hn] at htag
  rw [← ha, ← hcd, ← hn] at hclean
  have hcode : leastCode [if c ≤ 9 then 0 else 0x7006, if (tagOf (opW o 2)).kind == 0 then 0 else 0x7006, passTag (tagOf (opW o 2)) n] = 0 :=
    leastCode_zeros (by simp [hc, hkind, htag])
  unfold runStap statPiece
  simp only [← ha, ← hcd, ← hn, hcode, pieceWords hclean, getD_plain]
  rw [← pieceBits s tile a (canonBytes c n), statistics_mod hc]
  have hvals (l : List Nat) : (l.map plain).map (·.v) = l := by simp [plain, Function.comp_def]
  rw [hvals]
  generalize packLanes 64 ((List.range ((a + canonBytes c n + 7) / 8 - a / 8)).map (fun j => cellWord (getTile s.chip tile) (a / 8 + j))) >>>
    (8 * (a % 8)) = v
  have hfold : (List.range n).foldl (fun st j => statElem c st (pieceElem c v (fun _ => false) j)) ⟨0x7F800000, negInfF32, 0, 0, 0, false, []⟩ =
      statistics c n v := rfl
  have hpz : (statistics c n v).pz = false := statistics_unmarked c v _ _
  rw [hfold, hpz, List.map_map]
  exact ⟨_, rfl⟩

/-- Statistics of clean banks (R281). -/
theorem statisticsRun {s : State} {tile : Nat} {o : EngOp} (ht : tile < 144) (hrun : runsNext s tile 4 o .stap = true)
    (hc : bitsOf (opW o 0) 57 54 ≤ 9) (hkind : (tagOf (opW o 2)).kind = 0) (htag : passTag (tagOf (opW o 2)) (bitsOf (opW o 1) 31 0) = 0)
    (hclean : wordsClean s tile (bitsOf (opW o 0) 21 0) (canonBytes (bitsOf (opW o 0) 57 54) (bitsOf (opW o 1) 31 0)) = true) :
    ∃ t, exec (.stapComplete tile) s = .next t ∧ opDone s t tile 4 o ∧ banksKept s t tile 0 0 ∧
      t.chip.taps = s.chip.taps ++ [⟨s.chip.nextId, tileSet s.chip tile, bitsOf (opW o 0) 53 38,
        statPiece o (leNat (bankBytes s tile (bitsOf (opW o 0) 21 0) (canonBytes (bitsOf (opW o 0) 57 54) (bitsOf (opW o 1) 31 0))))⟩] ∧
      t.chip.nextId = s.chip.nextId + 1 ∧
      engineOnly (engineRegs tile) tile { s with chip := { s.chip with taps := t.chip.taps, nextId := t.chip.nextId } } t := by
  obtain ⟨-, -, hi, -, hquiet⟩ := next_of_runs hrun
  obtain ⟨fl, hfl⟩ := runStap_clean hc hkind htag hclean
  obtain ⟨v, hv⟩ : ∃ v, v = runStap tile s.chip o := exists_eq
  have hexec : exec (.stapComplete tile) s = .next { s with chip := v } :=
    exec_completes (k := .stap) (f := runStap tile) ht rfl hrun hv.symm
  obtain ⟨hdone, hbanks, htaps, hid, hkept⟩ := tap_completes hquiet hi (stored_ctrBank ..) rfl (onlyStrand_setStrand ..)
    (tileQuiet_raiseFlags ..) (hv.trans hfl)
  exact ⟨_, hexec, hdone, hbanks, htaps, hid, engineOnly_of_tap htaps hid hkept⟩

end Sys2Proof.Proofs
end

section
/-! SUPPORT. Transposing copies (O20). -/

namespace Sys2Proof.Proofs

open Sys2Proof.Machine

-- Lanes of packed values.

theorem lane_below (w v : Nat) {j n : Nat} (h : w * j + w ≤ n) : lane w (v % 2 ^ n) j = lane w v j := by
  unfold lane
  have := shiftRight_mod v h
  rwa [Nat.shiftRight_eq_div_pow, Nat.shiftRight_eq_div_pow] at this

theorem lane_lt (w v j : Nat) : lane w v j < 2 ^ w := Nat.mod_lt _ (Nat.two_pow_pos w)

/-- The word that holds an element, and its lane there. -/
theorem lane_word {w c : Nat} (hw : w = 4 ∨ w = 8 ∨ w = 16 ∨ w = 32) (v : Nat) :
    lane w (v / 2 ^ (8 * (8 * (w * c / 64))) % 2 ^ (8 * 8)) (c % (64 / w)) = lane w v c := by
  have hin : w * (c % (64 / w)) + w ≤ 8 * 8 ∧ 8 * (8 * (w * c / 64)) + w * (c % (64 / w)) = w * c := by
    rcases hw with rfl | rfl | rfl | rfl <;> omega
  rw [lane_below _ _ hin.1]
  unfold lane
  rw [Nat.div_div_eq_div_mul, ← pow_add, hin.2]

-- The rows read.

/-- Element `c` of a row of `cols` elements at `a`. -/
def rowElem (y : Tile) (w cols a c : Nat) : Nat := lane w (leNat (mread y.mem a (cols * w / 8))) c

/-- The chip with other live counters. -/
def withCounts (s : Chip) (l : Tab Nat) : Chip := { s with ctrLive := l }

theorem getTile_withCounts (s : Chip) (l : Tab Nat) (t : Nat) : getTile (withCounts s l) t = getTile s t := rfl

theorem withCounts_withCounts (s : Chip) (l m : Tab Nat) : withCounts (withCounts s l) m = withCounts s m := rfl

theorem stored_withCounts (s : Chip) (l : Tab Nat) (t : Nat) : stored t s (withCounts s l) := ⟨⟨rfl, fun _ _ => rfl⟩, rfl⟩

/-- One row of sound words. -/
theorem rowRead {y : Tile} {w cols a c : Nat} (hw : w = 4 ∨ w = 8 ∨ w = 16 ∨ w = 32) (ha : a % 8 = 0) (hbits : cols * w % 8 = 0)
    (hc : c < cols) :
    lane w (((List.range (cdiv (cols * w) 64)).map (fun j => plain (cellWord y (a / 8 + j)))).getD (w * c / 64) ⟨0, false⟩).v
      (c % (64 / w)) = rowElem y w cols a c := by
  have hwc : w * c + w ≤ cols * w := by
    have := Nat.mul_le_mul_left w (Nat.succ_le_of_lt hc)
    rw [Nat.mul_succ] at this
    rwa [Nat.mul_comm cols w]
  have hw0 : 0 < w := by omega
  obtain ⟨N, hN⟩ : ∃ N, N = cdiv (cols * w) 64 := exists_eq
  have hNd : 64 * N < cols * w + 64 ∧ cols * w ≤ 64 * N := by
    rw [hN]
    unfold cdiv
    omega
  have hk : w * c / 64 < N := by omega
  rw [← hN, List.getD_eq_getElem _ _ (by simpa using hk), List.getElem_map, List.getElem_range]
  have hcell : cellWord y (a / 8 + w * c / 64) = leNat (mread y.mem a (8 * N)) / 2 ^ (8 * (8 * (w * c / 64))) % 2 ^ (8 * 8) := by
    rw [leNat_mread_sub _ _ (by omega), cellWord, show 8 * (a / 8 + w * c / 64) = a + 8 * (w * c / 64) by omega]
  have hlow : leNat (mread y.mem a (cols * w / 8)) = leNat (mread y.mem a (8 * N)) % 2 ^ (cols * w) := by
    have := leNat_mread_sub y.mem a (k := 0) (n := cols * w / 8) (N := 8 * N) (by omega)
    rw [Nat.mul_zero, Nat.pow_zero, Nat.div_one, Nat.add_zero, show 8 * (cols * w / 8) = cols * w by omega] at this
    exact this.symm
  change lane w (cellWord y (a / 8 + w * c / 64)) _ = _
  rw [hcell, lane_word hw, rowElem, hlow, lane_below _ _ hwc]

/-- The rows of a source of sound words, element by element; only counters change. -/
theorem readPitch_sound {t w cols pitch : Nat} (hw : w = 4 ∨ w = 8 ∨ w = 16 ∨ w = 32) (hp : pitch % 8 = 0) (hbits : cols * w % 8 = 0)
    (n : Nat) {a : Nat} (ha : a % 8 = 0) (s : Chip)
    (h : ∀ r, r < n → ∀ j, j < cdiv (cols * w) 64 → wordSound (getTile s t) ((a + r * pitch) / 8 + j)) :
    ∃ l, readPitch t w cols pitch n a s = (withCounts s l,
      (List.range n).map (fun r => (List.range cols).map (fun c => plain (rowElem (getTile s t) w cols (a + r * pitch) c)))) := by
  induction n generalizing a s with
  | zero => exact ⟨s.ctrLive, rfl⟩
  | succ n ih =>
    have hfirst := readWords_sound (s := s) (t := t) (wi := a / 8) (n := cdiv (cols * w) 64)
      (fun j hj => by simpa using h 0 (by omega) j hj)
    obtain ⟨l0, hl0⟩ : ∃ l0, ctrBank s t false (lineCount a (cdiv (cols * w) 8)) = withCounts s l0 := ⟨_, rfl⟩
    obtain ⟨l, hl⟩ := ih (a := a + pitch) (by omega) (withCounts s l0) (fun r hr j hj => by
      have := h (r + 1) (by omega) j hj
      rwa [show a + (r + 1) * pitch = a + pitch + r * pitch by ring] at this)
    refine ⟨l, ?_⟩
    simp only [readPitch, hfirst, hl0, hl, withCounts_withCounts, getTile_withCounts, List.range_succ_eq_map, List.map_cons, List.map_map, Nat.zero_mul, Nat.add_zero, Prod.mk.injEq, true_and]
    refine List.cons_eq_cons.2 ⟨List.map_congr_left fun c hc => ?_, List.map_congr_left fun r _ => ?_⟩
    · have hlane := rowRead (y := getTile s t) hw ha hbits (List.mem_range.1 hc)
      have hunmarked : ((((List.range (cdiv (cols * w) 64)).map (fun j => plain (cellWord (getTile s t) (a / 8 + j)))).getD (w * c / 64)
          ⟨0, false⟩)).pz = false := by
        rw [List.getD_eq_getElem?_getD, List.getElem?_map]
        cases (List.range (cdiv (cols * w) 64))[w * c / 64]? <;> rfl
      rw [hlane, hunmarked]
      rfl
    · simp only [Function.comp, Nat.succ_eq_add_one, show a + pitch + r * pitch = a + (r + 1) * pitch by ring]

-- The rows written.

/-- A row of unmarked elements as bytes. -/
theorem rowBytes_plain (w : Nat) (l : List Nat) :
    rowBytes w (l.map plain) = (leBytes (cdiv (l.length * w) 8) (packLanes w l)).map (fun b => (b, false)) := by
  have hvals : (l.map plain).map (·.v) = l := by simp [plain, Function.comp_def]
  have hmark (k : Nat) : ((l.map plain).getD k ⟨0, false⟩).pz = false := by
    rw [List.getD_eq_getElem?_getD, List.getElem?_map]
    cases l[k]? <;> rfl
  have hany (n : Nat) (g : Nat → Nat) : (List.range n).any (fun j => ((l.map plain).getD (g j) ⟨0, false⟩).pz) = false := List.any_eq_false.2 fun j _ => by rw [hmark]; exact Bool.false_ne_true
  unfold rowBytes
  simp only [hvals, List.length_map, hany]
  refine List.ext_getElem (by simp) fun k h1 h2 => ?_
  simp only [List.length_map, List.length_range] at h1
  simp only [List.getElem_map, List.getElem_range, List.getD_eq_getElem _ _ h1]

theorem stored_writeSome {s : Chip} {t a n v : Nat} (hfit : wordSound (getTile s t) (a / 8)) : stored t s (writeSome s t a n ⟨v, false⟩) := by
  unfold writeSome
  split
  · exact stored_writeWord ..
  · unfold writePart
    rw [readWord_sound (s := ctrBank s t false 1) (t := t) (wi := a / 8) hfit]
    exact stored_trans (stored_ctrBank s t false 1) (stored_writeWord ..)

/-- Bytes without marks from a word's start, written over sound words. -/
theorem putBytes_plain {t n : Nat} (s : Chip) {a : Nat} (l : List Byte) (ha : a % 8 = 0) (hn : l.length ≤ n)
    (h : ∀ j, 8 * j < l.length → wordSound (getTile s t) (a / 8 + j)) :
    stored t s (putBytes t n s a (l.map (fun b => (b, false)))) ∧
      wrote s (putBytes t n s a (l.map (fun b => (b, false)))) t a l.length (leNat l) := by
  have hnil : ∀ u : Chip, stored t u u ∧ wrote u u t a ([] : List Byte).length (leNat []) :=
    fun u => ⟨stored_refl t u, fun _ _ => rfl, rfl, fun _ h => h⟩
  induction n generalizing s a l with
  | zero =>
    rw [List.length_eq_zero_iff.1 (Nat.le_zero.1 hn)]
    exact hnil s
  | succ n ih =>
    by_cases hempty : l = []
    · subst hempty
      exact hnil s
    have hpos : 0 < l.length := List.length_pos_of_ne_nil hempty
    obtain ⟨k, hk⟩ : ∃ k, k = min 8 l.length := exists_eq
    have hkmin : min (8 - a % 8) (l.map (fun b => (b, false))).length = k := by rw [List.length_map, ha, hk]
    have hvals : ∀ q : List Byte, (q.map (fun b => (b, false))).map (·.1) = q := fun q => by simp [Function.comp_def]
    have hany : ∀ q : List Byte, (q.map (fun b => (b, false))).any (·.2) = false := fun q => by simp
    unfold putBytes
    rw [if_neg (by simp only [List.isEmpty_iff, List.map_eq_nil_iff]; exact hempty)]
    simp only [hkmin, ← List.map_take, ← List.map_drop, hvals, hany]
    have hlen : (l.take k).length = k := by rw [List.length_take]; omega
    have hsound : wordSound (getTile s t) (a / 8) := by simpa using h 0 (by omega)
    have hst := stored_writeSome (s := s) (t := t) (a := a) (n := k) (v := leNat (l.take k)) hsound
    obtain ⟨-, hw⟩ := writeSome_spec (s := s) (t := t) (a := a) (n := k) (v := leNat (l.take k)) (by omega) (by omega) hsound
    rw [Nat.mod_eq_of_lt (by simpa [hlen] using leNat_lt (l.take k))] at hw
    generalize writeSome s t a k ⟨leNat (l.take k), false⟩ = u at *
    by_cases h8 : l.length ≤ 8
    · have hkl : k = l.length := by omega
      rw [hkl] at hw ⊢
      rw [List.take_length] at hw
      have hstop : putBytes t n u (a + l.length) ((l.drop l.length).map (fun b => (b, false))) = u := by
        rw [List.drop_length]
        cases n <;> rfl
      rw [hstop]
      exact ⟨hst, hw⟩
    · have hk8 : k = 8 := by omega
      rw [hk8] at hw hlen ⊢
      obtain ⟨hrs, hrw⟩ := ih u (a := a + 8) (l.drop 8) (by omega) (by rw [List.length_drop]; omega)
        (fun j hj => by
          rw [List.length_drop] at hj
          rw [show (a + 8) / 8 + j = a / 8 + (j + 1) by omega]
          exact hw.2.2 _ (h (j + 1) (by omega)))
        (fun u => ⟨stored_refl t u, fun _ _ => rfl, rfl, fun _ h => h⟩)
      refine ⟨stored_trans hst hrs, ?_⟩
      have := wrote_trans hw hrw
      rw [List.length_drop, show 8 + (l.length - 8) = l.length by omega] at this
      have hval := leNat_append (l.take 8) (l.drop 8)
      rw [List.take_append_drop, hlen] at hval
      rwa [hval]

/-- Rows of unmarked elements, each within its pitch, written over sound words: every row stands as written, and nothing
below the first is touched. -/
theorem writePitch_spec {t w pitch rows : Nat} (hp : pitch % 8 = 0) (hbits : rows * w % 8 = 0) (out : List (List Nat))
    (hrows : ∀ l ∈ out, l.length = rows) {a : Nat} (ha : a % 8 = 0) (s : Chip) (hfit : rows * w / 8 ≤ pitch ∨ out.length ≤ 1)
    (h : ∀ c, c < out.length → ∀ j, 8 * j < rows * w / 8 → wordSound (getTile s t) ((a + c * pitch) / 8 + j)) :
    stored t s (writePitch t w pitch a (out.map (·.map plain)) s) ∧
      (∀ b, b < a → mget (getTile (writePitch t w pitch a (out.map (·.map plain)) s) t).mem b = mget (getTile s t).mem b) ∧
      ∀ c, c < out.length → leNat (mread (getTile (writePitch t w pitch a (out.map (·.map plain)) s) t).mem (a + c * pitch) (rows * w / 8)) =
        packLanes w (out.getD c []) % 2 ^ (rows * w) := by
  induction out generalizing a s with
  | nil => exact ⟨stored_refl t s, fun _ _ => rfl, fun c hc => absurd hc (by simp)⟩
  | cons l r ih =>
    have hl : l.length = rows := hrows l (List.mem_cons_self ..)
    obtain ⟨nb, hnb⟩ : ∃ nb, nb = rows * w / 8 := exists_eq
    have hcd : cdiv (l.length * w) 8 = nb := by
      rw [hl, hnb]
      unfold cdiv
      omega
    have hbl : (leBytes nb (packLanes w l)).length = nb := leBytes_length ..
    rw [← hnb] at hfit h ⊢
    obtain ⟨hst, hwr⟩ := putBytes_plain (t := t) (n := nb + 1) s (leBytes nb (packLanes w l)) ha (by omega)
      (fun j hj => by simpa using h 0 (by simp) j (by omega))
    rw [hbl, leNat_leBytes, show 8 * nb = rows * w by omega] at hwr
    simp only [List.map_cons, writePitch, rowBytes_plain, hcd, List.length_map, hbl]
    obtain ⟨u, hu⟩ : ∃ u, u = ctrBank (putBytes t (nb + 1) s a ((leBytes nb (packLanes w l)).map (fun b => (b, false)))) t true (lineCount a nb) := exists_eq
    have hus : stored t s u := hu ▸ stored_trans hst (stored_ctrBank ..)
    have huw : wrote s u t a nb (packLanes w l % 2 ^ (rows * w)) := hu ▸ hwr
    rw [← hu]
    obtain ⟨hkeep, hval, hsound⟩ := huw
    obtain ⟨hrs, hrk, hrv⟩ := ih (fun q hq => hrows q (List.mem_cons_of_mem _ hq)) (a := a + pitch) (by omega) u
      (hnb ▸ hfit.imp_right fun h => by simp only [List.length_cons] at h; omega)
      (fun c hc j hj => hsound _ (by
        have := h (c + 1) (by simpa using hc) j (by omega)
        rwa [show a + (c + 1) * pitch = a + pitch + c * pitch by ring] at this))
    refine ⟨stored_trans hus hrs, fun b hb => (hrk b (by omega)).trans (hkeep b (.inl hb)), fun c hc => ?_⟩
    cases c with
    | zero =>
      rw [Nat.zero_mul, Nat.add_zero, List.getD_cons_zero, ← hval]
      rcases hfit with hfit | hone
      · exact congrArg leNat (mread_congr fun b _ hb2 => hrk b (by omega))
      · have hr : r = [] := List.length_eq_zero_iff.1 (by simp only [List.length_cons] at hone; omega)
        subst hr
        rfl
    | succ c =>
      have := hrv c (by simpa using hc)
      rw [← hnb] at this
      rw [show a + (c + 1) * pitch = a + pitch + c * pitch by ring, List.getD_cons_succ]
      exact this

end Sys2Proof.Proofs
end

section
/-! SUPPORT. A transposing copy as it runs (O20). -/

namespace Sys2Proof.Proofs

open Sys2Proof.Machine

theorem aligned_row {a p : Nat} (ha : a % 8 = 0) (hp : p % 8 = 0) (r : Nat) : (a + r * p) % 8 = 0 :=
  Nat.mod_eq_zero_of_dvd (Nat.dvd_add (Nat.dvd_of_mod_eq_zero ha) (Dvd.dvd.mul_left (Nat.dvd_of_mod_eq_zero hp) r))

theorem mvtBits_cases (a : Nat) : mvtBits a = 4 ∨ mvtBits a = 8 ∨ mvtBits a = 16 ∨ mvtBits a = 32 := by
  have h : bitsOf a 57 56 < 2 ^ 2 := bitsOf_lt ..
  unfold mvtBits
  have : bitsOf a 57 56 = 0 ∨ bitsOf a 57 56 = 1 ∨ bitsOf a 57 56 = 2 ∨ bitsOf a 57 56 = 3 := by omega
  rcases this with h | h | h | h <;> rw [h] <;> omega

/-- The addresses and pitches of a sound descriptor are aligned, and its rows and columns whole bytes (R259). -/
theorem aligned_of_mvtOk {a b : Nat} (h : mvtOk a b = true) :
    bitsOf a 43 22 % 8 = 0 ∧ bitsOf a 21 0 % 8 = 0 ∧ bitsOf b 43 22 % 8 = 0 ∧ bitsOf b 21 0 % 8 = 0 ∧
      (bitsOf a 55 44 + 1) * mvtBits a % 8 = 0 ∧ (bitsOf b 55 44 + 1) * mvtBits a % 8 = 0 := by
  simp only [mvtOk, Bool.and_eq_true, beq_iff_eq, Bool.or_eq_true, bne_iff_ne, ne_eq] at h
  obtain ⟨⟨⟨⟨⟨⟨⟨⟨-, hsrc⟩, hdst⟩, hsp⟩, hdp⟩, hodd⟩, -⟩, -⟩, -⟩ := h
  refine ⟨hsrc, hdst, hsp, hdp, ?_⟩
  rcases mvtBits_cases a with hw | hw | hw | hw <;> rw [hw] at hodd ⊢ <;> omega

/-- The words of a row of sound bytes. -/
theorem sound_row {s : State} {tile a n j : Nat} (ha : a % 8 = 0) (h : wordsClean s tile a n = true) (hj : 8 * j < n) :
    wordSound (getTile s.chip tile) (a / 8 + j) :=
  wordSound_of_wordsClean h (by omega) (by omega)

/-- The elements of the destination, row by row. -/
def transposed (y : Tile) (w rows cols src sp : Nat) : List (List Nat) :=
  (List.range cols).map (fun c => (List.range rows).map (fun r => rowElem y w cols (src + r * sp) c))

theorem transposed_eq (y : Tile) (w rows cols src sp : Nat) :
    (List.range cols).map (fun c => ((List.range rows).map (fun r => (List.range cols).map (fun c => plain (rowElem y w cols (src + r * sp) c)))).map
      (fun l => l.getD c ⟨0, false⟩)) = (transposed y w rows cols src sp).map (·.map plain) := by
  unfold transposed
  rw [List.map_map]
  refine List.map_congr_left fun c hc => ?_
  simp only [Function.comp, List.map_map]
  refine List.map_congr_left fun r _ => ?_
  simp only [Function.comp]
  rw [List.getD_eq_getElem _ _ (by simpa using List.mem_range.1 hc), List.getElem_map, List.getElem_range]

/-- A transposing copy of sound banks over sound banks (R259). -/
theorem transposeRuns {s : State} {tile : Nat} {o : EngOp} (ht : tile < 144) (hrun : runsNext s tile 4 o .mvt = true)
    (hok : mvtOk (opW o 0) (opW o 1) = true)
    (hsrc : ∀ r, r < bitsOf (opW o 0) 55 44 + 1 →
      wordsClean s tile (bitsOf (opW o 0) 43 22 + r * bitsOf (opW o 1) 43 22) ((bitsOf (opW o 1) 55 44 + 1) * mvtBits (opW o 0) / 8) = true)
    (hdst : ∀ c, c < bitsOf (opW o 1) 55 44 + 1 →
      wordsClean s tile (bitsOf (opW o 0) 21 0 + c * bitsOf (opW o 1) 21 0) ((bitsOf (opW o 0) 55 44 + 1) * mvtBits (opW o 0) / 8) = true)
    (hfit : (bitsOf (opW o 0) 55 44 + 1) * mvtBits (opW o 0) / 8 ≤ bitsOf (opW o 1) 21 0 ∨ bitsOf (opW o 1) 55 44 + 1 = 1) :
    ∃ t, exec (.mvtComplete tile) s = .next t ∧ engineOnly [] tile s t ∧ opDone s t tile 4 o ∧
      ∀ r c, r < bitsOf (opW o 0) 55 44 + 1 → c < bitsOf (opW o 1) 55 44 + 1 →
        lane (mvtBits (opW o 0)) (leNat (bankBytes t tile (bitsOf (opW o 0) 21 0 + c * bitsOf (opW o 1) 21 0)
          ((bitsOf (opW o 0) 55 44 + 1) * mvtBits (opW o 0) / 8))) r =
        lane (mvtBits (opW o 0)) (leNat (bankBytes s tile (bitsOf (opW o 0) 43 22 + r * bitsOf (opW o 1) 43 22)
          ((bitsOf (opW o 1) 55 44 + 1) * mvtBits (opW o 0) / 8))) c := by
  obtain ⟨-, -, -, -, hquiet⟩ := next_of_runs hrun
  obtain ⟨hs8, hd8, hsp8, hdp8, hrb, hcb⟩ := aligned_of_mvtOk hok
  have hw := mvtBits_cases (opW o 0)
  obtain ⟨v, hv⟩ : ∃ v, v = runMvt tile s.chip o := exists_eq
  have hexec : exec (.mvtComplete tile) s = .next { s with chip := v } :=
    exec_completes (k := .mvt) (f := runMvt tile) ht rfl hrun hv.symm
  simp only [runMvt] at hv
  generalize mvtBits (opW o 0) = w at *
  generalize bitsOf (opW o 0) 43 22 = src at *
  generalize bitsOf (opW o 0) 21 0 = dst at *
  generalize bitsOf (opW o 1) 43 22 = sp at *
  generalize bitsOf (opW o 1) 21 0 = dp at *
  generalize bitsOf (opW o 0) 55 44 + 1 = rows at *
  generalize bitsOf (opW o 1) 55 44 + 1 = cols at *
  obtain ⟨l, hread⟩ := readPitch_sound (t := tile) hw hsp8 hcb rows hs8 s.chip (fun r hr j hj =>
    sound_row (aligned_row hs8 hsp8 r) (hsrc r hr) (by unfold cdiv at hj; omega))
  obtain ⟨m, hm⟩ : ∃ m, m = withCounts s.chip l := exists_eq
  have hmt : getTile m tile = getTile s.chip tile := by rw [hm, getTile_withCounts]
  have hms : stored tile s.chip m := hm ▸ stored_withCounts s.chip l tile
  obtain ⟨u, hu⟩ : ∃ u, u = writePitch tile w dp dst ((transposed (getTile s.chip tile) w rows cols src sp).map (·.map plain)) m := exists_eq
  have hlen : (transposed (getTile s.chip tile) w rows cols src sp).length = cols := by simp [transposed]
  obtain ⟨hst, -, hval⟩ := writePitch_spec (t := tile) (w := w) (rows := rows) hdp8 hrb (transposed (getTile s.chip tile) w rows cols src sp)
    (fun q hq => by
      obtain ⟨c, -, rfl⟩ := List.mem_map.1 hq
      simp) hd8 m (hfit.imp_right (fun h => by omega)) (fun c hc j hj => by
        rw [hlen] at hc
        rw [hmt]
        exact sound_row (aligned_row hd8 hdp8 c) (hdst c hc) hj)
  rw [← hu] at hst hval
  have hsu := stored_trans hms hst
  simp only [hread, transposed_eq, ← hm, ← hu] at hv
  obtain ⟨ho, hmem, hq, hc⟩ := finishOp_spec ((tileQuiet_of_strands (s := s.chip) (strands_of_onlyTile hsu.1) tile).trans hquiet) 4 o
  rw [← hv] at ho hmem hq hc
  refine ⟨_, hexec, engineOnly_of_kept (engineKept_of_onlyTile _ (onlyTile_trans hsu.1 ho)), opDone_of_finish (sameWork_of_stored hsu) hq hc,
    fun r c hr hc => ?_⟩
  have hwr : w * r + w ≤ rows * w := by
    have := Nat.mul_le_mul_left w (Nat.succ_le_of_lt hr)
    rw [Nat.mul_succ] at this
    rwa [Nat.mul_comm rows w]
  have hrow : (transposed (getTile s.chip tile) w rows cols src sp).getD c [] =
      (List.range rows).map (fun r => rowElem (getTile s.chip tile) w cols (src + r * sp) c) := by
    rw [List.getD_eq_getElem _ _ (by rw [hlen]; exact hc)]
    simp only [transposed, List.getElem_map, List.getElem_range]
  have helem : ((List.range rows).map (fun r => rowElem (getTile s.chip tile) w cols (src + r * sp) c)).getD r 0 =
      rowElem (getTile s.chip tile) w cols (src + r * sp) c := by
    rw [List.getD_eq_getElem _ _ (by simpa using hr), List.getElem_map, List.getElem_range]
  change lane w (leNat (mread (getTile v tile).mem _ _)) r = _
  rw [hmem, hval c (by rw [hlen]; exact hc), lane_below _ _ hwr, hrow, lane_packLanes _ _ (by simpa using hr), helem]
  exact Nat.mod_eq_of_lt (lane_lt w (leNat (bankBytes s tile (src + r * sp) (cols * w / 8))) c)

/-- Settles O20: every source row is read before the first destination row is written, and a tap reads the banks alone. -/
theorem moverOperationsRun : Obligations.MoverOperationsRun := by
  unfold Obligations.MoverOperationsRun
  intro s tile o ht
  refine ⟨fun hrun hok hsrc hdst hfit => transposeRuns ht hrun hok hsrc hdst hfit, fun hrun hclean hn => ?_,
    fun hrun hc hkind htag hclean => ?_⟩
  · obtain ⟨t, hexec, hdone, hbanks, htaps, hid, hkept⟩ := digestRuns ht hrun hclean hn
    exact ⟨t, hexec, hdone, hbanks, htaps, hid, hkept⟩
  · obtain ⟨t, hexec, hdone, hbanks, htaps, hid, hkept⟩ := statisticsRun ht hrun hc hkind htag hclean
    exact ⟨t, hexec, hdone, hbanks, htaps, hid, hkept⟩

end Sys2Proof.Proofs
end

section
/-! SUPPORT. The power state that no program reaches: registers, banks, messages and faults leave it as it was (O59). -/

namespace Sys2Proof.Proofs

open Sys2Proof.Machine

/-- What programs, transfers and links never reach: PWR_DOMAIN, whether the radio runs, and the domains that have failed
(R413, R650, R652). -/
def powerView (s : Chip) : Nat × Bool × Nat := (barGet s aPWR_DOMAIN, s.radio.running, s.ras.dead)

-- Registers and tables.

theorem powerView_barSet (s : Chip) {k : Nat} (v : Nat) (h : aPWR_DOMAIN ≠ k) : powerView (barSet s k v) = powerView s :=
  congrArg (fun x => (x, s.radio.running, s.ras.dead)) (barGet_barSet_other s v h)

theorem powerView_fset (s : Chip) {k : Nat} (hi lo v : Nat) (h : aPWR_DOMAIN ≠ k) : powerView (fset s k hi lo v) = powerView s :=
  powerView_barSet s _ h

theorem powerView_fsetb (s : Chip) {k : Nat} (i : Nat) (b : Bool) (h : aPWR_DOMAIN ≠ k) : powerView (fsetb s k i b) = powerView s :=
  powerView_fset s i i _ h

theorem powerView_fsat (s : Chip) {k : Nat} (hi lo n : Nat) (h : aPWR_DOMAIN ≠ k) : powerView (fsat s k hi lo n) = powerView s :=
  powerView_fset s hi lo _ h

@[simp] theorem power_ne_partStatus (p : Nat) : aPWR_DOMAIN ≠ aPART_STATUS p := by unfold aPWR_DOMAIN aPART_STATUS; omega
@[simp] theorem power_ne_dlogStatus (f : Nat) : aPWR_DOMAIN ≠ aDLOG_STATUS f := by unfold aPWR_DOMAIN aDLOG_STATUS; omega
@[simp] theorem power_ne_bwStatus (p : Nat) : aPWR_DOMAIN ≠ aBW_STATUS p := by unfold aPWR_DOMAIN aBW_STATUS; omega
@[simp] theorem power_ne_memStatus (c : Nat) : aPWR_DOMAIN ≠ aMEM_STATUS c := by unfold aPWR_DOMAIN aMEM_STATUS; omega
@[simp] theorem power_ne_memEcc (c : Nat) : aPWR_DOMAIN ≠ aMEM_ECC c := by unfold aPWR_DOMAIN aMEM_ECC; omega
@[simp] theorem power_ne_memErrlog (c : Nat) : aPWR_DOMAIN ≠ aMEM_ERRLOG c := by unfold aPWR_DOMAIN aMEM_ERRLOG; omega
@[simp] theorem power_ne_swageStatus (u : Nat) : aPWR_DOMAIN ≠ aSWAGE_STATUS u := by unfold aPWR_DOMAIN aSWAGE_STATUS; omega
@[simp] theorem power_ne_swageErr (u : Nat) : aPWR_DOMAIN ≠ aSWAGE_ERR u := by unfold aPWR_DOMAIN aSWAGE_ERR; omega
@[simp] theorem power_ne_linkStatus (l : Nat) : aPWR_DOMAIN ≠ aFL_STATUS l := by unfold aPWR_DOMAIN aFL_STATUS; omega
@[simp] theorem power_ne_codeStatus (h : Nat) : aPWR_DOMAIN ≠ aCODE_STATUS h := by unfold aPWR_DOMAIN aCODE_STATUS; omega
@[simp] theorem power_ne_tileCtl (t : Nat) : aPWR_DOMAIN ≠ aTILE_CTL t := by unfold aPWR_DOMAIN aTILE_CTL; omega
@[simp] theorem power_ne_tileStatus (t : Nat) : aPWR_DOMAIN ≠ aTILE_STATUS t := by unfold aPWR_DOMAIN aTILE_STATUS; omega
@[simp] theorem power_ne_tileEcc (t : Nat) : aPWR_DOMAIN ≠ aTILE_ECC t := by unfold aPWR_DOMAIN aTILE_ECC; omega

@[simp] theorem powerView_setStrand (s : Chip) (t i : Nat) (x : Strand) : powerView (setStrand s t i x) = powerView s := rfl
@[simp] theorem powerView_modStrand (s : Chip) (t i : Nat) (f : Strand → Strand) : powerView (modStrand s t i f) = powerView s := rfl
@[simp] theorem powerView_setTile (s : Chip) (t : Nat) (x : Tile) : powerView (setTile s t x) = powerView s := rfl
@[simp] theorem powerView_modTile (s : Chip) (t : Nat) (f : Tile → Tile) : powerView (modTile s t f) = powerView s := rfl
@[simp] theorem powerView_modPart (s : Chip) (p : Nat) (f : Part → Part) : powerView (modPart s p f) = powerView s := rfl
@[simp] theorem powerView_setHasp (s : Chip) (f : Nat) (x : Hasp) : powerView (setHasp s f x) = powerView s := rfl
@[simp] theorem powerView_ctrAdd (s : Chip) (p i n : Nat) : powerView (ctrAdd s p i n) = powerView s := rfl
@[simp] theorem powerView_ctrBank (s : Chip) (t : Nat) (w : Bool) (n : Nat) : powerView (ctrBank s t w n) = powerView s := rfl
@[simp] theorem powerView_raiseIrq (s : Chip) (f v : Nat) : powerView (raiseIrq s f v) = powerView s := rfl
@[simp] theorem powerView_noteCE (s : Chip) : powerView (noteCE s) = powerView s := rfl
@[simp] theorem powerView_fabMod (s : Chip) (f : Fab → Fab) : powerView (fabMod s f) = powerView s := rfl
@[simp] theorem powerView_acAdd (s : Chip) (t n : Nat) (d : Int) : powerView (acAdd s t n d) = powerView s := rfl
@[simp] theorem powerView_acSet (s : Chip) (t n : Nat) (d : Int) : powerView (acSet s t n d) = powerView s := rfl
@[simp] theorem powerView_acArrive (s : Chip) (t n : Nat) : powerView (acArrive s t n) = powerView s := rfl

theorem powerView_ite {c : Prop} [Decidable c] {s u v : Chip} (hu : powerView u = powerView s) (hv : powerView v = powerView s) :
    powerView (if c then u else v) = powerView s := by
  split
  · exact hu
  · exact hv

theorem powerView_forEach_mem {α : Type} {f : Chip → α → Chip} {l : List α} (h : ∀ a ∈ l, ∀ u, powerView (f u a) = powerView u)
    (s : Chip) : powerView (forEach l f s) = powerView s :=
  forEach_keeps (R := fun u v => powerView v = powerView u) (fun _ => rfl) (fun _ _ _ h g => g.trans h) h s

theorem powerView_forEach {α : Type} {f : Chip → α → Chip} (h : ∀ u a, powerView (f u a) = powerView u) (l : List α) (s : Chip) :
    powerView (forEach l f s) = powerView s := powerView_forEach_mem (fun a _ u => h u a) s

theorem powerView_ite_fst {α : Type} {c : Prop} [Decidable c] {s : Chip} {x y : Chip × α} (hx : powerView x.1 = powerView s)
    (hy : powerView y.1 = powerView s) : powerView (if c then x else y).1 = powerView s := by
  split
  · exact hx
  · exact hy

-- Messages and faults (R227 to R231, R524, R547 to R550).

@[simp] theorem powerView_partCode (s : Chip) (p code : Nat) : powerView (partCode s p code) = powerView s :=
  powerView_fset s _ _ _ (power_ne_partStatus p)

@[simp] theorem powerView_tileCode (s : Chip) (t code : Nat) : powerView (tileStatus s t code) = powerView s :=
  powerView_fset s _ _ _ (power_ne_tileStatus t)

theorem powerView_of_onlyHasp {s u : Chip} (h : onlyHasp s u) : powerView u = powerView s := by
  rw [h]
  rfl

@[simp] theorem powerView_toController (s : Chip) (p type status : Nat) (bs : List Byte) :
    powerView (toController s p type status bs) = powerView s := powerView_of_onlyHasp (onlyHasp_hearthSend ..)

@[simp] theorem powerView_faultMsg (s : Chip) (p code lt i fi : Nat) : powerView (faultMsg s p code lt i fi) = powerView s := by
  unfold faultMsg faultSend
  rw [powerView_toController, powerView_partCode, powerView_fsat _ _ _ _ (power_ne_partStatus p)]

@[simp] theorem powerView_takeFault (s : Chip) (t i code unit slot addr : Nat) :
    powerView (takeFault s t i code unit slot addr) = powerView s := by
  have hown : powerView (tileStatus (freeLoopCache s t i) t (if (getStrand s t i).handler then 0x209B else code)) = powerView s :=
    powerView_tileCode ..
  unfold takeFault
  refine powerView_ite hown (powerView_ite ?_ hown)
  rw [powerView_faultMsg]
  exact hown

@[simp] theorem powerView_takePending (s : Chip) (t i : Nat) (f : AFault) : powerView (takePending s t i f) = powerView s :=
  powerView_takeFault ..

@[simp] theorem powerView_postFault (s : Chip) (t i : Nat) (f : AFault) : powerView (postFault s t i f) = powerView s := rfl

@[simp] theorem powerView_retire (s : Chip) (t i : Nat) (c : Ctl) : powerView (retire s t i c) = powerView s :=
  powerView_ite rfl rfl

@[simp] theorem powerView_waitOn (s : Chip) (t i : Nat) (w : Wait) : powerView (waitOn s t i w) = powerView s := rfl

-- Results in register files (R178, R183).

@[simp] theorem powerView_putS (s : Chip) (t i rd v : Nat) (pz : Bool) : powerView (putS t i rd v pz s) = powerView s := rfl

@[simp] theorem powerView_putP (s : Chip) (t i pd : Nat) (b pz : Bool) : powerView (putP t i pd b pz s) = powerView s := rfl

@[simp] theorem powerView_putV (s : Chip) (t i rd : Nat) (r : VRes) : powerView (putV t i rd r s) = powerView s := by
  unfold putV noteEvents
  refine powerView_ite rfl ?_
  rw [powerView_fsat _ _ _ _ (by decide), powerView_fsat _ _ _ _ (by decide)]
  rfl

-- Banks (R120 to R125) and the records in them (R260, R261).

@[simp] theorem powerView_readWord (s : Chip) (t wi : Nat) : powerView (readWord s t wi).1 = powerView s := by
  have hfix : powerView (noteCE (fsat s (aTILE_ECC t) 63 48 1)) = powerView s := by
    rw [powerView_noteCE, powerView_fsat _ _ _ _ (power_ne_tileEcc t)]
  unfold readWord
  dsimp only
  split
  · rfl
  · split
    · split
      · rfl
      · refine powerView_ite ?_ hfix
        rw [powerView_setTile, hfix]
    · rw [powerView_setTile, powerView_fset _ _ _ _ (power_ne_tileEcc t), powerView_fset _ _ _ _ (power_ne_tileEcc t),
        powerView_fsat _ _ _ _ (power_ne_tileEcc t)]

@[simp] theorem powerView_readWords (s : Chip) (t wi n : Nat) : powerView (readWords s t wi n).1 = powerView s := by
  induction n generalizing s wi with
  | zero => rfl
  | succ n ih => exact (ih _ _).trans (powerView_readWord s t wi)

@[simp] theorem powerView_writeWord (s : Chip) (t wi : Nat) (e : Elem) : powerView (writeWord s t wi e) = powerView s := rfl

@[simp] theorem powerView_writeWords (s : Chip) (t wi : Nat) (l : List Elem) : powerView (writeWords s t wi l) = powerView s := by
  induction l generalizing s wi with
  | nil => rfl
  | cons e r ih => exact (ih _ _).trans (powerView_writeWord s t wi e)

@[simp] theorem powerView_writePart (s : Chip) (t a n : Nat) (e : Elem) : powerView (writePart s t a n e) = powerView s := by
  rw [writePart, powerView_writeWord, powerView_readWord, powerView_ctrBank]

@[simp] theorem powerView_writeSome (s : Chip) (t a n : Nat) (e : Elem) : powerView (writeSome s t a n e) = powerView s :=
  powerView_ite rfl (powerView_writePart ..)

@[simp] theorem powerView_readSome (s : Chip) (t a n : Nat) : powerView (readSome s t a n).1 = powerView s :=
  powerView_readWord s t (a / 8)

@[simp] theorem powerView_putBytes (t n : Nat) (s : Chip) (a : Nat) (bs : List (Byte × Bool)) :
    powerView (putBytes t n s a bs) = powerView s := by
  induction n generalizing s a bs with
  | zero => rfl
  | succ n ih => exact powerView_ite rfl ((ih _ _ _).trans (powerView_writeSome ..))

@[simp] theorem powerView_readEach (t n : Nat) (l : List Nat) (s : Chip) : powerView (readEach t n l s).1 = powerView s := by
  induction l generalizing s with
  | nil => rfl
  | cons a r ih => exact (ih _).trans (powerView_readSome s t a n)

@[simp] theorem powerView_writeEach (t n : Nat) (l : List (Nat × Elem)) (s : Chip) : powerView (writeEach t n l s) = powerView s := by
  induction l generalizing s with
  | nil => rfl
  | cons a r ih => exact (ih _).trans (powerView_writeSome s t a.1 n a.2)

theorem powerView_readRow (t d w i n j : Nat) (s : Chip) : powerView (readRow t d w i n j s).1 = powerView s := by
  induction n generalizing s j with
  | zero => rfl
  | succ n ih => exact (ih _ _).trans (powerView_readSome ..)

theorem powerView_readRows (t d w c n i : Nat) (s : Chip) : powerView (readRows t d w c n i s).1 = powerView s := by
  induction n generalizing s i with
  | zero => rfl
  | succ n ih => exact (ih _ _).trans (powerView_readRow t d w i c 0 s)

@[simp] theorem powerView_readRec (s : Chip) (t ta da : Nat) : powerView (readRec s t ta da).1 = powerView s := by
  have htag : powerView (ctrBank (readWords s t (ta / 8) 8).1 t false 1) = powerView s := by
    rw [powerView_ctrBank, powerView_readWords]
  unfold readRec
  dsimp only
  split
  · exact htag
  · split
    · exact htag
    · split
      · exact htag
      · rw [powerView_readRows, htag]

@[simp] theorem powerView_releasePanes (s : Chip) (t a n : Nat) : powerView (releasePanes s t a n) = powerView s := by
  unfold releasePanes
  refine powerView_forEach (fun u k => ?_) _ s
  dsimp only
  split
  · exact powerView_setTile ..
  · rfl

@[simp] theorem powerView_enqueue (s : Chip) (t q : Nat) (o : EngOp) : powerView (enqueue t q o s) = powerView s := rfl

@[simp] theorem powerView_setBusy (s : Chip) (t i code : Nat) (b : Bool) : powerView (setBusy s t i code b) = powerView s := rfl

end Sys2Proof.Proofs
end

section
/-! SUPPORT. The fabric's source side and the stores of device and host memory leave the power state as it was (O59). -/

namespace Sys2Proof.Proofs

open Sys2Proof.Machine

-- The source side of the fabric (R534, R574 to R577, R585 to R589).

@[simp] theorem powerView_charge (s : Chip) (p reg tile n : Nat) : powerView (charge s p reg tile n) = powerView s := by
  unfold charge
  refine powerView_ite rfl (powerView_ite rfl ?_)
  rw [powerView_modPart, powerView_ctrAdd, powerView_fsat _ _ _ _ (power_ne_bwStatus p)]

@[simp] theorem powerView_sendPacket (s : Chip) (r : FReq) (l : Nat) : powerView (sendPacket s r l) = powerView s := by
  unfold sendPacket
  rw [powerView_charge]
  exact powerView_ite rfl rfl

theorem powerView_fab (s : Chip) (f : Fab) : powerView { s with fab := f } = powerView s := rfl

theorem powerView_fabNumber (s : Chip) (r : FReq) : powerView (fabNumber s r) = powerView s := by
  unfold fabNumber
  rw [powerView_fab, powerView_sendPacket]

theorem powerView_fabAccept (s : Chip) (r : FReq) : powerView (fabAccept s r) = powerView s :=
  powerView_ite (powerView_fabNumber s r) rfl

@[simp] theorem powerView_gwFlush (s : Chip) (p rank : Nat) : powerView (gwFlush s p rank) = powerView s := by
  unfold gwFlush
  rw [powerView_forEach (fun _ _ => powerView_fabAccept ..), powerView_fab]

@[simp] theorem powerView_fabSend (s : Chip) (p rank : Nat) (r : FReq) : powerView (fabSend s p rank r) = powerView s := by
  unfold fabSend
  rw [powerView_fabAccept]
  exact powerView_ite (powerView_gwFlush ..) rfl

theorem powerView_fabLoad (s : Chip) (o : FOwner) (rd a : Nat) : powerView (fabLoad s o rd a) = powerView s := by
  unfold fabLoad
  dsimp only
  split
  · rfl
  · rw [powerView_setBusy, powerView_fabSend]

theorem powerView_fabStore (s : Chip) (o : FOwner) (a : Nat) (e : Elem) : powerView (fabStore s o a e) = powerView s := by
  unfold fabStore
  dsimp only
  split
  · refine powerView_ite ?_ rfl
    rw [powerView_gwFlush, powerView_fab]
  · exact powerView_fabSend ..

theorem powerView_fabAtomic (s : Chip) (o : FOwner) (kind rd a operand expect : Nat) (pz : Bool) :
    powerView (fabAtomic s o kind rd a operand expect pz) = powerView s := by
  unfold fabAtomic
  rw [powerView_setBusy, powerView_fabSend]

theorem powerView_newOp (s : Chip) (o : FOp) : powerView (newOp s o).1 = powerView s := rfl

theorem powerView_fabPut (s : Chip) (o : FOwner) (a la len : Nat) (rc lc : Option Nat) :
    powerView (fabPut s o a la len rc lc) = powerView s := by
  unfold fabPut
  dsimp only
  rw [powerView_forEach (fun _ _ => powerView_fabSend ..), powerView_newOp, powerView_ctrBank, powerView_readWords]

theorem powerView_fabGet (s : Chip) (o : FOwner) (a la len : Nat) (lc : Option Nat) :
    powerView (fabGet s o a la len lc) = powerView s := by
  unfold fabGet
  dsimp only
  rw [powerView_forEach (fun _ _ => powerView_fabSend ..), powerView_newOp]

theorem powerView_fabMcast (s : Chip) (o : FOwner) (a la len : Nat) (rc lc : Option Nat) :
    powerView (fabMcast s o a la len rc lc) = powerView s := by
  unfold fabMcast
  dsimp only
  rw [powerView_forEach (fun u q => powerView_forEach (fun _ _ => powerView_fabSend ..) _ u), powerView_newOp, powerView_ctrBank,
    powerView_readWords]

theorem powerView_fenceStart (s : Chip) (o : FOwner) (rank : Nat) : powerView (fenceStart s o rank) = powerView s := by
  unfold fenceStart
  rw [powerView_fab, powerView_forEach (fun _ _ => powerView_gwFlush ..)]

theorem powerView_sendRecord (s : Chip) (o : FOwner) (op phase rank : Nat) (k : RedKey) (h : RedHead) (x : PRec) (c : Bool) :
    powerView (sendRecord s o op phase rank k h x c) = powerView s := powerView_fabSend ..

theorem powerView_fabReduce (s : Chip) (o : FOwner) (sliced : Bool) (cnt stag sdata group dtag ddata dgroup seqNo : Nat) :
    powerView (fabReduce s o sliced cnt stag sdata group dtag ddata dgroup seqNo).1 = powerView s := by
  unfold fabReduce
  dsimp only
  split
  · exact powerView_readRec ..
  · rw [powerView_forEach (fun _ _ => powerView_sendRecord ..), powerView_newOp, powerView_fab, powerView_readRec]

-- `send` (R216, R217).

theorem powerView_inject (s : Chip) (src dst n : Nat) (radio : Bool) : powerView (inject s src dst n radio) = powerView s :=
  powerView_ite rfl (powerView_ite rfl rfl)

theorem powerView_flights (s : Chip) (n : Nat) (l : List Flight) : powerView { s with nextId := n, flights := l } = powerView s := rfl

theorem powerView_sendGo (s : Chip) (t i a b fn : Nat) : powerView (sendGo t i a b fn s) = powerView s := by
  unfold sendGo
  dsimp only
  rw [powerView_flights, powerView_enqueue]
  refine powerView_ite ?_ ?_
  · rw [powerView_inject, powerView_ctrBank, powerView_readWords]
  · rw [powerView_charge, powerView_inject, powerView_ctrBank, powerView_readWords]

-- Device memory (R291 to R298, R545).

theorem powerView_mem (s : Chip) (m : MemS) : powerView { s with mem := m } = powerView s := rfl

theorem powerView_putBurst (s : Chip) (c mb : Nat) (bs : List Byte) (pz : Bool) : powerView (putBurst s c mb bs pz) = powerView s := rfl

theorem powerView_modChan (s : Chip) (c : Nat) (f : Chan → Chan) : powerView (modChan s c f) = powerView s := rfl

theorem powerView_memLog (s : Chip) (c mb code : Nat) : powerView (memLog s c mb code) = powerView s := by
  unfold memLog
  rw [powerView_fset _ _ _ _ (power_ne_memErrlog c), powerView_fset _ _ _ _ (power_ne_memErrlog c)]

theorem powerView_failChannel (s : Chip) (c : Nat) : powerView (failChannel s c) = powerView s := by
  unfold failChannel
  rw [powerView_fset _ _ _ _ (power_ne_swageStatus c), powerView_fset _ _ _ _ (power_ne_memStatus c)]

theorem powerView_uncorrectable (s : Chip) (c mb : Nat) : powerView (uncorrectable s c mb) = powerView s := by
  have hlog (f : Chan → Chan) :
      powerView (modChan (fsat (memLog (putBurst s c mb (List.replicate 64 0#8) true) c mb 0x2001) (aMEM_ECC c) 47 32 1) c f) =
        powerView s := by
    rw [powerView_modChan, powerView_fsat _ _ _ _ (power_ne_memEcc c), powerView_memLog, powerView_putBurst]
  unfold uncorrectable
  dsimp only
  split
  · rw [powerView_failChannel, hlog]
  · exact hlog _

theorem powerView_readBurst (s : Chip) (p c mb : Nat) : powerView (readBurst s p c mb).1 = powerView s := by
  unfold readBurst
  dsimp only
  split
  · exact powerView_memLog ..
  · split
    · exact powerView_ctrAdd ..
    · split
      · rw [powerView_modChan, powerView_noteCE, powerView_fsat _ _ _ _ (power_ne_memEcc c), powerView_ctrAdd]
      · rw [powerView_uncorrectable, powerView_ctrAdd]

theorem powerView_writeBurst (s : Chip) (p c mb o : Nat) (bs : List MByte) : powerView (writeBurst s p c mb o bs).1 = powerView s := by
  unfold writeBurst
  dsimp only
  split
  · exact powerView_memLog ..
  · split
    · rw [powerView_ctrAdd, powerView_putBurst]
    · rw [powerView_ctrAdd, powerView_putBurst, powerView_readBurst]

theorem powerView_devReadGo (p n : Nat) (s : Chip) (a len : Nat) : powerView (devReadGo p n s a len).1 = powerView s := by
  induction n generalizing s a len with
  | zero => rfl
  | succ n ih =>
    unfold devReadGo
    dsimp only
    split
    · rfl
    · split
      · exact (ih _ _ _).trans (powerView_readBurst ..)
      · rfl
      · rfl

theorem powerView_devWriteGo (p n : Nat) (s : Chip) (a : Nat) (bs : List MByte) : powerView (devWriteGo p n s a bs).1 = powerView s := by
  induction n generalizing s a bs with
  | zero => rfl
  | succ n ih =>
    unfold devWriteGo
    dsimp only
    split
    · rfl
    · split
      · exact (ih _ _ _).trans (powerView_writeBurst ..)
      · rfl
      · rfl

theorem powerView_devWriteRaw (s : Chip) (p a : Nat) (bs : List MByte) : powerView (devWriteRaw s p a bs).1 = powerView s :=
  powerView_devWriteGo ..

theorem powerView_devRead (s : Chip) (p a len : Nat) : powerView (devRead s p a len).1 = powerView s := powerView_devReadGo ..

theorem powerView_markDirty (s : Chip) (p a : Nat) : powerView (markDirty s p a) = powerView s := by
  unfold markDirty
  dsimp only
  split
  · split
    · rfl
    · rw [powerView_devWriteRaw, powerView_devRead]
  · rfl

theorem powerView_devWrite (s : Chip) (p fn a : Nat) (bs : List MByte) : powerView (devWrite s p fn a bs).1 = powerView s := by
  unfold devWrite
  dsimp only
  split
  · exact powerView_ite (powerView_partCode ..) rfl
  · rw [powerView_devWriteRaw, powerView_markDirty]

-- Host memory (R347, R545).

theorem powerView_hostPut (s : Chip) (a : Nat) (bs : List Byte) : powerView (hostPut s a bs) = powerView s :=
  powerView_ite rfl (powerView_mem ..)

theorem powerView_dlogPage (s : Chip) (f page : Nat) : powerView (dlogPage s f page).1 = powerView s := by
  unfold dlogPage
  dsimp only
  split
  · rfl
  · split
    · rfl
    · rw [powerView_mem, powerView_fset _ _ _ _ (power_ne_dlogStatus f), powerView_hostPut]

theorem powerView_dlogPages (f n page : Nat) (s : Chip) : powerView (dlogPages f n page s).1 = powerView s := by
  induction n generalizing s page with
  | zero => rfl
  | succ n ih =>
    unfold dlogPages
    dsimp only
    split
    · exact (ih _ _).trans (powerView_dlogPage ..)
    · exact powerView_dlogPage ..

theorem powerView_hostWrite (s : Chip) (p f a : Nat) (bs : List MByte) : powerView (hostWrite s p f a bs) = powerView s := by
  have hlog (n bad : Nat) :
      powerView (dlogPages f n (a / 4096) (if bad == 0 then s else fsat s aRAS_POISON 63 32 bad)).1 = powerView s := by
    rw [powerView_dlogPages]
    exact powerView_ite rfl (powerView_fsat _ _ _ _ (by decide))
  unfold hostWrite
  refine powerView_ite ?_ ?_
  · rw [powerView_hostPut, powerView_ctrAdd, hlog]
  · rw [powerView_mem]
    have hcount (v : Chip) (hv : powerView v = powerView s) : powerView (fsat v (aDLOG_STATUS f) 63 48 1) = powerView s :=
      (powerView_fsat _ _ _ _ (power_ne_dlogStatus f)).trans hv
    refine powerView_ite (powerView_ite (hlog ..) (hcount _ (hlog ..))) ?_
    rw [powerView_partCode]
    exact powerView_ite (hlog ..) (hcount _ (hlog ..))

end Sys2Proof.Proofs
end

section
/-! SUPPORT. No slot of a bundle, and so no strand that tries again, reaches the power state (O59). -/

namespace Sys2Proof.Proofs

open Sys2Proof.Machine

/-- A slot that leaves the power state alone, in what it sets off and in its effect. -/
structure sparesPower (r : SlotRec) : Prop where
  start : ∀ u, powerView (r.start u) = powerView u
  eff : ∀ u, powerView (r.eff u) = powerView u

theorem sparesPower_of_eff {r : SlotRec} (hstart : r.start = id) (h : ∀ u, powerView (r.eff u) = powerView u) : sparesPower r :=
  ⟨fun u => by rw [hstart]; rfl, h⟩

theorem sparesPower_idle {r : SlotRec} (hstart : r.start = id) (heff : r.eff = id) : sparesPower r :=
  sparesPower_of_eff hstart (fun u => by rw [heff]; rfl)

-- What the records of one form share.

theorem sparesPower_scalarSlot (t i : Nat) (x : Strand) (site : Site) (legal : Bool) (rd : Nat) (srcs : List Nat) (v : Nat) :
    sparesPower (scalarSlot t i x site legal rd srcs v) := sparesPower_of_eff rfl (fun u => powerView_putS u ..)

theorem sparesPower_vecSlot (t i : Nat) (x : Strand) (site : Site) (slots : List Nat) (legal : Bool) (rd : Nat) (srcs : List Nat)
    (r : VRes) : sparesPower (vecSlot t i x site slots legal rd srcs r) := sparesPower_of_eff rfl (fun u => powerView_putV u ..)

theorem sparesPower_engSlot (t i : Nat) (x : Strand) (site : Site) (slots : List Nat) (legal : Bool) (pairs regs : List Nat)
    (pre own : List (Nat × Nat)) (q : Nat) (k : EngKind) (kc mode : Nat) :
    sparesPower (engSlot t i x site slots legal pairs regs pre own q k kc mode) :=
  sparesPower_of_eff rfl (fun u => powerView_enqueue u ..)

theorem sparesPower_fulSlot (s : Chip) (t i : Nat) (x : Strand) (site : Site) (f : FmtE) (mask : Nat) (c : Bool) (u : FulUse)
    (fr4 : Bool) (k : EngKind) : sparesPower (fulSlot s t i x site f mask c u fr4 k) := sparesPower_engSlot ..

theorem sparesPower_cMove (s : Chip) (t i : Nat) (x : Strand) (site : Site) (f : FmtRI) (k : EngKind) :
    sparesPower (cMove s t i x site f k) := sparesPower_of_eff rfl (fun u => powerView_enqueue u ..)

-- Control (R198 to R215).

theorem sparesPower_jr (x : Strand) (site : Site) (f : FmtR3) : sparesPower (recJr x site f) := by
  unfold recJr
  dsimp only
  split
  · exact sparesPower_idle rfl rfl
  · exact sparesPower_idle rfl rfl

theorem sparesPower_loopc (s : Chip) (t i : Nat) (x : Strand) (site : Site) (ra len : Nat) :
    sparesPower (recLoopc s t i x site ra len) := sparesPower_of_eff rfl (fun _ => powerView_ite rfl rfl)

theorem sparesPower_waitT (s : Chip) (t i : Nat) (x : Strand) (site : Site) (f : FmtW) : sparesPower (recWaitT s t i x site f) := by
  unfold recWaitT
  dsimp only
  split
  · exact sparesPower_of_eff rfl (fun u => powerView_modStrand u ..)
  · exact sparesPower_idle rfl rfl

theorem sparesPower_wfence (s : Chip) (t i : Nat) (x : Strand) (site : Site) (f : FmtW) : sparesPower (recWfence s t i x site f) :=
  ⟨fun u => powerView_fenceStart u .., fun u => powerView_modStrand u ..⟩

-- Memory and moves (R246 to R257).

theorem sparesPower_scalarLoad (s : Chip) (t i : Nat) (x : Strand) (site : Site) (op : Nat) (f : FmtRI) :
    sparesPower (recScalarLoad s t i x site op f) := sparesPower_of_eff rfl (fun u => by
  dsimp only [recScalarLoad]
  rw [powerView_modStrand, powerView_ctrBank, powerView_readSome])

theorem sparesPower_scalarStore (s : Chip) (t : Nat) (x : Strand) (site : Site) (op : Nat) (f : FmtRI) :
    sparesPower (recScalarStore s t x site op f) := sparesPower_of_eff rfl (fun u => by
  dsimp only [recScalarStore]
  rw [powerView_releasePanes, powerView_ctrBank, powerView_writeSome])

theorem sparesPower_amo (s : Chip) (t i : Nat) (x : Strand) (site : Site) (f : FmtR3) : sparesPower (recAmo s t i x site f) :=
  sparesPower_of_eff rfl (fun u => by
    dsimp only [recAmo]
    rw [powerView_putS, powerView_releasePanes, powerView_ctrBank, powerView_ctrBank, powerView_writeWord, powerView_readWord])

theorem sparesPower_cas (s : Chip) (t i : Nat) (x : Strand) (site : Site) (f : FmtR3) : sparesPower (recCas s t i x site f) :=
  sparesPower_of_eff rfl (fun u => by
    dsimp only [recCas]
    rw [powerView_putS, powerView_releasePanes, powerView_ctrBank]
    refine powerView_ite ?_ (powerView_readWord ..)
    rw [powerView_ctrBank, powerView_writeWord, powerView_readWord])

theorem sparesPower_vld (s : Chip) (t i : Nat) (x : Strand) (site : Site) (f : FmtRI) : sparesPower (recVld s t i x site f) :=
  sparesPower_of_eff rfl (fun u => by
    dsimp only [recVld]
    rw [powerView_modStrand, powerView_ctrBank, powerView_readWords])

theorem sparesPower_vst (s : Chip) (t : Nat) (x : Strand) (site : Site) (f : FmtRI) : sparesPower (recVst s t x site f) :=
  sparesPower_of_eff rfl (fun u => by
    dsimp only [recVst]
    rw [powerView_releasePanes, powerView_ctrBank, powerView_writeWords])

theorem sparesPower_vlds (s : Chip) (t i : Nat) (x : Strand) (site : Site) (f : FmtR3) : sparesPower (recVlds s t i x site f) :=
  sparesPower_of_eff rfl (fun u => by
    dsimp only [recVlds]
    rw [powerView_modStrand, powerView_ctrBank, powerView_readEach])

theorem sparesPower_vsts (s : Chip) (t : Nat) (x : Strand) (site : Site) (f : FmtR3) : sparesPower (recVsts s t x site f) :=
  sparesPower_of_eff rfl (fun u => by
    dsimp only [recVsts]
    rw [powerView_forEach (fun _ _ => powerView_releasePanes ..), powerView_ctrBank, powerView_writeEach])

theorem sparesPower_mvcv (s : Chip) (t i : Nat) (x : Strand) (site : Site) (f : FmtR3) : sparesPower (recMvcv s t i x site f) :=
  sparesPower_of_eff rfl (fun u => by
    dsimp only [recMvcv]
    rw [powerView_setBusy, powerView_enqueue])

-- The fabric (R576 to R587).

theorem sparesPower_fcopy (s : Chip) (t i : Nat) (x : Strand) (site : Site) (f : FmtD) : sparesPower (recFcopy s t i x site f) :=
  sparesPower_of_eff rfl (fun u => powerView_ite (powerView_fabGet u ..) (powerView_fabPut u ..))

theorem sparesPower_fred (s : Chip) (t i : Nat) (x : Strand) (site : Site) (f : FmtD) : sparesPower (recFred s t i x site f) :=
  sparesPower_of_eff rfl (fun u => powerView_ite (powerView_fabReduce u ..)
    ((powerView_postFault ..).trans (powerView_fabReduce u ..)))

/-- Every command's slot leaves the power state alone. -/
theorem sparesPower_slotRec (s : Chip) (t i : Nat) (x : Strand) (c : Instr) : sparesPower (slotRec s t i x c) := by
  cases c with
  | call site off => exact sparesPower_of_eff rfl (fun u => powerView_modStrand u ..)
  | jr site f => exact sparesPower_jr ..
  | loopc site ra len => exact sparesPower_loopc ..
  | waitT site f => exact sparesPower_waitT ..
  | acadd site f => exact sparesPower_of_eff rfl (fun u => powerView_acAdd u ..)
  | acset site f => exact sparesPower_of_eff rfl (fun u => powerView_acSet u ..)
  | wward site f => exact sparesPower_of_eff rfl (fun u => powerView_modStrand u ..)
  | wfence site f => exact sparesPower_wfence ..
  | mfsr site f => exact sparesPower_of_eff rfl (fun u => powerView_modStrand u ..)
  | mtsr site f => exact sparesPower_of_eff rfl (fun u => powerView_modStrand u ..)
  | scalarAlu site f | scalarShift site f | scalarMul site f | scalarMulh site f | scalarMinmax site f => exact sparesPower_scalarSlot ..
  | scalarAluImm site op f | li site f | ins16 site f => exact sparesPower_scalarSlot ..
  | scalarShiftImm site op f | rng site f | mvvs site f => exact sparesPower_of_eff rfl (fun u => powerView_putS u ..)
  | predicateLogic site f | cmp site f | cmpImm site op f => exact sparesPower_of_eff rfl (fun u => powerView_putP u ..)
  | scalarLoad site op f => exact sparesPower_scalarLoad ..
  | scalarStore site op f => exact sparesPower_scalarStore ..
  | amo site f => exact sparesPower_amo ..
  | cas site f => exact sparesPower_cas ..
  | vfadd site op f | vfma site f | vfminmax site op f | vfun site f | vfcmp site f | vsel site f | vint site f =>
    exact sparesPower_vecSlot ..
  | vcvt site f | vcvtf site f | vmxq site f | vfsum site f | vcopy site f => exact sparesPower_vecSlot ..
  | vrng site f | mvsv site f | vbc site f => exact sparesPower_of_eff rfl (fun u => powerView_putV u ..)
  | vld site f => exact sparesPower_vld ..
  | vst site f => exact sparesPower_vst ..
  | vlds site f => exact sparesPower_vlds ..
  | vsts site f => exact sparesPower_vsts ..
  | mvcv site f => exact sparesPower_mvcv ..
  | mvvc site f => exact sparesPower_of_eff rfl (fun u => powerView_enqueue u ..)
  | cld site f | cst site f => exact sparesPower_cMove ..
  | xld site f | bmv site f | kst site f | kld site f | pcomb site f | amerge site f | afinal site f | mm site f | mew site f =>
    exact sparesPower_engSlot ..
  | fcmul site f | fcmac site f | fwb site f | ffir site f | fmag2 site f | fr4 site f | fr2 site f => exact sparesPower_fulSlot ..
  | fbexp site f => exact sparesPower_of_eff rfl (fun u => powerView_enqueue u ..)
  | mvt site f | dtap site f | stap site f => exact sparesPower_engSlot ..
  | send site f => exact sparesPower_of_eff rfl (fun u => powerView_sendGo u ..)
  | fld site f => exact sparesPower_of_eff rfl (fun u => powerView_fabLoad u ..)
  | fst site f => exact sparesPower_of_eff rfl (fun u => powerView_fabStore u ..)
  | famo site f | fcas site f => exact sparesPower_of_eff rfl (fun u => powerView_fabAtomic u ..)
  | fcopy site f => exact sparesPower_fcopy ..
  | fmcast site f => exact sparesPower_of_eff rfl (fun u => powerView_fabMcast u ..)
  | fred site f => exact sparesPower_fred ..
  | _ => exact sparesPower_idle rfl rfl

-- A bundle, and the strands that try again (R188, R194, R227, R228).

theorem powerView_startSlots {rs : List SlotRec} (h : ∀ r ∈ rs, sparesPower r) (s : Chip) :
    powerView (startSlots s rs) = powerView s := by
  unfold startSlots
  induction rs generalizing s with
  | nil => rfl
  | cons r l ih => exact (ih (fun q hq => h q (.tail _ hq)) _).trans ((h r (.head _)).start s)

theorem powerView_runSlots {rs : List SlotRec} (h : ∀ r ∈ rs, sparesPower r) (s : Chip) : powerView (runSlots s rs) = powerView s := by
  unfold runSlots
  induction rs generalizing s with
  | nil => rfl
  | cons r l ih => exact (ih (fun q hq => h q (.tail _ hq)) _).trans ((h r (.head _)).eff s)

theorem powerView_issue {all : List SlotRec} (h : ∀ r ∈ all, sparesPower r) (s : Chip) (t i : Nat) :
    powerView (issue s t i all) = powerView s := by
  have hrs : ∀ r ∈ all.filter (fun r => r.on && !r.pz), sparesPower r := fun r hr => h r (List.mem_of_mem_filter hr)
  unfold issue
  dsimp only
  split
  · rfl
  · split
    · exact powerView_takeFault ..
    · split
      · rfl
      · split
        · rw [powerView_waitOn, powerView_startSlots hrs]
        · rw [powerView_retire, powerView_runSlots hrs, powerView_startSlots hrs]

theorem sparesPower_slotRecs (s : Chip) (t i : Nat) : ∀ r ∈ slotRecs s t i, sparesPower r := by
  intro r hr
  unfold slotRecs inOrder at hr
  obtain ⟨k, -, hk⟩ := List.mem_filterMap.mp hr
  obtain ⟨c, -, rfl⟩ := List.mem_map.mp (List.mem_of_find?_eq_some hk)
  exact sparesPower_slotRec ..

theorem powerView_tryIssue (s : Chip) (t i : Nat) : powerView (tryIssue s t i) = powerView s := by
  unfold tryIssue
  dsimp only
  split
  · rfl
  · split
    · exact powerView_takePending ..
    · refine powerView_ite rfl (powerView_ite (powerView_takeFault ..) (powerView_ite rfl (powerView_ite (powerView_takeFault ..) ?_)))
      exact powerView_issue (sparesPower_slotRecs s t i) s t i

theorem powerView_retry (s : Chip) (t i : Nat) : powerView (retry s t i) = powerView s := by
  unfold retry
  split
  · rfl
  · exact powerView_ite rfl (powerView_tryIssue ..)

@[simp] theorem powerView_retryTile (s : Chip) (t : Nat) : powerView (retryTile s t) = powerView s := by
  unfold retryTile retryCache
  rw [powerView_forEach (fun _ _ => powerView_ite (powerView_tryIssue ..) rfl), powerView_forEach (fun _ _ => powerView_retry ..)]

end Sys2Proof.Proofs
end

section
/-! SUPPORT. What the blocks of a domain lose, and how they fail, leaves the power state as it was (O59). -/

namespace Sys2Proof.Proofs

open Sys2Proof.Machine

-- Coding halves (R451 to R455).

theorem powerView_swLog (s : Chip) (u code : Nat) : powerView (swLog s u code) = powerView s := by
  unfold swLog
  rw [powerView_fsat _ _ _ _ (power_ne_swageErr u), powerView_fset _ _ _ _ (power_ne_swageErr u)]

theorem powerView_setUnit (s : Chip) (u : Nat) (x : SwUnit) : powerView (setUnit s u x) = powerView s := rfl

theorem powerView_swCounts (s : Chip) (u : Nat) : powerView (swCounts s u) = powerView s := by
  unfold swCounts
  rw [powerView_fset _ _ _ _ (power_ne_swageStatus u), powerView_fset _ _ _ _ (power_ne_swageStatus u)]

theorem powerView_swageAccept (s : Chip) (u p sender off : Nat) (r : List MByte) :
    powerView (swageAccept s u p sender off r).1 = powerView s := by
  unfold swageAccept
  refine powerView_ite_fst ?_ ?_
  · rw [powerView_swLog]
    exact powerView_ite (powerView_partCode ..) rfl
  · dsimp only
    rw [powerView_swCounts, powerView_setUnit]

theorem powerView_devPort (s : Chip) (p fn sender a : Nat) (bs : List MByte) : powerView (devPort s p fn sender a bs).1 = powerView s := by
  unfold devPort
  split
  · exact powerView_swageAccept ..
  · exact powerView_devWrite ..

theorem powerView_memCharge (s : Chip) (c : List Byte) (a n : Nat) (w : Bool) : powerView (memCharge s c a n w) = powerView s :=
  powerView_ite rfl (powerView_charge ..)

theorem powerView_sideWrite (s : Chip) (c : List Byte) (q slot a : Nat) (bs : List MByte) :
    powerView (sideWrite s c q slot a bs).1 = powerView s := by
  unfold sideWrite
  dsimp only
  split
  · split
    · rfl
    · rw [powerView_devPort, powerView_memCharge]
  · split
    · split
      · rfl
      · unfold storeMarked
        rw [powerView_ctrAdd, powerView_ctrBank, powerView_putBytes]
    · split
      · split
        · rfl
        · exact powerView_hostWrite ..
      · split
        · split
          · rfl
          · exact powerView_forEach (fun _ _ => powerView_fabSend ..) _ s
        · rfl

theorem powerView_codeWrite (s : Chip) (a : Nat) (bs : List MByte) : powerView (codeWrite s a bs).1 = powerView s := by
  unfold codeWrite
  rw [powerView_ctrAdd, powerView_sideWrite]

theorem powerView_radioCode (s : Chip) (code : Nat) : powerView (radioCode s code) = powerView s := powerView_fset _ _ _ _ (by decide)

theorem powerView_codeCode (s : Chip) (h code : Nat) : powerView (codeStatus s h code) = powerView s :=
  powerView_ite rfl ((powerView_radioCode ..).trans (powerView_fset _ _ _ _ (power_ne_codeStatus h)))

theorem powerView_endBlock (s : Chip) (h : Nat) (j : CodeJob) (code iters res : Nat) :
    powerView (endBlock s h j code iters res) = powerView s := by
  have hrec (a : Nat) (bs : List MByte) :
      powerView (codeStatus (fsat (codeWrite s a bs).1 (aCODE_STATUS h) 63 32 1) h code) = powerView s := by
    rw [powerView_codeCode, powerView_fsat _ _ _ _ (power_ne_codeStatus h), powerView_codeWrite]
  unfold endBlock
  dsimp only
  split
  · refine powerView_ite (hrec ..) ?_
    rw [powerView_retryTile, powerView_acArrive, hrec]
  · exact hrec ..

theorem powerView_loseBlock (s : Chip) (h : Nat) (j : CodeJob) : powerView (loseBlock s h j) = powerView s := by
  unfold loseBlock
  rw [powerView_endBlock]
  exact powerView_ite rfl (powerView_codeWrite ..)

theorem powerView_setRing (s : Chip) (k : Nat) (x : CodeRing) : powerView (setRing s k x) = powerView s := rfl

theorem powerView_rebind (s : Chip) (l : List Nat) (b : Bool) :
    powerView (rdMod s (fun r => { r with rebind := l, reproving := b })) = powerView s := rfl

theorem powerView_loseHalf (s : Chip) (h st : Nat) : powerView (loseHalf s h st) = powerView s := by
  have hrings (l : List Nat) : powerView (forEach l (fun u k =>
      forEach (getRing u k).jobs (fun v j => loseBlock v h j) (setRing u k { getRing u k with jobs := [] })) s) = powerView s :=
    powerView_forEach (fun u k => (powerView_forEach (fun v j => powerView_loseBlock v h j) _ _).trans (powerView_setRing ..)) l s
  unfold loseHalf
  change powerView (fset _ (aCODE_STATUS h) 3 0 st) = _
  rw [powerView_fset _ _ _ _ (power_ne_codeStatus h), hrings]

-- Links (R559 to R573).

theorem powerView_countLinks (s : Chip) : powerView (countLinks s) = powerView s := by
  unfold countLinks
  rw [powerView_fset _ _ _ _ (by decide), powerView_fset _ _ _ _ (by decide), powerView_fset _ _ _ _ (by decide),
    powerView_fset _ _ _ _ (by decide)]

theorem powerView_setLink (s : Chip) (l st : Nat) : powerView (setLink s l st) = powerView s := by
  unfold setLink
  rw [powerView_countLinks, powerView_fset _ _ _ _ (power_ne_linkStatus l)]

theorem powerView_linkEvent (s : Chip) (l code : Nat) : powerView (linkEvent s l code) = powerView s := by
  unfold linkEvent fabEvent fabCode
  rw [powerView_raiseIrq, powerView_fset _ _ _ _ (by decide), powerView_fset _ _ _ _ (power_ne_linkStatus l)]

theorem powerView_newEpoch (s : Chip) : powerView (newEpoch s) = powerView s := by
  unfold newEpoch
  rw [powerView_fset _ _ _ _ (by decide), powerView_fabMod]

theorem powerView_resend (s : Chip) (r : FReq) : powerView (resend s r) = powerView s := by
  unfold resend
  dsimp only
  rw [powerView_fabMod, powerView_sendPacket, powerView_fsat _ _ _ _ (by decide)]

theorem powerView_endFences (s : Chip) : powerView (endFences s) = powerView s :=
  powerView_forEach (fun _ _ => powerView_retryTile ..) _ s

/-- The entries of the link map lie in four registers (R572). -/
theorem powerView_setMapEntry (s : Chip) {k : Nat} (v : Nat) (h : k < 32) : powerView (setMapEntry s k v) = powerView s := by
  refine powerView_fset _ _ _ _ ?_
  unfold aPWR_DOMAIN aFAB_LINKMAP
  omega

theorem powerView_leaveLink (s : Chip) (l : Nat) : powerView (leaveLink s l) = powerView s := by
  have hmoved : ∀ n, powerView (newEpoch (forEach (List.range 32) (fun st k => if mapEntry st k == l then setMapEntry st k n else st) s)) =
      powerView s := fun n => by
    rw [powerView_newEpoch,
      powerView_forEach_mem (fun k hk _ => powerView_ite (powerView_setMapEntry _ _ (List.mem_range.mp hk)) rfl)]
  unfold leaveLink
  dsimp only
  rw [powerView_endFences, powerView_forEach (fun _ _ => powerView_resend ..), powerView_fabMod]
  split
  · rfl
  · exact powerView_ite (hmoved _) rfl

theorem powerView_dropLink (s : Chip) (l st : Nat) : powerView (dropLink s l st) = powerView s := by
  have hdown : powerView (if st == 4 then linkEvent (setLink s l st) l 0x3001 else setLink s l st) = powerView s :=
    powerView_ite ((powerView_linkEvent ..).trans (powerView_setLink ..)) (powerView_setLink ..)
  exact powerView_ite ((powerView_leaveLink ..).trans hdown) hdown

theorem powerView_offLinks (s : Chip) (g : Nat) : powerView (offLinks s g) = powerView s :=
  powerView_forEach (fun _ _ => powerView_ite rfl (powerView_dropLink ..)) _ s

-- Memory, ports and traces (R340, R488, R511, R650).

theorem powerView_refuseHeld (s : Chip) (u : Nat) : powerView (refuseHeld s u) = powerView s := by
  unfold refuseHeld
  dsimp only
  rw [powerView_forEach (fun _ _ => powerView_swLog ..), powerView_setUnit]

theorem powerView_loseModules (s : Chip) (g : Nat) : powerView (loseModules s g) = powerView s := rfl

theorem powerView_offMemory (s : Chip) {g : Nat} (hg : g < 4) : powerView (offMemory s g) = powerView s := by
  unfold offMemory
  rw [powerView_forEach_mem (fun c hc u => ?_), powerView_loseModules]
  have hc' : aPWR_DOMAIN ≠ aSWAGE_CTL c := by
    obtain ⟨i, hi, rfl⟩ := List.mem_map.mp hc
    have := List.mem_range.mp hi
    unfold aPWR_DOMAIN aSWAGE_CTL
    omega
  rw [powerView_fset _ _ _ _ (power_ne_swageStatus c), powerView_fset _ _ _ _ (power_ne_memStatus c), powerView_refuseHeld,
    powerView_fsetb _ _ _ hc']

theorem power_ne_port {p off : Nat} (hp : p < 8) (ho : off < 0x10000) : aPWR_DOMAIN ≠ aFH p off := by
  unfold aPWR_DOMAIN aFH
  omega

theorem powerView_portCodes (s : Chip) {p : Nat} (hp : p < 8) (l : List Nat) : powerView (portCodes s p l) = powerView s := by
  refine powerView_ite rfl ?_
  rw [powerView_fset _ _ _ _ (power_ne_port hp (by omega)), powerView_fsat _ _ _ _ (power_ne_port hp (by omega))]

theorem powerView_modPort (s : Chip) (p : Nat) (f : FhPort → FhPort) : powerView (modPort s p f) = powerView s := rfl

theorem powerView_portDown (s : Chip) {p : Nat} (hp : p < 8) : powerView (portDown s p) = powerView s := by
  refine powerView_ite rfl ?_
  unfold flushEgress
  rw [powerView_portCodes _ hp, powerView_modPort, powerView_portCodes _ hp, powerView_fset _ _ _ _ (power_ne_port hp (by omega))]

theorem powerView_tmMod (s : Chip) (f : TimeS → TimeS) : powerView (tmMod s f) = powerView s := rfl

theorem powerView_servoTo (s : Chip) (v : Nat) : powerView (servoTo s v) = powerView s := by
  unfold servoTo
  rw [powerView_tmMod, powerView_fsetb _ _ _ (by decide), powerView_fset _ _ _ _ (by decide)]

theorem powerView_offPorts (s : Chip) : powerView (offPorts s) = powerView s := by
  have hdown : powerView (forEach (List.range 8) portDown s) = powerView s :=
    powerView_forEach_mem (fun _ hp u => powerView_portDown u (List.mem_range.mp hp)) s
  unfold offPorts timeCode
  refine powerView_ite ?_ hdown
  rw [powerView_fset _ _ _ _ (by decide), powerView_tmMod, powerView_servoTo, hdown]

theorem powerView_obMod (s : Chip) (f : Obs → Obs) : powerView (obMod s f) = powerView s := rfl

theorem powerView_traceLost (s : Chip) : powerView (traceLost s) = powerView s := by
  unfold traceLost setTrace
  rw [powerView_fset _ _ _ _ (by decide), powerView_fset _ _ _ _ (by decide), powerView_obMod]

-- Tiles (R173, R650).

theorem powerView_cleanTile (s : Chip) (t : Nat) : powerView (cleanTile s t) = powerView s := by
  obtain ⟨⟨hu, hb⟩, -⟩ := cleans_cleanTile s t
  have hpwr : barGet (cleanTile s t) aPWR_DOMAIN = barGet s aPWR_DOMAIN := hb _ (by simp)
  obtain ⟨u, hc⟩ : ∃ u, u = cleanTile s t := exists_eq
  rw [← hc] at hu hpwr ⊢
  unfold powerView
  rw [hpwr, hu]
  rfl

theorem powerView_offTile (s : Chip) (t : Nat) : powerView (offTile s t) = powerView s := by
  unfold offTile
  rw [powerView_fsetb _ _ _ (power_ne_tileStatus t), powerView_fsetb _ _ _ (power_ne_tileStatus t), powerView_modTile,
    powerView_cleanTile]

/-- What the blocks of a domain lose is nothing of the power state (R650). -/
theorem powerView_offBlocks (s : Chip) {d : Nat} (hd : d < 50) : powerView (offBlocks s d) = powerView s := by
  unfold offBlocks
  refine powerView_ite (powerView_forEach powerView_offTile _ s) ?_
  refine powerView_ite (powerView_ite rfl (powerView_loseHalf ..)) ?_
  split
  · exact powerView_offMemory s (by omega)
  · exact powerView_ite (powerView_offLinks ..) (powerView_ite (powerView_offPorts s) (powerView_ite (powerView_traceLost s) rfl))

-- Fenced tiles (R173).

theorem powerView_notice (s : Chip) (p kind reason pass ltiles : Nat) : powerView (notice s p kind reason pass ltiles) = powerView s := by
  unfold notice noticeTiles
  dsimp only
  rw [powerView_toController]
  refine powerView_ite (powerView_modPart ..) ?_
  rw [powerView_forEach (fun u t => ?_), powerView_modPart]
  refine powerView_ite rfl (powerView_ite rfl ?_)
  rw [powerView_retryTile, powerView_acArrive, powerView_ctrBank, powerView_putBytes]

theorem powerView_radioLose (s : Chip) (l : Nat) : powerView (radioLose s l) = powerView s := powerView_ite rfl rfl

theorem powerView_tileLost (s : Chip) (t : Nat) : powerView (tileLost s t) = powerView s := by
  unfold tileLost
  refine powerView_ite rfl ?_
  dsimp only
  split
  · rfl
  · unfold makeAbsent
    rw [powerView_modPart]
    have hsent (p l : Nat) : powerView (faultMsg (notice s p 3 4 0 (2 ^ l)) p 0x4020 l 0xFF 0) = powerView s := by
      rw [powerView_faultMsg, powerView_notice]
    refine powerView_ite ?_ (hsent ..)
    rw [powerView_radioLose, hsent]

theorem powerView_cut (s : Chip) (l : List Flight) : powerView { s with flights := l } = powerView s := rfl

theorem powerView_fenceTile (s : Chip) (t : Nat) : powerView (fenceTile s t) = powerView s := by
  unfold fenceTile
  refine powerView_ite rfl ?_
  rw [powerView_tileLost, powerView_cut, powerView_modTile, powerView_fsetb _ _ _ (power_ne_tileStatus t),
    powerView_fsetb _ _ _ (power_ne_tileCtl t)]

/-- Nor is it when they fail with their regulator (R652). -/
theorem powerView_failBlocks (s : Chip) {d : Nat} (hd : d < 50) : powerView (failBlocks s d) = powerView s := by
  unfold failBlocks
  refine powerView_ite (powerView_forEach powerView_fenceTile _ s) ?_
  refine powerView_ite (powerView_ite rfl (powerView_loseHalf ..)) ?_
  exact powerView_ite (powerView_forEach powerView_failChannel _ s) (powerView_offBlocks s hd)

end Sys2Proof.Proofs
end

section
/-! SUPPORT. Power samples, the throttle's steps, and the limit (O59). -/

namespace Sys2Proof.Proofs

open Sys2Proof.Machine

/-- The power state taken from another chip. -/
def putRas (u s : Chip) : Chip := { s with ras := u.ras }

theorem parts_ras : Parts putRas := ⟨fun _ _ _ _ => rfl, fun _ _ => rfl⟩

theorem within_rasMod (ks : List Nat) (s : Chip) (f : Ras → Ras) : within putRas ks s (rasMod s f) := ⟨rfl, fun _ _ => rfl⟩

theorem tiles_of_within_ras {ks : List Nat} {s u : Chip} (h : within putRas ks s u) : u.tiles = s.tiles := by
  rw [h.1]
  rfl

theorem strands_of_within_ras {ks : List Nat} {s u : Chip} (h : within putRas ks s u) : u.strands = s.strands := by
  rw [h.1]
  rfl

theorem ras_of_onlyBar {ks : List Nat} {s u : Chip} (h : onlyBar ks s u) : u.ras = s.ras := by rw [h.1]

-- Tiles lowered to a cap (R654).

/-- The governors' registers of some tiles. -/
def govKeys (l : List Nat) : List Nat := l.map aTILE_GOV

theorem tileGov_inj {t k : Nat} : aTILE_GOV t = aTILE_GOV k ↔ t = k := by
  unfold aTILE_GOV
  omega

theorem not_mem_govKeys {l : List Nat} {k : Nat} (h : ∀ j, k ≠ aTILE_GOV j) : k ∉ govKeys l := by
  intro hm
  obtain ⟨j, -, rfl⟩ := List.mem_map.mp hm
  exact h j rfl

theorem onlyBar_lowerTiles (s : Chip) (l : List Nat) (cap : Nat → Nat) : onlyBar (govKeys l) s (lowerTiles s l cap) :=
  forEach_keeps (R := onlyBar (govKeys l)) (onlyBar_refl _) (fun _ _ _ => onlyBar_trans)
    (fun _ ht u => onlyBar_fset u 15 8 _ (List.mem_map_of_mem ht)) s

theorem capOf_fset (s : Chip) (t k c : Nat) :
    capOf (fset s (aTILE_GOV t) 15 8 c) k = if k = t then c % 2 ^ 8 else capOf s k := by
  unfold capOf
  split
  next h =>
    rw [h]
    exact fget_fset_same _ _ _ _ _ (by omega) (by omega)
  next h => exact fget_fset_other _ _ _ _ _ _ (fun e => h (tileGov_inj.mp e))

theorem capOf_lowerTiles (s : Chip) (l : List Nat) (k : Nat) :
    capOf (lowerTiles s l (fun _ => 25)) k = if k ∈ l then 25 else capOf s k := by
  unfold lowerTiles
  induction l generalizing s with
  | nil => rfl
  | cons t r ih =>
    rw [forEach_cons, ih, capOf_fset]
    by_cases hr : k ∈ r
    · rw [if_pos hr, if_pos (List.mem_cons_of_mem _ hr)]
    · by_cases hk : k = t
      · rw [if_neg hr, if_pos hk, if_pos (hk ▸ List.mem_cons_self)] <;> rfl
      · rw [if_neg hr, if_neg hk, if_neg (by simp [hk, hr])]

-- Steps (R654, R657).

theorem onlyBar_showSteps (s : Chip) : onlyBar [aPWR_STATUS] s (showSteps s) := onlyBar_fset _ _ _ _ (by simp)

/-- A step taken, on the kept state. -/
def stepPut (x : Step) (r : Ras) : Ras := { r with steps := x :: r.steps, calm := 0, below := 0, above := 0 }

theorem pushStep_eq (s : Chip) (x : Step) : pushStep s x = fsat (showSteps (rasMod s (stepPut x))) aPWR_STATUS 15 0 1 := by
  unfold pushStep stepPut
  with_reducible rfl

theorem within_pushStep (s : Chip) (x : Step) : within putRas [aPWR_STATUS] s (pushStep s x) := by
  rw [pushStep_eq]
  exact within_then parts_ras
    (within_then parts_ras (within_rasMod [aPWR_STATUS] s (stepPut x)) (onlyBar_showSteps (rasMod s (stepPut x))))
    (onlyBar_fsat (showSteps (rasMod s (stepPut x))) 15 0 1 (List.mem_singleton_self aPWR_STATUS))

theorem samples_pushStep (s : Chip) (x : Step) : (pushStep s x).ras.samples = s.ras.samples := by
  rw [pushStep_eq, ras_of_onlyBar (onlyBar_fsat (ks := [aPWR_STATUS]) _ _ _ _ (List.mem_singleton_self _)),
    ras_of_onlyBar (onlyBar_showSteps _)]
  rfl

theorem capOf_of_bar {ks : List Nat} {s u : Chip} (h : within putRas ks s u) {k : Nat} (n : aTILE_GOV k ∉ ks) : capOf u k = capOf s k :=
  fget_of_barGet (h.2 _ n) 15 8

theorem gov_ne_status (k : Nat) : aTILE_GOV k ∉ [aPWR_STATUS] := by
  unfold aTILE_GOV aPWR_STATUS
  simp
  omega

/-- The tiles that one step to CAP 25 lowers (R654, R701). -/
def throttled (s : Chip) : List Nat := (throttleOrder s).flatMap (highTiles s)

/-- That step, as it is kept for its release (R655). -/
def lowStep (s : Chip) : Step := ⟨(throttled s).map (fun t => (t, capOf s t)), false, powerNow s, none⟩

theorem throttleAll_eq (s : Chip) : throttleAll s =
    if (throttled s).isEmpty then s else pushStep (lowerTiles s (throttled s) (fun _ => 25)) (lowStep s) := rfl

theorem within_throttleAll (s : Chip) : within putRas (aPWR_STATUS :: govKeys (throttled s)) s (throttleAll s) := by
  have hlow : within putRas (aPWR_STATUS :: govKeys (throttled s)) s (lowerTiles s (throttled s) (fun _ => 25)) :=
    within_bar parts_ras (onlyBar_mono (fun k hk => .tail _ hk) (onlyBar_lowerTiles ..))
  rw [throttleAll_eq]
  refine within_ite (within_refl parts_ras) (within_trans parts_ras hlow ?_)
  exact within_mono (fun k hk => by rw [List.mem_singleton] at hk; rw [hk]; exact .head _) (within_pushStep ..)

theorem capOf_throttleAll (s : Chip) (k : Nat) : capOf (throttleAll s) k = if k ∈ throttled s then 25 else capOf s k := by
  rw [throttleAll_eq]
  split
  next h =>
    rw [List.isEmpty_iff.mp h, if_neg List.not_mem_nil]
  next => rw [capOf_of_bar (within_pushStep ..) (gov_ne_status k), capOf_lowerTiles]

theorem mem_throttleOrder {s : Chip} {p : Nat} (h1 : 1 ≤ p) (h16 : p < 16) : p ∈ throttleOrder s := by
  have hv : fget s (aPWR_PRIO p) 2 0 < 8 := fget_lt ..
  refine List.mem_flatMap.mpr ⟨_, List.mem_range.mpr hv, List.mem_filter.mpr ⟨by simpa using h16, ?_⟩⟩
  simp
  omega

/-- After the step no tenant's tile is above CAP 25 (R654). -/
theorem capOf_throttleAll_le (s : Chip) {p k : Nat} (h1 : 1 ≤ p) (h16 : p < 16) (hk : k ∈ partTiles s p)
    (hen : tileEnabled s k = true) : capOf (throttleAll s) k ≤ 25 := by
  rw [capOf_throttleAll]
  split
  · exact Nat.le_refl _
  next hnot =>
    by_contra hhigh
    have hmem : k ∈ highTiles s p := List.mem_filter.mpr ⟨hk, by rw [hen, Bool.true_and]; exact decide_eq_true (by omega)⟩
    exact hnot (List.mem_flatMap.mpr ⟨p, mem_throttleOrder h1 h16, hmem⟩)

theorem samples_throttleAll (s : Chip) : (throttleAll s).ras.samples = s.ras.samples := by
  rw [throttleAll_eq]
  split
  · rfl
  · rw [samples_pushStep, ras_of_onlyBar (onlyBar_lowerTiles ..)]

theorem brake_pushStep (s : Chip) (x : Step) : (pushStep s x).ras.brake = s.ras.brake := by
  rw [pushStep_eq, ras_of_onlyBar (onlyBar_fsat (ks := [aPWR_STATUS]) _ _ _ _ (List.mem_singleton_self _)),
    ras_of_onlyBar (onlyBar_showSteps _)]
  rfl

theorem brake_throttleAll (s : Chip) : (throttleAll s).ras.brake = s.ras.brake := by
  rw [throttleAll_eq]
  split
  · rfl
  · rw [brake_pushStep, ras_of_onlyBar (onlyBar_lowerTiles ..)]

-- One more sample (R653, R655).

theorem within_takeSample (s : Chip) (w : Nat) : within putRas [aPWR_STATUS] s (takeSample s w) :=
  within_then parts_ras (within_rasMod _ _ _) (onlyBar_fset _ _ _ _ (by simp))

theorem within_measureSaving (s : Chip) : within putRas [] s (measureSaving s) := by
  unfold measureSaving
  split
  · exact within_refl parts_ras
  · exact within_ite (within_refl parts_ras) (within_rasMod _ _ _)

theorem samples_measureSaving (s : Chip) : (measureSaving s).ras.samples = s.ras.samples := by
  unfold measureSaving
  split
  · rfl
  · split <;> rfl

theorem within_countRuns (s : Chip) : within putRas [] s (countRuns s) := by
  unfold countRuns
  exact within_trans parts_ras (within_measureSaving s) (within_rasMod _ _ _)

theorem samples_countRuns (s : Chip) : (countRuns s).ras.samples = s.ras.samples := samples_measureSaving s

/-- The state with a sample taken, before the throttle looks at it. -/
def sampled (s : Chip) (w : Nat) : Chip := countRuns (takeSample s w)

theorem within_sampled (s : Chip) (w : Nat) : within putRas [aPWR_STATUS] s (sampled s w) :=
  within_trans parts_ras (within_takeSample s w) (within_mono (fun _ h => absurd h List.not_mem_nil) (within_countRuns _))

theorem samples_sampled (s : Chip) (w : Nat) : (sampled s w).ras.samples = (w :: s.ras.samples).take 10 := samples_countRuns _

theorem powerLimit_sampled (s : Chip) (w : Nat) : powerLimit (sampled s w) = powerLimit s :=
  fget_of_barGet ((within_sampled s w).2 _ (by decide)) 10 0

theorem powerNow_sampled (s : Chip) (w : Nat) :
    powerNow (sampled s w) = min 2047 (((w :: s.ras.samples).take 10).sum / ((w :: s.ras.samples).take 10).length) := by
  have hstored : powerNow (sampled s w) = powerNow (takeSample s w) :=
    fget_of_barGet ((within_countRuns (takeSample s w)).2 _ List.not_mem_nil) 63 53
  rw [hstored, List.sum_eq_foldl_nat]
  exact (fget_fset_same _ _ _ _ _ (by omega) (by omega)).trans (Nat.mod_eq_of_lt (by omega))

theorem cmdPowerSample_idle {s : Chip} {w : Nat} (h : alive s = false ∨ s.ras.tripped = true) : cmdPowerSample w s = .next s := by
  have hc : (alive s && !s.ras.tripped) = false := by rcases h with h | h <;> simp [h]
  unfold cmdPowerSample when
  rw [hc]
  rfl

theorem cmdPowerSample_alive {s : Chip} {w : Nat} (ha : alive s = true) (ht : s.ras.tripped = false) : cmdPowerSample w s = .next
    (if powerLimit (sampled s w) + 100 < w || 1300 < w then throttleAll (sampled s w)
    else if powerLimit (sampled s w) < powerNow (sampled s w) && 10 ≤ (sampled s w).ras.calm then
      match throttleStep (sampled s w) with
      | some s2 => s2
      | none => sampled s w
    else sampled s w) := by
  have hc : (alive s && !s.ras.tripped) = true := by rw [ha, ht]; rfl
  unfold cmdPowerSample when
  rw [hc]
  rfl

theorem partTiles_of_bar {s u : Chip} {p : Nat} (h : barGet u (aPART_GROUPS p) = barGet s (aPART_GROUPS p)) :
    partTiles u p = partTiles s p := congrArg tilesOfGroups (fget_of_barGet h 35 0)

theorem tileEnabled_of_bar {s u : Chip} {k : Nat} (h : barGet u (8 + 8 * (k / 64)) = barGet s (8 + 8 * (k / 64))) :
    tileEnabled u k = tileEnabled s k := congrArg (fun x => Nat.testBit x (k % 64)) h

theorem held_ne_status {p : Nat} (hp : p < 16) : aPART_GROUPS p ∉ [aPWR_STATUS] := by
  unfold aPART_GROUPS aPWR_STATUS
  simp
  omega

theorem mem_partTiles_lt {s : Chip} {p k : Nat} (h : k ∈ partTiles s p) : k < 144 := by
  obtain ⟨g, hg, hk⟩ := List.mem_flatMap.mp h
  exact groupTiles_lt (List.mem_range.mp (List.mem_of_mem_filter hg)) hk

/-- What a sample far above the limit does (R654). -/
theorem sampleFar {s : State} {w : Nat} (ha : alive s.chip = true) (ht : s.chip.ras.tripped = false)
    (h : powerLimit s.chip + 100 < w ∨ 1300 < w) : ∃ t, exec (.powerSample w) s = .next t ∧
      t.chip.ras.samples = (w :: s.chip.ras.samples).take 10 ∧
      (∀ p k, 1 ≤ p → p < 16 → k ∈ partTiles s.chip p → tileEnabled s.chip k = true → capOf t.chip k ≤ 25) ∧
      t.chip.tiles = s.chip.tiles ∧ t.chip.strands = s.chip.strands := by
  have hw := within_sampled s.chip w
  have hthr := within_throttleAll (sampled s.chip w)
  have hexec : exec (.powerSample w) s = .next { s with chip := throttleAll (sampled s.chip w) } :=
    onChip_next (f := cmdPowerSample w) (by
      rw [cmdPowerSample_alive ha ht, powerLimit_sampled, if_pos]
      simpa using h)
  refine ⟨_, hexec, (samples_throttleAll _).trans (samples_sampled ..), fun p k h1 h16 hk hen => ?_,
    (tiles_of_within_ras hthr).trans (tiles_of_within_ras hw), (strands_of_within_ras hthr).trans (strands_of_within_ras hw)⟩
  refine capOf_throttleAll_le _ h1 h16 ?_ ?_
  · rw [partTiles_of_bar (hw.2 _ (held_ne_status h16))]
    exact hk
  · rw [tileEnabled_of_bar (hw.2 _ ?_)]
    · exact hen
    · have := mem_partTiles_lt hk
      unfold aPWR_STATUS
      simp
      omega

/-- What a sample under the limit does: it is taken, no more (R653). -/
theorem sampleCalm {s : State} {w : Nat} (ha : alive s.chip = true) (ht : s.chip.ras.tripped = false)
    (hl : w ≤ powerLimit s.chip + 100) (hw : w ≤ 1300)
    (havg : min 2047 (((w :: s.chip.ras.samples).take 10).sum / ((w :: s.chip.ras.samples).take 10).length) ≤ powerLimit s.chip) :
    exec (.powerSample w) s = .next { s with chip := sampled s.chip w } :=
  onChip_next (f := cmdPowerSample w) (by
    rw [cmdPowerSample_alive ha ht, powerLimit_sampled, powerNow_sampled, if_neg, if_neg]
    · simp only [Bool.and_eq_true, decide_eq_true_eq, not_and]
      omega
    · simp only [Bool.or_eq_true, decide_eq_true_eq]
      omega)

-- The last step goes; the steps are exhausted; the limit (R653, R655).

theorem cmdThrottleRelease_held {s : Chip} (h : s.ras.below < 100 ∨ s.ras.brake = true ∨ s.ras.steps = []) :
    cmdThrottleRelease s = .next s := by
  unfold cmdThrottleRelease
  split
  · rfl
  next hfree =>
    rcases h with h | h | h
    · simp [h] at hfree
    · simp [h] at hfree
    · rw [h]

/-- The last step taken, given back (R655). -/
def stepBack (x : Step) (r : List Step) (s : Chip) : Chip :=
  showSteps (rasMod (forEach x.caps (fun st c => fset st (aTILE_GOV c.1) 15 8 c.2) s) (fun y => { y with steps := r, below := 0 }))

theorem cmdThrottleRelease_last {s : Chip} {x : Step} {r : List Step} (hs : s.ras.steps = x :: r) (hb : 100 ≤ s.ras.below)
    (hbr : s.ras.brake = false) (hth : fbit s aPWR_STATUS 46 = false) : cmdThrottleRelease s = .next (stepBack x r s) := by
  unfold cmdThrottleRelease
  rw [hbr, hth, hs, if_neg (by simpa using hb)]
  rfl

theorem onlyBar_capsBack (s : Chip) (l : List (Nat × Nat)) :
    onlyBar (govKeys (l.map Prod.fst)) s (forEach l (fun st c => fset st (aTILE_GOV c.1) 15 8 c.2) s) :=
  forEach_keeps (R := onlyBar (govKeys (l.map Prod.fst))) (onlyBar_refl _) (fun _ _ _ => onlyBar_trans)
    (fun _ hc u => onlyBar_fset u 15 8 _ (List.mem_map_of_mem (List.mem_map_of_mem hc))) s

theorem tiles_stepBack (x : Step) (r : List Step) (s : Chip) : (stepBack x r s).tiles = s.tiles := by
  have hback := tiles_of_onlyBar (onlyBar_capsBack s x.caps)
  unfold stepBack
  rw [tiles_of_onlyBar (onlyBar_showSteps _), rasMod, hback]

theorem stepBack_spec (x : Step) (r : List Step) (s : Chip) : (stepBack x r s).ras.steps = r ∧
    fget (stepBack x r s) aPWR_STATUS 52 48 = min 31 r.length ∧ (stepBack x r s).tiles = s.tiles :=
  ⟨rfl, (fget_fset_same _ _ _ _ _ (by omega) (by omega)).trans (Nat.mod_eq_of_lt (Nat.lt_of_le_of_lt (Nat.min_le_left ..) (by decide))),
    (tiles_stepBack x r s)⟩

theorem capOf_stepBack {x : Step} {k c : Nat} (hx : x.caps = [(k, c)]) (r : List Step) (s : Chip) :
    capOf (stepBack x r s) k = c % 256 := by
  have hback : capOf (stepBack x r s) k = capOf (fset s (aTILE_GOV k) 15 8 c) k := by
    unfold stepBack showSteps capOf
    rw [hx, fget_fset_other _ _ _ _ _ _ (by simpa using gov_ne_status k)]
    rfl
  rw [hback, capOf_fset, if_pos rfl] <;> rfl

theorem cmdThrottleExhausted_not {s : Chip} (h : s.ras.above < 1000 ∨ noStepLeft s = false) : cmdThrottleExhausted s = .next s := by
  unfold cmdThrottleExhausted when
  rw [if_neg]
  rcases h with h | h
  · simp only [Bool.and_eq_true, decide_eq_true_eq, not_and]
    omega
  · simp [h]

theorem throttleExhausted_out {s : State} (hab : 1000 ≤ s.chip.ras.above) (hno : noStepLeft s.chip = true) :
    ∃ t, exec .throttleExhausted s = .next t ∧ fbit t.chip aPWR_STATUS 47 = true ∧
      chipOnly [aPWR_STATUS] s t (fun c => { c with irqs := t.chip.irqs }) := by
  obtain ⟨v, hv⟩ : ∃ v, v = fsetb s.chip aPWR_STATUS 47 true := exists_eq
  obtain ⟨i, hi⟩ : ∃ i, rasIrq v = { v with irqs := i } := ⟨_, rasIrq_frame v⟩
  have hb : onlyBar [aPWR_STATUS] s.chip v := hv ▸ onlyBar_fsetb _ _ _ (by simp)
  have hbit : fbit v aPWR_STATUS 47 = true := hv ▸ fbit_fsetb_same _ _ _ _ (by omega)
  have hexec : exec .throttleExhausted s = .next { s with chip := { v with irqs := i } } :=
    onChip_next (f := cmdThrottleExhausted) (by
      unfold cmdThrottleExhausted when
      rw [hno, decide_eq_true hab, Bool.true_and, if_pos rfl]
      dsimp only
      rw [← hv, hi])
  exact ⟨_, hexec, hbit, congrArg (fun c => ({ s with chip := c } : State)) (congrArg (fun c => ({ c with irqs := i } : Chip)) hb.1), hb.2⟩

theorem limitWritten (s : State) (data : Word) : ∃ t, exec (.pwrLimitWrite data) s = .next t ∧ regsOnly [aPWR_LIMIT] s t ∧
    fget t.chip aPWR_LIMIT 10 0 = min 1200 (max (fget s.chip aPWR_LIMIT 42 32) (bitsOf data.toNat 10 0)) ∧
    fget t.chip aPWR_LIMIT 42 32 = fget s.chip aPWR_LIMIT 42 32 :=
  ⟨_, rfl, regsOnly_of_onlyBar (onlyBar_fset _ _ _ _ (by simp)),
    (fget_fset_same _ _ _ _ _ (by omega) (by omega)).trans
      (Nat.mod_eq_of_lt (Nat.lt_of_le_of_lt (Nat.min_le_left ..) (by decide))),
    fget_fset_field _ _ _ _ _ _ _ (by omega) (by omega) (by omega) (by omega)⟩

/-- R653 to R656: throttling. -/
theorem powerIsHeld : Clauses.PowerIsHeld := by
  intro s w data _
  refine ⟨fun h => onChip_next (f := cmdPowerSample w) (cmdPowerSample_idle h),
    fun ha ht => ⟨fun h => sampleFar ha ht h, fun hl hw havg => ?_⟩,
    fun h => onChip_next (f := cmdThrottleRelease) (cmdThrottleRelease_held h), fun x r hs hb hbr hth => ?_,
    fun h => onChip_next (f := cmdThrottleExhausted) (cmdThrottleExhausted_not h),
    fun hab hno => throttleExhausted_out hab hno, limitWritten s data⟩
  · exact ⟨_, sampleCalm ha ht hl hw havg, powerNow_sampled .., chipOnly_of_within (within_sampled s.chip w), samples_sampled ..⟩
  · obtain ⟨hsteps, hcount, htiles⟩ := stepBack_spec x r s.chip
    exact ⟨_, onChip_next (f := cmdThrottleRelease) (cmdThrottleRelease_last hs hb hbr hth), hsteps, hcount,
      fun k c hx _ => capOf_stepBack hx r s.chip, htiles⟩

end Sys2Proof.Proofs
end

section
/-! SUPPORT. Temperature and the power pins (O59). -/

namespace Sys2Proof.Proofs

open Sys2Proof.Machine

-- The trip (R656, R700).

theorem powerDomain_of_view {s u : Chip} (h : powerView u = powerView s) : barGet u aPWR_DOMAIN = barGet s aPWR_DOMAIN :=
  congrArg Prod.fst h

theorem running_of_view {s u : Chip} (h : powerView u = powerView s) : u.radio.running = s.radio.running :=
  congrArg (fun v => v.2.1) h

theorem dead_of_view {s u : Chip} (h : powerView u = powerView s) : u.ras.dead = s.ras.dead := congrArg (fun v => v.2.2) h

/-- A domain's bit cleared with its power-up. -/
def cutDomain (s : Chip) (d : Nat) : Chip := rasMod (fsetb s aPWR_DOMAIN d false) (fun r => { r with rising := setBits r.rising d d 0 })

theorem fbit_cutDomain (s : Chip) (d k : Nat) (hd : d < 50) :
    fbit (cutDomain s d) aPWR_DOMAIN k = if k = d then false else fbit s aPWR_DOMAIN k := by
  have hbar : fbit (cutDomain s d) aPWR_DOMAIN k = fbit (fsetb s aPWR_DOMAIN d false) aPWR_DOMAIN k := rfl
  rw [hbar]
  split
  next h => rw [h, fbit_fsetb_same _ _ _ _ (by omega)]
  next h => rw [fbit_fsetb_field _ _ _ _ _ (by omega) h]

theorem running_cutDomain (s : Chip) (d : Nat) : (cutDomain s d).radio.running = s.radio.running := rfl

/-- One domain of the trip. -/
def tripOne (s : Chip) (d : Nat) : Chip := if fbit s aPWR_DOMAIN d then offBlocks (cutDomain s d) d else s

theorem offAllBut_eq (s : Chip) (keep : Nat) :
    offAllBut s keep = forEach ((List.range 50).filter (fun d => !keep.testBit d)) tripOne s := rfl

/-- One domain of the trip goes off, no other comes on, and the radio is not touched. -/
theorem tripOne_spec (s : Chip) {d : Nat} (hd : d < 50) :
    (∀ k, fbit (tripOne s d) aPWR_DOMAIN k = if k = d then false else fbit s aPWR_DOMAIN k) ∧
      (tripOne s d).radio.running = s.radio.running := by
  have hview := powerView_offBlocks (cutDomain s d) hd
  unfold tripOne
  split
  · exact ⟨fun k => (fbit_of_barGet (powerDomain_of_view hview) k).trans (fbit_cutDomain s d k hd),
      (running_of_view hview).trans (running_cutDomain s d)⟩
  next hoff =>
    refine ⟨fun k => ?_, rfl⟩
    split
    next h => rw [h]; simpa using hoff
    next => rfl

theorem tripAll_spec {l : List Nat} (hl : ∀ d ∈ l, d < 50) (s : Chip) :
    (∀ k ∈ l, fbit (forEach l tripOne s) aPWR_DOMAIN k = false) ∧
      (∀ k, fbit s aPWR_DOMAIN k = false → fbit (forEach l tripOne s) aPWR_DOMAIN k = false) ∧
      (forEach l tripOne s).radio.running = s.radio.running := by
  induction l generalizing s with
  | nil => exact ⟨fun k hk => absurd hk List.not_mem_nil, fun k hk => hk, rfl⟩
  | cons d r ih =>
    obtain ⟨hone, hrun⟩ := tripOne_spec s (hl d List.mem_cons_self)
    obtain ⟨hall, hkeep, hrest⟩ := ih (fun k hk => hl k (List.mem_cons_of_mem _ hk)) (tripOne s d)
    rw [forEach_cons]
    refine ⟨fun k hk => ?_, fun k hk => hkeep k ?_, hrest.trans hrun⟩
    · rcases List.mem_cons.mp hk with rfl | hk
      · exact hkeep k ((hone k).trans (if_pos rfl))
      · exact hall k hk
    · rw [hone, hk]
      split <;> rfl

theorem mem_tripList {x : Nat} (hx : x < 50) (h47 : x ≠ 47) (h48 : x ≠ 48) :
    x ∈ (List.range 50).filter (fun d => !tripDomains.testBit d) := by
  have hall : ∀ d, d < 50 → d ≠ 47 → d ≠ 48 → tripDomains.testBit d = false := by decide
  exact List.mem_filter.mpr ⟨List.mem_range.mpr hx, by rw [hall x hx h47 h48]; rfl⟩

/-- The state of a sample, before it is judged (R656). -/
def sensed (a b c d : Int) (s : Chip) : Chip :=
  fset (fset (fset (fset s aTHERM_TEMP 63 48 (wrap 16 a)) aTHERM_TEMP 47 32 (wrap 16 b)) aTHERM_TEMP 31 16 (wrap 16 c)) aTHERM_TEMP 15 0
    (wrap 16 d)

theorem onlyBar_sensed (a b c d : Int) (s : Chip) : onlyBar [aTHERM_TEMP] s (sensed a b c d s) :=
  onlyBar_trans (onlyBar_trans (onlyBar_trans (onlyBar_fset _ _ _ _ (by simp)) (onlyBar_fset _ _ _ _ (by simp)))
    (onlyBar_fset _ _ _ _ (by simp))) (onlyBar_fset _ _ _ _ (by simp))

theorem cmdThermalSample_alive {s : Chip} (ha : alive s = true) (a b c d : Int) : cmdThermalSample a b c d s = .next
    (if (fget (sensed a b c d s) aTHERM_CFG 31 16 : Int) ≤ junction (sensed a b c d s) then thermalTrip (sensed a b c d s)
    else if (sensed a b c d s).ras.tripped then sensed a b c d s else thermalThrottle (sensed a b c d s)) := by
  unfold cmdThermalSample when sensed
  rw [ha, if_pos rfl]

theorem config_sensed (a b c d : Int) (s : Chip) (hi lo : Nat) : fget (sensed a b c d s) aTHERM_CFG hi lo = fget s aTHERM_CFG hi lo :=
  fget_of_onlyBar (onlyBar_sensed a b c d s) (by decide) hi lo

/-- The trip as it is kept, on the state whose domains are off. -/
def tripKept (s : Chip) : Chip := rasMod s (fun r => { r with tripped := true })

/-- The trip's own marks. -/
def tripMarks (s : Chip) : Chip := raiseIbi (fsetb (tripKept s) aPKG_PINS 1 true) 1

theorem thermalTrip_eq {s : Chip} (h : s.ras.tripped = false) : thermalTrip s = tripMarks (offAllBut (stopRadio s) tripDomains) := by
  unfold thermalTrip tripMarks tripKept
  rw [h, if_neg (by decide)]

theorem tripMarks_spec (s : Chip) : (tripMarks s).ras.tripped = true ∧ fbit (tripMarks s) aPKG_PINS 1 = true ∧
    (tripMarks s).radio.running = s.radio.running ∧ ∀ k, fbit (tripMarks s) aPWR_DOMAIN k = fbit s aPWR_DOMAIN k := by
  obtain ⟨u, hu⟩ : ∃ u, u = tripKept s := exists_eq
  obtain ⟨v, hv⟩ : ∃ v, v = fsetb u aPKG_PINS 1 true := exists_eq
  have hb : onlyBar [aPKG_PINS] u v := hv ▸ onlyBar_fsetb _ _ _ (by simp)
  have hpin : fbit v aPKG_PINS 1 = true := hv ▸ fbit_fsetb_same _ _ _ _ (by omega)
  have htrip : v.ras.tripped = true := by rw [ras_of_onlyBar hb, hu]; rfl
  have hrun : v.radio.running = s.radio.running := by rw [radio_of_onlyBar hb, hu]; rfl
  have hpower (k : Nat) : fbit v aPWR_DOMAIN k = fbit s aPWR_DOMAIN k := by
    rw [fbit_of_barGet (hb.2 aPWR_DOMAIN (by decide)), hu]
    rfl
  unfold tripMarks
  rw [← hu, ← hv]
  exact ⟨htrip, hpin, hrun, hpower⟩

theorem thermalTrip_spec {s : Chip} (h : s.ras.tripped = false) : (thermalTrip s).ras.tripped = true ∧
    fbit (thermalTrip s) aPKG_PINS 1 = true ∧ (thermalTrip s).radio.running = false ∧
    ∀ x, x < 50 → x ≠ 47 → x ≠ 48 → fbit (thermalTrip s) aPWR_DOMAIN x = false := by
  obtain ⟨u, hu⟩ : ∃ u, u = offAllBut (stopRadio s) tripDomains := exists_eq
  obtain ⟨hoff, -, hrun⟩ := tripAll_spec (fun d hd => List.mem_range.mp (List.mem_of_mem_filter hd)) (stopRadio s)
    (l := (List.range 50).filter (fun d => !tripDomains.testBit d))
  rw [← offAllBut_eq, ← hu] at hoff hrun
  obtain ⟨htrip, hpin, hradio, hpower⟩ := tripMarks_spec u
  rw [thermalTrip_eq h, ← hu]
  exact ⟨htrip, hpin, hradio.trans hrun, fun x hx h47 h48 => (hpower x).trans (hoff x (mem_tripList hx h47 h48))⟩

theorem tripped_sensed (a b c d : Int) (s : Chip) : (sensed a b c d s).ras = s.ras := ras_of_onlyBar (onlyBar_sensed a b c d s)

/-- At the trip point (R656). -/
theorem sampleTrips {s : State} {a b c d : Int} (ha : alive s.chip = true)
    (hj : (fget s.chip aTHERM_CFG 31 16 : Int) ≤ junction (sensed a b c d s.chip)) (ht : s.chip.ras.tripped = false) :
    ∃ t, exec (.thermalSample a b c d) s = .next t ∧ t.chip.ras.tripped = true ∧ fbit t.chip aPKG_PINS 1 = true ∧
      t.chip.radio.running = false ∧ ∀ x, x < 50 → x ≠ 47 → x ≠ 48 → fbit t.chip aPWR_DOMAIN x = false := by
  have htr : (sensed a b c d s.chip).ras.tripped = false := by rw [tripped_sensed, ht]
  have hexec : exec (.thermalSample a b c d) s = .next { s with chip := thermalTrip (sensed a b c d s.chip) } :=
    onChip_next (f := cmdThermalSample a b c d) (by rw [cmdThermalSample_alive ha, config_sensed, if_pos hj])
  exact ⟨_, hexec, thermalTrip_spec htr⟩

/-- Below the release point (R656). -/
theorem sampleCools {s : State} {a b c d : Int} (ha : alive s.chip = true)
    (hj : junction (sensed a b c d s.chip) < (fget s.chip aTHERM_CFG 31 16 : Int))
    (hr : junction (sensed a b c d s.chip) < (fget s.chip aTHERM_CFG 15 0 : Int) - 48) (ht : s.chip.ras.tripped = false) :
    ∃ t, exec (.thermalSample a b c d) s = .next t ∧ regsOnly [aTHERM_TEMP, aPWR_STATUS] s t ∧
      fbit t.chip aPWR_STATUS 46 = false ∧ barGet t.chip aTHERM_TEMP = barGet (sensed a b c d s.chip) aTHERM_TEMP := by
  obtain ⟨u, hu⟩ : ∃ u, u = sensed a b c d s.chip := exists_eq
  have hb : onlyBar [aTHERM_TEMP] s.chip u := hu ▸ onlyBar_sensed a b c d s.chip
  have hcfg (hi lo : Nat) : fget u aTHERM_CFG hi lo = fget s.chip aTHERM_CFG hi lo := hu ▸ config_sensed a b c d s.chip hi lo
  have hexec : exec (.thermalSample a b c d) s = .next { s with chip := fsetb u aPWR_STATUS 46 false } :=
    onChip_next (f := cmdThermalSample a b c d) (by
      rw [cmdThermalSample_alive ha, ← hu, hcfg, if_neg (by rw [hu]; omega), ras_of_onlyBar hb, ht, if_neg (by decide)]
      unfold thermalThrottle
      dsimp only
      rw [hcfg, if_neg (by rw [hu]; omega), if_pos (by rw [hu]; exact hr)])
  rw [← hu]
  exact ⟨_, hexec, regsOnly_of_onlyBar (onlyBar_trans (onlyBar_mono (by simp) hb) (onlyBar_fsetb _ _ _ (by simp))),
    fbit_fsetb_same _ _ _ _ (by omega), barGet_fset_other _ _ _ _ (by decide)⟩

-- The pins (R658, R697 to R703).

/-- What a loss of power leaves, before its registers are written. -/
def powerless (s : Chip) : Chip :=
  { s with boot := { s.boot with undervolt := true, off := true }, radio := { s.radio with running := false } }

/-- The registers of a loss of power. -/
def powerLost (s : Chip) : Chip := fsetb (barSet (fsetb s aSTRIKE_STATUS 2 false) aPWR_DOMAIN 0) aPKG_PINS 1 false

theorem bootMod_barSet (s : Chip) (k v : Nat) (f : Boot → Boot) : bootMod (barSet s k v) f = barSet (bootMod s f) k v := rfl

theorem bootMod_fsetb (s : Chip) (k i : Nat) (b : Bool) (f : Boot → Boot) : bootMod (fsetb s k i b) f = fsetb (bootMod s f) k i b := rfl

theorem losePower_eq (s : Chip) : losePower s = powerLost (powerless s) := by
  unfold losePower stopRadio powerLost
  rw [bootMod_barSet, bootMod_fsetb]
  rfl

theorem powerLost_spec (s : Chip) : onlyBar [aPWR_DOMAIN, aPKG_PINS, aSTRIKE_STATUS] s (powerLost s) ∧
    barGet (powerLost s) aPWR_DOMAIN = 0 ∧ fbit (powerLost s) aPKG_PINS 1 = false ∧ fbit (powerLost s) aSTRIKE_STATUS 2 = false := by
  unfold powerLost
  refine ⟨onlyBar_trans (onlyBar_trans (onlyBar_fsetb _ _ _ (by simp)) (onlyBar_barSet _ _ (by simp))) (onlyBar_fsetb _ _ _ (by simp)),
    ?_, fbit_fsetb_same _ _ _ _ (by omega), ?_⟩
  · rw [fsetb, barGet_fset_other _ _ _ _ (by decide), barGet_barSet_same] <;> rfl
  · rw [fbit_fsetb_other _ _ _ _ (by decide), fbit_of_barGet (barGet_barSet_other _ _ (by decide)), fbit_fsetb_same _ _ _ _ (by omega)]

theorem overvoltage_spec (s : State) : ∃ t, exec .overvoltage s = .next t ∧ barGet t.chip aPWR_DOMAIN = 0 ∧
    fbit t.chip aPKG_PINS 1 = false ∧ fbit t.chip aSTRIKE_STATUS 2 = false ∧
    chipOnly [aPWR_DOMAIN, aPKG_PINS, aSTRIKE_STATUS] s t (fun x => { x with
      boot := { x.boot with undervolt := true, off := true }, radio := { x.radio with running := false } }) := by
  obtain ⟨u, hu⟩ : ∃ u, u = powerLost (powerless s.chip) := exists_eq
  obtain ⟨hb, hpower, hpin, hstrike⟩ := powerLost_spec (powerless s.chip)
  rw [← hu] at hb hpower hpin hstrike
  have hexec : exec .overvoltage s = .next { s with chip := u } :=
    onChip_next (f := cmdOvervoltage) (by rw [cmdOvervoltage, losePower_eq, hu])
  exact ⟨_, hexec, hpower, hpin, hstrike, congrArg (fun c => ({ s with chip := c } : State)) hb.1, hb.2⟩

/-- PWRBRAKE# asserted: its mark, and the pin (R701). -/
def braked (s : Chip) : Chip := fsetb (rasMod s (fun r => { r with brake := true })) aPKG_PINS 0 true

theorem within_braked (s : Chip) : within putRas [aPKG_PINS] s (braked s) :=
  within_then parts_ras (within_rasMod [aPKG_PINS] s (fun r => { r with brake := true })) (onlyBar_fsetb _ _ _ (by simp))

theorem braked_spec (s : Chip) : (braked s).ras = { s.ras with brake := true } ∧ fbit (braked s) aPKG_PINS 0 = true := by
  unfold braked
  exact ⟨ras_of_onlyBar (onlyBar_fsetb (ks := [aPKG_PINS]) _ _ _ (by simp)), fbit_fsetb_same _ _ _ _ (by omega)⟩

theorem stage_of_within {s u : Chip} (h : within putRas [aPKG_PINS] s u) : stageNow u = stageNow s :=
  fget_of_barGet (h.2 aSEC_STATUS (by decide)) 3 0

theorem hearthRuns_of_within {s u : Chip} (h : within putRas [aPKG_PINS] s u) : hearthRuns u = hearthRuns s := by
  unfold hearthRuns
  rw [stage_of_within h]

/-- What the pin starts once the state is marked (R701, R702). -/
def brakeTiles (s : Chip) : Chip := if hearthRuns s && !s.ras.tripped then throttleAll s else s

theorem cmdPwrbrakeAssert_new {s : Chip} (h : s.ras.brake = false) : cmdPwrbrakeAssert s = .next
    (brakeTiles (if stageNow (braked s) == 0 then braked s else fsat (braked s) aPKG_PINS 47 32 1)) := by
  unfold cmdPwrbrakeAssert when
  rw [h, Bool.not_false, if_pos rfl]
  rfl

theorem brakeBeforeBoot {s : State} (hbr : s.chip.ras.brake = false) (h0 : stageNow s.chip = 0) :
    ∃ t, exec .pwrbrakeAssert s = .next t ∧ regsOnlyRas [aPKG_PINS] s t ∧ t.chip.ras.brake = true ∧ fbit t.chip aPKG_PINS 0 = true := by
  obtain ⟨u, hu⟩ : ∃ u, u = braked s.chip := exists_eq
  have hw : within putRas [aPKG_PINS] s.chip u := hu ▸ within_braked s.chip
  obtain ⟨hras, hpin⟩ := braked_spec s.chip
  rw [← hu] at hras hpin
  have hidle : hearthRuns u = false := by
    unfold hearthRuns
    rw [stage_of_within hw, h0]
    rfl
  have hexec : exec .pwrbrakeAssert s = .next { s with chip := u } :=
    onChip_next (f := cmdPwrbrakeAssert) (by
      rw [cmdPwrbrakeAssert_new hbr, ← hu, stage_of_within hw, h0, if_pos (by decide), brakeTiles, hidle, Bool.false_and,
        if_neg (by decide)])
  exact ⟨_, hexec, chipOnly_of_within hw, by rw [hras], hpin⟩

theorem brakeInService {s : State} (hbr : s.chip.ras.brake = false) (hh : hearthRuns s.chip = true) (ht : s.chip.ras.tripped = false) :
    ∃ t, exec .pwrbrakeAssert s = .next t ∧ t.chip.ras.brake = true ∧ countedOne s t aPKG_PINS 47 32 ∧
      ∀ p k, 1 ≤ p → p < 16 → k ∈ partTiles s.chip p → tileEnabled s.chip k = true → capOf t.chip k ≤ 25 := by
  obtain ⟨u, hu⟩ : ∃ u, u = braked s.chip := exists_eq
  obtain ⟨v, hv⟩ : ∃ v, v = fsat u aPKG_PINS 47 32 1 := exists_eq
  have hwu : within putRas [aPKG_PINS] s.chip u := hu ▸ within_braked s.chip
  have hbv : onlyBar [aPKG_PINS] u v := hv ▸ onlyBar_fsat _ _ _ _ (by simp)
  have hw : within putRas [aPKG_PINS] s.chip v := within_then parts_ras hwu hbv
  have hras : v.ras = { s.chip.ras with brake := true } := by rw [ras_of_onlyBar hbv, hu, (braked_spec s.chip).1]
  have hstage : (stageNow u == 0) = false := by
    unfold hearthRuns at hh
    rw [stage_of_within hwu]
    simp at hh ⊢
    omega
  have hexec : exec .pwrbrakeAssert s = .next { s with chip := throttleAll v } :=
    onChip_next (f := cmdPwrbrakeAssert) (by
      rw [cmdPwrbrakeAssert_new hbr, ← hu, hstage, if_neg (by decide), ← hv, brakeTiles, hearthRuns_of_within hw, hh, hras, ht,
        if_pos (by decide)])
  have hcount : fget v aPKG_PINS 47 32 = min (fget s.chip aPKG_PINS 47 32 + 1) (2 ^ 16 - 1) := by
    rw [hv, fget_fsat_same _ _ _ _ _ (by omega) (by omega), hu]
    unfold braked
    rw [fsetb, fget_fset_field _ _ _ _ _ _ _ (by omega) (by omega) (by omega) (by omega)] <;> rfl
  have hpins : aPKG_PINS ∉ aPWR_STATUS :: govKeys (throttled v) := by
    rw [List.mem_cons, not_or]
    exact ⟨by decide, not_mem_govKeys (fun j => by unfold aPKG_PINS aTILE_GOV; omega)⟩
  refine ⟨_, hexec, ?_, (fget_of_barGet ((within_throttleAll v).2 _ hpins) 47 32).trans hcount, fun p k h1 h16 hk hen => ?_⟩
  · rw [brake_throttleAll, hras]
  · refine capOf_throttleAll_le _ h1 h16 ?_ ?_
    · rw [partTiles_of_bar (hw.2 _ ?_)]
      · exact hk
      · unfold aPART_GROUPS aPKG_PINS
        simp
        omega
    · rw [tileEnabled_of_bar (hw.2 _ ?_)]
      · exact hen
      · have := mem_partTiles_lt hk
        unfold aPKG_PINS
        simp
        omega

theorem cmdPwrbrakeAssert_again {s : Chip} (h : s.ras.brake = true) : cmdPwrbrakeAssert s = .next s := by
  unfold cmdPwrbrakeAssert when
  rw [h, Bool.not_true, if_neg (by decide)]

theorem brakeReleased (s : State) : ∃ t, exec .pwrbrakeDeassert s = .next t ∧ regsOnlyRas [aPKG_PINS] s t ∧
    t.chip.ras = { s.chip.ras with brake := false } ∧ fbit t.chip aPKG_PINS 0 = false := by
  obtain ⟨u, hu⟩ : ∃ u, u = rasMod s.chip (fun r => { r with brake := false }) := exists_eq
  obtain ⟨v, hv⟩ : ∃ v, v = fsetb u aPKG_PINS 0 false := exists_eq
  have hb : onlyBar [aPKG_PINS] u v := hv ▸ onlyBar_fsetb _ _ _ (by simp)
  have hexec : exec .pwrbrakeDeassert s = .next { s with chip := v } :=
    onChip_next (f := cmdPwrbrakeDeassert) (by rw [cmdPwrbrakeDeassert, ← hu, ← hv])
  exact ⟨_, hexec, chipOnly_of_within (within_then parts_ras (hu ▸ within_rasMod _ _ _) hb), by rw [ras_of_onlyBar hb, hu]; rfl,
    hv ▸ fbit_fsetb_same _ _ _ _ (by omega)⟩

theorem tapTaken {s : State} (ha : alive s.chip = true) (hd : domainOn s.chip 49 = true) (lands : Bool) :
    exec (.tapInstruction lands) s = .next
      { s with chip := { s.chip with boot := { s.chip.boot with lands := lands && decide (stageNow s.chip ≤ 1) } } } :=
  onChip_next (f := cmdTapInstruction lands) (by
    unfold cmdTapInstruction when
    rw [ha, hd]
    rfl)

/-- R656, R658, R697 to R703: temperature and the power pins. -/
theorem pinsAct : Clauses.PinsAct := by
  intro s a b c d lands
  refine ⟨fun ha => ⟨fun hj ht => sampleTrips ha hj ht, fun hj hr ht => sampleCools ha hj hr ht⟩, ⟨_, rfl, rfl⟩, overvoltage_spec s,
    fun h => onChip_next (f := cmdPwrbrakeAssert) (cmdPwrbrakeAssert_again h), fun hbr h0 => brakeBeforeBoot hbr h0,
    fun hbr hh ht => brakeInService hbr hh ht, brakeReleased s, fun ha hd => ⟨_, tapTaken ha hd lands, rfl⟩⟩

end Sys2Proof.Proofs
end

section
/-! SUPPORT. Power domains switch and fail (O59). -/

namespace Sys2Proof.Proofs

open Sys2Proof.Machine

-- A write of PWR_DOMAIN that asks for one change (R650, R652).

theorem writeDomain_same {v : Nat} {s : Chip} {d : Nat} (h : v.testBit d = fbit s aPWR_DOMAIN d) : writeDomain v s d = s := by
  unfold writeDomain
  dsimp only
  rw [h, beq_self_eq_true, Bool.true_or, Bool.true_or, Bool.true_or, if_pos rfl]

theorem writeDomain_tripped {v : Nat} {s : Chip} {d : Nat} (h : s.ras.tripped = true) : writeDomain v s d = s := by
  unfold writeDomain
  dsimp only
  rw [h, Bool.or_true, Bool.true_or, if_pos rfl]

/-- A write that differs from the register in domain `d` alone, and may act there. -/
structure asksFor (v : Nat) (s : Chip) (d : Nat) : Prop where
  others : ∀ k, k < 50 → k ≠ d → v.testBit k = fbit s aPWR_DOMAIN k
  untripped : s.ras.tripped = false
  sound : s.ras.dead.testBit d = false
  enabled : d < 36 → groupEnabled s d = true
  change : fbit s aPWR_DOMAIN d ≠ v.testBit d

/-- What the write does to that domain. -/
def changed (s : Chip) (d : Nat) (want : Bool) : Chip :=
  if want then setDomain s d true else if mayOff s d then offBlocks (setDomain s d false) d else fsat s aPWR_STATUS 31 16 1

theorem writeDomain_asked {v : Nat} {s : Chip} {d : Nat} (h : asksFor v s d) : writeDomain v s d = changed s d (v.testBit d) := by
  have hen : (decide (d < 36) && !groupEnabled s d) = false := by
    by_cases hd : d < 36
    · rw [h.enabled hd]
      simp
    · rw [decide_eq_false hd]
      rfl
  unfold writeDomain
  dsimp only
  rw [beq_false_of_ne h.change, h.sound, h.untripped, hen, if_neg (by decide)]
  rfl

theorem pwrDomainWrite_asked {v : Nat} {s : Chip} {d : Nat} (hd : d < 50) (h : asksFor v s d)
    (hkept : ∀ k, k ≠ d → fbit (changed s d (v.testBit d)) aPWR_DOMAIN k = fbit s aPWR_DOMAIN k) :
    pwrDomainWrite s v = changed s d (v.testBit d) := by
  unfold pwrDomainWrite
  rw [forEach_only List.nodup_range (List.mem_range.mpr hd), writeDomain_asked h]
  · exact fun k hk hne => writeDomain_same (h.others k (List.mem_range.mp hk) hne)
  · intro k hk hne
    rw [writeDomain_asked h]
    exact writeDomain_same (by rw [hkept k hne]; exact h.others k (List.mem_range.mp hk) hne)

theorem exec_pwrDomainWrite (s : State) (data : Word) :
    exec (.pwrDomainWrite data) s = .next { s with chip := pwrDomainWrite s.chip data.toNat } :=
  onChip_next (f := cmdPwrDomainWrite data) rfl

-- The three changes.

theorem fbit_setDomain (s : Chip) {d : Nat} (hd : d < 50) (on : Bool) (k : Nat) :
    fbit (setDomain s d on) aPWR_DOMAIN k = if k = d then on else fbit s aPWR_DOMAIN k := by
  have hbar : fbit (setDomain s d on) aPWR_DOMAIN k = fbit (fsetb s aPWR_DOMAIN d on) aPWR_DOMAIN k := rfl
  rw [hbar]
  split
  next h => rw [h, fbit_fsetb_same _ _ _ _ (by omega)]
  next h => rw [fbit_fsetb_field _ _ _ _ _ (by omega) h]

theorem fbit_changed_off (s : Chip) {d : Nat} (hd : d < 50) (hmay : mayOff s d = true) (k : Nat) :
    fbit (changed s d false) aPWR_DOMAIN k = if k = d then false else fbit s aPWR_DOMAIN k := by
  have hview := powerView_offBlocks (setDomain s d false) hd
  unfold changed
  rw [if_neg (by decide), if_pos hmay, fbit_of_barGet (powerDomain_of_view hview), fbit_setDomain s hd]

/-- The tiles of a group that is switched off must be tested and zeroed again (R650). -/
theorem offTile_spec (s : Chip) (t : Nat) : fbit (offTile s t) (aTILE_STATUS t) 0 = false ∧ fbit (offTile s t) (aTILE_STATUS t) 2 = false := by
  unfold offTile
  exact ⟨(fbit_fsetb_field _ _ _ _ _ (by omega) (by omega)).trans (fbit_fsetb_same _ _ _ _ (by omega)), fbit_fsetb_same _ _ _ _ (by omega)⟩

theorem offTile_other (s : Chip) {t k : Nat} (h : k ≠ t) (i : Nat) :
    fbit (offTile s t) (aTILE_STATUS k) i = fbit s (aTILE_STATUS k) i := by
  have hst : aTILE_STATUS k ≠ aTILE_STATUS t := fun e => h (by unfold aTILE_STATUS at e; omega)
  have hkeys : aTILE_STATUS k ∉ [aTILE_CTL t, aTILE_STATUS t] := by
    unfold aTILE_CTL aTILE_STATUS at *
    simp
    omega
  have hclean := (cleans_cleanTile s t).1.2 _ hkeys
  unfold offTile
  rw [fbit_fsetb_other _ _ _ _ hst, fbit_fsetb_other _ _ _ _ hst, fbit_modTile, fbit_of_barGet hclean]

theorem offGroup_spec (s : Chip) {d k : Nat} (hk : k ∈ groupTiles d) :
    fbit (forEach (groupTiles d) offTile s) (aTILE_STATUS k) 0 = false ∧ fbit (forEach (groupTiles d) offTile s) (aTILE_STATUS k) 2 = false := by
  obtain ⟨u, -, hlast⟩ := forEach_at (R := fun a b => ∀ i, fbit b (aTILE_STATUS k) i = fbit a (aTILE_STATUS k) i) (fun _ _ => rfl)
    (fun _ _ _ h g i => (g i).trans (h i)) (groupTiles_nodup d) hk (fun j _ hj u i => offTile_other u (Ne.symm hj) i) s
  obtain ⟨h0, h2⟩ := offTile_spec u k
  exact ⟨(hlast 0).trans h0, (hlast 2).trans h2⟩

theorem domainOff {s : State} {d : Nat} {data : Word} (hd : d < 50) (h : asksFor data.toNat s.chip d) (hv : data.toNat.testBit d = false)
    (hmay : mayOff s.chip d = true) : ∃ t, exec (.pwrDomainWrite data) s = .next t ∧ fbit t.chip aPWR_DOMAIN d = false ∧
      (∀ k, k < 50 → k ≠ d → fbit t.chip aPWR_DOMAIN k = fbit s.chip aPWR_DOMAIN k) ∧
      (d < 36 → ∀ k, k ∈ groupTiles d → fbit t.chip (aTILE_STATUS k) 0 = false ∧ fbit t.chip (aTILE_STATUS k) 2 = false) := by
  have hbit := fbit_changed_off s.chip hd hmay
  have hexec : exec (.pwrDomainWrite data) s = .next { s with chip := changed s.chip d false } := by
    rw [exec_pwrDomainWrite, pwrDomainWrite_asked hd h (by rw [hv]; exact fun k hk => (hbit k).trans (if_neg hk)), hv]
  refine ⟨_, hexec, (hbit d).trans (if_pos rfl), fun k _ hk => (hbit k).trans (if_neg hk), fun h36 k hk => ?_⟩
  have hoff : changed s.chip d false = forEach (groupTiles d) offTile (setDomain s.chip d false) := by
    unfold changed offBlocks
    rw [if_neg (by decide), if_pos hmay, if_pos h36]
  dsimp only
  rw [hoff]
  exact offGroup_spec _ hk

theorem domainHeld {s : State} {d : Nat} {data : Word} (hd : d < 50) (h : asksFor data.toNat s.chip d) (hv : data.toNat.testBit d = false)
    (hmay : mayOff s.chip d = false) : ∃ t, exec (.pwrDomainWrite data) s = .next t ∧ regsOnly [aPWR_STATUS] s t ∧
      countedOne s t aPWR_STATUS 31 16 := by
  have hch : changed s.chip d false = fsat s.chip aPWR_STATUS 31 16 1 := by
    unfold changed
    rw [if_neg (by decide), hmay, if_neg (by decide)]
  have hexec : exec (.pwrDomainWrite data) s = .next { s with chip := fsat s.chip aPWR_STATUS 31 16 1 } := by
    rw [exec_pwrDomainWrite, pwrDomainWrite_asked hd h, hv, hch]
    intro k _
    rw [hv, hch]
    exact fbit_of_barGet ((onlyBar_fsat (ks := [aPWR_STATUS]) s.chip 31 16 1 (by simp)).2 aPWR_DOMAIN (by decide)) k
  exact ⟨_, hexec, regsOnly_of_onlyBar (onlyBar_fsat _ _ _ _ (by simp)), fget_fsat_same _ _ _ _ _ (by omega) (by omega)⟩

theorem domainRises {s : State} {d : Nat} {data : Word} (hd : d < 50) (h : asksFor data.toNat s.chip d) (hv : data.toNat.testBit d = true) :
    ∃ t, exec (.pwrDomainWrite data) s = .next t ∧ fbit t.chip aPWR_DOMAIN d = true ∧ domainOn t.chip d = false ∧
      chipOnly [aPWR_DOMAIN] s t (fun c => { c with ras := t.chip.ras }) := by
  obtain ⟨u, hu⟩ : ∃ u, u = setDomain s.chip d true := exists_eq
  have hbit (k : Nat) : fbit u aPWR_DOMAIN k = if k = d then true else fbit s.chip aPWR_DOMAIN k := hu ▸ fbit_setDomain s.chip hd true k
  have hrise : u.ras.rising.testBit d = true := by
    rw [hu]
    exact testBit_setBits _ d true
  have hw : within putRas [aPWR_DOMAIN] s.chip u :=
    hu ▸ within_trans parts_ras (within_bar parts_ras (onlyBar_fsetb s.chip d true (List.mem_singleton_self aPWR_DOMAIN)))
      (within_rasMod _ _ _)
  have hch : changed s.chip d true = u := by
    unfold changed
    rw [if_pos rfl, hu]
  have hexec : exec (.pwrDomainWrite data) s = .next { s with chip := u } := by
    rw [exec_pwrDomainWrite, pwrDomainWrite_asked hd h (by rw [hv, hch]; exact fun k hk => (hbit k).trans (if_neg hk)), hv, hch]
  refine ⟨_, hexec, (hbit d).trans (if_pos rfl), ?_, chipOnly_of_within hw⟩
  unfold domainOn
  rw [hrise, Bool.not_true, Bool.and_false]

theorem domainsAsTheyAre {s : State} {data : Word}
    (h : (∀ k, k < 50 → data.toNat.testBit k = fbit s.chip aPWR_DOMAIN k) ∨ s.chip.ras.tripped = true) :
    exec (.pwrDomainWrite data) s = .next s := by
  rw [exec_pwrDomainWrite, pwrDomainWrite, forEach_eq_self]
  intro k hk
  rcases h with h | h
  · exact writeDomain_same (h k (List.mem_range.mp hk))
  · exact writeDomain_tripped h

end Sys2Proof.Proofs
end

section
/-! SUPPORT. Domains that are up again, regulators that fail, and the obligation (O59). -/

namespace Sys2Proof.Proofs

open Sys2Proof.Machine

-- A domain that is up again (R650).

/-- Nothing but registers differ, and not PWR_DOMAIN. -/
def besidePower (s u : Chip) : Prop := u = { s with bar := u.bar } ∧ barGet u aPWR_DOMAIN = barGet s aPWR_DOMAIN

theorem besidePower_of_onlyBar {ks : List Nat} {s u : Chip} (h : onlyBar ks s u) (hk : aPWR_DOMAIN ∉ ks) : besidePower s u :=
  ⟨h.1, h.2 _ hk⟩

theorem besidePower_refl (s : Chip) : besidePower s s := ⟨rfl, rfl⟩

theorem besidePower_trans {s u v : Chip} (h : besidePower s u) (g : besidePower u v) : besidePower s v := by
  obtain ⟨hu, hp⟩ := h
  obtain ⟨gv, gp⟩ := g
  exact ⟨by rw [gv, hu], gp.trans hp⟩

theorem besidePower_ite {c : Prop} [Decidable c] {s u v : Chip} (h : besidePower s u) (g : besidePower s v) :
    besidePower s (if c then u else v) := by
  split
  · exact h
  · exact g

theorem besidePower_fset (s : Chip) {k : Nat} (hi lo v : Nat) (h : aPWR_DOMAIN ≠ k) : besidePower s (fset s k hi lo v) :=
  besidePower_of_onlyBar (onlyBar_fset s hi lo v (List.mem_singleton_self k)) (by simpa using h)

theorem besidePower_forEach {α : Type} {f : Chip → α → Chip} {l : List α} (h : ∀ a ∈ l, ∀ u, besidePower u (f u a)) (s : Chip) :
    besidePower s (forEach l f s) := forEach_keeps (R := besidePower) besidePower_refl (fun _ _ _ => besidePower_trans) h s

theorem besidePower_trainLink (s : Chip) (l : Nat) : besidePower s (trainLink s l) :=
  besidePower_of_onlyBar (onlyBar_setLink s l 1 (ks := [aFL_STATUS l, aFAB_STATUS]) (by simp) (by simp)) (by
    rw [List.mem_cons, not_or]
    exact ⟨power_ne_linkStatus l, by decide⟩)

theorem power_ne_codeCtl (h : Nat) (hh : h < 2) : aPWR_DOMAIN ≠ aCODE_CTL h := by
  unfold aPWR_DOMAIN aCODE_CTL
  omega

/-- What a domain begins with again is in its own registers (R650). -/
theorem besidePower_onBlocks (s : Chip) {d : Nat} (hd : d < 50) : besidePower s (onBlocks s d) := by
  unfold onBlocks
  split
  · exact besidePower_refl s
  · split
    · refine besidePower_ite (besidePower_refl s) ?_
      exact besidePower_trans (besidePower_fset s 0 0 _ (power_ne_codeCtl _ (by omega)))
        (besidePower_fset _ _ _ _ (power_ne_codeStatus _))
    · refine besidePower_ite ?_ (besidePower_ite ?_ (besidePower_ite ?_ (besidePower_ite ?_ (besidePower_refl s))))
      · exact besidePower_forEach (fun c _ u => besidePower_ite (besidePower_fset u _ _ _ (power_ne_memStatus c)) (besidePower_refl u)) s
      · exact besidePower_forEach (fun l _ u => besidePower_ite (besidePower_trainLink u l) (besidePower_refl u)) s
      · exact besidePower_forEach
          (fun p hp u => besidePower_fset u _ _ _ (power_ne_port (List.mem_range.mp hp) (by omega))) s
      · exact besidePower_ite (besidePower_fset s _ _ _ (by decide))
          (besidePower_ite (besidePower_fset s _ _ _ (by decide)) (besidePower_refl s))

/-- A domain's power-up taken note of. -/
def risen (s : Chip) (d : Nat) : Chip := rasMod s (fun r => { r with rising := setBits r.rising d d 0 })

theorem exec_domainUp {s : State} {d : Nat} (hd : d < 50) (h : s.chip.ras.rising.testBit d = true) :
    exec (.domainPowerUpComplete d) s = .next { s with chip := onBlocks (risen s.chip d) d } :=
  onChip_next (f := cmdDomainPowerUpComplete d) (by
    unfold cmdDomainPowerUpComplete
    rw [onUnit_next hd, when, h, if_pos rfl, risen])

theorem exec_domainUp_none {s : State} {d : Nat} (hd : d < 50) (h : s.chip.ras.rising.testBit d = false) :
    exec (.domainPowerUpComplete d) s = .next s :=
  onChip_next (f := cmdDomainPowerUpComplete d) (by
    unfold cmdDomainPowerUpComplete
    rw [onUnit_next hd, when, h, if_neg (by decide)])

theorem trainLink_other (s : Chip) {j l : Nat} (h : j ≠ l) (hi lo : Nat) :
    fget (trainLink s j) (aFL_STATUS l) hi lo = fget s (aFL_STATUS l) hi lo :=
  fget_setLink_other s j 1 (by unfold aFL_STATUS; omega) (linkKeys l).1 hi lo

theorem trainLink_ctl (s : Chip) (j l i : Nat) : fbit (trainLink s j) (aFL_CTL l) i = fbit s (aFL_CTL l) i :=
  congrArg (· == 1) (fget_setLink_other s j 1 (by unfold aFL_CTL aFL_STATUS; omega) (linkKeys l).2.2.1 i i)

/-- Every enabled link of an optical group trains when its domain is up (R650). -/
theorem onLinks_spec (s : Chip) {g i : Nat} (hi : i < 8) (hen : fbit s (aFL_CTL (8 * g + i)) 0 = true) :
    linkState (forEach ((List.range 8).map (fun i => 8 * g + i))
      (fun st l => if fbit st (aFL_CTL l) 0 then trainLink st l else st) s) (8 * g + i) = 1 := by
  have hnodup : ((List.range 8).map (fun i => 8 * g + i)).Nodup :=
    List.Nodup.map (fun a b h => by omega) List.nodup_range
  obtain ⟨u, hu, hlast⟩ := forEach_at
    (R := fun a b => linkState b (8 * g + i) = linkState a (8 * g + i) ∧ fbit b (aFL_CTL (8 * g + i)) 0 = fbit a (aFL_CTL (8 * g + i)) 0)
    (fun _ => ⟨rfl, rfl⟩) (fun _ _ _ h k => ⟨k.1.trans h.1, k.2.trans h.2⟩) hnodup (List.mem_map_of_mem (List.mem_range.mpr hi))
    (f := fun st l => if fbit st (aFL_CTL l) 0 then trainLink st l else st)
    (fun j _ hj u => by
      split
      · exact ⟨trainLink_other u hj 47 44, trainLink_ctl u j _ 0⟩
      · exact ⟨rfl, rfl⟩) s
  rw [hlast.1, hu.2, hen, if_pos rfl, trainLink, linkState_setLink _ _ (by omega)]

theorem domainUp {s : State} {d : Nat} (hd : d < 50) (h : s.chip.ras.rising.testBit d = true) (hon : fbit s.chip aPWR_DOMAIN d = true) :
    ∃ t, exec (.domainPowerUpComplete d) s = .next t ∧ domainOn t.chip d = true ∧ t.chip.tiles = s.chip.tiles ∧
      t.chip.mem = s.chip.mem ∧
      (42 ≤ d → d < 46 → ∀ i, i < 8 → fbit s.chip (aFL_CTL (8 * (d - 42) + i)) 0 = true → linkState t.chip (8 * (d - 42) + i) = 1) := by
  obtain ⟨u, hu⟩ : ∃ u, u = onBlocks (risen s.chip d) d := exists_eq
  obtain ⟨hbar, hpower⟩ := besidePower_onBlocks (risen s.chip d) hd
  rw [← hu] at hbar hpower
  have hexec := exec_domainUp hd h
  rw [← hu] at hexec
  have hras : u.ras = (risen s.chip d).ras := by rw [hbar]
  have hup : domainOn u d = true := by
    have hlow : u.ras.rising.testBit d = false := by
      rw [hras]
      exact testBit_setBits _ d false
    unfold domainOn
    rw [hlow, fbit_of_barGet hpower]
    exact (Bool.and_true _).trans hon
  refine ⟨_, hexec, hup, by rw [hbar]; rfl, by rw [hbar]; rfl, fun h42 h46 i hi hen => ?_⟩
  have hlinks : u = forEach ((List.range 8).map (fun i => 8 * (d - 42) + i))
      (fun st l => if fbit st (aFL_CTL l) 0 then trainLink st l else st) (risen s.chip d) := by
    rw [hu]
    unfold onBlocks
    rw [if_neg (by omega), if_neg (by omega), if_neg (by omega), if_pos (by omega)]
  dsimp only
  rw [hlinks]
  exact onLinks_spec _ hi hen

-- A regulator that fails (R652).

/-- A domain whose regulator has failed. -/
def failedDomain (s : Chip) (d : Nat) : Chip :=
  rasMod (fsetb s aPWR_DOMAIN d false) (fun r => { r with rising := setBits r.rising d d 0, dead := setBits r.dead d d 1 })

theorem failedDomain_spec (s : Chip) {d : Nat} (hd : d < 50) :
    fbit (failedDomain s d) aPWR_DOMAIN d = false ∧ (failedDomain s d).ras.dead.testBit d = true :=
  ⟨fbit_fsetb_same s _ _ _ (by omega), testBit_setBits _ d true⟩

theorem codeState_loseHalf (s : Chip) (h st : Nat) : fget (loseHalf s h st) (aCODE_STATUS h) 3 0 = st % 2 ^ 4 := by
  obtain ⟨u, hu⟩ : ∃ u, u = forEach ((List.range 16).filter (fun k => ringHalf s k == h)) (fun u k =>
    forEach (getRing u k).jobs (fun v j => loseBlock v h j) (setRing u k { getRing u k with jobs := [] })) s := exists_eq
  have hset : fget (loseHalf s h st) (aCODE_STATUS h) 3 0 = fget (fset u (aCODE_STATUS h) 3 0 st) (aCODE_STATUS h) 3 0 := by
    rw [hu]
    rfl
  rw [hset, fget_fset_same _ _ _ _ _ (by omega) (by omega)]

theorem codeState_failBlocks (s : Chip) {d : Nat} (hd : d = 36 ∨ d = 37) : fget (failBlocks s d) (aCODE_STATUS (d - 36)) 3 0 = 2 := by
  unfold failBlocks
  rw [if_neg (by omega), if_pos (by omega)]
  split
  next h => simpa using h
  next => exact codeState_loseHalf s (d - 36) 2

theorem regulatorFails {s : State} {d : Nat} (hd : d < 50) (h47 : d ≠ 47) (h48 : d ≠ 48) :
    ∃ t, exec (.regulatorFault d) s = .next t ∧ fbit t.chip aPWR_DOMAIN d = false ∧ t.chip.ras.dead.testBit d = true ∧
      ((d = 36 ∨ d = 37) → fget t.chip (aCODE_STATUS (d - 36)) 3 0 = 2) := by
  have hexec : exec (.regulatorFault d) s = .next { s with chip := failBlocks (failedDomain s.chip d) d } :=
    onChip_next (f := cmdRegulatorFault d) (by
      unfold cmdRegulatorFault
      rw [onUnit_next hd, if_neg (by simp [h47, h48]), failedDomain])
  have hview := powerView_failBlocks (failedDomain s.chip d) hd
  obtain ⟨hoff, hdead⟩ := failedDomain_spec s.chip hd
  exact ⟨_, hexec, (fbit_of_barGet (powerDomain_of_view hview) d).trans hoff, by rw [dead_of_view hview]; exact hdead,
    fun h => codeState_failBlocks _ h⟩

/-- The package's own supplies fail (R652, R658). -/
theorem supplyFails {s : State} {d : Nat} (h : d = 47 ∨ d = 48) : ∃ t, exec (.regulatorFault d) s = .next t ∧
    t.chip.boot.off = true ∧ barGet t.chip aPWR_DOMAIN = 0 ∧ t.chip.radio.running = false ∧ t.chip.boot.undervolt = true := by
  obtain ⟨u, hu⟩ : ∃ u, u = powerLost (powerless s.chip) := exists_eq
  obtain ⟨hb, hpower, -, -⟩ := powerLost_spec (powerless s.chip)
  rw [← hu] at hb hpower
  have hexec : exec (.regulatorFault d) s = .next { s with chip := u } :=
    onChip_next (f := cmdRegulatorFault d) (by
      unfold cmdRegulatorFault
      rw [onUnit_next (by omega), if_pos (by rcases h with rfl | rfl <;> rfl), losePower_eq, hu])
  exact ⟨_, hexec, by rw [hb.1]; rfl, hpower, by rw [hb.1]; rfl, by rw [hb.1]; rfl⟩

/-- R340, R455, R650, R652: power domains. -/
theorem domainsSwitch : Clauses.DomainsSwitch := by
  intro s d data hd
  have hasks (h : (∀ k, k < 50 → k ≠ d → data.toNat.testBit k = fbit s.chip aPWR_DOMAIN k) ∧ s.chip.ras.tripped = false ∧
      s.chip.ras.dead.testBit d = false ∧ (d < 36 → groupEnabled s.chip d = true))
      (hne : fbit s.chip aPWR_DOMAIN d ≠ data.toNat.testBit d) : asksFor data.toNat s.chip d := by
    obtain ⟨hothers, htrip, hdead, hen⟩ := h
    exact ⟨hothers, htrip, hdead, hen, hne⟩
  refine ⟨fun h => domainsAsTheyAre h, fun ho hv hon hmay => domainHeld hd (hasks ho (by rw [hv, hon]; decide)) hv hmay,
    fun ho hv hon hmay => domainOff hd (hasks ho (by rw [hv, hon]; decide)) hv hmay,
    fun ho hv hoff => domainRises hd (hasks ho (by rw [hv, hoff]; decide)) hv,
    fun h => exec_domainUp_none hd h, fun h hon => domainUp hd h hon, fun h => supplyFails h,
    fun h47 h48 _ => regulatorFails hd h47 h48⟩

/-- Settles O59: what the blocks of a domain do as it goes off, strands that try again included, never reaches the power state. -/
theorem powerAndPins : Obligations.PowerAndPins := by
  unfold Obligations.PowerAndPins
  exact ⟨domainsSwitch, powerIsHeld, pinsAct⟩

end Sys2Proof.Proofs
end
